-- ==== Sys2Proof/Word.lean ====
section
/-! DEFINITION. The word and byte types and their plainest arithmetic (spec 00 R2, R11). -/

namespace Sys2Proof

/-- A register word (R2: every register is 32 bits wide). -/
abbrev Word := BitVec 32

/-- A byte of a frame, a message or a memory line. -/
abbrev Byte := BitVec 8

end Sys2Proof
end

