-- ==== Sys2Proof/Syntax.lean ====
section
/-! DEFINITION. The commands of the PK3264: one constructor of `Instr` for each row of the operation table, with
the operands a sender gives it. A timer's expiry, a measurement or an arrival is a command too (95_what_each_step_holds). -/

namespace Sys2Proof

/-- Access paths (R47); `firmware` is the management cluster's own interface, which is no BAR0 path (R231, R286). -/
inductive Path where
  | pcie | svc | fabric | firmware
  deriving DecidableEq, Repr

/-- Who makes an access: the path, and the fabric address when the path is the fabric (R47). -/
structure Who where
  path : Path
  addr : BitVec 6
  deriving DecidableEq, Repr

/-- The PCIe host. -/
def Who.host : Who := Who.mk .pcie 0
/-- The service port. -/
def Who.service : Who := Who.mk .svc 0
/-- The management firmware's own interface. -/
def Who.fw : Who := Who.mk .firmware 0

/-- The CLAIM writes that reach the device in one clock (R58): a path's, those of the other paths, and whether a class 1 decision
is applied in that clock (R95). -/
structure ClaimSet where
  who : Who
  rivals : List Who
  decided : Bool
  deriving DecidableEq, Repr

/-- A CLAIM that reaches the device alone. -/
def Who.alone (w : Who) : ClaimSet := ClaimSet.mk w [] false

/-- The three lane units (R97). -/
inductive LaneUnit where
  | lnc | lnl | lnf
  deriving DecidableEq, Repr

/-- A lane: its unit and its number within the unit (R97; LNF has lanes 0 to 15 only). -/
structure Lane where
  unit : LaneUnit
  idx : Fin 32
  deriving DecidableEq, Repr

/-- A lane's symbol: an NRZ bit, or a PAM4 level of -3, -1, 1 or 3 (R103, R104). -/
inductive Symbol where
  | nrz (bit : Bool)
  | pam4 (level : Int)
  deriving DecidableEq, Repr

/-- What a pattern checker has heard on its lane: the symbols received last (R126). -/
structure PrbsHeard where
  lane : Lane
  symbols : List Symbol
  deriving DecidableEq, Repr

/-- The two sides of a port pair (R1). -/
inductive Side where
  | client | line
  deriving DecidableEq, Repr

/-- The two datapath directions. -/
inductive Dir where
  | enc | dec
  deriving DecidableEq, Repr

/-- What a Clause 73 page from the partner brings (R107, R110). -/
inductive AnPage where
  | base            -- a base page, resolution still open
  | resolvedKr      -- resolves to the KR PMD
  | resolvedCr      -- resolves to the CR PMD
  | resolvedOther   -- resolves to another technology
  deriving DecidableEq, Repr

/-- Why the PCS of a port stops being aligned (R145). -/
inductive PcsCause where
  | blockLock | align | hiSer
  deriving DecidableEq, Repr

/-- The fault an RS receives (R147). -/
inductive RsFault where
  | none | localFault | remoteFault
  deriving DecidableEq, Repr

/-- The outcome of decoding one RS codeword (R157). -/
inductive Codeword where
  | clean | corrected | uncorrectable
  deriving DecidableEq, Repr

/-- A received Reed-Solomon codeword: the place of its first bit among the 5,440 bits of a codeword time, which is the candidate
boundary it tests, and its bits (R156, R157). -/
structure HeardWord where
  place : Fin 5440
  bits : List Bool
  deriving DecidableEq, Repr

/-- What the error code finds when a line is read (R393, R417). -/
inductive Ecc where
  | good | correctable | ueData | ueTree
  deriving DecidableEq, Repr

/-- What external memory returns for one line of a data line's path (R416): the data line's number, the line's 64 bytes, and its MAC,
which for a tree node stands in its own bytes 56 to 63 (R403). -/
structure MemRead where
  line : Nat
  data : List Byte
  mac : List Byte
  deriving DecidableEq, Repr

/-- Clients of the memory guard, in the service order of R414. -/
inductive MemClient where
  | changeover | seal | pager | persist | vault | loader | firmware
  deriving DecidableEq, Repr

/-- A domain's answer to the gaffer (R513). -/
inductive DomAnswer where
  | ack | delay | refuse
  deriving DecidableEq, Repr

/-- The doubled decisions of R534. -/
inductive Decision where
  | monitor (m : Fin 9) | signature | update | memory
  deriving DecidableEq, Repr

/-- The two heartbeat paths (R487). -/
inductive HbPath where
  | fab | lvds
  deriving DecidableEq, Repr

/-- The reset inputs (R575). -/
inductive ResetBall where
  | resetN | perstN
  deriving DecidableEq, Repr

/-- The supply rails in the numbering of GAF_SUPPLY_STS (R523, R537). -/
inductive Rail where
  | core | aux | sdA | sdH | ddr
  deriving DecidableEq, Repr

/-- The commands: one constructor per row of the operation table. -/
inductive Instr where
  -- register access (02 R47 to R54, 00 R2 to R7)
  | regWrite (who : Who) (off : BitVec 28) (val : Word)
  | misalignedAccess (who : Who) (write : Bool)
  | readLowWord (who : Who) (off : BitVec 28)
  | readHighWord (who : Who) (off : BitVec 28)
  | bar2Read (off : BitVec 22)
  | remoteApertureAccess (who : Who) (off : BitVec 24) (write : Bool) (data : Word)
  | remoteAccessTimeout (path : Path)
  | regReqRetry (path : Path)
  | spiTransaction (opcode : Byte) (off : Word) (data : Word)
  | i2cTransaction (write : Bool) (off : Word) (data : Word)
  | svcReadTimeout (spi : Bool)
  | i2cSdaStuck (stillLow : Bool)
  | i2cSclStuck (reading : Bool)
  -- ownership (R55 to R59)
  | claim (who : ClaimSet)
  | confirm (who : Who)
  | release (who : Who)
  | handoverOffer (who : Who) (target : Path) (addr : BitVec 6) (ms : BitVec 16)
  | handoverWithdraw (who : Who)
  | offerExpiry
  -- loader (R70 to R83)
  | loadOpen (who : Who) (kind : BitVec 4) (len : BitVec 24)
  | loadData (who : Who) (data : Word)
  | loadVerify (who : Who)
  | verifyDone
  | loadApply (who : Who)
  | applyDone
  | loadClose (who : Who)
  | loaderIdleTimeout
  -- mailbox and firmware (R84 to R88)
  | mbxGetInfo (who : Who) (tag : Byte)
  | mbxMkaDelegate (who : Who) (tag : Byte)
  | mbxMkaRelease (who : Who) (tag : Byte)
  | mbxMkaStatus (who : Who) (tag : Byte)
  | mbxPtpHandle (who : Who) (tag : Byte)
  | mbxLogRead (who : Who) (tag : Byte)
  | mbxSelfTest (who : Who) (tag : Byte)
  | mbxDone (result : BitVec 16) (rsp : List Word)
  | mbxTimeout
  | fwWatchdogReset
  | fwDelegationResume (handle : Word)
  | fwRun
  | fwFrameTx (n : Fin 64) (frame : List Byte)
  -- reset and start-up (R89 to R94, R570, R575)
  | resetAssert (ball : ResetBall)
  | powerOnReset
  | resetRelease (bootMode : BitVec 2) (ddrCfg : BitVec 4)
  | aonCheckDone (burnOk : Bool)
  | vaultStageDone (entropyOk : Bool) (burnOk : Bool) (weak : Byte) (kat : BitVec 2)
  | entropyStartupTimeout
  | memoryInitDone (rate : BitVec 2) (pinnedOk : Bool)
  | ddrTrainTimeout
  | portsEnable
  -- lanes (03)
  | quadPowered (unit : LaneUnit) (quad : Fin 8)
  | laneCfgWrite (who : Who) (lane : Lane) (val : Word)
  | laneRestart (who : Who) (lane : Lane)
  | lanePrbsCfgWrite (who : Who) (lane : Lane) (val : Word)
  | cdrLock (lane : Lane)
  | cdrUnlock (lane : Lane)
  | los (lane : Lane)
  | signalStable (lane : Lane)
  | ktfReceived (lane : Lane) (lead : List Bool) (ktf : List Byte) (knownBits errs : Nat)
  | stepResume (lane : Lane)
  | rungTimeout (lane : Lane)
  | failRetry (lane : Lane)
  | anPageReceived (lane : Lane) (page : AnPage)
  | anTimerExpiry (lane : Lane)
  | ieeeTrainDone (lane : Lane)
  | ieeeTrainTimeout (lane : Lane)
  | prbsLock (heard : PrbsHeard)
  | prbsLockLost (lane : Lane) (bits errs : Nat)
  | injOnce (who : Who) (lane : Lane)
  | injBurst (lane : Lane)
  | refclkLost (unit : LaneUnit)
  | refclkRestored (unit : LaneUnit)
  -- Ethernet ports (04)
  | macRxFrame (side : Side) (k : Fin 32) (frame : List Byte) (pcsError : Bool)
  | pcsAligned (side : Side) (k : Fin 32)
  | pcsAlignLost (side : Side) (k : Fin 32) (cause : PcsCause)
  | deskewFail (side : Side) (k : Fin 32)
  | rsFaultRx (side : Side) (k : Fin 32) (fault : RsFault)
  | linkUp (side : Side) (k : Fin 32)
  | faultMirrorStart (side : Side) (k : Fin 32)
  | faultMirrorStop (side : Side) (k : Fin 32)
  | fecInterval (side : Side) (k : Fin 32) (corrCw uncorrCw : Nat) (laneSyms : List Nat)
  -- Korone (05)
  | korCodeword (lane : Lane) (word : HeardWord)
  | korLaneFrameRx (lane : Fin 32) (place : Fin 131072) (head body : List Byte) (skewNs : Nat)
  | korLinkUp (k : Fin 32)
  | korFramePeriodTx (k : Fin 32) (blocks : List (BitVec 66))
  | streamPeriodRx (k : Fin 32) (frameCount : Word) (skey : Word) (spn : BitVec 64) (jc : List Byte)
      (noContent : Bool) (blocks : List (BitVec 66))
  | streamTagVerify (k : Fin 32) (tag : BitVec 128)
  | korCapsuleRx (k : Fin 32) (capsule : List Byte) (viaPtr : Bool) (nextHead : Word)
  | korCapsuleTx (k : Fin 32)
  | csfStart (k : Fin 32)
  | csfStop (k : Fin 32)
  | korDegradeInterval (k : Fin 32)
  | cueSend (who : Who) (k : Fin 32)
  | cueTxDone (k : Fin 32)
  | cueRxFrame (k : Fin 32) (msg : List Byte)
  | cuePop (who : Who) (k : Fin 32)
  | dailiesLatch (sec : BitVec 48)
  -- classification (06)
  | fltLookup (n : Fin 64)
  | fltInsert (who : Who) (wide : Bool) (profile : BitVec 4)
  | fltDelete (who : Who) (byIndex wide : Bool) (profile : BitVec 4)
  | fltRead (who : Who)
  | fltModify (who : Who) (byIndex wide : Bool) (profile : BitVec 4)
  | fltSearch (who : Who) (wide : Bool) (profile : BitVec 4)
  | harvestHits (who : Who)
  | fltCmdDone
  | tsWrite (who : Who) (idx : BitVec 16)
  | tsRead (who : Who) (idx : BitVec 16)
  | tsClear (who : Who) (idx : BitVec 16)
  | ccSigWrite (who : Who) (sig : Word)
  | ccLift (who : Who) (group : BitVec 15)
  | ccCompare (group : BitVec 15)
  | fltCcMismatchRead (who : Who)
  | fltFwLogRead (who : Who)
  -- associations (07)
  | install (who : Who)
  | activate (who : Who)
  | retire (who : Who)
  | ascRead (who : Who)
  | readCounters (who : Who)
  | pin (who : Who)
  | unpin (who : Who)
  | advancePn (who : Who)
  | setSuccessor (who : Who)
  | join (who : Who)
  | leave (who : Who)
  | troupeCreate (who : Who)
  | troupeDelete (who : Who)
  | troupeParent (who : Who)
  | schedule (who : Who)
  | cancel (who : Who)
  | dissolveStatus (who : Who)
  | ascCmdDone
  | ascRekeyLogRead (who : Who)
  | ascFaultLogRead (who : Who)
  | storeReady
  | pageInDone (assoc : BitVec 20) (ecc : Ecc)
  | markPersisted (assoc : BitVec 20)
  | dissolveOpen (entry : Fin 256)
  | dissolveSwitch (entry : Fin 256)
  | dissolveClose (entry : Fin 256)
  -- cipher farm (08)
  | sliceDone (frame : Nat) (slice : Nat)
  | splicerRelease (frame : Nat)
  | cutRelease (frame : Nat)
  | maskSeed (core : Fin 512)
  | maskStarved (core : Fin 512)
  | katDone (core : Fin 512) (pass : Bool)
  | carouselLoadTick
  | ringWakeDone (r : Fin 32) (pass : BitVec 16)
  | ringSleepAck (r : Fin 32)
  | ringKat (who : Who) (r : Fin 32) (cores : BitVec 16)
  | ringRestore (who : Who) (r : Fin 32) (cores : BitVec 16)
  | gateTimeout (slot : BitVec 16)
  | dupCheckDone (frame : Nat) (equal : Bool) (coreA coreB : Fin 512)
  | noCores (dir : Dir)
  -- buffers and scheduling (09)
  | poolCfgWrite (who : Who) (pool : Fin 9) (val : Word)
  | bpmUe (frame : Nat) (addr : Word)
  | egressStart (m : Fin 64)
  | txFrameDone (m : Fin 64) (crcOk : Bool)
  | shaperRefill
  | shpWrite (who : Who) (shaper : BitVec 16)
  | shpRead (who : Who) (shaper : BitVec 16)
  | mapWrite (who : Who) (valid : Bool) (assoc : BitVec 20)
  | mapRead (who : Who) (assoc : BitVec 20)
  | ptpSlotDue (m : Fin 64)
  | histSnap (who : Who) (m : Fin 64)
  -- time (10)
  | timRateWrite (who : Who) (rate : Word)
  | timSet (who : Who)
  | timAdd (who : Who)
  | timNowRead (who : Who)
  | holdoverTimeout
  | ppsLost
  | ppsInEdge (highNs : Nat)
  | timeEventEdge (highNs : Nat)
  | timCapPop (who : Who) (c : Fin 2)
  | ppsOutEdge (rise : Bool)
  | xtalCalDone (offset : Word)
  | fuWaitTimeout (frame : Option Nat)
  -- memory guard (11)
  | mgdReadComplete (client : MemClient) (line : Nat) (ecc : Ecc) (level : Byte) (missed : Bool)
  | memVerdict (assoc : BitVec 20) (true1 true2 : Bool) (line : MemRead) (level : Byte)
  | mgdWriteComplete (client : MemClient) (place : Nat) (data : List Byte)
  | chgStart (who : Who) (region : BitVec 3)
  | chgPage
  | seal (ok : Bool)
  -- vault and utility cipher engine (12)
  | vltGenerate (who : Who)
  | vltImport (who : Who)
  | vltStore (who : Who)
  | vltFetch (who : Who)
  | vltAttest (who : Who)
  | vltCmdDone
  | vltRandomRead (who : Who)
  | drbgReseed
  | entropyFail
  | entropyRetest (pass : Bool)
  | bbsRemask
  | updOpen (who : Who) (len : BitVec 11)
  | updData (who : Who) (data : Word)
  | updApply (who : Who)
  | updClose (who : Who)
  | updApplyDone (burnOk : Bool)
  | lcSelfReset
  | uceStart (who : Who) (c : Fin 2)
  | uceFeed (who : Who) (c : Fin 2) (last : Bool) (segLen : BitVec 14)
  | uceFeedDone (c : Fin 2)
  | uceAbort (who : Who) (c : Fin 2)
  | slotWrite (who : Who) (slot : Fin 16) (size256 : Bool)
  | loadBlob (who : Who) (slot : Fin 16)
  | loadBlobDone
  | slotErase (who : Who) (slot : Fin 16)
  -- fabric and stand-in pairs (13)
  | fabCellRx (link : Fin 4) (lane : Fin 4) (inPlace : Bool) (cell : List Byte)
  | fabLinkUp (link : Fin 4)
  | helloTx
  | neighbourLost (link : Fin 4)
  | heartbeatTx
  | lvdsHeartbeatRx (hb : List Byte)
  | hbTick (path : HbPath)
  | initWaitExpiry
  | fenceTimer
  | fenceDone
  | markRetry (seq : BitVec 16)
  | resyncDone
  | switchover (who : Who)
  | switchoverDone
  | selfTestRing
  | stateCrcTx
  | fabDivergeLogRead (who : Who)
  -- power and tamper (14)
  | gafRequest (who : Who) (target : BitVec 2)
  | domainAnswer (dom : Fin 104) (answer : DomAnswer)
  | domainAnswerTimeout (dom : Fin 104)
  | admissionDrainTimeout
  | gafTransitionDone (xtalTicks : Nat)
  | accessWake (dom : Fin 104)
  | domainIdleSleep (dom : Fin 104)
  | dormantAccess (who : Who) (off : BitVec 28) (write : Bool) (data : Word)
  | wakeSense
  | railWarning (rail : Rail)
  | railWarningClear (rail : Rail) (durUs : Nat)
  | railBelowReset (rail : Rail)
  | vbatLow
  | monitorSample (m : Fin 9) (event : Bool) (sampleMs : Nat)
  | evidenceBurn (readBack : Bool)
  | verdictSecondTaking (decision : Decision) (upset : Bool)
  | aonLatchRead (who : Who)
  -- alarms, counters, spotlight (15)
  | evtLogPop (who : Who)
  | releasePorts (who : Who) (ports : Word)
  | qdevLift (who : Who)
  | msixUnmask (vector : Option (Fin 8))
  | cntSnap (who : Who) (group : BitVec 11)
  | cntClear (who : Who) (group : BitVec 11)
  | sptTailWrite (who : Who) (index : BitVec 12)
  -- rows that end the table
  | cutUnderrun (frame : Nat)
  | resyncSweep
  | ktfTx (lane : Lane)
  deriving DecidableEq, Repr

end Sys2Proof
end

