-- ==== Sys2Proof/WellFormed.lean ====
section
/-! DEFINITION. Which commands can be given at all: what the operand types do not already say. `exec` does not check it (log
16): a sender cannot form an ill-formed command. -/

namespace Sys2Proof

/-- LNF has lanes 0 to 15 only (R97). -/
def Lane.ok (l : Lane) : Bool := decide (l.unit ≠ .lnf) || decide (l.idx.val < 16)

/-- A command is well formed: its lane or quad exists (R97, R98), and a byte string has the length of the unit it is: a training
frame of 64 bytes (R111), the head and overhead of a lane frame (R158), a capsule with its head (R172), a cell (R474), a
heartbeat (R485), a line of memory (R393), a cue frame (R196). -/
def Instr.wf : Instr → Bool
  | .regWrite _ _ _ => true
  | .misalignedAccess _ _ => true
  | .readLowWord _ _ => true
  | .readHighWord _ _ => true
  | .bar2Read _ => true
  | .remoteApertureAccess _ _ _ _ => true
  | .remoteAccessTimeout _ => true
  | .regReqRetry _ => true
  | .spiTransaction _ _ _ => true
  | .i2cTransaction _ _ _ => true
  | .svcReadTimeout _ => true
  | .i2cSdaStuck _ => true
  | .i2cSclStuck _ => true
  | .claim _ => true
  | .confirm _ => true
  | .release _ => true
  | .handoverOffer _ _ _ _ => true
  | .handoverWithdraw _ => true
  | .offerExpiry => true
  | .loadOpen _ _ _ => true
  | .loadData _ _ => true
  | .loadVerify _ => true
  | .verifyDone => true
  | .loadApply _ => true
  | .applyDone => true
  | .loadClose _ => true
  | .loaderIdleTimeout => true
  | .mbxGetInfo _ _ => true
  | .mbxMkaDelegate _ _ => true
  | .mbxMkaRelease _ _ => true
  | .mbxMkaStatus _ _ => true
  | .mbxPtpHandle _ _ => true
  | .mbxLogRead _ _ => true
  | .mbxSelfTest _ _ => true
  | .mbxDone _ rsp => decide (rsp.length ≤ 16)
  | .mbxTimeout => true
  | .fwWatchdogReset => true
  | .fwDelegationResume _ => true
  | .fwRun => true
  | .fwFrameTx _ frame => decide (14 ≤ frame.length)
  | .resetAssert _ => true
  | .powerOnReset => true
  | .resetRelease _ _ => true
  | .aonCheckDone _ => true
  | .vaultStageDone _ _ _ _ => true
  | .entropyStartupTimeout => true
  | .memoryInitDone _ _ => true
  | .ddrTrainTimeout => true
  | .portsEnable => true
  | .quadPowered unit quad => decide (unit ≠ .lnf) || decide (quad.val < 4)
  | .laneCfgWrite _ l _ => l.ok
  | .laneRestart _ l => l.ok
  | .lanePrbsCfgWrite _ l _ => l.ok
  | .cdrLock l => l.ok
  | .cdrUnlock l => l.ok
  | .los l => l.ok
  | .signalStable l => l.ok
  | .ktfReceived lane _ ktf known errs => lane.ok && decide (ktf.length = 64) && decide (errs ≤ known)
  | .stepResume l => l.ok
  | .rungTimeout l => l.ok
  | .failRetry l => l.ok
  | .anPageReceived l _ => l.ok
  | .anTimerExpiry l => l.ok
  | .ieeeTrainDone l => l.ok
  | .ieeeTrainTimeout l => l.ok
  | .prbsLock h => h.lane.ok
  | .prbsLockLost lane bits errs => lane.ok && decide (errs ≤ bits)
  | .injOnce _ l => l.ok
  | .injBurst l => l.ok
  | .refclkLost _ => true
  | .refclkRestored _ => true
  | .macRxFrame _ _ frame _ => decide (1 ≤ frame.length)
  | .pcsAligned _ _ => true
  | .pcsAlignLost _ _ _ => true
  | .deskewFail _ _ => true
  | .rsFaultRx _ _ _ => true
  | .linkUp _ _ => true
  | .faultMirrorStart _ _ => true
  | .faultMirrorStop _ _ => true
  | .fecInterval _ _ corrCw uncorrCw laneSyms => decide (corrCw + uncorrCw < 2 ^ 48) && decide (laneSyms.length ≤ 16)
  | .korCodeword l w => decide (l.unit ≠ .lnc) && l.ok && decide (w.bits.length = 5440)
  | .korLaneFrameRx _ _ head body _ => decide (head.length = 8) && (decide (body.length = 56) || decide (body.length = 16376))
  | .korLinkUp _ => true
  | .korFramePeriodTx _ _ => true
  | .streamPeriodRx _ _ _ _ _ _ _ => true
  | .streamTagVerify _ _ => true
  | .korCapsuleRx _ capsule _ _ => decide (4 ≤ capsule.length) && decide (capsule.length ≤ 16387)
  | .korCapsuleTx _ => true
  | .csfStart _ => true
  | .csfStop _ => true
  | .korDegradeInterval _ => true
  | .cueSend _ _ => true
  | .cueTxDone _ => true
  | .cueRxFrame _ msg => decide (1 ≤ msg.length) && decide (msg.length ≤ 260)
  | .cuePop _ _ => true
  | .dailiesLatch _ => true
  | .fltLookup _ => true
  | .fltInsert _ _ _ => true
  | .fltDelete _ _ _ _ => true
  | .fltRead _ => true
  | .fltModify _ _ _ _ => true
  | .fltSearch _ _ _ => true
  | .harvestHits _ => true
  | .fltCmdDone => true
  | .tsWrite _ _ => true
  | .tsRead _ _ => true
  | .tsClear _ _ => true
  | .ccSigWrite _ _ => true
  | .ccLift _ _ => true
  | .ccCompare _ => true
  | .fltCcMismatchRead _ => true
  | .fltFwLogRead _ => true
  | .install _ => true
  | .activate _ => true
  | .retire _ => true
  | .ascRead _ => true
  | .readCounters _ => true
  | .pin _ => true
  | .unpin _ => true
  | .advancePn _ => true
  | .setSuccessor _ => true
  | .join _ => true
  | .leave _ => true
  | .troupeCreate _ => true
  | .troupeDelete _ => true
  | .troupeParent _ => true
  | .schedule _ => true
  | .cancel _ => true
  | .dissolveStatus _ => true
  | .ascCmdDone => true
  | .ascRekeyLogRead _ => true
  | .ascFaultLogRead _ => true
  | .storeReady => true
  | .pageInDone _ _ => true
  | .markPersisted _ => true
  | .dissolveOpen _ => true
  | .dissolveSwitch _ => true
  | .dissolveClose _ => true
  | .sliceDone _ _ => true
  | .splicerRelease _ => true
  | .cutRelease _ => true
  | .maskSeed _ => true
  | .maskStarved _ => true
  | .katDone _ _ => true
  | .carouselLoadTick => true
  | .ringWakeDone _ _ => true
  | .ringSleepAck _ => true
  | .ringKat _ _ _ => true
  | .ringRestore _ _ _ => true
  | .gateTimeout _ => true
  | .dupCheckDone _ _ _ _ => true
  | .noCores _ => true
  | .poolCfgWrite _ _ _ => true
  | .bpmUe _ _ => true
  | .egressStart _ => true
  | .txFrameDone _ _ => true
  | .shaperRefill => true
  | .shpWrite _ _ => true
  | .shpRead _ _ => true
  | .mapWrite _ _ _ => true
  | .mapRead _ _ => true
  | .ptpSlotDue _ => true
  | .histSnap _ _ => true
  | .timRateWrite _ _ => true
  | .timSet _ => true
  | .timAdd _ => true
  | .timNowRead _ => true
  | .holdoverTimeout => true
  | .ppsLost => true
  | .ppsInEdge _ => true
  | .timeEventEdge _ => true
  | .timCapPop _ _ => true
  | .ppsOutEdge _ => true
  | .xtalCalDone _ => true
  | .fuWaitTimeout _ => true
  | .mgdReadComplete _ _ _ _ _ => true
  | .memVerdict _ _ _ read _ => decide (read.data.length = 64) && decide (read.mac.length = 8)
  | .mgdWriteComplete _ place data => (decide (data.length = 64) && decide (place % 64 = 0)) ||
      (decide (8 ≤ data.length) && decide (data.length ≤ 32) && decide (place % 64 + data.length ≤ 64))
  | .chgStart _ _ => true
  | .chgPage => true
  | .seal _ => true
  | .vltGenerate _ => true
  | .vltImport _ => true
  | .vltStore _ => true
  | .vltFetch _ => true
  | .vltAttest _ => true
  | .vltCmdDone => true
  | .vltRandomRead _ => true
  | .drbgReseed => true
  | .entropyFail => true
  | .entropyRetest _ => true
  | .bbsRemask => true
  | .updOpen _ _ => true
  | .updData _ _ => true
  | .updApply _ => true
  | .updClose _ => true
  | .updApplyDone _ => true
  | .lcSelfReset => true
  | .uceStart _ _ => true
  | .uceFeed _ _ _ _ => true
  | .uceFeedDone _ => true
  | .uceAbort _ _ => true
  | .slotWrite _ _ _ => true
  | .loadBlob _ _ => true
  | .loadBlobDone => true
  | .slotErase _ _ => true
  | .fabCellRx _ _ _ cell => decide (cell.length = 256)
  | .fabLinkUp _ => true
  | .helloTx => true
  | .neighbourLost _ => true
  | .heartbeatTx => true
  | .lvdsHeartbeatRx hb => decide (hb.length = 18)
  | .hbTick _ => true
  | .initWaitExpiry => true
  | .fenceTimer => true
  | .fenceDone => true
  | .markRetry _ => true
  | .resyncDone => true
  | .switchover _ => true
  | .switchoverDone => true
  | .selfTestRing => true
  | .stateCrcTx => true
  | .fabDivergeLogRead _ => true
  | .gafRequest _ _ => true
  | .domainAnswer _ _ => true
  | .domainAnswerTimeout _ => true
  | .admissionDrainTimeout => true
  | .gafTransitionDone _ => true
  | .accessWake _ => true
  | .domainIdleSleep _ => true
  | .dormantAccess _ _ _ _ => true
  | .wakeSense => true
  | .railWarning _ => true
  | .railWarningClear _ _ => true
  | .railBelowReset _ => true
  | .vbatLow => true
  | .monitorSample _ _ _ => true
  | .evidenceBurn _ => true
  | .verdictSecondTaking _ _ => true
  | .aonLatchRead _ => true
  | .evtLogPop _ => true
  | .releasePorts _ _ => true
  | .qdevLift _ => true
  | .msixUnmask _ => true
  | .cntSnap _ _ => true
  | .cntClear _ _ => true
  | .sptTailWrite _ _ => true
  | .cutUnderrun _ => true
  | .resyncSweep => true
  | .ktfTx l => l.ok

end Sys2Proof
end

