-- ==== Sys2Proof/Decode.lean ====
section
/-! DEFINITION. The decoder of table words. The operation table gives bits to no row, so no word spells a command
(log 15). -/

namespace Sys2Proof

/-- The command that a word of nbits bits spells by the table's bits: none, since the table gives no row any bits. -/
def decodeTableWord (_nbits _w : Nat) : Option Instr := none

end Sys2Proof
end

