-- ==== Sys2Proof/Config.lean ====
section
/-! DEFINITION. What a part fixes and the spec leaves open: the free values and the functions that no rule gives. Nothing here has a
body, so no proof can lean on a value of it. -/

namespace Sys2Proof

/-- A value the spec leaves open, numbered by the draws a run has made: a random number, an undefined or unstated
result (log 1). -/
opaque Config.freeValue : Nat → BitVec 512

/-- The hash that places a flow key in a subtable (R217, R218): the secret's draw, the subtable and the key (log 3). -/
opaque Config.flowHash : Nat → Nat → BitVec 256 → Nat

/-- How the device scales five transmitter taps whose sum is beyond full swing, as a packed LNx_TXEQ word (R122; log 5). -/
opaque Config.scaleTaps : Word → Word

/-- A firmware image carries a right signature of the Olutus firmware key: the image's layout is not given (R74, R78;
log 4). -/
opaque Config.firmwareOk : List Byte → Bool

/-- The Olutus life-cycle key, whose digest stands in the ROM (R94, R429, R447; log 4). -/
opaque Config.lifeCycleKey : List Byte

/-- The store size N that the records of a script's ASC_STORE section set: no register or record for it is given (R245;
log 8). -/
opaque Config.storeSize : List (Nat × Word) → Nat

/-- The number by which ASC_LOG_OVF names a log, the flag for ASC_FAULT_LOG: none is given (R285; log 34). -/
opaque Config.logCode : Bool → Nat

/-- The bits of SSPRQ by place: IEEE 802.3 Clause 120 gives them, no rule does (R124; log 78). -/
opaque Config.ssprq : Nat → Bool

/-- The bits that a core's mask generator makes from a seed, 256 at a time: no rule gives the generator (R294; log 88). -/
opaque Config.maskBits : BitVec 256 → Nat → BitVec 256

end Sys2Proof
end

