-- ==== Sys2Proof/Machine/State.lean ====
section
/-! DEFINITION. The state of the block as plain data: the register file, the counters, and every unit's own state
(INVENTORY.md, State), the queue of waiting commands, and the machine right after reset. -/

namespace Sys2Proof.Machine

/-- Sparse data by key: rising keys, no entry equal to what an unlisted key reads as (its default stands with each
use). -/
abbrev SMap (α : Type) := List (Nat × α)

/-- Why the block can stop with a fault. No command of this block does: every error is a counter, a result code or
an event (INVENTORY.md, Faults). -/
inductive Fault where
  /-- Raised by nobody: it stands here because the host's interface names a fault type. Safe. -/
  | unreachable
  deriving DecidableEq, Repr

/-- Why a command has no meaning. -/
inductive Refusal where
  /-- Raised by an arm of `exec` whose command has no meaning yet. Safe. -/
  | notModelled (mnemonic : String)
  deriving DecidableEq, Repr

/-- The condition of the device as the ball table names it (R577, R506). -/
inductive Cond where
  | battery     -- only VBAT present (BATTERY)
  | reset       -- in reset, or held in reset by start-up
  | running     -- out of reset, start-up stages 2 to 10
  | halted      -- R546
  deriving DecidableEq, Repr

/-- What the block gives to the outside: the model's own trace, newest first. -/
inductive Output where
  | readData (path : Path) (data : Word)          -- the answer of a register read
  | bar2Data (data : Word)                        -- the answer of a BAR2 read
  | svcBytes (bytes : List Byte)                  -- bytes an SPI or I2C master reads
  | i2cBusClear                                   -- nine clocks and a stop (R581)
  | frame (egress : Nat) (bytes : List Byte) (stomped : Bool)   -- an Ethernet frame leaving a port
  | capsule (port : Nat) (bytes : List Byte)      -- a Korone capsule, head included
  | laneFrame (lane : Nat) (bytes : List Byte)    -- a Korone lane frame before scrambling (R158)
  | stream (port : Nat) (blocks : List (BitVec 66))             -- blocks delivered to a client PCS (R189)
  | errorBlocks (port : Nat) (count : Nat)        -- a period delivered as error control blocks (R24)
  | localFault (port : Nat)                       -- a period delivered as local fault ordered sets (R190)
  | periodSent (port : Nat) (count : Word) (blocks : List (BitVec 66))   -- the blocks a stream period carries (R185)
  | serial (lane : Lane) (symbols : List Symbol)  -- symbols on a lane's pair: a training frame, a test pattern, a loopback
  | inverted (lane : Lane) (count : Nat)          -- consecutive bits of a lane's output that the injector inverts (R127)
  | anPages (lane : Lane) (width medium : Nat)    -- Clause 73 pages that advertise one PMD, with RS-FEC (R106, R107)
  | cell (link : Nat) (lane : Nat) (bytes : List Byte)          -- a Gwelek cell, before scrambling and coding (R474)
  | heartbeat (levels : List Bool)                -- a heartbeat frame on the LVDS pair, two levels a bit (R487)
  | msix (vector : Nat)                           -- an MSI-X message (R548)
  | punt (n : Nat) (reason : Nat) (stamp : Word) (entry : Option Nat) (bytes : List Byte)  -- R227
  | memory (off : Nat) (bytes : List Byte)        -- a line written to external memory at a physical offset (R395, R400)
  | memData (client : MemClient) (line : Nat) (bytes : List Byte)   -- a line delivered to a client of the guard (R415)
  | toFirmware (opcode : Nat) (args : List Word)  -- a mailbox command handed to the cluster (R84)
  | ppsEdge (level : Bool)                        -- R377
  deriving DecidableEq, Repr

/-- The read latch of one path: the register whose low word was read, and its high word (R7). -/
structure Latch where
  off : Option Nat
  high : Word
  deriving DecidableEq, Repr

/-- A register access sent over the fabric and not yet answered (R49, R481). -/
structure RemoteReq where
  dst : Nat
  tag : Nat
  off : Nat
  write : Bool
  data : Word
  deriving DecidableEq, Repr

/-- The form in which an access comes and is answered: on BAR0, as an SPI or I2C transaction, or as a fabric request with its TAG
(R47, R50, R51, R481). -/
inductive Form where
  | bar | spi | i2c
  | fab (tag : Nat)
  deriving DecidableEq, Repr

/-- An access that waits for a power domain, or behind one that does (R52, R518). -/
structure Held where
  who : Who
  form : Form
  off : Nat
  write : Option Word      -- the word of a write
  deriving DecidableEq, Repr

/-- What each access path has a copy of. -/
structure PathState where
  latch : Latch            -- R7
  nowSec : BitVec 48       -- the seconds latched with TIM_NOW_NS (R369)
  remoteSel : Word         -- CTL_REMOTE_SEL (R63)
  cntWin : Word            -- CNT_WIN_CMD (R552)
  snapGroup : Option Nat   -- the group whose counters the snapshot holds
  snap : SMap Nat          -- the snapshot buffer (R552)
  remote : List RemoteReq  -- accesses through the remote aperture in order: the first is sent, the others wait for its end
  held : List Held         -- accesses to the device's own registers that wait, first in first out (R52, R518)
  deriving DecidableEq, Repr

/-- A delegation that firmware holds (R87, R88). -/
structure Delegation where
  handle : Nat
  port : Nat
  tx : Nat
  rx : Nat
  peers : Nat
  suite : Nat
  offset : Nat
  live : Bool              -- firmware serves it; false between a cluster reset and its resumption (R88)
  deriving DecidableEq, Repr

/-- A doubled decision waiting for its second taking (R534). -/
structure Doubled where
  decision : Decision
  first : Bool
  second : Option Bool
  deriving DecidableEq, Repr

/-- The control unit beyond its registers. -/
structure Ctl where
  cond : Cond
  pcie : PathState
  svc : PathState
  fab : PathState
  fw : PathState                   -- the management firmware, which reads by its own interface
  bar2 : Latch                     -- R553
  served : SMap (List Nat)         -- the last 16 write TAGs of each source (R482)
  nextTag : Nat                    -- TAG of the next REG_REQ (R481)
  image : SMap Word                -- the staged image, by word (R75)
  imageLen : Nat                   -- LENGTH of the OPEN
  holderAddr : BitVec 6            -- the holder's fabric address
  scriptActive : Bool
  stage7Done : Bool                -- a full script was applied (R80)
  fwRun : Bool                     -- the firmware serves the mailbox
  fwVerified : Bool                -- a FIRMWARE image has verified (R89, stage 5)
  fwDigest : BitVec 384            -- SHA-384 of the running firmware image (R453)
  mbxOp : Nat                      -- the mailbox command in progress, 0 when none
  mbxArgs : List Word              -- its arguments as they were written
  fwStart : Nat                    -- the tick in which the cluster started (R86)
  delegations : List Delegation
  nextHandle : Nat
  ptpClient : Word                 -- PTP handling on client ports (R86)
  ptpLine : Word
  scope : Word                     -- port pairs that the APPLY of a scene holds down (R73, R81, R83)
  doubled : List Doubled
  generation : Word                -- call sheet GENERATION (R64)
  bootStrap : BitVec 2             -- BOOT_MODE as sampled (R576)
  ddrStrap : BitVec 4              -- DDR_CFG as sampled (R391)
  deriving DecidableEq, Repr

/-- What the ladder and the receiver know of one lane beyond its registers (R113 to R118). -/
structure LaneState where
  validRun : Nat           -- consecutive valid KTFs received
  ktfSeen : Bool           -- a valid KTF was received in this state
  linkId : BitVec 64       -- LINK_ID of the peer
  peerReady : Bool
  peerStep : Nat           -- consecutive valid KTFs with STEP_REQ
  peerHold : Bool
  rxReady : Bool
  sentStep : Nat           -- KTFs sent with STEP_REQ
  req : BitVec 16          -- the lane's own request in force
  reqSeq : Byte
  ackSeq : Byte            -- of the peer's request last answered
  coefSts : BitVec 16
  peerAck : Byte           -- the peer's ACK_SEQ
  anBase : Bool            -- a base page has been received (R107)
  waitSignal : Bool        -- after a restart: signal must hold for 1 ms (R129)
  ownLinkId : BitVec 64    -- LINK_ID drawn at the start of this bring-up (R111)
  restarted : Bool         -- this bring-up began with a restart (R129)
  trained : Bool           -- the clause's training has completed while signal is waited for (R110, R129)
  gap : Bool               -- the 1 µs gap before mission traffic (R118)
  known : Nat              -- known bits compared, to 10^7 (R115)
  errs : Nat               -- errors on them
  gen : Option Nat         -- state of the pattern generator while it runs (R124)
  clean : Option Nat := none   -- tick since which the checker has been locked without error (R486)
  deriving DecidableEq, Repr

/-- The lane units beyond their registers. Keys of the maps: 0 to 31 LNC, 32 to 63 LNL, 64 to 79 LNF. -/
structure Lanes where
  lane : SMap LaneState
  quads : List Nat          -- quads that are powered, by lane key over 4
  refclkBad : List LaneUnit -- groups whose reference clock is lost (R130)
  deriving DecidableEq, Repr

/-- One candidate of the lane-frame hunt: where its heads stand among the bits of a frame period (R164, R165). -/
structure HuntCand where
  place : Nat
  count : Word
  laneId : Byte
  confirmed : Nat
  deriving DecidableEq, Repr

/-- One Korone line lane (R157, R164). -/
structure KorLane where
  locked : Bool             -- codeword lock (R157)
  lockAt : Nat              -- the codeword boundary it locked to
  goods : SMap Nat          -- candidate boundaries and their runs of codewords that decoded
  badRun : Nat
  cands : List HuntCand
  inSync : Bool
  place : Nat               -- where its frames begin among the bits of a frame period
  misses : Nat
  expect : Word             -- the FRAME_COUNT that the next head must carry
  laneId : Byte
  flags : Byte              -- FLAGS of the last confirmed head
  lastBip : Option (BitVec 16)   -- BIP computed over the last frame received (R194)
  beiDue : Nat              -- BEI to return in the next frame sent
  bipErrs : Nat             -- BIP errors in the present 1 ms interval
  ohBad : Bool              -- the last frame's OH_CRC failed (R194)
  rx : Option (Word × List Byte)  -- FRAME_COUNT and descrambled bytes of a frame whose period waits for the other lanes
  txBip : Option (BitVec 16)      -- BIP of the last frame sent (R194)
  fecRest : List Bool       -- bits sent that do not yet fill a codeword (R156)
  deriving DecidableEq, Repr

/-- A stream-mode period that waits for its tag, or with it for its key (R24, R188, R189). -/
structure Period where
  frameCount : Word
  skey : Word
  spn : BitVec 64
  cipher : List (BitVec 66)
  tag : Option (BitVec 128)
  deriving DecidableEq, Repr

/-- Capsule delineation (R179): in PRESYNC the flag says that a pointer gave the candidate. -/
inductive CapState where
  | hunt
  | presync (byPtr : Bool)
  | sync
  deriving DecidableEq, Repr

/-- One Korone line port beyond its registers. Keys: k. -/
structure KorPort where
  txCount : Word                  -- FRAME_COUNT of the next frame sent (R161)
  txRest : List Byte              -- what is still to be sent of the capsule in progress (R176)
  txCaps : List (List Byte)       -- capsules whose heads are to be written next
  txHead : Option Nat             -- the frame whose capsule has been taken for sending
  txOpen : Bool                   -- some of that capsule is still to be sent
  cap : CapState
  rx : List Byte                  -- port stream received, from the place that delineation has reached (R179)
  ptr : Option Nat                -- where in it the pointer candidate stands
  held : List Period              -- periods that wait, oldest first
  lastTag : BitVec 128            -- TAG of the previous period sent
  csf : Bool                      -- CSF is being sent (R193)
  cueTx : List Byte               -- cue bytes not yet sent (R196)
  cueFirst : Bool
  cueIn : Option (List Byte)      -- bytes received of a cue frame whose EOF has not come (R196)
  cueRx : List (List Byte)        -- received cue frames, head first (R197)
  cueSpots : List (List Nat) := []  -- the cells of each (R336, R337)
  fifo : List (BitVec 66)         -- the mapper FIFO (R187)
  daily : BitVec 4                -- the four flags of this second (R198)
  deriving DecidableEq, Repr

/-- A flow entry with its beside fields (R213). -/
structure Entry where
  valid : Bool
  profile : BitVec 4
  wide : BitVec 2
  hit : Bool
  key : BitVec 128
  result : Word
  ue : Bool           -- an uncorrectable error stands in it (R223)
  deriving DecidableEq, Repr

/-- A turnstile (R228). Tokens count in units of 1/640,000,000 of a token, so that the refill of one tick is whole. -/
structure Turnstile where
  frames : Bool
  rate : Nat
  burst : Nat
  tokens : Nat
  stamp : Nat        -- the tick of the last refill
  passed : Nat
  dropped : Nat
  deriving DecidableEq, Repr

/-- A punt limiter (R226). -/
structure Limiter where
  tokens : Nat
  stamp : Nat
  deriving DecidableEq, Repr

/-- A continuity-check group (R239, R240). -/
structure CcGroup where
  armed : Bool
  sig : Word
  quarantined : Bool
  reported : Bool
  deriving DecidableEq, Repr

/-- An operation in progress on a command register: its result code and the words it will write back. -/
structure PendOp where
  result : Nat
  writes : List (Nat × Word)    -- registers the completion loads
  who : Who
  deriving DecidableEq, Repr

/-- The flow table beyond its registers. -/
structure Flt where
  entries : SMap Entry
  copies : SMap Entry           -- the second copies of the stash entries (R222)
  groups : SMap CcGroup
  turnstiles : SMap Turnstile
  punts : SMap Limiter          -- by n; 64 is the total limiter
  secret : Nat                  -- the draw that names the hash secret (R217)
  op : Option PendOp            -- the operation that is served
  waiting : Option (Who × Word) -- the other interface's command, which waits for it (R233)
  mismatch : List Nat           -- FLT_CC_MISMATCH, oldest first
  mismatchOvf : Bool
  fwLog : List Nat              -- FLT_FW_LOG, oldest first
  fwLogOvf : Bool
  lastPuntDrop : SMap Nat       -- tick of the last punt drop of a port
  lastOverrun : SMap Nat
  deriving DecidableEq, Repr

/-- A key pair of the guard: encryption key and MAC key (R400, R408). -/
structure GuardKeys where
  enc : BitVec 256
  mac : BitVec 256
  deriving DecidableEq, Repr

/-- Association states (R246). -/
inductive AState where
  | free | ready | live | switched | retiring
  deriving DecidableEq, Repr

/-- An association record (R246). -/
structure Rec where
  state : AState
  mode : Byte
  port : Byte
  flags : Byte
  ident : BitVec 64
  an : BitVec 2
  win : Nat
  ssci : Word
  salt : BitVec 96
  troupe : Option Nat
  pn : Nat               -- NEXT_PN or HIGHEST
  reel : Nat             -- LEASE_END or MARK
  session : Nat
  keyGen : Nat
  wrapped : BitVec 384   -- WRAPPED_KEY, byte 0 at the top (R247)
  succ : Option Nat
  map : BitVec 512
  frames : Nat
  octets : Nat
  dropPn : Nat
  dropMissq : Nat
  dropState : Nat
  tagFail : Nat
  rxDup : Nat
  floor : Nat
  deriving DecidableEq, Repr

/-- A mark entry (R249). -/
structure Mark where
  mark : Nat
  keyGen : Nat
  index : Nat
  sec : BitVec 48
  ns : Word
  deriving DecidableEq, Repr

/-- A value in two Boolean shares: it is their exclusive or (R293). -/
structure Shares (n : Nat) where
  a : BitVec n
  b : BitVec n
  deriving DecidableEq, Repr

/-- A resident slot (R253 to R255, R297, R314, R316). -/
structure Slot where
  assoc : Nat
  key : Shares 256
  powers : List (Shares 128)  -- H to H^16 (R297)
  ref : Bool
  pinned : Bool
  dissolvePin : Bool
  dirty : Bool
  verdictDue : Bool     -- the key is pending (R316)
  deriving DecidableEq, Repr

/-- A mark persist in progress (R262 to R264). -/
structure Persist where
  value : Nat           -- the LEASE_END or MARK being persisted
  localDone : Bool
  acked : Bool          -- the stand-in has acknowledged, or need not
  advance : Option Nat  -- an ADVANCE_PN that waits for it
  deriving DecidableEq, Repr

/-- The phases of a dissolve entry, coded as DISSOLVE_STATUS codes them (R289). -/
inductive Phase where
  | free | waiting | opening | opened | switching | switched | closing | done
  deriving DecidableEq, Repr

/-- A dissolve entry (R277 to R281). -/
structure Dissolve where
  phase : Phase
  troupe : Bool
  target : Nat
  byPn : Bool
  sec : BitVec 48
  ns : Word
  threshold : Nat
  delta : Nat
  delta' : Nat
  walked : Nat
  faults : Nat
  pins : List (Nat × List Nat)   -- members pinned, each with the associations pinned for it (R279)
  passed : List Nat     -- members passed over or faulted
  deriving DecidableEq, Repr

/-- The association engine beyond its registers. -/
structure Asc where
  size : Nat                 -- N (R245)
  recs : SMap Rec            -- each association's record as the device knows it
  slots : SMap Slot          -- by slot number
  hand : Nat                 -- the clock hand (R255)
  missq : List Nat           -- frames parked, oldest first
  paging : List Nat          -- associations with a page-in in progress
  faulty : List Nat          -- associations in ASC_FAULT_LOG until retired or installed
  persists : SMap Persist
  rekeyLog : List Nat
  rekeyOvf : Bool
  faultLog : List Nat
  faultOvf : Bool
  rekeyed : List Nat         -- associations already reported in the rekey log
  stalled : List Nat         -- associations whose reel stall was raised
  exhausted : List Nat
  troupes : SMap (Option Nat)    -- existing troupes and their parents
  dissolves : SMap Dissolve
  op : Option PendOp         -- the operation that is served
  waiting : Option (Who × Word)   -- the other interface's command, which waits for it (R286)
  installing : Option (Nat × Bool)   -- the association an INSTALL writes, and its ACTIVE bit
  lastMissq : Option Nat
  claims : List (Nat × Nat)  -- provisional claims: association and packet number (R320)
  deriving DecidableEq, Repr

/-- Where a frame stands. -/
inductive Stage where
  | lookup      -- in its port's lookup queue
  | missq       -- parked for a page-in
  | lease       -- verified and held for a receive mark (R263)
  | follow      -- a held Follow_Up (R385)
  | farm        -- its slices are in the farm
  | queued      -- in an egress queue
  | slotted     -- waits for its departure slot
  | sending     -- leaving its port
  | ended       -- gone after a cut-through release, with its verdict still due (R320)
  deriving DecidableEq, Repr

/-- What kind of frame it is. -/
inductive FKind where
  | data | mka | control | extra | cue
  deriving DecidableEq, Repr

/-- What the cores have returned for a slice (R312): output bytes, partial value, and AES_K(J0) with the last slice. -/
structure Part where
  out : List Byte
  z : BitVec 128
  j0 : BitVec 128
  deriving DecidableEq, Repr

/-- A frame that the device holds. -/
structure Frame where
  id : Nat
  kind : FKind
  dir : Dir
  n : Nat                 -- ingress index (R202)
  m : Nat                 -- egress index
  bytes : List Byte       -- as received, and as changed since; a Korone capsule with its head
  plain : List Byte       -- a decrypt-direction client frame once it is deciphered
  ta : Nat                -- ingress timestamp in ticks (R379)
  stamp : Word            -- short ingress timestamp (R370)
  stage : Stage
  action : BitVec 2
  entry : Option Nat
  named : Option Nat      -- the association its entry named
  assoc : Option Nat      -- the association that protects or verifies it
  slot : Option Nat
  pn : Nat
  ptpEvent : Bool
  ptpGeneral : Bool
  td : Option Nat         -- departure it was corrected for, in ticks
  missed : Bool
  owner : Nat
  pool : Option Nat
  cells : Nat
  spots : List Nat := []  -- numbers of its buffer, or of its cells (R337)
  cls : Nat               -- cell class
  slices : Nat
  returned : List Nat
  gated : Bool
  tagOk : Option Bool
  cut : Bool              -- released before its verdict
  sampled : Nat           -- slices that wait for the duplicate check
  picked : Bool := false  -- a slice was sampled for that check (R319, R324)
  parts : SMap Part := [] -- what its slices have returned (R312)
  crc : Word              -- the splicer's CRC (R323)
  txAt : Nat              -- the tick in which it began to leave
  failed : Bool           -- the safety net must stomp it
  memBad : Bool           -- packet memory failed while it was leaving (R338)
  queue : Option Nat      -- shaper queue, none for the port's default queue
  debit : Option Nat      -- the shaper a slotted frame debits (R352)
  traced : Option (List Word)  -- spotlight stamps, stage 1 first (R558)
  stages : BitVec 12
  deriving DecidableEq, Repr

/-- A cipher core (R293 to R296, R303): its key, powers of H and state register are held in shares. -/
structure Core where
  inService : Bool
  queue : List (Nat × Nat)   -- frame and slice
  seeded : Bool
  seed : BitVec 256 := 0     -- of its mask generator (R294)
  drawn : Nat := 0           -- 256-bit masks taken since that seed
  key : Shares 256 := { a := 0, b := 0 }
  keyOf : Option Nat := none -- the slot whose key it holds
  powers : List (Shares 128) := []
  block : Shares 128 := { a := 0, b := 0 }
  deriving DecidableEq, Repr

/-- Power of a ring as FRM_RING_STS codes it (R329). -/
inductive RingPower where
  | asleep | waking | awake | draining
  deriving DecidableEq, Repr

/-- The cipher farm beyond its registers. -/
structure Frm where
  cores : SMap Core
  rings : SMap RingPower
  pointer : Nat              -- the carousel pointer, ring times 16 plus core
  lastDir : Dir              -- the direction served last (R303)
  lowTicks : Nat             -- load ticks of 1 µs for which the load has stayed below SLEEP_TH (R300)
  wakeAsked : Option Nat     -- the ring whose wake is outstanding
  testWake : List Nat        -- sleeping rings that a KAT command has woken (R301)
  kat : List Nat             -- cores whose known-answer test runs
  restore : List Nat         -- cores under RESTORE
  lastNet : SMap Nat         -- tick of the last safety-net frame of a port
  deriving DecidableEq, Repr

/-- A shaper, in force and as last written (R343, R345). -/
structure Shaper where
  data0 : Word
  data1 : Word
  next0 : Word
  next1 : Word
  tokens : Int
  deriving DecidableEq, Repr

/-- A departure slot (R348, R350). -/
structure DepSlot where
  frame : Nat
  start : Nat
  length : Nat
  deriving DecidableEq, Repr

/-- A pending two-step Sync (R385). -/
structure Follow where
  domain : Byte
  source : BitVec 80
  seq : BitVec 16
  egress : Nat
  ingress : Nat
  err : Option Int           -- e in ticks once the Sync has departed
  order : Nat                -- age, lower is older
  deriving DecidableEq, Repr

/-- A residence-time histogram (R358). -/
structure Hist where
  bins : SMap Nat
  least : Nat
  most : Nat
  deriving DecidableEq, Repr

/-- Buffers and scheduler beyond their registers. -/
structure Sch where
  frames : List Frame        -- every frame the device holds, in the order in which each reached its present place
  inUse : SMap (List Nat) -- by pool, and 8 for cells: the numbers whose state bit is set (R337)
  nextId : Nat
  shapers : SMap Shaper
  portShapers : SMap Shaper
  profiles : SMap Word       -- profiles in force; the registers hold what was last written
  map : SMap Nat             -- SCH_MAP: association to shaper
  slots : SMap (List DepSlot)
  slotTokens : SMap Limiter
  deficits : SMap Nat        -- byte-deficit round robin, by port times 131072 plus queue
  sending : SMap Nat         -- the frame each egress port is sending
  mirrorDue : List Nat       -- ports that begin to mirror a fault when their frame has left (R151)
  turn : SMap Nat            -- the queue each port's round robin served last: a shaper, or 65536 for the default queue
  extras : SMap Limiter      -- extras buckets
  extraStopped : List Nat    -- ports whose SCH_EXTRA_STOPPED was raised
  follows : List Follow
  nextFollow : Nat
  hist : SMap Hist
  lastAdmit : SMap Nat       -- tick of the last admission drop of an owner
  lastCell : SMap Nat
  lastMissed : SMap Nat
  lastOrder : SMap Nat
  lastFu : SMap Nat
  deriving DecidableEq, Repr

/-- A capture (R378): nanoseconds and seconds. -/
structure Capture where
  ns : Word
  sec : BitVec 48
  deriving DecidableEq, Repr

/-- The time unit beyond its registers. -/
structure Tim where
  frc : BitVec 64
  base : Int                 -- base of R365 in units of 2^-42 ns, in which every T is whole
  frcBase : BitVec 64
  rate : Int
  holdStart : Option Nat     -- FRC at the entry to HOLDOVER
  lastDisc : Option Nat := none  -- tick of the last discipline write (R387)
  holdSec : Nat              -- whole seconds of the last HOLDOVER
  lastPps : Option Nat
  ppsSinceHold : Bool
  cap0 : List Capture
  cap1 : List Capture
  ovf0 : Bool
  ovf1 : Bool
  xtalOffset : Word          -- last completed measurement (R373)
  ppsOut : Bool
  dailySec : Option (BitVec 48)   -- the last second already latched (R386)
  deriving DecidableEq, Repr

/-- A region descriptor of the retention store (R419). -/
structure Region where
  base : Nat
  size : Nat
  label : BitVec 16
  keep : Bool
  nonce : BitVec 64
  gen : Nat
  changing : Bool          -- its changeover has begun and is not complete
  boundary : Nat
  deriving DecidableEq, Repr

/-- The retention store (R419); its root is the tree's entries of the level above the top one (R403). -/
structure Retention where
  epoch : BitVec 64
  regions : SMap Region
  lc : Byte
  isSealed : Bool
  poison : Bool
  crcOk : Bool
  deriving DecidableEq, Repr

/-- A counter block: MAJOR, and MINOR by line of the page (R398). -/
structure CtrBlock where
  major : Nat
  minors : SMap Nat
  deriving DecidableEq, Repr

/-- A tree entry (R403). -/
structure TreeEntry where
  init : Bool
  count : Nat
  deriving DecidableEq, Repr

/-- The memory guard beyond its registers. -/
structure Mgd where
  ret : Retention
  lines : SMap (List Byte)   -- written data lines by line number; an unlisted line reads as 64 zero bytes (R404)
  ctrs : SMap CtrBlock       -- by page; an unlisted page is unwritten
  tree : SMap TreeEntry      -- level times 2^40 plus index
  dirty : List Nat           -- pages whose counter block has changed since it was last written back (R406)
  badLines : List Nat        -- lines unreadable until written again (R417)
  ephemeral : GuardKeys      -- drawn at each start; region 0's until its changeover (R408)
  nonce0 : BitVec 64         -- region 0's NONCE, drawn with it (R408)
  chgQueue : List Nat        -- regions whose changeover waits
  lastCe : Option Nat        -- tick of the last correctable error
  keysGone : Bool            -- the guard's keys were zeroised (R539)
  deriving DecidableEq, Repr

/-- An owner bank (R443). -/
structure Bank where
  count : Nat
  epoch : Nat
  slot : Byte
  crc : Word                 -- the CRC-32 as written
  commit : Word              -- the COMMIT field as written
  record : List Byte         -- the 504 bytes of the owner record (R446)
  deriving DecidableEq, Repr

/-- BBS with its tag (R441). -/
structure Bbs where
  value : BitVec 256
  lc : Byte
  slot : Byte
  deriving DecidableEq, Repr

/-- One-time programmable material (R429). -/
structure Otp where
  root : Option (BitVec 256)
  blank : Bool
  ret : Bool
  endFuse : Bool
  valid : BitVec 4
  released : BitVec 4
  ownerHash : SMap (BitVec 384)
  epoch : Nat
  evidence : Nat
  deriving DecidableEq, Repr

/-- A key slot of the utility cipher engine (R463, R464). -/
structure KeySlot where
  key : Shares 256
  size256 : Bool
  origin : BitVec 2
  deriving DecidableEq, Repr

/-- A channel of the utility cipher engine (R459 to R467). -/
structure UceChan where
  mode : Nat
  decrypt : Bool
  pad : Bool
  slot : Nat
  total : Nat
  aadLen : Nat
  fed : List Byte            -- bytes fed so far
  made : Nat                 -- output bytes already given
  seg : Nat                  -- SEG_LEN of the FEED in progress
  last : Bool
  coreOk : Bool
  doneAt : Option Nat        -- tick in which the operation completed or was aborted (R465, R469)
  core : Core                -- the channel's masked core (R459)
  deriving DecidableEq, Repr

/-- The vault and the utility cipher engine beyond their registers. -/
structure Vlt where
  otp : Otp
  bbs : Option Bbs
  bank0 : Bank
  bank1 : Bank
  drbgRun : Bool
  requests : Nat             -- DRBG requests since the last reseed (R432)
  root : Shares 256          -- OTP_ROOT as the vault has read it (R430)
  secret : Shares 256        -- BBS as the vault has read it (R430)
  wrapKey : Option (Shares 256)   -- the association wrap key, once derived, as the key bus carries it (R430)
  blobKey : Option (Shares 256)
  idKey : Option (BitVec 448)
  upd : SMap Word            -- the staged update message, by word
  updLen : Nat
  op : Option PendOp
  slots : SMap KeySlot
  later : SMap KeySlot       -- deferred rewrites (R464)
  blobOp : Option (Nat × Nat)     -- LOAD_BLOB in progress: slot and offset
  c0 : UceChan
  c1 : UceChan
  exhaustedRaised : Bool
  lcReset : Bool             -- a life-cycle transition waits for its reset (R439)
  deriving DecidableEq, Repr

/-- A neighbour on a fabric link (R478). -/
structure Neighbour where
  addr : Nat
  group : BitVec 16
  vector : List Byte
  valid : Bool
  conflict : Bool
  deriving DecidableEq, Repr

/-- A MARK cell that waits for its acknowledgement (R496). -/
structure MarkCell where
  seq : Nat
  resync : Bool
  assocs : List Nat
  bytes : List Byte
  deriving DecidableEq, Repr

/-- Roles of a pair as FAB_STS codes them (R489). -/
inductive Role where
  | none | init | active | standIn | fenced
  deriving DecidableEq, Repr

/-- The last heartbeat of a path and its tick state (R487). -/
structure PathTick where
  got : Bool
  misses : Nat
  goodRun : Nat
  lost : Bool
  deriving DecidableEq, Repr

/-- The fabric and the pair beyond their registers. -/
structure Fab where
  cellSync : SMap Nat        -- by link times 4 plus lane: 0 HUNT, 1 first, 2 PRESYNC twice, 3 SYNC; misses above
  cellMiss : SMap Nat
  linkUp : List Nat
  neighbours : SMap Neighbour
  groups : SMap Nat          -- GROUP_ID that an address last advertised (R503)
  seqs : SMap Nat            -- next SEQ, by class times 64 plus destination
  rest : SMap (List Bool)    -- by link times 4 plus lane: bits sent that do not yet fill a codeword (R156, R473)
  role : Role
  partnerEpoch : Nat
  fencing : Bool             -- fencing has begun and is not complete
  fenceTo : Role             -- the role after fencing
  fabTick : PathTick
  lvdsTick : PathTick
  hbSeq : BitVec 16
  absentRaised : Bool
  marks : List MarkCell
  resync : Option Nat        -- the next mark entry of the sweep
  selfRing : Nat
  katOk : BitVec 32          -- the last 32 rings tested passed
  crcBlock : Nat
  stateMatch : Bool         -- the last full state check found no divergence (R486)
  crcBad : Bool             -- the state check in progress has found one
  healthy : Bool             -- no SELF_TEST health word since the last one with all ones in [31:27] lacked one
  diverge : List Nat
  divergeOvf : Bool
  switching : Bool           -- a planned switchover is in progress
  takeoverDue : Bool         -- a takeover waits for the wake from STANDBY (R535)
  members : List Nat         -- group members known (R483)
  deriving DecidableEq, Repr

/-- Power conditions of a domain (R505). -/
inductive DomPower where
  | off | waking | on | retain
  deriving DecidableEq, Repr

/-- A power transition in progress (R514). -/
structure Transition where
  target : BitVec 2
  source : BitVec 2
  step : Nat                 -- 1 to 4 of R514; 0 for a wake
  kind : Nat                 -- the kind being asked, in the order of step 3
  waiting : List Nat         -- domains asked that have not answered ACK
  taken : List Nat           -- domains taken down
  abandon : Bool             -- a wake waits for the next safe point (R512)
  ending : Option Nat        -- the entry is being undone: its RESULT code (R512, R515)
  deriving DecidableEq, Repr

/-- The gaffer beyond its registers. -/
structure Gaf where
  doms : SMap DomPower
  trans : Option Transition
  pend : Option (BitVec 2)
  admission : Bool           -- buffer admission is open
  sleepAsk : List Nat        -- idle domains asked to sleep on their own (R519)
  dips : List (Nat × Nat)    -- rails in warning and the tick they entered it
  deriving DecidableEq, Repr

/-- A tamper monitor (R529). -/
structure Monitor where
  events : List Nat          -- times of its events in ms, newest first
  now : Nat                  -- ms of the last sample
  cond : Bool                -- the alarm condition holds
  deriving DecidableEq, Repr

/-- The always-on domain beyond its registers. -/
structure Aon where
  mons : SMap Monitor
  latch : BitVec 9           -- AON_LATCH
  pendingBurn : Nat          -- pending evidence, 0 to 15
  dueBurn : Nat              -- evidence burns due on main power
  onBattery : Bool
  vbatLost : Bool
  deriving DecidableEq, Repr

/-- A log record (R545). -/
structure LogRec where
  id : BitVec 16
  rung : BitVec 3
  seq : BitVec 12
  arg0 : Word
  arg1 : Word
  stamp : Word
  deriving DecidableEq, Repr

/-- The alarm unit beyond its registers. -/
structure Evt where
  log : List LogRec          -- oldest first
  seq : BitVec 12
  ovfRaised : Bool
  lastHalt : Option LogRec
  frozen : Bool
  zeroise : Nat              -- 0 none, 4 ZEROISE_WORKING, 5 ZEROISE_VAULT has acted
  msixHeld : List Nat        -- vectors whose message is held
  deriving DecidableEq, Repr

/-- A daily entry (R554): its 16 words. -/
abbrev Daily := List Word

/-- Counters, dailies and spotlight beyond their registers. -/
structure Cnt where
  vals : SMap Nat            -- counters by BAR0 offset of their low word (R550)
  wraps : List Nat           -- counter numbers whose wrap bit is set (R551)
  lastWrap : Option Nat
  dailies : SMap Daily       -- n times 16 plus position
  traces : SMap (List Word)  -- the spotlight ring (R558)
  traceSeq : Word
  sptHead : Nat              -- SPT_HEAD (R562)
  sptFullRaised : Bool
  deriving DecidableEq, Repr

/-- The state of the block. -/
structure State where
  /-- commands that wait, first in first out -/
  pending : List Instr
  /-- the model's own: ticks of 1.25 ns since the model began -/
  clk : Nat
  /-- the model's own: the number of the next free value -/
  draws : Nat
  /-- the model's own: what the block has given to the outside, newest first -/
  out : List Output
  /-- the register file by BAR0 offset; an unlisted register holds its reset value -/
  regs : SMap Word
  /-- the locked bits of RWL fields, by BAR0 offset (R71) -/
  locks : SMap Word
  ctl : Ctl
  lanes : Lanes
  korLanes : SMap KorLane
  kor : SMap KorPort
  flt : Flt
  asc : Asc
  frm : Frm
  sch : Sch
  tim : Tim
  mgd : Mgd
  vlt : Vlt
  fab : Fab
  gaf : Gaf
  aon : Aon
  evt : Evt
  cnt : Cnt
  deriving DecidableEq, Repr

/-! ### The machine right after reset -/

/-- A path that has made no access since reset (R7, R63, R552). -/
def noPath : PathState :=
  { latch := { off := none, high := 0 }, nowSec := 0, remoteSel := 0, cntWin := 0, snapGroup := none, snap := [],
    remote := [], held := [] }

/-- The control unit while reset holds; the straps are sampled at its release (R576). -/
def resetCtl : Ctl :=
  { cond := .reset, pcie := noPath, svc := noPath, fab := noPath, fw := noPath, bar2 := { off := none, high := 0 },
    served := [], nextTag := 0, image := [], imageLen := 0,
    holderAddr := 0, scriptActive := false, stage7Done := false, fwRun := false, fwVerified := false, fwDigest := 0,
    mbxOp := 0, mbxArgs := [], fwStart := 0, delegations := [], nextHandle := 1, ptpClient := 0, ptpLine := 0, scope := 0, doubled := [],
    generation := 0, bootStrap := 0, ddrStrap := 0 }

/-- The flow table with no entry. -/
def resetFlt : Flt :=
  { entries := [], copies := [], groups := [], turnstiles := [], punts := [], secret := 0, op := none, waiting := none, mismatch := [],
    mismatchOvf := false, fwLog := [], fwLogOvf := false, lastPuntDrop := [], lastOverrun := [] }

/-- The association engine before its store is ready. -/
def resetAsc : Asc :=
  { size := 1048576, recs := [], slots := [], hand := 0, missq := [], paging := [], faulty := [],
    persists := [], rekeyLog := [], rekeyOvf := false, faultLog := [], faultOvf := false, rekeyed := [], stalled := [],
    exhausted := [], troupes := [], dissolves := [], op := none, waiting := none, installing := none, lastMissq := none, claims := [] }

/-- The cipher farm. -/
def resetFrm : Frm :=
  { cores := [], rings := [], pointer := 0, lastDir := .dec, lowTicks := 0, wakeAsked := none, testWake := [], kat := [], restore := [],
    lastNet := [] }

/-- Buffers and scheduler with no frame. -/
def resetSch : Sch :=
  { frames := [], inUse := [], nextId := 0, shapers := [], portShapers := [], profiles := [], map := [], slots := [],
    slotTokens := [], deficits := [], sending := [], mirrorDue := [], turn := [], extras := [], extraStopped := [], follows := [], nextFollow := 0,
    hist := [], lastAdmit := [], lastCell := [], lastMissed := [], lastOrder := [], lastFu := [] }

/-- Time from zero, FREE (R364, R366, R376). -/
def resetTim : Tim :=
  { frc := 0, base := 0, frcBase := 0, rate := 0, holdStart := none, holdSec := 0, lastPps := none,
    ppsSinceHold := false, cap0 := [], cap1 := [], ovf0 := false, ovf1 := false, xtalOffset := 0, ppsOut := false,
    dailySec := none }

/-- A retention store that a power-on reset has cleared (R419). -/
def clearRetention : Retention :=
  { epoch := 0, regions := [], lc := 0, isSealed := false, poison := false, crcOk := false }

/-- The memory guard before stage 4. -/
def resetMgd : Mgd :=
  { ret := clearRetention, lines := [], ctrs := [], tree := [], dirty := [], badLines := [],
    ephemeral := { enc := 0, mac := 0 }, nonce0 := 0, chgQueue := [], lastCe := none, keysGone := false }

/-- An owner bank that nothing has written (R443). -/
def emptyBank : Bank := { count := 0, epoch := 0, slot := 0xFF, crc := 0, commit := 0, record := [] }

/-- Fuses that nothing has burnt (R429). -/
def blankOtp : Otp :=
  { root := none, blank := false, ret := false, endFuse := false, valid := 0, released := 0, ownerHash := [],
    epoch := 0, evidence := 0 }

/-- A channel of the utility cipher engine with no operation (R460). -/
def idleChan : UceChan :=
  { mode := 0, decrypt := false, pad := false, slot := 0, total := 0, aadLen := 0, fed := [], made := 0, seg := 0,
    last := false, coreOk := false, doneAt := none,
    core := { inService := false, queue := [], seeded := false } }

/-- The vault of a part that has never started: fuses blank, no battery-backed secret, no bank (R429). -/
def resetVlt : Vlt :=
  { otp := blankOtp, bbs := none, bank0 := emptyBank, bank1 := emptyBank, drbgRun := false, requests := 0,
    root := { a := 0, b := 0 }, secret := { a := 0, b := 0 }, wrapKey := none, blobKey := none, idKey := none, upd := [], updLen := 0, op := none, slots := [],
    later := [], blobOp := none, c0 := idleChan, c1 := idleChan, exhaustedRaised := false,
    lcReset := false }

/-- A heartbeat path that has heard nothing (R487). -/
def quietPath : PathTick := { got := false, misses := 0, goodRun := 0, lost := false }

/-- The fabric and the pair before a script gives them a role (R489). -/
def resetFab : Fab :=
  { cellSync := [], cellMiss := [], linkUp := [], neighbours := [], groups := [], seqs := [], rest := [], role := .none,
    partnerEpoch := 0, fencing := false, fenceTo := .none, fabTick := quietPath, lvdsTick := quietPath, hbSeq := 0,
    absentRaised := false, marks := [], resync := none, selfRing := 0,
    katOk := 0, crcBlock := 0, stateMatch := false, crcBad := false, healthy := true, diverge := [],
    divergeOvf := false, switching := false, takeoverDue := false, members := [] }

/-- The gaffer in RUN (R509). -/
def resetGaf : Gaf :=
  { doms := [], trans := none, pend := none, admission := true, sleepAsk := [], dips := [] }

/-- The always-on domain when it first has a supply. -/
def resetAon : Aon :=
  { mons := [], latch := 0, pendingBurn := 0, dueBurn := 0, onBattery := false, vbatLost := true }

/-- The alarm unit with an empty log. -/
def resetEvt : Evt :=
  { log := [], seq := 0, ovfRaised := false, lastHalt := none, frozen := false, zeroise := 0, msixHeld := [] }

/-- Counters at 0 and no daily. -/
def resetCnt : Cnt :=
  { vals := [], wraps := [], lastWrap := none, dailies := [], traces := [], traceSeq := 0, sptHead := 0,
    sptFullRaised := false }

/-- The machine right after reset: reset holds at start-up stage 1 (R89), every register at its reset value, and the
queue of commands empty. The commands RESET_RELEASE, AON_CHECK_DONE and so on take it through start-up. -/
def State.reset : State :=
  { pending := [], clk := 0, draws := 0, out := [], regs := [], locks := [], ctl := resetCtl,
    lanes := { lane := [], quads := [], refclkBad := [] }, korLanes := [], kor := [], flt := resetFlt, asc := resetAsc,
    frm := resetFrm, sch := resetSch, tim := resetTim, mgd := resetMgd, vlt := resetVlt, fab := resetFab,
    gaf := resetGaf, aon := resetAon, evt := resetEvt, cnt := resetCnt }

end Sys2Proof.Machine
end

