-- ==== Sys2Proof/Machine/Regs.lean ====
section
/-! DEFINITION. The register map: every register of the units' tables (R63, R134, R153, R201, R243, R244, R290, R329,
R362, R363, R389, R428, R471, R472, R503, R537, R538, R560, R561, R562) by its BAR0 offset, its fields, and the row that
says how a bus access treats its bits (R4, R5). Names are the manual's own; LN_ stands for LNC_, LNL_ and LNF_ and PORT_ for
ETH_ and ELN_, with the window's base b as their argument. -/

namespace Sys2Proof.Machine

/-- A field of a register: bits hi down to lo. -/
structure Field where
  off : Nat
  hi : Nat
  lo : Nat
  deriving DecidableEq, Repr

/-- How a bus access treats a run of equal registers: n1 by n2 of them at strides s1 and s2 from base, the reset value, and
the bits that a write sets (rw; of those, rwl may be locked), that a written 1 clears (w1c) and that a read clears (rc).
Bits in no mask ignore writes; command and write-only bits are acted on by their unit and never held. -/
structure RegRow where
  base : Nat
  n1 : Nat
  s1 : Nat
  n2 : Nat
  s2 : Nat
  reset : Nat
  rw : Nat
  rwl : Nat
  w1c : Nat
  rc : Nat
  deriving DecidableEq, Repr

/-- A run of 48-bit counters (R8). -/
structure CtrRow where
  base : Nat
  n1 : Nat
  s1 : Nat
  n2 : Nat
  s2 : Nat
  deriving DecidableEq, Repr

namespace Reg


/-! ### Registers and fields -/

def CTL_CLAIM : Nat := 0x10000
def CTL_CLAIM_KEY : Field := ⟨CTL_CLAIM, 31, 16⟩
def CTL_CLAIM_ACTION : Field := ⟨CTL_CLAIM, 1, 0⟩
def CTL_OWNER : Nat := 0x10004
def CTL_OWNER_STATE : Field := ⟨CTL_OWNER, 31, 30⟩
def CTL_OWNER_OWNER_PATH : Field := ⟨CTL_OWNER, 29, 28⟩
def CTL_OWNER_OWNER_ADDR : Field := ⟨CTL_OWNER, 27, 22⟩
def CTL_OWNER_OFFER_PATH : Field := ⟨CTL_OWNER, 21, 20⟩
def CTL_OWNER_OFFER_ADDR : Field := ⟨CTL_OWNER, 19, 14⟩
def CTL_OWNER_MY_PATH : Field := ⟨CTL_OWNER, 13, 12⟩
def CTL_OWNER_SEQ : Field := ⟨CTL_OWNER, 11, 0⟩
def CTL_HANDOVER : Nat := 0x10008
def CTL_HANDOVER_TARGET_PATH : Field := ⟨CTL_HANDOVER, 29, 28⟩
def CTL_HANDOVER_TARGET_ADDR : Field := ⟨CTL_HANDOVER, 27, 22⟩
def CTL_HANDOVER_TIMEOUT_MS : Field := ⟨CTL_HANDOVER, 15, 0⟩
def CTL_BOOT : Nat := 0x10040
def CTL_BOOT_STAGE : Field := ⟨CTL_BOOT, 31, 28⟩
def CTL_BOOT_MODE : Field := ⟨CTL_BOOT, 27, 26⟩
def CTL_BOOT_HEALTHY : Field := ⟨CTL_BOOT, 25, 25⟩
def CTL_BOOT_EPHEMERAL : Field := ⟨CTL_BOOT, 24, 24⟩
def CTL_BOOT_FAIL_STAGE : Field := ⟨CTL_BOOT, 23, 20⟩
def CTL_BOOT_FAIL : Field := ⟨CTL_BOOT, 15, 0⟩
def CTL_ARB_CHALLENGE (i : Nat) : Nat := 0x10050 + 4 * i
def CTL_REMOTE_SEL : Nat := 0x10060
def CTL_REMOTE_SEL_ERR : Field := ⟨CTL_REMOTE_SEL, 31, 31⟩
def CTL_REMOTE_SEL_ADDR : Field := ⟨CTL_REMOTE_SEL, 5, 0⟩
def CTL_LOAD_CTRL : Nat := 0x10100
def CTL_LOAD_CTRL_CMD : Field := ⟨CTL_LOAD_CTRL, 31, 28⟩
def CTL_LOAD_CTRL_KIND : Field := ⟨CTL_LOAD_CTRL, 27, 24⟩
def CTL_LOAD_CTRL_LENGTH : Field := ⟨CTL_LOAD_CTRL, 23, 0⟩
def CTL_LOAD_ADDR : Nat := 0x10104
def CTL_LOAD_ADDR_WORD : Field := ⟨CTL_LOAD_ADDR, 23, 2⟩
def CTL_LOAD_DATA : Nat := 0x10108
def CTL_LOAD_STATUS : Nat := 0x1010C
def CTL_LOAD_STATUS_BUSY : Field := ⟨CTL_LOAD_STATUS, 31, 31⟩
def CTL_LOAD_STATUS_STATE : Field := ⟨CTL_LOAD_STATUS, 30, 28⟩
def CTL_LOAD_STATUS_HOLDER : Field := ⟨CTL_LOAD_STATUS, 27, 26⟩
def CTL_LOAD_STATUS_KIND : Field := ⟨CTL_LOAD_STATUS, 25, 22⟩
def CTL_LOAD_STATUS_RESULT : Field := ⟨CTL_LOAD_STATUS, 15, 0⟩
def CTL_SCRIPT_DIGEST (i : Nat) : Nat := 0x10200 + 4 * i
def CTL_SCRIPT_SERIAL : Nat := 0x10240
def CTL_SCENE_SERIAL : Nat := 0x10244
def CTL_MBX_CMD : Nat := 0x10400
def CTL_MBX_CMD_TAG : Field := ⟨CTL_MBX_CMD, 15, 8⟩
def CTL_MBX_CMD_OPCODE : Field := ⟨CTL_MBX_CMD, 7, 0⟩
def CTL_MBX_STATUS : Nat := 0x10404
def CTL_MBX_STATUS_BUSY : Field := ⟨CTL_MBX_STATUS, 31, 31⟩
def CTL_MBX_STATUS_DONE : Field := ⟨CTL_MBX_STATUS, 30, 30⟩
def CTL_MBX_STATUS_FW_RUN : Field := ⟨CTL_MBX_STATUS, 29, 29⟩
def CTL_MBX_STATUS_TAG : Field := ⟨CTL_MBX_STATUS, 23, 16⟩
def CTL_MBX_STATUS_RESULT : Field := ⟨CTL_MBX_STATUS, 15, 0⟩
def CTL_MBX_ARG (i : Nat) : Nat := 0x10440 + 4 * i
def CTL_MBX_RSP (i : Nat) : Nat := 0x10480 + 4 * i
def LN_CFG (b : Nat) : Nat := b + 0
def LN_CFG_MODE (b : Nat) : Field := ⟨(LN_CFG b), 31, 30⟩
def LN_CFG_WIDTH (b : Nat) : Field := ⟨(LN_CFG b), 29, 28⟩
def LN_CFG_POLICY (b : Nat) : Field := ⟨(LN_CFG b), 27, 26⟩
def LN_CFG_LADDER (b : Nat) : Field := ⟨(LN_CFG b), 25, 22⟩
def LN_CFG_ADMIN_UP (b : Nat) : Field := ⟨(LN_CFG b), 21, 21⟩
def LN_CFG_TX_DISABLE (b : Nat) : Field := ⟨(LN_CFG b), 20, 20⟩
def LN_CFG_LOOP (b : Nat) : Field := ⟨(LN_CFG b), 19, 18⟩
def LN_CFG_POL_TX_INV (b : Nat) : Field := ⟨(LN_CFG b), 17, 17⟩
def LN_CFG_POL_RX_AUTO (b : Nat) : Field := ⟨(LN_CFG b), 16, 16⟩
def LN_CFG_MEDIUM (b : Nat) : Field := ⟨(LN_CFG b), 15, 15⟩
def LN_STS (b : Nat) : Nat := b + 4
def LN_STS_STATE (b : Nat) : Field := ⟨(LN_STS b), 31, 28⟩
def LN_STS_RUNG (b : Nat) : Field := ⟨(LN_STS b), 27, 25⟩
def LN_STS_POWERED (b : Nat) : Field := ⟨(LN_STS b), 24, 24⟩
def LN_STS_SIGNAL (b : Nat) : Field := ⟨(LN_STS b), 23, 23⟩
def LN_STS_CDR_LOCK (b : Nat) : Field := ⟨(LN_STS b), 22, 22⟩
def LN_STS_REFCLK_OK (b : Nat) : Field := ⟨(LN_STS b), 21, 21⟩
def LN_STS_RX_POL_INV (b : Nat) : Field := ⟨(LN_STS b), 20, 20⟩
def LN_STS_LOGICAL (b : Nat) : Field := ⟨(LN_STS b), 19, 17⟩
def LN_STS_MAP_VALID (b : Nat) : Field := ⟨(LN_STS b), 16, 16⟩
def LN_STS_FAIL_REASON (b : Nat) : Field := ⟨(LN_STS b), 15, 8⟩
def LN_STS_EYE_FOM (b : Nat) : Field := ⟨(LN_STS b), 7, 0⟩
def LN_TRAIN (b : Nat) : Nat := b + 8
def LN_TRAIN_RESTART (b : Nat) : Field := ⟨(LN_TRAIN b), 31, 31⟩
def LN_TRAIN_HOLD (b : Nat) : Field := ⟨(LN_TRAIN b), 30, 30⟩
def LN_TRAIN_TRAIN_OFF (b : Nat) : Field := ⟨(LN_TRAIN b), 29, 29⟩
def LN_TRAIN_RUNG_TIMEOUT_MS (b : Nat) : Field := ⟨(LN_TRAIN b), 15, 0⟩
def LN_TRAIN_STS (b : Nat) : Nat := b + 0xC
def LN_TRAIN_STS_PEER_LADDER (b : Nat) : Field := ⟨(LN_TRAIN_STS b), 31, 28⟩
def LN_TRAIN_STS_COMMON (b : Nat) : Field := ⟨(LN_TRAIN_STS b), 27, 24⟩
def LN_TRAIN_STS_PEER_WIDTH (b : Nat) : Field := ⟨(LN_TRAIN_STS b), 23, 16⟩
def LN_TRAIN_STS_AN_HCD (b : Nat) : Field := ⟨(LN_TRAIN_STS b), 15, 14⟩
def LN_TXEQ (b : Nat) : Nat := b + 0x10
def LN_TXEQ_MODE (b : Nat) : Field := ⟨(LN_TXEQ b), 31, 30⟩
def LN_TXEQ_CM3 (b : Nat) : Field := ⟨(LN_TXEQ b), 29, 24⟩
def LN_TXEQ_CM2 (b : Nat) : Field := ⟨(LN_TXEQ b), 23, 18⟩
def LN_TXEQ_CM1 (b : Nat) : Field := ⟨(LN_TXEQ b), 17, 12⟩
def LN_TXEQ_C0 (b : Nat) : Field := ⟨(LN_TXEQ b), 11, 6⟩
def LN_TXEQ_CP1 (b : Nat) : Field := ⟨(LN_TXEQ b), 5, 0⟩
def LN_CTLE (b : Nat) : Nat := b + 0x14
def LN_CTLE_MODE (b : Nat) : Field := ⟨(LN_CTLE b), 31, 30⟩
def LN_CTLE_PEAK (b : Nat) : Field := ⟨(LN_CTLE b), 20, 16⟩
def LN_CTLE_LFG (b : Nat) : Field := ⟨(LN_CTLE b), 10, 8⟩
def LN_DFE_CTRL (b : Nat) : Nat := b + 0x18
def LN_DFE_CTRL_MODE (b : Nat) : Field := ⟨(LN_DFE_CTRL b), 31, 30⟩
def LN_DFE_CTRL_TAP_EN (b : Nat) : Field := ⟨(LN_DFE_CTRL b), 11, 0⟩
def LN_CDR (b : Nat) : Nat := b + 0x30
def LN_CDR_LOCK (b : Nat) : Field := ⟨(LN_CDR b), 31, 31⟩
def LN_CDR_LOST (b : Nat) : Field := ⟨(LN_CDR b), 30, 30⟩
def LN_CDR_BW (b : Nat) : Field := ⟨(LN_CDR b), 29, 28⟩
def LN_CDR_FREQ_ERR (b : Nat) : Field := ⟨(LN_CDR b), 15, 0⟩
def LN_PRBS_CFG (b : Nat) : Nat := b + 0x40
def LN_PRBS_CFG_GEN_EN (b : Nat) : Field := ⟨(LN_PRBS_CFG b), 31, 31⟩
def LN_PRBS_CFG_CHK_EN (b : Nat) : Field := ⟨(LN_PRBS_CFG b), 30, 30⟩
def LN_PRBS_CFG_PATTERN (b : Nat) : Field := ⟨(LN_PRBS_CFG b), 27, 24⟩
def LN_PRBS_CFG_INV (b : Nat) : Field := ⟨(LN_PRBS_CFG b), 23, 23⟩
def LN_PRBS_CFG_RUNG (b : Nat) : Field := ⟨(LN_PRBS_CFG b), 22, 20⟩
def LN_PRBS_STS (b : Nat) : Nat := b + 0x44
def LN_PRBS_STS_LOCKED (b : Nat) : Field := ⟨(LN_PRBS_STS b), 31, 31⟩
def LN_PRBS_STS_LOCK_LOST (b : Nat) : Field := ⟨(LN_PRBS_STS b), 30, 30⟩
def LN_PRBS_STS_BAD_CFG (b : Nat) : Field := ⟨(LN_PRBS_STS b), 29, 29⟩
def LN_INJ (b : Nat) : Nat := b + 0x48
def LN_INJ_ONCE (b : Nat) : Field := ⟨(LN_INJ b), 31, 31⟩
def LN_INJ_MISSION (b : Nat) : Field := ⟨(LN_INJ b), 30, 30⟩
def LN_INJ_BURST (b : Nat) : Field := ⟨(LN_INJ b), 23, 16⟩
def LN_INJ_RATE_EXP (b : Nat) : Field := ⟨(LN_INJ b), 7, 0⟩
def LN_DFE_VAL (b i : Nat) : Nat := b + 0x20 + 4 * i
def LN_DFE_VAL_TAP_D (b i : Nat) : Field := ⟨(LN_DFE_VAL b i), 31, 24⟩
def LN_DFE_VAL_TAP_C (b i : Nat) : Field := ⟨(LN_DFE_VAL b i), 23, 16⟩
def LN_DFE_VAL_TAP_B (b i : Nat) : Field := ⟨(LN_DFE_VAL b i), 15, 8⟩
def LN_DFE_VAL_TAP_A (b i : Nat) : Field := ⟨(LN_DFE_VAL b i), 7, 0⟩
def PORT_CFG (b : Nat) : Nat := b + 0
def PORT_CFG_PORT_EN (b : Nat) : Field := ⟨(PORT_CFG b), 31, 31⟩
def PORT_CFG_FAULT_MIRROR (b : Nat) : Field := ⟨(PORT_CFG b), 30, 29⟩
def PORT_STS (b : Nat) : Nat := b + 4
def PORT_STS_LINK_UP (b : Nat) : Field := ⟨(PORT_STS b), 31, 31⟩
def PORT_STS_BLOCK_LOCK (b : Nat) : Field := ⟨(PORT_STS b), 30, 30⟩
def PORT_STS_ALIGNED (b : Nat) : Field := ⟨(PORT_STS b), 29, 29⟩
def PORT_STS_HI_SER (b : Nat) : Field := ⟨(PORT_STS b), 28, 28⟩
def PORT_STS_FAULT_RX (b : Nat) : Field := ⟨(PORT_STS b), 27, 26⟩
def PORT_STS_MIRRORING (b : Nat) : Field := ⟨(PORT_STS b), 25, 25⟩
def PORT_STS_DEGRADED (b : Nat) : Field := ⟨(PORT_STS b), 24, 24⟩
def PORT_STS_DOWN_SEEN (b : Nat) : Field := ⟨(PORT_STS b), 23, 23⟩
def PORT_MAC_CFG (b : Nat) : Nat := b + 8
def PORT_MAC_CFG_MAX_FRAME (b : Nat) : Field := ⟨(PORT_MAC_CFG b), 15, 0⟩
def PORT_FEC_CFG (b : Nat) : Nat := b + 0xC
def PORT_FEC_CFG_CLEAR_TH (b : Nat) : Field := ⟨(PORT_FEC_CFG b), 31, 16⟩
def PORT_FEC_CFG_SET_TH (b : Nat) : Field := ⟨(PORT_FEC_CFG b), 15, 0⟩
def KOR_CFG (k : Nat) : Nat := 0x1A0000 + 0x1000 * k
def KOR_CFG_PORT_EN (k : Nat) : Field := ⟨(KOR_CFG k), 31, 31⟩
def KOR_CFG_STREAM (k : Nat) : Field := ⟨(KOR_CFG k), 30, 30⟩
def KOR_CFG_FAULT_MIRROR (k : Nat) : Field := ⟨(KOR_CFG k), 29, 29⟩
def KOR_CFG_RDI_EN (k : Nat) : Field := ⟨(KOR_CFG k), 28, 28⟩
def KOR_STS (k : Nat) : Nat := 0x1A0004 + 0x1000 * k
def KOR_STS_LINK_UP (k : Nat) : Field := ⟨(KOR_STS k), 31, 31⟩
def KOR_STS_ALIGNED (k : Nat) : Field := ⟨(KOR_STS k), 30, 30⟩
def KOR_STS_CAP_SYNC (k : Nat) : Field := ⟨(KOR_STS k), 29, 29⟩
def KOR_STS_RDI_RX (k : Nat) : Field := ⟨(KOR_STS k), 28, 28⟩
def KOR_STS_CSF_RX (k : Nat) : Field := ⟨(KOR_STS k), 27, 27⟩
def KOR_STS_NO_CONTENT_RX (k : Nat) : Field := ⟨(KOR_STS k), 26, 26⟩
def KOR_STS_MODE_MISMATCH (k : Nat) : Field := ⟨(KOR_STS k), 25, 25⟩
def KOR_STS_DEGRADED (k : Nat) : Field := ⟨(KOR_STS k), 24, 24⟩
def KOR_STS_DOWN_SEEN (k : Nat) : Field := ⟨(KOR_STS k), 23, 23⟩
def KOR_STS_PEER_PORT (k : Nat) : Field := ⟨(KOR_STS k), 19, 15⟩
def KOR_STS_SKEW_NS (k : Nat) : Field := ⟨(KOR_STS k), 8, 0⟩
def KOR_HUNT_CFG (k : Nat) : Nat := 0x1A0008 + 0x1000 * k
def KOR_HUNT_CFG_PTR_EN (k : Nat) : Field := ⟨(KOR_HUNT_CFG k), 31, 31⟩
def KOR_HUNT_CFG_HEAD_FIX (k : Nat) : Field := ⟨(KOR_HUNT_CFG k), 30, 30⟩
def KOR_LANE_STS (k : Nat) : Nat := 0x1A000C + 0x1000 * k
def KOR_LANE_STS_FRAME_STATE (k : Nat) : Field := ⟨(KOR_LANE_STS k), 31, 16⟩
def KOR_LANE_STS_FEC_LOCK (k : Nat) : Field := ⟨(KOR_LANE_STS k), 15, 8⟩
def KOR_LANE_STS_LOF_SEEN (k : Nat) : Field := ⟨(KOR_LANE_STS k), 7, 0⟩
def KOR_BIP_CFG (k : Nat) : Nat := 0x1A0010 + 0x1000 * k
def KOR_BIP_CFG_CLEAR_TH (k : Nat) : Field := ⟨(KOR_BIP_CFG k), 31, 16⟩
def KOR_BIP_CFG_SET_TH (k : Nat) : Field := ⟨(KOR_BIP_CFG k), 15, 0⟩
def KOR_STREAM_STS (k : Nat) : Nat := 0x1A0014 + 0x1000 * k
def KOR_STREAM_STS_JC_TX (k : Nat) : Field := ⟨(KOR_STREAM_STS k), 31, 30⟩
def KOR_STREAM_STS_JC_RX (k : Nat) : Field := ⟨(KOR_STREAM_STS k), 29, 28⟩
def KOR_STREAM_STS_FILL (k : Nat) : Field := ⟨(KOR_STREAM_STS k), 15, 0⟩
def KOR_CUE_TX_CTRL (k : Nat) : Nat := 0x1A0020 + 0x1000 * k
def KOR_CUE_TX_CTRL_BUSY (k : Nat) : Field := ⟨(KOR_CUE_TX_CTRL k), 31, 31⟩
def KOR_CUE_TX_CTRL_SEND (k : Nat) : Field := ⟨(KOR_CUE_TX_CTRL k), 30, 30⟩
def KOR_CUE_TX_CTRL_LEN (k : Nat) : Field := ⟨(KOR_CUE_TX_CTRL k), 8, 0⟩
def KOR_CUE_RX_STS (k : Nat) : Nat := 0x1A0024 + 0x1000 * k
def KOR_CUE_RX_STS_VALID (k : Nat) : Field := ⟨(KOR_CUE_RX_STS k), 31, 31⟩
def KOR_CUE_RX_STS_POP (k : Nat) : Field := ⟨(KOR_CUE_RX_STS k), 30, 30⟩
def KOR_CUE_RX_STS_HELD (k : Nat) : Field := ⟨(KOR_CUE_RX_STS k), 10, 9⟩
def KOR_CUE_RX_STS_LEN (k : Nat) : Field := ⟨(KOR_CUE_RX_STS k), 8, 0⟩
def KOR_CUE_TX_DATA (k i : Nat) : Nat := 0x1A0200 + 0x1000 * k + 4 * i
def KOR_CUE_RX_DATA (k i : Nat) : Nat := 0x1A0300 + 0x1000 * k + 4 * i
def PRS_PROF_CFG (p : Nat) : Nat := 0x200000 + 0x100 * p
def PRS_PROF_CFG_TYPE (p : Nat) : Field := ⟨(PRS_PROF_CFG p), 31, 30⟩
def PRS_PROF_CFG_WIDE (p : Nat) : Field := ⟨(PRS_PROF_CFG p), 29, 29⟩
def PRS_EXT (p e : Nat) : Nat := 0x200010 + 0x100 * p + 4 * e
def PRS_EXT_EN (p e : Nat) : Field := ⟨(PRS_EXT p e), 31, 31⟩
def PRS_EXT_ANCHOR (p e : Nat) : Field := ⟨(PRS_EXT p e), 30, 28⟩
def PRS_EXT_ABSENT_FAIL (p e : Nat) : Field := ⟨(PRS_EXT p e), 27, 27⟩
def PRS_EXT_OFFSET (p e : Nat) : Field := ⟨(PRS_EXT p e), 22, 16⟩
def PRS_EXT_LEN (p e : Nat) : Field := ⟨(PRS_EXT p e), 12, 8⟩
def PRS_EXT_KEY_POS (p e : Nat) : Field := ⟨(PRS_EXT p e), 4, 0⟩
def PRS_MASK (p i : Nat) : Nat := 0x200040 + 0x100 * p + 4 * i
def PRS_PORT_CFG (n : Nat) : Nat := 0x202000 + 4 * n
def PRS_PORT_CFG_PROFILE (n : Nat) : Field := ⟨(PRS_PORT_CFG n), 31, 28⟩
def PRS_PORT_CFG_CLEAR_PROFILE (n : Nat) : Field := ⟨(PRS_PORT_CFG n), 27, 24⟩
def PRS_IMPLICIT_SCI (k : Nat) : Nat := 0x202200 + 8 * k
def PRS_IMPLICIT_SCI_HI (k : Nat) : Nat := 0x202204 + 8 * k
def FLT_CMD : Nat := 0x240000
def FLT_CMD_BUSY : Field := ⟨FLT_CMD, 31, 31⟩
def FLT_CMD_OP : Field := ⟨FLT_CMD, 30, 27⟩
def FLT_CMD_BY_INDEX : Field := ⟨FLT_CMD, 26, 26⟩
def FLT_CMD_WIDE : Field := ⟨FLT_CMD, 25, 25⟩
def FLT_CMD_PROFILE : Field := ⟨FLT_CMD, 23, 20⟩
def FLT_CMD_RESULT : Field := ⟨FLT_CMD, 15, 8⟩
def FLT_CMD_MOVES : Field := ⟨FLT_CMD, 3, 0⟩
def FLT_STAGE_KEY (i : Nat) : Nat := 0x240010 + 4 * i
def FLT_STAGE_RES : Nat := 0x240030
def FLT_STAGE_INDEX : Nat := 0x240034
def FLT_STAGE_INDEX_HIT : Field := ⟨FLT_STAGE_INDEX, 31, 31⟩
def FLT_STAGE_INDEX_INDEX : Field := ⟨FLT_STAGE_INDEX, 21, 0⟩
def FLT_MOVE (j : Nat) : Nat := 0x240040 + 4 * j
def FLT_MOVE_INDEX (j : Nat) : Field := ⟨(FLT_MOVE j), 21, 0⟩
def FLT_HITS (i : Nat) : Nat := 0x240080 + 4 * i
def FLT_OCCUPANCY : Nat := 0x240088
def FLT_OCCUPANCY_STASH_USED : Field := ⟨FLT_OCCUPANCY, 31, 22⟩
def FLT_OCCUPANCY_ENTRIES : Field := ⟨FLT_OCCUPANCY, 21, 0⟩
def FLT_CC_CFG : Nat := 0x240090
def FLT_CC_CFG_EN : Field := ⟨FLT_CC_CFG, 31, 31⟩
def FLT_CC_CFG_QUARANTINE : Field := ⟨FLT_CC_CFG, 30, 30⟩
def FLT_CC_STS : Nat := 0x240094
def FLT_CC_STS_ARMED : Field := ⟨FLT_CC_STS, 31, 16⟩
def FLT_CC_STS_QUARANTINED : Field := ⟨FLT_CC_STS, 15, 0⟩
def FLT_CC_GROUP : Nat := 0x240098
def FLT_CC_GROUP_IS_QUARANTINED : Field := ⟨FLT_CC_GROUP, 31, 31⟩
def FLT_CC_GROUP_IS_ARMED : Field := ⟨FLT_CC_GROUP, 30, 30⟩
def FLT_CC_GROUP_LIFT : Field := ⟨FLT_CC_GROUP, 29, 29⟩
def FLT_CC_GROUP_GROUP : Field := ⟨FLT_CC_GROUP, 14, 0⟩
def FLT_CC_SIG : Nat := 0x24009C
def FLT_CC_MISMATCH : Nat := 0x2400A0
def FLT_CC_MISMATCH_VALID : Field := ⟨FLT_CC_MISMATCH, 31, 31⟩
def FLT_CC_MISMATCH_OVF : Field := ⟨FLT_CC_MISMATCH, 30, 30⟩
def FLT_CC_MISMATCH_VALUE : Field := ⟨FLT_CC_MISMATCH, 21, 0⟩
def FLT_FW_LOG : Nat := 0x2400A4
def FLT_FW_LOG_VALID : Field := ⟨FLT_FW_LOG, 31, 31⟩
def FLT_FW_LOG_OVF : Field := ⟨FLT_FW_LOG, 30, 30⟩
def FLT_FW_LOG_VALUE : Field := ⟨FLT_FW_LOG, 21, 0⟩
def FLT_PUNT_CFG : Nat := 0x2400A8
def FLT_PUNT_CFG_TOTAL_RATE : Field := ⟨FLT_PUNT_CFG, 9, 0⟩
def FLT_TS_CMD : Nat := 0x2400C0
def FLT_TS_CMD_BUSY : Field := ⟨FLT_TS_CMD, 31, 31⟩
def FLT_TS_CMD_OP : Field := ⟨FLT_TS_CMD, 30, 29⟩
def FLT_TS_CMD_INDEX : Field := ⟨FLT_TS_CMD, 15, 0⟩
def FLT_TS_CFG0 : Nat := 0x2400C4
def FLT_TS_CFG0_FRAMES : Field := ⟨FLT_TS_CFG0, 31, 31⟩
def FLT_TS_CFG0_RATE : Field := ⟨FLT_TS_CFG0, 19, 0⟩
def FLT_TS_CFG1 : Nat := 0x2400C8
def FLT_TS_CFG1_BURST : Field := ⟨FLT_TS_CFG1, 23, 0⟩
def FLT_PART (p : Nat) : Nat := 0x240100 + 4 * p
def FLT_PART_QUOTA (p : Nat) : Field := ⟨(FLT_PART p), 21, 0⟩
def FLT_PART_USED (p : Nat) : Nat := 0x240140 + 4 * p
def FLT_PART_USED_USED (p : Nat) : Field := ⟨(FLT_PART_USED p), 21, 0⟩
def FLT_PORT_CFG (n : Nat) : Nat := 0x241000 + 4 * n
def FLT_PORT_CFG_BYPASS_OK (n : Nat) : Field := ⟨(FLT_PORT_CFG n), 31, 31⟩
def FLT_PORT_CFG_DEFAULT (n : Nat) : Field := ⟨(FLT_PORT_CFG n), 30, 30⟩
def FLT_PORT_CFG_MISS_TS (n : Nat) : Field := ⟨(FLT_PORT_CFG n), 29, 29⟩
def FLT_PORT_CFG_TS_BASE (n : Nat) : Field := ⟨(FLT_PORT_CFG n), 28, 23⟩
def FLT_PORT_CFG_PUNT_RATE (n : Nat) : Field := ⟨(FLT_PORT_CFG n), 7, 0⟩
def ASC_CMD : Nat := 0x280000
def ASC_CMD_BUSY : Field := ⟨ASC_CMD, 31, 31⟩
def ASC_CMD_OP : Field := ⟨ASC_CMD, 30, 24⟩
def ASC_CMD_RESULT : Field := ⟨ASC_CMD, 23, 16⟩
def ASC_CFG : Nat := 0x280004
def ASC_CFG_PERSIST_EN : Field := ⟨ASC_CFG, 31, 31⟩
def ASC_CFG_REPL_EN : Field := ⟨ASC_CFG, 30, 30⟩
def ASC_CFG_RAW_KEY_EN : Field := ⟨ASC_CFG, 29, 29⟩
def ASC_CFG_DISSOLVE_PIN_MAX : Field := ⟨ASC_CFG, 15, 0⟩
def ASC_STS : Nat := 0x280008
def ASC_STS_STORE_READY : Field := ⟨ASC_STS, 31, 31⟩
def ASC_STS_STORE_LOST : Field := ⟨ASC_STS, 30, 30⟩
def ASC_STS_REPL_SUSPENDED : Field := ⟨ASC_STS, 29, 29⟩
def ASC_STS_MISSQ : Field := ⟨ASC_STS, 25, 13⟩
def ASC_RESIDENT : Nat := 0x28000C
def ASC_RESIDENT_RESIDENT : Field := ⟨ASC_RESIDENT, 16, 0⟩
def ASC_PINNED : Nat := 0x280010
def ASC_PINNED_BY_DISSOLVE : Field := ⟨ASC_PINNED, 31, 16⟩
def ASC_PINNED_TOTAL : Field := ⟨ASC_PINNED, 15, 0⟩
def ASC_SESSION : Nat := 0x280014
def ASC_STAGE (w : Nat) : Nat := 0x280040 + 4 * w
def ASC_KEY_STAGE (i : Nat) : Nat := 0x280080 + 4 * i
def ASC_REKEY_LOG : Nat := 0x2800A0
def ASC_REKEY_LOG_VALID : Field := ⟨ASC_REKEY_LOG, 31, 31⟩
def ASC_REKEY_LOG_OVF : Field := ⟨ASC_REKEY_LOG, 30, 30⟩
def ASC_REKEY_LOG_INDEX : Field := ⟨ASC_REKEY_LOG, 19, 0⟩
def ASC_FAULT_LOG : Nat := 0x2800A4
def ASC_FAULT_LOG_VALID : Field := ⟨ASC_FAULT_LOG, 31, 31⟩
def ASC_FAULT_LOG_OVF : Field := ⟨ASC_FAULT_LOG, 30, 30⟩
def ASC_FAULT_LOG_INDEX : Field := ⟨ASC_FAULT_LOG, 19, 0⟩
def ASC_PORT_STREAM (k : Nat) : Nat := 0x2800C0 + 4 * k
def ASC_PORT_STREAM_TX_VALID (k : Nat) : Field := ⟨(ASC_PORT_STREAM k), 31, 31⟩
def ASC_PORT_STREAM_TX (k : Nat) : Field := ⟨(ASC_PORT_STREAM k), 19, 0⟩
def ASC_PORT_STREAM_RX (k : Nat) : Nat := 0x280140 + 4 * k
def ASC_PORT_STREAM_RX_RX_VALID (k : Nat) : Field := ⟨(ASC_PORT_STREAM_RX k), 31, 31⟩
def ASC_PORT_STREAM_RX_RX (k : Nat) : Field := ⟨(ASC_PORT_STREAM_RX k), 19, 0⟩
def FRM_CFG : Nat := 0x300000
def FRM_CFG_WAKE_TH : Field := ⟨FRM_CFG, 31, 24⟩
def FRM_CFG_SLEEP_TH : Field := ⟨FRM_CFG, 23, 16⟩
def FRM_CFG_SLEEP_HOLD_US : Field := ⟨FRM_CFG, 15, 0⟩
def FRM_STS : Nat := 0x300004
def FRM_STS_ENC_FRAMES : Field := ⟨FRM_STS, 31, 18⟩
def FRM_STS_DEC_FRAMES : Field := ⟨FRM_STS, 17, 4⟩
def FRM_STS_MASK_OK : Field := ⟨FRM_STS, 3, 3⟩
def FRM_STS_ENC_CORES_OK : Field := ⟨FRM_STS, 2, 2⟩
def FRM_STS_DEC_CORES_OK : Field := ⟨FRM_STS, 1, 1⟩
def FRM_STS_UNWRAP_FALLBACK : Field := ⟨FRM_STS, 0, 0⟩
def FRM_UNWRAP_CFG : Nat := 0x300008
def FRM_UNWRAP_CFG_EXCLUSIVE : Field := ⟨FRM_UNWRAP_CFG, 31, 31⟩
def FRM_UNWRAP_CFG_RING : Field := ⟨FRM_UNWRAP_CFG, 4, 0⟩
def FRM_CHECK_CFG : Nat := 0x30000C
def FRM_CHECK_CFG_CHECK_EXP : Field := ⟨FRM_CHECK_CFG, 4, 0⟩
def FRM_RING_CFG (r : Nat) : Nat := 0x301000 + 0x10 * r
def FRM_RING_CFG_ROLE (r : Nat) : Field := ⟨(FRM_RING_CFG r), 31, 30⟩
def FRM_RING_CFG_KEEP_AWAKE (r : Nat) : Field := ⟨(FRM_RING_CFG r), 29, 29⟩
def FRM_RING_STS (r : Nat) : Nat := 0x301004 + 0x10 * r
def FRM_RING_STS_POWER (r : Nat) : Field := ⟨(FRM_RING_STS r), 31, 30⟩
def FRM_RING_STS_UNWRAP (r : Nat) : Field := ⟨(FRM_RING_STS r), 29, 29⟩
def FRM_RING_STS_IN_SERVICE (r : Nat) : Field := ⟨(FRM_RING_STS r), 15, 0⟩
def FRM_RING_CMD (r : Nat) : Nat := 0x301008 + 0x10 * r
def FRM_RING_CMD_KAT (r : Nat) : Field := ⟨(FRM_RING_CMD r), 31, 31⟩
def FRM_RING_CMD_RESTORE (r : Nat) : Field := ⟨(FRM_RING_CMD r), 30, 30⟩
def FRM_RING_CMD_BUSY (r : Nat) : Field := ⟨(FRM_RING_CMD r), 29, 29⟩
def FRM_RING_CMD_CORES (r : Nat) : Field := ⟨(FRM_RING_CMD r), 15, 0⟩
def FRM_PORT_CFG (k : Nat) : Nat := 0x302000 + 4 * k
def FRM_PORT_CFG_CUT_THROUGH (k : Nat) : Field := ⟨(FRM_PORT_CFG k), 31, 31⟩
def BPM_CFG : Nat := 0x400000
def BPM_CFG_SPILL_EN : Field := ⟨BPM_CFG, 31, 31⟩
def BPM_STS : Nat := 0x400004
def BPM_STS_CFG_ERR : Field := ⟨BPM_STS, 31, 31⟩
def BPM_STS_CELL_FREE : Field := ⟨BPM_STS, 19, 0⟩
def BPM_POOL_CFG (p : Nat) : Nat := 0x400010 + 4 * p
def BPM_POOL_CFG_COUNT (p : Nat) : Field := ⟨(BPM_POOL_CFG p), 19, 0⟩
def BPM_CELL_CFG : Nat := 0x400030
def BPM_CELL_CFG_COUNT : Field := ⟨BPM_CELL_CFG, 19, 0⟩
def BPM_POOL_FREE (p : Nat) : Nat := 0x400040 + 4 * p
def BPM_POOL_FREE_FREE (p : Nat) : Field := ⟨(BPM_POOL_FREE p), 19, 0⟩
def BPM_CELL_CLASS (c : Nat) : Nat := 0x400080 + 4 * c
def BPM_CELL_CLASS_RESERVE (c : Nat) : Field := ⟨(BPM_CELL_CLASS c), 31, 16⟩
def BPM_CELL_CLASS_MAX (c : Nat) : Field := ⟨(BPM_CELL_CLASS c), 15, 0⟩
def BPM_OWNER_CFG (o p : Nat) : Nat := 0x401000 + 0x40 * o + 4 * p
def BPM_OWNER_CFG_RESERVE (o p : Nat) : Field := ⟨(BPM_OWNER_CFG o p), 31, 16⟩
def BPM_OWNER_CFG_SHARED_MAX (o p : Nat) : Field := ⟨(BPM_OWNER_CFG o p), 15, 0⟩
def BPM_OWNER_USED (o p : Nat) : Nat := 0x403000 + 0x40 * o + 4 * p
def BPM_OWNER_USED_USED (o p : Nat) : Field := ⟨(BPM_OWNER_USED o p), 19, 0⟩
def SCH_SHP_CMD : Nat := 0x500010
def SCH_SHP_CMD_BUSY : Field := ⟨SCH_SHP_CMD, 31, 31⟩
def SCH_SHP_CMD_OP : Field := ⟨SCH_SHP_CMD, 30, 29⟩
def SCH_SHP_CMD_VALID : Field := ⟨SCH_SHP_CMD, 28, 28⟩
def SCH_SHP_CMD_INDEX : Field := ⟨SCH_SHP_CMD, 19, 0⟩
def SCH_SHP_DATA0 : Nat := 0x500014
def SCH_SHP_DATA0_EN : Field := ⟨SCH_SHP_DATA0, 31, 31⟩
def SCH_SHP_DATA0_PORT : Field := ⟨SCH_SHP_DATA0, 30, 25⟩
def SCH_SHP_DATA0_PROFILE : Field := ⟨SCH_SHP_DATA0, 24, 21⟩
def SCH_SHP_DATA0_RATE : Field := ⟨SCH_SHP_DATA0, 19, 0⟩
def SCH_SHP_DATA1 : Nat := 0x500018
def SCH_SHP_DATA1_BURST : Field := ⟨SCH_SHP_DATA1, 23, 0⟩
def SCH_SHP_TOKENS : Nat := 0x50001C
def SCH_MAP_CMD : Nat := 0x500020
def SCH_MAP_CMD_BUSY : Field := ⟨SCH_MAP_CMD, 31, 31⟩
def SCH_MAP_CMD_OP : Field := ⟨SCH_MAP_CMD, 30, 29⟩
def SCH_MAP_CMD_VALID : Field := ⟨SCH_MAP_CMD, 28, 28⟩
def SCH_MAP_CMD_INDEX : Field := ⟨SCH_MAP_CMD, 19, 0⟩
def SCH_MAP_DATA : Nat := 0x500024
def SCH_MAP_DATA_SHAPER : Field := ⟨SCH_MAP_DATA, 15, 0⟩
def SCH_HIST_CMD : Nat := 0x500030
def SCH_HIST_CMD_BUSY : Field := ⟨SCH_HIST_CMD, 31, 31⟩
def SCH_HIST_CMD_SNAP : Field := ⟨SCH_HIST_CMD, 30, 30⟩
def SCH_HIST_CMD_PORT : Field := ⟨SCH_HIST_CMD, 5, 0⟩
def SCH_PROFILE (j : Nat) : Nat := 0x500100 + 4 * j
def SCH_PROFILE_POLICE (j : Nat) : Field := ⟨(SCH_PROFILE j), 31, 31⟩
def SCH_PROFILE_OVERHEAD (j : Nat) : Field := ⟨(SCH_PROFILE j), 24, 16⟩
def SCH_PROFILE_QLIMIT_KIB (j : Nat) : Field := ⟨(SCH_PROFILE j), 15, 0⟩
def SCH_PORT_SHP0 (m : Nat) : Nat := 0x501000 + 0x20 * m
def SCH_PORT_SHP0_EN (m : Nat) : Field := ⟨(SCH_PORT_SHP0 m), 31, 31⟩
def SCH_PORT_SHP0_PORT (m : Nat) : Field := ⟨(SCH_PORT_SHP0 m), 30, 25⟩
def SCH_PORT_SHP0_PROFILE (m : Nat) : Field := ⟨(SCH_PORT_SHP0 m), 24, 21⟩
def SCH_PORT_SHP0_RATE (m : Nat) : Field := ⟨(SCH_PORT_SHP0 m), 19, 0⟩
def SCH_PORT_SHP1 (m : Nat) : Nat := 0x501004 + 0x20 * m
def SCH_PORT_SHP1_BURST (m : Nat) : Field := ⟨(SCH_PORT_SHP1 m), 23, 0⟩
def SCH_PTP_CFG (m : Nat) : Nat := 0x501008 + 0x20 * m
def SCH_PTP_CFG_EN (m : Nat) : Field := ⟨(SCH_PTP_CFG m), 31, 31⟩
def SCH_PTP_CFG_SLOT_RATE (m : Nat) : Field := ⟨(SCH_PTP_CFG m), 30, 16⟩
def SCH_PTP_CFG_D_NS (m : Nat) : Field := ⟨(SCH_PTP_CFG m), 15, 0⟩
def SCH_HIST_CFG (m : Nat) : Nat := 0x50100C + 0x20 * m
def SCH_HIST_CFG_LOG (m : Nat) : Field := ⟨(SCH_HIST_CFG m), 31, 31⟩
def SCH_HIST_CFG_CLASS (m : Nat) : Field := ⟨(SCH_HIST_CFG m), 30, 29⟩
def SCH_HIST_CFG_WIDTH_NS (m : Nat) : Field := ⟨(SCH_HIST_CFG m), 15, 0⟩
def SCH_EXTRA_CFG (k : Nat) : Nat := 0x502000 + 0x20 * k
def SCH_EXTRA_CFG_MODE (k : Nat) : Field := ⟨(SCH_EXTRA_CFG k), 31, 30⟩
def SCH_EXTRA_CFG_RATE (k : Nat) : Field := ⟨(SCH_EXTRA_CFG k), 19, 0⟩
def SCH_EXTRA_ASSOC (k : Nat) : Nat := 0x502004 + 0x20 * k
def SCH_EXTRA_ASSOC_VALID (k : Nat) : Field := ⟨(SCH_EXTRA_ASSOC k), 31, 31⟩
def SCH_EXTRA_ASSOC_ASSOC (k : Nat) : Field := ⟨(SCH_EXTRA_ASSOC k), 19, 0⟩
def SCH_EXTRA_LEN (k : Nat) : Nat := 0x502008 + 0x20 * k
def SCH_EXTRA_LEN_LEN_MAX (k : Nat) : Field := ⟨(SCH_EXTRA_LEN k), 31, 16⟩
def SCH_EXTRA_LEN_LEN_MIN (k : Nat) : Field := ⟨(SCH_EXTRA_LEN k), 15, 0⟩
def SCH_EXTRA_MAC (k i : Nat) : Nat := 0x502010 + 0x20 * k + 4 * i
def SCH_HIST_MIN (m : Nat) : Nat := 0x508100 + 0x200 * m
def SCH_HIST_MAX (m : Nat) : Nat := 0x508104 + 0x200 * m
def TIM_CFG : Nat := 0x50000
def TIM_CFG_PPS_REF : Field := ⟨TIM_CFG, 31, 31⟩
def TIM_CFG_CAP_PPS_EN : Field := ⟨TIM_CFG, 30, 30⟩
def TIM_CFG_CAP_EVT_EN : Field := ⟨TIM_CFG, 29, 29⟩
def TIM_CFG_HOLD_TIMEOUT_MS : Field := ⟨TIM_CFG, 15, 0⟩
def TIM_STS : Nat := 0x50004
def TIM_STS_VALID : Field := ⟨TIM_STS, 31, 31⟩
def TIM_STS_STATE : Field := ⟨TIM_STS, 30, 29⟩
def TIM_STS_REASON : Field := ⟨TIM_STS, 28, 27⟩
def TIM_STS_PPS_SEEN : Field := ⟨TIM_STS, 26, 26⟩
def TIM_STS_STEPPED : Field := ⟨TIM_STS, 25, 25⟩
def TIM_STS_HOLD_SEC : Field := ⟨TIM_STS, 23, 0⟩
def TIM_NOW_NS : Nat := 0x50010
def TIM_NOW_SEC_LO : Nat := 0x50014
def TIM_NOW_SEC_HI : Nat := 0x50018
def TIM_FRC : Nat := 0x50020
def TIM_FRC_HI : Nat := 0x50024
def TIM_RATE : Nat := 0x50030
def TIM_ADJ_CMD : Nat := 0x50034
def TIM_ADJ_CMD_BUSY : Field := ⟨TIM_ADJ_CMD, 31, 31⟩
def TIM_ADJ_CMD_OP : Field := ⟨TIM_ADJ_CMD, 30, 29⟩
def TIM_ADJ_NS : Nat := 0x50038
def TIM_ADJ_SEC_LO : Nat := 0x5003C
def TIM_ADJ_SEC_HI : Nat := 0x50040
def TIM_ADJ_SEC_HI_NEG : Field := ⟨TIM_ADJ_SEC_HI, 31, 31⟩
def TIM_ADJ_SEC_HI_SEC_HI : Field := ⟨TIM_ADJ_SEC_HI, 15, 0⟩
def TIM_ERR_BOUND : Nat := 0x50048
def TIM_XTAL_CAL : Nat := 0x5004C
def TIM_PPS_OUT : Nat := 0x50050
def TIM_PPS_OUT_EN : Field := ⟨TIM_PPS_OUT, 31, 31⟩
def TIM_PPS_OUT_WIDTH : Field := ⟨TIM_PPS_OUT, 30, 24⟩
def TIM_PPS_OUT_OFFSET_NS : Field := ⟨TIM_PPS_OUT, 23, 0⟩
def TIM_CAP_NS (c : Nat) : Nat := 0x50070 + 0x10 * c
def TIM_CAP_SEC_LO (c : Nat) : Nat := 0x50074 + 0x10 * c
def TIM_CAP_SEC_HI (c : Nat) : Nat := 0x50078 + 0x10 * c
def TIM_CAP_SEC_HI_VALID (c : Nat) : Field := ⟨(TIM_CAP_SEC_HI c), 31, 31⟩
def TIM_CAP_SEC_HI_OVF (c : Nat) : Field := ⟨(TIM_CAP_SEC_HI c), 30, 30⟩
def TIM_CAP_SEC_HI_SEC_HI (c : Nat) : Field := ⟨(TIM_CAP_SEC_HI c), 15, 0⟩
def TIM_TC_CFG : Nat := 0x50090
def TIM_TC_CFG_EN : Field := ⟨TIM_TC_CFG, 31, 31⟩
def TIM_TC_CFG_P2P : Field := ⟨TIM_TC_CFG, 30, 30⟩
def TIM_TC_CFG_MISS_SEND : Field := ⟨TIM_TC_CFG, 29, 29⟩
def TIM_TC_CFG_FU_WAIT_US : Field := ⟨TIM_TC_CFG, 15, 0⟩
def TIM_PORT_LAT (n : Nat) : Nat := 0x50200 + 4 * n
def TIM_PORT_LAT_IN_LAT (n : Nat) : Field := ⟨(TIM_PORT_LAT n), 31, 16⟩
def TIM_PORT_LAT_OUT_LAT (n : Nat) : Field := ⟨(TIM_PORT_LAT n), 15, 0⟩
def TIM_PORT_PDELAY (n : Nat) : Nat := 0x50300 + 4 * n
def MGD_CFG : Nat := 0x600000
def MGD_CFG_SPEC_EN : Field := ⟨MGD_CFG, 31, 31⟩
def MGD_STS : Nat := 0x600004
def MGD_STS_TRAINED : Field := ⟨MGD_STS, 31, 31⟩
def MGD_STS_FRESH : Field := ⟨MGD_STS, 30, 30⟩
def MGD_STS_CHG_ACTIVE : Field := ⟨MGD_STS, 29, 29⟩
def MGD_STS_DEPTH : Field := ⟨MGD_STS, 23, 20⟩
def MGD_DDR_STS : Nat := 0x600008
def MGD_DDR_STS_SUBCH : Field := ⟨MGD_DDR_STS, 31, 30⟩
def MGD_DDR_STS_CAP : Field := ⟨MGD_DDR_STS, 29, 28⟩
def MGD_DDR_STS_RATE : Field := ⟨MGD_DDR_STS, 27, 26⟩
def MGD_DDR_STS_C_GIB : Field := ⟨MGD_DDR_STS, 5, 0⟩
def MGD_ROLE_STORE : Nat := 0x60000C
def MGD_ROLE_STORE_VALID : Field := ⟨MGD_ROLE_STORE, 31, 31⟩
def MGD_ROLE_STORE_REGION : Field := ⟨MGD_ROLE_STORE, 2, 0⟩
def MGD_ROLE_BLOB : Nat := 0x600010
def MGD_ROLE_BLOB_VALID : Field := ⟨MGD_ROLE_BLOB, 31, 31⟩
def MGD_ROLE_BLOB_REGION : Field := ⟨MGD_ROLE_BLOB, 26, 24⟩
def MGD_ROLE_BLOB_BASE : Field := ⟨MGD_ROLE_BLOB, 23, 12⟩
def MGD_ROLE_BLOB_SIZE : Field := ⟨MGD_ROLE_BLOB, 11, 0⟩
def MGD_CHG_CMD : Nat := 0x600020
def MGD_CHG_CMD_BUSY : Field := ⟨MGD_CHG_CMD, 31, 31⟩
def MGD_CHG_CMD_START : Field := ⟨MGD_CHG_CMD, 30, 30⟩
def MGD_CHG_CMD_REGION : Field := ⟨MGD_CHG_CMD, 2, 0⟩
def MGD_CHG_STS : Nat := 0x600024
def MGD_CHG_STS_RESULT : Field := ⟨MGD_CHG_STS, 31, 28⟩
def MGD_CHG_STS_REGION : Field := ⟨MGD_CHG_STS, 26, 24⟩
def MGD_CHG_STS_BOUNDARY : Field := ⟨MGD_CHG_STS, 23, 0⟩
def MGD_HALT_REC : Nat := 0x600040
def MGD_HALT_REC_VALID : Field := ⟨MGD_HALT_REC, 31, 31⟩
def MGD_HALT_REC_LEVEL : Field := ⟨MGD_HALT_REC, 23, 16⟩
def MGD_HALT_REC_EVENT : Field := ⟨MGD_HALT_REC, 15, 0⟩
def MGD_HALT_REC1 : Nat := 0x600044
def MGD_HALT_REC2 : Nat := 0x600048
def MGD_HALT_REC3 : Nat := 0x60004C
def MGD_RGN_BASE (r : Nat) : Nat := 0x600100 + 0x10 * r
def MGD_RGN_BASE_VALUE (r : Nat) : Field := ⟨(MGD_RGN_BASE r), 13, 0⟩
def MGD_RGN_SIZE (r : Nat) : Nat := 0x600104 + 0x10 * r
def MGD_RGN_SIZE_VALUE (r : Nat) : Field := ⟨(MGD_RGN_SIZE r), 13, 0⟩
def MGD_RGN_CFG (r : Nat) : Nat := 0x600108 + 0x10 * r
def MGD_RGN_CFG_KEEP (r : Nat) : Field := ⟨(MGD_RGN_CFG r), 31, 31⟩
def MGD_RGN_CFG_LABEL (r : Nat) : Field := ⟨(MGD_RGN_CFG r), 15, 0⟩
def MGD_RGN_STS (r : Nat) : Nat := 0x60010C + 0x10 * r
def MGD_RGN_STS_STATE (r : Nat) : Field := ⟨(MGD_RGN_STS r), 31, 29⟩
def MGD_RGN_STS_RESUMED (r : Nat) : Field := ⟨(MGD_RGN_STS r), 28, 28⟩
def MGD_RGN_STS_EPHEMERAL (r : Nat) : Field := ⟨(MGD_RGN_STS r), 27, 27⟩
def MGD_RGN_STS_QUEUED (r : Nat) : Field := ⟨(MGD_RGN_STS r), 26, 26⟩
def MGD_RGN_STS_GEN (r : Nat) : Field := ⟨(MGD_RGN_STS r), 15, 0⟩
def VLT_CMD : Nat := 0x60000
def VLT_CMD_BUSY : Field := ⟨VLT_CMD, 31, 31⟩
def VLT_CMD_OP : Field := ⟨VLT_CMD, 30, 27⟩
def VLT_CMD_RESULT : Field := ⟨VLT_CMD, 15, 8⟩
def VLT_ARG : Nat := 0x60004
def VLT_ARG_SUBJECT : Field := ⟨VLT_ARG, 31, 31⟩
def VLT_ARG_USAGE : Field := ⟨VLT_ARG, 15, 8⟩
def VLT_ARG_KIND : Field := ⟨VLT_ARG, 7, 0⟩
def VLT_OFFSET : Nat := 0x60008
def VLT_OFFSET_OFFSET : Field := ⟨VLT_OFFSET, 31, 6⟩
def VLT_STS : Nat := 0x6000C
def VLT_STS_KEYS_READY : Field := ⟨VLT_STS, 31, 31⟩
def VLT_STS_ZEROISED : Field := ⟨VLT_STS, 30, 30⟩
def VLT_STS_ENTROPY_OK : Field := ⟨VLT_STS, 29, 29⟩
def VLT_STS_COUNTER_EXHAUSTED : Field := ⟨VLT_STS, 28, 28⟩
def VLT_STS_EVIDENCE_SATURATED : Field := ⟨VLT_STS, 27, 27⟩
def VLT_STS_OWNER_RECORD : Field := ⟨VLT_STS, 26, 26⟩
def VLT_STS_BBS_RENEWED : Field := ⟨VLT_STS, 25, 25⟩
def VLT_STS_EPOCH_BURNT : Field := ⟨VLT_STS, 24, 24⟩
def VLT_STS_OTP_WEAK : Field := ⟨VLT_STS, 15, 8⟩
def VLT_LC : Nat := 0x60010
def VLT_LC_SLOT : Field := ⟨VLT_LC, 23, 16⟩
def VLT_LC_SLOTS_USED : Field := ⟨VLT_LC, 11, 8⟩
def VLT_LC_LC_CODE : Field := ⟨VLT_LC, 7, 0⟩
def VLT_COUNTER : Nat := 0x60018
def VLT_COUNTER_HI : Nat := 0x6001C
def VLT_RANDOM : Nat := 0x60020
def VLT_UPD_CTRL : Nat := 0x60040
def VLT_UPD_CTRL_CMD : Field := ⟨VLT_UPD_CTRL, 31, 28⟩
def VLT_UPD_CTRL_LENGTH : Field := ⟨VLT_UPD_CTRL, 10, 0⟩
def VLT_UPD_ADDR : Nat := 0x60044
def VLT_UPD_ADDR_WORD : Field := ⟨VLT_UPD_ADDR, 9, 2⟩
def VLT_UPD_DATA : Nat := 0x60048
def VLT_UPD_STS : Nat := 0x6004C
def VLT_UPD_STS_BUSY : Field := ⟨VLT_UPD_STS, 31, 31⟩
def VLT_UPD_STS_STATE : Field := ⟨VLT_UPD_STS, 30, 28⟩
def VLT_UPD_STS_FROZEN : Field := ⟨VLT_UPD_STS, 27, 27⟩
def VLT_UPD_STS_RESULT : Field := ⟨VLT_UPD_STS, 15, 0⟩
def VLT_ID_PUB (i : Nat) : Nat := 0x60080 + 4 * i
def VLT_KEY_STAGE (i : Nat) : Nat := 0x60100 + 4 * i
def VLT_IO (i : Nat) : Nat := 0x60200 + 4 * i
def UCE_CTRL (c : Nat) : Nat := 0x70000 + 0x1000 * c
def UCE_CTRL_OP (c : Nat) : Field := ⟨(UCE_CTRL c), 31, 30⟩
def UCE_CTRL_LAST (c : Nat) : Field := ⟨(UCE_CTRL c), 29, 29⟩
def UCE_CTRL_SEG_LEN (c : Nat) : Field := ⟨(UCE_CTRL c), 13, 0⟩
def UCE_STS (c : Nat) : Nat := 0x70004 + 0x1000 * c
def UCE_STS_STATE (c : Nat) : Field := ⟨(UCE_STS c), 31, 28⟩
def UCE_STS_ABORT_LATE (c : Nat) : Field := ⟨(UCE_STS c), 27, 27⟩
def UCE_STS_ERR (c : Nat) : Field := ⟨(UCE_STS c), 23, 16⟩
def UCE_STS_OUT_LEN (c : Nat) : Field := ⟨(UCE_STS c), 13, 0⟩
def UCE_MODE (c : Nat) : Nat := 0x70008 + 0x1000 * c
def UCE_MODE_MODE (c : Nat) : Field := ⟨(UCE_MODE c), 31, 28⟩
def UCE_MODE_DECRYPT (c : Nat) : Field := ⟨(UCE_MODE c), 27, 27⟩
def UCE_MODE_PAD (c : Nat) : Field := ⟨(UCE_MODE c), 26, 25⟩
def UCE_MODE_SLOT (c : Nat) : Field := ⟨(UCE_MODE c), 19, 16⟩
def UCE_TOTAL (c : Nat) : Nat := 0x70010 + 0x1000 * c
def UCE_TOTAL_HI (c : Nat) : Nat := 0x70014 + 0x1000 * c
def UCE_AAD_LEN (c : Nat) : Nat := 0x70018 + 0x1000 * c
def UCE_IV (c i : Nat) : Nat := 0x70020 + 0x1000 * c + 4 * i
def UCE_TAG (c i : Nat) : Nat := 0x70030 + 0x1000 * c + 4 * i
def UCE_SLOT_CMD : Nat := 0x73000
def UCE_SLOT_CMD_BUSY : Field := ⟨UCE_SLOT_CMD, 31, 31⟩
def UCE_SLOT_CMD_OP : Field := ⟨UCE_SLOT_CMD, 30, 29⟩
def UCE_SLOT_CMD_SIZE256 : Field := ⟨UCE_SLOT_CMD, 28, 28⟩
def UCE_SLOT_CMD_SLOT : Field := ⟨UCE_SLOT_CMD, 27, 24⟩
def UCE_SLOT_CMD_RESULT : Field := ⟨UCE_SLOT_CMD, 23, 16⟩
def UCE_SLOT_OFFSET : Nat := 0x73004
def UCE_SLOT_OFFSET_OFFSET : Field := ⟨UCE_SLOT_OFFSET, 31, 6⟩
def UCE_SLOT_STS (s : Nat) : Nat := 0x73040 + 4 * s
def UCE_SLOT_STS_STATE (s : Nat) : Field := ⟨(UCE_SLOT_STS s), 31, 30⟩
def UCE_SLOT_STS_IN_USE (s : Nat) : Field := ⟨(UCE_SLOT_STS s), 29, 29⟩
def UCE_SLOT_STS_SIZE256 (s : Nat) : Field := ⟨(UCE_SLOT_STS s), 28, 28⟩
def UCE_SLOT_STS_ORIGIN (s : Nat) : Field := ⟨(UCE_SLOT_STS s), 27, 26⟩
def UCE_SLOT_KEY (i : Nat) : Nat := 0x73080 + 4 * i
def UCE_IN (c i : Nat) : Nat := 0x74000 + 0x4000 * c + 4 * i
def UCE_OUT (c i : Nat) : Nat := 0x76000 + 0x4000 * c + 4 * i
def FAB_CFG : Nat := 0x700000
def FAB_CFG_EN : Field := ⟨FAB_CFG, 31, 31⟩
def FAB_CFG_HEAD : Field := ⟨FAB_CFG, 30, 30⟩
def FAB_CFG_ADDR : Field := ⟨FAB_CFG, 29, 24⟩
def FAB_CFG_GROUP_ID : Field := ⟨FAB_CFG, 23, 8⟩
def FAB_CFG_EMITTER : Field := ⟨FAB_CFG, 7, 0⟩
def FAB_PAIR_CFG : Nat := 0x700004
def FAB_PAIR_CFG_PAIRED : Field := ⟨FAB_PAIR_CFG, 31, 31⟩
def FAB_PAIR_CFG_TWIN : Field := ⟨FAB_PAIR_CFG, 30, 30⟩
def FAB_PAIR_CFG_SELF_TEST : Field := ⟨FAB_PAIR_CFG, 29, 29⟩
def FAB_PAIR_CFG_LOSS_POLICY : Field := ⟨FAB_PAIR_CFG, 28, 28⟩
def FAB_PAIR_CFG_STANDBY_DARK : Field := ⟨FAB_PAIR_CFG, 27, 27⟩
def FAB_PAIR_CFG_PARTNER : Field := ⟨FAB_PAIR_CFG, 25, 20⟩
def FAB_PAIR_CFG_PAIR_ID : Field := ⟨FAB_PAIR_CFG, 15, 0⟩
def FAB_PAIR_TIMING : Nat := 0x700008
def FAB_PAIR_TIMING_INIT_WAIT_MS : Field := ⟨FAB_PAIR_TIMING, 31, 16⟩
def FAB_PAIR_TIMING_FENCE_US : Field := ⟨FAB_PAIR_TIMING, 15, 0⟩
def FAB_STS : Nat := 0x70000C
def FAB_STS_ROLE : Field := ⟨FAB_STS, 31, 29⟩
def FAB_STS_FAB_PATH_OK : Field := ⟨FAB_STS, 28, 28⟩
def FAB_STS_LVDS_PATH_OK : Field := ⟨FAB_STS, 27, 27⟩
def FAB_STS_PARTNER_ROLE : Field := ⟨FAB_STS, 26, 24⟩
def FAB_STS_REPL_CURRENT : Field := ⟨FAB_STS, 23, 23⟩
def FAB_STS_DISPUTE : Field := ⟨FAB_STS, 22, 22⟩
def FAB_STS_PARTNER_DOWN : Field := ⟨FAB_STS, 21, 21⟩
def FAB_STS_YIELD : Field := ⟨FAB_STS, 20, 20⟩
def FAB_STS_FAB_MISSES : Field := ⟨FAB_STS, 15, 8⟩
def FAB_STS_LVDS_MISSES : Field := ⟨FAB_STS, 7, 0⟩
def FAB_EPOCH : Nat := 0x700010
def FAB_PEER_HEALTH : Nat := 0x700014
def FAB_PAIR_CMD : Nat := 0x700018
def FAB_PAIR_CMD_BUSY : Field := ⟨FAB_PAIR_CMD, 31, 31⟩
def FAB_PAIR_CMD_SWITCHOVER : Field := ⟨FAB_PAIR_CMD, 30, 30⟩
def FAB_PAIR_CMD_RESULT : Field := ⟨FAB_PAIR_CMD, 7, 0⟩
def FAB_SPARE_LANES : Nat := 0x70001C
def FAB_DIVERGE_LOG : Nat := 0x700020
def FAB_DIVERGE_LOG_VALID : Field := ⟨FAB_DIVERGE_LOG, 31, 31⟩
def FAB_DIVERGE_LOG_OVF : Field := ⟨FAB_DIVERGE_LOG, 30, 30⟩
def FAB_DIVERGE_LOG_BLOCK : Field := ⟨FAB_DIVERGE_LOG, 9, 0⟩
def FAB_LINK_STS (n : Nat) : Nat := 0x700040 + 4 * n
def FAB_LINK_STS_STATE (n : Nat) : Field := ⟨(FAB_LINK_STS n), 31, 29⟩
def FAB_LINK_STS_NEIGHBOUR_VALID (n : Nat) : Field := ⟨(FAB_LINK_STS n), 28, 28⟩
def FAB_LINK_STS_NEIGHBOUR (n : Nat) : Field := ⟨(FAB_LINK_STS n), 27, 22⟩
def FAB_LINK_STS_NEIGHBOUR_GROUP (n : Nat) : Field := ⟨(FAB_LINK_STS n), 15, 0⟩
def FAB_ROUTE (a : Nat) : Nat := 0x700100 + 4 * a
def FAB_ROUTE_REACHABLE (a : Nat) : Field := ⟨(FAB_ROUTE a), 31, 31⟩
def FAB_ROUTE_HOPS (a : Nat) : Field := ⟨(FAB_ROUTE a), 27, 24⟩
def FAB_ROUTE_LINK (a : Nat) : Field := ⟨(FAB_ROUTE a), 17, 16⟩
def FAB_ROUTE_GROUP_ID (a : Nat) : Field := ⟨(FAB_ROUTE a), 15, 0⟩
def GAF_REQ : Nat := 0x30000
def GAF_REQ_BUSY : Field := ⟨GAF_REQ, 31, 31⟩
def GAF_REQ_PENDING : Field := ⟨GAF_REQ, 30, 30⟩
def GAF_REQ_PENDING_TARGET : Field := ⟨GAF_REQ, 29, 28⟩
def GAF_REQ_TARGET : Field := ⟨GAF_REQ, 1, 0⟩
def GAF_STS : Nat := 0x30004
def GAF_STS_STATE : Field := ⟨GAF_STS, 31, 30⟩
def GAF_STS_RESULT : Field := ⟨GAF_STS, 29, 28⟩
def GAF_STS_REASON : Field := ⟨GAF_STS, 23, 16⟩
def GAF_STS_DOMAIN : Field := ⟨GAF_STS, 6, 0⟩
def GAF_POLICY : Nat := 0x30008
def GAF_POLICY_ALLOW_TRIM : Field := ⟨GAF_POLICY, 31, 31⟩
def GAF_POLICY_ALLOW_STANDBY : Field := ⟨GAF_POLICY, 30, 30⟩
def GAF_POLICY_ALLOW_DORMANT : Field := ⟨GAF_POLICY, 29, 29⟩
def GAF_POLICY_START_TRIM : Field := ⟨GAF_POLICY, 28, 28⟩
def GAF_SUPPLY_STS : Nat := 0x30010
def GAF_SUPPLY_STS_FROZEN : Field := ⟨GAF_SUPPLY_STS, 31, 31⟩
def GAF_SUPPLY_STS_LOW : Field := ⟨GAF_SUPPLY_STS, 12, 8⟩
def GAF_SUPPLY_STS_WARN : Field := ⟨GAF_SUPPLY_STS, 4, 0⟩
def GAF_BROWNOUT_LOG : Nat := 0x30014
def GAF_BROWNOUT_LOG_RAIL : Field := ⟨GAF_BROWNOUT_LOG, 31, 29⟩
def GAF_BROWNOUT_LOG_DUR_US : Field := ⟨GAF_BROWNOUT_LOG, 28, 0⟩
def GAF_DOM_STS (d : Nat) : Nat := 0x30100 + 4 * d
def GAF_DOM_STS_POWER (d : Nat) : Field := ⟨(GAF_DOM_STS d), 31, 30⟩
def GAF_DOM_STS_KIND (d : Nat) : Field := ⟨(GAF_DOM_STS d), 27, 24⟩
def GAF_DOM_STS_LAST_REASON (d : Nat) : Field := ⟨(GAF_DOM_STS d), 23, 16⟩
def AON_STS : Nat := 0x40000
def AON_STS_VBAT_LOST : Field := ⟨AON_STS, 31, 31⟩
def AON_STS_VBAT_LOW : Field := ⟨AON_STS, 30, 30⟩
def AON_STS_XTAL_OK : Field := ⟨AON_STS, 29, 29⟩
def AON_STS_BAT_TAMPER : Field := ⟨AON_STS, 28, 28⟩
def AON_STS_PENDING : Field := ⟨AON_STS, 19, 16⟩
def AON_STS_SATURATED : Field := ⟨AON_STS, 7, 7⟩
def AON_STS_EVIDENCE : Field := ⟨AON_STS, 6, 0⟩
def AON_TEMP : Nat := 0x40004
def AON_TEMP_TEMP_HI : Field := ⟨AON_TEMP, 31, 24⟩
def AON_TEMP_TEMP_LO : Field := ⟨AON_TEMP, 23, 16⟩
def AON_TEMP_TEMP_NOW : Field := ⟨AON_TEMP, 7, 0⟩
def AON_WAKE_CFG : Nat := 0x40008
def AON_WAKE_CFG_EN : Field := ⟨AON_WAKE_CFG, 31, 31⟩
def AON_WAKE_CFG_POL : Field := ⟨AON_WAKE_CFG, 30, 30⟩
def AON_WAKE_CFG_HYST : Field := ⟨AON_WAKE_CFG, 29, 28⟩
def AON_WAKE_CFG_TARGET : Field := ⟨AON_WAKE_CFG, 27, 26⟩
def AON_WAKE_CFG_LEVEL : Field := ⟨AON_WAKE_CFG, 25, 25⟩
def AON_WAKE_CFG_THRESH : Field := ⟨AON_WAKE_CFG, 7, 0⟩
def AON_MON_CFG (m : Nat) : Nat := 0x40010 + 4 * m
def AON_MON_CFG_EN (m : Nat) : Field := ⟨(AON_MON_CFG m), 31, 31⟩
def AON_MON_CFG_BAT_EN (m : Nat) : Field := ⟨(AON_MON_CFG m), 30, 30⟩
def AON_MON_CFG_EVIDENCE (m : Nat) : Field := ⟨(AON_MON_CFG m), 29, 29⟩
def AON_MON_CFG_N (m : Nat) : Field := ⟨(AON_MON_CFG m), 23, 16⟩
def AON_MON_CFG_W_MS (m : Nat) : Field := ⟨(AON_MON_CFG m), 15, 0⟩
def AON_SW_CFG : Nat := 0x40040
def AON_SW_CFG_PULL_UP : Field := ⟨AON_SW_CFG, 11, 8⟩
def AON_SW_CFG_ACTIVE_HIGH : Field := ⟨AON_SW_CFG, 3, 0⟩
def AON_ALARM_ACTIVE : Nat := 0x40044
def AON_ALARM_ACTIVE_VALID : Field := ⟨AON_ALARM_ACTIVE, 31, 31⟩
def AON_ALARM_ACTIVE_MONITORS : Field := ⟨AON_ALARM_ACTIVE, 8, 0⟩
def AON_LATCH : Nat := 0x40048
def AON_LATCH_VALID : Field := ⟨AON_LATCH, 31, 31⟩
def AON_LATCH_MONITORS : Field := ⟨AON_LATCH, 8, 0⟩
def EVT_STS : Nat := 0x20000
def EVT_STS_RUNG : Field := ⟨EVT_STS, 31, 29⟩
def EVT_STS_QDEV : Field := ⟨EVT_STS, 28, 28⟩
def EVT_STS_ZEROISED : Field := ⟨EVT_STS, 27, 27⟩
def EVT_STS_ALARM : Field := ⟨EVT_STS, 26, 26⟩
def EVT_STS_LOG_COUNT : Field := ⟨EVT_STS, 10, 0⟩
def EVT_QUIESCE_PORTS : Nat := 0x20004
def EVT_RELEASE_PORTS : Nat := 0x20008
def EVT_LOG (i : Nat) : Nat := 0x20010 + 4 * i
def EVT_LAST_HALT (i : Nat) : Nat := 0x20020 + 4 * i
def EVT_PEND (u : Nat) : Nat := 0x20400 + 4 * u
def EVT_PEND_UNITS (i : Nat) : Nat := 0x20800 + 4 * i
def EVT_MAP (u e : Nat) : Nat := 0x24000 + 0x80 * u + 4 * e
def EVT_MAP_FIXED (u e : Nat) : Field := ⟨(EVT_MAP u e), 31, 31⟩
def EVT_MAP_FLOOR (u e : Nat) : Field := ⟨(EVT_MAP u e), 30, 28⟩
def EVT_MAP_RUNG (u e : Nat) : Field := ⟨(EVT_MAP u e), 24, 22⟩
def EVT_MAP_INT0 (u e : Nat) : Field := ⟨(EVT_MAP u e), 21, 21⟩
def EVT_MAP_INT1 (u e : Nat) : Field := ⟨(EVT_MAP u e), 20, 20⟩
def EVT_MAP_MSI (u e : Nat) : Field := ⟨(EVT_MAP u e), 19, 19⟩
def EVT_MAP_VECTOR (u e : Nat) : Field := ⟨(EVT_MAP u e), 18, 16⟩
def MSIX_TABLE (v i : Nat) : Nat := 0x2F000 + 0x10 * v + 4 * i
def MSIX_PBA (i : Nat) : Nat := 0x2F800 + 4 * i
def CNT_WIN_CMD : Nat := 0xBB0000
def CNT_WIN_CMD_BUSY : Field := ⟨CNT_WIN_CMD, 31, 31⟩
def CNT_WIN_CMD_GO : Field := ⟨CNT_WIN_CMD, 30, 30⟩
def CNT_WIN_CMD_GROUP : Field := ⟨CNT_WIN_CMD, 10, 0⟩
def CNT_CLEAR : Nat := 0xBB0004
def CNT_CLEAR_BUSY : Field := ⟨CNT_CLEAR, 31, 31⟩
def CNT_CLEAR_GO : Field := ⟨CNT_CLEAR, 30, 30⟩
def CNT_CLEAR_GROUP : Field := ⟨CNT_CLEAR, 10, 0⟩
def CNT_EXPOSE (i : Nat) : Nat := 0xBB0100 + 4 * i
def DLY_SEQ (n : Nat) : Nat := 0xBB0200 + 4 * n
def SPT_CFG : Nat := 0xC00000
def SPT_CFG_EN : Field := ⟨SPT_CFG, 31, 31⟩
def SPT_CFG_WRAP : Field := ⟨SPT_CFG, 30, 30⟩
def SPT_CFG_K : Field := ⟨SPT_CFG, 4, 0⟩
def SPT_PORTS : Nat := 0xC00008
def SPT_PORTS_HI : Nat := 0xC0000C
def SPT_TAIL : Nat := 0xC00010
def SPT_TAIL_INDEX : Field := ⟨SPT_TAIL, 11, 0⟩

/-! ### Counters (R8) -/

def CTL_FAULT_ALIGN : Nat := 0x10010
def CTL_FAULT_OWNER : Nat := 0x10018
def CTL_FAULT_LOCK : Nat := 0x10020
def CTL_CLAIM_REFUSED : Nat := 0x10028
def CTL_FAULT_SVC : Nat := 0x10030
def CTL_FAULT_BUSY : Nat := 0x10038
def CTL_MBX_REFUSED : Nat := 0x10408
def EVT_QDROP (k : Nat) : Nat := 0x20200 + 8 * k
def EVT_LOG_LOST : Nat := 0x20300
def GAF_TRANSITIONS : Nat := 0x30400
def GAF_SUPERSEDED : Nat := 0x30408
def GAF_REFUSED : Nat := 0x30410
def GAF_ABANDONED : Nat := 0x30418
def GAF_STATE_DROP : Nat := 0x30420
def GAF_DORMANT_ACCESS : Nat := 0x30428
def GAF_BROWNOUTS : Nat := 0x30430
def GAF_ACCESS_STALLS : Nat := 0x30438
def AON_EVENTS (m : Nat) : Nat := 0x40400 + 8 * m
def AON_ALARMS : Nat := 0x40480
def TIM_TC_CORRECTED : Nat := 0x50400
def TIM_FU_FIXED : Nat := 0x50408
def TIM_FU_LOST : Nat := 0x50410
def TIM_MISS_DROP : Nat := 0x50418
def TIM_MISS_SENT : Nat := 0x50420
def TIM_PDELAY_DROP : Nat := 0x50428
def TIM_CORR_SAT : Nat := 0x50430
def VLT_UPDATES : Nat := 0x60400
def VLT_UPD_REFUSED : Nat := 0x60408
def VLT_ENTROPY_FAILS : Nat := 0x60410
def VLT_DRBG_RESEEDS : Nat := 0x60418
def UCE_OPS (c : Nat) : Nat := 0x73100 + 8 * c
def UCE_FAILS (c : Nat) : Nat := 0x73110 + 8 * c
def LN_PRBS_ERR (b : Nat) : Nat := b + 0x80
def LN_PRBS_BITS (b : Nat) : Nat := b + 0x88
def LN_INJ_COUNT (b : Nat) : Nat := b + 0x90
def LN_RESTARTS (b : Nat) : Nat := b + 0x98
def LN_LOS_COUNT (b : Nat) : Nat := b + 0xA0
def PORT_RX_FRAMES (b : Nat) : Nat := b + 0x80
def PORT_RX_OCTETS (b : Nat) : Nat := b + 0x88
def PORT_RX_FCS_ERR (b : Nat) : Nat := b + 0x90
def PORT_RX_RUNT (b : Nat) : Nat := b + 0x98
def PORT_RX_OVERSIZE (b : Nat) : Nat := b + 0xA0
def PORT_RX_MACCTL (b : Nat) : Nat := b + 0xA8
def PORT_TX_FRAMES (b : Nat) : Nat := b + 0xB0
def PORT_TX_OCTETS (b : Nat) : Nat := b + 0xB8
def PORT_TX_STOMPED (b : Nat) : Nat := b + 0xC0
def PORT_TX_DROP_DOWN (b : Nat) : Nat := b + 0xC8
def PORT_FEC_CORR_CW (b : Nat) : Nat := b + 0xD0
def PORT_FEC_UNCORR_CW (b : Nat) : Nat := b + 0xD8
def PORT_FEC_CORR_SYM (b : Nat) : Nat := b + 0xE0
def PORT_LINK_DOWNS (b : Nat) : Nat := b + 0xE8
def KOR_TX_CAPSULES (k : Nat) : Nat := 0x1A0080 + 0x1000 * k
def KOR_RX_CAPSULES (k : Nat) : Nat := 0x1A0088 + 0x1000 * k
def KOR_TX_OCTETS (k : Nat) : Nat := 0x1A0090 + 0x1000 * k
def KOR_RX_OCTETS (k : Nat) : Nat := 0x1A0098 + 0x1000 * k
def KOR_TX_DROP_DOWN (k : Nat) : Nat := 0x1A00A0 + 0x1000 * k
def KOR_RX_EXTRA (k : Nat) : Nat := 0x1A00A8 + 0x1000 * k
def KOR_RX_CONTROL (k : Nat) : Nat := 0x1A00B0 + 0x1000 * k
def KOR_RX_MALFORMED (k : Nat) : Nat := 0x1A00B8 + 0x1000 * k
def KOR_RX_SKIPPED (k : Nat) : Nat := 0x1A00C0 + 0x1000 * k
def KOR_TX_ABORTED (k : Nat) : Nat := 0x1A00C8 + 0x1000 * k
def KOR_RX_ABORTED (k : Nat) : Nat := 0x1A00D0 + 0x1000 * k
def KOR_HEAD_CORRECTED (k : Nat) : Nat := 0x1A00D8 + 0x1000 * k
def KOR_HEAD_LOST (k : Nat) : Nat := 0x1A00E0 + 0x1000 * k
def KOR_FEC_CORR_CW (k : Nat) : Nat := 0x1A00E8 + 0x1000 * k
def KOR_FEC_UNCORR_CW (k : Nat) : Nat := 0x1A00F0 + 0x1000 * k
def KOR_BIP_ERR (k : Nat) : Nat := 0x1A00F8 + 0x1000 * k
def KOR_BEI_RX (k : Nat) : Nat := 0x1A0100 + 0x1000 * k
def KOR_OH_CRC_ERR (k : Nat) : Nat := 0x1A0108 + 0x1000 * k
def KOR_LOF_COUNT (k : Nat) : Nat := 0x1A0110 + 0x1000 * k
def KOR_HUNT_OVERFLOW (k : Nat) : Nat := 0x1A0118 + 0x1000 * k
def KOR_JC_POS (k : Nat) : Nat := 0x1A0120 + 0x1000 * k
def KOR_JC_NEG (k : Nat) : Nat := 0x1A0128 + 0x1000 * k
def KOR_JC_ERR (k : Nat) : Nat := 0x1A0130 + 0x1000 * k
def KOR_STREAM_TAG_FAIL (k : Nat) : Nat := 0x1A0138 + 0x1000 * k
def KOR_NO_CONTENT (k : Nat) : Nat := 0x1A0140 + 0x1000 * k
def KOR_CUE_RX_DROP (k : Nat) : Nat := 0x1A0148 + 0x1000 * k
def KOR_LINK_DOWNS (k : Nat) : Nat := 0x1A0150 + 0x1000 * k
def FLT_CMD_REFUSED : Nat := 0x240008
def FLT_TS_PASSED : Nat := 0x2400D0
def FLT_TS_DROPPED : Nat := 0x2400D8
def FLT_LOOKUPS (n : Nat) : Nat := 0x242000 + 0x80 * n
def FLT_HITS_COUNT (n : Nat) : Nat := 0x242008 + 0x80 * n
def FLT_MISSES (n : Nat) : Nat := 0x242010 + 0x80 * n
def FLT_PARSE_FAIL (n : Nat) : Nat := 0x242018 + 0x80 * n
def FLT_DROP_ACTION (n : Nat) : Nat := 0x242020 + 0x80 * n
def FLT_DEFAULT_DROP (n : Nat) : Nat := 0x242028 + 0x80 * n
def FLT_BYPASS_PASSED (n : Nat) : Nat := 0x242030 + 0x80 * n
def FLT_BYPASS_DENIED (n : Nat) : Nat := 0x242038 + 0x80 * n
def FLT_TS_DROP (n : Nat) : Nat := 0x242040 + 0x80 * n
def FLT_PUNTED (n : Nat) : Nat := 0x242048 + 0x80 * n
def FLT_PUNT_DROP (n : Nat) : Nat := 0x242050 + 0x80 * n
def FLT_ACTION_INVALID (n : Nat) : Nat := 0x242058 + 0x80 * n
def FLT_QUARANTINE_PUNT (n : Nat) : Nat := 0x242060 + 0x80 * n
def FLT_ENTRY_UE (n : Nat) : Nat := 0x242068 + 0x80 * n
def FLT_OVERRUN (n : Nat) : Nat := 0x242070 + 0x80 * n
def ASC_CMD_REFUSED : Nat := 0x280018
def ASC_PAGE_INS : Nat := 0x280200
def ASC_WRITEBACKS : Nat := 0x280208
def ASC_MISSQ_DROP : Nat := 0x280210
def ASC_REEL_GRANTS : Nat := 0x280218
def ASC_RX_MARKS : Nat := 0x280220
def ASC_DROP_INDEX : Nat := 0x280228
def FRM_OPS_ENC : Nat := 0x303000
def FRM_OPS_DEC : Nat := 0x303008
def FRM_UNWRAPS : Nat := 0x303010
def FRM_CHECKS : Nat := 0x303018
def FRM_CHECK_MISMATCH : Nat := 0x303020
def FRM_KAT_FAILS : Nat := 0x303028
def FRM_MASK_STALLS : Nat := 0x303030
def FRM_TRACKER_FULL : Nat := 0x303038
def FRM_REDEALT : Nat := 0x303040
def FRM_TAG_FAIL (k : Nat) : Nat := 0x304000 + 0x40 * k
def FRM_SAFETY_NET (k : Nat) : Nat := 0x304008 + 0x40 * k
def FRM_CUT_RELEASED (k : Nat) : Nat := 0x304010 + 0x40 * k
def FRM_CUT_UNDERRUN (k : Nat) : Nat := 0x304018 + 0x40 * k
def FRM_EGRESS_MISMATCH (k : Nat) : Nat := 0x304020 + 0x40 * k
def FRM_CHECK_DROP (k : Nat) : Nat := 0x304028 + 0x40 * k
def FRM_TCI_MISMATCH (k : Nat) : Nat := 0x304030 + 0x40 * k
def FRM_GATED (k : Nat) : Nat := 0x304038 + 0x40 * k
def BPM_DOUBLE_FREE : Nat := 0x400100
def BPM_UE : Nat := 0x400108
def BPM_ADMIT_DROP (o : Nat) : Nat := 0x405000 + 8 * o
def BPM_CELL_DROP (cl : Nat) : Nat := 0x405800 + 8 * cl
def SCH_QLIMIT_DROP (m : Nat) : Nat := 0x503000 + 0x40 * m
def SCH_POLICE_DROP (m : Nat) : Nat := 0x503008 + 0x40 * m
def SCH_MAP_DROP (m : Nat) : Nat := 0x503010 + 0x40 * m
def SCH_PTP_SLOTS (m : Nat) : Nat := 0x503018 + 0x40 * m
def SCH_PTP_MISSED (m : Nat) : Nat := 0x503020 + 0x40 * m
def SCH_PTP_PUSHED (m : Nat) : Nat := 0x503028 + 0x40 * m
def SCH_ORDER_DROP (m : Nat) : Nat := 0x503030 + 0x40 * m
def SCH_EXTRAS_SENT (m : Nat) : Nat := 0x503038 + 0x40 * m
def SCH_HIST_BIN (m i : Nat) : Nat := 0x508000 + 0x200 * m + 8 * i
def MGD_CE_COUNT : Nat := 0x600200
def MGD_UE_DATA_COUNT : Nat := 0x600208
def MGD_MINOR_OVF : Nat := 0x600210
def MGD_SPEC_READS : Nat := 0x600218
def MGD_CHG_PAGES : Nat := 0x600220
def MGD_TREE_MISSES : Nat := 0x600228
def FAB_CELL_CRC_ERR : Nat := 0x700400
def FAB_CELL_DROP : Nat := 0x700408
def FAB_REG_TIMEOUT : Nat := 0x700410
def FAB_HB_MISS_FAB : Nat := 0x700418
def FAB_HB_MISS_LVDS : Nat := 0x700420
def FAB_MARKS_SENT : Nat := 0x700428
def FAB_MARK_RETRIES : Nat := 0x700430
def FAB_STANDBY_DROP : Nat := 0x700438
def FAB_TAKEOVERS : Nat := 0x700440
def FAB_DECISION_IGNORED : Nat := 0x700448
def DLY_UNAVAIL (n : Nat) : Nat := 0xBB0400 + 8 * n
def SPT_TAGGED : Nat := 0xC00100
def SPT_LOST : Nat := 0xC00108

end Reg

/-- The registers of CTL. -/
def rowsCtl : List RegRow :=
 [
  ⟨0x10000, 1, 4, 1, 4, 0, 0, 0, 0, 0⟩,
  ⟨0x10004, 1, 4, 1, 4, 0, 0, 0, 0, 0⟩,
  ⟨0x10008, 1, 4, 1, 4, 0, 0x3FC0FFFF, 0, 0, 0⟩,
  ⟨0x10040, 1, 4, 1, 4, 0x11000000, 0, 0, 0, 0⟩,
  ⟨0x10050, 4, 4, 1, 4, 0, 0, 0, 0, 0⟩,
  ⟨0x10060, 1, 4, 1, 4, 0, 0x3F, 0, 0x80000000, 0⟩,
  ⟨0x10100, 1, 4, 1, 4, 0, 0, 0, 0, 0⟩,
  ⟨0x10104, 1, 4, 1, 4, 0, 0xFFFFFC, 0, 0, 0⟩,
  ⟨0x10108, 1, 4, 1, 4, 0, 0, 0, 0, 0⟩,
  ⟨0x1010C, 1, 4, 1, 4, 0, 0, 0, 0, 0⟩,
  ⟨0x10200, 12, 4, 1, 4, 0, 0, 0, 0, 0⟩,
  ⟨0x10240, 1, 4, 1, 4, 0, 0, 0, 0, 0⟩,
  ⟨0x10244, 1, 4, 1, 4, 0, 0, 0, 0, 0⟩,
  ⟨0x10400, 1, 4, 1, 4, 0, 0xFFFF, 0, 0, 0⟩,
  ⟨0x10404, 1, 4, 1, 4, 0, 0, 0, 0x40000000, 0⟩,
  ⟨0x10440, 16, 4, 1, 4, 0, 0xFFFFFFFF, 0, 0, 0⟩,
  ⟨0x10480, 16, 4, 1, 4, 0, 0, 0, 0, 0⟩
 ]

/-- The registers of EVT. -/
def rowsEvt : List RegRow :=
 [
  ⟨0x20000, 1, 4, 1, 4, 0, 0, 0, 0x10000000, 0⟩,
  ⟨0x20004, 1, 4, 1, 4, 0, 0, 0, 0, 0⟩,
  ⟨0x20008, 1, 4, 1, 4, 0, 0, 0, 0, 0⟩,
  ⟨0x20010, 4, 4, 1, 4, 0, 0, 0, 0, 0⟩,
  ⟨0x20020, 4, 4, 1, 4, 0, 0, 0, 0, 0⟩,
  ⟨0x20400, 256, 4, 1, 4, 0, 0, 0, 0xFFFFFFFF, 0⟩,
  ⟨0x20800, 8, 4, 1, 4, 0, 0, 0, 0, 0⟩,
  ⟨0x24000, 256, 0x80, 32, 4, 0x280000, 0x1FF0000, 0x1FF0000, 0, 0⟩,
  ⟨0x2F000, 8, 0x10, 4, 4, 0, 0xFFFFFFFF, 0, 0, 0⟩,
  ⟨0x2F800, 2, 4, 1, 4, 0, 0, 0, 0, 0⟩
 ]

/-- The registers of GAF. -/
def rowsGaf : List RegRow :=
 [
  ⟨0x30000, 1, 4, 1, 4, 0, 3, 0, 0, 0⟩,
  ⟨0x30004, 1, 4, 1, 4, 0x7F, 0, 0, 0, 0⟩,
  ⟨0x30008, 1, 4, 1, 4, 0x90000000, 0xF0000000, 0xF0000000, 0, 0⟩,
  ⟨0x30010, 1, 4, 1, 4, 0, 0, 0, 0, 0⟩,
  ⟨0x30014, 1, 4, 1, 4, 0, 0, 0, 0, 0⟩,
  ⟨0x30100, 104, 4, 1, 4, 0, 0, 0, 0, 0⟩
 ]

/-- The registers of AON. -/
def rowsAon : List RegRow :=
 [
  ⟨0x40000, 1, 4, 1, 4, 0x80000000, 0, 0, 0x10000000, 0⟩,
  ⟨0x40004, 1, 4, 1, 4, 0x6ED30000, 0xFFFF0000, 0xFFFF0000, 0, 0⟩,
  ⟨0x40008, 1, 4, 1, 4, 0x10000000, 0xFC0000FF, 0, 0, 0⟩,
  ⟨0x40010, 9, 4, 1, 4, 0x103E8, 0xE0FFFFFF, 0xE0FFFFFF, 0, 0⟩,
  ⟨0x40040, 1, 4, 1, 4, 0xF00, 0xF0F, 0xF0F, 0, 0⟩,
  ⟨0x40044, 1, 4, 1, 4, 0, 0, 0, 0, 0⟩,
  ⟨0x40048, 1, 4, 1, 4, 0, 0, 0, 0, 0x800001FF⟩
 ]

/-- The registers of TIM. -/
def rowsTim : List RegRow :=
 [
  ⟨0x50000, 1, 4, 1, 4, 0x600007D0, 0xE000FFFF, 0, 0, 0⟩,
  ⟨0x50004, 1, 4, 1, 4, 0, 0, 0, 0x2000000, 0⟩,
  ⟨0x50010, 1, 4, 1, 4, 0, 0, 0, 0, 0⟩,
  ⟨0x50014, 1, 4, 1, 4, 0, 0, 0, 0, 0⟩,
  ⟨0x50018, 1, 4, 1, 4, 0, 0, 0, 0, 0⟩,
  ⟨0x50020, 1, 4, 1, 4, 0, 0, 0, 0, 0⟩,
  ⟨0x50024, 1, 4, 1, 4, 0, 0, 0, 0, 0⟩,
  ⟨0x50030, 1, 4, 1, 4, 0, 0xFFFFFFFF, 0, 0, 0⟩,
  ⟨0x50034, 1, 4, 1, 4, 0, 0x60000000, 0, 0, 0⟩,
  ⟨0x50038, 1, 4, 1, 4, 0, 0xFFFFFFFF, 0, 0, 0⟩,
  ⟨0x5003C, 1, 4, 1, 4, 0, 0xFFFFFFFF, 0, 0, 0⟩,
  ⟨0x50040, 1, 4, 1, 4, 0, 0x8000FFFF, 0, 0, 0⟩,
  ⟨0x50048, 1, 4, 1, 4, 0, 0, 0, 0, 0⟩,
  ⟨0x5004C, 1, 4, 1, 4, 0, 0, 0, 0, 0⟩,
  ⟨0x50050, 1, 4, 1, 4, 0xA000000, 0xFFFFFFFF, 0, 0, 0⟩,
  ⟨0x50070, 2, 0x10, 1, 4, 0, 0, 0, 0, 0⟩,
  ⟨0x50074, 2, 0x10, 1, 4, 0, 0, 0, 0, 0⟩,
  ⟨0x50078, 2, 0x10, 1, 4, 0, 0, 0, 0, 0x40000000⟩,
  ⟨0x50090, 1, 4, 1, 4, 0x80000064, 0xE000FFFF, 0, 0, 0⟩,
  ⟨0x50200, 64, 4, 1, 4, 0, 0xFFFFFFFF, 0, 0, 0⟩
 ] ++
 [
  ⟨0x50300, 64, 4, 1, 4, 0, 0xFFFFFFFF, 0, 0, 0⟩
 ]

/-- The registers of VLT. -/
def rowsVlt : List RegRow :=
 [
  ⟨0x60000, 1, 4, 1, 4, 0, 0x78000000, 0, 0, 0⟩,
  ⟨0x60004, 1, 4, 1, 4, 0, 0x8000FFFF, 0, 0, 0⟩,
  ⟨0x60008, 1, 4, 1, 4, 0, 0xFFFFFFC0, 0, 0, 0⟩,
  ⟨0x6000C, 1, 4, 1, 4, 0, 0, 0, 0, 0⟩,
  ⟨0x60010, 1, 4, 1, 4, 0xFF0000, 0, 0, 0, 0⟩,
  ⟨0x60018, 1, 4, 1, 4, 0, 0, 0, 0, 0⟩,
  ⟨0x6001C, 1, 4, 1, 4, 0, 0, 0, 0, 0⟩,
  ⟨0x60020, 1, 4, 1, 4, 0, 0, 0, 0, 0⟩,
  ⟨0x60040, 1, 4, 1, 4, 0, 0, 0, 0, 0⟩,
  ⟨0x60044, 1, 4, 1, 4, 0, 0x3FC, 0, 0, 0⟩,
  ⟨0x60048, 1, 4, 1, 4, 0, 0, 0, 0, 0⟩,
  ⟨0x6004C, 1, 4, 1, 4, 0, 0, 0, 0, 0⟩,
  ⟨0x60080, 24, 4, 1, 4, 0, 0, 0, 0, 0⟩,
  ⟨0x60100, 17, 4, 1, 4, 0, 0, 0, 0, 0⟩,
  ⟨0x60200, 96, 4, 1, 4, 0, 0xFFFFFFFF, 0, 0, 0⟩
 ]

/-- The registers of UCE. -/
def rowsUce : List RegRow :=
 [
  ⟨0x70000, 2, 0x1000, 1, 4, 0, 0, 0, 0, 0⟩,
  ⟨0x70004, 2, 0x1000, 1, 4, 0, 0, 0, 0, 0⟩,
  ⟨0x70008, 2, 0x1000, 1, 4, 0, 0xFE0F0000, 0, 0, 0⟩,
  ⟨0x70010, 2, 0x1000, 1, 4, 0, 0xFFFFFFFF, 0, 0, 0⟩,
  ⟨0x70014, 2, 0x1000, 1, 4, 0, 0xFFFFFFFF, 0, 0, 0⟩,
  ⟨0x70018, 2, 0x1000, 1, 4, 0, 0xFFFFFFFF, 0, 0, 0⟩,
  ⟨0x70020, 2, 0x1000, 4, 4, 0, 0xFFFFFFFF, 0, 0, 0⟩,
  ⟨0x70030, 2, 0x1000, 4, 4, 0, 0xFFFFFFFF, 0, 0, 0⟩,
  ⟨0x73000, 1, 4, 1, 4, 0, 0x7F000000, 0, 0, 0⟩,
  ⟨0x73004, 1, 4, 1, 4, 0, 0xFFFFFFC0, 0, 0, 0⟩,
  ⟨0x73040, 16, 4, 1, 4, 0, 0, 0, 0, 0⟩,
  ⟨0x73080, 8, 4, 1, 4, 0, 0, 0, 0, 0⟩,
  ⟨0x74000, 2, 0x4000, 2048, 4, 0, 0xFFFFFFFF, 0, 0, 0⟩,
  ⟨0x76000, 2, 0x4000, 2048, 4, 0, 0, 0, 0, 0⟩
 ]

/-- The registers of LNC. -/
def rowsLnc : List RegRow :=
 [
  ⟨0x100000, 32, 0x1000, 1, 4, 0x3C10000, 0xFFFF8000, 0xFFC28000, 0, 0⟩,
  ⟨0x100004, 32, 0x1000, 1, 4, 0, 0, 0, 0, 0⟩,
  ⟨0x100008, 32, 0x1000, 1, 4, 0x1F4, 0x6000FFFF, 0, 0, 0⟩,
  ⟨0x10000C, 32, 0x1000, 1, 4, 0, 0, 0, 0, 0⟩,
  ⟨0x100010, 32, 0x1000, 1, 4, 0xFC0, 0xFFFFFFFF, 0, 0, 0⟩,
  ⟨0x100014, 32, 0x1000, 1, 4, 0, 0xC01F0700, 0, 0, 0⟩,
  ⟨0x100018, 32, 0x1000, 1, 4, 0xFFF, 0xC0000FFF, 0, 0, 0⟩,
  ⟨0x100030, 32, 0x1000, 1, 4, 0, 0x30000000, 0, 0x40000000, 0⟩,
  ⟨0x100040, 32, 0x1000, 1, 4, 0x100000, 0xCFF00000, 0, 0, 0⟩,
  ⟨0x100044, 32, 0x1000, 1, 4, 0, 0, 0, 0x40000000, 0⟩,
  ⟨0x100048, 32, 0x1000, 1, 4, 0x10000, 0x40FF00FF, 0, 0, 0⟩,
  ⟨0x100020, 32, 0x1000, 3, 4, 0, 0xFFFFFFFF, 0, 0, 0⟩
 ]

/-- The registers of LNL. -/
def rowsLnl : List RegRow :=
 [
  ⟨0x120000, 32, 0x1000, 1, 4, 0x3C10000, 0xFFFF8000, 0xFFC28000, 0, 0⟩,
  ⟨0x120004, 32, 0x1000, 1, 4, 0, 0, 0, 0, 0⟩,
  ⟨0x120008, 32, 0x1000, 1, 4, 0x1F4, 0x6000FFFF, 0, 0, 0⟩,
  ⟨0x12000C, 32, 0x1000, 1, 4, 0, 0, 0, 0, 0⟩,
  ⟨0x120010, 32, 0x1000, 1, 4, 0xFC0, 0xFFFFFFFF, 0, 0, 0⟩,
  ⟨0x120014, 32, 0x1000, 1, 4, 0, 0xC01F0700, 0, 0, 0⟩,
  ⟨0x120018, 32, 0x1000, 1, 4, 0xFFF, 0xC0000FFF, 0, 0, 0⟩,
  ⟨0x120030, 32, 0x1000, 1, 4, 0, 0x30000000, 0, 0x40000000, 0⟩,
  ⟨0x120040, 32, 0x1000, 1, 4, 0x100000, 0xCFF00000, 0, 0, 0⟩,
  ⟨0x120044, 32, 0x1000, 1, 4, 0, 0, 0, 0x40000000, 0⟩,
  ⟨0x120048, 32, 0x1000, 1, 4, 0x10000, 0x40FF00FF, 0, 0, 0⟩,
  ⟨0x120020, 32, 0x1000, 3, 4, 0, 0xFFFFFFFF, 0, 0, 0⟩
 ]

/-- The registers of LNF. -/
def rowsLnf : List RegRow :=
 [
  ⟨0x140000, 16, 0x1000, 1, 4, 0x3C10000, 0xFFFF8000, 0xFFC28000, 0, 0⟩,
  ⟨0x140004, 16, 0x1000, 1, 4, 0, 0, 0, 0, 0⟩,
  ⟨0x140008, 16, 0x1000, 1, 4, 0x1F4, 0x6000FFFF, 0, 0, 0⟩,
  ⟨0x14000C, 16, 0x1000, 1, 4, 0, 0, 0, 0, 0⟩,
  ⟨0x140010, 16, 0x1000, 1, 4, 0xFC0, 0xFFFFFFFF, 0, 0, 0⟩,
  ⟨0x140014, 16, 0x1000, 1, 4, 0, 0xC01F0700, 0, 0, 0⟩,
  ⟨0x140018, 16, 0x1000, 1, 4, 0xFFF, 0xC0000FFF, 0, 0, 0⟩,
  ⟨0x140030, 16, 0x1000, 1, 4, 0, 0x30000000, 0, 0x40000000, 0⟩,
  ⟨0x140040, 16, 0x1000, 1, 4, 0x100000, 0xCFF00000, 0, 0, 0⟩,
  ⟨0x140044, 16, 0x1000, 1, 4, 0, 0, 0, 0x40000000, 0⟩,
  ⟨0x140048, 16, 0x1000, 1, 4, 0x10000, 0x40FF00FF, 0, 0, 0⟩,
  ⟨0x140020, 16, 0x1000, 3, 4, 0, 0xFFFFFFFF, 0, 0, 0⟩
 ]

/-- The registers of ETH. -/
def rowsEth : List RegRow :=
 [
  ⟨0x180000, 32, 0x1000, 1, 4, 0, 0xE0000000, 0, 0, 0⟩,
  ⟨0x180004, 32, 0x1000, 1, 4, 0, 0, 0, 0x800000, 0⟩,
  ⟨0x180008, 32, 0x1000, 1, 4, 0, 0xFFFF, 0xFFFF, 0, 0⟩,
  ⟨0x18000C, 32, 0x1000, 1, 4, 0x13884E20, 0xFFFFFFFF, 0, 0, 0⟩
 ]

/-- The registers of KOR. -/
def rowsKor : List RegRow :=
 [
  ⟨0x1A0000, 32, 0x1000, 1, 4, 0x10000000, 0xF0000000, 0x40000000, 0, 0⟩,
  ⟨0x1A0004, 32, 0x1000, 1, 4, 0, 0, 0, 0x800000, 0⟩,
  ⟨0x1A0008, 32, 0x1000, 1, 4, 0xC0000000, 0xC0000000, 0, 0, 0⟩,
  ⟨0x1A000C, 32, 0x1000, 1, 4, 0xFFFF0000, 0, 0, 0xFF, 0⟩,
  ⟨0x1A0010, 32, 0x1000, 1, 4, 0x6403E8, 0xFFFFFFFF, 0, 0, 0⟩,
  ⟨0x1A0014, 32, 0x1000, 1, 4, 0, 0, 0, 0, 0⟩,
  ⟨0x1A0020, 32, 0x1000, 1, 4, 0, 0x1FF, 0, 0, 0⟩,
  ⟨0x1A0024, 32, 0x1000, 1, 4, 0, 0, 0, 0, 0⟩,
  ⟨0x1A0200, 32, 0x1000, 64, 4, 0, 0xFFFFFFFF, 0, 0, 0⟩,
  ⟨0x1A0300, 32, 0x1000, 64, 4, 0, 0, 0, 0, 0⟩
 ]

/-- The registers of ELN. -/
def rowsEln : List RegRow :=
 [
  ⟨0x1C0000, 32, 0x1000, 1, 4, 0, 0xE0000000, 0, 0, 0⟩,
  ⟨0x1C0004, 32, 0x1000, 1, 4, 0, 0, 0, 0x800000, 0⟩,
  ⟨0x1C0008, 32, 0x1000, 1, 4, 0, 0, 0, 0, 0⟩,
  ⟨0x1C000C, 32, 0x1000, 1, 4, 0x13884E20, 0xFFFFFFFF, 0, 0, 0⟩
 ]

/-- The registers of PRS. -/
def rowsPrs : List RegRow :=
 [
  ⟨0x200000, 16, 0x100, 1, 4, 0, 0xE0000000, 0xE0000000, 0, 0⟩,
  ⟨0x200010, 16, 0x100, 8, 4, 0x100, 0xF87F1F1F, 0xF87F1F1F, 0, 0⟩,
  ⟨0x200040, 16, 0x100, 8, 4, 0xFFFFFFFF, 0xFFFFFFFF, 0xFFFFFFFF, 0, 0⟩,
  ⟨0x202000, 64, 4, 1, 4, 0, 0xFF000000, 0xFF000000, 0, 0⟩,
  ⟨0x202200, 32, 8, 1, 4, 0, 0xFFFFFFFF, 0xFFFFFFFF, 0, 0⟩,
  ⟨0x202204, 32, 8, 1, 4, 0, 0xFFFFFFFF, 0xFFFFFFFF, 0, 0⟩
 ]

/-- The registers of FLT. -/
def rowsFlt : List RegRow :=
 [
  ⟨0x240000, 1, 4, 1, 4, 0, 0x7EF00000, 0, 0, 0⟩,
  ⟨0x240010, 8, 4, 1, 4, 0, 0xFFFFFFFF, 0, 0, 0⟩,
  ⟨0x240030, 1, 4, 1, 4, 0, 0xFFFFFFFF, 0, 0, 0⟩,
  ⟨0x240034, 1, 4, 1, 4, 0, 0x3FFFFF, 0, 0, 0⟩,
  ⟨0x240040, 16, 4, 1, 4, 0, 0, 0, 0, 0⟩,
  ⟨0x240080, 2, 4, 1, 4, 0, 0, 0, 0, 0⟩,
  ⟨0x240088, 1, 4, 1, 4, 0, 0, 0, 0, 0⟩,
  ⟨0x240090, 1, 4, 1, 4, 0xC0000000, 0xC0000000, 0, 0, 0⟩,
  ⟨0x240094, 1, 4, 1, 4, 0, 0, 0, 0, 0⟩,
  ⟨0x240098, 1, 4, 1, 4, 0, 0x7FFF, 0, 0, 0⟩,
  ⟨0x24009C, 1, 4, 1, 4, 0, 0, 0, 0, 0⟩,
  ⟨0x2400A0, 1, 4, 1, 4, 0, 0, 0, 0, 0xC03FFFFF⟩,
  ⟨0x2400A4, 1, 4, 1, 4, 0, 0, 0, 0, 0xC03FFFFF⟩,
  ⟨0x2400A8, 1, 4, 1, 4, 0x1F4, 0x3FF, 0, 0, 0⟩,
  ⟨0x2400C0, 1, 4, 1, 4, 0, 0x6000FFFF, 0, 0, 0⟩,
  ⟨0x2400C4, 1, 4, 1, 4, 0, 0x800FFFFF, 0, 0, 0⟩,
  ⟨0x2400C8, 1, 4, 1, 4, 0, 0xFFFFFF, 0, 0, 0⟩,
  ⟨0x240100, 16, 4, 1, 4, 0x3FFFFF, 0x3FFFFF, 0x3FFFFF, 0, 0⟩,
  ⟨0x240140, 16, 4, 1, 4, 0, 0, 0, 0, 0⟩,
  ⟨0x241000, 64, 4, 1, 4, 0x14, 0xFF8000FF, 0x80000000, 0, 0⟩
 ]

/-- The registers of ASC. -/
def rowsAsc : List RegRow :=
 [
  ⟨0x280000, 1, 4, 1, 4, 0, 0x7F000000, 0, 0, 0⟩,
  ⟨0x280004, 1, 4, 1, 4, 0xA0004000, 0xE000FFFF, 0xE0000000, 0, 0⟩,
  ⟨0x280008, 1, 4, 1, 4, 0, 0, 0, 0, 0⟩,
  ⟨0x28000C, 1, 4, 1, 4, 0, 0, 0, 0, 0⟩,
  ⟨0x280010, 1, 4, 1, 4, 0, 0, 0, 0, 0⟩,
  ⟨0x280014, 1, 4, 1, 4, 0, 0, 0, 0, 0⟩,
  ⟨0x280040, 16, 4, 1, 4, 0, 0xFFFFFFFF, 0, 0, 0⟩,
  ⟨0x280080, 8, 4, 1, 4, 0, 0, 0, 0, 0⟩,
  ⟨0x2800A0, 1, 4, 1, 4, 0, 0, 0, 0, 0xC00FFFFF⟩,
  ⟨0x2800A4, 1, 4, 1, 4, 0, 0, 0, 0, 0xC00FFFFF⟩,
  ⟨0x2800C0, 32, 4, 1, 4, 0, 0x800FFFFF, 0, 0, 0⟩,
  ⟨0x280140, 32, 4, 1, 4, 0, 0x800FFFFF, 0, 0, 0⟩
 ]

/-- The registers of FRM. -/
def rowsFrm : List RegRow :=
 [
  ⟨0x300000, 1, 4, 1, 4, 0x4B1903E8, 0xFFFFFFFF, 0, 0, 0⟩,
  ⟨0x300004, 1, 4, 1, 4, 0, 0, 0, 0, 0⟩,
  ⟨0x300008, 1, 4, 1, 4, 0x8000001F, 0x8000001F, 0x8000001F, 0, 0⟩,
  ⟨0x30000C, 1, 4, 1, 4, 0x10, 0x1F, 0, 0, 0⟩,
  ⟨0x301000, 32, 0x10, 1, 4, 0, 0xE0000000, 0xE0000000, 0, 0⟩,
  ⟨0x301004, 32, 0x10, 1, 4, 0, 0, 0, 0, 0⟩,
  ⟨0x301008, 32, 0x10, 1, 4, 0xFFFF, 0xFFFF, 0, 0, 0⟩,
  ⟨0x302000, 32, 4, 1, 4, 0, 0x80000000, 0x80000000, 0, 0⟩
 ]

/-- The registers of BPM. -/
def rowsBpm : List RegRow :=
 [
  ⟨0x400000, 1, 4, 1, 4, 0x80000000, 0x80000000, 0x80000000, 0, 0⟩,
  ⟨0x400004, 1, 4, 1, 4, 0x8000, 0, 0, 0, 0⟩,
  ⟨0x400010, 8, 4, 1, 4, 0, 0xFFFFF, 0xFFFFF, 0, 0⟩,
  ⟨0x400030, 1, 4, 1, 4, 0, 0xFFFFF, 0xFFFFF, 0, 0⟩,
  ⟨0x400040, 8, 4, 1, 4, 0, 0, 0, 0, 0⟩,
  ⟨0x400080, 4, 4, 1, 4, 0x100FFFF, 0xFFFFFFFF, 0xFFFFFFFF, 0, 0⟩,
  ⟨0x401000, 65, 0x40, 8, 4, 0xFFFF, 0xFFFFFFFF, 0xFFFFFFFF, 0, 0⟩,
  ⟨0x403000, 65, 0x40, 8, 4, 0, 0, 0, 0, 0⟩
 ]

/-- The registers of SCH. -/
def rowsSch : List RegRow :=
 [
  ⟨0x500010, 1, 4, 1, 4, 0, 0x700FFFFF, 0, 0, 0⟩,
  ⟨0x500014, 1, 4, 1, 4, 0, 0xFFEFFFFF, 0, 0, 0⟩,
  ⟨0x500018, 1, 4, 1, 4, 0, 0xFFFFFF, 0, 0, 0⟩,
  ⟨0x50001C, 1, 4, 1, 4, 0, 0, 0, 0, 0⟩,
  ⟨0x500020, 1, 4, 1, 4, 0, 0x700FFFFF, 0, 0, 0⟩,
  ⟨0x500024, 1, 4, 1, 4, 0, 0xFFFF, 0, 0, 0⟩,
  ⟨0x500030, 1, 4, 1, 4, 0, 0x3F, 0, 0, 0⟩,
  ⟨0x500100, 16, 4, 1, 4, 0, 0x81FFFFFF, 0, 0, 0⟩,
  ⟨0x501000, 64, 0x20, 1, 4, 0, 0x81EFFFFF, 0, 0, 0⟩,
  ⟨0x501004, 64, 0x20, 1, 4, 0, 0xFFFFFF, 0, 0, 0⟩,
  ⟨0x501008, 64, 0x20, 1, 4, 0x80640640, 0xFFFFFFFF, 0, 0, 0⟩,
  ⟨0x50100C, 64, 0x20, 1, 4, 0x80000010, 0xE000FFFF, 0, 0, 0⟩,
  ⟨0x502000, 32, 0x20, 1, 4, 0, 0xC00FFFFF, 0, 0, 0⟩,
  ⟨0x502004, 32, 0x20, 1, 4, 0, 0x800FFFFF, 0, 0, 0⟩,
  ⟨0x502008, 32, 0x20, 1, 4, 0x5EE0040, 0xFFFFFFFF, 0, 0, 0⟩,
  ⟨0x502010, 32, 0x20, 3, 4, 0, 0xFFFFFFFF, 0, 0, 0⟩,
  ⟨0x508100, 64, 0x200, 1, 4, 0, 0, 0, 0, 0⟩,
  ⟨0x508104, 64, 0x200, 1, 4, 0, 0, 0, 0, 0⟩
 ]

/-- The registers of MGD. -/
def rowsMgd : List RegRow :=
 [
  ⟨0x600000, 1, 4, 1, 4, 0x80000000, 0x80000000, 0x80000000, 0, 0⟩,
  ⟨0x600004, 1, 4, 1, 4, 0, 0, 0, 0, 0⟩,
  ⟨0x600008, 1, 4, 1, 4, 0, 0, 0, 0, 0⟩,
  ⟨0x60000C, 1, 4, 1, 4, 0, 0x80000007, 0x80000007, 0, 0⟩,
  ⟨0x600010, 1, 4, 1, 4, 0, 0x87FFFFFF, 0x87FFFFFF, 0, 0⟩,
  ⟨0x600020, 1, 4, 1, 4, 0, 7, 0, 0, 0⟩,
  ⟨0x600024, 1, 4, 1, 4, 0, 0, 0, 0, 0⟩,
  ⟨0x600040, 1, 4, 1, 4, 0, 0, 0, 0x80000000, 0⟩,
  ⟨0x600044, 1, 4, 1, 4, 0, 0, 0, 0, 0⟩,
  ⟨0x600048, 1, 4, 1, 4, 0, 0, 0, 0, 0⟩,
  ⟨0x60004C, 1, 4, 1, 4, 0, 0, 0, 0, 0⟩,
  ⟨0x600100, 8, 0x10, 1, 4, 0, 0x3FFF, 0x3FFF, 0, 0⟩,
  ⟨0x600104, 8, 0x10, 1, 4, 0, 0x3FFF, 0x3FFF, 0, 0⟩,
  ⟨0x600108, 8, 0x10, 1, 4, 0, 0x8000FFFF, 0x8000FFFF, 0, 0⟩,
  ⟨0x60010C, 8, 0x10, 1, 4, 0, 0, 0, 0, 0⟩
 ]

/-- The registers of FAB. -/
def rowsFab : List RegRow :=
 [
  ⟨0x700000, 1, 4, 1, 4, 0, 0xFFFFFFFF, 0xFFFFFFFF, 0, 0⟩,
  ⟨0x700004, 1, 4, 1, 4, 0, 0xFBF0FFFF, 0xFBF0FFFF, 0, 0⟩,
  ⟨0x700008, 1, 4, 1, 4, 0x3E803E8, 0xFFFFFFFF, 0xFFFFFFFF, 0, 0⟩,
  ⟨0x70000C, 1, 4, 1, 4, 0, 0, 0, 0, 0⟩,
  ⟨0x700010, 1, 4, 1, 4, 0, 0, 0, 0, 0⟩,
  ⟨0x700014, 1, 4, 1, 4, 0, 0, 0, 0, 0⟩,
  ⟨0x700018, 1, 4, 1, 4, 0, 0, 0, 0, 0⟩,
  ⟨0x70001C, 1, 4, 1, 4, 0, 0xFFFFFFFF, 0xFFFFFFFF, 0, 0⟩,
  ⟨0x700020, 1, 4, 1, 4, 0, 0, 0, 0, 0xC00003FF⟩,
  ⟨0x700040, 4, 4, 1, 4, 0, 0, 0, 0, 0⟩,
  ⟨0x700100, 64, 4, 1, 4, 0, 0, 0, 0, 0⟩
 ]

/-- The registers of CNT. -/
def rowsCnt : List RegRow :=
 [
  ⟨0xBB0000, 1, 4, 1, 4, 0, 0x7FF, 0, 0, 0⟩,
  ⟨0xBB0004, 1, 4, 1, 4, 0, 0x7FF, 0, 0, 0⟩,
  ⟨0xBB0100, 64, 4, 1, 4, 0, 0xFFFFFFFF, 0, 0, 0⟩,
  ⟨0xBB0200, 64, 4, 1, 4, 0, 0, 0, 0, 0⟩
 ]

/-- The registers of SPT. -/
def rowsSpt : List RegRow :=
 [
  ⟨0xC00000, 1, 4, 1, 4, 0x10, 0xC000001F, 0, 0, 0⟩,
  ⟨0xC00008, 1, 4, 1, 4, 0xFFFFFFFF, 0xFFFFFFFF, 0, 0, 0⟩,
  ⟨0xC0000C, 1, 4, 1, 4, 0xFFFFFFFF, 0xFFFFFFFF, 0, 0, 0⟩,
  ⟨0xC00010, 1, 4, 1, 4, 0, 0xFFF, 0, 0, 0⟩
 ]

/-- The counters of CTL, in ascending order of their offsets within one window. -/
def ctrsCtl : List CtrRow := [
  ⟨0x10010, 1, 48, 6, 8⟩,
  ⟨0x10408, 1, 8, 1, 8⟩]

/-- The counters of EVT, in ascending order of their offsets within one window. -/
def ctrsEvt : List CtrRow := [
  ⟨0x20200, 1, 264, 33, 8⟩]

/-- The counters of GAF, in ascending order of their offsets within one window. -/
def ctrsGaf : List CtrRow := [
  ⟨0x30400, 1, 64, 8, 8⟩]

/-- The counters of AON, in ascending order of their offsets within one window. -/
def ctrsAon : List CtrRow := [
  ⟨0x40400, 1, 72, 9, 8⟩,
  ⟨0x40480, 1, 8, 1, 8⟩]

/-- The counters of TIM, in ascending order of their offsets within one window. -/
def ctrsTim : List CtrRow := [
  ⟨0x50400, 1, 56, 7, 8⟩]

/-- The counters of VLT, in ascending order of their offsets within one window. -/
def ctrsVlt : List CtrRow := [
  ⟨0x60400, 1, 32, 4, 8⟩]

/-- The counters of UCE, in ascending order of their offsets within one window. -/
def ctrsUce : List CtrRow := [
  ⟨0x73100, 1, 32, 4, 8⟩]

/-- The counters of LNC, in ascending order of their offsets within one window. -/
def ctrsLnc : List CtrRow := [
  ⟨0x100080, 32, 0x1000, 5, 8⟩]

/-- The counters of LNL, in ascending order of their offsets within one window. -/
def ctrsLnl : List CtrRow := [
  ⟨0x120080, 32, 0x1000, 5, 8⟩]

/-- The counters of LNF, in ascending order of their offsets within one window. -/
def ctrsLnf : List CtrRow := [
  ⟨0x140080, 16, 0x1000, 5, 8⟩]

/-- The counters of ETH, in ascending order of their offsets within one window. -/
def ctrsEth : List CtrRow := [
  ⟨0x180080, 32, 0x1000, 14, 8⟩]

/-- The counters of KOR, in ascending order of their offsets within one window. -/
def ctrsKor : List CtrRow := [
  ⟨0x1A0080, 32, 0x1000, 27, 8⟩]

/-- The counters of ELN, in ascending order of their offsets within one window. -/
def ctrsEln : List CtrRow := [
  ⟨0x1C0080, 32, 0x1000, 14, 8⟩]

/-- The counters of FLT, in ascending order of their offsets within one window. -/
def ctrsFlt : List CtrRow := [
  ⟨0x240008, 1, 8, 1, 8⟩,
  ⟨0x2400D0, 1, 16, 2, 8⟩,
  ⟨0x242000, 64, 0x80, 15, 8⟩]

/-- The counters of ASC, in ascending order of their offsets within one window. -/
def ctrsAsc : List CtrRow := [
  ⟨0x280018, 1, 8, 1, 8⟩,
  ⟨0x280200, 1, 48, 6, 8⟩]

/-- The counters of FRM, in ascending order of their offsets within one window. -/
def ctrsFrm : List CtrRow := [
  ⟨0x303000, 1, 72, 9, 8⟩,
  ⟨0x304000, 32, 0x40, 8, 8⟩]

/-- The counters of BPM, in ascending order of their offsets within one window. -/
def ctrsBpm : List CtrRow := [
  ⟨0x400100, 1, 16, 2, 8⟩,
  ⟨0x405000, 1, 520, 65, 8⟩,
  ⟨0x405800, 1, 32, 4, 8⟩]

/-- The counters of SCH, in ascending order of their offsets within one window. -/
def ctrsSch : List CtrRow := [
  ⟨0x503000, 64, 0x40, 8, 8⟩,
  ⟨0x508000, 64, 0x200, 32, 8⟩]

/-- The counters of MGD, in ascending order of their offsets within one window. -/
def ctrsMgd : List CtrRow := [
  ⟨0x600200, 1, 48, 6, 8⟩]

/-- The counters of FAB, in ascending order of their offsets within one window. -/
def ctrsFab : List CtrRow := [
  ⟨0x700400, 1, 80, 10, 8⟩]

/-- The counters of CNT, in ascending order of their offsets within one window. -/
def ctrsCnt : List CtrRow := [
  ⟨0xBB0400, 1, 512, 64, 8⟩]

/-- The counters of SPT, in ascending order of their offsets within one window. -/
def ctrsSpt : List CtrRow := [
  ⟨0xC00100, 1, 16, 2, 8⟩]

end Sys2Proof.Machine
end

