-- ==== Sys2Proof/Machine/Ops.lean ====
section
/-! DEFINITION. The named operations over the state: sparse data in canonical form, registers and their fields, counters,
free values, device time, and the trace of what the block gives to the outside. -/

namespace Sys2Proof.Machine

/-! ### Sparse data -/

/-- The value listed under a key. -/
def mget {α : Type} (k : Nat) : SMap α → Option α
  | [] => none
  | (j, v) :: m => if j = k then some v else mget k m

/-- The value under a key, an unlisted key reading as d. -/
def mlook {α : Type} (d : α) (k : Nat) (m : SMap α) : α := (mget k m).getD d

/-- List a value under a key, keeping the keys rising. -/
def mput {α : Type} (k : Nat) (v : α) : SMap α → SMap α
  | [] => [(k, v)]
  | (j, w) :: m => if k < j then (k, v) :: (j, w) :: m else if k = j then (k, v) :: m else (j, w) :: mput k v m

/-- Unlist a key. -/
def mdel {α : Type} (k : Nat) : SMap α → SMap α
  | [] => []
  | (j, w) :: m => if j = k then mdel k m else (j, w) :: mdel k m

/-- Store a value where an unlisted key reads as d: storing d unlists the key. -/
def mstore {α : Type} [DecidableEq α] (d : α) (k : Nat) (v : α) (m : SMap α) : SMap α :=
  if v = d then mdel k m else mput k v m

/-- Every key of the map is at least b and the keys rise. -/
def mrising {α : Type} (b : Nat) : SMap α → Bool
  | [] => true
  | (j, _) :: m => decide (b ≤ j) && mrising (j + 1) m

/-- The canonical form where unlisted keys read as given by dflt. -/
def mcanon {α : Type} [DecidableEq α] (dflt : Nat → α) (m : SMap α) : Bool :=
  mrising 0 m && m.all (fun p => decide (p.2 ≠ dflt p.1))

/-- A list without one value, and with it once at the end. -/
def ldel (x : Nat) (l : List Nat) : List Nat := l.filter (fun y => y ≠ x)
/-- Add a value once. -/
def ladd (x : Nat) (l : List Nat) : List Nat := if l.contains x then l else l ++ [x]

/-! ### Bits -/

/-- Bits hi down to lo of a word. -/
def bits (w : Word) (hi lo : Nat) : Nat := w.toNat / 2 ^ lo % 2 ^ (hi + 1 - lo)

/-- The word with bits hi down to lo replaced. -/
def setBits (w : Word) (hi lo v : Nat) : Word :=
  BitVec.ofNat 32 (w.toNat / 2 ^ (hi + 1) * 2 ^ (hi + 1) + v % 2 ^ (hi + 1 - lo) * 2 ^ lo + w.toNat % 2 ^ lo)

/-- Bit i of a number. -/
def nbit (n i : Nat) : Bool := n.testBit i

/-- Bits hi down to lo of a number. -/
def nbits (n hi lo : Nat) : Nat := n / 2 ^ lo % 2 ^ (hi + 1 - lo)

/-- A Bool as a bit. -/
def b2n (b : Bool) : Nat := if b then 1 else 0

/-- A number as a word. -/
def w32 (n : Nat) : Word := BitVec.ofNat 32 n

/-! ### The register rows -/

/-- Windows of BAR0 (R48). -/
inductive Win where
  | csh | ctl | evt | gaf | aon | tim | vlt | uce | lnc | lnl | lnf | eth | kor | eln | prs | flt | asc | frm | bpm | sch
  | mgd | fab | cnt | spt | remote | none
  deriving DecidableEq, Repr

/-- The window an offset lies in (R48). -/
def winOf (off : Nat) : Win :=
  if off < 0x100000 then
    match off / 0x10000 with
    | 0 => .csh | 1 => .ctl | 2 => .evt | 3 => .gaf | 4 => .aon | 5 => .tim | 6 => .vlt | 7 => .uce | _ => .none
  else if off < 0x200000 then
    match off / 0x20000 with
    | 8 => .lnc | 9 => .lnl | 10 => if off < 0x150000 then .lnf else .none
    | 12 => .eth | 13 => .kor | 14 => .eln | _ => .none
  else if off < 0x240000 then .prs
  else if off < 0x250000 then .flt
  else if off < 0x280000 then .none
  else if off < 0x2C0000 then .asc
  else if off < 0x300000 then .none
  else if off < 0x400000 then .frm
  else if off < 0x410000 then .bpm
  else if off < 0x500000 then .none
  else if off < 0x600000 then .sch
  else if off < 0x700000 then .mgd
  else if off < 0x740000 then .fab
  else if off < 0x800000 then .none
  else if off < 0xC00000 then .cnt
  else if off < 0xD00000 then .spt
  else if off < 0x1000000 then .none
  else if off < 0x2000000 then .remote
  else .none

/-- The register rows of a window. -/
def rowsOf : Win → List RegRow
  | .ctl => rowsCtl | .evt => rowsEvt | .gaf => rowsGaf | .aon => rowsAon | .tim => rowsTim | .vlt => rowsVlt
  | .uce => rowsUce | .lnc => rowsLnc | .lnl => rowsLnl | .lnf => rowsLnf | .eth => rowsEth | .kor => rowsKor
  | .eln => rowsEln | .prs => rowsPrs | .flt => rowsFlt | .asc => rowsAsc | .frm => rowsFrm | .bpm => rowsBpm
  | .sch => rowsSch | .mgd => rowsMgd | .fab => rowsFab | .cnt => rowsCnt | .spt => rowsSpt
  | .csh => [] | .remote => [] | .none => []

/-- The counter rows of a window. -/
def ctrsOf : Win → List CtrRow
  | .ctl => ctrsCtl | .evt => ctrsEvt | .gaf => ctrsGaf | .aon => ctrsAon | .tim => ctrsTim | .vlt => ctrsVlt
  | .uce => ctrsUce | .lnc => ctrsLnc | .lnl => ctrsLnl | .lnf => ctrsLnf | .eth => ctrsEth | .kor => ctrsKor
  | .eln => ctrsEln | .flt => ctrsFlt | .asc => ctrsAsc | .frm => ctrsFrm | .bpm => ctrsBpm
  | .sch => ctrsSch | .mgd => ctrsMgd | .fab => ctrsFab | .cnt => ctrsCnt | .spt => ctrsSpt
  | .prs => [] | .csh => [] | .remote => [] | .none => []

/-- An offset names a register of the row. -/
def rowHas (r : RegRow) (off : Nat) : Bool :=
  decide (r.base ≤ off) && decide ((off - r.base) / r.s1 < r.n1) &&
    decide ((off - r.base) % r.s1 / r.s2 < r.n2) && decide ((off - r.base) % r.s1 % r.s2 = 0)

/-- An offset names the low word of a counter of the row. -/
def ctrHas (r : CtrRow) (off : Nat) : Bool :=
  decide (r.base ≤ off) && decide ((off - r.base) / r.s1 < r.n1) &&
    decide ((off - r.base) % r.s1 / r.s2 < r.n2) && decide ((off - r.base) % r.s1 % r.s2 = 0)

/-- The row of a register. -/
def rowOf (off : Nat) : Option RegRow := (rowsOf (winOf off)).find? (fun r => rowHas r off)

/-- An offset is the low word of a counter. -/
def isCtr (off : Nat) : Bool := (ctrsOf (winOf off)).any (fun r => ctrHas r off)

/-- The fixed rung of an event (R328, R427, R536; AON_VERDICT_DISAGREE by R542). -/
def evtFixed (id : Nat) : Option Nat :=
  if id = 0x3004 ∨ id = 0x6001 ∨ id = 0x6002 ∨ id = 0x6003 ∨ id = 0x6004 ∨ id = 0x0307 then some 6
  else if id = 0x040A then some 0 else none

/-- The floor of an event (R96, R285, R328, R361, R427, R470, R502, R527, R536). -/
def evtFloor (id : Nat) : Nat :=
  if id = 0x0401 ∨ id = 0x0402 ∨ id = 0x0408 then 4
  else if id = 0x0407 ∨ id = 0x0409 then 3
  else if [0x0403, 0x0404, 0x0405, 0x0406, 0x0101, 0x2806, 0x3001, 0x3002, 0x4001, 0x6005, 0x6007, 0x0601, 0x0602, 0x0605,
      0x0607, 0x0701, 0x7008, 0x700D, 0x0303, 0x040B, 0x040D, 0x040E].contains id then 1
  else 0

/-- Reset value of EVT_MAP (R542, R560). -/
def evtMapReset (id : Nat) : Word :=
  match evtFixed id with
  | some r => w32 (2 ^ 31 + r * 2 ^ 22 + 2 ^ 21 + 2 ^ 19)
  | none => w32 (evtFloor id * 2 ^ 28 + max 1 (evtFloor id) * 2 ^ 22 + 2 ^ 21 + 2 ^ 19)

/-- Buffer counts of the pools at reset (R330). -/
def poolReset (p : Nat) : Nat := [10240, 4096, 4096, 4096, 4096, 3072, 2048, 2048].getD p 0

/-- What a register holds while nothing has been written to it since reset: the reset value of its map, with the
rows that differ by their place (TS_BASE, MAX_FRAME, AON_MON_CFG, the region 0 descriptor, R330, R542). -/
def regReset (off : Nat) : Word :=
  match rowOf off with
  | none => 0
  | some r =>
    if 0x241000 ≤ off ∧ off < 0x241100 then w32 (r.reset + (off - 0x241000) / 4 * 2 ^ 23)
    else if 0x180000 ≤ off ∧ off < 0x1A0000 ∧ off % 0x1000 = 8 then 9216
    else if 0x1C0000 ≤ off ∧ off < 0x1E0000 ∧ off % 0x1000 = 8 then 9248
    else if 0x40028 ≤ off ∧ off < 0x40034 then w32 (r.reset + 2 ^ 31)
    else if off = 0x600104 then 32
    else if 0x400010 ≤ off ∧ off < 0x400030 then w32 (poolReset ((off - 0x400010) / 4))
    else if off = 0x400030 then 32768
    else if 0x24000 ≤ off ∧ off < 0x2C000 then evtMapReset ((off - 0x24000) / 0x80 * 256 + (off - 0x24000) % 0x80 / 4)
    else if 0x2F000 ≤ off ∧ off < 0x2F080 ∧ off % 16 = 12 then 1
    else w32 r.reset

/-! ### Registers and fields -/

/-- The value a register holds. -/
def State.rd (s : State) (off : Nat) : Word := mlook (regReset off) off s.regs

/-- Make a register hold a value. -/
def State.wr (s : State) (off : Nat) (v : Word) : State := { s with regs := mstore (regReset off) off v s.regs }

/-- The value of a field. -/
def State.get (s : State) (f : Field) : Nat := bits (s.rd f.off) f.hi f.lo

/-- Make a field hold a value, its register's other bits kept. -/
def State.set (s : State) (f : Field) (v : Nat) : State := s.wr f.off (setBits (s.rd f.off) f.hi f.lo v)

/-- A one-bit field is 1. -/
def State.flag (s : State) (f : Field) : Bool := s.get f != 0

/-- A one-bit field set from a Bool. -/
def State.setFlag (s : State) (f : Field) (b : Bool) : State := s.set f (b2n b)

/-- A field read as a two's-complement number. -/
def State.sget (s : State) (f : Field) : Int :=
  let n := f.hi + 1 - f.lo
  let v := s.get f
  if v < 2 ^ (n - 1) then (v : Int) else (v : Int) - (2 ^ n : Nat)

/-- Write consecutive words. -/
def State.wrs (s : State) (off : Nat) : List Word → State
  | [] => s
  | w :: ws => (s.wr off w).wrs (off + 4) ws

/-- Read n consecutive words. -/
def State.rds (s : State) (off n : Nat) : List Word := (List.range n).map (fun i => s.rd (off + 4 * i))

/-! ### Free values, outputs, time -/

/-- The next free value; the draw counter advances with it (log 1). -/
def State.draw (s : State) : BitVec 512 × State := (Config.freeValue s.draws, { s with draws := s.draws + 1 })

/-- Give something to the outside. -/
def State.emit (s : State) (o : Output) : State := { s with out := o :: s.out }

/-- Ticks of 1.25 ns in one second. -/
def tps : Nat := 800000000

/-- T in units of 2^-42 ns for a value of FRC (R365): one tick is 1.25 ns x (1 + rate x 2^-40). -/
def timeAt (t : Tim) (frc : BitVec 64) : Int :=
  t.base + ((frc - t.frcBase).toNat : Int) * (5 * (2 ^ 40 + t.rate))

/-- T in whole nanoseconds. -/
def State.nowNs (s : State) : Nat := (timeAt s.tim s.tim.frc / 2 ^ 42).toNat

/-- Seconds of T. -/
def State.nowSec (s : State) : Nat := s.nowNs / 1000000000

/-- Nanoseconds of T within its second. -/
def State.nowSub (s : State) : Nat := s.nowNs % 1000000000

/-- The short timestamp (R370). -/
def State.stamp (s : State) : Word := w32 s.nowNs

/-! ### Counters and their groups -/

/-- The value of a counter (R8). -/
def State.ctr (s : State) (off : Nat) : Nat := mlook 0 off s.cnt.vals

/-- The windows that call-sheet entries 1 to 200 describe: the window and, for an instance, its number (R67). -/
def sheetEntry (i : Nat) : Win × Option Nat :=
  if i = 0 then (.none, none)
  else if i ≤ 8 then ([Win.csh, .ctl, .evt, .gaf, .aon, .tim, .vlt, .uce].getD (i - 1) .none, none)
  else if i = 9 then (.lnc, none) else if i ≤ 41 then (.lnc, some (i - 10))
  else if i = 42 then (.lnl, none) else if i ≤ 74 then (.lnl, some (i - 43))
  else if i = 75 then (.lnf, none) else if i ≤ 91 then (.lnf, some (i - 76))
  else if i = 92 then (.eth, none) else if i ≤ 124 then (.eth, some (i - 93))
  else if i = 125 then (.kor, none) else if i ≤ 157 then (.kor, some (i - 126))
  else if i = 158 then (.eln, none) else if i ≤ 190 then (.eln, some (i - 159))
  else if i ≤ 200 then
    ([Win.prs, .flt, .asc, .frm, .bpm, .sch, .mgd, .fab, .cnt, .spt].getD (i - 191) .none, none)
  else (.none, none)

/-- A window whose instances have call-sheet entries of their own (R67). -/
def instanced : Win → Bool
  | .lnc => true | .lnl => true | .lnf => true | .eth => true | .kor => true | .eln => true
  | .csh => false | .ctl => false | .evt => false | .gaf => false | .aon => false | .tim => false | .vlt => false
  | .uce => false | .prs => false | .flt => false | .asc => false | .frm => false | .bpm => false | .sch => false
  | .mgd => false | .fab => false | .cnt => false | .spt => false | .remote => false | .none => false

/-- The counters of group g (R550): those of the entry's own window; an instanced unit's counters belong to its
instances' groups (log 9). -/
def groupRows (g : Nat) : List CtrRow :=
  match sheetEntry g with
  | (w, none) => if instanced w then [] else ctrsOf w
  | (w, some k) => (ctrsOf w).map (fun r => CtrRow.mk (r.base + k * r.s1) 1 r.s1 r.n2 r.s2)

/-- Number of counters of a list of rows. -/
def rowsCount (rs : List CtrRow) : Nat := rs.foldl (fun a r => a + r.n1 * r.n2) 0

/-- CNT_DIR COUNT of a group. -/
def groupCount (g : Nat) : Nat := rowsCount (groupRows g)

/-- CNT_DIR BASE of a group in units of 4 KiB: group areas stand in index order from offset 0 (R550). -/
def groupBase (g : Nat) : Nat := (List.range g).foldl (fun a h => a + (groupCount h * 8 + 4095) / 4096) 0

/-- The members of a row that lie below an offset. -/
def rowBelow (r : CtrRow) (off : Nat) : Nat :=
  if off ≤ r.base then 0
  else
    let d := off - r.base
    let q := d / r.s1
    if q < r.n1 then q * r.n2 + min r.n2 ((d % r.s1 + r.s2 - 1) / r.s2) else r.n1 * r.n2

/-- Offsets of a row's counters. -/
def rowOffs (r : CtrRow) : List Nat :=
  (List.range r.n1).flatMap (fun i => (List.range r.n2).map (fun j => r.base + i * r.s1 + j * r.s2))

/-- Offsets of the counters of a group, ascending (the rows of every unit stand in ascending order). -/
def groupOffs (g : Nat) : List Nat := (groupRows g).flatMap rowOffs

/-- The group of a counter: the call-sheet entry whose window holds it. -/
def groupOf (off : Nat) : Nat :=
  match winOf off with
  | .csh => 1 | .ctl => 2 | .evt => 3 | .gaf => 4 | .aon => 5 | .tim => 6 | .vlt => 7 | .uce => 8
  | .lnc => 10 + (off - 0x100000) / 0x1000
  | .lnl => 43 + (off - 0x120000) / 0x1000
  | .lnf => 76 + (off - 0x140000) / 0x1000
  | .eth => 93 + (off - 0x180000) / 0x1000
  | .kor => 126 + (off - 0x1A0000) / 0x1000
  | .eln => 159 + (off - 0x1C0000) / 0x1000
  | .prs => 191 | .flt => 192 | .asc => 193 | .frm => 194 | .bpm => 195 | .sch => 196 | .mgd => 197 | .fab => 198
  | .cnt => 199 | .spt => 200 | .remote => 0 | .none => 0

/-- The number c of a counter (R551). -/
def ctrNumber (off : Nat) : Nat :=
  let g := groupOf off
  groupBase g * 512 + (groupRows g).foldl (fun a r => a + rowBelow r off) 0

/-- Add to a counter; on the wrap past 2^48 - 1 its wrap bit is set (R551). The event is raised by `bump`. -/
def State.bumpRaw (s : State) (off n : Nat) : State :=
  let v := s.ctr off + n
  if v < 2 ^ 48 then { s with cnt := { s.cnt with vals := mstore 0 off v s.cnt.vals } }
  else { s with cnt := { s.cnt with
    vals := mstore 0 off (v % 2 ^ 48) s.cnt.vals, wraps := ladd (ctrNumber off) s.cnt.wraps } }

/-- The counter would wrap. -/
def State.wouldWrap (s : State) (off n : Nat) : Bool := decide (2 ^ 48 ≤ s.ctr off + n)

end Sys2Proof.Machine
end

