-- ==== Sys2Proof/Machine/Operands.lean ====
section
/-! DEFINITION. Operand forms: byte strings and their numbers (R11), words of a register image, the checks of R160 and of
IEEE 802.3, and the field arithmetic and GHASH of GCM. -/

namespace Sys2Proof.Machine

/-! ### Byte strings -/

/-- The number a big-endian byte string spells (R11). -/
def be (bs : List Byte) : Nat := bs.foldl (fun a b => a * 256 + b.toNat) 0

/-- A number as n big-endian bytes. -/
def toBe : Nat → Nat → List Byte
  | 0, _ => []
  | n + 1, v => BitVec.ofNat 8 (v / 256 ^ n) :: toBe n v

/-- The number a little-endian byte string spells (R11). -/
def le (bs : List Byte) : Nat := bs.foldr (fun b a => b.toNat + 256 * a) 0

/-- A number as n little-endian bytes. -/
def toLe : Nat → Nat → List Byte
  | 0, _ => []
  | n + 1, v => BitVec.ofNat 8 v :: toLe n (v / 256)

/-- n bytes from position i; bytes beyond the end are absent. -/
def sub (bs : List Byte) (i n : Nat) : List Byte := (bs.drop i).take n

/-- Byte i as a number, 0 beyond the end. -/
def byteAt (bs : List Byte) (i : Nat) : Nat := (bs.getD i 0).toNat

/-- The bytes with those from position i replaced. -/
def splice (bs : List Byte) (i : Nat) (v : List Byte) : List Byte := bs.take i ++ v ++ bs.drop (i + v.length)

/-- Extend with zero bytes to n bytes. -/
def padTo (n : Nat) (bs : List Byte) : List Byte := bs ++ List.replicate (n - bs.length) 0

/-- Words as bytes, the first byte in bits [31:24]. -/
def wordBytes (ws : List Word) : List Byte := ws.flatMap (fun w => toBe 4 w.toNat)

/-- Bytes as n words, the first byte in bits [31:24]. -/
def bytesWords (n : Nat) (bs : List Byte) : List Word := (List.range n).map (fun i => w32 (be (padTo 4 (sub bs (4 * i) 4))))

/-- Words as bytes, least significant byte first. -/
def wordsLe (ws : List Word) : List Byte := ws.flatMap (fun w => toLe 4 w.toNat)

/-- Exclusive or of two byte strings of one length. -/
def xorBytes (a b : List Byte) : List Byte := List.zipWith (fun x y => x ^^^ y) a b

/-- A number's bits as a byte string of n bytes, and back, for 128-bit values. -/
def blockBytes (b : BitVec 128) : List Byte := toBe 16 b.toNat
/-- 16 bytes as a block, short strings filled with zero bytes. -/
def bytesBlock (bs : List Byte) : BitVec 128 := BitVec.ofNat 128 (be (padTo 16 (bs.take 16)))

/-- A byte string cut into blocks of 16 bytes, the last filled with zero bytes. -/
def blocksOf : Nat → List Byte → List (BitVec 128)
  | 0, _ => []
  | n + 1, bs => if bs.isEmpty then [] else bytesBlock bs :: blocksOf n (bs.drop 16)

/-- Blocks of a whole string. -/
def blocks (bs : List Byte) : List (BitVec 128) := blocksOf ((bs.length + 15) / 16) bs

/-! ### Checks -/

/-- One byte enters the CRC-16 of R160, its most significant bit first. -/
def crc16Byte (c : BitVec 16) (b : Byte) : BitVec 16 :=
  (List.range 8).foldl (fun c _ => if c.msb then (c <<< 1) ^^^ 0x1021#16 else c <<< 1) (c ^^^ (b.zeroExtend 16 <<< 8))

/-- The CRC-16 of R160: x^16 + x^12 + x^5 + 1, initial value 0xFFFF, no reflection, no final exclusive or. -/
def crc16 (bs : List Byte) : BitVec 16 := bs.foldl crc16Byte 0xFFFF#16

/-- One byte enters the CRC-32 of IEEE 802.3, its least significant bit first. -/
def crc32Byte (c : Word) (b : Byte) : Word :=
  (List.range 8).foldl (fun c _ => if c.getLsbD 0 then (c >>> 1) ^^^ 0xEDB88320#32 else c >>> 1) (c ^^^ b.zeroExtend 32)

/-- The running CRC-32 before its final complement. -/
def crc32Run (bs : List Byte) : Word := bs.foldl crc32Byte 0xFFFFFFFF#32

/-- The CRC-32 of IEEE 802.3 (R64, R140, R323, R419, R499). -/
def crc32 (bs : List Byte) : Word := ~~~ crc32Run bs

/-- The four FCS bytes of a frame, in the order sent: the CRC's lowest byte first. -/
def fcsBytes (bs : List Byte) : List Byte := toLe 4 (crc32 bs).toNat

/-- A frame whose last four bytes are its right FCS. -/
def fcsOk (fr : List Byte) : Bool :=
  decide (4 ≤ fr.length) && decide (sub fr (fr.length - 4) 4 = fcsBytes (fr.take (fr.length - 4)))

/-- A frame without its last four bytes. -/
def noFcs (fr : List Byte) : List Byte := fr.take (fr.length - 4)

/-- The stomped FCS: the right one complemented (R144). -/
def stompBytes (bs : List Byte) : List Byte := (fcsBytes bs).map (fun b => ~~~ b)

/-! ### GCM -/

/-- One step of the product in the field of GCM: bit i of x, then y shifted (SP 800-38D, cited by R305). -/
def gfStep (x : BitVec 128) (zv : BitVec 128 × BitVec 128) (i : Nat) : BitVec 128 × BitVec 128 :=
  let z := if x.getMsbD i then zv.1 ^^^ zv.2 else zv.1
  let v := if zv.2.getLsbD 0 then (zv.2 >>> 1) ^^^ (0xE1#128 <<< 120) else zv.2 >>> 1
  (z, v)

/-- The product in the field of GCM. -/
def gfMul (x y : BitVec 128) : BitVec 128 := ((List.range 128).foldl (gfStep x) (0, y)).1

/-- GHASH of blocks under the hash key h. -/
def ghashBlocks (h : BitVec 128) (bs : List (BitVec 128)) : BitVec 128 := bs.foldl (fun y b => gfMul (y ^^^ b) h) 0

/-- GHASH of AAD and ciphertext with the length block (R305). -/
def ghash (h : BitVec 128) (aad ct : List Byte) : BitVec 128 :=
  ghashBlocks h (blocks aad ++ blocks ct ++ [bytesBlock (toBe 8 (8 * aad.length) ++ toBe 8 (8 * ct.length))])

end Sys2Proof.Machine
end

