-- ==== Sys2Proof/Machine/Crypto.lean ====
section
/-! DEFINITION. The cryptographic primitives that the spec names by their standards: AES (FIPS 197), SHA-384 (FIPS 180-4),
HMAC-SHA-384 (FIPS 198-1) and ECDSA over P-384 (FIPS 186-5). -/

namespace Sys2Proof.Machine

/-! ### AES (FIPS 197) -/

/-- Multiplication by x in the field of AES. -/
def aesXtime (b : Byte) : Byte := if b.msb then (b <<< 1) ^^^ 0x1B#8 else b <<< 1

/-- The product in the field of AES. -/
def aesMul (a b : Byte) : Byte :=
  ((List.range 8).foldl (fun st i => (if b.getLsbD i then st.1 ^^^ st.2 else st.1, aesXtime st.2)) ((0#8 : Byte), a)).1

/-- The inverse in the field of AES, 0 for 0: the 254th power. -/
def aesInv (a : Byte) : Byte :=
  (List.range 6).foldl (fun acc _ => aesMul (aesMul acc acc) (aesMul a a)) (aesMul a a)

/-- Rotation of a byte to the left. -/
def rotByte (b : Byte) (n : Nat) : Byte := (b <<< n) ||| (b >>> (8 - n))

/-- SubBytes on one byte: the inverse and the affine map. -/
def aesSub (b : Byte) : Byte :=
  let x := aesInv b
  x ^^^ rotByte x 1 ^^^ rotByte x 2 ^^^ rotByte x 3 ^^^ rotByte x 4 ^^^ 0x63#8

/-- The inverse of `aesSub`. -/
def aesUnsub (b : Byte) : Byte := aesInv (rotByte b 1 ^^^ rotByte b 3 ^^^ rotByte b 6 ^^^ 0x05#8)

/-- A block's byte of one row and column, the block in column order. -/
def aesAt (st : List Byte) (row col : Nat) : Byte := st.getD (4 * (col % 4) + row) 0

/-- ShiftRows, or with `back` its inverse. -/
def aesShift (back : Bool) (st : List Byte) : List Byte :=
  (List.range 16).map (fun i => aesAt st (i % 4) (i / 4 + (if back then 4 - i % 4 else i % 4)))

/-- MixColumns with the first row m of its matrix. -/
def aesMix (m : List Byte) (st : List Byte) : List Byte :=
  (List.range 16).map (fun i => (List.range 4).foldl (fun a j =>
    a ^^^ aesMul (m.getD ((j + 4 - i % 4) % 4) 0) (aesAt st j (i / 4))) 0)

/-- One word of the key schedule: word i from the words before it, newest first. -/
def aesKeyWord (nk : Nat) (ws : List (List Byte)) (i : Nat) : List (List Byte) :=
  let t := ws.headD []
  let rcon : Byte := (List.range (i / nk - 1)).foldl (fun c _ => aesXtime c) 1
  let t := if i % nk = 0 then xorBytes ((t.drop 1 ++ t.take 1).map aesSub) [rcon, 0, 0, 0]
    else if 6 < nk ∧ i % nk = 4 then t.map aesSub else t
  xorBytes (ws.getD (nk - 1) []) t :: ws

/-- The round keys of a key of nk words, as 16-byte strings in order. -/
def aesKeys (nk : Nat) (key : List Byte) : List (List Byte) :=
  let first := ((List.range nk).map (fun i => sub key (4 * i) 4)).reverse
  let ws := (((List.range (4 * (nk + 7) - nk)).map (· + nk)).foldl (aesKeyWord nk) first).reverse
  (List.range (nk + 7)).map (fun r => (sub0 ws r).flatten)
where
  /-- The four words of round r. -/
  sub0 (ws : List (List Byte)) (r : Nat) : List (List Byte) := (ws.drop (4 * r)).take 4

/-- The round keys of a 256-bit key, or of a 128-bit key in the low bits. -/
def aesRounds (is256 : Bool) (key : BitVec 256) : List (List Byte) :=
  if is256 then aesKeys 8 (toBe 32 key.toNat) else aesKeys 4 (toBe 16 (key.truncate 128).toNat)

/-- One AES block encryption (FIPS 197; R305, R400, R460); the flag says a 256-bit key, else the key is the low 128 bits. -/
def aesEnc (is256 : Bool) (key : BitVec 256) (block : BitVec 128) : BitVec 128 :=
  let ks := aesRounds is256 key
  let last := ks.length - 1
  bytesBlock (ks.zipIdx.foldl (fun st p =>
    if p.2 = 0 then xorBytes st p.1
    else
      let st := aesShift false (st.map aesSub)
      xorBytes (if p.2 = last then st else aesMix [2, 3, 1, 1] st) p.1) (blockBytes block))

/-- One AES block decryption (FIPS 197; R460). -/
def aesDec (is256 : Bool) (key : BitVec 256) (block : BitVec 128) : BitVec 128 :=
  let ks := (aesRounds is256 key).reverse
  let last := ks.length - 1
  bytesBlock (ks.zipIdx.foldl (fun st p =>
    if p.2 = 0 then xorBytes st p.1
    else
      let st := xorBytes ((aesShift true st).map aesUnsub) p.1
      if p.2 = last then st else aesMix [14, 11, 13, 9] st) (blockBytes block))

/-! ### SHA-384 (FIPS 180-4) and HMAC (FIPS 198-1) -/

/-- Round constants 0 to 15 of SHA-384 (FIPS 180-4). -/
def shaK0 : List (BitVec 64) := [
  0x428a2f98d728ae22, 0x7137449123ef65cd, 0xb5c0fbcfec4d3b2f, 0xe9b5dba58189dbbc,
  0x3956c25bf348b538, 0x59f111f1b605d019, 0x923f82a4af194f9b, 0xab1c5ed5da6d8118,
  0xd807aa98a3030242, 0x12835b0145706fbe, 0x243185be4ee4b28c, 0x550c7dc3d5ffb4e2,
  0x72be5d74f27b896f, 0x80deb1fe3b1696b1, 0x9bdc06a725c71235, 0xc19bf174cf692694]

/-- Round constants 16 to 31 of SHA-384 (FIPS 180-4). -/
def shaK1 : List (BitVec 64) := [
  0xe49b69c19ef14ad2, 0xefbe4786384f25e3, 0x0fc19dc68b8cd5b5, 0x240ca1cc77ac9c65,
  0x2de92c6f592b0275, 0x4a7484aa6ea6e483, 0x5cb0a9dcbd41fbd4, 0x76f988da831153b5,
  0x983e5152ee66dfab, 0xa831c66d2db43210, 0xb00327c898fb213f, 0xbf597fc7beef0ee4,
  0xc6e00bf33da88fc2, 0xd5a79147930aa725, 0x06ca6351e003826f, 0x142929670a0e6e70]

/-- Round constants 32 to 47 of SHA-384 (FIPS 180-4). -/
def shaK2 : List (BitVec 64) := [
  0x27b70a8546d22ffc, 0x2e1b21385c26c926, 0x4d2c6dfc5ac42aed, 0x53380d139d95b3df,
  0x650a73548baf63de, 0x766a0abb3c77b2a8, 0x81c2c92e47edaee6, 0x92722c851482353b,
  0xa2bfe8a14cf10364, 0xa81a664bbc423001, 0xc24b8b70d0f89791, 0xc76c51a30654be30,
  0xd192e819d6ef5218, 0xd69906245565a910, 0xf40e35855771202a, 0x106aa07032bbd1b8]

/-- Round constants 48 to 63 of SHA-384 (FIPS 180-4). -/
def shaK3 : List (BitVec 64) := [
  0x19a4c116b8d2d0c8, 0x1e376c085141ab53, 0x2748774cdf8eeb99, 0x34b0bcb5e19b48a8,
  0x391c0cb3c5c95a63, 0x4ed8aa4ae3418acb, 0x5b9cca4f7763e373, 0x682e6ff3d6b2b8a3,
  0x748f82ee5defb2fc, 0x78a5636f43172f60, 0x84c87814a1f0ab72, 0x8cc702081a6439ec,
  0x90befffa23631e28, 0xa4506cebde82bde9, 0xbef9a3f7b2c67915, 0xc67178f2e372532b]

/-- Round constants 64 to 79 of SHA-384 (FIPS 180-4). -/
def shaK4 : List (BitVec 64) := [
  0xca273eceea26619c, 0xd186b8c721c0c207, 0xeada7dd6cde0eb1e, 0xf57d4f7fee6ed178,
  0x06f067aa72176fba, 0x0a637dc5a2c898a6, 0x113f9804bef90dae, 0x1b710b35131c471b,
  0x28db77f523047d84, 0x32caab7b40c72493, 0x3c9ebe0a15c9bebc, 0x431d67c49c100d4c,
  0x4cc5d4becb3e42b6, 0x597f299cfc657e2a, 0x5fcb6fab3ad6faec, 0x6c44198c4a475817]

/-- The round constants of SHA-384. -/
def shaK : List (BitVec 64) := shaK0 ++ shaK1 ++ shaK2 ++ shaK3 ++ shaK4

/-- The initial hash value of SHA-384. -/
def shaInit : List (BitVec 64) := [
  0xcbbb9d5dc1059ed8, 0x629a292a367cd507, 0x9159015a3070dd17, 0x152fecd8f70e5939,
  0x67332667ffc00b31, 0x8eb44a8768581511, 0xdb0c2e0d64f98fa7, 0x47b5481dbefa4fa4]

/-- The message schedule of one block of 16 words. -/
def shaSchedule (ws : List (BitVec 64)) : List (BitVec 64) :=
  ((List.range 64).foldl (fun (acc : List (BitVec 64)) _ =>
    let w15 := acc.getD 14 0
    let w2 := acc.getD 1 0
    let s0 := w15.rotateRight 1 ^^^ w15.rotateRight 8 ^^^ (w15 >>> 7)
    let s1 := w2.rotateRight 19 ^^^ w2.rotateRight 61 ^^^ (w2 >>> 6)
    (acc.getD 15 0 + s0 + acc.getD 6 0 + s1) :: acc) ws.reverse).reverse

/-- One round: the working variables a to h, and the pair of constant and schedule word. -/
def shaRound (st : List (BitVec 64)) (kw : BitVec 64 × BitVec 64) : List (BitVec 64) :=
  match st with
  | [a, b, c, d, e, f, g, h] =>
    let s1 := e.rotateRight 14 ^^^ e.rotateRight 18 ^^^ e.rotateRight 41
    let t1 := h + s1 + ((e &&& f) ^^^ (~~~ e &&& g)) + kw.1 + kw.2
    let s0 := a.rotateRight 28 ^^^ a.rotateRight 34 ^^^ a.rotateRight 39
    let t2 := s0 + ((a &&& b) ^^^ (a &&& c) ^^^ (b &&& c))
    [t1 + t2, a, b, c, d + t1, e, f, g]
  | _ => st

/-- One block of 128 bytes enters the hash. -/
def shaBlock (h : List (BitVec 64)) (bs : List Byte) : List (BitVec 64) :=
  let ws := (List.range 16).map (fun i => BitVec.ofNat 64 (be (sub bs (8 * i) 8)))
  List.zipWith (fun x y => x + y) h ((shaK.zip (shaSchedule ws)).foldl shaRound h)

/-- SHA-384 of a byte string. -/
def sha384 (bs : List Byte) : BitVec 384 :=
  let fill := 127 - (bs.length + 16) % 128
  let m := bs ++ [0x80#8] ++ List.replicate fill 0 ++ toBe 16 (8 * bs.length)
  let h := (List.range (m.length / 128)).foldl (fun h i => shaBlock h (sub m (128 * i) 128)) shaInit
  BitVec.ofNat 384 (be ((h.take 6).flatMap (fun w => toBe 8 w.toNat)))

/-- HMAC-SHA-384 under a key of up to 512 bits, which stands first and is filled with zero bits (R434, R460). -/
def hmac384 (key : BitVec 512) (bs : List Byte) : BitVec 384 :=
  let k := padTo 128 (toBe 64 key.toNat)
  sha384 (k.map (fun b => b ^^^ 0x5C#8) ++ toBe 48 (sha384 (k.map (fun b => b ^^^ 0x36#8) ++ bs)).toNat)

/-! ### ECDSA over P-384 (FIPS 186-5, SP 800-186) -/

/-- The prime of P-384. -/
def p384 : Nat := 2 ^ 384 - 2 ^ 128 - 2 ^ 96 + 2 ^ 32 - 1

/-- The order n of the base point of P-384. -/
def p384Order : Nat :=
  0xFFFFFFFFFFFFFFFFFFFFFFFFFFFFFFFFFFFFFFFFFFFFFFFFC7634D81F4372DDF581A0DB248B0A77AECEC196ACCC52973

/-- The coefficient b of P-384; a is −3. -/
def p384B : Nat :=
  0xB3312FA7E23EE7E4988E056BE3F82D19181D9C6EFE8141120314088F5013875AC656398D8A2ED19D2A85C8EDD3EC2AEF

/-- The base point G of P-384. -/
def p384G : Nat × Nat :=
  (0xAA87CA22BE8B05378EB1C71EF320AD746E1D3B628BA79B9859F741E082542A385502F25DBF55296C3A545E3872760AB7,
   0x3617DE4A96262C6F5D9E98BF9292DC29F8F41DBD289A147CE9DA3113B5F0B8C00A60B1CE1D7E819D7A431D7C90EA0E5F)

/-- x to the power e modulo m, for e below 2^384. -/
def powMod (m x e : Nat) : Nat :=
  (List.range 384).foldr (fun i acc => let q := acc * acc % m; if e.testBit i then q * x % m else q) 1

/-- The inverse modulo a prime. -/
def invMod (m x : Nat) : Nat := powMod m (x % m) (m - 2)

/-- The sum of two points of P-384; none is the point at infinity. -/
def ecAdd : Option (Nat × Nat) → Option (Nat × Nat) → Option (Nat × Nat)
  | none, q => q
  | p, none => p
  | some (x1, y1), some (x2, y2) =>
    if x1 = x2 ∧ (y1 + y2) % p384 = 0 then none
    else
      let l := if x1 = x2 then (3 * x1 * x1 + p384 - 3) * invMod p384 (2 * y1) % p384
        else (y2 + p384 - y1) * invMod p384 (x2 + p384 - x1) % p384
      let x3 := (l * l + 2 * p384 - x1 - x2) % p384
      some (x3, (l * (x1 + p384 - x3) + p384 - y1) % p384)

/-- A multiple of a point, for a factor below 2^384. -/
def ecMul (k : Nat) (p : Nat × Nat) : Option (Nat × Nat) :=
  (List.range 384).foldr (fun i acc => let d := ecAdd acc acc; if k.testBit i then ecAdd d (some p) else d) none

/-- The point of an encoded public key, x then y, when it lies on the curve. -/
def ecPoint (pub : List Byte) : Option (Nat × Nat) :=
  let x := be (sub pub 0 48)
  let y := be (sub pub 48 48)
  if pub.length = 96 ∧ x < p384 ∧ y < p384 ∧ (y * y + 3 * x) % p384 = (x * x * x + p384B) % p384 then some (x, y) else none

/-- ECDSA P-384 verification: public key, digest, signature as r then s (R61, R70, R444). -/
def ecdsaVerify (pub : List Byte) (digest : BitVec 384) (sig : List Byte) : Bool :=
  let r := be (sub sig 0 48)
  let s := be (sub sig 48 48)
  match ecPoint pub with
  | none => false
  | some q =>
    if sig.length ≠ 96 ∨ r = 0 ∨ s = 0 ∨ p384Order ≤ r ∨ p384Order ≤ s then false
    else
      let w := invMod p384Order s
      match ecAdd (ecMul (digest.toNat * w % p384Order) p384G) (ecMul (r * w % p384Order) q) with
      | none => false
      | some (x, _) => decide (x % p384Order = r)

/-- The public key of a private key, x then y (R452). -/
def ecPublic (d : BitVec 384) : List Byte :=
  match ecMul d.toNat p384G with
  | none => List.replicate 96 0
  | some (x, y) => toBe 48 x ++ toBe 48 y

/-- ECDSA P-384 signature of a digest, r then s, with the secret number k mod (n − 1) + 1 of a draw (R453). -/
def ecdsaSign (d digest : BitVec 384) (draw : BitVec 512) : List Byte :=
  let k := draw.toNat % (p384Order - 1) + 1
  let r := match ecMul k p384G with | none => 0 | some (x, _) => x % p384Order
  toBe 48 r ++ toBe 48 (invMod p384Order k * (digest.toNat + r * d.toNat) % p384Order)

end Sys2Proof.Machine
end

