-- ==== Sys2Proof/Machine/Ciphers.lean ====
section
/-! DEFINITION. The modes of operation over the block cipher: key wrap (SP 800-38F, cited by R247, R455, R460), and ECB, CBC,
CTR, CMAC and padding (R460, R462), with the derivation of R434. -/

namespace Sys2Proof.Machine

/-! ### GCM -/

/-- The key stream of counter blocks iv and count, from count c on, n blocks (R305). -/
def keyStream (is256 : Bool) (key : BitVec 256) (iv : List Byte) (c n : Nat) : List Byte :=
  (List.range n).flatMap (fun j => blockBytes (aesEnc is256 key (bytesBlock (iv ++ toBe 4 (c + j)))))

/-- Counter-mode processing of a byte string from counter block 2 on (R305). -/
def ctrCrypt (is256 : Bool) (key : BitVec 256) (iv bs : List Byte) : List Byte :=
  xorBytes bs (keyStream is256 key iv 2 ((bs.length + 15) / 16))

/-- The tag of R305: GHASH exclusive or the encrypted J0. -/
def gcmTag (is256 : Bool) (key : BitVec 256) (iv aad ct : List Byte) : BitVec 128 :=
  ghash (aesEnc is256 key 0) aad ct ^^^ aesEnc is256 key (bytesBlock (iv ++ toBe 4 1))

/-! ### Key wrap -/

/-- A semiblock string as bytes. -/
def semiBytes (ss : List (BitVec 64)) : List Byte := ss.flatMap (fun x => toBe 8 x.toNat)

/-- Bytes as n semiblocks. -/
def semis (n : Nat) (bs : List Byte) : List (BitVec 64) :=
  (List.range n).map (fun i => BitVec.ofNat 64 (be (padTo 8 (sub bs (8 * i) 8))))

/-- One step of the wrapping function W. -/
def wrapStep (is256 : Bool) (key : BitVec 256) (st : BitVec 64 × List (BitVec 64)) (t : Nat) :
    BitVec 64 × List (BitVec 64) :=
  match st.2 with
  | [] => st
  | r :: rs =>
    let x := aesEnc is256 key (st.1 ++ r)
    (x.extractLsb' 64 64 ^^^ BitVec.ofNat 64 t, rs ++ [x.extractLsb' 0 64])

/-- The wrapping function W over semiblocks. -/
def wrapW (is256 : Bool) (key : BitVec 256) : List (BitVec 64) → List (BitVec 64)
  | [] => []
  | a :: rs =>
    let st := ((List.range (6 * rs.length)).map (· + 1)).foldl (wrapStep is256 key) (a, rs)
    st.1 :: st.2

/-- One step of the inverse of W. -/
def unwrapStep (is256 : Bool) (key : BitVec 256) (st : BitVec 64 × List (BitVec 64)) (t : Nat) :
    BitVec 64 × List (BitVec 64) :=
  match st.2.reverse with
  | [] => st
  | r :: rev =>
    let x := aesDec is256 key ((st.1 ^^^ BitVec.ofNat 64 t) ++ r)
    (x.extractLsb' 64 64, x.extractLsb' 0 64 :: rev.reverse)

/-- The inverse of W. -/
def unwrapW (is256 : Bool) (key : BitVec 256) : List (BitVec 64) → List (BitVec 64)
  | [] => []
  | a :: rs =>
    let st := ((List.range (6 * rs.length)).map (· + 1)).reverse.foldl (unwrapStep is256 key) (a, rs)
    st.1 :: st.2

/-- KW: the input is whole semiblocks. -/
def kwWrap (is256 : Bool) (key : BitVec 256) (p : List Byte) : List Byte :=
  semiBytes (wrapW is256 key (0xA6A6A6A6A6A6A6A6#64 :: semis (p.length / 8) p))

/-- KW unwrapping with its integrity check. -/
def kwUnwrap (is256 : Bool) (key : BitVec 256) (c : List Byte) : Option (List Byte) :=
  if c.length % 8 ≠ 0 ∨ c.length < 24 then none
  else match unwrapW is256 key (semis (c.length / 8) c) with
    | a :: rs => if a = 0xA6A6A6A6A6A6A6A6#64 then some (semiBytes rs) else none
    | [] => none

/-- KWP: any length from one byte. -/
def kwpWrap (is256 : Bool) (key : BitVec 256) (p : List Byte) : List Byte :=
  let a := 0xA65959A6#32 ++ BitVec.ofNat 32 p.length
  let rs := semis ((p.length + 7) / 8) p
  match rs with
  | [r] => blockBytes (aesEnc is256 key (a ++ r))
  | _ => semiBytes (wrapW is256 key (a :: rs))

/-- KWP unwrapping with its integrity check: the constant, the length and the padding. -/
def kwpUnwrap (is256 : Bool) (key : BitVec 256) (c : List Byte) : Option (List Byte) :=
  if c.length % 8 ≠ 0 ∨ c.length < 16 then none
  else
    let ss := semis (c.length / 8) c
    let out := if c.length = 16 then
        (let x := aesDec is256 key (bytesBlock c); [x.extractLsb' 64 64, x.extractLsb' 0 64])
      else unwrapW is256 key ss
    match out with
    | [] => none
    | a :: rs =>
      let n := (a.extractLsb' 0 32).toNat
      let p := semiBytes rs
      if a.extractLsb' 32 32 = 0xA65959A6#32 ∧ n ≤ p.length ∧ p.length < n + 8 ∧
          (p.drop n).all (fun b => b = 0) = true then some (p.take n) else none

/-! ### Derivation -/

/-- One iteration of the counter-mode derivation (R434). -/
def kdfBlock (k : BitVec 512) (label context : List Byte) (len i : Nat) : BitVec 384 :=
  hmac384 k (toBe 4 i ++ label ++ [0] ++ context ++ toBe 4 len)

/-- KDF(KDK, Label, Context, L) (R434): the first L bits, L up to 512, as the high bits of the result. -/
def kdf (k : BitVec 512) (label context : List Byte) (len : Nat) : BitVec 512 :=
  let all : BitVec 768 := kdfBlock k label context len 1 ++ (if len ≤ 384 then 0 else kdfBlock k label context len 2)
  all.extractLsb' 256 512

/-- A derived key of 256 bits under a 256-bit KDK. -/
def kdf256 (k : BitVec 256) (label context : List Byte) : BitVec 256 := (kdf (k ++ 0#256) label context 256).extractLsb' 256 256

/-! ### Modes of the utility cipher engine -/

/-- ECB over whole blocks. -/
def ecb (is256 decrypt : Bool) (key : BitVec 256) (bs : List Byte) : List Byte :=
  (blocks bs).flatMap (fun x => blockBytes (if decrypt then aesDec is256 key x else aesEnc is256 key x))

/-- CBC encryption from an initial value. -/
def cbcEnc (is256 : Bool) (key : BitVec 256) : BitVec 128 → List (BitVec 128) → List Byte
  | _, [] => []
  | v, x :: xs => let c := aesEnc is256 key (x ^^^ v); blockBytes c ++ cbcEnc is256 key c xs

/-- CBC decryption from an initial value. -/
def cbcDec (is256 : Bool) (key : BitVec 256) : BitVec 128 → List (BitVec 128) → List Byte
  | _, [] => []
  | v, x :: xs => blockBytes (aesDec is256 key x ^^^ v) ++ cbcDec is256 key x xs

/-- CTR with a 128-bit big-endian counter (R460). -/
def ctr128 (is256 : Bool) (key : BitVec 256) (icb : BitVec 128) (bs : List Byte) : List Byte :=
  xorBytes bs ((List.range ((bs.length + 15) / 16)).flatMap (fun i =>
    blockBytes (aesEnc is256 key (icb + BitVec.ofNat 128 i))))

/-- Doubling in the field of CMAC (SP 800-38B). -/
def cmacDouble (x : BitVec 128) : BitVec 128 := if x.msb then (x <<< 1) ^^^ 0x87#128 else x <<< 1

/-- CMAC (SP 800-38B). -/
def cmac (is256 : Bool) (key : BitVec 256) (bs : List Byte) : BitVec 128 :=
  let k1 := cmacDouble (aesEnc is256 key 0)
  let whole := decide (bs ≠ []) && decide (bs.length % 16 = 0)
  let padded := if whole then bs else bs ++ [0x80#8]
  let bl := blocks padded
  let k := if whole then k1 else cmacDouble k1
  bl.zipIdx.foldl (fun c x =>
    aesEnc is256 key (if x.2 + 1 = bl.length then c ^^^ x.1 ^^^ k else c ^^^ x.1)) 0

/-- Padding by method 2 of ISO/IEC 9797-1 (R462). -/
def isoPad (bs : List Byte) : List Byte := bs ++ [0x80#8] ++ List.replicate (15 - bs.length % 16) 0

/-- Remove that padding: zeros after the last 0x80 byte (R462). -/
def isoUnpad (bs : List Byte) : Option (List Byte) :=
  match bs.reverse.dropWhile (fun b => b = 0) with
  | b :: rev => if b = 0x80#8 ∧ bs.length - rev.length ≤ 16 then some rev.reverse else none
  | [] => none

end Sys2Proof.Machine
end

