-- ==== Sys2Proof/Machine/Flags.lean ====
section
/-! DEFINITION. Status and interrupt flags: raising an event, its record, its pending bit and its response on the ladder
(15, R539 to R548), the halt, the zeroise rungs, and counting (R551). Every unit raises its events through `raise`. -/

namespace Sys2Proof.Machine

/-! ### What the outputs show -/

/-- The zeroise rung that has acted, 0 for none (R539). -/
def State.zeroised (s : State) : Bool := decide (s.evt.zeroise ≠ 0)

/-- The device is halted (R546). -/
def State.halted (s : State) : Bool := decide (s.ctl.cond = .halted)

/-- The combined rung in force as EVT_STS.RUNG shows it (R544, R560). -/
def State.rung (s : State) : Nat :=
  if s.halted then 6
  else if s.zeroised then s.evt.zeroise
  else if s.flag Reg.EVT_STS_QDEV then 3
  else if s.rd Reg.EVT_QUIESCE_PORTS ≠ 0 then 2 else 0

/-- ALARM_N is low (R547). -/
def State.alarmLow (s : State) : Bool :=
  decide (3 ≤ s.rung) || decide (s.get Reg.CTL_BOOT_FAIL_STAGE = 2) || decide (s.get Reg.CTL_BOOT_FAIL_STAGE = 4)

/-- INT0_N or INT1_N is low: a pending bit set has that output in its mapping (R548). -/
def State.intLow (s : State) (one : Bool) : Bool :=
  (List.range 256).any fun u => (List.range 32).any fun e =>
    nbit (s.rd (Reg.EVT_PEND u)).toNat e &&
      (if one then s.flag (Reg.EVT_MAP_INT1 u e) else s.flag (Reg.EVT_MAP_INT0 u e))

/-! ### The log -/

/-- The four words of a log record (R545). -/
def logWords (r : LogRec) : List Word :=
  [w32 (r.id.toNat * 2 ^ 16 + r.rung.toNat * 2 ^ 13 + 2 ^ 12 + r.seq.toNat), r.arg0, r.arg1, r.stamp]

/-- The record of an event raised now. -/
def logRec (s : State) (rung id a0 a1 : Nat) : LogRec :=
  { id := BitVec.ofNat 16 id, rung := BitVec.ofNat 3 rung, seq := s.evt.seq, arg0 := w32 a0, arg1 := w32 a1,
    stamp := s.stamp }

/-- Write a record, or lose and count it when the log is full (R545); a lost record takes no SEQ (log 10). -/
def pushLog (s : State) (r : LogRec) : State :=
  if s.evt.log.length < 1024 then
    { s with evt := { s.evt with log := s.evt.log ++ [r], seq := s.evt.seq + 1 } }
  else s.bumpRaw Reg.EVT_LOG_LOST 1

/-! ### Pending bits and messages -/

/-- An MSI-X vector is masked in its table entry (R548). -/
def vectorMasked (s : State) (v : Nat) : Bool := (s.rd (Reg.MSIX_TABLE v 3)).getLsbD 0

/-- Send a vector's message, or hold it while the vector is masked (R548). -/
def sendMsix (s : State) (v : Nat) : State :=
  if vectorMasked s v then { s with evt := { s.evt with msixHeld := ladd v s.evt.msixHeld } }
  else s.emit (.msix v)

/-- Set an event's pending bit; a bit that goes from 0 to 1 with MSI in its mapping also sends its vector (R548). -/
def setPend (s : State) (id : Nat) : State :=
  let u := id / 256
  let e := id % 256 % 32
  let old := s.rd (Reg.EVT_PEND u)
  if nbit old.toNat e then s
  else
    let s := s.wr (Reg.EVT_PEND u) (old ||| w32 (2 ^ e))
    if s.flag (Reg.EVT_MAP_MSI u e) then sendMsix s (s.get (Reg.EVT_MAP_VECTOR u e)) else s

/-! ### Responses -/

/-- Quiesce one port pair (R540). -/
def quiescePort (s : State) (k : Nat) : State :=
  s.wr Reg.EVT_QUIESCE_PORTS (s.rd Reg.EVT_QUIESCE_PORTS ||| w32 (2 ^ k))

/-- A response at QUIESCE_DEVICE or above: an active device fences, with YIELD set in its heartbeats (R489, R493). -/
def fenceOnAlarm (s : State) : State :=
  if s.flag Reg.FAB_PAIR_CFG_PAIRED ∧ s.fab.role = .active then
    let s := s.setFlag Reg.FAB_STS_YIELD true
    if s.fab.fencing = false then { s with fab := { s.fab with fencing := true, fenceTo := .fenced } } else s
  else s

/-- Quiesce every port pair, drive ALARM_N low and fence (R539). -/
def quiesceDevice (s : State) : State := fenceOnAlarm (s.setFlag Reg.EVT_STS_QDEV true)

/-- A key slot of the utility cipher engine, erased (R463, R468). -/
def noKeySlot : KeySlot := { key := { a := 0, b := 0 }, size256 := false, origin := 0 }

/-- Zeroise the staging registers of the vault, the utility cipher engine and the association engine (R468). -/
def zeroStaging (s : State) : State :=
  let s := s.wrs (Reg.VLT_KEY_STAGE 0) (List.replicate 17 0)
  let s := s.wrs (Reg.UCE_SLOT_KEY 0) (List.replicate 8 0)
  s.wrs (Reg.ASC_KEY_STAGE 0) (List.replicate 8 0)

/-- Clear the state words of the sixteen key slots (R463). -/
def zeroSlotSts (s : State) : State :=
  (List.range 16).foldl (fun s i => s.wr (Reg.UCE_SLOT_STS i) 0) s

/-- A core whose key, powers of H and state register are zeroised. -/
def bareCore (c : Core) : Core := { c with key := { a := 0, b := 0 }, keyOf := none, powers := [], block := { a := 0, b := 0 } }

/-- A channel of the utility cipher engine whose core is zeroised. -/
def bareChan (h : UceChan) : UceChan := { h with core := bareCore h.core }

/-- ZEROISE_WORKING: the vault's actions (R468), every resident slot's key, every core's shares, the guard's keys, and
POISON (R539, R420, R426). A frame that is in the farm goes on under the zeroised key, of which R31 and R539 say nothing (DESIGN CHOICE,
log 87). -/
def zeroiseWorking (s : State) : State :=
  let s := zeroSlotSts (zeroStaging s)
  let s := s.setFlag Reg.VLT_STS_ZEROISED true
  { s with
    vlt := { s.vlt with wrapKey := none, blobKey := none, idKey := none, slots := [], later := [], c0 := bareChan s.vlt.c0, c1 := bareChan s.vlt.c1 }
    asc := { s.asc with slots := s.asc.slots.map (fun p => (p.1, { p.2 with key := { a := 0, b := 0 }, powers := [] })) }
    frm := { s.frm with cores := s.frm.cores.map (fun p => (p.1, { bareCore p.2 with seeded := false, seed := 0 })) }
    mgd := { s.mgd with keysGone := true, ret := { s.mgd.ret with poison := true } }
    evt := { s.evt with zeroise := max 4 s.evt.zeroise } }

/-- ZEROISE_VAULT: in addition BBS is zeroised (R468). -/
def zeroiseVault (s : State) : State :=
  { s with vlt := { s.vlt with bbs := none, secret := { a := 0, b := 0 } }, evt := { s.evt with zeroise := 5 } }

/-- Causes whose halt skips the seal and sets POISON (R420). -/
def poisonCause (id : Nat) : Bool := [0x6001, 0x6002, 0x6003, 0x6004, 0x3004].contains id

/-- Windows of the 80 lanes (R97). -/
def laneBases : List Nat :=
  (List.range 32).map (fun j => 0x100000 + 0x1000 * j) ++ (List.range 32).map (fun j => 0x120000 + 0x1000 * j) ++
    (List.range 16).map (fun j => 0x140000 + 0x1000 * j)

/-- Every lane is OFF, and stays so until reset (R131). -/
def lanesOff (s : State) : State :=
  laneBases.foldl (fun s b => (s.set (Reg.LN_STS_STATE b) 0).set (Reg.LN_STS_RUNG b) 0) s

/-- Halt: the record of the cause is kept, the log freezes, HEALTHY falls, transmitters idle, lanes are OFF and heartbeats stop
(R32, R131, R546). -/
def haltNow (s : State) (r : LogRec) : State :=
  let s := lanesOff (s.setFlag Reg.CTL_BOOT_HEALTHY false)
  { s with
    ctl := { s.ctl with cond := .halted }
    gaf := { s.gaf with trans := none, pend := none, sleepAsk := [] }
    evt := { s.evt with frozen := true, lastHalt := some r }
    mgd := { s.mgd with ret := { s.mgd.ret with poison := s.mgd.ret.poison || poisonCause r.id.toNat } } }

/-- The rung that an event's mapping gives it (R542): code 7 acts as HALT, and a rung below the floor as the floor. -/
def rungOf (s : State) (id : Nat) : Nat :=
  let u := id / 256
  let e := id % 256 % 32
  let r := s.get (Reg.EVT_MAP_RUNG u e)
  max (if r = 7 then 6 else r) (s.get (Reg.EVT_MAP_FLOOR u e))

/-- The actions of a rung and of every rung below it (R539, R541); ZEROISE rungs act only for a cause at that rung. -/
def respond (s : State) (rung id : Nat) (pair : Option Nat) (r : LogRec) : State :=
  let s := if 1 ≤ rung then setPend s id else s
  let s := if 2 ≤ rung then (match pair with | some k => quiescePort s k | none => s) else s
  let s := if 3 ≤ rung ∨ (rung = 2 ∧ pair = none) then quiesceDevice s else s
  let s := if rung = 4 ∨ rung = 5 then zeroiseWorking s else s
  let s := if rung = 5 then zeroiseVault s else s
  if rung = 6 then haltNow s r else s

/-- One event at a given rung: its record, and its response; nothing while the device is halted (R546). -/
def raiseOne (s : State) (rung id a0 a1 : Nat) (pair : Option Nat) : State :=
  if s.evt.frozen then s
  else
    let r := logRec s rung id a0 a1
    respond (pushLog s r) rung id pair r

/-- An event at a given rung; a record lost to a full log raises EVT_LOG_OVF once until a record is popped (R545). -/
def raiseAt (s : State) (rung id a0 a1 : Nat) (pair : Option Nat) : State :=
  let full := decide (1024 ≤ s.evt.log.length)
  let s := raiseOne s rung id a0 a1 pair
  if full ∧ s.evt.ovfRaised = false ∧ s.evt.frozen = false then
    raiseOne { s with evt := { s.evt with ovfRaised := true } } (rungOf s 0x0201) 0x0201 0 0 none
  else s

/-- Raise an event whose record names ARG0, ARG1 and, where it names one, a port pair (R541). -/
def raise (s : State) (id a0 a1 : Nat) (pair : Option Nat) : State := raiseAt s (rungOf s id) id a0 a1 pair

/-- Raise an event that names no port pair. -/
def raise0 (s : State) (id a0 : Nat) : State := raise s id a0 0 none

/-- Count (R8): a wrap sets its wrap bit and raises CNT_WRAP when it is the first after 1 s without one (R549, R551). -/
def State.bump (s : State) (off n : Nat) : State :=
  if s.wouldWrap off n then
    let s' := s.bumpRaw off n
    let first := match s.cnt.lastWrap with
      | none => true
      | some t => decide (tps ≤ s.clk - t)
    let s' := { s' with cnt := { s'.cnt with lastWrap := some s.clk } }
    if first then raise0 s' 0x8001 (ctrNumber off) else s'
  else s.bumpRaw off n

/-- Count one. -/
def State.inc (s : State) (off : Nat) : State := s.bump off 1

/-- Raise an event that stands for a burst: only the first after 1 s without one, the time of the last kept under a
key of the given map. Answers whether it is the first. -/
def firstInSecond (s : State) (last : SMap Nat) (key : Nat) : Bool :=
  match mget key last with
  | none => true
  | some t => decide (tps ≤ s.clk - t)

/-- Every port pair is quiesced, or this one (R540). -/
def State.quiesced (s : State) (k : Nat) : Bool :=
  s.flag Reg.EVT_STS_QDEV || s.zeroised || nbit (s.rd Reg.EVT_QUIESCE_PORTS).toNat k

end Sys2Proof.Machine
end

