-- ==== Sys2Proof/Machine/Masked.lean ====
section
/-! DEFINITION. The masked cipher core (08, R292 to R297): AES on two Boolean shares with fresh random bits in every round, the
core's load of a key and of the powers of H, its work on one slice, and the splicer's merge of the slices (R312). -/

namespace Sys2Proof.Machine

/-! ### AES on shares (R293, R295) -/

/-- The value that two shares hold: their exclusive or (R293). -/
def Shares.value {n : Nat} (x : Shares n) : BitVec n := x.a ^^^ x.b

/-- A value in two shares under a mask. -/
def shared {n : Nat} (x mask : BitVec n) : Shares n := { a := x ^^^ mask, b := mask }

/-- The same value under another mask (R295). -/
def Shares.remask {n : Nat} (x : Shares n) (mask : BitVec n) : Shares n := { a := x.a ^^^ mask, b := x.b ^^^ mask }

/-- Two shares as byte strings. -/
abbrev ByteShares := List Byte × List Byte

/-- A linear step works on each share alone. -/
def eachShare (f : List Byte → List Byte) (x : ByteShares) : ByteShares := (f x.1, f x.2)

/-- Exclusive or of two values in shares. -/
def xorShares (x y : ByteShares) : ByteShares := (xorBytes x.1 y.1, xorBytes x.2 y.2)

/-- The S-boxes on shares, with fresh random bytes (R293). The rule gives their result, not their gates: the new shares are the fresh
bytes and the S-boxes' output under them (log 88). -/
def maskedSub (fresh : List Byte) (x : ByteShares) : ByteShares := (fresh, xorBytes ((xorBytes x.1 x.2).map aesSub) fresh)

/-- The 256 fresh bits of round r for the 16 S-boxes of the state (log 88). -/
def stateMask (gen : Nat → BitVec 256) (r : Nat) : List Byte := (toBe 32 (gen r).toNat).take 16

/-- The fresh bits of the round that makes word i of the key schedule, for its four S-boxes (log 88). -/
def keyMask (gen : Nat → BitVec 256) (i : Nat) : List Byte := sub (toBe 32 (gen (i / 4)).toNat) 16 4

/-- One word of the key schedule in shares: word i from those before it, newest first (R295; FIPS 197). -/
def maskedKeyWord (gen : Nat → BitVec 256) (nk : Nat) (ws : List ByteShares) (i : Nat) : List ByteShares :=
  let t := ws.headD ([], [])
  let rcon : Byte := (List.range (i / nk - 1)).foldl (fun c _ => aesXtime c) 1
  let t := if i % nk = 0 then
      (let u := maskedSub (keyMask gen i) (eachShare (fun w => w.drop 1 ++ w.take 1) t)
       (u.1, xorBytes u.2 [rcon, 0, 0, 0]))
    else if 6 < nk ∧ i % nk = 4 then maskedSub (keyMask gen i) t else t
  xorShares (ws.getD (nk - 1) ([], [])) t :: ws

/-- Bytes of a key's share: all 32, or the low 16 of a 128-bit key. -/
def keyBytes (is256 : Bool) (k : BitVec 256) : List Byte := if is256 then toBe 32 k.toNat else toBe 16 (k.truncate 128).toNat

/-- The round keys in shares. -/
def maskedKeys (is256 : Bool) (key : Shares 256) (gen : Nat → BitVec 256) : List ByteShares :=
  let nk := if is256 then 8 else 4
  let first := ((List.range nk).map (fun i => (sub (keyBytes is256 key.a) (4 * i) 4, sub (keyBytes is256 key.b) (4 * i) 4))).reverse
  let ws := (((List.range (4 * (nk + 7) - nk)).map (· + nk)).foldl (maskedKeyWord gen nk) first).reverse
  (List.range (nk + 7)).map (fun r =>
    let q := (ws.drop (4 * r)).take 4
    ((q.map (fun w => w.1)).flatten, (q.map (fun w => w.2)).flatten))

/-- Rounds of a key: each takes 256 fresh bits (R291, R293). -/
def aesRoundCount (is256 : Bool) : Nat := if is256 then 14 else 10

/-- One block through the masked forward cipher (R293): the state stays in shares to the end. -/
def maskedEnc (is256 : Bool) (key : Shares 256) (gen : Nat → BitVec 256) (x : Shares 128) : Shares 128 :=
  let last := aesRoundCount is256
  let st := (maskedKeys is256 key gen).zipIdx.foldl (fun (st : ByteShares) p =>
    if p.2 = 0 then xorShares st p.1
    else
      let st := eachShare (aesShift false) (maskedSub (stateMask gen p.2) st)
      xorShares (if p.2 = last then st else eachShare (aesMix [2, 3, 1, 1]) st) p.1) (blockBytes x.a, blockBytes x.b)
  { a := bytesBlock st.1, b := bytesBlock st.2 }

/-! ### The core (R293 to R297) -/

/-- The core's next 256 fresh bits, n draws from now: its mask generator runs from its seed (R294). -/
def Core.fresh (c : Core) (n : Nat) : BitVec 256 := Config.maskBits c.seed (c.drawn + n)

/-- A core that holds no key, no powers of H and no state (R295). -/
def Core.wipe (c : Core) : Core := bareCore c

/-- Load the key of a slot: what the core held is zeroised, and the key's shares are masked anew (R295). -/
def Core.load (c : Core) (i : Nat) (x : Slot) : Core :=
  { c.wipe with key := x.key.remask (c.fresh 0), keyOf := some i, powers := x.powers, drawn := c.drawn + 1 }

/-- Load a key alone, as the cores of the utility cipher engine do (R295, R459). -/
def Core.loadKey (c : Core) (key : Shares 256) : Core :=
  { c.wipe with key := key.remask (c.fresh 0), drawn := c.drawn + 1 }

/-- One block on the core: its output leaves recombined, its state register keeps the shares (R293). -/
def Core.run (c : Core) (is256 : Bool) (x : BitVec 128) : BitVec 128 × Core :=
  let out := maskedEnc is256 c.key (fun r => c.fresh (r - 1)) { a := x, b := 0 }
  (out.value, { c with block := out, drawn := c.drawn + aesRoundCount is256 })

/-- A string of blocks on the core, in order. -/
def Core.runAll (c : Core) (is256 : Bool) : List (BitVec 128) → List (BitVec 128) × Core
  | [] => ([], c)
  | x :: xs =>
    let o := c.run is256 x
    let r := Core.runAll o.2 is256 xs
    (o.1 :: r.1, r.2)

/-- The powers H to H^16 of a hash subkey (R297). -/
def hashPowers (h : BitVec 128) : List (BitVec 128) :=
  ((List.range 15).foldl (fun (ps : List (BitVec 128)) _ => gfMul (ps.headD 0) h :: ps) [h]).reverse

/-- The key and the powers of H as a resident slot holds them, in shares under random bits (R293, R297). -/
def slotShares (is256 : Bool) (key seed : BitVec 256) : Shares 256 × List (Shares 128) :=
  (shared key (Config.maskBits seed 0),
   (hashPowers (aesEnc is256 key 0)).zipIdx.map (fun p => shared p.1 ((Config.maskBits seed (p.2 + 1)).truncate 128)))

/-- The power H^n. -/
def powerOf (ps : List (Shares 128)) (n : Nat) : BitVec 128 := (ps.getD (n - 1) { a := 0, b := 0 }).value

/-! ### A job of the farm, its slices and their merge (R302, R305, R312) -/

/-- What the farm does for a frame: its IV, its AAD and the bytes of its encrypted region as they come. -/
structure Job where
  iv : List Byte
  aad : List Byte
  src : List Byte
  decrypt : Bool
  deriving DecidableEq, Repr

/-- Blocks of the padded AAD. -/
def Job.aadBlocks (j : Job) : Nat := (j.aad.length + 15) / 16

/-- Hashed blocks (R302). -/
def Job.hashed (j : Job) : Nat := j.aadBlocks + (j.src.length + 15) / 16

/-- Slices: one at least (R302). -/
def Job.slices (j : Job) : Nat := max 1 ((j.hashed + 15) / 16)

/-- Hashed blocks of slice i. -/
def Job.sliceBlocks (j : Job) (i : Nat) : Nat := min j.hashed (16 * i + 16) - 16 * i

/-- The first encrypted block of slice i, and the one after its last (R302). -/
def Job.encBlocks (j : Job) (i : Nat) : Nat × Nat :=
  let a := j.aadBlocks
  (max a (16 * i) - a, max a (16 * i + j.sliceBlocks i) - a)

/-- The counter blocks of slice i: block e, counted from 0, has count e + 2; the last slice adds J0 (R302, R305). -/
def Job.counters (j : Job) (i : Nat) : List (BitVec 128) :=
  let e := j.encBlocks i
  ((List.range (e.2 - e.1)).map (fun n => bytesBlock (j.iv ++ toBe 4 (e.1 + n + 2)))) ++
    (if i + 1 = j.slices then [bytesBlock (j.iv ++ toBe 4 1)] else [])

/-- What a core returns for a slice (R312): its output bytes, its partial value, and AES_K(J0) with the last slice. -/
def Core.slice (c : Core) (is256 : Bool) (j : Job) (i : Nat) : Part × Core :=
  let e := j.encBlocks i
  let src := sub j.src (16 * e.1) (16 * (e.2 - e.1))
  let r := c.runAll is256 (j.counters i)
  let out := xorBytes src ((r.1.take (e.2 - e.1)).flatMap blockBytes)
  let hashed := (((blocks j.aad).drop (16 * i)).take 16) ++ blocks (if j.decrypt then src else out)
  ({ out := out, z := ghashBlocks (powerOf c.powers 1) hashed, j0 := if i + 1 = j.slices then r.1.getLastD 0 else 0 }, r.2)

/-- The splicer's merge: partial values in slice order, the length block and AES_K(J0) (R312). -/
def Job.merge (j : Job) (ps : List (Shares 128)) (part : Nat → Part) : BitVec 128 :=
  let acc := (List.range (j.slices - 1)).foldl (fun acc n => gfMul acc (powerOf ps (j.sliceBlocks (n + 1))) ^^^ (part (n + 1)).z) (part 0).z
  let len := bytesBlock (toBe 8 (8 * j.aad.length) ++ toBe 8 (8 * j.src.length))
  gfMul (acc ^^^ len) (powerOf ps 1) ^^^ (part (j.slices - 1)).j0

/-- The output bytes of all slices in order (R312). -/
def Job.output (j : Job) (part : Nat → Part) : List Byte := (List.range j.slices).flatMap (fun i => (part i).out)

/-- The whole construction in one: the output, and the tag of R305. -/
def Job.whole (j : Job) (is256 : Bool) (key : BitVec 256) : List Byte × BitVec 128 :=
  let out := ctrCrypt is256 key j.iv j.src
  (out, gcmTag is256 key j.iv j.aad (if j.decrypt then j.src else out))

end Sys2Proof.Machine
end

