-- ==== Sys2Proof/Machine/LineCode.lean ====
section
/-! DEFINITION. What a lane puts on its pair: bits in the order sent, NRZ and Gray-coded PAM4 symbols (R103, R104), the additive
scramblers of training frames, lane frames and cells (R112, R163, R474), and the test patterns (R124). -/

namespace Sys2Proof.Machine

/-! ### Bits and symbols -/

/-- The bits of a byte string in the order sent: bit 7 of a byte first (R104). -/
def bitsOf (bs : List Byte) : List Bool := bs.flatMap (fun b => (List.range 8).map (fun i => b.getMsbD i))

/-- The number that bits spell, the first the most significant. -/
def bitsNum (l : List Bool) : Nat := l.foldl (fun a b => 2 * a + b2n b) 0

/-- Bits as bytes, the first bit in bit 7; fewer than eight bits at the end make no byte. -/
def bytesOf : List Bool → List Byte
  | a :: b :: c :: d :: e :: f :: g :: h :: r => BitVec.ofNat 8 (bitsNum [a, b, c, d, e, f, g, h]) :: bytesOf r
  | _ => []

/-- The level of a bit pair under the Gray code of R104, the first bit the more significant. -/
def grayLevel : Bool → Bool → Int
  | false, false => -3
  | false, true => -1
  | true, true => 1
  | true, false => 3

/-- The bit pair of a PAM4 level (R104). -/
def grayBits (v : Int) : List Bool :=
  if v = -3 then [false, false] else if v = -1 then [false, true] else if v = 1 then [true, true] else [true, false]

/-- Bits as PAM4 symbols (R104). -/
def pam4Of : List Bool → List Symbol
  | a :: b :: r => .pam4 (grayLevel a b) :: pam4Of r
  | _ => []

/-- Bits as the symbols of a rung: NRZ at rungs 1 and 2, PAM4 at rungs 3 and 4 (R103). -/
def symbolsOf (rung : Nat) (l : List Bool) : List Symbol := if rung ≤ 2 then l.map .nrz else pam4Of l

/-- The bits of received symbols, PAM4 after Gray decoding (R104, R126). -/
def symbolBits (l : List Symbol) : List Bool := l.flatMap (fun x => match x with | .nrz b => [b] | .pam4 v => grayBits v)

/-- A swapped pair: NRZ inverts, PAM4 negates its level (R113). -/
def swapSymbol : Symbol → Symbol
  | .nrz b => .nrz (!b)
  | .pam4 v => .pam4 (-v)

/-- Bits behind a swapped pair: every bit inverts at rungs 1 and 2, the first of each pair at rungs 3 and 4 (R113). -/
def flipPairs : List Bool → List Bool
  | a :: b :: r => (!a) :: b :: flipPairs r
  | r => r.map not

/-- Bits of a lane at a rung with P and N swapped (R113). -/
def flipBits (rung : Nat) (l : List Bool) : List Bool := if rung ≤ 2 then l.map not else flipPairs l

/-! ### Additive scramblers -/

/-- One step of an additive scrambler whose register has n bits: f is the exclusive or of the taps, and is shifted in (R163). -/
def scramNext (n : Nat) (taps : List Nat) (r : Nat) : Bool × Nat :=
  let f := taps.foldl (fun a t => a != nbit r t) false
  (f, (2 * r + b2n f) % 2 ^ n)

/-- Scramble bits, or descramble them: the two are one. -/
def scramble (n : Nat) (taps : List Nat) : Nat → List Bool → List Bool
  | _, [] => []
  | r, b :: bs => let x := scramNext n taps r; (b != x.1) :: scramble n taps x.2 bs

/-- Bytes with those from position i scrambled. -/
def scrambleFrom (i n : Nat) (taps : List Nat) (r : Nat) (bs : List Byte) : List Byte :=
  bs.take i ++ bytesOf (scramble n taps r (bitsOf (bs.drop i)))

/-- The scrambler of a training frame, x^13 + x^12 + x^2 + x + 1, all ones at the first bit of byte 4 (R112; the register's form
is that of R163, log 77). -/
def ktfScramble (bs : List Byte) : List Byte := scrambleFrom 4 13 [12, 11, 1, 0] 0x1FFF bs

/-- The scrambler of R163 from byte i on, loaded with a lane number over fifteen ones. -/
def laneScramble (i lane : Nat) (bs : List Byte) : List Byte := scrambleFrom i 23 [22, 17] (lane % 256 * 2 ^ 15 + 0x7FFF) bs

/-- The scrambler of a Korone lane frame: bytes 8 on, loaded with its LANE_ID (R163). -/
def korScramble (laneId : Nat) (bs : List Byte) : List Byte := laneScramble 8 laneId bs

/-- The scrambler of a Gwelek cell: bytes 12 on, loaded with the lane's number within its link (R474). -/
def cellScramble (lane : Nat) (bs : List Byte) : List Byte := laneScramble 12 lane bs

/-! ### Test patterns (R124) -/

/-- Register length and taps of a pattern made by a shift register: PRBS7, 9, 13, 15, 23, 31, and the PAM4 forms of 13 and 31
(PRESUMED, log 78: the usual polynomials). -/
def patternTaps (code : Nat) : Option (Nat × List Nat) :=
  match code with
  | 0 => some (7, [6, 5]) | 1 => some (9, [8, 4]) | 2 => some (13, [12, 11, 1, 0]) | 3 => some (15, [14, 13])
  | 4 => some (23, [22, 17]) | 5 => some (31, [30, 27]) | 6 => some (13, [12, 11, 1, 0]) | 7 => some (31, [30, 27])
  | _ => none

/-- The next bit of a pattern and its generator's next state: a shift register, SQUARE8 by place, or SSPRQ by place, whose bits
are no rule's (log 78). -/
def patternNext (code g : Nat) : Bool × Nat :=
  match patternTaps code with
  | some (n, taps) => scramNext n taps g
  | none => if code = 9 then (decide (g % 16 < 8), (g + 1) % 16) else (Config.ssprq g, (g + 1) % 131070)

/-- The next n bits of a pattern, and the generator's state after them. -/
def patternRun (code : Nat) : Nat → Nat → List Bool × Nat
  | 0, g => ([], g)
  | n + 1, g => let x := patternNext code g; let r := patternRun code n x.2; (x.1 :: r.1, r.2)

/-- A state in which a generator can stand: a shift register is never all zero. -/
def patternSeed (code v : Nat) : Nat :=
  match patternTaps code with
  | some (n, _) => 1 + v % (2 ^ n - 1)
  | none => if code = 9 then v % 16 else v % 131070

/-- Bits that a pattern can hold, its own inversion taken out: a shift register's, from the state that the first bits show; by
place, from some place (R126). -/
def inPattern (code : Nat) (l : List Bool) : Bool :=
  match patternTaps code with
  | some (n, _) =>
    let g := bitsNum (l.take n)
    decide (g ≠ 0) && decide ((patternRun code (l.length - n) g).1 = l.drop n)
  | none => (List.range (if code = 9 then 16 else 131070)).any (fun g => decide ((patternRun code l.length g).1 = l))

end Sys2Proof.Machine
end

