-- ==== Sys2Proof/Machine/Keys.lean ====
section
/-! DEFINITION. Derived keys (R434, R435): the life-cycle state and owner slot that they depend on (R437), and the keys of
associations, blobs, the counter tree, memory regions and the device's identity. -/

namespace Sys2Proof.Machine

/-- The live slot: VALID burnt and RELEASED not (R437). -/
def liveSlot (o : Otp) : Option Nat := (List.range 4).find? (fun i => o.valid.getLsbD i && !o.released.getLsbD i)

/-- LC_CODE (R437): the first line that applies. -/
def lcCode (o : Otp) : Nat :=
  if o.endFuse then 5 else if o.ret then 4 else if (liveSlot o).isSome then 3 else if o.blank then 2 else 1

/-- The owner slot in the life cycle, 0xFF when there is none (R434): the live slot counts in OWNED. -/
def slotByte (o : Otp) : Nat := if lcCode o = 3 then (liveSlot o).getD 0xFF else 0xFF

/-- K_LC (R434), from the shares in which the vault holds OTP_ROOT and BBS (R430). -/
def lifeKey (v : Vlt) : BitVec 256 :=
  (kdf (v.root.value ++ v.secret.value) [0x4C, 0x43, 0x59, 0x43] (toBe 1 (lcCode v.otp) ++ toBe 1 (slotByte v.otp)) 256).extractLsb' 256 256

/-- The association wrap key (R435). -/
def wrapKeyOf (v : Vlt) : BitVec 256 := kdf256 (lifeKey v) [0x41, 0x53, 0x57, 0x4B] []

/-- The blob key (R435). -/
def blobKeyOf (v : Vlt) : BitVec 256 := kdf256 (lifeKey v) [0x42, 0x4C, 0x4F, 0x42] []

/-- The tree key of a MEMORY_EPOCH (R408, R435). -/
def treeKeyOf (v : Vlt) (epoch : BitVec 64) : BitVec 256 := kdf256 (lifeKey v) [0x4D, 0x54, 0x52, 0x45] (toBe 8 epoch.toNat)

/-- The context of a region's keys: MEMORY_EPOCH, LABEL, NONCE and GEN (R408, R435). -/
def regionContext (epoch : BitVec 64) (label : Nat) (nonce : BitVec 64) (gen : Nat) : List Byte :=
  toBe 8 epoch.toNat ++ toBe 2 label ++ toBe 8 nonce.toNat ++ toBe 2 gen

/-- A region's encryption key and MAC key (R435). -/
def regionKeysOf (v : Vlt) (context : List Byte) : GuardKeys :=
  { enc := kdf256 (lifeKey v) [0x4D, 0x45, 0x4E, 0x43] context, mac := kdf256 (lifeKey v) [0x4D, 0x4D, 0x41, 0x43] context }

/-- The identity value (R435, R451). -/
def identityOf (v : Vlt) : BitVec 448 :=
  (kdf (v.root.value ++ 0#256) [0x49, 0x44, 0x4E, 0x54] [0x32, 0x64] 448).extractLsb' 64 448

/-- The identity private key (R452). -/
def identityKey (c : BitVec 448) : BitVec 384 := BitVec.ofNat 384 (c.toNat % (p384Order - 1) + 1)

end Sys2Proof.Machine
end

