-- ==== Sys2Proof/Machine/Lines.lean ====
section
/-! DEFINITION. Line protection in external memory (11): the address map (R391, R395), regions and roles (R396, R409, R413), the
counters and the tree (R398, R401 to R407), the cipher inputs, the line cipher and the MACs (R399, R400), the keys (R408), and what
the guard writes to external memory. `Mgd.lines` holds the data space as the clients see it; what stands in external memory
follows from it, from the counters and from the keys, and every write shows it outside. -/

namespace Sys2Proof.Machine

/-- Change the memory guard. -/
def State.modMgd (s : State) (f : Mgd → Mgd) : State := { s with mgd := f s.mgd }

/-- Change the retention store. -/
def State.modRet (s : State) (f : Retention → Retention) : State := s.modMgd (fun m => { m with ret := f m.ret })

/-! ### The address map -/

/-- Populated subchannels for a SUBCH code (R391). -/
def subchannels (c : Nat) : Nat := if c = 0 then 1 else if c = 1 then 2 else if c = 2 then 4 else 0

/-- GiB of each for a CAP code (R391). -/
def capGib (c : Nat) : Nat := if c = 0 then 2 else if c = 1 then 4 else if c = 2 then 8 else 0

/-- Capacity C in bytes. -/
def State.memC (s : State) : Nat := s.get Reg.MGD_DDR_STS_C_GIB * 2 ^ 30

/-- Size D of the data space (R395). -/
def State.memD (s : State) : Nat := 27 * s.memC / 32

/-- Pages of the data space. -/
def State.memPages (s : State) : Nat := s.memD / 4096

/-- Nodes of each tree level in memory, level 1 first: up to the first level of 8 nodes or fewer (R403). -/
def treeLevels : Nat → Nat → List Nat
  | 0, _ => []
  | fuel + 1, n => let k := (n + 7) / 8; if k ≤ 8 then [k] else k :: treeLevels fuel k

/-- Tree levels over P pages. -/
def State.levels (s : State) : List Nat := treeLevels 12 s.memPages

/-- Physical offset of node i of tree level k (R395, R403). -/
def State.nodeOffset (s : State) (k i : Nat) : Nat :=
  let d := s.memD
  d + d / 64 + d / 8 + d / 512 + 64 * ((s.levels.take (k - 1)).foldl (· + ·) 0) + 64 * i

/-- Physical offset of the line at a level of the path of data line j: 0 the line, 1 its MAC line, 2 the counter block,
3 its MAC line, 0x10 + k the node of level k (R395, R428). -/
def State.pathOffset (s : State) (level j : Nat) : Nat :=
  let d := s.memD
  let p := j / 64
  let m1 := d + d / 64
  let m2 := m1 + d / 8
  if level = 0 then 64 * j
  else if level = 1 then (m1 + 8 * j) / 64 * 64
  else if level = 2 then d + 64 * p
  else if level = 3 then (m2 + 8 * p) / 64 * 64
  else s.nodeOffset (level - 16) (p / 8 ^ (level - 16))

/-! ### Regions and roles -/

/-- STATE of a region (R409): 0 OFF, 1 HELD, 2 SERVICE, 3 CHANGEOVER, 4 FAULT. -/
def State.rgnState (s : State) (r : Nat) : Nat := s.get (Reg.MGD_RGN_STS_STATE r)

/-- Base of a region in units of 2 MiB. -/
def State.rgnBase (s : State) (r : Nat) : Nat := s.get (Reg.MGD_RGN_BASE_VALUE r)

/-- Size of a region in units of 2 MiB. -/
def State.rgnSize (s : State) (r : Nat) : Nat := s.get (Reg.MGD_RGN_SIZE_VALUE r)

/-- A region is served: SERVICE or CHANGEOVER, its keys not zeroised (R409, R426). -/
def State.served (s : State) (r : Nat) : Bool := (decide (s.rgnState r = 2) || decide (s.rgnState r = 3)) && !s.mgd.keysGone

/-- Number of 64-byte lines in 2 MiB. -/
def unitLines : Nat := 32768

/-- The region that holds a data line. -/
def State.regionOf (s : State) (line : Nat) : Option Nat :=
  (List.range 8).find? (fun r => decide (s.rgnBase r * unitLines ≤ line) && decide (line < (s.rgnBase r + s.rgnSize r) * unitLines))

/-- A client may reach a data line (R396, R409). -/
def State.reachable (s : State) (line : Nat) : Bool := match s.regionOf line with | some r => s.served r | none => false

/-- 64 zero bytes: what an unwritten line reads as (R404). -/
def zeroLine : List Byte := List.replicate 64 0

/-- A data line as its clients read it. -/
def State.lineAt (s : State) (line : Nat) : List Byte := mlook zeroLine line s.mgd.lines

/-- n data lines from a line on. -/
def State.linesAt (s : State) (line n : Nat) : List Byte := (List.range n).flatMap (fun i => s.lineAt (line + i))

/-- Offset of the mark table for a store of N records (R410). -/
def markOff (n : Nat) : Nat := (0x100000 + 256 * n + 1048575) / 1048576 * 1048576

/-- Bytes that the store of N records needs (R410). -/
def storeExtent (n : Nat) : Nat := markOff n + 32 * n

/-- The region that a role names, when its VALID is 1 and the region exists. -/
def State.roleRegion (s : State) (valid region : Field) : Option Nat :=
  if s.get valid = 1 ∧ s.get region ≠ 0 ∧ s.rgnSize (s.get region) ≠ 0 then some (s.get region) else none

/-- The region that holds the association store, when the role is defined (R397, R410). -/
def State.storeRegion (s : State) : Option Nat := s.roleRegion Reg.MGD_ROLE_STORE_VALID Reg.MGD_ROLE_STORE_REGION

/-- The region of the blob window, when the role is defined (R397, R413). -/
def State.blobRegion (s : State) : Option Nat := s.roleRegion Reg.MGD_ROLE_BLOB_VALID Reg.MGD_ROLE_BLOB_REGION

/-- The store role names a region that is served. -/
def State.storeServed (s : State) : Bool := match s.storeRegion with | some r => s.served r | none => false

/-! ### Counters and the tree -/

/-- Key of a tree entry. -/
def treeKey (level index : Nat) : Nat := level * 2 ^ 40 + index

/-- The tree entry that no write has reached. -/
def zeroEntry : TreeEntry := { init := false, count := 0 }

/-- Entries on the path of page p, level 1 first, up to the root's. -/
def State.pathKeys (s : State) (p : Nat) : List Nat :=
  (List.range (s.levels.length + 1)).map (fun i => treeKey (i + 1) (p / 8 ^ i))

/-- An entry with its INIT set. -/
def setInit (t : SMap TreeEntry) (k : Nat) : SMap TreeEntry :=
  mstore zeroEntry k { init := true, count := (mlook zeroEntry k t).count } t

/-- Set INIT along the path of a page (R404). -/
def initPath (s : State) (p : Nat) : State :=
  s.modMgd (fun m => { m with tree := (s.pathKeys p).foldl setInit m.tree })

/-- A COUNT rises by one: past 2^54 MGD_TREE_AGED, past its end MGD_COUNTER_END (R407). -/
def countUp (s : State) (k : Nat) : State :=
  let e := mlook zeroEntry k s.mgd.tree
  if e.count + 1 > 2 ^ 55 - 1 then raise0 s 0x6004 0
  else
    let s := s.modMgd (fun m => { m with tree := mstore zeroEntry k { init := e.init, count := e.count + 1 } m.tree })
    if e.count + 1 = 2 ^ 54 then raise0 s 0x6007 0 else s

/-- MINOR of line l of a block. -/
def CtrBlock.minor (b : CtrBlock) (l : Nat) : Nat := mlook 0 l b.minors

/-- The counters after a line write, and whether a minor overflow was handled (R401). -/
def bumpLine (b : CtrBlock) (l : Nat) : CtrBlock × Bool :=
  if b.minor l = 127 then ({ major := b.major + 1, minors := [] }, true)
  else ({ b with minors := mstore 0 l (b.minor l + 1) b.minors }, false)

/-- The counters of a page that its first write makes: MAJOR 0 and each MINOR 0 or 1, which one is left open (R401,
log 1). -/
def firstBlock (v : BitVec 512) : CtrBlock :=
  { major := 0, minors := ((List.range 64).filter (fun l => v.getLsbD l)).map (fun l => (l, 1)) }

/-- The counters of line j. -/
def State.counterOf (s : State) (line : Nat) : Nat × Nat :=
  match mget (line / 64) s.mgd.ctrs with
  | some b => (b.major, b.minor (line % 64))
  | none => (0, 0)

/-! ### The line cipher and the MACs (R399, R400, R408) -/

/-- X: the block that every cipher input of the guard is (R399). -/
def guardBlock (major minor line domain i : Nat) : BitVec 128 :=
  BitVec.ofNat 64 major ++ BitVec.ofNat 8 minor ++ BitVec.ofNat 36 line ++ BitVec.ofNat 2 domain ++ BitVec.ofNat 2 i ++ 0#16

/-- A line under the keystream of its counter; the same step deciphers (R400). -/
def lineCrypt (enc : BitVec 256) (major minor line : Nat) (p : List Byte) : List Byte :=
  xorBytes p ((List.range 4).flatMap (fun i => blockBytes (aesEnc true enc (guardBlock major minor line 0 i))))

/-- The first 64 bits of GHASH of four blocks, exclusive or the pad of X (R400). -/
def guardMac (mac : BitVec 256) (x : BitVec 128) (c : List Byte) : List Byte :=
  (blockBytes (ghashBlocks (aesEnc true mac 0) (blocks c) ^^^ aesEnc true mac x)).take 8

/-- LABEL and NONCE of a region's keys: region 0's NONCE is drawn with it, those of the others stand in their descriptors (R408). -/
def State.regionLabel (s : State) (r : Nat) : Nat × BitVec 64 :=
  match mget r s.mgd.ret.regions with
  | some x => (x.label.toNat, x.nonce)
  | none => (0, s.mgd.nonce0)

/-- The keys of region r in generation gen; region 0 before its first changeover is under the ephemeral pair (R408). -/
def State.regionKeys (s : State) (r gen : Nat) : GuardKeys :=
  if r = 0 ∧ gen = 0 then s.mgd.ephemeral
  else
    let x := s.regionLabel r
    regionKeysOf s.vlt (regionContext s.mgd.ret.epoch x.1 x.2 gen)

/-- The generation of page p of region r: during a changeover the new one below the boundary (R422). -/
def State.pageGen (s : State) (r p : Nat) : Nat :=
  let gen := s.get (Reg.MGD_RGN_STS_GEN r)
  if s.rgnState r = 3 ∧ s.rgnBase r * 512 + s.get Reg.MGD_CHG_STS_BOUNDARY ≤ p then gen - 1 else gen

/-- The keys of a data line. -/
def State.lineKeys (s : State) (line : Nat) : GuardKeys :=
  match s.regionOf line with
  | some r => s.regionKeys r (s.pageGen r (line / 64))
  | none => { enc := 0, mac := 0 }

/-- A data line as external memory holds it (R400). -/
def State.cipherLine (s : State) (line : Nat) : List Byte :=
  let c := s.counterOf line
  lineCrypt (s.lineKeys line).enc c.1 c.2 line (s.lineAt line)

/-- The MAC of an enciphered data line under its present counter (R400). -/
def State.dataMac (s : State) (line : Nat) (cipher : List Byte) : List Byte :=
  let c := s.counterOf line
  guardMac (s.lineKeys line).mac (guardBlock c.1 c.2 line 1 0) cipher

/-- The line of data MACs that holds line j's: those of the eight lines from 8 ⌊j / 8⌋ on (R395). -/
def State.macLine (s : State) (line : Nat) : List Byte :=
  (List.range 8).flatMap (fun i => let j := line / 8 * 8 + i; s.dataMac j (s.cipherLine j))

/-- A counter block as a line (R398). -/
def ctrBytes (b : CtrBlock) : List Byte :=
  toLe 8 b.major ++ toLe 56 ((List.range 64).foldl (fun a l => a + b.minor l * 2 ^ (7 * l)) 0)

/-- Entry e of node i of level k. -/
def State.treeEntry (s : State) (k i e : Nat) : TreeEntry := mlook zeroEntry (treeKey k (8 * i + e)) s.mgd.tree

/-- The 56 bytes of a node's eight entries (R403). -/
def State.nodeEntries (s : State) (k i : Nat) : List Byte :=
  (List.range 8).flatMap (fun e => let x := s.treeEntry k i e; toLe 7 (b2n x.init * 2 ^ 55 + x.count))

/-- The MAC of a metadata line under its parent's COUNT: the counter block of page i with k = 0, else node i of level k, whose bytes
56 to 63 are taken as zero (R399, R400). -/
def State.metaMac (s : State) (k i : Nat) (bytes : List Byte) : List Byte :=
  let parent := mlook zeroEntry (treeKey (k + 1) i) s.mgd.tree
  let off := if k = 0 then s.memD + 64 * i else s.nodeOffset k i
  guardMac (treeKeyOf s.vlt s.mgd.ret.epoch) (guardBlock parent.count 0 (off / 64) 2 0)
    (if k = 0 then bytes else bytes.take 56 ++ List.replicate 8 0)

/-- The counter block of page p as external memory holds it. -/
def State.blockLine (s : State) (p : Nat) : List Byte := ctrBytes ((mget p s.mgd.ctrs).getD { major := 0, minors := [] })

/-- The line of counter-block MACs that holds page p's (R395). -/
def State.blockMacLine (s : State) (p : Nat) : List Byte :=
  (List.range 8).flatMap (fun i => let q := p / 8 * 8 + i; s.metaMac 0 q (s.blockLine q))

/-- A node as external memory holds it: its entries and its MAC. -/
def State.nodeLine (s : State) (k i : Nat) : List Byte := s.nodeEntries k i ++ s.metaMac k i (s.nodeEntries k i)

/-- What external memory returns for a line of a path agrees with the counters that the guard trusts (R416): a data line with its
MAC, a counter block with its MAC, or a node, which carries its own. Levels are those of MGD_HALT_REC (R428). -/
def State.authentic (s : State) (level : Nat) (m : MemRead) : Bool :=
  let p := m.line / 64
  if level < 2 then decide (s.dataMac m.line m.data = m.mac)
  else if level < 16 then decide (s.metaMac 0 p m.data = m.mac)
  else decide (s.metaMac (level - 16) (p / 8 ^ (level - 16)) m.data = m.mac)

/-! ### What the guard writes (R401, R404, R406, R418) -/

/-- A line goes to external memory at a physical offset. -/
def State.store (s : State) (off : Nat) (bytes : List Byte) : State := s.emit (.memory off bytes)

/-- A data line and its MAC line go to external memory (R418). -/
def storeLine (s : State) (line : Nat) : State :=
  (s.store (s.pathOffset 0 line) (s.cipherLine line)).store (s.pathOffset 1 line) (s.macLine line)

/-- All 64 lines of a page, and their eight MAC lines (R401, R422). -/
def storePage (s : State) (p : Nat) : State :=
  let s := (List.range 64).foldl (fun s l => s.store (s.pathOffset 0 (64 * p + l)) (s.cipherLine (64 * p + l))) s
  (List.range 8).foldl (fun s i => s.store (s.pathOffset 1 (64 * p + 8 * i)) (s.macLine (64 * p + 8 * i))) s

/-- One guarded line write: its counter, the path above it and its data; the first write of a page and a minor overflow write all
its lines (R401, R404, R417, R418). -/
def writeLine (s : State) (line : Nat) (data : List Byte) : State :=
  let p := line / 64
  let r := match mget p s.mgd.ctrs with
    | none =>
      let (v, s) := s.draw
      (true, initPath (s.modMgd (fun m => { m with ctrs := mput p (firstBlock v) m.ctrs })) p)
    | some b =>
      let (b, ovf) := bumpLine b (line % 64)
      let s := s.modMgd (fun m => { m with ctrs := mput p b m.ctrs })
      (ovf, if ovf then s.inc Reg.MGD_MINOR_OVF else s)
  let s := r.2.modMgd (fun m => { m with
    lines := mstore zeroLine line (padTo 64 (data.take 64)) m.lines,
    dirty := ladd p m.dirty,
    badLines := ldel line m.badLines })
  if r.1 then storePage s p else storeLine s line

/-- A line that an error left unreadable is read: nothing is delivered, and the error is counted and raised (R417). -/
def readFails (s : State) : State := raise0 (s.inc Reg.MGD_UE_DATA_COUNT) 0x6005 0

/-- A write of part of a line: the line is read, verified, merged and written (R402). A line that cannot be read stays as it is until all
of it is written again (R417). -/
def writePart (s : State) (line pos : Nat) (bytes : List Byte) : State :=
  if s.mgd.badLines.contains line ∧ bytes.length < 64 then readFails s else writeLine s line (splice (s.lineAt line) pos bytes)

/-- Write n whole lines from a line on. -/
def writeLines (s : State) (line n : Nat) (bytes : List Byte) : State :=
  (List.range n).foldl (fun s i => writeLine s (line + i) (sub bytes (64 * i) 64)) s

/-- The dirty counter blocks and every node above them are written back: the COUNT of each one's parent entry rises once, and each is
written with its MAC under the new COUNT (R404, R406, R420). -/
def writeBackAll (s : State) : State :=
  let ps := s.mgd.dirty
  let s := (ps.flatMap s.pathKeys).eraseDups.foldl countUp s
  let s := ps.foldl (fun s p => (s.store (s.pathOffset 2 (64 * p)) (s.blockLine p)).store (s.pathOffset 3 (64 * p)) (s.blockMacLine p)) s
  let nodes := (List.range s.levels.length).flatMap (fun k => ((ps.map (fun p => p / 8 ^ (k + 1))).eraseDups).map (fun i => (k + 1, i)))
  (nodes.foldl (fun s n => s.store (s.nodeOffset n.1 n.2) (s.nodeLine n.1 n.2)) s).modMgd (fun m => { m with dirty := [] })

/-- The level-4 entries of a range after its reset: INIT clear, COUNT one higher (R405). -/
def resetEntries (t : SMap TreeEntry) (lo n : Nat) : SMap TreeEntry :=
  (List.range n).map (fun i =>
    let k := treeKey 4 (lo + i)
    (k, { init := false, count := min (2 ^ 55 - 1) ((mlook zeroEntry k t).count + 1) }))

/-- What the COUNT of a range's entries raises at a reset: MGD_TREE_AGED for one that reaches 2^54, MGD_COUNTER_END for one that would pass
its end (R407). -/
def resetAges (s : State) (lo n : Nat) : State :=
  let counts := (List.range n).map (fun i => (mlook zeroEntry (treeKey 4 (lo + i)) s.mgd.tree).count)
  let s := if counts.any (fun c => decide (c + 1 = 2 ^ 54)) then raise0 s 0x6007 0 else s
  if counts.any (fun c => decide (2 ^ 55 - 1 ≤ c)) then raise0 s 0x6004 0 else s

/-- A range reset of n units of 2 MiB from unit lo: the range is unwritten (R405). -/
def rangeReset (s : State) (lo n : Nat) : State :=
  let s := resetAges s lo n
  let hit := fun (unitOf : Nat) => decide (lo ≤ unitOf) && decide (unitOf < lo + n)
  let below := fun (k : Nat) => let l := k / 2 ^ 40; decide (l < 4) && hit (k % 2 ^ 40 * 8 ^ (l - 1) / 512)
  s.modMgd (fun m =>
    let t := m.tree.filter (fun e => !below e.1)
    { m with
      lines := m.lines.filter (fun e => !hit (e.1 / unitLines)),
      ctrs := m.ctrs.filter (fun e => !hit (e.1 / 512)),
      dirty := m.dirty.filter (fun p => !hit (p / 512)),
      badLines := m.badLines.filter (fun j => !hit (j / unitLines)),
      tree := t.filter (fun e => decide (e.1 < treeKey 4 lo)) ++ resetEntries t lo n ++
        t.filter (fun e => decide (treeKey 4 (lo + n) ≤ e.1)) })

end Sys2Proof.Machine
end

