-- ==== Sys2Proof/Machine/Store.lean ====
section
/-! DEFINITION. The association store in guarded memory (07, 11): where the header, the records and the mark table stand (R245, R249,
R410), their layouts (R246, R249), the wrapped key of a record (R247), and reading and writing them. `Asc.recs` holds each
association's record as the device knows it; a resident association's packet number, replay state and counters reach
memory when its slot is written back, everything else with the change itself (R255; log 20). -/

namespace Sys2Proof.Machine

/-- Change the association engine. -/
def State.modAsc (s : State) (f : Asc → Asc) : State := { s with asc := f s.asc }

/-! ### Layouts -/

/-- A record that no INSTALL has written: FREE (R246). -/
def freeRec : Rec :=
  { state := .free, mode := 0, port := 0, flags := 0, ident := 0, an := 0, win := 0, ssci := 0, salt := 0, troupe := none,
    pn := 0, reel := 0, session := 0, keyGen := 0, wrapped := 0, succ := none, map := 0, frames := 0, octets := 0,
    dropPn := 0, dropMissq := 0, dropState := 0, tagFail := 0, rxDup := 0, floor := 0 }

/-- The state of an association as a record and READ code it (R246). -/
def AState.num : AState → Nat
  | .free => 0 | .ready => 1 | .live => 2 | .switched => 3 | .retiring => 4

/-- The state of a code; codes above 4 are invalid, and such a record holds nothing to use (R246, DESIGN CHOICE, log 20). -/
def stateOf (n : Nat) : AState :=
  if n = 1 then .ready else if n = 2 then .live else if n = 3 then .switched else if n = 4 then .retiring else .free

/-- A number with bit 31 for its presence (R246). -/
def optNum (o : Option Nat) : Nat := match o with
  | some v => 2 ^ 31 + v
  | none => 0

/-- What such a number says, its value in w bits. -/
def numOpt (w n : Nat) : Option Nat := if nbit n 31 then some (n % 2 ^ w) else none

/-- Eight bytes, least significant first; a LEASE_END beyond the largest number stands as the largest that 64 bits hold (log 20). -/
def le64 (n : Nat) : List Byte := toLe 8 (min n (2 ^ 64 - 1))

/-- The 256 bytes of the record of index a (R246). -/
def recBytes (a : Nat) (r : Rec) : List Byte :=
  toLe 4 a ++ toLe 1 r.state.num ++ [r.mode, r.port, r.flags] ++ toBe 8 r.ident.toNat ++
  toLe 1 r.an.toNat ++ [0] ++ toLe 2 r.win ++ toBe 4 r.ssci.toNat ++ toBe 12 r.salt.toNat ++ toLe 4 (optNum r.troupe) ++
  le64 r.pn ++ le64 r.reel ++ toLe 4 r.session ++ toLe 4 r.keyGen ++ toBe 48 r.wrapped.toNat ++
  toLe 4 (optNum r.succ) ++ List.replicate 12 0 ++ toLe 64 r.map.toNat ++
  [r.frames, r.octets, r.dropPn, r.dropMissq, r.dropState, r.tagFail, r.rxDup, r.floor].flatMap le64

/-- The number that n bytes from offset i of a record spell. -/
def leAt (bs : List Byte) (i n : Nat) : Nat := le (sub bs i n)

/-- The record that 256 bytes hold (R246). -/
def recOf (bs : List Byte) : Rec :=
  { state := stateOf (byteAt bs 4), mode := bs.getD 5 0, port := bs.getD 6 0, flags := bs.getD 7 0,
    ident := BitVec.ofNat 64 (be (sub bs 8 8)), an := BitVec.ofNat 2 (byteAt bs 16), win := leAt bs 0x12 2,
    ssci := w32 (be (sub bs 0x14 4)), salt := BitVec.ofNat 96 (be (sub bs 0x18 12)), troupe := numOpt 12 (leAt bs 0x24 4),
    pn := leAt bs 0x28 8, reel := leAt bs 0x30 8, session := leAt bs 0x38 4, keyGen := leAt bs 0x3C 4,
    wrapped := BitVec.ofNat 384 (be (sub bs 0x40 48)), succ := numOpt 20 (leAt bs 0x70 4),
    map := BitVec.ofNat 512 (leAt bs 0x80 64), frames := leAt bs 0xC0 8, octets := leAt bs 0xC8 8, dropPn := leAt bs 0xD0 8,
    dropMissq := leAt bs 0xD8 8, dropState := leAt bs 0xE0 8, tagFail := leAt bs 0xE8 8, rxDup := leAt bs 0xF0 8,
    floor := leAt bs 0xF8 8 }

/-- What of a record its resident slot holds alone until a write-back: packet number, replay state and counters, with the lease and
the session that a write-back writes (R246, R255). -/
def Rec.withLive (r x : Rec) : Rec :=
  { r with pn := x.pn, reel := x.reel, session := x.session, map := x.map, floor := x.floor, frames := x.frames, octets := x.octets,
           dropPn := x.dropPn, dropMissq := x.dropMissq, dropState := x.dropState, tagFail := x.tagFail, rxDup := x.rxDup }

/-- A mark entry in the layout of R249. -/
def markBytes (m : Mark) : List Byte :=
  le64 m.mark ++ toLe 4 m.keyGen ++ toLe 4 m.index ++ toLe 8 m.sec.toNat ++ toLe 4 m.ns.toNat ++ toLe 4 0

/-- The mark entry that 32 bytes hold. -/
def markOfBytes (bs : List Byte) : Mark :=
  { mark := leAt bs 0 8, keyGen := leAt bs 8 4, index := leAt bs 12 4 % 2 ^ 20, sec := BitVec.ofNat 48 (leAt bs 16 8),
    ns := w32 (leAt bs 24 4) }

/-- The 64 bytes of the store header (R410). -/
def headerBytes (n session : Nat) : List Byte :=
  padTo 64 (toLe 4 0x53525441 ++ toLe 2 1 ++ toLe 2 0 ++ toLe 4 n ++ toLe 4 session ++ toLe 4 0x100000 ++ toLe 4 (markOff n))

/-! ### The wrapped key (R247) -/

/-- KEY256 of a record's MODE. -/
def Rec.key256 (r : Rec) : Bool := r.mode.getLsbD 4

/-- The 40 bytes of plaintext that a record's key is wrapped with: the key, INDEX and KEY_GEN, little-endian (R11, R247). -/
def keyPlain (is256 : Bool) (key : BitVec 256) (a keyGen : Nat) : List Byte :=
  (if is256 then toBe 32 key.toNat else toBe 16 key.toNat ++ List.replicate 16 0) ++ toLe 4 a ++ toLe 4 keyGen

/-- WRAPPED_KEY: AES-KW under the association wrap key (R247). -/
def wrapRecKey (wrapKey : BitVec 256) (is256 : Bool) (key : BitVec 256) (a keyGen : Nat) : BitVec 384 :=
  BitVec.ofNat 384 (be (kwWrap true wrapKey (keyPlain is256 key a keyGen)))

/-- The key that a record's WRAPPED_KEY unwraps to, when the KW integrity value, INDEX and KEY_GEN are right (R247, R248). -/
def unwrapRecKey (wrapKey : BitVec 256) (a : Nat) (r : Rec) : Option (BitVec 256) :=
  match kwUnwrap true wrapKey (toBe 48 r.wrapped.toNat) with
  | some p => if leAt p 32 4 = a ∧ leAt p 36 4 = r.keyGen then some (BitVec.ofNat 256 (be (p.take (if r.key256 then 32 else 16)))) else none
  | none => none

/-! ### Places in memory (R245, R249, R410) -/

/-- First line of the store in service. -/
def State.storeLine? (s : State) : Option Nat :=
  match s.storeRegion with
  | some r => if s.served r then some (s.rgnBase r * unitLines) else none
  | none => none

/-- First line of record a: it stands 0x0010_0000 + 256a bytes into the store (R245, R410). -/
def State.recLine? (s : State) (a : Nat) : Option Nat := s.storeLine?.map (fun l => l + 16384 + 4 * a)

/-- Line and place within it of mark entry a: MARK_OFF + 32a bytes into the store (R249, R410). -/
def State.markPlace? (s : State) (a : Nat) : Option (Nat × Nat) :=
  s.storeLine?.map (fun l => (l + markOff s.asc.size / 64 + a / 2, a % 2 * 32))

/-- The record of index a as memory holds it. -/
def State.storedRec (s : State) (a : Nat) : Rec :=
  match s.recLine? a with
  | some l => recOf (s.linesAt l 4)
  | none => freeRec

/-- The mark entry of index a as memory holds it. -/
def State.storedMark (s : State) (a : Nat) : Option Mark := s.markPlace? a |>.map (fun p => markOfBytes (sub (s.lineAt p.1) p.2 32))

/-- N and SESSION of the store header, when every other field of it is right (R410, R411). -/
def State.storedHeader (s : State) : Option (Nat × Nat) :=
  s.storeLine?.bind (fun l =>
    let b := s.lineAt l
    let n := leAt b 8 4
    let session := leAt b 12 4
    if b = headerBytes n session then some (n, session) else none)

/-- Write a record into memory. -/
def writeRec (s : State) (a : Nat) (r : Rec) : State :=
  match s.recLine? a with
  | some l => writeLines s l 4 (recBytes a r)
  | none => s

/-- Write a mark entry into the mark table. -/
def writeMark (s : State) (a : Nat) (m : Mark) : State :=
  match s.markPlace? a with
  | some p => writePart s p.1 p.2 (markBytes m)
  | none => s

/-- Write the store header. -/
def writeHeader (s : State) (n session : Nat) : State :=
  match s.storeLine? with
  | some l => writeLine s l (headerBytes n session)
  | none => s

/-- Indices of the records of which memory holds a line. -/
def State.storedIndices (s : State) : List Nat :=
  match s.storeLine? with
  | some l =>
    let lo := l + 16384
    ((s.mgd.lines.filter (fun e => decide (lo ≤ e.1) && decide (e.1 < lo + 4 * s.asc.size))).map (fun e => (e.1 - lo) / 4)).eraseDups
  | none => []

/-- Mark entries from index i on that memory holds, in index order (R249). -/
def State.marksFrom (s : State) (i : Nat) : List Mark :=
  match s.storeLine? with
  | some l =>
    let lo := l + markOff s.asc.size / 64
    let es := s.mgd.lines.filter (fun e => decide (lo ≤ e.1) && decide (e.1 < lo + (s.asc.size + 1) / 2))
    (es.flatMap (fun e => [markOfBytes (sub e.2 0 32), markOfBytes (sub e.2 32 32)])).filter (fun m => decide (m.keyGen ≠ 0) && decide (i ≤ m.index))
  | none => []

/-! ### Records and slots as the device knows them -/

/-- The record of an association. -/
def State.asRec (s : State) (a : Nat) : Rec := mlook freeRec a s.asc.recs

/-- Know a record. -/
def State.setRec (s : State) (a : Nat) (r : Rec) : State := s.modAsc (fun x => { x with recs := mstore freeRec a r x.recs })

/-- Know the records that memory holds (R269, R411). -/
def loadRecs (s : State) : State := s.storedIndices.foldl (fun s a => s.setRec a (s.storedRec a)) s

/-- The resident slot of an association (R253). -/
def State.slotOf (s : State) (a : Nat) : Option (Nat × Slot) := s.asc.slots.find? (fun p => p.2.assoc = a)

/-- Change a resident slot. -/
def State.modSlot (s : State) (i : Nat) (f : Slot → Slot) : State :=
  match mget i s.asc.slots with
  | some x => s.modAsc (fun y => { y with slots := mput i (f x) y.slots })
  | none => s

/-- Change a record, in memory too; what a resident slot alone holds stays there (R250, R255). -/
def State.putRec (s : State) (a : Nat) (r : Rec) : State :=
  let keep := (s.slotOf a).isSome
  let old := s.storedRec a
  writeRec (s.setRec a r) a (if keep then r.withLive old else r)

/-- Change a record by a function. -/
def State.modRec (s : State) (a : Nat) (f : Rec → Rec) : State := s.putRec a (f (s.asRec a))

/-- Change packet number, replay state or counters: in the resident slot, which becomes dirty, else in memory (R255). -/
def State.modLive (s : State) (a : Nat) (f : Rec → Rec) : State :=
  let t := s.setRec a (f (s.asRec a))
  match s.slotOf a with
  | some (i, _) => t.modSlot i (fun x => { x with dirty := true })
  | none => writeRec t a (t.asRec a)

end Sys2Proof.Machine
end

