-- ==== Sys2Proof/Machine/Frames.lean ====
section
/-! DEFINITION. The frames the device holds: looking one up, changing it, its spotlight trace (R557, R558), and letting it
go, with what its buffer and its association gain from that (R250, R337). Buffers and cells in use, and frames in flight,
are read from the list of frames itself, so that no count can differ from it (log 30). -/

namespace Sys2Proof.Machine

/-! ### Frames -/

/-- The frame with an id. -/
def State.frame? (s : State) (id : Nat) : Option Frame := s.sch.frames.find? (fun f => f.id = id)

/-- Change one frame. -/
def State.modFrame (s : State) (id : Nat) (g : Frame → Frame) : State :=
  { s with sch := { s.sch with frames := s.sch.frames.map (fun f => if f.id = id then g f else f) } }

/-- Take a frame out of the device. -/
def State.delFrame (s : State) (id : Nat) : State :=
  { s with sch := { s.sch with frames := s.sch.frames.filter (fun f => f.id ≠ id) } }

/-- Write a frame into the device, behind every other. -/
def State.addFrame (s : State) (f : Frame) : State :=
  { s with sch := { s.sch with frames := s.sch.frames ++ [f], nextId := s.sch.nextId + 1 } }

/-- A frame past packet-number assignment or lookup that counts as in flight (R250). -/
def Frame.flying (f : Frame) : Bool :=
  match f.stage with
  | .lookup => false | .missq => false
  | .lease => true | .follow => true | .farm => true | .queued => true | .slotted => true | .sending => true
  | .ended => true

/-- Frames of an association in flight (R250). -/
def State.inFlight (s : State) (a : Nat) : Nat :=
  (s.sch.frames.filter (fun f => decide (f.assoc = some a) && f.flying)).length

/-- Buffers of pool p that owner o holds (R334). -/
def State.used (s : State) (o p : Nat) : Nat :=
  (s.sch.frames.filter (fun f => decide (f.owner = o) && decide (f.pool = some p))).length

/-- Cells that a class holds (R336): frames in cell chains, and for class 2 the cue frames kept (R197). -/
def State.cellsOf (s : State) (c : Nat) : Nat :=
  s.sch.frames.foldl (fun a f => if f.cls = c then a + f.cells else a) 0 +
    (if c = 2 then s.kor.foldl (fun a p => a + p.2.cueRx.foldl (fun b m => b + (m.length + 63) / 64) 0) 0 else 0)

/-- The last frame of a retiring association has gone: its key is zeroised and it is FREE (R250). -/
def settleRetire (s : State) (a : Nat) : State :=
  let r := s.asRec a
  if r.state = .retiring ∧ s.inFlight a = 0 then
    let s := s.putRec a { r with state := .free, wrapped := 0 }
    { s with asc := { s.asc with
      slots := s.asc.slots.filter (fun p => p.2.assoc ≠ a),
      persists := mdel a s.asc.persists,
      faulty := ldel a s.asc.faulty } }
  else s

/-! ### Spotlight -/

/-- Stamp a stage of a tagged frame (R558). -/
def Frame.mark (f : Frame) (stamp : Word) (stage : Nat) : Frame :=
  match f.traced with
  | some l => { f with traced := some (l.set (stage - 1) stamp), stages := f.stages ||| BitVec.ofNat 12 (2 ^ (stage - 1)) }
  | none => f

/-- Stamp a stage of the frame with this id. -/
def State.mark (s : State) (id stage : Nat) : State :=
  if (s.frame? id).any (fun f => f.traced.isSome) then s.modFrame id (fun f => f.mark s.stamp stage) else s

/-- The 16 words of a trace (R558). -/
def traceWords (s : State) (f : Frame) (outcome : Nat) : List Word :=
  [w32 ((match f.dir with | .enc => 0 | .dec => 1) * 2 ^ 31 + f.n % 64 * 2 ^ 25 + f.m % 64 * 2 ^ 19 + outcome * 2 ^ 16 +
      f.stages.toNat * 2 ^ 4),
   w32 (f.action.toNat * 2 ^ 30 + (f.assoc.getD 0) % 2 ^ 20)] ++ (f.traced.getD []) ++
  [w32 (f.bytes.length % 65536), s.cnt.traceSeq]

/-- Write a tagged frame's trace: a full ring loses it, or with WRAP its oldest, and raises SPT_FULL once (R558). -/
def putTrace (s : State) (f : Frame) (outcome : Nat) : State :=
  if f.traced.isNone then s
  else
    let words := traceWords s f outcome
    let head := s.cnt.sptHead
    let tail := s.get Reg.SPT_TAIL_INDEX
    let full := decide ((head + 1) % 4096 = tail)
    let s := { s with cnt := { s.cnt with traceSeq := s.cnt.traceSeq + 1 } }
    let s := if full then s.inc Reg.SPT_LOST else s
    let s := if full ∧ s.cnt.sptFullRaised = false then
        raise0 { s with cnt := { s.cnt with sptFullRaised := true } } 0xC001 0 else s
    if full ∧ s.flag Reg.SPT_CFG_WRAP = false then s
    else
      let s := { s with cnt := { s.cnt with traces := mput head words s.cnt.traces } }
      let s := { s with cnt := { s.cnt with sptHead := (head + 1) % 4096 } }
      if full then s.set Reg.SPT_TAIL_INDEX ((tail + 1) % 4096) else s

/-! ### Letting a frame go -/

/-- Number of the pool of cells beside the eight pools of buffers. -/
abbrev cellPool : Nat := 8

/-- Buffer or cell i of pool p is freed: its state bit clears; a free of one whose bit is clear already is ignored, counted and raised
(R337). ARG0 names the pool and the number in it (log 30). -/
def freeSpot (s : State) (p i : Nat) : State :=
  let l := mlook [] p s.sch.inUse
  if l.contains i then { s with sch := { s.sch with inUse := mstore [] p (ldel i l) s.sch.inUse } }
  else raise0 (s.inc Reg.BPM_DOUBLE_FREE) 0x4001 (p * 2 ^ 20 + i)

/-- Several of one pool are freed. -/
def freeSpots (s : State) (p : Nat) (is : List Nat) : State := is.foldl (fun s i => freeSpot s p i) s

/-- The lowest number of a list's complement. -/
def lowestFree (l : List Nat) : Nat := ((List.range (l.length + 1)).find? (fun i => !l.contains i)).getD 0

/-- Take n buffers or cells of pool p, whose state bits are set (R337): the lowest numbers that are free (log 30). -/
def takeSpots : Nat → State → Nat → List Nat × State
  | 0, s, _ => ([], s)
  | n + 1, s, p =>
    let l := mlook [] p s.sch.inUse
    let i := lowestFree l
    let r := takeSpots n { s with sch := { s.sch with inUse := mstore [] p (ladd i l) s.sch.inUse } } p
    (i :: r.1, r.2)

/-- What a frame holds of packet memory is freed (R337). -/
def freeFrame (s : State) (f : Frame) : State := freeSpots s (f.pool.getD cellPool) f.spots

/-- Forget a frame, and settle its association (R250). -/
def forgetFrame (s : State) (id : Nat) : State :=
  match s.frame? id with
  | none => s
  | some f =>
    let s := s.delFrame id
    match f.assoc with
    | some a => settleRetire s a
    | none => s

/-- A frame leaves the device: its trace, its slot, its buffer or cells, and its association's count (R250, R337). A
cut-through frame stays without them until its verdict settles its claim (R320). -/
def releaseFrame (s : State) (id outcome : Nat) : State :=
  match s.frame? id with
  | none => s
  | some f =>
    let s := freeFrame (putTrace s f outcome) f
    let s := { s with
      sch := { s.sch with
        slots := s.sch.slots.map (fun p => (p.1, p.2.filter (fun d => d.frame ≠ id))),
        sending := s.sch.sending.filter (fun p => p.2 ≠ id) },
      asc := { s.asc with missq := s.asc.missq.filter (fun x => x ≠ id) } }
    if f.cut = true ∧ f.tagOk = none then
      s.modFrame id (fun f => { f with
        stage := .ended, pool := none, cells := 0, spots := [], queue := none, debit := none, traced := none })
    else forgetFrame s id

/-- Drop a frame and count it. -/
def dropFrame (s : State) (id ctr : Nat) : State := releaseFrame (s.inc ctr) id 1

/-- Drop every frame of a list, counting each. -/
def dropAll (s : State) (ids : List Nat) (ctr : Nat) : State := ids.foldl (fun s i => dropFrame s i ctr) s

/-- Ids of the frames that satisfy a test. -/
def State.framesWhere (s : State) (p : Frame → Bool) : List Nat := (s.sch.frames.filter p).map (fun f => f.id)

end Sys2Proof.Machine
end

