-- ==== Sys2Proof/Machine/Access.lean ====
section
/-! DEFINITION. Who may change the device: access paths (R47), ownership (R53 to R57), the conditions in which a bus access
is served at all (R520, R546), and what every write passes before it acts. -/

namespace Sys2Proof.Machine

/-- The path code of R47; firmware's own interface has none. -/
def pathCode : Path → Nat
  | .pcie => 1 | .svc => 2 | .fabric => 3 | .firmware => 0

/-- The path a code names. -/
def codePath (c : Nat) : Path := if c = 1 then .pcie else if c = 2 then .svc else if c = 3 then .fabric else .firmware

/-- A path and address match a path code and fabric address: the address counts on the fabric only (R55). -/
def whoIs (who : Who) (code addr : Nat) : Bool :=
  decide (pathCode who.path = code) && decide (code ≠ 0) && (decide (code ≠ 3) || decide (who.addr.toNat = addr))

/-- The device has a ringmaster (R55). -/
def State.owned (s : State) : Bool := decide (s.get Reg.CTL_OWNER_STATE ≠ 0)

/-- This path is the ringmaster. -/
def State.isOwner (s : State) (who : Who) : Bool :=
  s.owned && whoIs who (s.get Reg.CTL_OWNER_OWNER_PATH) (s.get Reg.CTL_OWNER_OWNER_ADDR)

/-- The classes of writes that R53 and R54 tell apart. -/
inductive WriteClass where
  | claim       -- CTL_CLAIM
  | remoteSel   -- CTL_REMOTE_SEL
  | mbxDone     -- CTL_MBX_STATUS.DONE
  | loader      -- the loader registers; which kinds a path may load is the loader's own rule (R74)
  | cntWin      -- CNT_WIN_CMD (R552)
  | fwOwn       -- what the management firmware writes by an interface of its own
  | other
  deriving DecidableEq, Repr

/-- The registers of a command interface of which the management firmware has its own (R231, R286): FLT_CMD, its staging registers,
moves and hits; ASC_CMD, its staging words and its key staging. -/
def bankedReg (off : Nat) : Bool :=
  decide (off = Reg.FLT_CMD) || (decide (Reg.FLT_STAGE_KEY 0 ≤ off) && decide (off < Reg.FLT_HITS 2)) ||
    decide (off = Reg.ASC_CMD) || (decide (Reg.ASC_STAGE 0 ≤ off) && decide (off < Reg.ASC_KEY_STAGE 8))

/-- Where firmware's own copy of such a register stands (log 40). -/
def fwBank : Nat := 0x10000000

/-- A register of the interface that a path uses. -/
def ifc (who : Who) (off : Nat) : Nat := if who.path = .firmware then off + fwBank else off

/-- A field of the interface that a path uses. -/
def ifcField (who : Who) (f : Field) : Field := { f with off := ifc who f.off }

/-- What the management firmware may write by its own interfaces: those of the flow table and of the association engine, and the
utility cipher engine (R231, R286, R459). -/
def firmwareOwn (off : Nat) : Bool := bankedReg off || decide (winOf off = .uce)

/-- The class of a write by its offset. -/
def classOf (off : Nat) : WriteClass :=
  if off = Reg.CTL_CLAIM then .claim
  else if off = Reg.CTL_REMOTE_SEL then .remoteSel
  else if off = Reg.CTL_MBX_STATUS then .mbxDone
  else if off = Reg.CTL_LOAD_CTRL ∨ off = Reg.CTL_LOAD_ADDR ∨ off = Reg.CTL_LOAD_DATA then .loader
  else if off = Reg.CNT_WIN_CMD then .cntWin
  else if firmwareOwn off then .fwOwn
  else .other

/-- The write takes effect (R53, R54). The management firmware is no path of R47: it writes by its own interfaces alone, whatever
the ownership. -/
def State.mayWrite (s : State) (who : Who) (c : WriteClass) : Bool :=
  s.isOwner who ||
    match c with
    | .claim => true
    | .remoteSel => true
    | .mbxDone => s.owned
    | .loader => true
    | .cntWin => true
    | .fwOwn => decide (who.path = .firmware)
    | .other => false

/-- The device is DORMANT (R510). -/
def State.dormant (s : State) : Bool := decide (s.get Reg.GAF_STS_STATE = 3)

/-- Windows served in DORMANT (R520). -/
def dormantOpen (off : Nat) : Bool :=
  match winOf off with
  | .csh => true | .ctl => true | .gaf => true | .aon => true
  | .evt => false | .tim => false | .vlt => false | .uce => false | .lnc => false | .lnl => false | .lnf => false
  | .eth => false | .kor => false | .eln => false | .prs => false | .flt => false | .asc => false | .frm => false
  | .bpm => false | .sch => false | .mgd => false | .fab => false | .cnt => false | .spt => false | .remote => false
  | .none => false

/-- Windows whose reads a halted device serves (R546). -/
def haltedOpen (off : Nat) : Bool :=
  match winOf off with
  | .csh => true | .ctl => true | .evt => true | .mgd => true
  | .gaf => false | .aon => false | .tim => false | .vlt => false | .uce => false | .lnc => false | .lnl => false
  | .lnf => false | .eth => false | .kor => false | .eln => false | .prs => false | .flt => false | .asc => false
  | .frm => false | .bpm => false | .sch => false | .fab => false | .cnt => false | .spt => false | .remote => false
  | .none => false

/-- The device is out of reset and not halted. -/
def State.running (s : State) : Bool := decide (s.ctl.cond = .running)

/-- A write by a path acts as op when the device serves it: nothing outside the running condition (R32, R546),
GAF_DORMANT_ACCESS in DORMANT (R520), CTL_FAULT_OWNER when the path may not write (R53, R54). -/
def gate (who : Who) (c : WriteClass) (off : Nat) (op : State → State) (s : State) : State :=
  if s.running = false then s
  else if s.dormant && !dormantOpen off then s.inc Reg.GAF_DORMANT_ACCESS
  else if s.mayWrite who c then op s
  else s.inc Reg.CTL_FAULT_OWNER

/-- The ringmaster's writes, and the firmware's where it has an interface: `gate` for a register of no other class. -/
def gateOwner (who : Who) (off : Nat) (op : State → State) (s : State) : State :=
  gate who (if firmwareOwn off then .fwOwn else .other) off op s

/-- What a path has a copy of. -/
def State.path (s : State) (p : Path) : PathState :=
  match p with
  | .pcie => s.ctl.pcie | .svc => s.ctl.svc | .fabric => s.ctl.fab | .firmware => s.ctl.fw

/-- Change a path's copy. -/
def State.modPath (s : State) (p : Path) (f : PathState → PathState) : State :=
  match p with
  | .pcie => { s with ctl := { s.ctl with pcie := f s.ctl.pcie } }
  | .svc => { s with ctl := { s.ctl with svc := f s.ctl.svc } }
  | .fabric => { s with ctl := { s.ctl with fab := f s.ctl.fab } }
  | .firmware => { s with ctl := { s.ctl with fw := f s.ctl.fw } }

/-- A write that would start a command of a register is ignored in whole and counted while the register's BUSY is 1 (R584). -/
def unlessBusy (busy : Field) (op : State → State) (s : State) : State := if s.flag busy then s.inc Reg.CTL_FAULT_BUSY else op s

/-- A write of a command register that starts a command only where `go` holds: such a write needs BUSY to be 0 (R584). -/
def startUnlessBusy (busy : Field) (go : Bool) (op : State → State) (s : State) : State :=
  if go then unlessBusy busy op s else op s

/-- The plain effect of a register write on the bits that store it (R4, R5), the register's content standing at `at_`: writable bits
that no lock covers take the value, a 1 clears a W1C bit, and a write that would change a locked bit is counted in
CTL_FAULT_LOCK. A LOCKS mask that covers a field in part locks the bits it covers and no others: R71 has masks cover fields, and
says nothing of such a mask (DESIGN CHOICE, log 39). -/
def storeAt (at_ off : Nat) (val : Word) (s : State) : State :=
  match rowOf off with
  | none => s
  | some r =>
    let old := s.rd at_
    let locked := mlook 0 off s.locks &&& w32 r.rwl
    let mask := w32 r.rw &&& ~~~ locked
    let s := if (old ^^^ val) &&& locked ≠ 0 then s.inc Reg.CTL_FAULT_LOCK else s
    s.wr at_ (((old &&& ~~~ mask) ||| (val &&& mask)) &&& ~~~ (val &&& w32 r.w1c))

/-- The plain effect of a write on its register. -/
def storeReg (off : Nat) (val : Word) (s : State) : State := storeAt off off val s

/-- A word with the given field values. -/
def word (fs : List (Field × Nat)) : Word := fs.foldl (fun w p => setBits w p.1.hi p.1.lo p.2) 0

/-- A field's value within a written word. -/
def fieldOf (f : Field) (w : Word) : Nat := bits w f.hi f.lo

end Sys2Proof.Machine
end

