-- ==== Sys2Proof/Machine/Life.lean ====
section
/-! DEFINITION. What the vault's root material says: the current bank, the counter and
the owner record (R437, R443, R446), and the device's identity (R452). -/

namespace Sys2Proof.Machine

/-- COMMIT's marker (R443). -/
def commitMark : Word := 0x434F4D54

/-- A bank's bytes 0 to 7 (R443). -/
def bankHead (b : Bank) : List Byte := toLe 5 b.count ++ toLe 1 b.epoch ++ [b.slot, 0]

/-- The 520 bytes of a bank (R443). -/
def bankBytes (b : Bank) : List Byte := bankHead b ++ toLe 4 b.crc.toNat ++ toLe 4 b.commit.toNat ++ b.record

/-- The CRC-32 of a bank: its bytes 0 to 7 and 16 to 519 (R443). -/
def bankCrc (b : Bank) : Word := crc32 ((bankBytes b).take 8 ++ (bankBytes b).drop 16)

/-- A bank is valid: the marker, the CRC, and no later epoch than the fuses (R443). -/
def bankGood (o : Otp) (b : Bank) : Bool := decide (b.commit = commitMark) && decide (b.epoch ≤ o.epoch) && decide (b.crc = bankCrc b)

/-- (EPOCH, COUNT) order of banks, EPOCH first (R443). -/
def bankLt (a b : Bank) : Bool := decide (a.epoch < b.epoch) || (decide (a.epoch = b.epoch) && decide (a.count < b.count))

/-- Bank 1 is the current bank, bank 0 is, or none is (R443). -/
def currentBank (v : Vlt) : Option (Bool × Bank) :=
  match bankGood v.otp v.bank0, bankGood v.otp v.bank1 with
  | true, true => if bankLt v.bank0 v.bank1 then some (true, v.bank1) else some (false, v.bank0)
  | true, false => some (false, v.bank0)
  | false, true => some (true, v.bank1)
  | false, false => none

/-- The counter: (EPOCH, COUNT) of the current bank, or (E, 0) (R443). -/
def counterOf (v : Vlt) : Nat × Nat :=
  match currentBank v with
  | some (_, b) => (b.epoch, b.count)
  | none => (v.otp.epoch, 0)

/-- The owner record in force: the current bank's, when its SLOT is the live slot and its FORMAT is right (R443, R446). -/
def ownerRecord (v : Vlt) : Option (List Byte) :=
  match currentBank v, liveSlot v.otp with
  | some (_, b), some i => if lcCode v.otp = 3 ∧ b.slot.toNat = i ∧ be (sub b.record 0 2) = 1 then some b.record else none
  | _, _ => none

/-- FLAGS of the owner record: ARB_VALID and IMPORT_EN (R446). -/
def arbValid (v : Vlt) : Bool := (ownerRecord v).any (fun r => nbit (byteAt r 2) 7)
/-- IMPORT_EN of the owner record (R446, R458). -/
def importEn (v : Vlt) : Bool := (ownerRecord v).any (fun r => nbit (byteAt r 2) 6)

/-- The script keys of the owner record (R446). -/
def scriptKeys (v : Vlt) : List (List Byte) :=
  match ownerRecord v with
  | some r => (List.range (min 4 (byteAt r 3))).map (fun i => sub r (120 + 96 * i) 96)
  | none => []

/-- The arbiter's public key, with ARB_VALID (R446). -/
def arbiterKey (v : Vlt) : Option (List Byte) :=
  match ownerRecord v with
  | some r => if nbit (byteAt r 2) 7 then some (sub r 24 96) else none
  | none => none

/-- SHA-384 as 48 bytes. -/
def sha384Bytes (bs : List Byte) : List Byte := toBe 48 (sha384 bs).toNat

/-- The identity public key as VLT_ID_PUB shows it (R452). -/
def idPub (s : State) : List Byte := wordBytes (s.rds (Reg.VLT_ID_PUB 0) 24)

/-- DEVICE_ID (R452). -/
def deviceId (s : State) : List Byte := sha384Bytes (idPub s)

/-- The arbiter challenge as bytes (R60, R63). -/
def challenge (s : State) : List Byte := wordBytes (s.rds (Reg.CTL_ARB_CHALLENGE 0) 4)

/-- A value from the DRBG: a free value, and the request is counted; after 2^20 requests it reseeds (R432). -/
def State.drbg (s : State) : BitVec 512 × State :=
  let (v, s) := s.draw
  let n := s.vlt.requests + 1
  if n < 2 ^ 20 then (v, { s with vlt := { s.vlt with requests := n } })
  else (v, { s with vlt := { s.vlt with requests := 0 } }.inc Reg.VLT_DRBG_RESEEDS)

/-- A fresh arbiter challenge from the DRBG (R60). -/
def newChallenge (s : State) : State :=
  let (v, s) := s.drbg
  s.wrs (Reg.CTL_ARB_CHALLENGE 0) (bytesWords 4 (toBe 16 v.toNat))

/-- An entry of the call sheet changes (R64). -/
def bumpGen (s : State) : State := { s with ctl := { s.ctl with generation := s.ctl.generation + 1 } }

/-- Boot mode codes of CTL_BOOT.MODE (R63). -/
def State.bootMode (s : State) : Nat := s.get Reg.CTL_BOOT_MODE

/-- Start-up stage reached (R89). -/
def State.stage (s : State) : Nat := s.get Reg.CTL_BOOT_STAGE

/-- Enter a start-up stage (R89). -/
def State.toStage (s : State) (n : Nat) : State := s.set Reg.CTL_BOOT_STAGE n

/-- A start-up stage stops: STAGE 0xF, the stage and the event that stopped it (R63, R89). -/
def stageFail (s : State) (n ev : Nat) : State :=
  ((s.set Reg.CTL_BOOT_STAGE 15).set Reg.CTL_BOOT_FAIL_STAGE n).set Reg.CTL_BOOT_FAIL ev

end Sys2Proof.Machine
end

