-- ==== Sys2Proof/Machine/Links.lean ====
section
/-! DEFINITION. Ports and links over the lanes: the geometry the lane map gives (R101), the conditions for up (R145, R168,
R475), going down (R146, R170, R475), and the routes and group that the fabric's links give (R479, R483). -/

namespace Sys2Proof.Machine

/-! ### Lanes and ports -/

/-- Key of a lane: 0 to 31 LNC, 32 to 63 LNL, 64 to 79 LNF. -/
def laneKey (u : LaneUnit) (j : Nat) : Nat := (match u with | .lnc => 0 | .lnl => 32 | .lnf => 64) + j

/-- Window of a lane (R97). -/
def lnBase (u : LaneUnit) (j : Nat) : Nat :=
  (match u with | .lnc => 0x100000 | .lnl => 0x120000 | .lnf => 0x140000) + 0x1000 * j

/-- Lanes of a unit (R97). -/
def laneCount (u : LaneUnit) : Nat := match u with | .lnc => 32 | .lnl => 32 | .lnf => 16

/-- MODE of a lane: 0 OFF, 1 ETHERNET, 2 KORONE, 3 GWELEK. -/
def State.laneMode (s : State) (u : LaneUnit) (j : Nat) : Nat := s.get (Reg.LN_CFG_MODE (lnBase u j))

/-- Width of a lane's port in lanes. -/
def State.laneWidth (s : State) (u : LaneUnit) (j : Nat) : Nat := 2 ^ s.get (Reg.LN_CFG_WIDTH (lnBase u j))

/-- The port, or on LNF the link's first lane, that a lane belongs to (R101). -/
def State.portOf (s : State) (u : LaneUnit) (j : Nat) : Option Nat :=
  if s.laneMode u j = 0 then none else some (j - j % s.laneWidth u j)

/-- The lanes of the port whose first lane is k (R101). -/
def State.portLanes (s : State) (u : LaneUnit) (k : Nat) : List Nat := (List.range (s.laneWidth u k)).map (fun i => k + i)

/-- STATE of a lane (R134): 0 OFF, 1 POWERING, 2 DETECT, 3 NEGOTIATE, 4 TRAIN, 5 STEP, 6 MISSION, 7 FAILED, 8 PRBS. -/
def State.laneSt (s : State) (u : LaneUnit) (j : Nat) : Nat := s.get (Reg.LN_STS_STATE (lnBase u j))

/-- Every lane of a port is in MISSION. -/
def State.inMission (s : State) (u : LaneUnit) (k : Nat) : Bool := (s.portLanes u k).all (fun j => s.laneSt u j = 6)

/-- The lane unit of a side. -/
def sideUnit : Side → LaneUnit | .client => .lnc | .line => .lnl

/-- Window of an Ethernet port. -/
def portBase (side : Side) (k : Nat) : Nat := (match side with | .client => 0x180000 | .line => 0x1C0000) + 0x1000 * k

/-- Port index n of R202. -/
def portIdx (side : Side) (k : Nat) : Nat := match side with | .client => k | .line => 32 + k

/-- The port pair has its client and line ports (R1, R101). -/
def State.portExists (s : State) (side : Side) (k : Nat) : Bool := decide (s.portOf (sideUnit side) k = some k)

/-- The line port of pair k is a Korone port. -/
def State.isKorone (s : State) (k : Nat) : Bool := decide (s.laneMode .lnl k = 2)

/-- Egress index m is a Korone line port. -/
def State.korEgress (s : State) (m : Nat) : Bool := decide (32 ≤ m) && s.isKorone (m - 32)

/-- The line port of pair k runs in stream mode (R201). -/
def State.isStream (s : State) (k : Nat) : Bool := s.isKorone k && s.flag (Reg.KOR_CFG_STREAM k)

/-- The window of an Ethernet port acts (R135). -/
def State.ethActs (s : State) (side : Side) (k : Nat) : Bool :=
  s.portExists side k && (match side with | .client => true | .line => decide (s.laneMode .lnl k = 1))

/-- The port is up (R145, R168). -/
def State.portUp (s : State) (side : Side) (k : Nat) : Bool :=
  match side with
  | .client => s.flag (Reg.PORT_STS_LINK_UP (portBase .client k))
  | .line => if s.isKorone k then s.flag (Reg.KOR_STS_LINK_UP k) else s.flag (Reg.PORT_STS_LINK_UP (portBase .line k))

/-- The two ports of pair k are of one width (R1). -/
def State.pairEven (s : State) (k : Nat) : Bool := decide (s.laneWidth .lnc k = s.laneWidth .lnl k)

/-- The port with index m is up, and its pair is one of equal widths (R1). -/
def State.idxUp (s : State) (m : Nat) : Bool :=
  s.pairEven (m % 32) && (if m < 32 then s.portUp .client m else s.portUp .line (m - 32))

/-- The counter of frames dropped because egress port m is down (R146, R170). -/
def downCtr (s : State) (m : Nat) : Nat :=
  if m < 32 then Reg.PORT_TX_DROP_DOWN (portBase .client m)
  else if s.isKorone (m - 32) then Reg.KOR_TX_DROP_DOWN (m - 32) else Reg.PORT_TX_DROP_DOWN (portBase .line (m - 32))

/-- PRESENT of the lanes and ports (R65, R101): a lane in a port, and the ports that exist, by kind. -/
def State.presence (s : State) : List Bool :=
  (List.range 32).flatMap (fun j => [(s.portOf .lnc j).isSome, (s.portOf .lnl j).isSome, decide (j < 16) && (s.portOf .lnf j).isSome,
    s.portExists .client j, s.portExists .line j && s.isKorone j, s.portExists .line j && !s.isKorone j])

/-- GENERATION counts up where the presence of a unit has changed (R64). -/
def noteMap (old s : State) : State := if old.presence = s.presence then s else bumpGen s

/-! ### Going down -/

/-- Pending two-step entries of an egress port are lost with it (R387). -/
def loseFollows (s : State) (m : Nat) : State :=
  let n := (s.sch.follows.filter (fun f => f.egress = m)).length
  let s := { s with sch := { s.sch with follows := s.sch.follows.filter (fun f => f.egress ≠ m) } }
  if n = 0 then s
  else
    let first := firstInSecond s s.sch.lastFu m
    let s := (s.bump Reg.TIM_FU_LOST n)
    let s := { s with sch := { s.sch with lastFu := mput m s.clk s.sch.lastFu } }
    if first then raise0 s 0x0506 0 else s

/-- Frames that wait for egress port m: parked, queued, slotted or in the farm and the gate; a frame that is leaving stays
(R146, R151, R360). -/
def waitingFor (m : Nat) (f : Frame) : Bool :=
  decide (f.m = m) && match f.stage with
    | .lookup => false | .sending => false | .ended => false
    | .missq => true | .lease => true | .follow => true | .farm => true | .queued => true | .slotted => true

/-- Drop what waits for a port that went down (R146, R170). -/
def dropWaiting (s : State) (m : Nat) : State :=
  loseFollows (dropAll s (s.framesWhere (waitingFor m)) (downCtr s m)) m

/-- An Ethernet port goes down: LINK_DOWNS, DOWN_SEEN, LINK_DOWN, and its waiting frames are dropped (R145, R146). -/
def ethDown (s : State) (side : Side) (k : Nat) : State :=
  let b := portBase side k
  if s.flag (Reg.PORT_STS_LINK_UP b) then
    let s := (s.setFlag (Reg.PORT_STS_LINK_UP b) false).setFlag (Reg.PORT_STS_DOWN_SEEN b) true
    let s := s.inc (Reg.PORT_LINK_DOWNS b)
    let s := raise s (match side with | .client => 0x1802 | .line => 0x1C02) k 0 (some k)
    dropWaiting s (portIdx side k)
  else s

/-- A Korone line port goes down (R168, R170). -/
def korDown (s : State) (k : Nat) : State :=
  if s.flag (Reg.KOR_STS_LINK_UP k) then
    let s := (s.setFlag (Reg.KOR_STS_LINK_UP k) false).setFlag (Reg.KOR_STS_DOWN_SEEN k) true
    let s := s.inc (Reg.KOR_LINK_DOWNS k)
    let s := raise s 0x1A02 k 0 (some k)
    dropWaiting s (32 + k)
  else s

/-- The PCS of an Ethernet port has no lanes left to be aligned on. -/
def pcsGone (s : State) (side : Side) (k : Nat) : State :=
  let b := portBase side k
  (((s.setFlag (Reg.PORT_STS_BLOCK_LOCK b) false).setFlag (Reg.PORT_STS_ALIGNED b) false).setFlag
    (Reg.PORT_STS_HI_SER b) false).set (Reg.PORT_STS_FAULT_RX b) 0

/-- A Korone lane with nothing found on it (R157, R164). -/
def noKorLane : KorLane :=
  { locked := false, lockAt := 0, goods := [], badRun := 0, cands := [], inSync := false, place := 0, misses := 0, expect := 0,
    laneId := 0, flags := 0, lastBip := none, beiDue := 0, bipErrs := 0, ohBad := false, rx := none, txBip := none, fecRest := [] }

/-- A Korone port at rest: its lanes out of SYNC and the port not ALIGNED in the present second (R198). -/
def noKorPort : KorPort :=
  { txCount := 0, txRest := [], txCaps := [], txHead := none, txOpen := false, cap := .hunt, rx := [], ptr := none, held := [], lastTag := 0,
    csf := false, cueTx := [], cueFirst := false, cueIn := none, cueRx := [], fifo := [], daily := 3 }

/-- What the receiver found on line lane j, or on fabric lane j - 32 (R473). -/
def State.korLane (s : State) (j : Nat) : KorLane := mlook noKorLane j s.korLanes

/-- Change what was found on a lane. -/
def State.modKorLane (s : State) (j : Nat) (f : KorLane → KorLane) : State :=
  { s with korLanes := mstore noKorLane j (f (s.korLane j)) s.korLanes }

/-- The Korone port k. -/
def State.korPort (s : State) (k : Nat) : KorPort := mlook noKorPort k s.kor

/-- Change a Korone port. -/
def State.modKor (s : State) (k : Nat) (f : KorPort → KorPort) : State :=
  { s with kor := mstore noKorPort k (f (s.korPort k)) s.kor }

/-- Logical lane of line lane j within its port: the ladder's, or its place (R114). -/
def State.logicalOf (s : State) (k j : Nat) : Nat :=
  if s.flag (Reg.LN_STS_MAP_VALID (lnBase .lnl j)) then s.get (Reg.LN_STS_LOGICAL (lnBase .lnl j)) else j - k

/-- A lane leaves SYNC: LOF_SEEN of its logical lane (R201). -/
def leaveSync (s : State) (k j : Nat) : State :=
  if (s.korLane j).inSync then
    let s := s.modKorLane j (fun l => { l with inSync := false, misses := 0, lastBip := none, cands := [], rx := none })
    let s := s.modKor k (fun p => { p with daily := p.daily ||| 1 })
    s.set (Reg.KOR_LANE_STS_LOF_SEEN k) (s.get (Reg.KOR_LANE_STS_LOF_SEEN k) ||| 2 ^ s.logicalOf k j)
  else s

/-- The port leaves ALIGNED: capsule delineation hunts, and the capsule whose head it had found is skipped (R179, R199); a held
period and a cue frame in progress are lost, and a stream-mode client gets local fault (R166, R190). -/
def korUnalign (s : State) (k : Nat) : State :=
  let s := if (s.korPort k).cap = .hunt then s else s.inc (Reg.KOR_RX_SKIPPED k)
  let s := if s.flag (Reg.KOR_STS_ALIGNED k) && s.isStream k then s.emit (.localFault k) else s
  let s := (s.setFlag (Reg.KOR_STS_ALIGNED k) false).setFlag (Reg.KOR_STS_CAP_SYNC k) false
  s.modKor k (fun p => { p with cap := .hunt, rx := [], ptr := none, held := [], cueIn := none, daily := p.daily ||| 2 })

/-- The lanes of a Korone port are gone from MISSION: nothing is found on them, and what was being sent is cut (R164, R166, R199).
The BIP errors of the present interval stay for its end (R195). -/
def korGone (s : State) (k : Nat) : State :=
  let s := (s.portLanes .lnl k).foldl (fun s j =>
    let s := leaveSync s k j
    s.modKorLane j (fun l => { noKorLane with bipErrs := l.bipErrs })) s
  let s := ((s.setFlag (Reg.KOR_STS_RDI_RX k) false).setFlag (Reg.KOR_STS_CSF_RX k) false).setFlag (Reg.KOR_STS_NO_CONTENT_RX k) false
  let s := s.setFlag (Reg.KOR_STS_MODE_MISMATCH k) false
  (korUnalign s k).modKor k (fun p => { p with txRest := [], txCaps := [], txHead := none, txOpen := false, daily := p.daily ||| 1 })

/-- The line or client port above the lanes of port k of a unit goes down with them. -/
def portDown (s : State) (side : Side) (k : Nat) : State :=
  match side with
  | .client => pcsGone (ethDown s .client k) .client k
  | .line => if s.isKorone k then korGone (korDown s k) k else pcsGone (ethDown s .line k) .line k

/-! ### The fabric's links, routes and group -/

/-- The device's own fabric address. -/
def State.fabAddr (s : State) : Nat := s.get Reg.FAB_CFG_ADDR

/-- A neighbour whose vector counts: its link is up and not in conflict (R478, R479). -/
def State.usable (s : State) (n : Nat) : Option Neighbour :=
  match mget n s.fab.neighbours with
  | some x => if x.valid && !x.conflict && s.fab.linkUp.contains n then some x else none
  | none => none

/-- Distance to address a over link n, if that neighbour reaches it. -/
def State.distVia (s : State) (n a : Nat) : Option Nat :=
  match s.usable n with
  | some x => let d := byteAt x.vector a; if d ≤ 13 then some (d + 1) else none
  | none => none

/-- The route to address a: distance and link, the lowest link on a tie (R479). -/
def State.route (s : State) (a : Nat) : Option (Nat × Nat) :=
  if s.flag Reg.FAB_CFG_EN = false then none
  else if a = s.fabAddr then some (0, 0)
  else
    (List.range 4).foldl (fun best n =>
      match s.distVia n a, best with
      | some d, none => some (d, n)
      | some d, some (b, m) => if d < b then some (d, n) else some (b, m)
      | none, b => b) none

/-- Members of the group this device heads: reachable and of its GROUP_ID (R483). -/
def State.groupMembers (s : State) : List Nat :=
  if s.flag Reg.FAB_CFG_HEAD then
    (List.range 64).filter (fun a => decide (a ≠ s.fabAddr) && (s.route a).isSome &&
      decide (mget a s.fab.groups = some (s.get Reg.FAB_CFG_GROUP_ID)))
  else []

/-- A change of membership changes GENERATION and raises FAB_GROUP_CHANGED (R483). -/
def settleGroup (s : State) : State :=
  let m := s.groupMembers
  if m = s.fab.members then s
  else
    raise0 (bumpGen { s with fab := { s.fab with members := m } }) 0x700C 0

/-- The neighbour of a link is lost (R478). -/
def loseNeighbour (s : State) (n : Nat) : State :=
  settleGroup { s with fab := { s.fab with neighbours := mdel n s.fab.neighbours } }

/-- A fabric link goes down: its cells in flight are lost with it (R475). -/
def fabLinkDown (s : State) (n : Nat) : State :=
  if s.fab.linkUp.contains n then
    loseNeighbour (raise0 { s with fab := { s.fab with linkUp := ldel n s.fab.linkUp } } 0x7002 n) n
  else s

/-- The lanes of a fabric link lose codeword lock and cell SYNC with MISSION (R473, R475). -/
def cellGone (s : State) (n : Nat) : State :=
  let s := (List.range 4).foldl (fun s l => s.modKorLane (32 + 4 * n + l) (fun _ => noKorLane)) s
  { s with fab := { s.fab with
    cellSync := s.fab.cellSync.filter (fun p => p.1 / 4 ≠ n), cellMiss := s.fab.cellMiss.filter (fun p => p.1 / 4 ≠ n) } }

/-- What stands above the port of a lane goes down when the lane leaves MISSION. -/
def aboveDown (s : State) (u : LaneUnit) (k : Nat) : State :=
  match u with
  | .lnc => portDown s .client k
  | .lnl => portDown s .line k
  | .lnf => cellGone (fabLinkDown s (k / 4)) (k / 4)

end Sys2Proof.Machine
end

