-- ==== Sys2Proof/Machine/Lanes.lean ====
section
/-! DEFINITION. Serial lanes (03): quad power, the lane map and its rules (R102), bring-up under the IEEE policies (R110) and
on the ladder (R119), Korone training frames (R111 to R118), equalisation (R121, R122), test patterns and injection (R124 to
R127), loss of signal, lock and reference clock (R129, R130). -/

namespace Sys2Proof.Machine

/-- Act only while the device is out of reset and not halted. -/
def live (op : State → State) (s : State) : State := if s.running then op s else s

/-- Domains of the flow table, the resident slots, and memory with its tree (R504). -/
def fltDoms : List Nat := (List.range 16).map (· + 76)
/-- PD092 to PD095. -/
def slotDoms : List Nat := (List.range 4).map (· + 92)
/-- PD096, PD101 and PD102. -/
def memDoms : List Nat := [96, 101, 102]

/-- What needs domains that are not all ON stalls until ACCESS_WAKE has brought them up: nothing happens (R518). -/
def whenOn (ds : List Nat) (f : State → State) (s : State) : State :=
  if ds.all (fun d => decide (mlook .on d s.gaf.doms = .on)) then f s else s

/-! ### Lane state -/

/-- A lane that has heard nothing. -/
def noLane : LaneState :=
  { validRun := 0, ktfSeen := false, linkId := 0, peerReady := false, peerStep := 0, peerHold := false, rxReady := false,
    sentStep := 0, req := 0, reqSeq := 0, ackSeq := 0, coefSts := 0, peerAck := 0, anBase := false, waitSignal := false,
    ownLinkId := 0, restarted := false, trained := false, gap := false, known := 0, errs := 0, gen := none }

/-- What is known of a lane. -/
def State.lane (s : State) (u : LaneUnit) (j : Nat) : LaneState := mlook noLane (laneKey u j) s.lanes.lane

/-- Change what is known of a lane. -/
def State.modLane (s : State) (u : LaneUnit) (j : Nat) (f : LaneState → LaneState) : State :=
  { s with lanes := { s.lanes with lane := mstore noLane (laneKey u j) (f (s.lane u j)) s.lanes.lane } }

/-- Change every lane of a list. -/
def modLanes (s : State) (u : LaneUnit) (js : List Nat) (f : LaneState → LaneState) : State :=
  js.foldl (fun s j => s.modLane u j f) s

/-- Policy codes (R134): 0 IEEE_AN, 1 IEEE_FORCED, 2 LADDER. -/
def State.policy (s : State) (u : LaneUnit) (k : Nat) : Nat := s.get (Reg.LN_CFG_POLICY (lnBase u k))

/-- The top rung of a lane's mode (R103). -/
def State.topRung (s : State) (u : LaneUnit) (k : Nat) : Nat := if s.laneMode u k = 3 then 3 else 4

/-- A lane's quad is powered. -/
def State.quadOn (s : State) (u : LaneUnit) (j : Nat) : Bool := s.lanes.quads.contains (laneKey u j / 4)

/-- A lane has its generator or checker enabled. -/
def State.prbsOn (s : State) (u : LaneUnit) (j : Nat) : Bool :=
  s.flag (Reg.LN_PRBS_CFG_GEN_EN (lnBase u j)) || s.flag (Reg.LN_PRBS_CFG_CHK_EN (lnBase u j))

/-- A lane asks for its quad's power (R100). -/
def State.wantsPower (s : State) (u : LaneUnit) (j : Nat) : Bool :=
  (s.flag (Reg.LN_CFG_ADMIN_UP (lnBase u j)) && decide (s.laneMode u j ≠ 0)) || s.prbsOn u j

/-- Lanes of the quad that lane j lies in (R98). -/
def quadLanes (j : Nat) : List Nat := (List.range 4).map (fun i => j / 4 * 4 + i)

/-- ADMIN_UP is 1 on all lanes of a port. -/
def State.adminAll (s : State) (u : LaneUnit) (k : Nat) : Bool :=
  (s.portLanes u k).all (fun j => s.flag (Reg.LN_CFG_ADMIN_UP (lnBase u j)))

/-- The event of a lane unit (R132). -/
def laneEvent (u : LaneUnit) (nn : Nat) : Nat := (match u with | .lnc => 0x1000 | .lnl => 0x1200 | .lnf => 0x1400) + nn

/-- The port pair an event of a lane names (R541). -/
def State.lanePair (s : State) (u : LaneUnit) (j : Nat) : Option Nat :=
  match u with
  | .lnf => none
  | .lnc => s.portOf u j
  | .lnl => s.portOf u j

/-- Raise a lane's event; the record names the lane (R132). -/
def raiseLane (s : State) (u : LaneUnit) (j nn : Nat) : State := raise s (laneEvent u nn) j 0 (s.lanePair u j)

/-! ### The pair and the loopbacks (R104, R128, R134) -/

/-- A lane named by its unit and number. -/
def laneNamed (u : LaneUnit) (j : Nat) : Lane := { unit := u, idx := Fin.ofNat 32 j }

/-- Near-end serial loopback: a lane's receiver hears its own transmitter, and not its pair (R128; log 79). -/
def State.nearLoop (s : State) (u : LaneUnit) (j : Nat) : Bool := decide (s.get (Reg.LN_CFG_LOOP (lnBase u j)) = 1)

/-- Far-end parallel loopback: a lane's transmitter sends what its receiver hears, and nothing else (R128; log 79). -/
def State.farLoop (s : State) (u : LaneUnit) (j : Nat) : Bool := decide (s.get (Reg.LN_CFG_LOOP (lnBase u j)) = 2)

/-- The bits of a lane as they stand on its pair: POL_TX_INV swaps it (R134). -/
def State.onPair (s : State) (u : LaneUnit) (j rung : Nat) (l : List Bool) : List Bool :=
  if s.flag (Reg.LN_CFG_POL_TX_INV (lnBase u j)) then flipBits rung l else l

/-- A lane sends bits at a rung (R103, R104). -/
def sendBits (s : State) (u : LaneUnit) (j rung : Nat) (l : List Bool) : State :=
  s.emit (.serial (laneNamed u j) (symbolsOf rung (s.onPair u j rung l)))

/-! ### Port states -/

/-- Every lane of a list takes a state and a rung; those of a halted device stay OFF (R131). -/
def setLanes (s : State) (u : LaneUnit) (js : List Nat) (st rung : Nat) : State :=
  if s.halted then s
  else js.foldl (fun s j => (s.set (Reg.LN_STS_STATE (lnBase u j)) st).set (Reg.LN_STS_RUNG (lnBase u j)) rung) s

/-- The port takes a state; leaving MISSION takes down what stands above it (R145, R168, R475). -/
def portSet (s : State) (u : LaneUnit) (k st rung : Nat) : State :=
  let was := s.laneSt u k = 6
  let s := setLanes s u (s.portLanes u k) st rung
  if was ∧ st ≠ 6 then aboveDown s u k else s

/-- The start state of a policy (R110, R119): DETECT, NEGOTIATE or TRAIN. -/
def State.startState (s : State) (u : LaneUnit) (k : Nat) : Nat :=
  match s.policy u k with
  | 2 => 2
  | 0 => 3
  | _ => if s.flag (Reg.LN_TRAIN_TRAIN_OFF (lnBase u k)) then 2 else 4

/-- The rung shown in a state: the ladder's own, or 4 in DETECT, TRAIN and MISSION of the IEEE policies (R110). -/
def State.startRung (s : State) (u : LaneUnit) (k : Nat) : Nat :=
  if s.policy u k = 2 then 1 else if s.startState u k = 3 then 0 else 4

/-- A port in NEGOTIATE sends the pages that advertise its one PMD (R106, R107). -/
def sendPages (s : State) (u : LaneUnit) (k : Nat) : State :=
  s.emit (.anPages (laneNamed u k) (s.laneWidth u k) (s.get (Reg.LN_CFG_MEDIUM (lnBase u k))))

/-- A bring-up begins in its start state: a fresh LINK_ID, and nothing heard yet (R111, R113, R114). -/
def startPort (s : State) (u : LaneUnit) (k : Nat) (restart : Bool) : State :=
  let s := portSet s u k (s.startState u k) (s.startRung u k)
  let (v, s) := s.draw
  let js := s.portLanes u k
  let s := modLanes s u js (fun _ => { noLane with
    ownLinkId := BitVec.ofNat 64 v.toNat, waitSignal := restart, restarted := restart })
  let s := js.foldl (fun s j => (s.setFlag (Reg.LN_STS_RX_POL_INV (lnBase u j)) false).setFlag
    (Reg.LN_STS_MAP_VALID (lnBase u j)) false) s
  let s := s.wr (Reg.LN_TRAIN_STS (lnBase u k)) 0
  if s.laneSt u k = 3 then sendPages s u k else s

/-- The unit's reference clock is good (R130). -/
def State.refclkOk (s : State) (u : LaneUnit) : Bool := s.flag (Reg.LN_STS_REFCLK_OK (lnBase u 0))

/-- A lane's conditions to leave DETECT: signal, lock and no wait after a restart (R110, R119, R129). -/
def State.laneHeard (s : State) (u : LaneUnit) (j : Nat) : Bool :=
  s.flag (Reg.LN_STS_SIGNAL (lnBase u j)) && s.flag (Reg.LN_STS_CDR_LOCK (lnBase u j)) && !(s.lane u j).waitSignal

/-- Leave DETECT when every lane allows it (R110, R119). -/
def tryDetect (s : State) (u : LaneUnit) (k : Nat) : State :=
  if s.laneSt u k = 2 ∧ s.refclkOk u = true ∧ (s.portLanes u k).all (fun j => s.laneHeard u j) = true then
    if s.policy u k = 2 then
      if (s.portLanes u k).all (fun j => (s.lane u j).ktfSeen) then portSet s u k 4 1 else s
    else portSet s u k 6 4
  else s

/-- A bring-up begins, and leaves DETECT at once where nothing is left to wait for (R110). -/
def beginPort (s : State) (u : LaneUnit) (k : Nat) (restart : Bool) : State := tryDetect (startPort s u k restart) u k

/-- Record why bring-up stopped or began again, on every lane of the port. -/
def setReason (s : State) (u : LaneUnit) (k r : Nat) : State :=
  (s.portLanes u k).foldl (fun s j => s.set (Reg.LN_STS_FAIL_REASON (lnBase u j)) r) s

/-- A restart: counted, raised, and bring-up begins again (R110, R119, R129). -/
def restartPort (s : State) (u : LaneUnit) (k reason : Nat) : State :=
  raiseLane (beginPort (setReason (s.inc (Reg.LN_RESTARTS (lnBase u k))) u k reason) u k true) u k 4

/-- The port fails (R107, R110, R114, R117). -/
def failPort (s : State) (u : LaneUnit) (k reason : Nat) : State :=
  raiseLane (portSet (setReason s u k reason) u k 7 0) u k 5

/-- A port that is neither OFF, POWERING, FAILED nor in PRBS. -/
def State.portActive (s : State) (u : LaneUnit) (k : Nat) : Bool :=
  let st := s.laneSt u k
  decide (2 ≤ st) && decide (st ≤ 6)

/-! ### Power and configuration -/

/-- The status of a lane whose quad is off: only REFCLK_OK stays (R99). -/
def clearSts (s : State) (u : LaneUnit) (j : Nat) : State :=
  let ok := s.get (Reg.LN_STS_REFCLK_OK (lnBase u j))
  ((s.wr (Reg.LN_STS (lnBase u j)) 0).set (Reg.LN_STS_REFCLK_OK (lnBase u j)) ok).set (Reg.LN_CDR_LOCK (lnBase u j)) 0

/-- Power down a quad that none of its lanes wants (R100). -/
def settleQuad (s : State) (u : LaneUnit) (j : Nat) : State :=
  if (quadLanes j).any (fun i => s.wantsPower u i) then s
  else if s.quadOn u j then
    (quadLanes j).foldl (fun s i => clearSts s u i)
      (bumpGen { s with lanes := { s.lanes with quads := ldel (laneKey u j / 4) s.lanes.quads } })
  else s

/-- The pattern generator runs (R124). -/
def State.generates (s : State) (u : LaneUnit) (j : Nat) : Bool :=
  let b := lnBase u j
  decide (s.laneSt u j = 8) && s.flag (Reg.LN_PRBS_CFG_GEN_EN b) && !s.flag (Reg.LN_PRBS_STS_BAD_CFG b)

/-- The pattern checker runs (R124). -/
def State.checks (s : State) (u : LaneUnit) (j : Nat) : Bool :=
  let b := lnBase u j
  decide (s.laneSt u j = 8) && s.flag (Reg.LN_PRBS_CFG_CHK_EN b) && !s.flag (Reg.LN_PRBS_STS_BAD_CFG b)

/-- The generator sends the next n bits of its pattern (R104, R124). -/
def sendPattern (s : State) (u : LaneUnit) (j g n : Nat) : State :=
  let b := lnBase u j
  let r := patternRun (s.get (Reg.LN_PRBS_CFG_PATTERN b)) n g
  let l := if s.flag (Reg.LN_PRBS_CFG_INV b) then r.1.map not else r.1
  (sendBits s u j (s.get (Reg.LN_STS_RUNG b)) l).modLane u j (fun x => { x with gen := some r.2 })

/-- The checker locks; while it is locked without error it counts from that tick (R126, R486). -/
def lockPrbs (s : State) (u : LaneUnit) (j : Nat) : State :=
  let b := lnBase u j
  if s.flag (Reg.LN_PRBS_STS_LOCKED b) then s
  else (s.modLane u j (fun x => { x with clean := some s.clk })).setFlag (Reg.LN_PRBS_STS_LOCKED b) true

/-- A generator that begins starts anywhere in its pattern and shows its first 1,024 bits; in a near-end loopback the lane's own
checker locks on them (R124, R126, R128; log 78). -/
def settleGen (s : State) (u : LaneUnit) (j : Nat) : State :=
  if s.generates u j ∧ s.farLoop u j = false then
    if (s.lane u j).gen = none then
      let (v, s) := s.draw
      let s := sendPattern s u j (patternSeed (s.get (Reg.LN_PRBS_CFG_PATTERN (lnBase u j))) v.toNat) 1024
      if s.nearLoop u j ∧ s.checks u j then lockPrbs s u j else s
    else s
  else if (s.lane u j).gen = none then s else s.modLane u j (fun x => { x with gen := none })

/-- Lanes in PRBS at their own rung, POWERING while their quad is off, and the others OFF (R101, R125). -/
def settlePrbs (s : State) (u : LaneUnit) (js : List Nat) : State :=
  js.foldl (fun s j =>
    let s := if s.prbsOn u j then
        if s.quadOn u j then setLanes s u [j] 8 (s.get (Reg.LN_PRBS_CFG_RUNG (lnBase u j))) else setLanes s u [j] 1 0
      else setLanes s u [j] 0 0
    settleGen s u j) s

/-- Bring-up may run on this port: stage 9 has been reached (R89), and no scene holds the port down (R81, R83). -/
def State.lanesRun (s : State) (u : LaneUnit) (k : Nat) : Bool :=
  (decide (s.stage = 9) || decide (s.stage = 10)) && (decide (u = .lnf) || !nbit s.ctl.scope.toNat k)

/-- Move the port whose first lane is k as ADMIN_UP, MODE, its quads and its generators and checkers say (R110, R119,
R125). -/
def settlePort (s : State) (u : LaneUnit) (k : Nat) : State :=
  let js := s.portLanes u k
  if js.any (fun j => s.prbsOn u j) then
    let was := s.laneSt u k = 6
    let s := settlePrbs s u js
    if was then aboveDown s u k else s
  else if s.adminAll u k = false ∨ s.lanesRun u k = false then portSet s u k 0 0
  else if js.all (fun j => s.quadOn u j) then
    if s.laneSt u k = 0 ∨ s.laneSt u k = 1 ∨ s.laneSt u k = 8 then beginPort s u k false else s
  else if s.laneSt u k = 0 ∨ s.laneSt u k = 8 then portSet s u k 1 0 else s

/-- Settle lane j: through its port when it is that port's first lane, or on its own when it belongs to none (R101). -/
def settleLane (s : State) (u : LaneUnit) (j : Nat) : State :=
  match s.portOf u j with
  | some k => if k = j then settlePort s u k else s
  | none =>
    let was := s.laneSt u j = 6
    let s := settlePrbs s u [j]
    if was then aboveDown s u j else s

/-- Settle the eight lanes among which a change of one lane's configuration can move ports. -/
def settleLanes (s : State) (u : LaneUnit) (j : Nat) : State :=
  let js := ((List.range 8).map (fun i => j / 8 * 8 + i)).filter (fun i => i < laneCount u)
  let s := js.foldl (fun s i => settleLane s u i) s
  js.foldl (fun s i => if i % 4 = 0 then settleQuad s u i else s) s

/-- A write of LNx_CFG (R99, R100, R110, R119). A change of the lane map changes the call sheet (R64). -/
def laneCfgOp (u : LaneUnit) (j : Nat) (val : Word) (s : State) : State :=
  noteMap s (settleLanes (storeReg (Reg.LN_CFG (lnBase u j)) val s) u j)

/-- A PRBS setting that may run: the pattern is valid at the rung (R124). -/
def prbsValid (w : Word) : Bool :=
  let p := fieldOf (Reg.LN_PRBS_CFG_PATTERN 0) w
  let r := fieldOf (Reg.LN_PRBS_CFG_RUNG 0) w
  decide (1 ≤ r) && decide (r ≤ 4) && decide (p ≤ 9) && (decide (p < 6) || decide (p = 9) || decide (3 ≤ r))

/-- A write of LNx_PRBS_CFG (R124, R125). -/
def prbsCfgOp (u : LaneUnit) (j : Nat) (val : Word) (s : State) : State :=
  let b := lnBase u j
  let s := storeReg (Reg.LN_PRBS_CFG b) val s
  let s := s.setFlag (Reg.LN_PRBS_STS_BAD_CFG b) (s.prbsOn u j && !prbsValid (s.rd (Reg.LN_PRBS_CFG b)))
  let s := if s.flag (Reg.LN_PRBS_CFG_CHK_EN b) then s else s.setFlag (Reg.LN_PRBS_STS_LOCKED b) false
  let s := if (s.lane u j).gen = none then s else s.modLane u j (fun x => { x with gen := none })
  settleLanes s u j

/-- RESTART written in the window of a port's first lane (R110, R119, R134). -/
def laneRestartOp (u : LaneUnit) (j : Nat) (s : State) : State :=
  if s.portOf u j = some j ∧ s.laneSt u j ≠ 0 ∧ s.laneSt u j ≠ 8 then restartPort s u j 0 else s

/-- A write of LNx_TRAIN: it acts in the first lane's window only (R134). -/
def laneTrainWrite (u : LaneUnit) (j : Nat) (val : Word) (s : State) : State :=
  if s.portOf u j = some j then
    let s := storeReg (Reg.LN_TRAIN (lnBase u j)) val s
    if fieldOf (Reg.LN_TRAIN_RESTART 0) val = 1 then laneRestartOp u j s else s
  else s

/-- A quad's power-up completes (R100). -/
def quadPoweredOp (u : LaneUnit) (q : Nat) (s : State) : State :=
  let j := 4 * q
  if j < laneCount u ∧ (quadLanes j).any (fun i => s.wantsPower u i) ∧ s.quadOn u j = false then
    let s := bumpGen { s with lanes := { s.lanes with quads := ladd (laneKey u j / 4) s.lanes.quads } }
    let s := (quadLanes j).foldl (fun s i => s.setFlag (Reg.LN_STS_POWERED (lnBase u i)) true) s
    settleLanes s u j
  else s

/-! ### Equalisation (R121, R122) -/

/-- The five taps of an LNx_TXEQ word: c(-3), c(-2), c(-1), c(0), c(1). -/
def taps (w : Word) : List Int :=
  let sg := fun (hi lo : Nat) => let v := bits w hi lo; if v < 32 then (v : Int) else (v : Int) - 64
  [sg 29 24, sg 23 18, sg 17 12, (bits w 11 6 : Int), sg 5 0]

/-- Five taps packed into the fields of an LNx_TXEQ word, its MODE kept. -/
def packTaps (w : Word) (t : List Int) : Word :=
  let v := fun i => ((t.getD i 0) % 64).toNat
  setBits (setBits (setBits (setBits (setBits w 29 24 (v 0)) 23 18 (v 1)) 17 12 (v 2)) 11 6 (v 3)) 5 0 (v 4)

/-- |c(-3)| + |c(-2)| + |c(-1)| + c(0) + |c(1)|. -/
def tapSum (t : List Int) : Nat := (t.map Int.natAbs).foldl (· + ·) 0

/-- Scale a setting to full swing (R122): how is open (log 5), but the sum stays within 64. -/
def fitTaps (w : Word) : Word :=
  if tapSum (taps w) ≤ 64 then w
  else
    let c := setBits (Config.scaleTaps w) 31 30 (bits w 31 30)
    if tapSum (taps c) ≤ 64 then c else packTaps w [0, 0, 0, 0, 0]

/-- The presets of R122. -/
def preset (n : Nat) : List Int :=
  if n = 1 then [0, 0, 0, 63, 0] else if n = 2 then [0, 0, -8, 48, -8] else [0, 2, -12, 44, -6]

/-- One step of one tap: 1 increment, 2 decrement; the value and its status (R111). -/
def stepTap (lo hi : Int) (v : Int) (req : Nat) : Int × Nat :=
  if req = 1 then (if v < hi then (v + 1, 1) else (v, 3))
  else if req = 2 then (if lo < v then (v - 1, 1) else (v, 2)) else (v, 0)

/-- The answer to a coefficient request: the new taps and COEF_STS (R111, R116). -/
def coefAnswer (w : Word) (req : Nat) : Word × Nat :=
  let p := nbits req 15 14
  if p ≠ 0 then (fitTaps (packTaps w (preset p)), 2 ^ 14)
  else
    let t := taps w
    let r := (List.range 5).map (fun i =>
      stepTap (if i = 3 then 0 else -32) (if i = 3 then 63 else 31) (t.getD i 0) (nbits req (13 - 2 * i) (12 - 2 * i)))
    (fitTaps (packTaps w (r.map (·.1))),
      r.foldl (fun a x => a * 4 + x.2) 0 * 16)

/-- Respond to a peer's request on a lane: with the transmitter forced, "not updated" (R116, R121). -/
def coefRespond (s : State) (u : LaneUnit) (j req seq : Nat) : State :=
  let b := lnBase u j
  if (s.lane u j).ackSeq.toNat = seq then s
  else
    let forced := s.get (Reg.LN_TXEQ_MODE b) = 1
    let a := coefAnswer (s.rd (Reg.LN_TXEQ b)) req
    let s := if forced then s else s.wr (Reg.LN_TXEQ b) a.1
    s.modLane u j (fun l => { l with ackSeq := BitVec.ofNat 8 seq, coefSts := if forced then 0 else BitVec.ofNat 16 a.2 })

/-- A write of LNx_TXEQ: the mode is stored; the taps apply, scaled, when the mode is FORCED (R121, R122). -/
def txeqWrite (u : LaneUnit) (j : Nat) (val : Word) (s : State) : State :=
  let r := Reg.LN_TXEQ (lnBase u j)
  if bits val 31 30 = 1 then s.wr r (fitTaps val) else s.wr r (setBits (s.rd r) 31 30 (bits val 31 30))

/-- A receiver has something to adapt to: its quad is powered and its CDR locked (R121). -/
def State.adapts (s : State) (u : LaneUnit) (j : Nat) : Bool := s.quadOn u j && s.flag (Reg.LN_STS_CDR_LOCK (lnBase u j))

/-- A measured frequency offset, within ±700 ppm in units of 0.1 ppm (R123; log 6). -/
def freqErr (n : Nat) : Nat := (n % 14001 + 65536 - 7000) % 65536

/-- The receiver adapts: the values in effect, the eye and the frequency offset are measured, so free (R121, R123; log 6). -/
def adapt (s : State) (u : LaneUnit) (j : Nat) : State :=
  let b := lnBase u j
  let (v, s) := s.draw
  let n := v.toNat
  let s := (s.set (Reg.LN_CDR_FREQ_ERR b) (freqErr (nbits n 15 0))).set (Reg.LN_STS_EYE_FOM b) (nbits n 23 16)
  let s := if s.get (Reg.LN_CTLE_MODE b) = 0 then
      (s.set (Reg.LN_CTLE_PEAK b) (nbits n 28 24)).set (Reg.LN_CTLE_LFG b) (nbits n 34 32) else s
  if s.get (Reg.LN_DFE_CTRL_MODE b) = 0 then
    s.wrs (Reg.LN_DFE_VAL b 0) [w32 (nbits n 95 64), w32 (nbits n 127 96), w32 (nbits n 159 128)] else s

/-- A write of LNx_CTLE or LNx_DFE_CTRL: the values written apply in mode FORCE, TAP_EN is plain, and adaptation goes on at once
when the mode becomes ADAPT (R121). -/
def eqWrite (u : LaneUnit) (j off keepHi keepLo : Nat) (val : Word) (s : State) : State :=
  let old := s.rd off
  let s := storeReg off val s
  let s := if bits val 31 30 = 2 ∨ keepHi = 0 then s else s.wr off (setBits (s.rd off) keepHi keepLo (bits old keepHi keepLo))
  if bits old 31 30 ≠ 0 ∧ bits val 31 30 = 0 ∧ s.adapts u j = true then adapt s u j else s

/-- A write of LNx_DFE_VAL applies when the DFE is forced (R121). -/
def dfeWrite (u : LaneUnit) (j off : Nat) (val : Word) (s : State) : State :=
  if s.get (Reg.LN_DFE_CTRL_MODE (lnBase u j)) = 2 then storeReg off val s else s

/-! ### Korone training frames -/

/-- The KTF that a lane sends, before scrambling (R111). -/
def ktfBytes (s : State) (u : LaneUnit) (k j : Nat) (stepReq hold : Bool) : List Byte :=
  let l := s.lane u j
  let w := s.laneWidth u k
  let body : List Byte := toBe 4 0x1D2B6E47 ++ toBe 1 1 ++ toBe 1 (j % w) ++ toBe 1 w ++
    toBe 1 (s.get (Reg.LN_STS_RUNG (lnBase u j))) ++ toBe 1 (s.get (Reg.LN_CFG_LADDER (lnBase u k))) ++
    toBe 1 (b2n l.rxReady * 128 + b2n stepReq * 64 + b2n hold * 32) ++ toBe 2 l.req.toNat ++ toBe 2 l.coefSts.toNat ++
    toBe 1 l.reqSeq.toNat ++ toBe 1 l.ackSeq.toNat ++ toBe 8 l.ownLinkId.toNat ++ List.replicate 36 0
  body ++ toBe 4 (crc32 body).toNat

/-- A port's own HOLD (R134). -/
def State.ownHold (s : State) (u : LaneUnit) (k : Nat) : Bool := s.flag (Reg.LN_TRAIN_HOLD (lnBase u k))

/-- The port shows STEP_REQ on every lane (R118). -/
def State.stepReq (s : State) (u : LaneUnit) (k : Nat) : Bool :=
  decide (s.laneSt u k = 4) && decide (s.policy u k = 2) && !s.ownHold u k &&
    (s.portLanes u k).all (fun j => (s.lane u j).rxReady && (s.lane u j).peerReady && !(s.lane u j).peerHold && !(s.lane u j).gap)

/-- The common mask of a port (R117). -/
def State.commonMask (s : State) (u : LaneUnit) (k : Nat) : Nat :=
  s.get (Reg.LN_CFG_LADDER (lnBase u k)) &&& s.get (Reg.LN_TRAIN_STS_PEER_LADDER (lnBase u k))

/-- The lowest rung of the common mask above the present one (R117). -/
def State.nextRung (s : State) (u : LaneUnit) (k : Nat) : Option Nat :=
  [1, 2, 3, 4].find? (fun r => decide (s.get (Reg.LN_STS_RUNG (lnBase u k)) < r) && nbit (s.commonMask u k) (r - 1))

/-- The port enters the 1 µs gap once 16 KTFs with STEP_REQ were sent and 2 received on every lane: STEP where a next rung is to
come, and still TRAIN where mission traffic is (R118, R119). -/
def tryStep (s : State) (u : LaneUnit) (k : Nat) : State :=
  if s.stepReq u k ∧ (s.portLanes u k).all (fun j => decide (16 ≤ (s.lane u j).sentStep) && decide (2 ≤ (s.lane u j).peerStep)) then
    let rung := s.get (Reg.LN_STS_RUNG (lnBase u k))
    if rung = s.topRung u k then modLanes s u (s.portLanes u k) (fun l => { l with gap := true }) else portSet s u k 5 rung
  else s

/-- The port is in the gap before mission traffic (R118). -/
def State.inGap (s : State) (u : LaneUnit) (k : Nat) : Bool := decide (s.laneSt u k = 4) && (s.lane u k).gap

/-- A KTF that counts: marker, CRC and the receiver's rung (R113). -/
def ktfValid (s : State) (u : LaneUnit) (j : Nat) (f : List Byte) : Bool :=
  decide (f.length = 64) && decide (be (sub f 0 4) = 0x1D2B6E47) && decide (be (sub f 60 4) = (crc32 (f.take 60)).toNat) &&
    decide (byteAt f 7 = s.get (Reg.LN_STS_RUNG (lnBase u j)))

/-- Error limit over 10^7 known bits (R115). -/
def errLimit (rung : Nat) : Nat := if rung = 4 then 2400 else 10

/-- Lanes of a port report one lane number twice, or different LINK_ID values (R114). -/
def miswired (s : State) (u : LaneUnit) (k : Nat) : Bool :=
  let js := (s.portLanes u k).filter (fun j => s.flag (Reg.LN_STS_MAP_VALID (lnBase u j)))
  js.any (fun i => js.any (fun j => decide (i ≠ j) &&
    (decide (s.get (Reg.LN_STS_LOGICAL (lnBase u i)) = s.get (Reg.LN_STS_LOGICAL (lnBase u j))) ||
      decide ((s.lane u i).linkId ≠ (s.lane u j).linkId))))

/-- All lanes have their map and it is not the identity (R114). -/
def reordered (s : State) (u : LaneUnit) (k : Nat) : Bool :=
  (s.portLanes u k).all (fun j => s.flag (Reg.LN_STS_MAP_VALID (lnBase u j))) &&
    (s.portLanes u k).any (fun j => decide (s.get (Reg.LN_STS_LOGICAL (lnBase u j)) ≠ j - k))

/-- A valid KTF: what it says of the peer's lane, width, ladder and state (R113 to R118). -/
def ktfTake (s : State) (u : LaneUnit) (k j : Nat) (f : List Byte) (known errs : Nat) : State :=
  let b := lnBase u j
  let w := s.laneWidth u k
  let done := (s.portLanes u k).all (fun i => s.flag (Reg.LN_STS_MAP_VALID (lnBase u i)))
  let s := s.modLane u j (fun l => { l with
    validRun := l.validRun + 1, ktfSeen := true, linkId := BitVec.ofNat 64 (be (sub f 16 8)),
    peerReady := nbit (byteAt f 9) 7, peerStep := if nbit (byteAt f 9) 6 then l.peerStep + 1 else 0,
    peerHold := nbit (byteAt f 9) 5, peerAck := BitVec.ofNat 8 (byteAt f 15), known := known, errs := errs })
  let l := s.lane u j
  let ready := s.flag (Reg.LN_STS_CDR_LOCK b) && decide (8 ≤ l.validRun) && decide (10000000 ≤ known) &&
    decide (errs ≤ errLimit (byteAt f 7))
  let s := s.modLane u j (fun l => { l with rxReady := ready })
  let s := ((s.set (Reg.LN_TRAIN_STS_PEER_LADDER (lnBase u k)) (byteAt f 8)).set
    (Reg.LN_TRAIN_STS_PEER_WIDTH (lnBase u k)) (byteAt f 6))
  let s := s.set (Reg.LN_TRAIN_STS_COMMON (lnBase u k)) (s.commonMask u k)
  let s := if be (sub f 10 2) = 0 ∧ byteAt f 14 = l.ackSeq.toNat then s else coefRespond s u j (be (sub f 10 2)) (byteAt f 14)
  let s := if byteAt f 5 < w then
      (s.set (Reg.LN_STS_LOGICAL b) (byteAt f 5)).setFlag (Reg.LN_STS_MAP_VALID b) true else s
  if byteAt f 6 ≠ w then failPort s u k 4
  else if byteAt f 5 ≥ w ∨ miswired s u k = true then failPort s u k 3
  else if nbit (s.commonMask u k) (s.topRung u k - 1) = false then failPort s u k 2
  else
    let s := if !done ∧ reordered s u k then raiseLane s u k 7 else s
    tryStep (tryDetect s u k) u k

/-- The marker of R111, and what it becomes on a swapped pair (R113). -/
def marker : Nat := 0x1D2B6E47
/-- The inverted marker of a rung (R113). -/
def invMarker (rung : Nat) : Nat := if rung ≤ 2 then 0xE2D491B8 else 0xB781C4ED

/-- The search for a frame start at every bit position: the first marker or inverted marker, and the 512 bits from it (R113). -/
def findKtf (rung : Nat) : List Bool → Option (Bool × List Bool)
  | [] => none
  | b :: r =>
    let w := bitsNum ((b :: r).take 32)
    if r.length < 511 then none
    else if w = marker then some (false, (b :: r).take 512)
    else if w = invMarker rung then some (true, (b :: r).take 512)
    else findKtf rung r

/-- Bits reach the receiver of a ladder lane: a frame start is found, polarity corrected, the frame descrambled and checked
(R112, R113). What is no valid frame ends the run of valid ones and takes RX_READY back (R115). -/
def hearKtf (s : State) (u : LaneUnit) (k j : Nat) (l : List Bool) (known errs : Nat) : State :=
  let b := lnBase u j
  let rung := s.get (Reg.LN_STS_RUNG b)
  let lost := fun (s : State) => s.modLane u j (fun l => { l with validRun := 0, peerStep := 0, rxReady := false })
  match findKtf rung l with
  | none => lost s
  | some (inverted, raw) =>
    let fixNow := inverted && s.flag (Reg.LN_CFG_POL_RX_AUTO b) && !s.flag (Reg.LN_STS_RX_POL_INV b)
    let s := if fixNow then raiseLane (s.setFlag (Reg.LN_STS_RX_POL_INV b) true) u j 6 else s
    let f := ktfScramble (bytesOf (if s.flag (Reg.LN_STS_RX_POL_INV b) then flipBits rung raw else raw))
    let s := if s.adapts u j then adapt s u j else s
    if ktfValid s u j f then ktfTake s u k j f known errs else lost s

/-- A lane of a ladder port that takes training frames: in DETECT, TRAIN or STEP (R113, R119). -/
def State.ladderLane (s : State) (u : LaneUnit) (k j : Nat) : Bool :=
  decide (s.policy u k = 2) && (decide (s.laneSt u j = 2) || decide (s.laneSt u j = 4) || decide (s.laneSt u j = 5))

/-- Bits with a training frame arrive on a lane's pair: `lead` stands before the 64 bytes (R113, R128). -/
def ktfReceivedOp (u : LaneUnit) (j : Nat) (lead : List Bool) (f : List Byte) (known errs : Nat) (s : State) : State :=
  let l := lead ++ bitsOf f
  match s.portOf u j with
  | none => s
  | some k =>
    if s.ladderLane u k j = false ∨ s.nearLoop u j = true then s
    else
      let s := if s.farLoop u j && !s.flag (Reg.LN_CFG_TX_DISABLE (lnBase u j)) && decide (s.laneSt u j ≠ 5) then
          sendBits s u j (s.get (Reg.LN_STS_RUNG (lnBase u j))) l else s
      hearKtf s u k j l known errs

/-- A new coefficient request of the receiver: what it asks is its own adaptation's, so free (R116, R121; log 6). -/
def newRequest (s : State) (u : LaneUnit) (j : Nat) : State :=
  let l := s.lane u j
  if l.peerAck = l.reqSeq then
    let (v, s) := s.draw
    let two := fun i => let t := nbits v.toNat (2 * i + 1) (2 * i); if t = 3 then 0 else t
    let r := (List.range 5).foldl (fun a i => a + two i * 2 ^ (4 + 2 * i)) 0
    if r = 0 then s
    else s.modLane u j (fun l => { l with req := BitVec.ofNat 16 r, reqSeq := l.reqSeq + 1 })
  else s

/-- A lane sends a KTF (R111, R112, R118). A lane whose transmitter is disabled or loops its receiver back sends none of its own;
in a near-end loopback the lane hears it (R128). -/
def ktfTxOp (u : LaneUnit) (j : Nat) (s : State) : State :=
  match s.portOf u j with
  | none => s
  | some k =>
    if s.policy u k ≠ 2 ∨ (s.laneSt u j ≠ 2 ∧ s.laneSt u j ≠ 4) ∨ s.inGap u k = true then s
    else if s.flag (Reg.LN_CFG_TX_DISABLE (lnBase u j)) = true ∨ s.farLoop u j = true then s
    else
      let s := newRequest s u j
      let req := s.stepReq u k
      let rung := s.get (Reg.LN_STS_RUNG (lnBase u j))
      let l := bitsOf (ktfScramble (ktfBytes s u k j req (s.ownHold u k)))
      let s := sendBits s u j rung l
      let s := if req then s.modLane u j (fun l => { l with sentStep := l.sentStep + 1 }) else s
      let x := s.lane u j
      let s := if s.nearLoop u j then hearKtf s u k j (s.onPair u j rung l) (min 10000000 (x.known + 288)) x.errs else s
      tryStep s u k

/-- The gap ends: the next rung, or mission traffic at the top (R118, R119; log 12). -/
def stepResumeOp (u : LaneUnit) (j : Nat) (s : State) : State :=
  match s.portOf u j with
  | none => s
  | some k =>
    let s' := modLanes s u (s.portLanes u k) (fun l => { l with
      validRun := 0, ktfSeen := false, peerReady := false, peerStep := 0, rxReady := false, sentStep := 0, gap := false,
      known := 0, errs := 0 })
    if s.inGap u k then portSet s' u k 6 (s.topRung u k)
    else if s.laneSt u j ≠ 5 then s
    else match s.nextRung u k with
      | some r => portSet s' u k 4 r
      | none => failPort s' u k 2

/-! ### Signal, lock, clocks and timers -/

/-- CDR lock (R123). -/
def cdrLockOp (u : LaneUnit) (j : Nat) (s : State) : State :=
  if s.quadOn u j = false ∨ s.refclkOk u = false then s
  else
    let b := lnBase u j
    let s := ((s.setFlag (Reg.LN_STS_CDR_LOCK b) true).setFlag (Reg.LN_CDR_LOCK b) true).setFlag (Reg.LN_STS_SIGNAL b) true
    let s := adapt s u j
    match s.portOf u j with
    | some k => tryDetect s u k
    | none => s

/-- Loss of CDR lock (R123, R129, R132). In the gap of a step the peer is silent, and the loss restarts nothing (log 12). -/
def cdrUnlockOp (u : LaneUnit) (j : Nat) (s : State) : State :=
  let b := lnBase u j
  if s.flag (Reg.LN_STS_CDR_LOCK b) = false then s
  else
    let s := ((s.setFlag (Reg.LN_STS_CDR_LOCK b) false).setFlag (Reg.LN_CDR_LOCK b) false).setFlag (Reg.LN_CDR_LOST b) true
    let s := s.modLane u j (fun l => { l with rxReady := false })
    match s.portOf u j with
    | none => s
    | some k =>
      let st := s.laneSt u j
      let s := if (st = 4 ∨ st = 5 ∨ st = 6) ∧ s.flag (Reg.LN_STS_SIGNAL b) then raiseLane s u j 2 else s
      if (st = 4 ∨ st = 6) ∧ s.inGap u k = false then restartPort s u k 0 else s

/-- Loss of signal (R129): it takes the lock with it, begins the 1 ms wait of a restarted bring-up anew while the port is still
in its start state, and restarts a port in TRAIN or MISSION. -/
def losOp (u : LaneUnit) (j : Nat) (s : State) : State :=
  let b := lnBase u j
  match s.portOf u j with
  | none => s
  | some k =>
    if s.portActive u k = false then s
    else
      let s := raiseLane (s.inc (Reg.LN_LOS_COUNT b)) u j 1
      let s := if s.flag (Reg.LN_STS_CDR_LOCK b) then s.setFlag (Reg.LN_CDR_LOST b) true else s
      let s := ((s.setFlag (Reg.LN_STS_SIGNAL b) false).setFlag (Reg.LN_STS_CDR_LOCK b) false).setFlag (Reg.LN_CDR_LOCK b) false
      let s := s.modLane u j (fun l => { l with
        rxReady := false, waitSignal := l.waitSignal || (l.restarted && decide (s.laneSt u k = s.startState u k)) })
      if (s.laneSt u j = 4 ∨ s.laneSt u j = 6) ∧ s.inGap u k = false then restartPort s u k 6 else s

/-- No lane of the port waits for signal after a restart (R129). -/
def State.noWait (s : State) (u : LaneUnit) (k : Nat) : Bool := (s.portLanes u k).all (fun j => !(s.lane u j).waitSignal)

/-- The medium's own code of AN_HCD stands in LNx_TRAIN_STS: the port's PMD was resolved (R107). -/
def State.resolved (s : State) (u : LaneUnit) (k : Nat) : Bool :=
  decide (s.get (Reg.LN_TRAIN_STS_AN_HCD (lnBase u k)) = s.get (Reg.LN_CFG_MEDIUM (lnBase u k)) + 1)

/-- A receiver's polarity under the IEEE policies, found in the training marker or, with training off, in the alignment markers:
which way it finds the pair is the board's, so free (R109; log 6). -/
def ieeePolarity (s : State) (u : LaneUnit) (j : Nat) : State :=
  if s.flag (Reg.LN_CFG_POL_RX_AUTO (lnBase u j)) then
    let (v, s) := s.draw
    s.setFlag (Reg.LN_STS_RX_POL_INV (lnBase u j)) (nbit v.toNat 0)
  else s

/-- A lane's equalisers after the clause's training: the taps that the partner's requests left in a TRAINED transmitter, within
full swing, are the partner's choice, and CTLE and DFE have adapted, so both are free (R108, R121, R122; log 6). -/
def ieeeEqualise (s : State) (u : LaneUnit) (j : Nat) : State :=
  let r := Reg.LN_TXEQ (lnBase u j)
  let s := if s.get (Reg.LN_TXEQ_MODE (lnBase u j)) = 0 then
      let (v, s) := s.draw
      s.wr r (fitTaps (setBits (BitVec.ofNat 32 v.toNat) 31 30 0))
    else s
  adapt s u j

/-- MISSION after the clause's training (R108, R109, R110). -/
def ieeeMission (s : State) (u : LaneUnit) (k : Nat) : State :=
  portSet ((s.portLanes u k).foldl (fun s j => ieeeEqualise (ieeePolarity s u j) u j) s) u k 6 4

/-- Signal has been present without a break for 1 ms (R129): what the port had reached in its start state now takes it on. -/
def signalStableOp (u : LaneUnit) (j : Nat) (s : State) : State :=
  if s.quadOn u j = false then s
  else
    let s := s.setFlag (Reg.LN_STS_SIGNAL (lnBase u j)) true
    let s := s.modLane u j (fun l => { l with waitSignal := false })
    match s.portOf u j with
    | none => s
    | some k =>
      if s.noWait u k = false then s
      else if s.laneSt u k = 3 ∧ s.resolved u k = true then portSet s u k 4 4
      else if s.laneSt u k = 4 ∧ s.policy u k ≠ 2 ∧ (s.lane u k).trained = true then ieeeMission s u k
      else tryDetect s u k

/-- No progress within RUNG_TIMEOUT_MS on the ladder (R119). -/
def rungTimeoutOp (u : LaneUnit) (j : Nat) (s : State) : State :=
  match s.portOf u j with
  | some k =>
    if s.policy u k = 2 ∧ (s.laneSt u j = 2 ∨ s.laneSt u j = 4 ∨ s.laneSt u j = 5) then restartPort s u k 1 else s
  | none => s

/-- One second in FAILED (R110, R119). -/
def failRetryOp (u : LaneUnit) (j : Nat) (s : State) : State :=
  match s.portOf u j with
  | some k => if s.laneSt u j = 7 then beginPort s u k false else s
  | none => s

/-- A Clause 73 page on the port's first lane (R107, R110). -/
def anPageOp (u : LaneUnit) (j : Nat) (page : AnPage) (s : State) : State :=
  if s.portOf u j ≠ some j ∨ s.laneSt u j ≠ 3 then s
  else
    let medium := s.get (Reg.LN_CFG_MEDIUM (lnBase u j))
    let s := s.modLane u j (fun l => { l with anBase := true })
    let resolve := fun (hcd : Nat) (ok : Bool) =>
      let s := s.set (Reg.LN_TRAIN_STS_AN_HCD (lnBase u j)) hcd
      if ok then (if s.noWait u j then portSet s u j 4 4 else s) else failPort s u j 7
    match page with
    | .base => sendPages s u j
    | .resolvedKr => resolve 1 (medium = 0)
    | .resolvedCr => resolve 2 (medium = 1)
    | .resolvedOther => resolve 3 false

/-- Clause 73 returns to TRANSMIT DISABLE after a base page (R107). -/
def anTimerOp (u : LaneUnit) (j : Nat) (s : State) : State :=
  if s.portOf u j = some j ∧ s.laneSt u j = 3 ∧ (s.lane u j).anBase then failPort s u j 7 else s

/-- Link training of the PMD's clause completes on every lane; a restarted port waits with it for its signal (R110, R129). -/
def ieeeTrainDoneOp (u : LaneUnit) (j : Nat) (s : State) : State :=
  match s.portOf u j with
  | some k =>
    if s.policy u k = 2 ∨ s.laneSt u j ≠ 4 then s
    else if s.noWait u k then ieeeMission s u k
    else modLanes s u (s.portLanes u k) (fun l => { l with trained := true })
  | none => s

/-- The clause's maximum wait timer expires in TRAIN (R110). -/
def ieeeTrainTimeoutOp (u : LaneUnit) (j : Nat) (s : State) : State :=
  match s.portOf u j with
  | some k => if s.policy u k ≠ 2 ∧ s.laneSt u j = 4 then failPort s u k 8 else s
  | none => s

/-- The reference clock of a group is lost: every lane reports it and every port that is neither OFF nor in PRBS restarts
(R110, R119, R130). -/
def refclkLostOp (u : LaneUnit) (s : State) : State :=
  if s.lanes.refclkBad.contains u then s
  else
    let s := { s with lanes := { s.lanes with refclkBad := u :: s.lanes.refclkBad } }
    let s := (List.range (laneCount u)).foldl (fun s j =>
      raiseLane (s.setFlag (Reg.LN_STS_REFCLK_OK (lnBase u j)) false) u j 3) s
    (List.range (laneCount u)).foldl (fun s k =>
      if s.portOf u k = some k ∧ s.laneSt u k ≠ 0 ∧ s.laneSt u k ≠ 8 then restartPort s u k 5 else s) s

/-- The reference clock is taken as restored (R130). -/
def refclkRestoredOp (u : LaneUnit) (s : State) : State :=
  let s := { s with lanes := { s.lanes with refclkBad := s.lanes.refclkBad.filter (fun x => x ≠ u) } }
  (List.range (laneCount u)).foldl (fun s j => s.setFlag (Reg.LN_STS_REFCLK_OK (lnBase u j)) true) s

/-! ### Test patterns and injection -/

/-- The checker locks on 1,024 consecutive bits of its pattern, taken after Gray decoding (R126). In a near-end loopback it hears
the lane's own generator only (R128). -/
def prbsLockOp (u : LaneUnit) (j : Nat) (heard : List Symbol) (s : State) : State :=
  let b := lnBase u j
  let l := symbolBits heard
  let l := if s.flag (Reg.LN_PRBS_CFG_INV b) then l.map not else l
  if s.checks u j = true ∧ s.nearLoop u j = false ∧ 1024 ≤ l.length ∧ inPattern (s.get (Reg.LN_PRBS_CFG_PATTERN b)) l = true then
    lockPrbs s u j
  else s

/-- A locked checker has compared bits and found errors on them: both are counted, and 64 errors or more within 1,024 bits lose
the lock (R126; log 80). -/
def prbsLockLostOp (u : LaneUnit) (j bitsN errs : Nat) (s : State) : State :=
  let b := lnBase u j
  if s.flag (Reg.LN_PRBS_STS_LOCKED b) then
    let s := (s.bump (Reg.LN_PRBS_BITS b) bitsN).bump (Reg.LN_PRBS_ERR b) errs
    let s := if errs = 0 then s else s.modLane u j (fun x => { x with clean := some s.clk })
    if errs < 64 then s
    else
      let s := (s.setFlag (Reg.LN_PRBS_STS_LOCKED b) false).setFlag (Reg.LN_PRBS_STS_LOCK_LOST b) true
      raiseLane s u j 8
  else s

/-- The lane sends data into which the injector may inject: PRBS, or mission data with MISSION set (R127). -/
def State.injectable (s : State) (u : LaneUnit) (j : Nat) : Bool :=
  s.generates u j || (decide (s.laneSt u j = 6) && s.flag (Reg.LN_INJ_MISSION (lnBase u j)))

/-- The length of a burst: 0 acts as 1, and a value above 64 as 64 (R127). -/
def State.burstLen (s : State) (u : LaneUnit) (j : Nat) : Nat := min 64 (max 1 (s.get (Reg.LN_INJ_BURST (lnBase u j))))

/-- One burst of the lane's next bits is inverted and counted (R127); a lane's own checker finds it in a near-end loopback. -/
def injectOp (u : LaneUnit) (j : Nat) (s : State) : State :=
  if s.injectable u j then
    let n := s.burstLen u j
    let s := (s.inc (Reg.LN_INJ_COUNT (lnBase u j))).emit (.inverted (laneNamed u j) n)
    if s.nearLoop u j ∧ s.checks u j then prbsLockLostOp u j n n s else s
  else s

/-- A burst falls due by RATE_EXP, which acts from 10 to 40 (R127). -/
def injBurstOp (u : LaneUnit) (j : Nat) (s : State) : State :=
  let e := s.get (Reg.LN_INJ_RATE_EXP (lnBase u j))
  if 10 ≤ e ∧ e ≤ 40 then injectOp u j s else s

/-- A write of LNx_INJ (R127). -/
def injWrite (u : LaneUnit) (j : Nat) (val : Word) (s : State) : State :=
  let s := storeReg (Reg.LN_INJ (lnBase u j)) val s
  if bits val 31 31 = 1 then injectOp u j s else s

/-! ### What the pins show, and the lane map's rules -/

/-- A lane's transmitter is electrically idle (R131, R490). -/
def State.txIdle (s : State) (u : LaneUnit) (j : Nat) : Bool :=
  let st := s.laneSt u j
  !s.running || decide (st ≤ 1) || decide (st = 5) || (s.lane u j).gap || s.flag (Reg.LN_CFG_TX_DISABLE (lnBase u j)) ||
    (decide (u ≠ .lnf) && s.flag Reg.FAB_PAIR_CFG_PAIRED && s.flag Reg.FAB_PAIR_CFG_STANDBY_DARK &&
      decide (s.fab.role ≠ .active) && decide (s.fab.role ≠ .none))

/-- One lane keeps the rules of R102. -/
def laneOk (s : State) (u : LaneUnit) (j : Nat) : Bool :=
  if s.laneMode u j = 0 then true
  else
    let b := lnBase u j
    let w := s.laneWidth u j
    let m := s.laneMode u j
    let k := j - j % w
    let same := (List.range w).all (fun i =>
      decide ((s.rd (Reg.LN_CFG (lnBase u (k + i))) &&& 0xFFC08000) = (s.rd (Reg.LN_CFG b) &&& 0xFFC08000)))
    let width := match u with | .lnf => decide (w = 4) | .lnc => true | .lnl => true
    let mode := match u with
      | .lnc => decide (m = 1) | .lnl => decide (m = 1) || decide (m = 2) | .lnf => decide (m = 3)
    let pol := s.policy u j
    let policy := if m = 1 then decide (pol ≤ 2) else decide (pol = 2)
    let lad := s.get (Reg.LN_CFG_LADDER b)
    let ladder := decide (pol ≠ 2) || (nbit lad 0 && nbit lad (s.topRung u j - 1) && (decide (m ≠ 3) || !nbit lad 3))
    same && width && mode && policy && ladder

/-- CL j and LL j are both OFF, or belong to ports of one index and width (R102). -/
def pairOk (s : State) (j : Nat) : Bool :=
  if s.laneMode .lnc j = 0 ∨ s.laneMode .lnl j = 0 then
    decide (s.laneMode .lnc j = 0) && decide (s.laneMode .lnl j = 0)
  else decide (s.laneWidth .lnc j = s.laneWidth .lnl j)

/-- The lane map keeps the rules of R102. -/
def laneMapOk (s : State) : Bool :=
  (List.range 32).all (fun j => laneOk s .lnc j && laneOk s .lnl j && pairOk s j) &&
    (List.range 16).all (fun j => laneOk s .lnf j)

/-! ### The commands -/

/-- QUAD_POWERED -/
def execQuadPowered (unit : LaneUnit) (q : Fin 8) (s : State) : Host.Outcome State Fault Refusal :=
  .next (live (quadPoweredOp unit q) s)
/-- LANE_CFG_WRITE -/
def execLaneCfgWrite (who : Who) (l : Lane) (val : Word) (s : State) : Host.Outcome State Fault Refusal :=
  .next (gateOwner who (Reg.LN_CFG (lnBase l.unit l.idx)) (laneCfgOp l.unit l.idx val) s)
/-- LANE_RESTART -/
def execLaneRestart (who : Who) (l : Lane) (s : State) : Host.Outcome State Fault Refusal :=
  .next (gateOwner who (Reg.LN_TRAIN (lnBase l.unit l.idx)) (laneRestartOp l.unit l.idx) s)
/-- LANE_PRBS_CFG_WRITE -/
def execLanePrbsCfgWrite (who : Who) (l : Lane) (val : Word) (s : State) : Host.Outcome State Fault Refusal :=
  .next (gateOwner who (Reg.LN_PRBS_CFG (lnBase l.unit l.idx)) (prbsCfgOp l.unit l.idx val) s)
/-- CDR_LOCK -/
def execCdrLock (l : Lane) (s : State) : Host.Outcome State Fault Refusal := .next (live (cdrLockOp l.unit l.idx) s)
/-- CDR_UNLOCK -/
def execCdrUnlock (l : Lane) (s : State) : Host.Outcome State Fault Refusal := .next (live (cdrUnlockOp l.unit l.idx) s)
/-- LOS -/
def execLos (l : Lane) (s : State) : Host.Outcome State Fault Refusal := .next (live (losOp l.unit l.idx) s)
/-- SIGNAL_STABLE -/
def execSignalStable (l : Lane) (s : State) : Host.Outcome State Fault Refusal :=
  .next (live (signalStableOp l.unit l.idx) s)
/-- KTF_RECEIVED -/
def execKtfReceived (l : Lane) (lead : List Bool) (ktf : List Byte) (known errs : Nat) (s : State) :
    Host.Outcome State Fault Refusal := .next (live (ktfReceivedOp l.unit l.idx lead ktf known errs) s)
/-- STEP_RESUME -/
def execStepResume (l : Lane) (s : State) : Host.Outcome State Fault Refusal := .next (live (stepResumeOp l.unit l.idx) s)
/-- RUNG_TIMEOUT -/
def execRungTimeout (l : Lane) (s : State) : Host.Outcome State Fault Refusal := .next (live (rungTimeoutOp l.unit l.idx) s)
/-- FAIL_RETRY -/
def execFailRetry (l : Lane) (s : State) : Host.Outcome State Fault Refusal := .next (live (failRetryOp l.unit l.idx) s)
/-- AN_PAGE_RECEIVED -/
def execAnPageReceived (l : Lane) (page : AnPage) (s : State) : Host.Outcome State Fault Refusal :=
  .next (live (anPageOp l.unit l.idx page) s)
/-- AN_TIMER_EXPIRY -/
def execAnTimerExpiry (l : Lane) (s : State) : Host.Outcome State Fault Refusal := .next (live (anTimerOp l.unit l.idx) s)
/-- IEEE_TRAIN_DONE -/
def execIeeeTrainDone (l : Lane) (s : State) : Host.Outcome State Fault Refusal :=
  .next (live (ieeeTrainDoneOp l.unit l.idx) s)
/-- IEEE_TRAIN_TIMEOUT -/
def execIeeeTrainTimeout (l : Lane) (s : State) : Host.Outcome State Fault Refusal :=
  .next (live (ieeeTrainTimeoutOp l.unit l.idx) s)
/-- PRBS_LOCK -/
def execPrbsLock (h : PrbsHeard) (s : State) : Host.Outcome State Fault Refusal :=
  .next (live (prbsLockOp h.lane.unit h.lane.idx h.symbols) s)
/-- PRBS_LOCK_LOST -/
def execPrbsLockLost (l : Lane) (bitsN errs : Nat) (s : State) : Host.Outcome State Fault Refusal :=
  .next (live (prbsLockLostOp l.unit l.idx bitsN errs) s)
/-- INJ_ONCE -/
def execInjOnce (who : Who) (l : Lane) (s : State) : Host.Outcome State Fault Refusal :=
  .next (gateOwner who (Reg.LN_INJ (lnBase l.unit l.idx)) (injectOp l.unit l.idx) s)
/-- INJ_BURST -/
def execInjBurst (l : Lane) (s : State) : Host.Outcome State Fault Refusal := .next (live (injBurstOp l.unit l.idx) s)
/-- REFCLK_LOST -/
def execRefclkLost (unit : LaneUnit) (s : State) : Host.Outcome State Fault Refusal := .next (live (refclkLostOp unit) s)
/-- REFCLK_RESTORED -/
def execRefclkRestored (unit : LaneUnit) (s : State) : Host.Outcome State Fault Refusal :=
  .next (live (refclkRestoredOp unit) s)
/-- KTF_TX -/
def execKtfTx (l : Lane) (s : State) : Host.Outcome State Fault Refusal := .next (live (ktfTxOp l.unit l.idx) s)

end Sys2Proof.Machine
end

