-- ==== Sys2Proof/Machine/Ethernet.lean ====
section
/-! DEFINITION. Ethernet client and line ports (04): receiving a frame (R140, R141), link state and faults (R145 to R149),
FEC intervals (R150), and tagging at ingress (R557). -/

namespace Sys2Proof.Machine

/-- The pair's other port. -/
def otherSide : Side → Side | .client => .line | .line => .client

/-- Event of an Ethernet port (R152). -/
def ethEvent (side : Side) (nn : Nat) : Nat := (match side with | .client => 0x1800 | .line => 0x1C00) + nn

/-- Raise an event that names a port of a pair. -/
def raiseEth (s : State) (side : Side) (k nn : Nat) : State := raise s (ethEvent side nn) k 0 (some k)

/-- The receive limit of a client port, clamped to 1,518 to 9,216 (R141, R153). -/
def State.clientLimit (s : State) (k : Nat) : Nat := max 1518 (min 9216 (s.get (Reg.PORT_MAC_CFG_MAX_FRAME (portBase .client k))))

/-- The receive limit of a port (R141). -/
def State.rxLimit (s : State) (side : Side) (k : Nat) : Nat :=
  match side with | .client => s.clientLimit k | .line => s.clientLimit k + 32

/-- A frame that has just entered at index n (R202, R379). -/
def newFrame (s : State) (kind : FKind) (dir : Dir) (n m : Nat) (bytes : List Byte) : Frame :=
  { id := s.sch.nextId, kind := kind, dir := dir, n := n, m := m, bytes := bytes, plain := [], ta := s.tim.frc.toNat,
    stamp := s.stamp, stage := .lookup, action := 0, entry := none, named := none, assoc := none, slot := none, pn := 0,
    ptpEvent := false, ptpGeneral := false, td := none, missed := false, owner := n, pool := none, cells := 0, cls := 0,
    slices := 0, returned := [], gated := false, tagOk := none, cut := false, sampled := 0, crc := 0, txAt := 0, failed := false, memBad := false,
    queue := none, debit := none, traced := none, stages := 0 }

/-- Bit n of SPT_PORTS. -/
def State.sptPort (s : State) (n : Nat) : Bool :=
  if n < 32 then nbit (s.rd Reg.SPT_PORTS).toNat n else nbit (s.rd Reg.SPT_PORTS_HI).toNat (n - 32)

/-- K of the spotlight, 8 to 24 (R557, R562). -/
def State.sptK (s : State) : Nat := max 8 (min 24 (s.get Reg.SPT_CFG_K))

/-- Tag a frame at ingress with probability 2^-K, from the internal random source (R557). -/
def tagFrame (s : State) (f : Frame) : Frame × State :=
  if s.flag Reg.SPT_CFG_EN && s.sptPort f.n then
    let k := s.sptK
    let (v, s) := s.draw
    if v.toNat % 2 ^ k = 0 then
      ({ f with traced := some ((List.replicate 12 0).set 0 s.stamp), stages := 1 }, s.inc Reg.SPT_TAGGED)
    else (f, s)
  else (f, s)

/-- Raise an event that stands for a burst of drops when it is the first after 1 s without one; answers the new times. -/
def burst (s : State) (last : SMap Nat) (key id : Nat) (pair : Option Nat) : SMap Nat × State :=
  (mput key s.clk last, if firstInSecond s last key then raise s id key 0 pair else s)

/-- A frame enters the device: it is tagged or not and waits for its lookup; a full lookup queue drops it (R219). -/
def enterFrame (s : State) (f : Frame) : State :=
  let full := decide (512 ≤ (s.sch.frames.filter (fun g => decide (g.n = f.n) && decide (g.stage = .lookup))).length)
  let (f, s) := tagFrame s f
  let f := { f with id := s.sch.nextId }
  let s := s.addFrame f
  if full then
    let s := dropFrame s f.id (Reg.FLT_OVERRUN f.n)
    let (last, s) := burst s s.flt.lastOverrun f.n 0x2405 (some (f.n % 32))
    { s with flt := { s.flt with lastOverrun := last } }
  else s

/-- The MAC receives a frame: it is dropped and counted in the first case that applies, or passed to the parser
(R140, R141, R153). A port that is down receives too; without its lanes in MISSION no frame arrives. -/
def macRxOp (side : Side) (k : Nat) (fr : List Byte) (pcsError : Bool) (s : State) : State :=
  if s.ethActs side k = false ∨ s.isStream k = true ∨ s.inMission (sideUnit side) k = false then s
  else
    let b := portBase side k
    let s := (s.inc (Reg.PORT_RX_FRAMES b)).bump (Reg.PORT_RX_OCTETS b) fr.length
    if fr.length < 64 then s.inc (Reg.PORT_RX_RUNT b)
    else if s.rxLimit side k < fr.length then s.inc (Reg.PORT_RX_OVERSIZE b)
    else if pcsError ∨ fcsOk fr = false then s.inc (Reg.PORT_RX_FCS_ERR b)
    else if be (sub fr 12 2) = 0x8808 then s.inc (Reg.PORT_RX_MACCTL b)
    else
      enterFrame s (newFrame s .data (match side with | .client => .enc | .line => .dec) (portIdx side k)
        (portIdx (otherSide side) k) fr)

/-- Every lane of a port has a near-end loopback: what the port sends comes back to it. -/
def State.portNear (s : State) (u : LaneUnit) (k : Nat) : Bool := (s.portLanes u k).all (fun j => s.nearLoop u j)

/-- Every lane of a port has a far-end loopback: what the port receives goes out again, and nothing else does. -/
def State.portFar (s : State) (u : LaneUnit) (k : Nat) : Bool := (s.portLanes u k).all (fun j => s.farLoop u j)

/-- A frame on the port's pairs: not heard by a receiver that hears its own transmitter, and sent again by a far-end loopback
(R128; log 79). -/
def macPinsOp (side : Side) (k : Nat) (fr : List Byte) (pcsError : Bool) (s : State) : State :=
  let u := sideUnit side
  if (s.portLanes u k).any (fun j => s.nearLoop u j) then s
  else
    let s := if s.ethActs side k && s.inMission u k && s.portFar u k then s.emit (.frame (portIdx side k) fr false) else s
    macRxOp side k fr pcsError s

/-- Ethernet port m sends a frame: into its own receiver in a near-end loopback, and nowhere in a far-end one (R128). -/
def putFrame (s : State) (m : Nat) (bytes : List Byte) (stomped : Bool) : State :=
  let side : Side := if m < 32 then .client else .line
  let u := sideUnit side
  if s.portFar u (m % 32) then s
  else
    let s := s.emit (.frame m bytes stomped)
    if s.portNear u (m % 32) then macRxOp side (m % 32) bytes false s else s

/-- The conditions for up other than their 1 ms (R145), at stage 10 (R89, R93, R94). -/
def State.ethReady (s : State) (side : Side) (k : Nat) : Bool :=
  let b := portBase side k
  s.flag (Reg.PORT_CFG_PORT_EN b) && s.inMission (sideUnit side) k && s.flag (Reg.PORT_STS_BLOCK_LOCK b) &&
    s.flag (Reg.PORT_STS_ALIGNED b) && !s.flag (Reg.PORT_STS_HI_SER b) && decide (s.get (Reg.PORT_STS_FAULT_RX b) = 0) &&
    decide (s.stage = 10)

/-- The PCS gains block lock and alignment on all its lanes (R145); with training off it finds the polarity too (R109). -/
def pcsAlignedOp (side : Side) (k : Nat) (s : State) : State :=
  let b := portBase side k
  if s.ethActs side k && s.inMission (sideUnit side) k then
    let u := sideUnit side
    let s := if s.policy u k = 1 && s.flag (Reg.LN_TRAIN_TRAIN_OFF (lnBase u k)) then
        (s.portLanes u k).foldl (fun s j => ieeePolarity s u j) s else s
    ((s.setFlag (Reg.PORT_STS_BLOCK_LOCK b) true).setFlag (Reg.PORT_STS_ALIGNED b) true).setFlag (Reg.PORT_STS_HI_SER b) false
  else s

/-- The PCS loses block lock or alignment, or reports high symbol error (R145, R152). -/
def pcsAlignLostOp (side : Side) (k : Nat) (cause : PcsCause) (s : State) : State :=
  let b := portBase side k
  if s.ethActs side k = false then s
  else match cause with
    | .blockLock => ethDown ((s.setFlag (Reg.PORT_STS_BLOCK_LOCK b) false).setFlag (Reg.PORT_STS_ALIGNED b) false) side k
    | .align => ethDown (s.setFlag (Reg.PORT_STS_ALIGNED b) false) side k
    | .hiSer => ethDown (raiseEth (s.setFlag (Reg.PORT_STS_HI_SER b) true) side k 6) side k

/-- Skew beyond 250 ns keeps the port from alignment (R138). -/
def deskewFailOp (side : Side) (k : Nat) (s : State) : State :=
  if s.ethActs side k then
    ethDown (raiseEth (s.setFlag (Reg.PORT_STS_ALIGNED (portBase side k)) false) side k 5) side k
  else s

/-- Count a frame sent on port m (R153). -/
def countSent (s : State) (m octets : Nat) : State :=
  if s.korEgress m then (s.inc (Reg.KOR_TX_CAPSULES (m - 32))).bump (Reg.KOR_TX_OCTETS (m - 32)) octets
  else
    let b := if m < 32 then portBase .client m else portBase .line (m - 32)
    (s.inc (Reg.PORT_TX_FRAMES b)).bump (Reg.PORT_TX_OCTETS b) octets

/-- A frame that is leaving Ethernet port m ends with a stomped FCS, counted as sent and in TX_STOMPED (R144, R153). -/
def endStomped (s : State) (m id : Nat) (body : List Byte) : State :=
  let b := if m < 32 then portBase .client m else portBase .line (m - 32)
  let s := countSent s m (body.length + 4)
  releaseFrame (putFrame (s.inc (Reg.PORT_TX_STOMPED b)) m (body ++ stompBytes body) true) id 3

/-- Remote fault: a cut-through frame that is leaving port m with slices not yet released is stomped, once (R144, R148,
R151). -/
def stompCut (s : State) (m : Nat) : State :=
  s.sch.frames.foldl (fun s f =>
    if f.m = m ∧ f.stage = .sending ∧ f.cut = true ∧ f.tagOk = none ∧ f.failed = false then endStomped s m f.id f.plain else s) s

/-- The RS begins or stops receiving a fault (R145, R147, R148). -/
def rsFaultOp (side : Side) (k : Nat) (f : RsFault) (s : State) : State :=
  let b := portBase side k
  if s.ethActs side k = false then s
  else
    let old := s.get (Reg.PORT_STS_FAULT_RX b)
    match f with
    | .none => s.set (Reg.PORT_STS_FAULT_RX b) 0
    | .localFault =>
      let s := s.set (Reg.PORT_STS_FAULT_RX b) 1
      ethDown (if old = 1 then s else raiseEth s side k 3) side k
    | .remoteFault =>
      let s := stompCut (s.set (Reg.PORT_STS_FAULT_RX b) 2) (portIdx side k)
      ethDown (if old = 2 then s else raiseEth s side k 4) side k

/-- The up conditions have held for 1 ms (R145). -/
def linkUpOp (side : Side) (k : Nat) (s : State) : State :=
  let b := portBase side k
  if s.ethActs side k && s.ethReady side k && !s.flag (Reg.PORT_STS_LINK_UP b) then
    raiseEth (s.setFlag (Reg.PORT_STS_LINK_UP b) true) side k 1
  else s

/-- The paired port counts as down for fault mirroring: it is down, or it is a Korone line port that receives CSF (R149,
R193). -/
def State.pairDown (s : State) (side : Side) (k : Nat) : Bool :=
  !s.portUp (otherSide side) k ||
    (decide (side = .client) && s.isKorone k && s.flag (Reg.KOR_STS_CSF_RX k))

/-- Port m is sending a frame. -/
def State.sendsFrame (s : State) (m : Nat) : Bool := (mget m s.sch.sending).isSome

/-- The paired port is down and this port mirrors it, after the frame that is leaving it (R149, R151). -/
def mirrorStartOp (side : Side) (k : Nat) (s : State) : State :=
  let b := portBase side k
  let m := portIdx side k
  if s.ethActs side k && decide (s.get (Reg.PORT_CFG_FAULT_MIRROR b) = 1) && s.pairDown side k then
    if s.sendsFrame m then { s with sch := { s.sch with mirrorDue := ladd m s.sch.mirrorDue } }
    else s.setFlag (Reg.PORT_STS_MIRRORING b) true
  else s

/-- A port that PORT_EN holds down goes down once no frame is leaving it (R145, R151). -/
def settleEn (s : State) (side : Side) (k : Nat) : State :=
  if s.flag (Reg.PORT_CFG_PORT_EN (portBase side k)) || s.sendsFrame (portIdx side k) then s else ethDown s side k

/-- The frame that port m was sending has left: what waited for its end comes about (R151). -/
def frameLeft (s : State) (m : Nat) : State :=
  let side : Side := if m < 32 then .client else .line
  let due := s.sch.mirrorDue.contains m
  let s := { s with sch := { s.sch with mirrorDue := ldel m s.sch.mirrorDue } }
  let s := if due then mirrorStartOp side (m % 32) s else s
  if s.ethActs side (m % 32) then settleEn s side (m % 32) else s

/-- The paired port is up again (R149). -/
def mirrorStopOp (side : Side) (k : Nat) (s : State) : State :=
  if s.ethActs side k && !s.pairDown side k then
    let s := { s with sch := { s.sch with mirrorDue := ldel (portIdx side k) s.sch.mirrorDue } }
    s.setFlag (Reg.PORT_STS_MIRRORING (portBase side k)) false
  else s

/-- The end of a 1 ms interval: counts, and the FEC_DEGRADE condition (R150). -/
def fecIntervalOp (side : Side) (k corr uncorr : Nat) (syms : List Nat) (s : State) : State :=
  let b := portBase side k
  if s.ethActs side k = false then s
  else
    let s := ((s.bump (Reg.PORT_FEC_CORR_CW b) corr).bump (Reg.PORT_FEC_UNCORR_CW b) uncorr).bump (Reg.PORT_FEC_CORR_SYM b)
      (syms.foldl (· + ·) 0)
    let above := syms.any (fun n => decide (s.get (Reg.PORT_FEC_CFG_SET_TH b) < n))
    let clear := syms.all (fun n => decide (n ≤ s.get (Reg.PORT_FEC_CFG_CLEAR_TH b)))
    let was := s.flag (Reg.PORT_STS_DEGRADED b)
    if above then (if was then s else raiseEth (s.setFlag (Reg.PORT_STS_DEGRADED b) true) side k 7)
    else if clear then s.setFlag (Reg.PORT_STS_DEGRADED b) false else s

/-- A write of PORTx_CFG: without PORT_EN the port is down after the frame that is leaving it, and without FAULT_MIRROR it mirrors
nothing (R145, R149, R151). -/
def portCfgWrite (side : Side) (k : Nat) (val : Word) (s : State) : State :=
  if s.ethActs side k = false then s
  else
    let b := portBase side k
    let s := storeReg (Reg.PORT_CFG b) val s
    let s := if s.get (Reg.PORT_CFG_FAULT_MIRROR b) = 1 then s else s.setFlag (Reg.PORT_STS_MIRRORING b) false
    settleEn s side k

/-- What the RS of a port sends when no frame is leaving: remote fault while its receiver is down or receives local fault, and in
place of idle the fault that it mirrors (R147, R149). -/
def State.rsSends (s : State) (side : Side) (k : Nat) : RsFault :=
  let b := portBase side k
  if s.flag (Reg.PORT_STS_ALIGNED b) = false ∨ s.flag (Reg.PORT_STS_HI_SER b) = true ∨ s.get (Reg.PORT_STS_FAULT_RX b) = 1 then
    .remoteFault
  else if s.flag (Reg.PORT_STS_MIRRORING b) then .localFault
  else .none

/-! ### The commands -/

/-- MAC_RX_FRAME -/
def execMacRxFrame (side : Side) (k : Fin 32) (fr : List Byte) (e : Bool) (s : State) : Host.Outcome State Fault Refusal :=
  .next (live (macPinsOp side k fr e) s)
/-- PCS_ALIGNED -/
def execPcsAligned (side : Side) (k : Fin 32) (s : State) : Host.Outcome State Fault Refusal :=
  .next (live (pcsAlignedOp side k) s)
/-- PCS_ALIGN_LOST -/
def execPcsAlignLost (side : Side) (k : Fin 32) (c : PcsCause) (s : State) : Host.Outcome State Fault Refusal :=
  .next (live (pcsAlignLostOp side k c) s)
/-- DESKEW_FAIL -/
def execDeskewFail (side : Side) (k : Fin 32) (s : State) : Host.Outcome State Fault Refusal :=
  .next (live (deskewFailOp side k) s)
/-- RS_FAULT_RX -/
def execRsFaultRx (side : Side) (k : Fin 32) (f : RsFault) (s : State) : Host.Outcome State Fault Refusal :=
  .next (live (rsFaultOp side k f) s)
/-- LINK_UP -/
def execLinkUp (side : Side) (k : Fin 32) (s : State) : Host.Outcome State Fault Refusal := .next (live (linkUpOp side k) s)
/-- FAULT_MIRROR_START -/
def execFaultMirrorStart (side : Side) (k : Fin 32) (s : State) : Host.Outcome State Fault Refusal :=
  .next (live (mirrorStartOp side k) s)
/-- FAULT_MIRROR_STOP -/
def execFaultMirrorStop (side : Side) (k : Fin 32) (s : State) : Host.Outcome State Fault Refusal :=
  .next (live (mirrorStopOp side k) s)
/-- FEC_INTERVAL -/
def execFecInterval (side : Side) (k : Fin 32) (corrCw uncorrCw : Nat) (laneSyms : List Nat) (s : State) :
    Host.Outcome State Fault Refusal := .next (live (fecIntervalOp side k corrCw uncorrCw laneSyms) s)

end Sys2Proof.Machine
end

