-- ==== Sys2Proof/Machine/MemGuard.lean ====
section
/-! DEFINITION. The memory guard (11) beyond line protection: the blob window (R413), reads, verdicts and errors (R414 to R417), writes
(R402, R418), the seal and what it keeps (R419 to R421), the application of a script's regions (R397, R409) and the changeover
(R422 to R424). -/

namespace Sys2Proof.Machine

/-! ### The blob window (R397, R413) -/

/-- Size of the blob window in units of 64 bytes, none when no window is served (R397, R413). -/
def State.blobUnits (s : State) : Option Nat :=
  match s.blobRegion with
  | some r => if s.served r then some (s.get Reg.MGD_ROLE_BLOB_SIZE * 16384) else none
  | none => none

/-- A 128-byte blob at an offset in units of 64 bytes lies in the window (R413, R471). -/
def State.blobInside (s : State) (off : Nat) : Bool := match s.blobUnits with | some n => decide (off + 2 ≤ n) | none => false

/-- The data line at an offset of the blob window. -/
def State.blobLine (s : State) (off : Nat) : Nat :=
  s.rgnBase (s.blobRegion.getD 0) * unitLines + s.get Reg.MGD_ROLE_BLOB_BASE * 16384 + off

/-- The 128 bytes of the blob at an offset. -/
def State.blobAt (s : State) (off : Nat) : List Byte := s.linesAt (s.blobLine off) 2

/-- Write a blob. -/
def putBlob (s : State) (off : Nat) (b : List Byte) : State := writeLines s (s.blobLine off) 2 b

/-! ### Reads, verdicts and errors -/

/-- Fill MGD_HALT_REC (R416, R428). -/
def haltRec (s : State) (ev level line : Nat) : State :=
  let off := s.pathOffset level line
  ((s.wr Reg.MGD_HALT_REC (word [(Reg.MGD_HALT_REC_VALID, 1), (Reg.MGD_HALT_REC_LEVEL, level),
    (Reg.MGD_HALT_REC_EVENT, ev)])).wr Reg.MGD_HALT_REC1 (w32 off)).wr Reg.MGD_HALT_REC2 (w32 (off / 2 ^ 32))

/-- A write of MGD_HALT_REC[0]: a 1 in VALID clears the record, all its words (R428). -/
def haltRecWrite (val : Word) (s : State) : State :=
  if fieldOf Reg.MGD_HALT_REC_VALID val = 1 then s.wrs Reg.MGD_HALT_REC [0, 0, 0, 0] else s

/-- The line that stands at a level of the path of data line j in external memory (R428). -/
def State.pathLine (s : State) (level j : Nat) : List Byte :=
  if level = 0 then s.cipherLine j
  else if level = 1 then s.macLine j
  else if level = 2 then s.blockLine (j / 64)
  else if level = 3 then s.blockMacLine (j / 64)
  else s.nodeLine (level - 16) (j / 64 / 8 ^ (level - 16))

/-- A line is delivered to its client; a pager read is counted when it runs ahead of its verdict (R415, R428). A line that was found
unreadable is not delivered until it is written again (R417). -/
def deliverLine (s : State) (client : MemClient) (line : Nat) : State :=
  if s.mgd.badLines.contains line then s
  else
    let s := if client = .pager ∧ s.flag Reg.MGD_CFG_SPEC_EN = true then s.inc Reg.MGD_SPEC_READS else s
    s.emit (.memData client line (s.lineAt line))

/-- A guarded read completes: what the error code found decides, an uncorrectable error before a correctable one, which is corrected
and written back (R414, R415, R417, R426). -/
def readCompleteOp (client : MemClient) (line : Nat) (ecc : Ecc) (level : Nat) (missed : Bool) (s : State) : State :=
  if s.reachable line = false then s
  else
    let s := if missed then s.inc Reg.MGD_TREE_MISSES else s
    match ecc with
    | .ueTree => raise0 (haltRec s 0x6002 level line) 0x6002 0
    | .ueData =>
      let s := s.modMgd (fun m => { m with badLines := ladd line m.badLines })
      raise0 (s.inc Reg.MGD_UE_DATA_COUNT) 0x6005 0
    | .correctable =>
      let first := match s.mgd.lastCe with | none => true | some t => decide (tps ≤ s.clk - t)
      let s := s.modMgd (fun m => { m with lastCe := some s.clk })
      let s := (s.inc Reg.MGD_CE_COUNT).store (s.pathOffset level line) (s.pathLine level line)
      let s := deliverLine s client line
      if first then raise0 s 0x6006 0 else s
    | .good => deliverLine s client line

/-- The two takings of a memory verdict on what external memory returned for a line of the path (R416): whether the MAC and the
counters agree is computed, `true1` and `true2` say whether each taking came out as computed. Both pass, and frames that wait for it
may go; both fail, or they disagree, and the device halts (R316). -/
def memVerdictOp (a : Nat) (true1 true2 : Bool) (m : MemRead) (level : Nat) (s : State) : State :=
  let ok := s.authentic level m
  if true1 ≠ true2 then raise0 (haltRec s 0x6003 level m.line) 0x6003 0
  else if ok ≠ true1 then raise0 (haltRec s 0x6001 level m.line) 0x6001 0
  else match s.slotOf a with
    | some (i, _) => s.modSlot i (fun x => { x with verdictDue := false })
    | none => s

/-- A record of the store that a write has reached is known as it now stands, unless it is resident. -/
def reread (s : State) (line : Nat) : State :=
  match s.storeLine? with
  | some l =>
    let a := (line - l - 16384) / 4
    if l + 16384 ≤ line ∧ a < s.asc.size ∧ s.slotOf a = none then s.setRec a (s.storedRec a) else s
  | none => s

/-- A client's write at a data offset completes: of a whole line, or merged into one (R401, R402, R418). -/
def writeCompleteOp (place : Nat) (data : List Byte) (s : State) : State :=
  let line := place / 64
  if s.reachable line then reread (writePart s line (place % 64) data) line else s

/-! ### Changeover -/

/-- Begin a region's changeover (R422, R423). -/
def startChg (s : State) (r : Nat) : State :=
  let s := (s.set (Reg.MGD_RGN_STS_STATE r) 3).set (Reg.MGD_RGN_STS_QUEUED r) 0
  let s := s.set (Reg.MGD_RGN_STS_GEN r) (s.get (Reg.MGD_RGN_STS_GEN r) + 1)
  let s := s.setFlag Reg.MGD_STS_CHG_ACTIVE true
  let s := s.wr Reg.MGD_CHG_STS (word [(Reg.MGD_CHG_STS_RESULT, s.get Reg.MGD_CHG_STS_RESULT), (Reg.MGD_CHG_STS_REGION, r)])
  s.modRet (fun t => match mget r t.regions with
    | some x => { t with regions := mput r { x with gen := x.gen + 1, changing := true, boundary := 0 } t.regions }
    | none => t)

/-- START in MGD_CHG_CMD (R423, R426). -/
def chgStartOp (r : Nat) (s : State) : State :=
  if s.mgd.chgQueue.contains r then s
  else if r = 0 then s.set Reg.MGD_CHG_STS_RESULT 1
  else if s.rgnState r ≠ 2 ∨ s.mgd.keysGone = true then s.set Reg.MGD_CHG_STS_RESULT 2
  else if s.get (Reg.MGD_RGN_STS_GEN r) = 65535 then s.set Reg.MGD_CHG_STS_RESULT 3
  else if s.flag Reg.MGD_STS_CHG_ACTIVE then
    let s := (s.set (Reg.MGD_RGN_STS_QUEUED r) 1).set Reg.MGD_CHG_STS_RESULT 4
    s.modMgd (fun m => { m with chgQueue := m.chgQueue ++ [r] })
  else startChg (s.set Reg.MGD_CHG_STS_RESULT 0) r

/-- A write of MGD_CHG_CMD (R423, R584); the command itself completes in the step that starts it, and its region then has the
changeover under way or queued (log 24). -/
def chgCmdWrite (val : Word) (s : State) : State :=
  let go := decide (fieldOf Reg.MGD_CHG_CMD_START val = 1)
  startUnlessBusy Reg.MGD_CHG_CMD_BUSY go (fun s =>
    let s := storeReg Reg.MGD_CHG_CMD val s
    if go then chgStartOp (fieldOf Reg.MGD_CHG_CMD_REGION val) s else s) s

/-- The least number of a list. -/
def listMin : List Nat → Option Nat
  | [] => none
  | x :: l => match listMin l with | none => some x | some y => some (min x y)

/-- A changeover is complete; the next queued region's begins, in region order (R423, R424). -/
def chgDone (s : State) (r : Nat) : State :=
  let s := ((s.set (Reg.MGD_RGN_STS_STATE r) 2).setFlag (Reg.MGD_RGN_STS_EPHEMERAL r) false).setFlag Reg.MGD_STS_CHG_ACTIVE false
  let s := if r = 0 then s.setFlag Reg.CTL_BOOT_EPHEMERAL false else s
  let s := s.modRet (fun t => match mget r t.regions with
    | some x => { t with regions := mput r { x with changing := false, boundary := 0 } t.regions }
    | none => t)
  let s := raise0 s 0x6009 0
  match listMin s.mgd.chgQueue with
  | some q => startChg (s.modMgd (fun m => { m with chgQueue := ldel q m.chgQueue })) q
  | none => s

/-- The counters of a page after its conversion: MAJOR rises, and each line is written once more; an overflow is the
conversion's own (R401, R422, R426). -/
def convertBlock (b : CtrBlock) : CtrBlock :=
  if (List.range 64).any (fun l => b.minor l = 127) then { major := b.major + 1, minors := [] }
  else { major := b.major + 1, minors := (List.range 64).map (fun l => (l, b.minor l + 1)) }

/-- The boundary moves: to the next written page, which is converted, or to the region's end (R422). -/
def chgPageOp (s : State) : State :=
  if s.flag Reg.MGD_STS_CHG_ACTIVE = false ∨ s.mgd.keysGone = true then s
  else
    let r := s.get Reg.MGD_CHG_STS_REGION
    let first := s.rgnBase r * 512
    let n := s.rgnSize r * 512
    let b := s.get Reg.MGD_CHG_STS_BOUNDARY
    let next := (s.mgd.ctrs.find? (fun e => decide (first + b ≤ e.1) && decide (e.1 < first + n)))
    match next with
    | none => chgDone (s.set Reg.MGD_CHG_STS_BOUNDARY n) r
    | some (p, blk) =>
      let b' := p - first + 1
      let s := s.modMgd (fun m => { m with ctrs := mput p (convertBlock blk) m.ctrs, dirty := ladd p m.dirty })
      let s := storePage ((s.inc Reg.MGD_CHG_PAGES).set Reg.MGD_CHG_STS_BOUNDARY b') p
      let s := s.modRet (fun t => match mget r t.regions with
        | some x => { t with regions := mput r { x with boundary := b' } t.regions }
        | none => t)
      if b' = n then chgDone s r else s

/-! ### The seal, stage 4 and the application of a script's regions -/

/-- The seal after a reset assertion or a halt; it is not started again once it has run or POISON is set (R420, R426). -/
def sealOp (ok : Bool) (s : State) : State :=
  if (s.ctl.cond ≠ .halted ∧ s.ctl.cond ≠ .reset) ∨ s.mgd.ret.isSealed = true ∨ s.mgd.ret.poison = true ∨
      s.mgd.ret.crcOk = false then s
  else if ok then
    (writeBackAll s).modRet (fun t => { t with isSealed := true })
  else raise0 (s.modRet (fun t => { t with poison := true })) 0x600B 0

/-- A region enters SERVICE at stage 4 or APPLY. -/
def rgnService (s : State) (r gen : Nat) (resumed ephemeral : Bool) : State :=
  s.wr (Reg.MGD_RGN_STS r) (word [(Reg.MGD_RGN_STS_STATE 0, 2), (Reg.MGD_RGN_STS_RESUMED 0, b2n resumed),
    (Reg.MGD_RGN_STS_EPHEMERAL 0, b2n ephemeral), (Reg.MGD_RGN_STS_GEN 0, gen)])

/-- Stage 4 may resume what the retention store kept (R421). -/
def State.mayResume (s : State) : Bool :=
  let t := s.mgd.ret
  decide (s.bootMode = 0) && t.crcOk && t.isSealed && !t.poison && decide (t.lc.toNat = lcCode s.vlt.otp)

/-- Units of the data space that no held region covers are reset on a resume (R421). -/
def resetOthers (s : State) : State :=
  let held := s.mgd.ret.regions.filter (fun e => e.2.keep)
  let units := s.memD / 2097152
  let free := (List.range units).filter (fun u => held.all (fun e => !(decide (e.2.base ≤ u) && decide (u < e.2.base + e.2.size))))
  free.foldl (fun s u => rangeReset s u 1) s

/-- A fresh start: a new MEMORY_EPOCH, and the whole data space is unwritten (R421). -/
def freshStart (s : State) : State :=
  let (v, s) := s.drbg
  let s := s.modMgd (fun m => { m with
    ret := { clearRetention with epoch := v.truncate 64, crcOk := true },
    lines := [], ctrs := [], tree := [], dirty := [], badLines := [] })
  let s := s.modAsc (fun x => { x with recs := [] })
  raise0 (s.setFlag Reg.MGD_STS_FRESH true) 0x600C 0

/-- Stage 4 stops (R89, R392). -/
def trainFail (s : State) : State := raise0 (stageFail s 4 0x600A) 0x600A 0

/-- Region 0 is served under the ephemeral pair, drawn now with its NONCE, SEALED is clear and stage 5 begins (R89, R408, R421). -/
def stage4Done (s : State) : State :=
  let s := rgnService s 0 0 false true
  let (v, s) := s.drbg
  let (n, s) := s.drbg
  let s := s.modMgd (fun m => { m with
    keysGone := false, ephemeral := { enc := v.extractLsb' 256 256, mac := v.truncate 256 }, nonce0 := n.truncate 64 })
  let s := s.modRet (fun t => { t with isSealed := false, lc := BitVec.ofNat 8 (lcCode s.vlt.otp) })
  s.toStage 5

/-- Stage 4 completes or stops: training at the given rate, then a resume or a fresh start (R391, R392, R421). DEPTH counts every level
that R395 lays out in memory, the pinned ones among them (DEDUCED, log 23). -/
def memoryInitOp (rate : Nat) (pinnedOk : Bool) (s : State) : State :=
  if s.stage ≠ 4 then s
  else
    let sub := s.get Reg.MGD_DDR_STS_SUBCH
    let cap := s.get Reg.MGD_DDR_STS_CAP
    if sub = 3 ∨ cap = 3 ∨ rate = 0 then trainFail s
    else
      let s := ((s.set Reg.MGD_DDR_STS_RATE rate).set Reg.MGD_DDR_STS_C_GIB (subchannels sub * capGib cap)).setFlag
        Reg.MGD_STS_TRAINED true
      let s := s.set Reg.MGD_STS_DEPTH s.levels.length
      if s.mayResume then
        if pinnedOk then
          let held := s.mgd.ret.regions.filter (fun e => e.2.keep)
          let s := s.modRet (fun t => { t with regions := held })
          let s := held.foldl (fun s e => s.wr (Reg.MGD_RGN_STS e.1)
            (word [(Reg.MGD_RGN_STS_STATE 0, 1), (Reg.MGD_RGN_STS_GEN 0, e.2.gen)])) (resetOthers s)
          stage4Done s
        else stageFail ((haltRec s 0x6001 255 0).modRet (fun t => { t with poison := true })) 4 0x6001
      else stage4Done (freshStart s)

/-- Training fails at every rate or takes longer than 50 ms (R392). -/
def trainTimeoutOp (s : State) : State := if s.stage = 4 ∧ s.flag Reg.MGD_STS_TRAINED = false then trainFail s else s

/-- Two regions overlap. -/
def State.overlap (s : State) (a b : Nat) : Bool :=
  decide (s.rgnSize a ≠ 0) && decide (s.rgnSize b ≠ 0) && decide (s.rgnBase a < s.rgnBase b + s.rgnSize b) &&
    decide (s.rgnBase b < s.rgnBase a + s.rgnSize a)

/-- A region breaks R396. -/
def State.regionBad (s : State) (r : Nat) : Bool :=
  decide (s.rgnBase r < 32) || decide (s.memD < (s.rgnBase r + s.rgnSize r) * 2097152) ||
    (List.range 8).any (fun q => decide (q ≠ r) && s.overlap r q)

/-- The store's region is too small for N records (R397, R410). -/
def State.storeBad (s : State) : Bool :=
  match s.storeRegion with
  | some r => decide (s.rgnSize r * 2097152 < storeExtent s.asc.size)
  | none => false

/-- The blob window leaves its region, is empty, or overlaps the store (R397, R413). -/
def State.blobBad (s : State) : Bool :=
  match s.blobRegion with
  | some r =>
    let base := s.get Reg.MGD_ROLE_BLOB_BASE
    let size := s.get Reg.MGD_ROLE_BLOB_SIZE
    decide (size = 0) || decide (s.rgnSize r * 2 < base + size) ||
      (decide (s.storeRegion = some r) && decide (base * 1048576 < storeExtent s.asc.size))
  | none => false

/-- The rule that a region breaks, if any: 0 its own layout, 1 the store's, 2 the blob window's (R396, R397, R410, R413). -/
def State.regionFault (s : State) (r : Nat) : Option Nat :=
  if s.regionBad r then some 0
  else if s.storeRegion = some r ∧ s.storeBad = true then some 1
  else if s.blobRegion = some r ∧ s.blobBad = true then some 2
  else none

/-- MGD_LAYOUT names the region and the kind of fault (R397). -/
def raiseLayout (s : State) (r kind : Nat) : State := raise s 0x6008 r kind none

/-- A region enters FAULT (R397). -/
def faultRegion (s : State) (r kind : Nat) : State :=
  raiseLayout (s.wr (Reg.MGD_RGN_STS r) (word [(Reg.MGD_RGN_STS_STATE 0, 4)])) r kind

/-- A region descriptor matches what the retention store holds (R409). -/
def State.matchesHeld (s : State) (r : Nat) : Option Region :=
  match mget r s.mgd.ret.regions with
  | some x =>
    if s.rgnState r = 1 ∧ x.keep = true ∧ s.flag (Reg.MGD_RGN_CFG_KEEP r) = true ∧ x.base = s.rgnBase r ∧
      x.size = s.rgnSize r ∧ x.label.toNat = s.get (Reg.MGD_RGN_CFG_LABEL r) then some x else none
  | none => none

/-- A region is made new: range reset, new NONCE, GEN 1 (R409, R411). A store or blob window in it is new too. -/
def newRegion (s : State) (r : Nat) : State :=
  let (v, s) := s.drbg
  let s := rangeReset s (s.rgnBase r) (s.rgnSize r)
  let x : Region :=
  { base := s.rgnBase r, size := s.rgnSize r, label := BitVec.ofNat 16 (s.get (Reg.MGD_RGN_CFG_LABEL r)),
    keep := s.flag (Reg.MGD_RGN_CFG_KEEP r), nonce := v.truncate 64, gen := 1, changing := false, boundary := 0 }
  let s := s.modRet (fun t => { t with regions := mput r x t.regions })
  let s := if s.storeRegion = some r then s.modAsc (fun x => { x with recs := [] }) else s
  rgnService s r 1 false false

/-- APPLY reaches region r: a fault, a resume, a new region, or none (R397, R409). -/
def applyRegion (s : State) (r : Nat) : State :=
  let dropHeld := fun (s : State) => match mget r s.mgd.ret.regions with
    | some x => (rangeReset s x.base x.size).modRet (fun t => { t with regions := mdel r t.regions })
    | none => s
  if s.rgnSize r = 0 then (dropHeld s).wr (Reg.MGD_RGN_STS r) 0
  else match s.regionFault r with
    | some kind => faultRegion s r kind
    | none => match s.matchesHeld r with
      | some x =>
        let s := rgnService s r x.gen true false
        if x.changing then
          let s := (s.set (Reg.MGD_RGN_STS_STATE r) 3).setFlag Reg.MGD_STS_CHG_ACTIVE true
          s.wr Reg.MGD_CHG_STS (word [(Reg.MGD_CHG_STS_REGION, r), (Reg.MGD_CHG_STS_BOUNDARY, x.boundary)])
        else s
      | none => newRegion (dropHeld s) r

/-- The guard's part of a full script's APPLY: regions 1 to 7, then a role without a usable region, for which no region
changes state (R397, R409). -/
def applyRegions (s : State) : State :=
  let s := [1, 2, 3, 4, 5, 6, 7].foldl applyRegion s
  let s := if s.get Reg.MGD_ROLE_STORE_VALID = 1 ∧ s.storeRegion = none then
      raiseLayout s (s.get Reg.MGD_ROLE_STORE_REGION) 1 else s
  if s.get Reg.MGD_ROLE_BLOB_VALID = 1 ∧ s.blobRegion = none then
    raiseLayout s (s.get Reg.MGD_ROLE_BLOB_REGION) 2
  else s

/-- Stage 8: region 0's changeover from the ephemeral key begins, or waits its turn (R423). -/
def startRegion0 (s : State) : State :=
  if s.flag Reg.MGD_STS_CHG_ACTIVE then
    (s.set (Reg.MGD_RGN_STS_QUEUED 0) 1).modMgd (fun m => { m with chgQueue := m.chgQueue ++ [0] })
  else startChg s 0

/-! ### The commands -/

/-- MGD_READ_COMPLETE -/
def execMgdReadComplete (client : MemClient) (line : Nat) (ecc : Ecc) (level : Byte) (missed : Bool) (s : State) :
    Host.Outcome State Fault Refusal := .next (live (whenOn memDoms (readCompleteOp client line ecc level.toNat missed)) s)
/-- MEM_VERDICT -/
def execMemVerdict (a : BitVec 20) (true1 true2 : Bool) (line : MemRead) (level : Byte) (s : State) :
    Host.Outcome State Fault Refusal := .next (live (whenOn memDoms (memVerdictOp a.toNat true1 true2 line level.toNat)) s)
/-- MGD_WRITE_COMPLETE -/
def execMgdWriteComplete (_client : MemClient) (place : Nat) (data : List Byte) (s : State) :
    Host.Outcome State Fault Refusal := .next (live (whenOn memDoms (writeCompleteOp place data)) s)
/-- CHG_START -/
def execChgStart (who : Who) (region : BitVec 3) (s : State) : Host.Outcome State Fault Refusal :=
  .next (gateOwner who Reg.MGD_CHG_CMD
    (chgCmdWrite (word [(Reg.MGD_CHG_CMD_START, 1), (Reg.MGD_CHG_CMD_REGION, region.toNat)])) s)
/-- CHG_PAGE -/
def execChgPage (s : State) : Host.Outcome State Fault Refusal := .next (live chgPageOp s)
/-- SEAL -/
def execSeal (ok : Bool) (s : State) : Host.Outcome State Fault Refusal := .next (sealOp ok s)
/-- MEMORY_INIT_DONE -/
def execMemoryInitDone (rate : BitVec 2) (pinnedOk : Bool) (s : State) : Host.Outcome State Fault Refusal :=
  .next (live (memoryInitOp rate.toNat pinnedOk) s)
/-- DDR_TRAIN_TIMEOUT -/
def execDdrTrainTimeout (s : State) : Host.Outcome State Fault Refusal := .next (live trainTimeoutOp s)

end Sys2Proof.Machine
end

