-- ==== Sys2Proof/Machine/Control.lean ====
section
/-! DEFINITION. Ownership (02, R53 to R59): claims, releases, hand-overs and what a change of ringmaster closes, with the
firmware's delegations (R87, R88) that other units ask about. -/

namespace Sys2Proof.Machine

/-- Change the control unit. -/
def State.modCtl (s : State) (f : Ctl → Ctl) : State := { s with ctl := f s.ctl }

/-- The address that counts for a path (R55). -/
def ownerAddr (who : Who) : Nat := match who.path with
  | .fabric => who.addr.toNat | .pcie => 0 | .svc => 0 | .firmware => 0

/-- The loader's holder is the path with this code and fabric address. -/
def holderIs (s : State) (code addr : Nat) : Bool :=
  decide (s.get Reg.CTL_LOAD_STATUS_HOLDER = code) && decide (code ≠ 0) &&
    (decide (code ≠ 3) || decide (s.ctl.holderAddr.toNat = addr))

/-- The loader returns to IDLE with a result (R75 to R77). -/
def loaderIdle (s : State) (result : Nat) : State :=
  let s := s.wr Reg.CTL_LOAD_STATUS (w32 result)
  s.modCtl (fun c => { c with holderAddr := 0, doubled := c.doubled.filter (fun d => d.decision ≠ .signature) })

/-- A change of ringmaster closes the loader in OPEN, VERIFYING or VERIFIED unless its holder is the new ringmaster
(R76). -/
def loaderOwnerChange (s : State) (code addr : Nat) : State :=
  let st := s.get Reg.CTL_LOAD_STATUS_STATE
  if (st = 1 ∨ st = 2 ∨ st = 3) ∧ holderIs s code addr = false then loaderIdle s 13 else s

/-- A change of ringmaster closes the vault's open update, which the old ringmaster holds; an APPLY runs on (R469,
R76). -/
def updOwnerChange (s : State) : State :=
  if s.get Reg.VLT_UPD_STS_STATE = 1 then s.wr Reg.VLT_UPD_STS (w32 11) else s

/-- Stage 9 is entered: every lane that is enabled begins its bring-up (R89). -/
def enterLanes (s : State) : State :=
  let s := s.toStage 9
  let s := [0, 8, 16, 24].foldl (fun s j => settleLanes (settleLanes s .lnc j) .lnl j) s
  [0, 8].foldl (fun s j => settleLanes s .lnf j) s

/-- TEST mode at stage 9: every lane of a port runs its pattern generator and checker, with pattern and rung as its register holds
them, and every core in service runs its known-answer test (R94; log 81). -/
def startTests (s : State) : State :=
  let s := [LaneUnit.lnc, .lnl, .lnf].foldl (fun s u =>
    ((List.range (laneCount u)).filter (fun j => (s.portOf u j).isSome)).foldl (fun s j =>
      prbsCfgOp u j (setBits (s.rd (Reg.LN_PRBS_CFG (lnBase u j))) 31 30 3) s) s) s
  let cores := (s.frm.cores.filter (fun p => p.2.inService)).map (fun p => p.1)
  let s := { s with frm := { s.frm with kat := cores.foldl (fun l c => ladd c l) s.frm.kat } }
  cores.foldl (fun s c => s.setFlag (Reg.FRM_RING_CMD_BUSY (c / 16)) true) s

/-- Stage 7 completes: in NORMAL mode HEALTHY goes high, stage 8 starts the changeover and stage 9 follows at once (R89 to
R91); TEST mode goes on to stage 9 alone, with its tests (R94). -/
def afterScript (s : State) : State :=
  if s.bootMode = 2 then startTests (enterLanes s)
  else enterLanes (startRegion0 ((s.setFlag Reg.CTL_BOOT_HEALTHY true).toStage 8))

/-- Start-up goes on where its condition holds: stage 6 completes when a ringmaster exists, but RECOVERY stops there; stage 7
when a full script was applied (R89, R93). -/
def settleStages (s : State) : State :=
  let s := if s.stage = 6 ∧ s.owned = true ∧ s.bootMode ≠ 1 then s.toStage 7 else s
  if s.stage = 7 ∧ s.ctl.stage7Done = true then afterScript s else s

/-- One write of CTL_OWNER: a path becomes ringmaster, or with code 0 none is; any offer is gone. A change of path or
address increments SEQ, raises CTL_OWNER_CHANGED and closes what the old ringmaster held (R55, R62, R63, R549). -/
def setOwner (s : State) (code addr : Nat) : State :=
  let changed := decide (s.get Reg.CTL_OWNER_OWNER_PATH ≠ code) || decide (s.get Reg.CTL_OWNER_OWNER_ADDR ≠ addr)
  let seq := s.get Reg.CTL_OWNER_SEQ
  let s := s.wr Reg.CTL_OWNER (word [(Reg.CTL_OWNER_STATE, if code = 0 then 0 else 1), (Reg.CTL_OWNER_OWNER_PATH, code),
    (Reg.CTL_OWNER_OWNER_ADDR, addr), (Reg.CTL_OWNER_SEQ, if changed then seq + 1 else seq)])
  let s := if changed then updOwnerChange (loaderOwnerChange (raise0 s 0x0102 0) code addr) else s
  settleStages s

/-- The open offer is gone; the ringmaster keeps the device (R55). -/
def endOffer (s : State) : State :=
  if s.get Reg.CTL_OWNER_STATE = 2 then
    ((s.set Reg.CTL_OWNER_STATE 1).set Reg.CTL_OWNER_OFFER_PATH 0).set Reg.CTL_OWNER_OFFER_ADDR 0
  else s

/-- Rank of a claim among those of one clock, the lowest wins: PCIe, the service port, then the fabric by address (R58). -/
def claimRank (who : Who) : Nat := pathCode who.path * 64 + ownerAddr who

/-- The claim that wins a clock (R58). -/
def claimWinner (who : Who) (rivals : List Who) : Who :=
  rivals.foldl (fun best w => if claimRank w < claimRank best then w else best) who

/-- A class 1 decision has verified and is applied or about to be (R62, R95). -/
def decisionNear (s : State) : Bool :=
  (decide (s.get Reg.CTL_LOAD_STATUS_STATE = 3) || decide (s.get Reg.CTL_LOAD_STATUS_STATE = 4)) &&
    decide (s.get Reg.CTL_LOAD_STATUS_KIND = 4) && decide (bits (mlook 0 1 s.ctl.image) 23 16 = 1)

/-- CLAIM of one path (R55, R56). -/
def claimOp (who : Who) (s : State) : State :=
  if pathCode who.path = 0 then s
  else if s.get Reg.CTL_OWNER_STATE = 0 then setOwner s (pathCode who.path) (ownerAddr who)
  else s.inc Reg.CTL_CLAIM_REFUSED

/-- The CLAIMs of one clock: the winner's is served, the others are counted as refused (R58); all are where a class 1 decision is
applied in that clock (R95). -/
def claimsOp (c : ClaimSet) (s : State) : State :=
  let rivals := c.rivals.filter (fun w => decide (pathCode w.path ≠ 0))
  if c.decided && decisionNear s then s.bump Reg.CTL_CLAIM_REFUSED (rivals.length + b2n (decide (pathCode c.who.path ≠ 0)))
  else
    let s := claimOp (claimWinner c.who rivals) s
    if rivals = [] then s else s.bump Reg.CTL_CLAIM_REFUSED rivals.length

/-- CONFIRM (R55, R56, R59). -/
def confirmOp (who : Who) (s : State) : State :=
  if s.get Reg.CTL_OWNER_STATE = 2 ∧
      whoIs who (s.get Reg.CTL_OWNER_OFFER_PATH) (s.get Reg.CTL_OWNER_OFFER_ADDR) = true then
    setOwner s (pathCode who.path) (ownerAddr who)
  else s.inc Reg.CTL_CLAIM_REFUSED

/-- RELEASE from the ringmaster; from another path it changes nothing (R55). -/
def releaseOp (who : Who) (s : State) : State := if s.isOwner who then setOwner s 0 0 else s

/-- A write of CTL_CLAIM (R63). -/
def claimWrite (who : Who) (val : Word) (s : State) : State :=
  if fieldOf Reg.CTL_CLAIM_KEY val ≠ 0xC1A1 then s
  else match fieldOf Reg.CTL_CLAIM_ACTION val with
    | 1 => claimOp who s
    | 2 => confirmOp who s
    | 3 => releaseOp who s
    | _ => s

/-- A write of CTL_HANDOVER by the ringmaster: an offer to the target, or with TIMEOUT_MS 0 its withdrawal (R55). R63 forbids a
target of 0b00 or the ringmaster itself and gives no outcome: the model takes such an offer as written, and no path or the
ringmaster's own can confirm it (DESIGN CHOICE, log 36). An UNOWNED device has no ringmaster to write it. -/
def handoverWrite (val : Word) (s : State) : State :=
  let s := storeReg Reg.CTL_HANDOVER val s
  if s.get Reg.CTL_OWNER_STATE = 0 then s
  else if fieldOf Reg.CTL_HANDOVER_TIMEOUT_MS val = 0 then endOffer s
  else
    let path := fieldOf Reg.CTL_HANDOVER_TARGET_PATH val
    ((s.set Reg.CTL_OWNER_STATE 2).set Reg.CTL_OWNER_OFFER_PATH path).set Reg.CTL_OWNER_OFFER_ADDR
      (if path = 3 then fieldOf Reg.CTL_HANDOVER_TARGET_ADDR val else 0)

/-- The word of a hand-over. -/
def handoverWord (target : Path) (addr : BitVec 6) (ms : BitVec 16) : Word :=
  word [(Reg.CTL_HANDOVER_TARGET_PATH, pathCode target), (Reg.CTL_HANDOVER_TARGET_ADDR, addr.toNat),
    (Reg.CTL_HANDOVER_TIMEOUT_MS, ms.toNat)]

/-! ### Delegations (R87, R88) -/

/-- Associations of a delegation: four transmit ones and four for each peer (R87). -/
def Delegation.covers (d : Delegation) (a : Nat) : Bool :=
  (decide (d.tx ≤ a) && decide (a < d.tx + 4)) || (decide (d.rx ≤ a) && decide (a < d.rx + 4 * d.peers))

/-- Firmware alone installs and retires this association (R87). -/
def State.delegated (s : State) (a : Nat) : Bool := s.ctl.delegations.any (fun d => d.covers a)

/-! ### The commands -/

/-- CLAIM -/
def execClaim (who : ClaimSet) (s : State) : Host.Outcome State Fault Refusal :=
  .next (gate who.who .claim Reg.CTL_CLAIM (claimsOp who) s)
/-- CONFIRM -/
def execConfirm (who : Who) (s : State) : Host.Outcome State Fault Refusal :=
  .next (gate who .claim Reg.CTL_CLAIM (confirmOp who) s)
/-- RELEASE -/
def execRelease (who : Who) (s : State) : Host.Outcome State Fault Refusal :=
  .next (gate who .claim Reg.CTL_CLAIM (releaseOp who) s)
/-- HANDOVER_OFFER -/
def execHandoverOffer (who : Who) (target : Path) (addr : BitVec 6) (ms : BitVec 16) (s : State) :
    Host.Outcome State Fault Refusal :=
  .next (gateOwner who Reg.CTL_HANDOVER (handoverWrite (handoverWord target addr ms)) s)
/-- HANDOVER_WITHDRAW -/
def execHandoverWithdraw (who : Who) (s : State) : Host.Outcome State Fault Refusal :=
  .next (gateOwner who Reg.CTL_HANDOVER (handoverWrite 0) s)
/-- OFFER_EXPIRY -/
def execOfferExpiry (s : State) : Host.Outcome State Fault Refusal := .next (live endOffer s)

end Sys2Proof.Machine
end

