-- ==== Sys2Proof/Machine/Classify.lean ====
section
/-! DEFINITION. The parser (06, R203 to R212), the flow table and its commands (R213 to R222, R231 to R237), turnstiles and
punt limiters (R226 to R230), and the continuity check (R238 to R241). -/

namespace Sys2Proof.Machine

/-- Change the flow table. -/
def State.modFlt (s : State) (f : Flt → Flt) : State := { s with flt := f s.flt }

/-! ### The parser -/

/-- What the parser recognised (R205, R206, R207). -/
structure Parsed where
  tags : Nat
  etypePos : Nat
  etype : Nat
  labels : Nat
  l3 : Option Nat
  six : Bool            -- L3 is IPv6
  proto : Nat
  frag : Bool
  l4 : Option Nat
  ptpEvent : Bool
  ptpGeneral : Bool
  ptpPos : Nat          -- the PTP header's position when the frame is marked
  deriving DecidableEq, Repr

/-- Two bytes as a number, when both have been read. -/
def u16? (d : List Byte) (i : Nat) : Option Nat := if i + 2 ≤ d.length then some (be (sub d i 2)) else none

/-- A byte, when it has been read. -/
def u8? (d : List Byte) (i : Nat) : Option Nat := (d[i]?).map BitVec.toNat

/-- TPIDs of R205. -/
def isTpid (v : Nat) : Bool := decide (v = 0x8100) || decide (v = 0x88A8) || decide (v = 0x9100)

/-- Labels of an MPLS stack from p on: how many were read, and the position after the one at the bottom of the stack. -/
def mplsWalk (d : List Byte) : Nat → Nat → Nat × Option Nat
  | 0, _ => (0, none)
  | n + 1, p =>
    if p + 4 ≤ d.length then
      if nbit (byteAt d (p + 2)) 0 then (1, some (p + 4))
      else let r := mplsWalk d n (p + 4); (r.1 + 1, r.2)
    else (0, none)

/-- An IP header stands at p (R205): its kind, when the version and the header length are right. -/
def ipAt (d : List Byte) (p : Nat) : Option Bool :=
  match u8? d p with
  | some b => if b / 16 = 4 ∧ 5 ≤ b % 16 then some false else if b / 16 = 6 then some true else none
  | none => none

/-- What follows an IP header: protocol, whether the packet is any fragment, and where L4 stands unless it is a non-first
fragment; nothing when a field that decides was not read. -/
def ip4Next (d : List Byte) (p : Nat) : Option (Nat × Bool × Option Nat) :=
  match u16? d (p + 6), u8? d (p + 9) with
  | some fo, some pr =>
    some (pr, decide (fo % 2 ^ 14 ≠ 0), if fo % 2 ^ 13 = 0 then some (p + 4 * (byteAt d p % 16)) else none)
  | _, _ => none

/-- The same for IPv6, over up to n extension headers from position q with next-header value pr. -/
def ip6Next (d : List Byte) : Nat → Nat → Nat → Bool → Bool → Option (Nat × Bool × Option Nat)
  | 0, q, pr, frag, later => some (pr, frag, if later then none else some q)
  | n + 1, q, pr, frag, later =>
    if pr = 0 ∨ pr = 43 ∨ pr = 60 then
      match u8? d q, u8? d (q + 1) with
      | some nx, some len => ip6Next d n (q + 8 * (len + 1)) nx frag later
      | _, _ => none
    else if pr = 44 then
      match u8? d q, u16? d (q + 2) with
      | some nx, some fo => ip6Next d n (q + 8) nx (frag || nbit fo 0 || decide (8 ≤ fo)) (later || decide (8 ≤ fo))
      | _, _ => none
    else some (pr, frag, if later then none else some q)

/-- The parser over the bytes it reads, at most 128 without the FCS (R205, R207). -/
def parse (d : List Byte) : Parsed :=
  let tag0 := (u16? d 12).any isTpid
  let tag1 := tag0 && (u16? d 16).any isTpid
  let tags := b2n tag0 + b2n tag1
  let ep := 12 + 4 * tags
  let et := (u16? d ep).getD 0
  let mpls := if et = 0x8847 ∨ et = 0x8848 then mplsWalk d 4 (ep + 2) else (0, none)
  let ipPos := if et = 0x0800 ∨ et = 0x86DD then some (ep + 2) else mpls.2
  let ip := match ipPos with
    | some p => (ipAt d p).bind (fun six =>
        if (et = 0x0800 ∧ six = true) ∨ (et = 0x86DD ∧ six = false) then none else some (p, six))
    | none => none
  let next := match ip with
    | some (p, false) => ip4Next d p
    | some (p, true) => (u8? d (p + 6)).bind (fun pr => ip6Next d 2 (p + 40) pr false false)
    | none => none
  let l4 := match next with
    | some (pr, _, some q) => if [1, 6, 17, 58, 132].contains pr ∧ q < d.length then some q else none
    | _ => none
  let proto := (next.map (fun r => r.1)).getD 0
  let port : Nat := match l4 with
    | some q => if proto = 17 then (u16? d (q + 2)).getD 0 else 0
    | none => 0
  let ether := decide (et = 0x88F7)
  let hdr := if ether then some (ep + 2) else if port = 319 ∨ port = 320 then l4.map (· + 8) else none
  let whole := match hdr with
    | some h => decide (h + 34 ≤ d.length)
    | none => false
  let mt := byteAt d (hdr.getD 0) % 16
  { tags := tags, etypePos := ep, etype := et, labels := mpls.1, l3 := ip.map (fun r => r.1),
    six := ip.any (fun r => r.2), proto := proto, frag := next.any (fun r => r.2.1), l4 := l4,
    ptpEvent := whole && (ether || decide (port = 319)) && decide (mt ≤ 3),
    ptpGeneral := whole && (ether || decide (port = 320)) && decide (8 ≤ mt) && decide (mt ≤ 13),
    ptpPos := hdr.getD 0 }

/-- The 16 metadata bytes (R206) of a frame of length len that entered at index n. -/
def metaBytes (p : Parsed) (n len : Nat) : List Byte :=
  [BitVec.ofNat 8 (n / 32 * 128 + n % 32),
   BitVec.ofNat 8 (p.tags * 64 + p.labels * 8 + b2n (p.l3.isSome && !p.six) * 4 + b2n (p.l3.isSome && p.six) * 2 + b2n p.frag),
   BitVec.ofNat 8 p.proto,
   BitVec.ofNat 8 (b2n p.ptpEvent * 128 + b2n p.ptpGeneral * 64 + b2n p.l4.isSome * 32)] ++
  toBe 2 p.etype ++ toBe 2 len ++ List.replicate 8 0

/-- Position of an anchor by its code (R205); META is read from its own bytes. -/
def anchorPos (p : Parsed) (code : Nat) : Option Nat :=
  if code = 0 then some 0
  else if code = 1 then (if 1 ≤ p.tags then some 12 else none)
  else if code = 2 then (if 2 ≤ p.tags then some 16 else none)
  else if code = 3 then some p.etypePos
  else if code = 4 then p.l3
  else if code = 5 then p.l4
  else none

/-- The bytes an extractor copies, or none when its field is absent (R209). -/
def extractField (p : Parsed) (d mt : List Byte) (anchor offset len : Nat) : Option (List Byte) :=
  if anchor = 6 then (if offset + len ≤ 16 then some (sub mt offset len) else none)
  else match anchorPos p anchor with
    | some a => if a + offset + len ≤ d.length then some (sub d (a + offset) len) else none
    | none => none

/-- One extractor writes into the key, or the frame is a parse failure (R208, R209). -/
def extract (s : State) (q : Nat) (p : Parsed) (d mt : List Byte) (key : List Byte) (e : Nat) : Option (List Byte) :=
  if s.flag (Reg.PRS_EXT_EN q e) = false then some key
  else
    let len := max 1 (min 16 (s.get (Reg.PRS_EXT_LEN q e)))
    let pos := s.get (Reg.PRS_EXT_KEY_POS q e)
    match extractField p d mt (s.get (Reg.PRS_EXT_ANCHOR q e)) (s.get (Reg.PRS_EXT_OFFSET q e)) len with
    | some v => some (splice key pos (v.take (key.length - pos)))
    | none =>
      if s.flag (Reg.PRS_EXT_ABSENT_FAIL q e) then none
      else some (splice key pos (List.replicate (min len (key.length - pos)) 0))

/-- The key of a GENERIC profile (R208). -/
def genericKey (s : State) (q : Nat) (p : Parsed) (d mt : List Byte) : Option (List Byte) :=
  let width := if s.flag (Reg.PRS_PROF_CFG_WIDE q) then 32 else 16
  let key := (List.range 8).foldl (fun k e => k.bind (fun k => extract s q p d mt k e)) (some (List.replicate width 0))
  let mask := wordBytes ((List.range 8).map (fun i => s.rd (Reg.PRS_MASK q i)))
  key.map (fun k => List.zipWith (fun x y => x &&& y) k mask)

/-- Length of a SecTAG with its EtherType: 16 bytes with an SCI, else 8 (R307). -/
def secTagLen (fr : List Byte) : Nat := if nbit (byteAt fr 14) 5 then 16 else 8

/-- The SCI of a MACsec frame from line port k (R210). -/
def macsecSci (s : State) (k : Nat) (fr : List Byte) : List Byte :=
  let tci := byteAt fr 14
  if nbit tci 5 then sub fr 20 8
  else if nbit tci 6 then sub fr 6 6 ++ [0, 1]
  else toBe 4 (s.rd (Reg.PRS_IMPLICIT_SCI_HI k)).toNat ++ toBe 4 (s.rd (Reg.PRS_IMPLICIT_SCI k)).toNat

/-- The key of a MACSEC_RX profile over a frame without its FCS, or a parse failure (R210). -/
def macsecKey (s : State) (k : Nat) (fr : List Byte) : Option (List Byte) :=
  let tci := byteAt fr 14
  let sl := byteAt fr 15
  if nbit tci 7 ∨ nbit tci 3 ≠ nbit tci 2 ∨ (nbit tci 6 = true ∧ nbit tci 5 = true) ∨ 48 ≤ sl ∨
      fr.length < 12 + secTagLen fr + 16 then none
  else some (macsecSci s k fr ++ [BitVec.ofNat 8 (tci % 4), BitVec.ofNat 8 k] ++ List.replicate 6 0)

/-- The key of a KORONE_RX profile over a capsule: EMITTER, ASSOC_EPOCH and k (R174, R211). -/
def koroneKey (k : Nat) (cap : List Byte) : List Byte := sub cap 4 4 ++ [BitVec.ofNat 8 k] ++ List.replicate 11 0

/-- A frame that firmware has submitted (R23): owner 64 owns it. -/
def Frame.fromFw (f : Frame) : Bool := decide (f.owner = 64)

/-- A frame is a Korone capsule as it stands in the device: it entered at a Korone line port from the line. -/
def State.isCapsule (s : State) (f : Frame) : Bool := decide (32 ≤ f.n) && s.isKorone (f.n - 32) && !f.fromFw

/-- The frame bytes the parser may read (R205): at most 128, without the FCS. -/
def parseBytes (fr : List Byte) : List Byte := (noFcs fr).take 128

/-- The profile of a frame and whether it is the port's CLEAR_PROFILE (R203). -/
def profileOf (s : State) (f : Frame) : Nat × Bool :=
  if f.n < 32 then (s.get (Reg.PRS_PORT_CFG_PROFILE f.n), false)
  else if s.isCapsule f then (s.get (Reg.PRS_PORT_CFG_PROFILE f.n), false)
  else if s.isKorone (f.n - 32) = false ∧ be (sub f.bytes 12 2) = 0x88E5 then (s.get (Reg.PRS_PORT_CFG_PROFILE f.n), false)
  else (s.get (Reg.PRS_PORT_CFG_CLEAR_PROFILE f.n), true)

/-- The type that a frame's profile must have (R203, R204): 0 GENERIC, 1 MACSEC_RX, 2 KORONE_RX. -/
def profileType (s : State) (f : Frame) : Nat :=
  if s.isCapsule f then 2
  else if 32 ≤ f.n ∧ s.isKorone (f.n - 32) = false ∧ be (sub f.bytes 12 2) = 0x88E5 then 1 else 0

/-- The frame's lookup key, or a parse failure (R204, R208 to R212). -/
def frameKey (s : State) (f : Frame) : Option (List Byte) :=
  let q := (profileOf s f).1
  let t := profileType s f
  if s.get (Reg.PRS_PROF_CFG_TYPE q) ≠ t then none
  else if t ≠ 0 ∧ s.flag (Reg.PRS_PROF_CFG_WIDE q) = true then none
  else if t = 2 then some (koroneKey (f.n - 32) f.bytes)
  else if t = 1 then macsecKey s (f.n - 32) (noFcs f.bytes)
  else
    let d := parseBytes f.bytes
    let p := parse d
    genericKey s q p d (metaBytes p f.n f.bytes.length)

/-! ### The flow table -/

/-- A place that holds nothing (R231). -/
def noEntry : Entry :=
  { valid := false, profile := 0, wide := 0, hit := false, key := 0, result := 0, ue := false }

/-- The entry at an index (R216). -/
def State.entry (s : State) (i : Nat) : Entry := mlook noEntry i s.flt.entries

/-- The second copy that the stash holds of the entry at an index (R222). -/
def State.copy (s : State) (i : Nat) : Entry := mlook noEntry i s.flt.copies

/-- First index of the stash (R216). -/
def stashBase : Nat := 0x200000
/-- Indices below this exist (R216). -/
def tableEnd : Nat := 0x200200

/-- A continuity-check group that nothing armed. -/
def noGroup : CcGroup := { armed := false, sig := 0, quarantined := false, reported := false }

/-- A group of the continuity check. -/
def State.ccGroup (s : State) (g : Nat) : CcGroup := mlook noGroup g s.flt.groups

/-- Change a group. -/
def State.modGroup (s : State) (g : Nat) (f : CcGroup → CcGroup) : State :=
  s.modFlt (fun t => { t with groups := mstore noGroup g (f (s.ccGroup g)) t.groups })

/-- The 21 bytes of an entry in its group's signature (R238). -/
def entryImage (e : Entry) : List Byte :=
  [BitVec.ofNat 8 (b2n e.valid * 128 + e.profile.toNat * 8 + e.wide.toNat * 2)] ++ blockBytes e.key ++ toBe 4 e.result.toNat

/-- The CRC of group g as the table stands (R238). -/
def groupCrc (s : State) (g : Nat) : Word := crc32 ((List.range 64).flatMap (fun i => entryImage (s.entry (64 * g + i))))

/-- Put an entry at an index, in the stash in both copies (R222); a change of its 21 bytes disarms its group in the same step
(R239). -/
def State.putEntry (s : State) (i : Nat) (e : Entry) : State :=
  let changed := decide (entryImage (s.entry i) ≠ entryImage e)
  let s := s.modFlt (fun t => { t with entries := mstore noEntry i e t.entries })
  if i < stashBase then (if changed then s.modGroup (i / 64) (fun g => { g with armed := false }) else s)
  else s.modFlt (fun t => { t with copies := mstore noEntry i e t.copies })

/-- The two copies of a stash entry differ (R222). -/
def State.copiesDiffer (s : State) (i : Nat) : Bool :=
  decide (stashBase ≤ i) && decide (entryImage (s.entry i) ≠ entryImage (s.copy i))

/-- A key as the number the hash takes. -/
def keyNum (k : List Byte) : BitVec 256 := BitVec.ofNat 256 (be (padTo 32 k))

/-- The first slot of the candidate bucket of way h (R216, R217): the hash takes the key, the profile and the way. -/
def bucket (s : State) (profile : Nat) (k : List Byte) (h : Nat) : Nat :=
  4 * h * 131072 + Config.flowHash s.flt.secret (4 * profile + h) (keyNum k) % 131072

/-- Slot b of a bucket. -/
def slotIn (base b : Nat) : Nat := base + b * 131072

/-- The sixteen candidate slots of a key (R218). -/
def candidates (s : State) (profile : Nat) (k : List Byte) : List Nat :=
  (List.range 4).flatMap (fun h => (List.range 4).map (fun b => slotIn (bucket s profile k h) b))

/-- The stash indices. -/
def stashSlots : List Nat := (List.range 512).map (· + stashBase)

/-- Where the second half of the pair at index i stands (R216). -/
def pairOf (i : Nat) : Nat := if i < stashBase then i + 131072 else i + 1

/-- The entry at i holds this key: a single entry, or the first half of a pair (R213, R214). -/
def holdsKey (s : State) (profile : Nat) (wide : Bool) (k : List Byte) (i : Nat) : Bool :=
  let e := s.entry i
  e.valid && decide (e.profile.toNat = profile) && decide (e.key = bytesBlock k) &&
    (if wide then decide (e.wide = 1) && (let h := s.entry (pairOf i)
        h.valid && decide (h.wide = 2) && decide (h.profile.toNat = profile) && decide (h.key = bytesBlock (k.drop 16)))
     else decide (e.wide = 0))

/-- The index of the entry that a key matches (R218). -/
def findKey (s : State) (profile : Nat) (wide : Bool) (k : List Byte) : Option Nat :=
  (candidates s profile k ++ stashSlots).find? (holdsKey s profile wide k)

/-- The full key an entry holds. -/
def entryKey (s : State) (i : Nat) : List Byte :=
  let e := s.entry i
  blockBytes e.key ++ if e.wide = 1 then blockBytes (s.entry (pairOf i)).key else []

/-- Moves that empty slot i along a cuckoo path of at most fuel moves, none through a pair or a slot already on the path;
in the order in which they are made (R220, R221). -/
def cuckoo (s : State) : Nat → List Nat → Nat → Option (List (Nat × Nat))
  | 0, _, i => if (s.entry i).valid then none else some []
  | n + 1, seen, i =>
    let e := s.entry i
    if e.valid = false then some []
    else if e.wide ≠ 0 then none
    else
      let cs := (candidates s e.profile.toNat (entryKey s i)).filter (fun j => decide (j ≠ i) && !seen.contains j)
      match cs.find? (fun j => (s.entry j).valid = false) with
      | some j => some [(i, j)]
      | none =>
        if n = 0 then none
        else cs.findSome? (fun j => (cuckoo s n (i :: seen) j).map (fun ms => ms ++ [(i, j)]))

/-- Make one move: the new place is written and the old one cleared (R221). -/
def moveEntry (s : State) (m : Nat × Nat) : State := (s.putEntry m.2 (s.entry m.1)).putEntry m.1 noEntry

/-- A place for a single entry: its index, the moves that free it, in the order of R220. -/
def placeSingle (s : State) (profile : Nat) (k : List Byte) : Option (Nat × List (Nat × Nat)) :=
  let cs := candidates s profile k
  match cs.find? (fun i => (s.entry i).valid = false) with
  | some i => some (i, [])
  | none =>
    match cs.findSome? (fun i => (cuckoo s 8 [] i).map (fun ms => (i, ms))) with
    | some r => some r
    | none => (stashSlots.find? (fun i => (s.entry i).valid = false)).map (fun i => (i, []))

/-- The places a pair may take in its candidate buckets (R216). -/
def pairPlaces (s : State) (profile : Nat) (k : List Byte) : List Nat :=
  (List.range 4).flatMap (fun h => [slotIn (bucket s profile k h) 0, slotIn (bucket s profile k h) 2])

/-- Moves that free both halves of a place, at most eight in all (R220). -/
def freePair (s : State) (i : Nat) : Option (List (Nat × Nat)) :=
  let j := pairOf i
  match cuckoo s 8 [j] i with
  | none => none
  | some m1 =>
    let s1 := m1.foldl moveEntry s
    (cuckoo s1 (8 - m1.length) [i] j).map (fun m2 => m1 ++ m2)

/-- A place for a wide pair. -/
def placeWide (s : State) (profile : Nat) (k : List Byte) : Option (Nat × List (Nat × Nat)) :=
  let ps := pairPlaces s profile k
  let free := fun i => decide ((s.entry i).valid = false) && decide ((s.entry (pairOf i)).valid = false)
  match ps.find? free with
  | some i => some (i, [])
  | none =>
    match ps.findSome? (fun i => (freePair s i).map (fun ms => (i, ms))) with
    | some r => some r
    | none => (stashSlots.find? (fun i => decide (i % 2 = 0) && free i)).map (fun i => (i, []))

/-- Entries in use of a profile, a pair counted as two (R235). -/
def State.profileUsed (s : State) (p : Nat) : Nat :=
  (s.flt.entries.filter (fun x => x.2.valid && decide (x.2.profile.toNat = p))).length

/-- A result in the encoding of R215. -/
def resultOk (r : Word) : Bool :=
  let a := bits r 31 30
  if a = 1 then true
  else if a = 3 then decide (0x80 ≤ bits r 29 22) && decide (bits r 21 10 = 0)
  else decide (bits r 29 10 = 0)

/-- A PROTECT result names an association beyond the store (R245). -/
def resultBeyond (s : State) (r : Word) : Bool := decide (bits r 31 30 = 1) && decide (s.asc.size ≤ bits r 29 10)

/-! ### Commands of the flow table (R231 to R237) -/

/-- An index that the firmware's interface wrote, moved or cleared goes into FLT_FW_LOG (R236). -/
def pushFwLog (who : Who) (s : State) (i : Nat) : State :=
  if who.path ≠ .firmware then s
  else if s.flt.fwLog.length < 256 then s.modFlt (fun t => { t with fwLog := t.fwLog ++ [i] })
  else raise0 (s.modFlt (fun t => { t with fwLogOvf := true })) 0x2406 0

/-- The key in the staging words of an interface. -/
def stagedKey (who : Who) (s : State) (wide : Bool) : List Byte :=
  wordBytes (s.rds (ifc who (Reg.FLT_STAGE_KEY 0)) (if wide then 8 else 4))

/-- The index in an interface's FLT_STAGE_INDEX. -/
def State.stagedIndex (s : State) (who : Who) : Nat := s.get (ifcField who Reg.FLT_STAGE_INDEX_INDEX)

/-- What a command answers: its result code and the registers it will load. -/
abbrev FltAnswer := Nat × List (Nat × Word)

/-- Write the entry or pair of a key at index i. -/
def writeEntry (who : Who) (profile : Nat) (wide : Bool) (k : List Byte) (res : Word) (i : Nat) (s : State) : State :=
  let e : Entry := { valid := true, profile := BitVec.ofNat 4 profile, wide := if wide then 1 else 0, hit := false,
                     key := bytesBlock k, result := res, ue := false }
  let s := pushFwLog who (s.putEntry i e) i
  if wide then
    pushFwLog who (s.putEntry (pairOf i) { e with wide := 2, key := bytesBlock (k.drop 16), result := 0 }) (pairOf i)
  else s

/-- INSERT (R220, R231, R234, R235). -/
def fltInsert (who : Who) (profile : Nat) (wide : Bool) (s : State) : FltAnswer × State :=
  let k := stagedKey who s wide
  let res := s.rd (ifc who Reg.FLT_STAGE_RES)
  let noMoves := [(Reg.FLT_CMD, 0#32)]
  if resultOk res = false ∨ s.flag (Reg.PRS_PROF_CFG_WIDE profile) ≠ wide then ((5, noMoves), s)
  else if resultBeyond s res then ((6, noMoves), s)
  else if (findKey s profile wide k).isSome then ((2, noMoves), s)
  else if s.get (Reg.FLT_PART_QUOTA profile) < s.profileUsed profile + (if wide then 2 else 1) then ((4, noMoves), s)
  else
    match if wide then placeWide s profile k else placeSingle s profile k with
    | none => ((3, noMoves), s)
    | some (i, ms) =>
      let s := ms.foldl (fun s m => pushFwLog who (pushFwLog who (moveEntry s m) m.1) m.2) s
      let s := writeEntry who profile wide k res i s
      ((0, (Reg.FLT_CMD, w32 ms.length) :: (Reg.FLT_STAGE_INDEX, w32 i) ::
        ms.zipIdx.flatMap (fun m => [(Reg.FLT_MOVE (2 * m.2), w32 m.1.1), (Reg.FLT_MOVE (2 * m.2 + 1), w32 m.1.2)])), s)

/-- The entry that an index names, or the code that refuses it (R234). -/
def atIndex (s : State) (i : Nat) : Except Nat Nat :=
  if tableEnd ≤ i then .error 6
  else if (s.entry i).valid = false then .error 1
  else if (s.entry i).wide = 2 then .error 5
  else .ok i

/-- The entry that a command addresses. A key whose WIDE is not its profile's matches none (R234, R241). -/
def addressed (who : Who) (s : State) (byIndex : Bool) (profile : Nat) (wide : Bool) : Except Nat Nat :=
  if byIndex then atIndex s (s.stagedIndex who)
  else if s.flag (Reg.PRS_PROF_CFG_WIDE profile) ≠ wide then .error 1
  else match findKey s profile wide (stagedKey who s wide) with
    | some i => .ok i
    | none => .error 1

/-- The index of the half of the entry or pair at i that fails a test, if one does. -/
def State.halfWith (s : State) (p : Nat → Bool) (i : Nat) : Option Nat :=
  if p i then some i else if (s.entry i).wide = 1 ∧ p (pairOf i) = true then some (pairOf i) else none

/-- The entry at i, or its second half, has an uncorrectable error, or copies that differ, which count as one (R222). -/
def State.entryBad (s : State) (i : Nat) : Bool := (s.halfWith (fun j => (s.entry j).ue || s.copiesDiffer j) i).isSome

/-- Clear the entry or pair at i (R231). -/
def clearEntry (who : Who) (i : Nat) (s : State) : State :=
  let wide := decide ((s.entry i).wide = 1)
  let s := pushFwLog who (s.putEntry i noEntry) i
  if wide then pushFwLog who (s.putEntry (pairOf i) noEntry) (pairOf i) else s

/-- An entry with an uncorrectable error raises FLT_ENTRY_UE, after FLT_STASH_MISMATCH when its copies differ (R222, R234, R242). -/
def entryUe (s : State) (i : Nat) : State :=
  let s := match s.halfWith s.copiesDiffer i with
    | some j => raise0 s 0x2403 j
    | none => s
  raise0 s 0x2402 i

/-- DELETE. -/
def fltDelete (who : Who) (byIndex : Bool) (profile : Nat) (wide : Bool) (s : State) : FltAnswer × State :=
  match addressed who s byIndex profile wide with
  | .error r => ((r, []), s)
  | .ok i =>
    if s.entryBad i then (if byIndex then ((7, []), clearEntry who i (entryUe s i)) else ((7, []), entryUe s i))
    else ((0, []), clearEntry who i s)

/-- The words a READ or SEARCH loads. -/
def readWords (s : State) (i : Nat) (key : Bool) : List (Nat × Word) :=
  let e := s.entry i
  [(Reg.FLT_STAGE_RES, e.result), (Reg.FLT_STAGE_INDEX, w32 (b2n e.hit * 2 ^ 31 + i))] ++
  if key then (bytesWords (if e.wide = 1 then 8 else 4) (entryKey s i)).zipIdx.map (fun p => (Reg.FLT_STAGE_KEY p.2, p.1)) else []

/-- READ by index. -/
def fltRead (who : Who) (s : State) : FltAnswer × State :=
  match atIndex s (s.stagedIndex who) with
  | .error r => ((r, []), s)
  | .ok i => if s.entryBad i then ((7, []), entryUe s i) else ((0, readWords s i true), s)

/-- MODIFY: the result is replaced and HIT kept. -/
def fltModify (who : Who) (byIndex : Bool) (profile : Nat) (wide : Bool) (s : State) : FltAnswer × State :=
  let res := s.rd (ifc who Reg.FLT_STAGE_RES)
  if resultOk res = false then ((5, []), s)
  else if resultBeyond s res then ((6, []), s)
  else match addressed who s byIndex profile wide with
    | .error r => ((r, []), s)
    | .ok i =>
      if s.entryBad i then ((7, []), entryUe s i)
      else ((0, []), pushFwLog who (s.putEntry i { s.entry i with result := res }) i)

/-- SEARCH. -/
def fltSearch (who : Who) (profile : Nat) (wide : Bool) (s : State) : FltAnswer × State :=
  match addressed who s false profile wide with
  | .error r => ((r, []), s)
  | .ok i => if s.entryBad i then ((7, []), entryUe s i) else ((0, readWords s i false), s)

/-- HARVEST_HITS: the HIT bits of 64 entries, returned and cleared (R237). -/
def fltHarvest (who : Who) (s : State) : FltAnswer × State :=
  let g := s.stagedIndex who % 65536
  if 32776 ≤ g then ((6, []), s)
  else
    let base := if g < 32768 then 64 * g else stashBase + 64 * (g - 32768)
    let hits := fun lo => w32 ((List.range 32).foldl (fun a b => a + b2n (s.entry (base + lo + b)).hit * 2 ^ b) 0)
    let s' := (List.range 64).foldl (fun s i => s.putEntry (base + i) { s.entry (base + i) with hit := false }) s
    ((0, [(Reg.FLT_HITS 0, hits 0), (Reg.FLT_HITS 1, hits 32)]), s')

/-- One operation of the flow table (R231); other codes end with BAD_ENTRY. -/
def fltOperate (who : Who) (op : Nat) (byIndex wide : Bool) (profile : Nat) (s : State) : FltAnswer × State :=
  match op with
  | 1 => fltInsert who profile wide s
  | 2 => fltDelete who byIndex profile wide s
  | 3 => fltRead who s
  | 4 => fltModify who byIndex profile wide s
  | 5 => fltSearch who profile wide s
  | 6 => fltHarvest who s
  | _ => ((5, []), s)

/-- Serve an interface's operation: the table changes with the command, its answer is shown when the operation ends
(FLT_CMD_DONE). What is staged is read here (DESIGN CHOICE, log 40). -/
def fltStart (who : Who) (val : Word) (s : State) : State :=
  let a := fltOperate who (fieldOf Reg.FLT_CMD_OP val) (decide (fieldOf Reg.FLT_CMD_BY_INDEX val = 1))
    (decide (fieldOf Reg.FLT_CMD_WIDE val = 1)) (fieldOf Reg.FLT_CMD_PROFILE val) s
  a.2.modFlt (fun t => { t with op := some { result := a.1.1, writes := a.1.2, who := who } })

/-- A write of an interface's FLT_CMD: with a nonzero OP it sets BUSY and starts the operation, which waits while one of the other
interface is served; while BUSY is 1 it is ignored and counted (R233). -/
def fltCmdWrite (who : Who) (val : Word) (s : State) : State :=
  if s.flag (ifcField who Reg.FLT_CMD_BUSY) then s.inc Reg.FLT_CMD_REFUSED
  else
    let s := storeAt (ifc who Reg.FLT_CMD) Reg.FLT_CMD val s
    if fieldOf Reg.FLT_CMD_OP val = 0 then s
    else
      let s := s.setFlag (ifcField who Reg.FLT_CMD_BUSY) true
      if s.flt.op.isSome then s.modFlt (fun t => { t with waiting := some (who, val) }) else fltStart who val s

/-- The word of a command. -/
def fltWord (op : Nat) (byIndex wide : Bool) (profile : Nat) : Word :=
  word [(Reg.FLT_CMD_OP, op), (Reg.FLT_CMD_BY_INDEX, b2n byIndex), (Reg.FLT_CMD_WIDE, b2n wide), (Reg.FLT_CMD_PROFILE, profile)]

/-- A word that the completion loads into its interface: MOVES of FLT_CMD, or a staging register. -/
def fltLoad (who : Who) (s : State) (p : Nat × Word) : State :=
  if p.1 = Reg.FLT_CMD then s.set (ifcField who Reg.FLT_CMD_MOVES) p.2.toNat else s.wr (ifc who p.1) p.2

/-- WIDE and PROFILE that READ and SEARCH write back (R244). -/
def fltWriteBack (who : Who) (s : State) (op : Nat) : State :=
  let e := s.entry (s.stagedIndex who)
  let s := if op = 3 ∨ op = 5 then s.set (ifcField who Reg.FLT_CMD_WIDE) (b2n (decide (e.wide = 1))) else s
  if op = 3 then s.set (ifcField who Reg.FLT_CMD_PROFILE) e.profile.toNat else s

/-- The operation served ends: its answer, its result and BUSY = 0 at its interface; then the other interface's is served
(R233). -/
def fltDoneOp (s : State) : State :=
  match s.flt.op with
  | none => s
  | some p =>
    let w := s.flt.waiting
    let s := p.writes.foldl (fltLoad p.who) (s.modFlt (fun t => { t with op := none, waiting := none }))
    let s := if p.result = 0 then fltWriteBack p.who s (s.get (ifcField p.who Reg.FLT_CMD_OP)) else s
    let s := (s.set (ifcField p.who Reg.FLT_CMD_RESULT) p.result).setFlag (ifcField p.who Reg.FLT_CMD_BUSY) false
    match w with
    | some (who, val) => fltStart who val s
    | none => s

/-! ### Turnstiles and punt limiters -/

/-- Parts of a token: every refill of one tick is a whole number of them. -/
def tokenUnit : Nat := 640000000

/-- A turnstile that nothing has written: RATE 0 (R244). -/
def noTurnstile : Turnstile := { frames := false, rate := 0, burst := 0, tokens := 0, stamp := 0, passed := 0, dropped := 0 }

/-- Turnstile t. -/
def State.turnstile (s : State) (t : Nat) : Turnstile := mlook noTurnstile t s.flt.turnstiles

/-- Store turnstile t. -/
def State.putTurnstile (s : State) (t : Nat) (x : Turnstile) : State :=
  s.modFlt (fun f => { f with turnstiles := mstore noTurnstile t x f.turnstiles })

/-- Token parts a turnstile gains per tick: RATE Mbit/s, or RATE thousand frames per second, at most its mode's maximum
(R228, R229). -/
def Turnstile.perTick (t : Turnstile) : Nat := if t.frames then min t.rate 1000000 * 800 else min t.rate 800000 * 100000

/-- The bucket as it stands at tick clk. -/
def Turnstile.refilled (t : Turnstile) (clk : Nat) : Turnstile :=
  { t with tokens := min (t.burst * tokenUnit) (t.tokens + (clk - t.stamp) * t.perTick), stamp := clk }

/-- A frame of len bytes passes turnstile t, or is dropped (R228). -/
def police (s : State) (t len : Nat) : Bool × State :=
  let x := (s.turnstile t).refilled s.clk
  let cost := (if x.frames then 1 else len) * tokenUnit
  if x.rate = 0 then (true, s.putTurnstile t { x with passed := (x.passed + 1) % 2 ^ 48 })
  else if cost ≤ x.tokens then
    (true, s.putTurnstile t { x with tokens := x.tokens - cost, passed := (x.passed + 1) % 2 ^ 48 })
  else (false, s.putTurnstile t { x with dropped := (x.dropped + 1) % 2 ^ 48 })

/-- A token bucket that refills continuously, full until it is first used. -/
def refillLimiter (m : SMap Limiter) (key burst perTick clk : Nat) : Nat :=
  match mget key m with
  | none => burst * tokenUnit
  | some l => min (burst * tokenUnit) (l.tokens + (clk - l.stamp) * perTick)

/-- Settle a limiter's bucket at its present rate: a new rate counts from now on (R226). -/
def settleLimiter (n burst perTick : Nat) (s : State) : State :=
  s.modFlt (fun f => { f with punts := mput n (Limiter.mk (refillLimiter f.punts n burst perTick s.clk) s.clk) f.punts })

/-- Token parts that the punt limiter of index n, or with n = 64 the total limiter, gains per tick (R226). -/
def State.puntRate (s : State) (n : Nat) : Nat :=
  800 * (if n < 64 then min 200 (s.get (Reg.FLT_PORT_CFG_PUNT_RATE n)) else min 1000 (s.get Reg.FLT_PUNT_CFG_TOTAL_RATE))

/-- A write of FLT_PORT_CFG[n] or FLT_PUNT_CFG. -/
def puntCfgWrite (n off : Nat) (val : Word) (s : State) : State :=
  storeReg off val (settleLimiter n (if n < 64 then 64 else 1024) (s.puntRate n) s)

/-- Both punt limiters hold a token: one is taken from each (R226). -/
def puntToken (s : State) (n : Nat) : Bool × State :=
  let rp := s.puntRate n
  let rt := s.puntRate 64
  let p := refillLimiter s.flt.punts n 64 rp s.clk
  let t := refillLimiter s.flt.punts 64 1024 rt s.clk
  let ok := decide (rp ≠ 0) && decide (rt ≠ 0) && decide (tokenUnit ≤ p) && decide (tokenUnit ≤ t)
  let c := if ok then tokenUnit else 0
  let m := mput n (Limiter.mk (p - c) s.clk) (mput 64 (Limiter.mk (t - c) s.clk) s.flt.punts)
  (ok, s.modFlt (fun f => { f with punts := m }))

/-- A write of FLT_TS_CMD: with a nonzero OP it starts a turnstile command, unless one is in progress (R230, R584). A command
completes in the step that starts it (log 24). -/
def tsCmdWrite (val : Word) (s : State) : State :=
  let op := fieldOf Reg.FLT_TS_CMD_OP val
  if s.flag Reg.FLT_TS_CMD_BUSY then (if op = 0 then s else s.inc Reg.CTL_FAULT_BUSY)
  else
    let s := storeReg Reg.FLT_TS_CMD val s
    let t := fieldOf Reg.FLT_TS_CMD_INDEX val
    let x := s.turnstile t
    if op = 1 then
      let b := s.get Reg.FLT_TS_CFG1_BURST
      let fr := s.flag Reg.FLT_TS_CFG0_FRAMES
      let rate := s.get Reg.FLT_TS_CFG0_RATE
      s.putTurnstile t { x with frames := fr, rate := rate, burst := b, tokens := b * tokenUnit, stamp := s.clk }
    else if op = 2 then
      let s := (s.setFlag Reg.FLT_TS_CFG0_FRAMES x.frames).set Reg.FLT_TS_CFG0_RATE x.rate
      let s := s.set Reg.FLT_TS_CFG1_BURST x.burst
      { s with cnt := { s.cnt with
        vals := mstore 0 Reg.FLT_TS_PASSED x.passed (mstore 0 Reg.FLT_TS_DROPPED x.dropped s.cnt.vals) } }
    else if op = 3 then s.putTurnstile t { x with passed := 0, dropped := 0 }
    else s

/-- The word of a turnstile command. -/
def tsWord (op idx : Nat) : Word := word [(Reg.FLT_TS_CMD_OP, op), (Reg.FLT_TS_CMD_INDEX, idx)]

/-! ### The continuity check -/

/-- FLT_CC_SIG: the group named is armed with its signature, and may report afresh (R239, R240). -/
def ccSigOp (sig : Word) (s : State) : State :=
  s.modGroup (s.get Reg.FLT_CC_GROUP_GROUP) (fun g => { g with armed := true, sig := sig, reported := false })

/-- FLT_CC_GROUP: the group is named, and LIFT lifts its quarantine (R240). -/
def ccGroupWrite (val : Word) (s : State) : State :=
  let s := storeReg Reg.FLT_CC_GROUP val s
  if fieldOf Reg.FLT_CC_GROUP_LIFT val = 1 then
    s.modGroup (fieldOf Reg.FLT_CC_GROUP_GROUP val) (fun g => { g with quarantined := false })
  else s

/-- The sweep compares group g (R239, R240): a match lifts its quarantine, a mismatch is reported once. -/
def ccCompareOp (g : Nat) (s : State) : State :=
  let x := s.ccGroup g
  if s.flag Reg.FLT_CC_CFG_EN = false ∨ x.armed = false then s
  else if groupCrc s g = x.sig then s.modGroup g (fun y => { y with quarantined := false, reported := false })
  else
    let s := if s.flag Reg.FLT_CC_CFG_QUARANTINE then s.modGroup g (fun y => { y with quarantined := true }) else s
    if x.reported then s
    else
      let s := s.modGroup g (fun y => { y with reported := true })
      let s := if s.flt.mismatch.length < 16 then s.modFlt (fun t => { t with mismatch := t.mismatch ++ [g] })
        else s.modFlt (fun t => { t with mismatchOvf := true })
      raise0 s 0x2401 g

/-- The word of a log register with VALID, OVF and its oldest entry (R244, R290). -/
def logWord (l : List Nat) (ovf : Bool) : Word :=
  match l with
  | x :: _ => w32 (2 ^ 31 + b2n ovf * 2 ^ 30 + x)
  | [] => w32 (b2n ovf * 2 ^ 30)

/-- A read of FLT_CC_MISMATCH removes its oldest entry and clears OVF. -/
def ccMismatchRead (s : State) : Word × State :=
  (logWord s.flt.mismatch s.flt.mismatchOvf, s.modFlt (fun t => { t with mismatch := t.mismatch.drop 1, mismatchOvf := false }))

/-- A read of FLT_FW_LOG. -/
def fwLogRead (s : State) : Word × State :=
  (logWord s.flt.fwLog s.flt.fwLogOvf, s.modFlt (fun t => { t with fwLog := t.fwLog.drop 1, fwLogOvf := false }))

/-- Status words of the table that are counted from it (R235, R244). -/
def State.fltOccupancy (s : State) : Word :=
  w32 ((s.flt.entries.filter (fun x => x.2.valid && decide (stashBase ≤ x.1))).length * 2 ^ 22 +
    (s.flt.entries.filter (fun x => x.2.valid)).length)

/-- FLT_CC_STS. -/
def State.ccSts (s : State) : Word :=
  w32 ((s.flt.groups.filter (fun x => x.2.armed)).length * 2 ^ 16 + (s.flt.groups.filter (fun x => x.2.quarantined)).length)

/-- FLT_CC_GROUP as it reads. -/
def State.ccGroupWord (s : State) : Word :=
  let g := s.get Reg.FLT_CC_GROUP_GROUP
  w32 (b2n (s.ccGroup g).quarantined * 2 ^ 31 + b2n (s.ccGroup g).armed * 2 ^ 30 + g)

/-! ### The commands -/

/-- INSERT -/
def execFltInsert (who : Who) (wide : Bool) (profile : BitVec 4) (s : State) : Host.Outcome State Fault Refusal :=
  .next (gateOwner who Reg.FLT_CMD (fltCmdWrite who (fltWord 1 false wide profile.toNat)) s)
/-- DELETE -/
def execFltDelete (who : Who) (byIndex wide : Bool) (profile : BitVec 4) (s : State) : Host.Outcome State Fault Refusal :=
  .next (gateOwner who Reg.FLT_CMD (fltCmdWrite who (fltWord 2 byIndex wide profile.toNat)) s)
/-- READ -/
def execFltRead (who : Who) (s : State) : Host.Outcome State Fault Refusal :=
  .next (gateOwner who Reg.FLT_CMD (fltCmdWrite who (fltWord 3 false false 0)) s)
/-- MODIFY -/
def execFltModify (who : Who) (byIndex wide : Bool) (profile : BitVec 4) (s : State) : Host.Outcome State Fault Refusal :=
  .next (gateOwner who Reg.FLT_CMD (fltCmdWrite who (fltWord 4 byIndex wide profile.toNat)) s)
/-- SEARCH -/
def execFltSearch (who : Who) (wide : Bool) (profile : BitVec 4) (s : State) : Host.Outcome State Fault Refusal :=
  .next (gateOwner who Reg.FLT_CMD (fltCmdWrite who (fltWord 5 false wide profile.toNat)) s)
/-- HARVEST_HITS -/
def execHarvestHits (who : Who) (s : State) : Host.Outcome State Fault Refusal :=
  .next (gateOwner who Reg.FLT_CMD (fltCmdWrite who (fltWord 6 false false 0)) s)
/-- FLT_CMD_DONE -/
def execFltCmdDone (s : State) : Host.Outcome State Fault Refusal := .next (live (whenOn fltDoms fltDoneOp) s)
/-- TS_WRITE -/
def execTsWrite (who : Who) (idx : BitVec 16) (s : State) : Host.Outcome State Fault Refusal :=
  .next (gateOwner who Reg.FLT_TS_CMD (tsCmdWrite (tsWord 1 idx.toNat)) s)
/-- TS_READ -/
def execTsRead (who : Who) (idx : BitVec 16) (s : State) : Host.Outcome State Fault Refusal :=
  .next (gateOwner who Reg.FLT_TS_CMD (tsCmdWrite (tsWord 2 idx.toNat)) s)
/-- TS_CLEAR -/
def execTsClear (who : Who) (idx : BitVec 16) (s : State) : Host.Outcome State Fault Refusal :=
  .next (gateOwner who Reg.FLT_TS_CMD (tsCmdWrite (tsWord 3 idx.toNat)) s)
/-- CC_SIG_WRITE -/
def execCcSigWrite (who : Who) (sig : Word) (s : State) : Host.Outcome State Fault Refusal :=
  .next (gateOwner who Reg.FLT_CC_SIG (ccSigOp sig) s)
/-- CC_LIFT -/
def execCcLift (who : Who) (group : BitVec 15) (s : State) : Host.Outcome State Fault Refusal :=
  .next (gateOwner who Reg.FLT_CC_GROUP
    (ccGroupWrite (word [(Reg.FLT_CC_GROUP_LIFT, 1), (Reg.FLT_CC_GROUP_GROUP, group.toNat)])) s)
/-- CC_COMPARE -/
def execCcCompare (group : BitVec 15) (s : State) : Host.Outcome State Fault Refusal :=
  .next (live (ccCompareOp group.toNat) s)

end Sys2Proof.Machine
end

