-- ==== Sys2Proof/Machine/Buffers.lean ====
section
/-! DEFINITION. The buffer pool manager (09, R330 to R338): the pool configuration, admission to buffers and cells, what keeps
a frame from admission in other chapters (R146, R490, R508, R540), and errors of packet memory. -/

namespace Sys2Proof.Machine

/-- Change the scheduler. -/
def State.modSch (s : State) (f : Sch → Sch) : State := { s with sch := f s.sch }

/-- Buffer size of pool p (R330). -/
def poolSize (p : Nat) : Nat := [256, 384, 576, 896, 1344, 2048, 3072, 9728].getD p 0

/-- The owners of buffers (R334). -/
def owners : List Nat := List.range 65

/-- RESERVE of owner o in pool p. -/
def State.reserve (s : State) (o p : Nat) : Nat := s.get (Reg.BPM_OWNER_CFG_RESERVE o p)

/-- The sum of RESERVE in pool p. -/
def State.reserves (s : State) (p : Nat) : Nat := owners.foldl (fun a o => a + s.reserve o p) 0

/-- The sum of the classes' RESERVE, in cells (R336, R362). -/
def State.cellReserves (s : State) : Nat := (List.range 4).foldl (fun a c => a + 16 * s.get (Reg.BPM_CELL_CLASS_RESERVE c)) 0

/-- A pool configuration is valid (R331). -/
def State.poolsValid (s : State) : Bool :=
  let cells := s.get Reg.BPM_CELL_CFG_COUNT
  decide ((List.range 8).foldl (fun a p => a + s.get (Reg.BPM_POOL_CFG_COUNT p) * poolSize p) (64 * cells) ≤ 50331648) &&
    (List.range 8).all (fun p => decide (s.reserves p ≤ s.get (Reg.BPM_POOL_CFG_COUNT p))) &&
    decide (s.cellReserves ≤ cells)

/-- CFG_ERR follows the configuration; BPM_CFG_ERR is raised as it becomes invalid (R331). -/
def settlePools (s : State) : State :=
  let bad := !s.poolsValid
  if bad = s.flag Reg.BPM_STS_CFG_ERR then s
  else
    let s := s.setFlag Reg.BPM_STS_CFG_ERR bad
    if bad then raise0 s 0x4003 0 else s

/-- A buffer or a cell is allocated. -/
def State.anyHeld (s : State) : Bool :=
  s.sch.frames.any (fun f => f.pool.isSome || decide (f.cells ≠ 0)) || decide (s.cellsOf 2 ≠ 0)

/-- A write of BPM_POOL_CFG or, for pool 8, BPM_CELL_CFG: it takes effect only while nothing is allocated (R332). -/
def poolCfgWrite (off : Nat) (val : Word) (s : State) : State :=
  if s.anyHeld then s.inc Reg.CTL_FAULT_LOCK else settlePools (storeReg off val s)

/-- Offset of a pool's COUNT register. -/
def poolOff (p : Nat) : Nat := if p < 8 then Reg.BPM_POOL_CFG p else Reg.BPM_CELL_CFG

/-! ### Counts in use (R362) -/

/-- Buffers of pool p in use. -/
def State.poolUsed (s : State) (p : Nat) : Nat := (s.sch.frames.filter (fun f => decide (f.pool = some p))).length

/-- Buffers of pool p that are free. -/
def State.poolFree (s : State) (p : Nat) : Nat := s.get (Reg.BPM_POOL_CFG_COUNT p) - s.poolUsed p

/-- Cells in use. -/
def State.cellsUsed (s : State) : Nat := (List.range 4).foldl (fun a c => a + s.cellsOf c) 0

/-- Cells that are free. -/
def State.cellsFree (s : State) : Nat := s.get Reg.BPM_CELL_CFG_COUNT - s.cellsUsed

/-! ### Admission -/

/-- The classes of privileged frames (R336). -/
abbrev clsMgmt : Nat := 0
/-- Class PTP. -/
abbrev clsPtp : Nat := 1
/-- Class CUE. -/
abbrev clsCue : Nat := 2
/-- Class PUNT. -/
abbrev clsPunt : Nat := 3

/-- Buffers of the shared region of pool p that are not held (R334). -/
def State.sharedFree (s : State) (p : Nat) : Nat :=
  let size := s.get (Reg.BPM_POOL_CFG_COUNT p) - s.reserves p
  size - owners.foldl (fun a o => a + (s.used o p - s.reserve o p)) 0

/-- The most shared buffers of pool p that owner o may hold, in buffers (R362). -/
def State.sharedMax (s : State) (o p : Nat) : Option Nat :=
  let m := s.get (Reg.BPM_OWNER_CFG_SHARED_MAX o p)
  if m = 0xFFFF then none else some (4 * m)

/-- A buffer of pool p for owner o (R334). -/
def State.poolTakes (s : State) (o p : Nat) : Bool :=
  decide (s.used o p < s.reserve o p) ||
    (decide (0 < s.sharedFree p) &&
      match s.sharedMax o p with
      | none => true
      | some m => decide (s.used o p - s.reserve o p < m))

/-- The pool that admits a frame of owner o needing size bytes: the smallest that fits, or with SPILL_EN the next one that
takes it (R334). -/
def State.pickPool (s : State) (o size : Nat) : Option Nat :=
  match (List.range 8).filter (fun p => decide (size ≤ poolSize p)) with
  | [] => none
  | p :: ps => if s.flag Reg.BPM_CFG_SPILL_EN then (p :: ps).find? (s.poolTakes o) else if s.poolTakes o p then some p else none

/-- The cells that class c holds beyond its reserve. -/
def State.cellsShared (s : State) (c : Nat) : Nat := s.cellsOf c - 16 * s.get (Reg.BPM_CELL_CLASS_RESERVE c)

/-- A chain of n cells is admitted for class c (R336). -/
def State.cellsTake (s : State) (c n : Nat) : Bool :=
  let h := s.cellsOf c
  let r := 16 * s.get (Reg.BPM_CELL_CLASS_RESERVE c)
  let need := n - (r - h)
  let free := (s.get Reg.BPM_CELL_CFG_COUNT - s.cellReserves) - (List.range 4).foldl (fun a d => a + s.cellsShared d) 0
  let m := s.get (Reg.BPM_CELL_CLASS_MAX c)
  decide (need ≤ free) && (decide (m = 0xFFFF) || decide (h + n ≤ 16 * m))

/-- A frame dropped at admission of owner o (R334, R361). -/
def admitDrop (s : State) (id o : Nat) : State :=
  let s := dropFrame s id (Reg.BPM_ADMIT_DROP o)
  let (last, s) := burst s s.sch.lastAdmit o 0x4004 (if o < 64 then some (o % 32) else none)
  s.modSch (fun c => { c with lastAdmit := last })

/-- A frame whose class finds no cells (R336, R361). -/
def cellDrop (s : State) (id c : Nat) : State :=
  let s := dropFrame s id (Reg.BPM_CELL_DROP c)
  let (last, s) := burst s s.sch.lastCell c 0x4005 none
  s.modSch (fun x => { x with lastCell := last })

/-- The device forwards frames in its present pair role (R490, R492, R493, R498). -/
def State.forwarding (s : State) : Bool :=
  (decide (s.fab.role = .none) || decide (s.fab.role = .active)) && !s.fab.fencing && !s.fab.switching && !s.fab.takeoverDue

/-- Admission is stopped by a power state or by an entry to one (R508, R514). -/
def State.admissionOpen (s : State) : Bool :=
  s.gaf.admission && decide (s.get Reg.GAF_STS_STATE ≠ 2) && decide (s.get Reg.GAF_STS_STATE ≠ 3)

/-- What keeps a frame of a port pair from admission: its counter. A punted frame leaves on no port (R146, R490, R508,
R540). The order where several apply is the model's (log 25). -/
def admitBar (s : State) (n m : Nat) (punt : Bool) : Option Nat :=
  if s.quiesced (n % 32) then some (Reg.EVT_QDROP (n % 32))
  else if s.forwarding = false then some Reg.FAB_STANDBY_DROP
  else if s.admissionOpen = false then some Reg.GAF_STATE_DROP
  else if punt = false ∧ s.idxUp m = false then some (downCtr s m)
  else none

/-- Admit frame id, which needs size bytes, in a privileged class or as an ordinary frame (R331 to R336). Answers whether
it was admitted. -/
def takeBuffer (s : State) (id size : Nat) (cls : Option Nat) : Bool × State :=
  match s.frame? id with
  | none => (false, s)
  | some f =>
    match admitBar s f.n f.m (decide (cls = some clsPunt)) with
    | some ctr => (false, dropFrame s id ctr)
    | none =>
      let o := if cls = some clsMgmt ∨ (cls.isSome = true ∧ 2048 < size) then 64 else f.n
      let inCells := fun (s : State) (o c n : Nat) =>
        let r := takeSpots n s cellPool
        (true, (r.2.modFrame id (fun f => { f with owner := o, cls := c, cells := n, spots := r.1 })).mark id 3)
      let inPool := fun (s : State) (o p : Nat) =>
        let r := takeSpots 1 s p
        (true, (r.2.modFrame id (fun f => { f with owner := o, pool := some p, spots := r.1 })).mark id 3)
      if s.flag Reg.BPM_STS_CFG_ERR then (false, admitDrop s id o)
      else match cls with
        | some c =>
          if size ≤ 2048 then
            let n := (size + 63) / 64
            if s.cellsTake c n then inCells s o c n
            else (false, cellDrop s id c)
          else match s.pickPool 64 size with
            | some p => inPool s 64 p
            | none => (false, admitDrop s id 64)
        | none => match s.pickPool o size with
          | some p => inPool s o p
          | none => (false, admitDrop s id o)

/-- Drop the frames that satisfy a test, each counted. -/
def dropWhere (s : State) (p : Frame → Bool) (ctr : Nat) : State := dropAll s (s.framesWhere p) ctr

/-! ### Errors of packet memory -/

/-- Bytes with those from position i replaced by zeros. -/
def zeroFrom (i : Nat) (l : List Byte) : List Byte := l.take i ++ List.replicate (l.length - i) 0

/-- A byte of the capsule that a Korone port is sending cannot be read: what has not been sent from that byte on goes out as zeros
(R178). Which byte it is no rule says: a free place behind the head, among the bytes not yet sent (log 49). -/
def voidTail (s : State) (f : Frame) : State :=
  let k := f.m % 32
  let p := s.korPort k
  let (v, s) := s.draw
  if p.txHead ≠ some f.id then
    s.modFrame f.id (fun f => { f with bytes := zeroFrom (4 + v.toNat % (f.bytes.length - 4)) f.bytes })
  else if p.txOpen = false then s
  else match p.txCaps.getLast? with
    | some c => s.modKor k (fun p => { p with txCaps := p.txCaps.dropLast ++ [zeroFrom (4 + v.toNat % (c.length - 4)) c] })
    | none => s.modKor k (fun p => { p with txRest := zeroFrom (v.toNat % p.txRest.length) p.txRest })

/-! ### The commands -/

/-- POOL_CFG_WRITE -/
def execPoolCfgWrite (who : Who) (pool : Fin 9) (val : Word) (s : State) : Host.Outcome State Fault Refusal :=
  .next (gateOwner who (poolOff pool) (poolCfgWrite (poolOff pool) val) s)

end Sys2Proof.Machine
end

