-- ==== Sys2Proof/Machine/Fec.lean ====
section
/-! DEFINITION. The Reed-Solomon code RS(544,514) over GF(2^10) of Korone lanes (R156): the field, encoding, and decoding of one
received codeword. Field polynomial, generator and symbol order are those of IEEE 802.3 Clause 91 (PRESUMED, log 83). -/

namespace Sys2Proof.Machine

/-! ### GF(2^10) -/

/-- Twice a field element: the field polynomial is x^10 + x^3 + 1. -/
def gf10Double (a : Nat) : Nat := if a < 512 then 2 * a else (2 * a) ^^^ 0x409

/-- The product of two field elements, over the bits of the second from bit n - 1 down. -/
def gf10MulBits (a b : Nat) : Nat → Nat
  | 0 => 0
  | n + 1 => (if nbit b 0 then a else 0) ^^^ gf10MulBits (gf10Double a) (b / 2) n

/-- The product of two field elements. -/
def gf10Mul (a b : Nat) : Nat := gf10MulBits a b 10

/-- A power of the primitive element. -/
def gf10Alpha : Nat → Nat
  | 0 => 1
  | n + 1 => gf10Double (gf10Alpha n)

/-- The powers of an element from 1 on, n of them. -/
def gf10Powers (a n : Nat) : List Nat := (List.range n).foldl (fun l _ => l ++ [gf10Mul a (l.getLastD 1)]) [1]

/-- A power by squaring, for an exponent of ten bits. -/
def gf10Pow (a e : Nat) : Nat :=
  (List.range 10).foldr (fun i r => let s := gf10Mul r r; if nbit e i then gf10Mul s a else s) 1

/-- The inverse of a nonzero element: its power 1,022. -/
def gf10Inv (a : Nat) : Nat := gf10Pow a 1022

/-! ### Polynomials, lowest coefficient first -/

/-- The sum of two polynomials. -/
def polyAdd : List Nat → List Nat → List Nat
  | [], q => q
  | p, [] => p
  | a :: p, b :: q => (a ^^^ b) :: polyAdd p q

/-- A polynomial times an element. -/
def polyScale (c : Nat) (p : List Nat) : List Nat := p.map (gf10Mul c)

/-- The value of a polynomial at an element. -/
def polyAt (p : List Nat) (x : Nat) : Nat := p.foldr (fun c r => c ^^^ gf10Mul r x) 0

/-- The degree of a polynomial whose highest coefficients may be zero. -/
def polyDeg (p : List Nat) : Nat := (p.reverse.dropWhile (· = 0)).length - 1

/-- The generator: the product of x + α^i for i from 0 to 29, lowest coefficient first. -/
def rsGenerator : List Nat := (List.range 30).foldl (fun g i => polyAdd (0 :: g) (polyScale (gf10Alpha i) g)) [1]

/-! ### Encoding -/

/-- One message symbol enters the division by the generator; the remainder has 30 symbols, the highest first. -/
def rsStep (gen : List Nat) (r : List Nat) (m : Nat) : List Nat :=
  let f := m ^^^ r.headD 0
  List.zipWith (fun a g => a ^^^ gf10Mul f g) (r.drop 1 ++ [0]) gen

/-- The 30 parity symbols of 514 message symbols, the highest first. -/
def rsParity (msg : List Nat) : List Nat := msg.foldl (rsStep (rsGenerator.take 30).reverse) (List.replicate 30 0)

/-- Bits as symbols of ten bits, the first bit the least significant. -/
def symbols10 : Nat → List Bool → List Nat
  | 0, _ => []
  | n + 1, l => (l.take 10).foldr (fun b a => 2 * a + b2n b) 0 :: symbols10 n (l.drop 10)

/-- Symbols as bits, the least significant first. -/
def bits10 (l : List Nat) : List Bool := l.flatMap (fun v => (List.range 10).map (nbit v))

/-- The codeword of 5,140 data bits: the data, then the parity, 5,440 bits. -/
def rsEncode (data : List Bool) : List Bool := data ++ bits10 (rsParity (symbols10 514 data))

/-- Whole codewords of a bit stream, n at most, and the bits left over (R156). -/
def rsStream : Nat → List Bool → List Bool × List Bool
  | 0, l => ([], l)
  | n + 1, l =>
    if l.length < 5140 then ([], l)
    else let r := rsStream n (l.drop 5140); (rsEncode (l.take 5140) ++ r.1, r.2)

/-! ### Decoding -/

/-- The 30 syndromes of a received word of 544 symbols, the first the highest coefficient. -/
def syndromes (r : List Nat) : List Nat := (List.range 30).map (fun i => polyAt r.reverse (gf10Alpha i))

/-- What Berlekamp and Massey's search carries: the locator, the one before its last change of length, the steps since then, that
change's discrepancy, and the length. -/
structure Search where
  loc : List Nat
  old : List Nat
  gap : Nat
  disc : Nat
  len : Nat

/-- One step of the search, with the syndromes up to the present one, latest first. -/
def searchStep (x : Search) (n : Nat) (late : List Nat) : Search :=
  let d := (List.zipWith gf10Mul (x.loc.take (x.len + 1)) late).foldl (· ^^^ ·) 0
  if d = 0 then { x with gap := x.gap + 1 }
  else
    let fix := polyAdd x.loc (List.replicate x.gap 0 ++ polyScale (gf10Mul d (gf10Inv x.disc)) x.old)
    if 2 * x.len ≤ n then { loc := fix, old := x.loc, gap := 1, disc := d, len := n + 1 - x.len }
    else { x with loc := fix, gap := x.gap + 1 }

/-- The error locator of the syndromes. -/
def locator (syn : List Nat) : Search :=
  (List.range syn.length).foldl (fun x n => searchStep x n (syn.take (n + 1)).reverse) { loc := [1], old := [1], gap := 1, disc := 1, len := 0 }

/-- The places of the errors: coefficients of the word, 0 the last symbol, at which the locator vanishes. -/
def errorPlaces (loc : List Nat) : List Nat := (List.range 544).filter (fun i => polyAt loc (gf10Pow (gf10Alpha 1) ((1023 - i) % 1023)) = 0)

/-- The value of the error at a place (Forney). -/
def errorValue (syn loc : List Nat) (i : Nat) : Nat :=
  let inv := gf10Pow (gf10Alpha 1) ((1023 - i) % 1023)
  let prod := (List.range syn.length).foldl (fun p k => polyAdd p (List.replicate k 0 ++ polyScale (syn.getD k 0) loc)) []
  let omega := polyAt (prod.take syn.length) inv
  let deriv := (List.range loc.length).foldl (fun a j => if j % 2 = 1 then a ^^^ gf10Mul (loc.getD j 0) (gf10Pow inv (j - 1)) else a) 0
  gf10Mul (gf10Pow (gf10Alpha 1) i) (gf10Mul omega (gf10Inv deriv))

/-- A received word of 544 symbols decoded: its result, and the word as corrected (R156, R157). Up to 15 symbols are corrected. -/
def rsDecode (r : List Nat) : Codeword × List Nat :=
  let syn := syndromes r
  if syn.all (· = 0) then (.clean, r)
  else
    let x := locator syn
    let places := errorPlaces x.loc
    if x.len ≤ 15 ∧ polyDeg x.loc = x.len ∧ places.length = x.len then
      let fixed := places.foldl (fun w i => w.set (543 - i) (w.getD (543 - i) 0 ^^^ errorValue syn x.loc i)) r
      (.corrected, fixed)
    else (.uncorrectable, r)

/-- A received codeword of 5,440 bits decoded: its result and its 5,140 data bits. -/
def rsReceive (l : List Bool) : Codeword × List Bool :=
  let x := rsDecode (symbols10 544 l)
  (x.1, bits10 (x.2.take 514))

end Sys2Proof.Machine
end

