-- ==== Sys2Proof/Machine/Cells.lean ====
section
/-! DEFINITION. Gwelek cells as they are built and sent (R474, R476). -/

namespace Sys2Proof.Machine

/-- Change the fabric. -/
def State.modFab (s : State) (f : Fab → Fab) : State := { s with fab := f s.fab }

/-- Classes of R476. -/
abbrev cellHello : Nat := 1
/-- HEARTBEAT. -/
abbrev cellHeartbeat : Nat := 2
/-- REG_REQ. -/
abbrev cellRegReq : Nat := 3
/-- REG_RSP. -/
abbrev cellRegRsp : Nat := 4
/-- MARK. -/
abbrev cellMark : Nat := 5
/-- MARK_ACK. -/
abbrev cellMarkAck : Nat := 6
/-- STATE_CRC. -/
abbrev cellStateCrc : Nat := 7

/-- A cell of 256 bytes (R474). -/
def cellBytes (cls dst src ttl seq : Nat) (payload : List Byte) : List Byte :=
  let h := [BitVec.ofNat 8 cls, BitVec.ofNat 8 (4 * dst), BitVec.ofNat 8 (4 * src), BitVec.ofNat 8 ttl] ++ toBe 2 seq ++
    toBe 2 payload.length ++ [0, 0]
  let b := h ++ toBe 2 (crc16 h).toNat ++ padTo 240 payload
  b ++ toBe 4 (crc32 b).toNat

/-- SEQ of the next cell of a class to a destination (R474). -/
def State.nextSeq (s : State) (cls dst : Nat) : Nat := mlook 0 (64 * cls + dst) s.fab.seqs

/-- A cell leaves on lane l of a link: scrambled, and coded as the lanes of Korone are (R156, R473, R474). A lane whose transmitter is
idle sends nothing (R131). -/
def emitCell (s : State) (link l : Nat) (c : List Byte) : State :=
  let key := 4 * link + l
  if s.txIdle .lnf key || s.farLoop .lnf key then s
  else
    let r := rsStream 2 (mlook [] key s.fab.rest ++ bitsOf (cellScramble l c))
    let s := s.modFab (fun f => { f with rest := mstore [] key r.2 f.rest })
    sendBits (s.emit (.cell link l c)) .lnf key 3 r.1

/-- Send a cell on a link (R476): its lane follows from class and destination, and SEQ counts on. -/
def sendOn (s : State) (link cls dst : Nat) (payload : List Byte) : State :=
  let q := s.nextSeq cls dst
  let s := s.modFab (fun f => { f with seqs := mstore 0 (64 * cls + dst) ((q + 1) % 65536) f.seqs })
  emitCell s link ((dst + cls) % 4) (cellBytes cls dst s.fabAddr 15 q payload)

/-- A lane with nothing to send sends an IDLE cell (R474). -/
def sendIdle (s : State) (link l : Nat) : State :=
  let q := s.nextSeq 0 s.fabAddr
  let s := s.modFab (fun f => { f with seqs := mstore 0 s.fabAddr ((q + 1) % 65536) f.seqs })
  emitCell s link l (cellBytes 0 s.fabAddr s.fabAddr 15 q [])

/-- Send a cell to an address by its route; without one nothing is sent (R477, R479). -/
def sendCell (s : State) (cls dst : Nat) (payload : List Byte) : State :=
  if dst = s.fabAddr then s
  else match s.route dst with
    | some (_, link) => sendOn s link cls dst payload
    | none => s

end Sys2Proof.Machine
end

