-- ==== Sys2Proof/Machine/Vault.lean ====
section
/-! DEFINITION. The key vault (12): derived keys (R434, R435), stage 3 (R441), blobs (R455 to R457), the vault's commands
(R453, R458), entropy (R432, R433) and the counter, banks and update messages (R443 to R450). -/

namespace Sys2Proof.Machine

/-- Change the vault. -/
def State.modVlt (s : State) (f : Vlt → Vlt) : State := { s with vlt := f s.vlt }

/-! ### Keys -/

/-- Vault commands are served: keys derived and not zeroised; END serves ATTEST alone (R440, R468). -/
def State.vaultServes (s : State) (op : Nat) : Bool :=
  s.flag Reg.VLT_STS_KEYS_READY && !s.flag Reg.VLT_STS_ZEROISED && (decide (op = 5) || decide (lcCode s.vlt.otp ≠ 5))

/-! ### Blobs -/

/-- Bytes of a blob's material by KIND, 0 for no kind (R456). -/
def materialLen (kind : Nat) : Nat := if kind = 1 then 16 else if kind = 2 then 32 else if kind = 3 then 66 else 0

/-- WRAPPED_LEN by KIND (R455). -/
def wrappedLen (kind : Nat) : Nat := if kind = 1 then 40 else if kind = 2 then 56 else 96

/-- KIND and USAGE fit (R456). -/
def usageFits (kind usage : Nat) : Bool :=
  if kind = 3 then decide (usage = 4) else (decide (kind = 1) || decide (kind = 2)) && decide (1 ≤ usage) && decide (usage ≤ 3)

/-- A blob's bytes 0 to 15 (R455). -/
def blobHead (kind origin usage : Nat) (serial : Word) (lc slot : Nat) : List Byte :=
  [0x42, 0x4C, 0x4F, 0x42, 0x01] ++ toBe 1 kind ++ toBe 1 origin ++ toBe 1 usage ++ toBe 4 serial.toNat ++ toBe 1 lc ++
    toBe 1 slot ++ [0, 0]

/-- A blob of the given material (R455). -/
def makeBlob (key : BitVec 256) (kind origin usage : Nat) (serial : Word) (lc slot : Nat) (material : List Byte) :
    List Byte :=
  let h := blobHead kind origin usage serial lc slot
  padTo 128 (h ++ toBe 2 (wrappedLen kind) ++ [0, 0] ++ kwpWrap true key (h ++ material))

/-- An opened blob. -/
structure Opened where
  kind : Nat
  origin : Nat
  usage : Nat
  material : List Byte
  deriving DecidableEq, Repr

/-- A blob opens when R457 holds. -/
def openBlob (s : State) (b : List Byte) : Option Opened :=
  match s.vlt.blobKey with
  | none => none
  | some key =>
    let kind := byteAt b 5
    let n := wrappedLen kind
    let h := sub b 0 16
    if materialLen kind ≠ 0 ∧ sub b 0 5 = [0x42, 0x4C, 0x4F, 0x42, 0x01] ∧ be (sub b 14 2) = 0 ∧ be (sub b 16 2) = n ∧
        be (sub b 18 2) = 0 ∧ (b.drop (20 + n)).all (fun x => x = 0) = true ∧ byteAt b 7 < 8 ∧
        byteAt b 12 = lcCode s.vlt.otp ∧ byteAt b 13 = slotByte s.vlt.otp then
      match kwpUnwrap true key.value (sub b 20 n) with
      | some p =>
        if p.take 16 = h ∧ p.length = 16 + materialLen kind then
          some { kind := kind, origin := byteAt b 6, usage := byteAt b 7, material := p.drop 16 }
        else none
      | none => none
    else none

/-- The blob in the window at an offset in units of 64 bytes, when it opens. -/
def State.openAt (s : State) (off : Nat) : Option Opened :=
  if s.blobInside off then openBlob s (s.blobAt off) else none

/-- A key of 16 or 32 bytes as a number. -/
def keyBits (bs : List Byte) : BitVec 256 := BitVec.ofNat 256 (be bs)

/-! ### Commands (R458) -/

/-- The statement of ATTEST before its signature (R453). -/
def statement (s : State) (nonce subject : List Byte) (origin usage : Nat) (named : Bool) : List Byte :=
  let v := s.vlt
  let (e, c) := counterOf v
  let flags := b2n (s.flag Reg.VLT_STS_EVIDENCE_SATURATED) * 128 + b2n (s.flag Reg.VLT_STS_COUNTER_EXHAUSTED) * 64 +
    b2n (s.flag Reg.VLT_STS_BBS_RENEWED) * 32 + b2n named * 16
  [0x41, 0x54, 0x53, 0x31, 0x01] ++ toBe 1 (lcCode v.otp) ++ toBe 1 (slotByte v.otp) ++ toBe 1 flags ++ deviceId s ++
    toBe 1 e ++ [0, 0] ++ toBe 5 c ++ toBe 1 v.otp.evidence ++ [0xB1, 0x32, 0x64] ++
    (match ownerRecord v with | some r => padTo 16 (sub r 4 16) | none => List.replicate 16 0) ++
    wordBytes (s.rds (Reg.CTL_SCRIPT_DIGEST 0) 12) ++ toBe 48 s.ctl.fwDigest.toNat ++ padTo 32 nonce ++ padTo 48 subject ++
    toBe 1 origin ++ toBe 1 usage ++ [0, 0]

/-- What a vault command will answer: its result and the VLT_IO words it will load. -/
def vaultAnswer (s : State) (op : Nat) : (Nat × List Word) × State :=
  let kind := s.get Reg.VLT_ARG_KIND
  let usage := s.get Reg.VLT_ARG_USAGE
  let off := s.get Reg.VLT_OFFSET_OFFSET
  let io := wordBytes (s.rds (Reg.VLT_IO 0) 32)
  let entropy := s.flag Reg.VLT_STS_ENTROPY_OK
  let lc := lcCode s.vlt.otp
  let slot := slotByte s.vlt.otp
  let key := match s.vlt.blobKey with | some k => k.value | none => 0
  if s.vaultServes op = false then ((6, []), s)
  else match op with
    | 1 =>
      if (kind ≠ 1 ∧ kind ≠ 2) ∨ usageFits kind usage = false then ((1, []), s)
      else if entropy = false then ((5, []), s)
      else
        let (v, s) := s.drbg
        let (n, s) := s.drbg
        ((0, bytesWords 32 (makeBlob key kind 1 usage (n.truncate 32) lc slot (toBe (materialLen kind) v.toNat))), s)
    | 2 =>
      let m := wordBytes (s.rds (Reg.VLT_KEY_STAGE 0) 17)
      let mkaOk := (decide (byteAt m 0 = 16) || decide (byteAt m 0 = 32)) && decide (1 ≤ byteAt m 33) && decide (byteAt m 33 ≤ 32)
      if importEn s.vlt = false then ((3, []), s)
      else if usageFits kind usage = false ∨ (kind = 3 ∧ mkaOk = false) then ((1, []), s)
      else if entropy = false then ((5, []), s)
      else
        let (n, s) := s.drbg
        ((0, bytesWords 32 (makeBlob key kind 2 usage (n.truncate 32) lc slot (m.take (materialLen kind)))), s)
    | 3 =>
      if s.blobInside off = false then ((2, []), s)
      else if (openBlob s io).isNone then ((4, []), s)
      else ((0, []), putBlob s off io)
    | 4 => if s.blobInside off then ((0, bytesWords 32 (s.blobAt off)), s) else ((2, []), s)
    | 5 =>
      let named := s.flag Reg.VLT_ARG_SUBJECT
      if entropy = false then ((5, []), s)
      else if named = true ∧ s.blobInside off = false then ((2, []), s)
      else
        let opened := if named then s.openAt off else none
        if named = true ∧ opened.isNone = true then ((4, []), s)
        else
          let subject := if named then sha384Bytes (s.blobAt off) else []
          let (o, u) := match opened with | some x => (x.origin, x.usage) | none => (0, 0)
          let st := statement s (sub io 0 32) subject o u named
          let (k, s) := s.drbg
          let sig := ecdsaSign (identityKey (s.vlt.idKey.getD 0)) (sha384 st) k
          ((0, bytesWords 90 (st ++ padTo 96 (sig.take 96))), s)
    | _ => ((1, []), s)

/-- A write of VLT_CMD with an OP starts a command, unless one is in progress (R458, R471, R584). -/
def vltCmdWrite (who : Who) (val : Word) (s : State) : State :=
  let op := fieldOf Reg.VLT_CMD_OP val
  if op = 0 then (if s.flag Reg.VLT_CMD_BUSY then s else storeReg Reg.VLT_CMD val s)
  else if s.flag Reg.VLT_CMD_BUSY then s.inc Reg.CTL_FAULT_BUSY
  else
    let s := (storeReg Reg.VLT_CMD val s).setFlag Reg.VLT_CMD_BUSY true
    let ((r, ws), s) := vaultAnswer s op
    let p : PendOp := PendOp.mk r (ws.zipIdx.map (fun p => (Reg.VLT_IO p.2, p.1))) who
    s.modVlt (fun v => { v with op := some p })

/-- Load the registers that a completed operation writes. -/
def State.wrAll (s : State) (ws : List (Nat × Word)) : State := ws.foldl (fun s p => s.wr p.1 p.2) s

/-- A vault command completes: BUSY 0, its result and outputs, and VLT_KEY_STAGE zeroed; a zeroise that acted meanwhile
leaves NO_KEYS (R458, R468). -/
def vltDoneOp (s : State) : State :=
  match s.vlt.op with
  | none => s
  | some p =>
    let gone := s.flag Reg.VLT_STS_ZEROISED
    let s := s.modVlt (fun v => { v with op := none })
    let s := if gone then s else s.wrAll p.writes
    let s := s.wrs (Reg.VLT_KEY_STAGE 0) (List.replicate 17 0)
    (s.setFlag Reg.VLT_CMD_BUSY false).set Reg.VLT_CMD_RESULT (if gone then 6 else p.result)

/-- The command word of an OP. -/
def vltWord (op : Nat) : Word := word [(Reg.VLT_CMD_OP, op)]

/-! ### Entropy (R432, R433) -/

/-- A read of VLT_RANDOM. -/
def randomRead (s : State) : Word × State :=
  if s.flag Reg.VLT_STS_ENTROPY_OK then (let (v, s) := s.drbg; (v.truncate 32, s)) else (0, s)

/-- A reseed, counted. -/
def reseedOp (s : State) : State :=
  if s.vlt.drbgRun ∧ s.flag Reg.VLT_STS_ENTROPY_OK = true then
    (s.modVlt (fun v => { v with requests := 0 })).inc Reg.VLT_DRBG_RESEEDS
  else s

/-- A health test fails: the DRBG stops, and a command that needs it ends with NO_ENTROPY (R433, R469). -/
def entropyFailOp (s : State) : State :=
  if s.flag Reg.VLT_STS_ENTROPY_OK = false then s
  else
    let s := s.setFlag Reg.VLT_STS_ENTROPY_OK false
    let needs := decide (s.get Reg.VLT_CMD_OP = 1) || decide (s.get Reg.VLT_CMD_OP = 5) || decide (s.get Reg.VLT_CMD_OP = 2)
    let s := match s.vlt.op with
      | some p => if needs && decide (p.result = 0) then
          s.modVlt (fun v => { v with op := some { p with result := 5, writes := [] } }) else s
      | none => s
    raise0 (s.inc Reg.VLT_ENTROPY_FAILS) 0x0601 0

/-- A start-up test repeated: a pass resumes service after a reseed (R433). -/
def entropyRetestOp (pass : Bool) (s : State) : State :=
  if pass ∧ s.vlt.drbgRun = true ∧ s.flag Reg.VLT_STS_ENTROPY_OK = false then
    ((s.setFlag Reg.VLT_STS_ENTROPY_OK true).modVlt (fun v => { v with requests := 0 })).inc Reg.VLT_DRBG_RESEEDS
  else s

/-- BBS_REMASK: the shares of BBS are masked anew, and go on sharing the same value (R430). -/
def remaskOp (s : State) : State :=
  let (v, s) := s.draw
  s.modVlt (fun x => { x with secret := x.secret.remask (v.truncate 256) })

/-! ### What the registers show of root material -/

/-- Slots with a burnt cell (R471). -/
def slotsUsed (o : Otp) : Nat :=
  (List.range 4).foldl (fun a i => if o.valid.getLsbD i || o.released.getLsbD i || (mget i o.ownerHash).isSome then a + 2 ^ i else a) 0

/-- The counter stands at its end (R450). -/
def counterEnd (v : Vlt) : Bool := match currentBank v with
  | some (_, b) => decide (b.epoch = 128) && decide (b.count = 2 ^ 40 - 1)
  | none => false

/-- VLT_LC, VLT_COUNTER and VLT_STS.OWNER_RECORD follow the root material (R437, R443). -/
def showRoot (s : State) : State :=
  let o := s.vlt.otp
  let (e, c) := counterOf s.vlt
  let s := s.wr Reg.VLT_LC (word [(Reg.VLT_LC_SLOT, slotByte o), (Reg.VLT_LC_SLOTS_USED, slotsUsed o), (Reg.VLT_LC_LC_CODE, lcCode o)])
  let s := (s.wr Reg.VLT_COUNTER (w32 c)).wr Reg.VLT_COUNTER_HI (w32 (e * 256 + c / 2 ^ 32))
  let s := s.setFlag Reg.VLT_STS_OWNER_RECORD (match currentBank s.vlt, liveSlot o with
    | some (_, b), some i => decide (lcCode o = 3) && decide (b.slot.toNat = i)
    | _, _ => false)
  s.setFlag Reg.VLT_STS_EVIDENCE_SATURATED (decide (64 ≤ o.evidence))

/-- COUNTER_EXHAUSTED is set, and its event raised once (R450). -/
def exhaust (s : State) : State :=
  let s := s.setFlag Reg.VLT_STS_COUNTER_EXHAUSTED true
  if s.vlt.exhaustedRaised then s else raise0 (s.modVlt (fun v => { v with exhaustedRaised := true })) 0x0605 0

/-- Burn the next EPOCH bit (R441, R448, R470). -/
def burnEpoch (s : State) : State :=
  let s := s.modVlt (fun v => { v with otp := { v.otp with epoch := v.otp.epoch + 1 } })
  raise0 (s.setFlag Reg.VLT_STS_EPOCH_BURNT true) 0x0606 0

/-- A new BBS, tagged with the present state and slot, and the vault's shares of it (R430, R439, R441). -/
def newBbs (s : State) : State :=
  let (v, s) := s.drbg
  let (m, s) := s.draw
  let b : Bbs := Bbs.mk (v.truncate 256) (BitVec.ofNat 8 (lcCode s.vlt.otp)) (BitVec.ofNat 8 (slotByte s.vlt.otp))
  s.modVlt (fun x => { x with bbs := some b, secret := shared b.value (m.truncate 256) })

/-- The vault reads OTP_ROOT and BBS, each only into two shares (R430). -/
def readRoots (s : State) : State :=
  let (m, s) := s.draw
  s.modVlt (fun x => { x with
    root := shared (x.otp.root.getD 0) (m.truncate 256),
    secret := match x.bbs with | some b => shared b.value (m.extractLsb' 256 256) | none => x.secret })

/-- Derive the keys of R435 that the state uses; they travel to their users as two shares (R430, R440). -/
def deriveKeys (s : State) : State :=
  let gone := decide (lcCode s.vlt.otp = 5)
  let (m, s) := s.draw
  s.modVlt (fun v => { v with
    idKey := some (identityOf v),
    wrapKey := if gone then none else some (shared (wrapKeyOf v) (m.truncate 256)),
    blobKey := if gone then none else some (shared (blobKeyOf v) (m.extractLsb' 256 256)) })

/-- BBS is absent, or tagged with another state or slot (R441). -/
def bbsStale (v : Vlt) : Bool := match v.bbs with
  | none => true
  | some b => decide (b.lc.toNat ≠ lcCode v.otp) || decide (b.slot.toNat ≠ slotByte v.otp)

/-! ### Stage 3 (R441) -/

/-- Stage 3 fails and the device halts with the event (R89, R433, R441). -/
def stage3Halt (s : State) (ev : Nat) : State := raiseAt (stageFail s 3 ev) 6 ev 0 0 none

/-- A burn in stage 3 is due: OTP_ROOT in TEST, or an EPOCH bit after VBAT was lost (R441). -/
def State.stage3Burns (s : State) : Bool :=
  (decide (lcCode s.vlt.otp = 1) && s.vlt.otp.root.isNone) || (s.aon.vbatLost && decide (s.vlt.otp.epoch < 128))

/-- A rail of the core or always-on supply is in warning: burns and commits wait (R448, R524). -/
def State.frozenRails (s : State) : Bool := s.gaf.dips.any (fun d => decide (d.1 = 0) || decide (d.1 = 1))

/-- One core of the utility cipher engine, its mask generator seeded, after its known-answer test (R294, R459). -/
def uceKat (s : State) (c : Nat) (pass : Bool) : State :=
  let (v, s) := s.drbg
  let h : UceChan := { idleChan with coreOk := pass, core := { inService := pass, queue := [], seeded := true, seed := v.truncate 256 } }
  let s := s.modVlt (fun v => if c = 0 then { v with c0 := h } else { v with c1 := h })
  if pass then s
  else raise0 ((s.set (Reg.UCE_STS_STATE c) 8).set (Reg.UCE_STS_ERR c) 5) 0x0701 0

/-- Stage 3 in order (R430, R431, R433, R436, R440 to R442, R459). Its burns and its write of BBS wait for the end of a
freeze (R524). -/
def vaultStageOp (entropyOk burnOk : Bool) (weak : Nat) (kat : BitVec 2) (s : State) : State :=
  if s.stage ≠ 3 ∨ (s.frozenRails = true ∧ entropyOk = true ∧ (s.stage3Burns = true ∨ bbsStale s.vlt = true)) then s
  else
    let s := s.set Reg.VLT_STS_OTP_WEAK weak
    let s := if weak = 0 then s else raise0 s 0x0609 0
    if entropyOk = false then stage3Halt (s.inc Reg.VLT_ENTROPY_FAILS) 0x0601
    else if s.stage3Burns = true ∧ burnOk = false then stage3Halt s 0x0607
    else
      let s := (s.setFlag Reg.VLT_STS_ENTROPY_OK true).modVlt (fun v => { v with drbgRun := true, requests := 0 })
      let s := if lcCode s.vlt.otp = 1 ∧ s.vlt.otp.root.isNone = true then
          (let (v, s) := s.drbg
           s.modVlt (fun x => { x with otp := { x.otp with root := some (v.truncate 256) } }))
        else s
      let s := if s.aon.vbatLost then
          (if s.vlt.otp.epoch < 128 then { burnEpoch s with aon := { s.aon with vbatLost := false } } else exhaust s)
        else s
      let s := if bbsStale s.vlt then raise0 ((newBbs s).setFlag Reg.VLT_STS_BBS_RENEWED true) 0x0608 0 else s
      let s := showRoot s
      let s := if counterEnd s.vlt then exhaust s else s
      let s := deriveKeys (readRoots s)
      let s := s.wrs (Reg.VLT_ID_PUB 0) (bytesWords 24 (ecPublic (identityKey (identityOf s.vlt))))
      let s := { s with flt := { s.flt with secret := s.draws } }
      let s := (s.drbg).2
      let s := newChallenge s
      let s := uceKat (uceKat s 0 (kat.getLsbD 0)) 1 (kat.getLsbD 1)
      (s.setFlag Reg.VLT_STS_KEYS_READY true).toStage 4

/-- No start-up test has passed within 5 ms of stage 3 (R433). -/
def entropyStartupTimeoutOp (s : State) : State :=
  if s.stage = 3 then stage3Halt (s.inc Reg.VLT_ENTROPY_FAILS) 0x0601 else s

/-! ### Update messages (R443 to R450) -/

/-- STATE of the update loader: 0 IDLE, 1 OPEN, 2 APPLYING, 3 DONE, 4 FAILED. -/
def State.updState (s : State) : Nat := s.get Reg.VLT_UPD_STS_STATE

/-- The staged message. -/
def updMessage (v : Vlt) : List Byte :=
  wordBytes ((List.range (v.updLen / 4)).map (fun i => mlook 0 i v.upd))

/-- Take a doubled decision the first time (R534). -/
def takeFirst (s : State) (d : Decision) (verdict : Bool) : State :=
  s.modCtl (fun c => { c with doubled := c.doubled.filter (fun x => x.decision ≠ d) ++ [{ decision := d, first := verdict, second := none }] })

/-- Both takings of a doubled decision; an untaken second agrees (log 13). -/
def bothTakings (s : State) (d : Decision) : Option (Bool × Bool) :=
  match s.ctl.doubled.find? (fun x => x.decision = d) with
  | some x => some (x.first, x.second.getD x.first)
  | none => none

/-- The decision is settled. -/
def dropTaking (s : State) (d : Decision) : State :=
  s.modCtl (fun c => { c with doubled := c.doubled.filter (fun x => x.decision ≠ d) })

/-- OPEN from the ringmaster in IDLE, DONE or FAILED (R75, R447). -/
def updOpenOp (len : Nat) (s : State) : State :=
  if s.updState = 1 ∨ s.updState = 2 then s.inc Reg.CTL_FAULT_OWNER
  else
    let s := s.modVlt (fun v => { v with upd := [], updLen := len })
    (s.wr Reg.VLT_UPD_ADDR 0).wr Reg.VLT_UPD_STS (word [(Reg.VLT_UPD_STS_STATE, 1)])

/-- Four message bytes, and the word index moves on (R447, R471). -/
def updDataOp (d : Word) (s : State) : State :=
  if s.updState ≠ 1 then s.inc Reg.CTL_FAULT_OWNER
  else
    let i := s.get Reg.VLT_UPD_ADDR_WORD
    let s := s.modVlt (fun v => { v with upd := mput i d v.upd })
    s.set Reg.VLT_UPD_ADDR_WORD (i + 1)

/-- The signature verdict of a message (R444). -/
def updVerdict (m : List Byte) : Bool :=
  ecdsaVerify (sub m 64 96) (sha384 (m.take (m.length - 96))) (m.drop (m.length - 96))

/-- APPLY starts the checks (R447). -/
def updApplyOp (s : State) : State :=
  if s.updState ≠ 1 then s.inc Reg.CTL_FAULT_OWNER
  else
    let s := takeFirst s .update (updVerdict (updMessage s.vlt))
    s.wr Reg.VLT_UPD_STS (word [(Reg.VLT_UPD_STS_BUSY, 1), (Reg.VLT_UPD_STS_STATE, 2)])

/-- CLOSE discards an open update; after an end it returns to IDLE (R75, R447). -/
def updCloseOp (s : State) : State :=
  if s.updState = 2 then s.inc Reg.CTL_FAULT_OWNER
  else if s.updState = 1 then s.wr Reg.VLT_UPD_STS 11
  else s.set Reg.VLT_UPD_STS_STATE 0

/-- A write of VLT_UPD_CTRL. -/
def updCtrlWrite (val : Word) (s : State) : State :=
  match fieldOf Reg.VLT_UPD_CTRL_CMD val with
  | 1 => updOpenOp (fieldOf Reg.VLT_UPD_CTRL_LENGTH val) s
  | 2 => updApplyOp s
  | 3 => updCloseOp s
  | _ => s

/-- Message types and their lengths (R444, R445). -/
def typeLength (t : Nat) : Nat :=
  if t = 1 ∨ t = 2 then 760 else if t = 3 ∨ t = 4 ∨ t = 5 ∨ t = 16 then 256 else 0

/-- KEY_IDs of a record's script keys (R446). -/
def recordKeyIds (r : List Byte) : List (List Byte) :=
  (List.range (byteAt r 3)).map (fun i => (sha384Bytes (sub r (120 + 96 * i) 96)).take 16)

/-- The body of an owner record is well formed (R446, R447). -/
def recordGood (r : List Byte) : Bool :=
  decide (be (sub r 0 2) = 1) && decide (byteAt r 2 % 64 = 0) && decide (byteAt r 3 ≤ 4) && decide (be (sub r 20 4) = 0) &&
    decide (recordKeyIds r).Nodup

/-- The first line of R447: the format. -/
def updFormatOk (v : Vlt) (m : List Byte) : Bool :=
  let t := byteAt m 5
  decide (be (sub m 0 4) = 0x55504431) && decide (byteAt m 4 = 1) && decide (typeLength t ≠ 0) &&
    decide (be (sub m 6 2) = typeLength t) && decide (v.updLen = typeLength t) && decide (be (sub m 57 2) = 0) &&
    (decide (typeLength t = 256) || recordGood (sub m 160 504))

/-- A type is allowed in a life-cycle state (R445). -/
def typeAllowed (t lc : Nat) : Bool :=
  if t = 1 ∨ t = 3 ∨ t = 4 then decide (lc = 3)
  else if t = 2 then decide (lc = 2)
  else if t = 5 then decide (lc = 3) || decide (lc = 2) || decide (lc = 4)
  else decide (t = 16) && decide (lc = 1)

/-- The digest that must be the signer's; a CLAIM has none (R438, R447). -/
def signerDigest (v : Vlt) (t : Nat) : Option (BitVec 384) :=
  if t = 2 then none
  else if lcCode v.otp = 3 then some (mlook 0 ((liveSlot v.otp).getD 0) v.otp.ownerHash)
  else some (sha384 Config.lifeCycleKey)

/-- The lowest slot with no burnt cell (R438). -/
def freeSlot (o : Otp) : Option Nat := (List.range 4).find? (fun i => !nbit (slotsUsed o) i)

/-- The result of the checks of R447, which stop at the first that fails; 0 when all pass. -/
def updCheck (s : State) (m : List Byte) : Nat :=
  let v := s.vlt
  let t := byteAt m 5
  let lc := lcCode v.otp
  let (v1, v2) := (bothTakings s .update).getD (false, false)
  let exhausted := s.flag Reg.VLT_STS_COUNTER_EXHAUSTED
  if updFormatOk v m = false then 1
  else if sub m 8 48 ≠ deviceId s then 2
  else if typeAllowed t lc = false then 3
  else if (match signerDigest v t with | some d => decide (sha384 (sub m 64 96) ≠ d) | none => false) then 4
  else if v1 = false ∧ v2 = false then 5
  else if v1 ≠ v2 then 6
  else if (byteAt m 56, be (sub m 59 5)) ≠ counterOf v then 7
  else if exhausted = true ∧ t ≠ 5 then 8
  else if t = 2 ∧ (freeSlot v.otp).isNone = true then 9
  else 0

/-- The counter after the next commit (R448). -/
def nextCounter (c : Nat × Nat) : Nat × Nat := if c.2 = 2 ^ 40 - 1 then (c.1 + 1, 0) else (c.1, c.2 + 1)

/-- Change one of the two banks. -/
def State.modBank (s : State) (one : Bool) (f : Bank → Bank) : State :=
  s.modVlt (fun v => if one then { v with bank1 := f v.bank1 } else { v with bank0 := f v.bank0 })

/-- The bank that is not current: bank 1 beside a current bank 0, otherwise bank 0 (R448). -/
def inactiveOne (v : Vlt) : Bool := match currentBank v with
  | some (one, _) => !one
  | none => false

/-- Bytes 0 to 15 of a bank, written in one operation: the counter, the CRC and the marker (R448). -/
def headBank (next : Nat × Nat) (b : Bank) : Bank :=
  let b := { b with epoch := next.1, count := next.2, commit := commitMark }
  { b with crc := bankCrc b }

/-- The steps of a commit, in order (R448). An END message that R450 accepts at the counter's end has no next counter: the
banks stay (log 90). -/
def commitSteps (v : Vlt) (record : List Byte) : List (State → State) :=
  let next := nextCounter (counterOf v)
  let one := inactiveOne v
  if 128 < next.1 then []
  else [
    (fun s => s.modBank one (fun b => { b with commit := 0 })),
    (fun s => s.modBank one (fun b => { b with record := record, slot := BitVec.ofNat 8 (slotByte s.vlt.otp) })),
    (fun s => if s.vlt.otp.epoch < next.1 then burnEpoch s else s),
    (fun s => s.modBank one (headBank next))]

/-- Run steps in order. -/
def runSteps (fs : List (State → State)) (s : State) : State := fs.foldl (fun s f => f s) s

/-- The commit: the inactive bank takes the record, the slot and the next counter (R448). -/
def commitBank (s : State) (record : List Byte) : State := runSteps (commitSteps s.vlt record) s

/-- Burn fuses. -/
def State.modOtp (s : State) (f : Otp → Otp) : State := s.modVlt (fun v => { v with otp := f v.otp })

/-- The burns of a transition, in order: for a CLAIM the owner hash before VALID (R438, R439). -/
def burnSteps (v : Vlt) (m : List Byte) : List (State → State) :=
  let t := byteAt m 5
  if t = 16 then [fun s => s.modOtp (fun o => { o with blank := true })]
  else if t = 2 then
    (match freeSlot v.otp with
     | some i => [(fun s => s.modOtp (fun o => { o with ownerHash := mput i (sha384 (sub m 64 96)) o.ownerHash })),
         (fun s => s.modOtp (fun o => { o with valid := o.valid ||| BitVec.ofNat 4 (2 ^ i) }))]
     | none => [])
  else if t = 3 then
    (match liveSlot v.otp with
     | some i => [fun s => s.modOtp (fun o => { o with released := o.released ||| BitVec.ofNat 4 (2 ^ i) })]
     | none => [])
  else if t = 4 then [fun s => s.modOtp (fun o => { o with ret := true })]
  else if t = 5 then [fun s => s.modOtp (fun o => { o with endFuse := true })]
  else []

/-- An owner record of zeros (R439). -/
def emptyRecord : List Byte := List.replicate 504 0

/-- The record that a message commits: its body, or for a transition without one an empty record (R439, R445). -/
def newRecord (m : List Byte) : List Byte := if byteAt m 5 = 1 ∨ byteAt m 5 = 2 then sub m 160 504 else emptyRecord

/-- The steps of an accepted message, in order: the burns of a transition and its new BBS, then the commit (R439, R448). -/
def updSteps (v : Vlt) (m : List Byte) : List (State → State) :=
  (if byteAt m 5 = 1 then [] else burnSteps v m ++ [newBbs]) ++ commitSteps v (newRecord m)

/-- A supply loss or a reset during APPLY: of an accepted message's steps the first few are done, how many the rule leaves open; a
mixture of banks never results (R449; log 90). -/
def updCut (s : State) : State :=
  if s.updState ≠ 2 ∨ s.zeroised = true ∨ updCheck s (updMessage s.vlt) ≠ 0 then s
  else
    let (v, s) := s.draw
    let fs := updSteps s.vlt (updMessage s.vlt)
    runSteps (fs.take (v.toNat % (fs.length + 1))) s

/-- An update is refused: nothing changes, and it is counted (R447). -/
def updRefuse (s : State) (r : Nat) : State :=
  (s.wr Reg.VLT_UPD_STS (word [(Reg.VLT_UPD_STS_STATE, 4), (Reg.VLT_UPD_STS_RESULT, r)])).inc Reg.VLT_UPD_REFUSED

/-- The update ends: a result, or the transition and the commit (R439, R447, R448). -/
def updApplyDoneOp (burnOk : Bool) (s : State) : State :=
  if s.updState ≠ 2 then s
  else if s.frozenRails then s.setFlag Reg.VLT_UPD_STS_FROZEN true
  else if s.zeroised then dropTaking (updRefuse s 11) .update
  else
    let m := updMessage s.vlt
    let r := updCheck s m
    let t := byteAt m 5
    let s := dropTaking s .update
    if r = 6 then raise0 (updRefuse s 6) 0x0602 0
    else if r ≠ 0 then updRefuse s r
    else
      let next := nextCounter (counterOf s.vlt)
      let burns := decide (t ≠ 1) || (decide (s.vlt.otp.epoch < next.1) && decide (next.1 ≤ 128))
      if burns ∧ burnOk = false then
        let (v, s) := s.draw
        let s := if t = 2 then
            (match freeSlot s.vlt.otp with
             | some i => s.modVlt (fun x => { x with otp := { x.otp with ownerHash := mput i (v.truncate 384) x.otp.ownerHash } })
             | none => s)
          else s
        raise0 (updRefuse (showRoot s) 10) 0x0607 0
      else
        let s := runSteps (updSteps s.vlt m) s
        let s := showRoot s
        let s := s.wr Reg.VLT_UPD_STS (word [(Reg.VLT_UPD_STS_STATE, 3)])
        let s := raise0 (s.inc Reg.VLT_UPDATES) 0x0603 0
        let s := if counterEnd s.vlt then exhaust s else s
        if t = 1 then s else raise0 (s.modVlt (fun v => { v with lcReset := true })) 0x0604 0

/-! ### The commands -/

/-- GENERATE -/
def execVltGenerate (who : Who) (s : State) : Host.Outcome State Fault Refusal :=
  .next (gateOwner who Reg.VLT_CMD (vltCmdWrite who (vltWord 1)) s)
/-- IMPORT -/
def execVltImport (who : Who) (s : State) : Host.Outcome State Fault Refusal :=
  .next (gateOwner who Reg.VLT_CMD (vltCmdWrite who (vltWord 2)) s)
/-- STORE -/
def execVltStore (who : Who) (s : State) : Host.Outcome State Fault Refusal :=
  .next (gateOwner who Reg.VLT_CMD (vltCmdWrite who (vltWord 3)) s)
/-- FETCH -/
def execVltFetch (who : Who) (s : State) : Host.Outcome State Fault Refusal :=
  .next (gateOwner who Reg.VLT_CMD (vltCmdWrite who (vltWord 4)) s)
/-- ATTEST -/
def execVltAttest (who : Who) (s : State) : Host.Outcome State Fault Refusal :=
  .next (gateOwner who Reg.VLT_CMD (vltCmdWrite who (vltWord 5)) s)
/-- VLT_CMD_DONE -/
def execVltCmdDone (s : State) : Host.Outcome State Fault Refusal := .next (live vltDoneOp s)
/-- DRBG_RESEED -/
def execDrbgReseed (s : State) : Host.Outcome State Fault Refusal := .next (live reseedOp s)
/-- ENTROPY_FAIL -/
def execEntropyFail (s : State) : Host.Outcome State Fault Refusal := .next (live entropyFailOp s)
/-- ENTROPY_RETEST -/
def execEntropyRetest (pass : Bool) (s : State) : Host.Outcome State Fault Refusal := .next (live (entropyRetestOp pass) s)
/-- BBS_REMASK -/
def execBbsRemask (s : State) : Host.Outcome State Fault Refusal := .next (live remaskOp s)
/-- UPD_OPEN -/
def execUpdOpen (who : Who) (len : BitVec 11) (s : State) : Host.Outcome State Fault Refusal :=
  .next (gateOwner who Reg.VLT_UPD_CTRL (updOpenOp len.toNat) s)
/-- UPD_DATA -/
def execUpdData (who : Who) (data : Word) (s : State) : Host.Outcome State Fault Refusal :=
  .next (gateOwner who Reg.VLT_UPD_DATA (updDataOp data) s)
/-- UPD_APPLY -/
def execUpdApply (who : Who) (s : State) : Host.Outcome State Fault Refusal :=
  .next (gateOwner who Reg.VLT_UPD_CTRL updApplyOp s)
/-- UPD_CLOSE -/
def execUpdClose (who : Who) (s : State) : Host.Outcome State Fault Refusal :=
  .next (gateOwner who Reg.VLT_UPD_CTRL updCloseOp s)
/-- UPD_APPLY_DONE -/
def execUpdApplyDone (burnOk : Bool) (s : State) : Host.Outcome State Fault Refusal := .next (live (updApplyDoneOp burnOk) s)
/-- VAULT_STAGE_DONE -/
def execVaultStageDone (entropyOk burnOk : Bool) (weak : Byte) (kat : BitVec 2) (s : State) :
    Host.Outcome State Fault Refusal := .next (live (vaultStageOp entropyOk burnOk weak.toNat kat) s)
/-- ENTROPY_STARTUP_TIMEOUT -/
def execEntropyStartupTimeout (s : State) : Host.Outcome State Fault Refusal := .next (live entropyStartupTimeoutOp s)

end Sys2Proof.Machine
end

