-- ==== Sys2Proof/Machine/Assoc.lean ====
section
/-! DEFINITION. Associations (07): the record and its fields (R246), states (R250), residence (R253 to R256), packet numbers,
reels and marks (R259 to R267), replay windows (R271 to R273), and troupes (R274). -/

namespace Sys2Proof.Machine

/-! ### Fields of a record (R246) -/

/-- The record is of the receive direction. -/
def Rec.rx (r : Rec) : Bool := r.mode.getLsbD 7
/-- ENCAP: 0 MACsec, 1 Korone capsule, 2 Korone stream. -/
def Rec.encap (r : Rec) : Nat := r.mode.toNat / 32 % 4
/-- XPN. -/
def Rec.xpn (r : Rec) : Bool := r.mode.getLsbD 3
/-- OFFSET: 0, 30, 50 bytes, or 3 integrity only. -/
def Rec.offset (r : Rec) : Nat := r.mode.toNat / 2 % 4
/-- The line port index. -/
def Rec.k (r : Rec) : Nat := r.port.toNat % 32
/-- SC_INCL. -/
def Rec.scIncl (r : Rec) : Bool := r.flags.getLsbD 7
/-- ES. -/
def Rec.es (r : Rec) : Bool := r.flags.getLsbD 6
/-- REPLAY_EN. -/
def Rec.replayEn (r : Rec) : Bool := r.flags.getLsbD 5
/-- DELEGATED. -/
def Rec.delegated (r : Rec) : Bool := r.flags.getLsbD 4
/-- The largest packet number (R259). -/
def Rec.top (r : Rec) : Nat := if r.xpn then 2 ^ 64 - 1 else 2 ^ 32 - 1
/-- The number from which a rekey is due (R260). -/
def Rec.due (r : Rec) : Nat := if r.xpn then 0xC000000000000000 else 0xC0000000

/-- A reel (R261). -/
abbrev reelSize : Nat := 1048576

/-- Current session number (R267). -/
def State.session (s : State) : Nat := (s.rd Reg.ASC_SESSION).toNat

/-- PERSIST_EN (R264). -/
def State.persistEn (s : State) : Bool := s.flag Reg.ASC_CFG_PERSIST_EN

/-- A grant waits for the stand-in as well (R264, R266, R496). -/
def State.replicating (s : State) : Bool :=
  s.flag Reg.ASC_CFG_REPL_EN && !s.flag Reg.ASC_STS_REPL_SUSPENDED && s.flag Reg.FAB_PAIR_CFG_PAIRED &&
    decide (s.fab.role = .active)

/-- A resync sweep runs on the active: marks persisted during it are sent as updates too (R497). -/
def State.resyncing (s : State) : Bool := s.fab.resync.isSome && decide (s.fab.role = .active)

/-! ### Drops that a record counts -/

/-- Drop a frame into DROP_STATE of a record. -/
def dropState (s : State) (id a : Nat) : State :=
  releaseFrame (s.modLive a (fun r => { r with dropState := (r.dropState + 1) % 2 ^ 48 })) id 1

/-- Drop a frame into DROP_PN of a record. -/
def dropPn (s : State) (id a : Nat) : State :=
  releaseFrame (s.modLive a (fun r => { r with dropPn := (r.dropPn + 1) % 2 ^ 48 })) id 1

/-- A use of an association's resident slot sets its REF bit (R255). -/
def touch (s : State) (a : Nat) : State :=
  match s.slotOf a with
  | some (i, _) => s.modSlot i (fun x => { x with ref := true })
  | none => s

/-! ### Logs (R254, R260, R290) -/

/-- Push into ASC_REKEY_LOG. -/
def pushRekey (s : State) (a : Nat) : State :=
  if s.asc.rekeyLog.length < 256 then s.modAsc (fun x => { x with rekeyLog := x.rekeyLog ++ [a] })
  else raise0 (s.modAsc (fun x => { x with rekeyOvf := true })) 0x280C (Config.logCode false)

/-- Push into ASC_FAULT_LOG; an association that it holds is faulty until it is retired or installed (R254). -/
def pushFault (s : State) (a : Nat) : State :=
  if s.asc.faultLog.length < 256 then
    s.modAsc (fun x => { x with faultLog := x.faultLog ++ [a], faulty := ladd a x.faulty })
  else raise0 (s.modAsc (fun x => { x with faultOvf := true })) 0x280C (Config.logCode true)

/-- A read of ASC_REKEY_LOG removes its oldest entry and clears OVF. -/
def rekeyLogRead (s : State) : Word × State :=
  (logWord s.asc.rekeyLog s.asc.rekeyOvf, s.modAsc (fun x => { x with rekeyLog := x.rekeyLog.drop 1, rekeyOvf := false }))

/-- A read of ASC_FAULT_LOG. -/
def faultLogRead (s : State) : Word × State :=
  (logWord s.asc.faultLog s.asc.faultOvf, s.modAsc (fun x => { x with faultLog := x.faultLog.drop 1, faultOvf := false }))

/-! ### Marks and their persistence (R249, R261 to R266) -/

/-- The mark that the mark table holds for a record, when the entry is the record's own (R249). -/
def State.markOf (s : State) (a : Nat) : Option Nat :=
  match s.storedMark a with
  | some m => if m.index = a ∧ m.keyGen = (s.asRec a).keyGen then some m.mark else none
  | none => none


/-- The entry that a persist writes now. -/
def newMark (s : State) (a value : Nat) : Mark :=
  { mark := value, keyGen := (s.asRec a).keyGen, index := a, sec := BitVec.ofNat 48 s.nowSec, ns := w32 s.nowSub }

/-- Send a MARK cell and keep it until its acknowledgement (R496). -/
def sendMark (s : State) (resync : Bool) (as : List Nat) (entries : List Mark) : State :=
  let dst := s.get Reg.FAB_PAIR_CFG_PARTNER
  let payload := [BitVec.ofNat 8 entries.length, if resync then 1 else 0, 0, 0] ++ entries.flatMap markBytes
  let cell : MarkCell := { seq := s.nextSeq cellMark dst, resync := resync, assocs := as, bytes := payload }
  let s := (sendCell s cellMark dst payload).inc Reg.FAB_MARKS_SENT
  s.modFab (fun f => { f with marks := f.marks ++ [cell] })

/-- R260 from the present NEXT_PN of a transmit association. -/
def rekeyCheck (s : State) (a : Nat) : State :=
  let r := s.asRec a
  if r.rx = false ∧ r.due ≤ r.pn ∧ s.asc.rekeyed.contains a = false then
    raise0 (pushRekey (s.modAsc (fun x => { x with rekeyed := ladd a x.rekeyed })) a) 0x2801 a
  else s

/-- A value takes effect (R262 to R264): a transmit reel is granted, or a receive lease moves; an advance raises NEXT_PN, from which
R260 applies (R286). A number that was assigned while the advance waited is not assigned again (R268). -/
def grant (s : State) (a value : Nat) (advance : Option Nat) : State :=
  let s := s.modAsc (fun x => { x with stalled := ldel a x.stalled })
  if (s.asRec a).rx then
    let s := s.modLive a (fun r => { r with reel := value })
    if s.persistEn then s.inc Reg.ASC_RX_MARKS else s
  else
    let s := (s.modLive a (fun r => { r with reel := value, pn := max r.pn (advance.getD 0) })).inc Reg.ASC_REEL_GRANTS
    rekeyCheck s a

/-- Begin to persist a value for an association: at once without PERSIST_EN; else until the local write is complete and,
with replication, acknowledged (R264). -/
def startPersist (s : State) (a value : Nat) (advance : Option Nat) : State :=
  if s.persistEn = false then grant s a value advance
  else
    let p : Persist := { value := value, localDone := false, acked := !s.replicating, advance := advance }
    let s := s.modAsc (fun x => { x with persists := mput a p x.persists })
    if s.replicating || s.resyncing then sendMark s false [a] [newMark s a value] else s

/-- Request the next reel at or past the midpoint of the last granted one of a transmit association, one request at a time (R262). A
32-bit association asks for a reel past its last number too; above 2^64 there is none. -/
def requestReel (s : State) (a : Nat) : State :=
  let r := s.asRec a
  if r.rx = false ∧ r.reel ≤ r.pn + reelSize / 2 ∧ (mget a s.asc.persists).isNone = true ∧ r.reel < 2 ^ 64 then
    startPersist s a (r.reel + reelSize) none
  else s

/-- Advance NEXT_PN to V: at once below the granted LEASE_END, else with a lease of its own; R260 and R262 apply from V
(R286). NEXT_PN never moves down (R259). -/
def advanceTo (s : State) (a v : Nat) : State :=
  let s := if v < (s.asRec a).reel then rekeyCheck (s.modLive a (fun r => { r with pn := max r.pn v })) a
    else startPersist s a ((v / reelSize + 1) * reelSize) (some v)
  requestReel s a

/-- Complete a persist whose two halves are done. An advance that waited for the request goes on (R284). -/
def settlePersist (s : State) (a : Nat) : State :=
  match mget a s.asc.persists with
  | some p =>
    if p.localDone && p.acked then
      let s := s.modAsc (fun x => { x with persists := mdel a x.persists })
      match p.advance with
      | none => requestReel (grant s a p.value none) a
      | some v => if v < p.value then requestReel (grant s a p.value (some v)) a else advanceTo (grant s a p.value none) a v
    else s
  | none => s

/-- The guard reports the write of the mark entry complete (R264). -/
def markWritten (s : State) (a : Nat) : State :=
  match mget a s.asc.persists with
  | some p =>
    let m := newMark s a p.value
    let s := (writeMark s a m).modAsc (fun x => { x with persists := mput a { p with localDone := true } x.persists })
    settlePersist s a
  | none => s

/-! ### Residence (R253 to R258) -/

/-- Slots of the device (R253). -/
abbrev slotCount : Nat := 65536

/-- A slot may be taken for another association: unpinned, no frame of its association in flight or parked (R255). -/
def State.evictable (s : State) (x : Slot) : Bool :=
  !x.pinned && !x.dissolvePin && decide (s.inFlight x.assoc = 0) &&
    !s.sch.frames.any (fun f => decide (f.stage = .missq) && decide (f.assoc = some x.assoc))

/-- One position of the clock hand (R255): the hand clears REF as it passes; the slot it takes, if any. -/
def handStep (s : State) (i : Nat) : Option Nat × State :=
  match mget i s.asc.slots with
  | none => (some i, s)
  | some x =>
    if s.evictable x && !x.ref then (some i, s)
    else (none, s.modSlot i (fun x => { x with ref := false }))

/-- Sweep the hand over n positions. -/
def sweep : Nat → State → Option Nat × State
  | 0, s => (none, s)
  | n + 1, s =>
    let i := s.asc.hand
    let r := handStep s i
    let s := r.2.modAsc (fun x => { x with hand := (i + 1) % slotCount })
    match r.1 with
    | some j => (some j, s)
    | none => sweep n s

/-- Some slot can be taken. -/
def State.victimExists (s : State) : Bool :=
  decide (s.asc.slots.length < slotCount) || s.asc.slots.any (fun p => s.evictable p.2)

/-- Write a dirty slot's record back, with the current session (R255). -/
def writeBack (s : State) (a : Nat) : State :=
  let r := { s.asRec a with session := s.session }
  (writeRec (s.setRec a r) a r).inc Reg.ASC_WRITEBACKS

/-- Free a slot: a dirty one is written back (R255). -/
def evict (s : State) (i : Nat) : State :=
  match mget i s.asc.slots with
  | some x =>
    let s := if x.dirty then writeBack s x.assoc else s
    s.modAsc (fun y => { y with slots := mdel i y.slots })
  | none => s

/-- The key that an association's wrapped material unwraps to, when it is its own and of the present life-cycle state (R247, R248). -/
def State.unwrap (s : State) (a : Nat) : Option (BitVec 256) := s.vlt.wrapKey.bind (fun k => unwrapRecKey k.value a (s.asRec a))

/-- Recover a record before its first use in this session (R267): from the persisted mark, or without one from the record's own REEL,
when nothing is persisted. -/
def recover (s : State) (a : Nat) : State :=
  let base := (s.markOf a).getD (s.asRec a).reel
  let persist := (s.markOf a).isSome || s.persistEn
  let s := s.modLive a (fun r =>
    if r.rx then { r with session := s.session, floor := base + reelSize, pn := base + reelSize - 1, map := 0, reel := base }
    else { r with session := s.session, pn := max base 1, reel := base })
  rekeyCheck (if persist then startPersist s a (base + reelSize) none
    else s.modLive a (fun r => { r with reel := base + reelSize })) a

/-- A slot for a page-in: the sweep's victim, written back (R254, R255). Without an eligible victim there is none, and the frame waits
(R284). -/
def takeSlot (s : State) : Option Nat × State :=
  if s.victimExists = false then (none, s)
  else match sweep (2 * slotCount) s with
    | (some i, s) => (some i, evict s i)
    | (none, s) => (none, s)

/-- The record as the memory guard delivers it (R254). -/
def readRec (s : State) (a : Nat) : State := if (s.recLine? a).isSome then s.setRec a (s.storedRec a) else s

/-- Put a key into a slot, with its powers of H, in shares (R293, R297). With SPEC_EN it pends on its verdict; without, the read waited for the verdict (R254, R316, R415). -/
def install (s : State) (i a : Nat) (key : BitVec 256) : State :=
  let (v, s) := s.draw
  let sh := slotShares (s.asRec a).key256 key (v.truncate 256)
  let x : Slot := { assoc := a, key := sh.1, powers := sh.2, ref := true, pinned := false, dissolvePin := false, dirty := false,
                    verdictDue := s.flag Reg.MGD_CFG_SPEC_EN }
  s.modAsc (fun y => { y with slots := mput i x y.slots })

/-- A resident association whose record is of this session and needs no recovery persist: ready for use. -/
def State.ready (s : State) (a : Nat) : Bool :=
  (s.slotOf a).isSome && decide ((s.asRec a).session = s.session) && !s.asc.paging.contains a

/-- Start a page-in, unless one runs (R254). -/
def startPage (s : State) (a : Nat) : State := s.modAsc (fun x => { x with paging := ladd a x.paging })

/-- A resident record of an earlier session is recovered; a transmit record stays in paging until the recovery's persist completes
(R267). -/
def recoverIn (s : State) (a : Nat) : State :=
  let old := decide ((s.asRec a).session ≠ s.session)
  let s := if old then touch (recover s a) a else s
  if old && !(s.asRec a).rx && (mget a s.asc.persists).isSome then s else s.modAsc (fun x => { x with paging := ldel a x.paging })

/-- The end of a page-in (R254, R267): a victim is chosen, the record read, its key unwrapped, the slot filled, the record recovered.
Answers whether the page-in failed. -/
def pageIn (s : State) (a : Nat) : Bool × State :=
  if (s.slotOf a).isSome then (false, recoverIn s a)
  else match takeSlot s with
    | (none, s) => (false, s)
    | (some i, s) =>
      let s := (readRec s a).inc Reg.FRM_UNWRAPS
      match s.unwrap a with
      | none =>
        let s := s.modAsc (fun x => { x with paging := ldel a x.paging })
        (true, raise0 (pushFault s a) 0x2806 a)
      | some key => (false, recoverIn ((install s i a key).inc Reg.ASC_PAGE_INS) a)

/-- Make an association resident within a command or a walk (R277, R286). -/
def bringIn (s : State) (a : Nat) : State :=
  if s.ready a || s.asc.paging.contains a then s else (pageIn (startPage s a) a).2

/-! ### Use by frames -/

/-- The association that a frame naming a uses: a SWITCHED one's LIVE successor, one step deep (R251). -/
def State.follows (s : State) (a : Nat) : Option Nat :=
  let r := s.asRec a
  match r.state with
  | .live => some a
  | .switched => match r.succ with
    | some b => if (s.asRec b).state = .live then some b else none
    | none => none
  | .free => none | .ready => none | .retiring => none

/-- The record fits line port k in its present mode (R252). -/
def State.fitsPort (s : State) (r : Rec) (k : Nat) : Bool :=
  decide (r.k = k) &&
    (if s.isKorone k then decide (r.encap = if s.isStream k then 2 else 1) else decide (r.encap = 0))

/-- A parked frame waits for association a: for its page-in, or in the encrypt direction for the old association that it named and
that a has followed since (R256, R284). -/
def State.waitsFor (s : State) (a : Nat) (f : Frame) : Bool :=
  decide (f.assoc = some a) || (decide (f.dir = .enc) && decide (f.named.bind s.follows = some a))

/-- Frames parked for an association. -/
def State.parked (s : State) (a : Nat) : List Nat := s.asc.missq.filter (fun id => (s.frame? id).any (s.waitsFor a))

/-- A frame parked before this one waits for the same association, so that it must wait too (R256). -/
def State.parkedAhead (s : State) (a id : Nat) : Bool :=
  (s.asc.missq.takeWhile (fun x => x ≠ id)).any (fun x => (s.frame? x).any (s.waitsFor a))

/-- Park a frame for association a, or drop it when the miss queue is full (R254, R256). A frame that waits already keeps its place. -/
def park (s : State) (id a : Nat) : State :=
  if s.asc.missq.contains id ∨ s.asc.missq.length < 4096 then
    let s := s.modFrame id (fun f => { f with stage := .missq, assoc := some a })
    let s := s.modAsc (fun x => { x with missq := ladd id x.missq })
    if (s.slotOf a).isSome ∧ (s.asRec a).session = s.session then s else startPage s a
  else
    let s := s.modLive a (fun r => { r with dropMissq := (r.dropMissq + 1) % 2 ^ 48 })
    let s := dropFrame s id Reg.ASC_MISSQ_DROP
    let first := match s.asc.lastMissq with
      | none => true
      | some t => decide (tps ≤ s.clk - t)
    let s := s.modAsc (fun x => { x with lastMissq := some s.clk })
    if first then raise0 s 0x2807 0 else s

/-- Drop every parked frame of an association into DROP_STATE (R254, R284). -/
def flushParked (s : State) (a : Nat) : State := (s.parked a).foldl (fun s id => dropState s id a) s

/-! ### Replay windows (R271 to R273) -/

/-- The bit of p in REPLAY_MAP is 1. -/
def Rec.marked (r : Rec) (p : Nat) : Bool := decide (p ≤ r.pn) && decide (r.pn - p < 512) && r.map.getLsbD (r.pn - p)

/-- The lowest packet number the window accepts (R271). -/
def Rec.lowest (r : Rec) : Nat := if r.replayEn then max r.floor (r.pn + 1 - r.win) else r.floor

/-- The tests of R271; a claimed number counts as marked. -/
inductive Replay where
  | accept | dup | old | dupDelivered
  deriving DecidableEq, Repr

/-- Judge a packet number. -/
def judge (r : Rec) (p : Nat) (claimed : Bool) : Replay :=
  let dup := r.marked p || claimed
  if r.replayEn then
    if p < r.floor ∨ p + r.win ≤ r.pn then (if dup then .dup else .old)
    else if dup then .dup else .accept
  else if p < r.floor then (if dup then .dup else .old)
  else if dup then .dupDelivered else .accept

/-- Mark p as accepted: HIGHEST and REPLAY_MAP (R18). -/
def Rec.accept (r : Rec) (p : Nat) : Rec :=
  if r.pn < p then { r with map := (r.map <<< (p - r.pn)) ||| 1, pn := p }
  else if r.pn - p < 512 then { r with map := r.map ||| (1 <<< (r.pn - p)) }
  else r

/-- The 64-bit number of an XPN association from the 32 bits received (R272; IEEE 802.1AE-2018, log 26). -/
def recoverPn (low rcvd : Nat) : Nat :=
  let hi := low / 2 ^ 32
  (if 2 ^ 31 ≤ low % 2 ^ 32 ∧ rcvd < 2 ^ 31 then hi + 1 else hi) * 2 ^ 32 + rcvd

/-- The packet number of a frame from the line (R174, R272). -/
def rxPn (s : State) (r : Rec) (f : Frame) : Nat :=
  if s.isCapsule f then be (sub f.bytes 8 8)
  else
    let n := be (sub f.bytes 16 4)
    if r.xpn then recoverPn r.lowest n else n

/-- Count a frame that a replay check refuses, and drop it (R271, R273). -/
def replayDrop (s : State) (id a : Nat) (j : Replay) : State :=
  match j with
  | .dup => releaseFrame (s.modLive a (fun r => { r with rxDup := (r.rxDup + 1) % 2 ^ 48 })) id 1
  | .old => dropPn s id a
  | .accept => s
  | .dupDelivered => s.modLive a (fun r => { r with rxDup := (r.rxDup + 1) % 2 ^ 48 })

/-- A provisional claim stands on a number (R320). -/
def State.claimed (s : State) (a p : Nat) : Bool := s.asc.claims.contains (a, p)

/-! ### Troupes (R274, R275) -/

/-- The troupe exists. -/
def State.troupe (s : State) (t : Nat) : Bool := (mget t s.asc.troupes).isSome

/-- Troupe u is t or lies below it, following at most n parents. -/
def underIn (m : SMap (Option Nat)) : Nat → Nat → Nat → Bool
  | 0, u, t => decide (u = t)
  | n + 1, u, t =>
    decide (u = t) || match mget u m with
      | some (some p) => underIn m n p t
      | _ => false

/-- Troupe u is t or below it. -/
def State.under (s : State) (u t : Nat) : Bool := underIn s.asc.troupes 4096 u t

/-- The members of troupe t, its own and its descendants', in index order (R274). -/
def State.troupeMembers (s : State) (t : Nat) : List Nat :=
  (s.asc.recs.filter (fun p => match p.2.troupe with
    | some u => s.under u t
    | none => false)).map (fun p => p.1)

/-! ### Retiring and logs -/

/-- An association begins to retire: its parked frames are dropped, and it is FREE when nothing of it is in flight
(R250, R284). -/
def retire (s : State) (a : Nat) : State :=
  let s := s.modRec a (fun r => { r with state := .retiring })
  let s := flushParked s a
  settleRetire (s.modAsc (fun x => { x with faulty := ldel a x.faulty, paging := ldel a x.paging })) a

/-- The session number counts up: the store header keeps it, and ASC_SESSION is raised (R267, R285). -/
def nextSession (s : State) : State :=
  let n := (s.session + 1) % 2 ^ 32
  raise0 (writeHeader (s.wr Reg.ASC_SESSION (w32 n)) s.asc.size n) 0x280B n

/-- The store region was resumed (R409). -/
def State.storeResumed (s : State) : Bool :=
  match s.storeRegion with
  | some r => s.served r && s.flag (Reg.MGD_RGN_STS_RESUMED r)
  | none => false

/-- Every field of the header in the store but SESSION is what the active script gives (R410, R411). -/
def State.headerFits (s : State) : Bool := decide (s.storedHeader.map (fun h => h.1) = some s.asc.size)

/-- The store at a full script's APPLY: a resumed store whose header does not fit is made new (R411); the records of one that has
survived are known again; a store that has not survived reads as FREE everywhere, with STORE_LOST and ASC_STORE_LOST (R269, R412);
and the session number, kept in the header of a store in service, counts up (R267). -/
def settleStore (s : State) : State :=
  let s := match s.storeRegion with
    | some r => if s.storeResumed = true ∧ s.headerFits = false then newRegion s r else s
    | none => s
  let kept := s.storeResumed
  let s := if kept then loadRecs s
    else raise0 ((s.modAsc (fun x => { x with recs := [] })).setFlag Reg.ASC_STS_STORE_LOST true) 0x280A 0
  let last := if kept then (s.storedHeader.map (fun h => h.2)).getD 0 else 0
  let s := s.wr Reg.ASC_SESSION (w32 last)
  if s.storeServed then nextSession s else s

/-- Preparation of the store is complete (R270, R397, R410): with a store region in service the header stands with N and the
session, and STORE_READY is set. -/
def storeReadyOp (s : State) : State :=
  if s.storeServed = false ∨ s.ctl.stage7Done = false then s
  else
    let s := if s.storedHeader = some (s.asc.size, s.session) then s else writeHeader s s.asc.size s.session
    s.setFlag Reg.ASC_STS_STORE_READY true

/-! ### The commands -/

/-- STORE_READY -/
def execStoreReady (s : State) : Host.Outcome State Fault Refusal := .next (live storeReadyOp s)

end Sys2Proof.Machine
end

