-- ==== Sys2Proof/Machine/Dissolve.lean ====
section
/-! DEFINITION. The dissolve (07, R276 to R283): its walks, its triggers, and what a troupe operation must not disturb. -/

namespace Sys2Proof.Machine

/-- A dissolve entry in no use. -/
def noDissolve : Dissolve :=
  { phase := .free, troupe := false, target := 0, byPn := false, sec := 0, ns := 0, threshold := 0, delta := 0, delta' := 0,
    walked := 0, faults := 0, pins := [], passed := [] }

/-- Entry e. -/
def State.dissolve (s : State) (e : Nat) : Dissolve := mlook noDissolve e s.asc.dissolves

/-- Change entry e. -/
def State.modDissolve (s : State) (e : Nat) (f : Dissolve → Dissolve) : State :=
  s.modAsc (fun x => { x with dissolves := mstore noDissolve e (f (s.dissolve e)) x.dissolves })

/-- An entry that is neither free nor DONE. -/
def Dissolve.active (d : Dissolve) : Bool := decide (d.phase ≠ .free) && decide (d.phase ≠ .done)

/-- The associations an entry targets. -/
def State.targets (s : State) (d : Dissolve) : List Nat := if d.troupe then s.troupeMembers d.target else [d.target]

/-- The walk time W in ns for m members (R275). -/
def walkNs (m : Nat) : Nat := 20 * m + 2000

/-- T in ns of an entry's trigger. -/
def Dissolve.at (d : Dissolve) : Nat := d.sec.toNat * 1000000000 + d.ns.toNat

/-- Troupe u is covered by an active entry (R276). -/
def State.covered (s : State) (u : Nat) : Bool :=
  s.asc.dissolves.any (fun p => p.2.active && p.2.troupe && s.under u p.2.target)

/-- Troupe u lies above a covered troupe (R276). -/
def State.aboveCovered (s : State) (u : Nat) : Bool :=
  s.asc.dissolves.any (fun p => p.2.active && p.2.troupe && s.under p.2.target u)

/-- A target shares an association with a pending entry: the same association or troupe, or a troupe above or below
(R278). -/
def State.overlaps (s : State) (troupe : Bool) (target : Nat) : Bool :=
  s.asc.dissolves.any (fun p => p.2.active &&
    match p.2.troupe, troupe with
    | true, true => s.under p.2.target target || s.under target p.2.target
    | false, false => decide (p.2.target = target)
    | true, false => (s.targets p.2).contains target
    | false, true => (s.troupeMembers target).contains p.2.target)

/-! ### Pins (R253, R279) -/

/-- Slots that are pinned by PIN or by dissolves. -/
def State.pinnedSlots (s : State) : Nat := (s.asc.slots.filter (fun p => p.2.pinned || p.2.dissolvePin)).length
/-- Slots that dissolves pin. -/
def State.dissolvePins (s : State) : Nat := (s.asc.slots.filter (fun p => p.2.dissolvePin)).length
/-- The most slots pinned in all (R253). -/
abbrev pinLimit : Nat := 49152

/-- Slots an association adds to a pin count. -/
def State.newPin (s : State) (a : Nat) (byDissolve : Bool) : Nat :=
  match s.slotOf a with
  | some (_, x) => if byDissolve then b2n (!x.dissolvePin) else b2n (!(x.pinned || x.dissolvePin))
  | none => 1

/-- An association is resident and pinned by a dissolve. -/
def State.dissolvePinned (s : State) (a : Nat) : Bool := (s.slotOf a).any (fun p => p.2.dissolvePin)

/-- Set or clear the dissolve pin of an association's slot. -/
def setDissolvePin (v : Bool) (s : State) (a : Nat) : State :=
  match s.slotOf a with
  | some (i, _) => s.modSlot i (fun x => { x with dissolvePin := v })
  | none => s

/-- Pin a member and its successor when both limits allow it (R279). -/
def dissolvePin (s : State) (e a b : Nat) : State :=
  let most := min pinLimit (s.get Reg.ASC_CFG_DISSOLVE_PIN_MAX)
  if most < s.dissolvePins + s.newPin a true + s.newPin b true ∨
      pinLimit < s.pinnedSlots + s.newPin a false + s.newPin b false then s
  else
    let new := [a, b].filter (fun c => !s.dissolvePinned c)
    let s := bringIn (bringIn s a) b
    (new.foldl (setDissolvePin true) s).modDissolve e (fun d => { d with pins := d.pins ++ [(a, new)] })

/-- Release the pins that entry e took for member a (R277). -/
def dissolveUnpin (e : Nat) (s : State) (a : Nat) : State :=
  let mine := ((s.dissolve e).pins.filter (fun p => p.1 = a)).flatMap (fun p => p.2)
  (mine.foldl (setDissolvePin false) s).modDissolve e (fun d => { d with pins := d.pins.filter (fun p => p.1 ≠ a) })

/-! ### Members (R281) -/

/-- A member is passed over without a fault: it is FREE or RETIRING (R281). -/
def State.gone (s : State) (a : Nat) : Bool := decide ((s.asRec a).state = .free) || decide ((s.asRec a).state = .retiring)

/-- The successor a member may move to: valid, READY, and of its direction, ENCAP and PORT (R281). -/
def State.fitSuccessor (s : State) (a : Nat) : Option Nat :=
  let r := s.asRec a
  match r.succ with
  | some b =>
    let q := s.asRec b
    if q.state = .ready ∧ q.rx = r.rx ∧ q.encap = r.encap ∧ q.k = r.k then some b else none
  | none => none

/-- A member faults: counted once, passed over from now on, the first of an entry raising its event (R281). -/
def memberFault (s : State) (e a : Nat) : State :=
  let first := decide ((s.dissolve e).faults = 0)
  let s := s.modDissolve e (fun d => { d with faults := d.faults + 1, passed := ladd a d.passed })
  if first then raise s 0x2809 e a none else s

/-- A member is passed over at this phase and every later one. -/
def memberPass (s : State) (e a : Nat) : State := s.modDissolve e (fun d => { d with passed := ladd a d.passed })

/-- One member at OPEN (R277, R281). -/
def openMember (e : Nat) (s : State) (a : Nat) : State :=
  if s.gone a then memberPass s e a
  else match s.fitSuccessor a with
    | none => memberFault s e a
    | some b =>
      let s := if (s.asRec a).rx then s.modRec b (fun r => { r with state := .live }) else s
      dissolvePin s e a b

/-- The stream binding of a port follows a switch or a close (R290). -/
def moveBinding (s : State) (off a b : Nat) : State :=
  let w := s.rd off
  if bits w 31 31 = 1 ∧ bits w 19 0 = a then s.wr off (setBits w 19 0 b) else s

/-- A transmit member switches (R250, R290). -/
def switchMember (s : State) (a b : Nat) : State :=
  let s := (s.modRec a (fun r => { r with state := .switched })).modRec b (fun r => { r with state := .live })
  moveBinding s (Reg.ASC_PORT_STREAM (s.asRec a).k) a b

/-- One member at SWITCH: transmit members that are LIVE, with a READY successor. -/
def atSwitch (e : Nat) (s : State) (a : Nat) : State :=
  if (s.dissolve e).passed.contains a ∨ (s.asRec a).rx = true then s
  else if s.gone a then memberPass s e a
  else match s.fitSuccessor a with
    | some b => if (s.asRec a).state = .live then switchMember s a b else memberFault s e a
    | none => memberFault s e a

/-- One member at CLOSE: receive members retire, and the entry's pins go. -/
def atClose (e : Nat) (s : State) (a : Nat) : State :=
  let r := s.asRec a
  let s := dissolveUnpin e s a
  if (s.dissolve e).passed.contains a ∨ s.gone a = true then s
  else if r.rx then
    let s := match r.succ with
      | some b => moveBinding s (Reg.ASC_PORT_STREAM_RX r.k) a b
      | none => s
    retire s a
  else s

/-- A dissolve is DONE; no pin of it stays (R281). -/
def dissolveDone (s : State) (e : Nat) : State :=
  let s := ((s.dissolve e).pins.map (fun p => p.1)).foldl (dissolveUnpin e) s
  raise0 (s.modDissolve e (fun d => { d with phase := .done })) 0x2808 e

/-! ### Phases -/

/-- Give every member its turn at a phase. -/
def walk (s : State) (e : Nat) (member : State → Nat → State) (after : Phase) : State :=
  let ms := s.targets (s.dissolve e)
  (ms.foldl member s).modDissolve e (fun d => { d with phase := after, walked := ms.length })

/-- OPEN (R277); with a PN trigger a member that faults ends the entry at once (R280). -/
def openOp (e : Nat) (s : State) : State :=
  let d := s.dissolve e
  if d.phase ≠ .waiting then s
  else
    let s := walk s e (openMember e) .opened
    if d.byPn ∧ (s.dissolve e).faults ≠ 0 then dissolveDone s e else s

/-- SWITCH of a TIME trigger (R277). -/
def switchOp (e : Nat) (s : State) : State :=
  let d := s.dissolve e
  if d.phase ≠ .opened ∨ d.byPn = true then s else walk s e (atSwitch e) .switched

/-- CLOSE (R277, R281). -/
def closeOp (e : Nat) (s : State) : State :=
  if (s.dissolve e).phase ≠ .switched then s else dissolveDone (walk s e (atClose e) .switched) e

/-- The PN entry that waits on an association: its number, when it is opened. -/
def State.pnEntry (s : State) (a : Nat) : Option Nat :=
  (s.asc.dissolves.find? (fun p => p.2.byPn && decide (p.2.phase = .opened) && decide (p.2.target = a))).map (fun p => p.1)

/-- The SWITCH of a PN trigger, now (R280): CLOSE follows Δ′ later; a fault leaves the old association and ends the entry. -/
def pnSwitch (s : State) (e a : Nat) : State :=
  let s := atSwitch e s a
  if (s.dissolve e).faults ≠ 0 then dissolveDone s e
  else s.modDissolve e (fun d => { d with phase := .switched, sec := BitVec.ofNat 48 s.nowSec, ns := w32 s.nowSub })

/-- The first frame that would take a number at or above THRESHOLD switches (R280). -/
def pnTrigger (s : State) (a : Nat) : State :=
  match s.pnEntry a with
  | some e => if (s.dissolve e).threshold ≤ (s.asRec a).pn ∧ (s.asRec a).state = .live then pnSwitch s e a else s
  | none => s

/-- The first frame verified under the successor of a receive PN entry starts Δ′ (R280). -/
def rxVerified (s : State) (b : Nat) : State :=
  match s.asc.dissolves.find? (fun p => p.2.byPn && decide (p.2.phase = .opened) && (s.asRec p.2.target).rx &&
      decide ((s.asRec p.2.target).succ = some b)) with
  | some (e, _) =>
    s.modDissolve e (fun d => { d with phase := .switched, sec := BitVec.ofNat 48 s.nowSec, ns := w32 s.nowSub })
  | none => s

/-- The start of an entry's next phase by T, in ns; OPEN begins W before T − Δ (R277). A phase that waits for a frame has
none. -/
def State.nextPhase (s : State) (d : Dissolve) : Option Nat :=
  match d.phase with
  | .waiting => some (d.at - 1000 * d.delta - walkNs (s.targets d).length)
  | .opened => if d.byPn then none else some d.at
  | .switched => some (d.at + 1000 * d.delta')
  | .free => none | .opening => none | .switching => none | .closing => none | .done => none

/-- Fire one phase of an entry. -/
def firePhase (s : State) (e : Nat) : State :=
  match (s.dissolve e).phase with
  | .waiting => openOp e s
  | .opened => switchOp e s
  | .switched => closeOp e s
  | .free => s | .opening => s | .switching => s | .closing => s | .done => s

/-- The entry whose next phase is the earliest that T has passed, the lowest entry first on a tie. -/
def State.duePhase (s : State) : Option Nat :=
  (s.asc.dissolves.foldl (fun best p =>
    match s.nextPhase p.2 with
    | some t =>
      if t ≤ s.nowNs then
        match best with
        | some (t', _) => if t < t' then some (t, p.1) else best
        | none => some (t, p.1)
      else best
    | none => best) (none : Option (Nat × Nat))).map (fun b => b.2)

/-- A forward step of time fires every phase it passes, in order (R282, R375). -/
def firePhases : Nat → State → State
  | 0, s => s
  | n + 1, s => match s.duePhase with
    | some e => firePhases n (firePhase s e)
    | none => s

/-- Every phase that T has passed: three for each of 256 entries at most. -/
def catchUp (s : State) : State := firePhases 768 s

/-! ### The commands -/

/-- DISSOLVE_OPEN -/
def execDissolveOpen (e : Fin 256) (s : State) : Host.Outcome State Fault Refusal := .next (live (openOp e) s)
/-- DISSOLVE_SWITCH -/
def execDissolveSwitch (e : Fin 256) (s : State) : Host.Outcome State Fault Refusal := .next (live (switchOp e) s)
/-- DISSOLVE_CLOSE -/
def execDissolveClose (e : Fin 256) (s : State) : Host.Outcome State Fault Refusal := .next (live (closeOp e) s)

end Sys2Proof.Machine
end

