-- ==== Sys2Proof/Machine/AscCmd.lean ====
section
/-! DEFINITION. The commands of the association engine (07, R286 to R289): what each needs, refuses, does and shows. -/

namespace Sys2Proof.Machine

/-- Result codes of R287. -/
inductive AscCode where
  | ok | badIndex | badState | badArg | noSlot | delegated | keyFail | notReady | inDissolve | overlap | windowShort
  | tooLate | tableFull | loop | notEmpty | late
  deriving DecidableEq, Repr

/-- Its number. -/
def AscCode.num : AscCode → Nat
  | .ok => 0 | .badIndex => 1 | .badState => 2 | .badArg => 3 | .noSlot => 4 | .delegated => 5 | .keyFail => 6
  | .notReady => 7 | .inDissolve => 8 | .overlap => 9 | .windowShort => 10 | .tooLate => 11 | .tableFull => 12
  | .loop => 13 | .notEmpty => 14 | .late => 15

/-- What a command answers: its result and the staging words it shows. -/
abbrev AscAnswer := AscCode × List (Nat × Word)

/-- Staging word w of an interface. -/
def State.stage? (s : State) (who : Who) (w : Nat) : Word := s.rd (ifc who (Reg.ASC_STAGE w))

/-- The index in word 0. -/
def State.stageIndex (s : State) (who : Who) : Nat := bits (s.stage? who 0) 19 0

/-- Output words of a command that shows words: those it does not use read 0 (R289), its inputs keep. -/
def shown (keep : Nat) (out : List (Nat × Word)) : List (Nat × Word) :=
  (List.range 16).filterMap (fun w => if w < keep then none else some (w, mlook 0 w out))

/-- A command of the host names an association that firmware serves (R87, R284). -/
def State.hostDelegated (s : State) (who : Who) (a : Nat) : Bool :=
  decide (who.path ≠ .firmware) && (((s.asRec a).delegated && decide ((s.asRec a).state ≠ .free)) || s.delegated a)

/-- A command that acts on one association: the index and delegation checks, then its own. -/
def onAssoc (who : Who) (s : State) (f : Nat → AscAnswer × State) : AscAnswer × State :=
  let a := s.stageIndex who
  if s.asc.size ≤ a then ((.badIndex, []), s)
  else if s.hostDelegated who a then ((.delegated, []), s)
  else f a

/-! ### INSTALL (R286, R288, R491) -/

/-- The descriptor of an INSTALL breaks R288. -/
def installBad (s : State) (who : Who) : Bool :=
  let w0 := s.stage? who 0
  let w1 := s.stage? who 1
  let mode := bits w1 31 24
  let encap := mode / 32 % 4
  let xpn := nbit mode 3
  let rx := nbit mode 7
  let start := (s.stage? who 10).toNat * 2 ^ 32 + (s.stage? who 9).toNat
  decide (encap = 3) || (decide (encap = 2) && !(xpn && nbit mode 4)) || (decide (mode / 2 % 4 = 3) && decide (encap ≠ 0)) ||
    decide (512 < bits (s.stage? who 4) 9 0) || decide (start = 0) || decide ((if xpn then 2 ^ 64 - 1 else 2 ^ 32 - 1) < start) ||
    (s.flag Reg.FAB_PAIR_CFG_PAIRED && decide (encap = 0) && !rx && !(w1.getLsbD 15)) ||
    (decide (who.path ≠ .firmware) && w1.getLsbD 12) || (decide (encap ≠ 0) && decide (s.stage? who 3 ≠ 0)) ||
    decide (bits w0 29 20 ≠ 0) || nbit mode 0 || decide (bits w1 23 21 ≠ 0) || decide (bits w1 11 0 ≠ 0) ||
    decide (bits (s.stage? who 4) 29 10 ≠ 0) || decide (bits (s.stage? who 11) 30 20 ≠ 0) ||
    decide (bits (s.stage? who 12) 30 12 ≠ 0) ||
    (!w0.getLsbD 30 && decide ((s.stage? who 13).toNat % 64 ≠ 0)) ||
    ((s.stage? who 12).getLsbD 31 && !s.troupe (bits (s.stage? who 12) 11 0))

/-- The key of an INSTALL, from the key staging or from a blob (R286, R457). -/
def installKey (who : Who) (s : State) : Option (BitVec 256) :=
  let k256 := nbit (bits (s.stage? who 1) 31 24) 4
  if (s.stage? who 0).getLsbD 30 then
    if s.flag Reg.ASC_CFG_RAW_KEY_EN then
      some (keyBits (wordBytes (s.rds (ifc who (Reg.ASC_KEY_STAGE 0)) (if k256 then 8 else 4))))
    else none
  else match s.openAt ((s.stage? who 13).toNat / 64) with
    | some b => if b.usage % 2 = 1 ∧ b.kind = (if k256 then 2 else 1) then some (keyBits b.material) else none
    | none => none

/-- IDENT of the new record: the device's emitter ID on a Korone transmit association, the twin bit on a paired device's
MACsec one (R288, R491). -/
def installIdent (who : Who) (s : State) (rx : Bool) (encap : Nat) : BitVec 64 :=
  let id := (s.stage? who 2 ++ s.stage? who 3 : BitVec 64)
  if rx then id
  else if encap ≠ 0 then (BitVec.ofNat 8 (s.get Reg.FAB_CFG_EMITTER) ++ id.extractLsb' 0 56 : BitVec 64)
  else if s.flag Reg.FAB_PAIR_CFG_PAIRED then
    (id &&& ~~~(1#64 <<< 15)) ||| (if s.flag Reg.FAB_PAIR_CFG_TWIN then 1#64 <<< 15 else 0)
  else id

/-- SSCI of the new record (R491). -/
def installSsci (who : Who) (s : State) (rx : Bool) (encap : Nat) (xpn : Bool) : Word :=
  let v := s.stage? who 5
  if s.flag Reg.FAB_PAIR_CFG_PAIRED && !rx && decide (encap = 0) && xpn then
    (v &&& 0x7FFFFFFF) ||| (if s.flag Reg.FAB_PAIR_CFG_TWIN then 0x80000000 else 0)
  else v

/-- The record an INSTALL writes; its state is taken when the command completes (R246, R286, R288). -/
def installRec (s : State) (who : Who) (a : Nat) (wrapKey key : BitVec 256) : Rec :=
  let w1 := s.stage? who 1
  let mode := bits w1 31 24
  let rx := nbit mode 7
  let encap := mode / 32 % 4
  let xpn := nbit mode 3
  let start := (s.stage? who 10).toNat * 2 ^ 32 + (s.stage? who 9).toNat
  let gen := ((s.asRec a).keyGen + 1) % 2 ^ 32
  let flags := bits w1 15 8
  let keep := if rx then flags / 32 % 2 * 32 else if encap = 0 then flags / 64 * 64 else 0
  { freeRec with
    mode := BitVec.ofNat 8 mode, port := BitVec.ofNat 8 (bits w1 23 16),
    flags := BitVec.ofNat 8 (keep + (if who.path = .firmware then 16 else 0)),
    ident := installIdent who s rx encap, an := BitVec.ofNat 2 (bits (s.stage? who 4) 31 30),
    win := if rx then bits (s.stage? who 4) 9 0 else 0, ssci := installSsci who s rx encap xpn,
    salt := (s.stage? who 6 ++ s.stage? who 7 ++ s.stage? who 8 : BitVec 96),
    troupe := if (s.stage? who 12).getLsbD 31 then some (bits (s.stage? who 12) 11 0) else none,
    pn := if rx then start - 1 else start,
    reel := if rx then start / reelSize * reelSize else 0, session := s.session, keyGen := gen,
    wrapped := wrapRecKey wrapKey (nbit mode 4) key a gen,
    succ := if (s.stage? who 11).getLsbD 31 then some (bits (s.stage? who 11) 19 0) else none,
    floor := if rx then start else 0 }

/-- Forget what earlier lives of an index left behind: its logs' once-only reports and its faulty mark (R254). -/
def forget (s : State) (a : Nat) : State :=
  s.modAsc (fun x => { x with
    faulty := ldel a x.faulty, rekeyed := ldel a x.rekeyed, stalled := ldel a x.stalled, exhausted := ldel a x.exhausted,
    claims := x.claims.filter (fun c => c.1 ≠ a), persists := mdel a x.persists, paging := ldel a x.paging })

/-- INSTALL: the record is written and its first lease persisted; LIVE or READY follows at completion. -/
def ascInstall (who : Who) (s : State) : AscAnswer × State :=
  onAssoc who s (fun a =>
    if s.flag Reg.ASC_STS_STORE_READY = false then ((.notReady, []), s)
    else if (s.asRec a).state ≠ .free then ((.badState, []), s)
    else if installBad s who then ((.badArg, []), s)
    else if (s.stage? who 11).getLsbD 31 = true ∧ s.asc.size ≤ bits (s.stage? who 11) 19 0 then ((.badIndex, []), s)
    else match installKey who s, s.vlt.wrapKey with
      | some key, some wk =>
        let r := installRec s who a wk.value key
        let active := (s.stage? who 0).getLsbD 31
        let s := ((forget s a).putRec a r).modAsc (fun x => { x with installing := some (a, active) })
        let lease := if r.rx then r.reel else (r.pn / reelSize + 1) * reelSize
        ((.ok, []), requestReel (rekeyCheck (startPersist s a lease none) a) a)
      | _, _ => ((.keyFail, []), s))

/-! ### States, pins and counters -/

/-- ACTIVATE. -/
def ascActivate (who : Who) (s : State) : AscAnswer × State :=
  onAssoc who s (fun a =>
    if (s.asRec a).state = .ready then ((.ok, []), s.modRec a (fun r => { r with state := .live })) else ((.badState, []), s))

/-- A troupe member that a RETIRE of this interface retires (R286). -/
def State.retirable (s : State) (who : Who) (a : Nat) : Bool :=
  let r := s.asRec a
  (decide (r.state = .ready) || decide (r.state = .live) || decide (r.state = .switched)) &&
    !(r.delegated && decide (who.path ≠ .firmware))

/-- RETIRE of one association or of a troupe. -/
def ascRetire (who : Who) (s : State) : AscAnswer × State :=
  if (s.stage? who 0).getLsbD 29 then
    let t := bits (s.stage? who 0) 11 0
    if s.troupe t = false then ((.badArg, []), s)
    else
      let ms := s.troupeMembers t
      let go := ms.filter (s.retirable who)
      ((.ok, shown 1 [(9, w32 go.length), (10, w32 (ms.length - go.length))]), go.foldl retire s)
  else onAssoc who s (fun a => if (s.asRec a).state = .free then ((.badState, []), s)
    else if (s.asRec a).state = .retiring then ((.ok, []), s) else ((.ok, []), retire s a))

/-- READ: the record's fields, without key and salt (R289). The member count of the association's troupe, which R275 has READ report
and for which R289 names no place, stands in word 12 bits [30:12], saturating (DESIGN CHOICE, log 84). -/
def ascRead (who : Who) (s : State) : AscAnswer × State :=
  let a := s.stageIndex who
  if s.asc.size ≤ a then ((.badIndex, []), s)
  else
    let r := s.asRec a
    let x := (s.slotOf a).map (fun p => p.2)
    let opt := fun (o : Option Nat) => match o with
      | some v => w32 (2 ^ 31 + v)
      | none => 0
    ((.ok, shown 0
      [(0, w32 (r.state.num * 2 ^ 28 + a)), (1, w32 (r.mode.toNat * 2 ^ 24 + r.port.toNat * 2 ^ 16 + r.flags.toNat * 2 ^ 8)),
       (2, r.ident.extractLsb' 32 32), (3, r.ident.extractLsb' 0 32), (4, w32 (r.an.toNat * 2 ^ 30 + r.win)), (5, r.ssci),
       (9, w32 r.pn), (10, w32 (r.pn / 2 ^ 32)), (11, opt r.succ),
       (12, opt r.troupe ||| w32 (2 ^ 12 * min (2 ^ 19 - 1) (r.troupe.map (fun t => (s.troupeMembers t).length)).getD 0)),
       (13, w32 (b2n x.isSome * 2 ^ 31 + b2n (x.any (·.pinned)) * 2 ^ 30 + b2n (x.any (·.dissolvePin)) * 2 ^ 29 +
          b2n (s.asc.faulty.contains a) * 2 ^ 28 + min 65535 (s.inFlight a))),
       (14, w32 r.reel), (15, w32 (r.reel / 2 ^ 32))]), s)

/-- READ_COUNTERS (R289). -/
def ascReadCounters (who : Who) (s : State) : AscAnswer × State :=
  let a := s.stageIndex who
  if s.asc.size ≤ a then ((.badIndex, []), s)
  else
    let r := s.asRec a
    let cs := [r.frames, r.octets, r.dropPn, r.dropMissq, r.dropState, r.tagFail, r.rxDup]
    ((.ok, shown 0 (cs.zipIdx.flatMap (fun p => [(2 * p.2, w32 p.1), (2 * p.2 + 1, w32 (p.1 / 2 ^ 32))]))), s)

/-- PIN: resident and pinned, within the limit (R253). A page-in that fails ends with a code that the spec does not state
(log 27). -/
def ascPin (who : Who) (s : State) : AscAnswer × State :=
  onAssoc who s (fun a =>
    if (s.asRec a).state = .free then ((.badState, []), s)
    else if pinLimit < s.pinnedSlots + s.newPin a false then ((.noSlot, []), s)
    else
      let s := bringIn s a
      match s.slotOf a with
      | some (i, _) => ((.ok, []), s.modSlot i (fun x => { x with pinned := true }))
      | none => ((if (s.unwrap a).isSome then .noSlot else .keyFail, []), s))

/-- UNPIN. -/
def ascUnpin (who : Who) (s : State) : AscAnswer × State :=
  onAssoc who s (fun a => match s.slotOf a with
    | some (i, x) => if x.pinned then ((.ok, []), s.modSlot i (fun x => { x with pinned := false })) else ((.badState, []), s)
    | none => ((.badState, []), s))

/-- ADVANCE_PN: within the granted lease at once, else with a lease of its own; a record of an earlier session is recovered first
(R267, R284, R286). -/
def ascAdvance (who : Who) (s : State) : AscAnswer × State :=
  onAssoc who s (fun a =>
    let v := (s.stage? who 2).toNat * 2 ^ 32 + (s.stage? who 1).toNat
    let r := s.asRec a
    let s := if r.session ≠ s.session ∧ r.rx = false ∧ (r.state = .live ∨ r.state = .ready) then recover s a else s
    let r := s.asRec a
    if r.rx ∨ (r.state ≠ .live ∧ r.state ≠ .ready) then ((.badState, []), s)
    else if v < r.pn ∨ r.top < v then ((.badArg, []), s)
    else
      match mget a s.asc.persists with
      | some p =>
        ((.ok, []), s.modAsc (fun x => { x with persists := mput a { p with advance := some v } x.persists }))
      | none => ((.ok, []), advanceTo s a v))

/-- SET_SUCCESSOR. -/
def ascSuccessor (who : Who) (s : State) : AscAnswer × State :=
  onAssoc who s (fun a =>
    let w := s.stage? who 1
    let b := bits w 19 0
    if (s.asRec a).state = .free then ((.badState, []), s)
    else if w.getLsbD 31 = true ∧ s.asc.size ≤ b then ((.badIndex, []), s)
    else ((.ok, []), s.modRec a (fun r => { r with succ := if w.getLsbD 31 then some b else none })))

/-! ### Troupes (R274, R276, R286, R287) -/

/-- An association is a member of a covered troupe (R276). -/
def State.memberCovered (s : State) (a : Nat) : Bool := (s.asRec a).troupe.any s.covered

/-- JOIN. -/
def ascJoin (who : Who) (s : State) : AscAnswer × State :=
  onAssoc who s (fun a =>
    let w := s.stage? who 1
    let t := bits w 11 0
    if (s.asRec a).state = .free then ((.badState, []), s)
    else if w.getLsbD 31 = false ∨ s.troupe t = false then ((.badArg, []), s)
    else if s.memberCovered a ∨ s.covered t = true then ((.inDissolve, []), s)
    else ((.ok, []), s.modRec a (fun r => { r with troupe := some t })))

/-- LEAVE. -/
def ascLeave (who : Who) (s : State) : AscAnswer × State :=
  onAssoc who s (fun a =>
    if (s.asRec a).troupe.isNone then ((.badState, []), s)
    else if s.memberCovered a then ((.inDissolve, []), s)
    else ((.ok, []), s.modRec a (fun r => { r with troupe := none })))

/-- The parent in word 1: none, or an existing troupe. -/
def stagedParent (who : Who) (s : State) : Option (Option Nat) :=
  let w := s.stage? who 1
  if w.getLsbD 31 = false then some none
  else if s.troupe (bits w 11 0) then some (some (bits w 11 0)) else none

/-- TROUPE_CREATE. -/
def ascCreate (who : Who) (s : State) : AscAnswer × State :=
  let t := bits (s.stage? who 0) 11 0
  if s.troupe t then ((.badState, []), s)
  else match stagedParent who s with
    | none => ((.badArg, []), s)
    | some p => ((.ok, []), s.modAsc (fun x => { x with troupes := mput t p x.troupes }))

/-- TROUPE_DELETE. -/
def ascDelete (who : Who) (s : State) : AscAnswer × State :=
  let t := bits (s.stage? who 0) 11 0
  if s.troupe t = false then ((.badArg, []), s)
  else if s.asc.recs.any (fun p => p.2.troupe = some t) ∨ s.asc.troupes.any (fun p => p.2 = some t) then ((.notEmpty, []), s)
  else ((.ok, []), s.modAsc (fun x => { x with troupes := mdel t x.troupes }))

/-- TROUPE_PARENT. -/
def ascParent (who : Who) (s : State) : AscAnswer × State :=
  let t := bits (s.stage? who 0) 11 0
  if s.troupe t = false then ((.badArg, []), s)
  else match stagedParent who s with
    | none => ((.badArg, []), s)
    | some p =>
      if p.any (fun q => s.under q t) then ((.loop, []), s)
      else if s.covered t ∨ s.aboveCovered t = true ∨ p.any s.covered = true then ((.inDissolve, []), s)
      else ((.ok, []), s.modAsc (fun x => { x with troupes := mput t p x.troupes }))

/-! ### Dissolves (R278, R283, R286) -/

/-- The entry that SCHEDULE's words describe. -/
def stagedDissolve (who : Who) (s : State) : Dissolve :=
  let w0 := s.stage? who 0
  let troupe := w0.getLsbD 31
  { noDissolve with
    phase := .waiting, troupe := troupe, target := if troupe then bits w0 11 0 else bits w0 19 0, byPn := w0.getLsbD 30,
    sec := BitVec.ofNat 48 (bits (s.stage? who 2) 15 0 * 2 ^ 32 + (s.stage? who 1).toNat), ns := s.stage? who 3,
    threshold := (s.stage? who 2).toNat * 2 ^ 32 + (s.stage? who 1).toNat,
    delta := (s.stage? who 4).toNat, delta' := (s.stage? who 5).toNat }

/-- What refuses a SCHEDULE, in the order of R278 after the arguments. -/
def scheduleRefusal (who : Who) (s : State) (d : Dissolve) : Option AscCode :=
  let w := walkNs (s.targets d).length
  let bad := fun n => decide (n = 0) || decide (60000000 < n)
  if d.troupe = false ∧ s.asc.size ≤ d.target then some .badIndex
  else if d.troupe = false ∧ s.hostDelegated who d.target = true then some .delegated
  else if (d.troupe = true ∧ (s.troupe d.target = false ∨ d.byPn = true)) ∨ bad d.delta = true ∨ bad d.delta' = true ∨
      (d.byPn = false ∧ (s.flag Reg.TIM_STS_VALID = false ∨ 1000000000 ≤ d.ns.toNat)) then some .badArg
  else if 1000 * d.delta' < w + 100000 then some .windowShort
  else if d.byPn = false ∧ d.at < s.nowNs + 1000 * d.delta + w then some .tooLate
  else if s.overlaps d.troupe d.target then some .overlap
  else none

/-- SCHEDULE: the lowest free entry; a PN trigger opens at once (R280). -/
def ascSchedule (who : Who) (s : State) : AscAnswer × State :=
  let d := stagedDissolve who s
  match scheduleRefusal who s d with
  | some c => ((c, []), s)
  | none =>
    match (List.range 256).find? (fun e => (s.dissolve e).phase = .free) with
    | none => ((.tableFull, []), s)
    | some e =>
      let s := s.modDissolve e (fun _ => d)
      ((.ok, shown 6 [(9, w32 e)]), if d.byPn then openOp e s else s)

/-- CANCEL: an entry that waits, or one that is DONE, is freed (R283). -/
def ascCancel (who : Who) (s : State) : AscAnswer × State :=
  let e := bits (s.stage? who 0) 7 0
  match (s.dissolve e).phase with
  | .free => ((.badState, []), s)
  | .waiting => ((.ok, []), s.modDissolve e (fun _ => noDissolve))
  | .done => ((.ok, []), s.modDissolve e (fun _ => noDissolve))
  | .opening => ((.late, []), s) | .opened => ((.late, []), s) | .switching => ((.late, []), s)
  | .switched => ((.late, []), s) | .closing => ((.late, []), s)

/-- The phase as DISSOLVE_STATUS codes it (R289). -/
def Phase.num : Phase → Nat
  | .free => 0 | .waiting => 1 | .opening => 2 | .opened => 3 | .switching => 4 | .switched => 5 | .closing => 6 | .done => 7

/-- DISSOLVE_STATUS. The member count of a troupe target, which R275 has it report and for which R289 names no place, stands in word 13
(DESIGN CHOICE, log 84). -/
def ascStatus (who : Who) (s : State) : AscAnswer × State :=
  let d := s.dissolve (bits (s.stage? who 0) 7 0)
  ((.ok, shown 1 [(9, w32 d.phase.num), (10, w32 d.walked), (11, w32 d.faults), (12, w32 d.pins.length),
    (13, w32 (if d.phase ≠ .free ∧ d.troupe then (s.targets d).length else 0))]), s)

/-! ### The command register -/

/-- One operation (R286); unknown codes end with BAD_ARG (R290). -/
def ascOperate (who : Who) (op : Nat) (s : State) : AscAnswer × State :=
  match op with
  | 1 => ascInstall who s
  | 2 => ascActivate who s
  | 3 => ascRetire who s
  | 4 => ascRead who s
  | 5 => ascReadCounters who s
  | 6 => ascPin who s
  | 7 => ascUnpin who s
  | 8 => ascAdvance who s
  | 9 => ascSuccessor who s
  | 10 => ascJoin who s
  | 11 => ascLeave who s
  | 12 => ascCreate who s
  | 13 => ascDelete who s
  | 14 => ascParent who s
  | 15 => ascSchedule who s
  | 16 => ascCancel who s
  | 17 => ascStatus who s
  | _ => ((.badArg, []), s)

/-- Serve an interface's operation; what it answers is shown when it completes (ASC_CMD_DONE). What is staged is read here
(DESIGN CHOICE, log 40). -/
def ascStart (who : Who) (val : Word) (s : State) : State :=
  let op := fieldOf Reg.ASC_CMD_OP val
  let a := ascOperate who op s
  let p : PendOp := { result := a.1.1.num, writes := a.1.2.map (fun p => (ifc who (Reg.ASC_STAGE p.1), p.2)), who := who }
  let s := if op = 1 then a.2.wrs (ifc who (Reg.ASC_KEY_STAGE 0)) (List.replicate 8 0) else a.2
  s.modAsc (fun x => { x with op := some p })

/-- A write of an interface's ASC_CMD: with a nonzero OP it sets BUSY and starts the operation, which waits while one of the other
interface is served; while BUSY is 1 it is ignored and counted (R286). -/
def ascCmdWrite (who : Who) (val : Word) (s : State) : State :=
  if s.flag (ifcField who Reg.ASC_CMD_BUSY) then s.inc Reg.ASC_CMD_REFUSED
  else
    let s := storeAt (ifc who Reg.ASC_CMD) Reg.ASC_CMD val s
    if fieldOf Reg.ASC_CMD_OP val = 0 then s
    else
      let s := s.setFlag (ifcField who Reg.ASC_CMD_BUSY) true
      if s.asc.op.isSome then s.modAsc (fun x => { x with waiting := some (who, val) }) else ascStart who val s

/-- The word of an operation. -/
def ascWord (op : Nat) : Word := word [(Reg.ASC_CMD_OP, op)]

/-- The operation served waits for its persist: an INSTALL's first lease, or an ADVANCE_PN (R286). -/
def State.ascWaits (s : State) (who : Who) : Bool :=
  (match s.asc.installing with
    | some (a, _) => (mget a s.asc.persists).isSome
    | none => false) ||
    (decide (s.get (ifcField who Reg.ASC_CMD_OP) = 8) && s.asc.persists.any (fun p => p.2.advance.isSome))

/-- The operation served completes: the state of a new association, the words shown, the result and BUSY 0 at its interface; then
the other interface's is served. -/
def ascDoneOp (s : State) : State :=
  match s.asc.op with
  | none => s
  | some p =>
    if s.ascWaits p.who then s
    else
      let w := s.asc.waiting
      let s := match s.asc.installing with
        | some (a, active) => s.modRec a (fun r => { r with state := if active then .live else .ready })
        | none => s
      let s := (s.modAsc (fun x => { x with op := none, installing := none, waiting := none })).wrAll p.writes
      let s := (s.set (ifcField p.who Reg.ASC_CMD_RESULT) p.result).setFlag (ifcField p.who Reg.ASC_CMD_BUSY) false
      match w with
      | some (who, val) => ascStart who val s
      | none => s

/-! ### The commands -/

/-- A write of ASC_CMD with this OP. -/
def ascCommand (who : Who) (op : Nat) (s : State) : State := gateOwner who Reg.ASC_CMD (ascCmdWrite who (ascWord op)) s

/-- INSTALL -/
def execInstall (who : Who) (s : State) : Host.Outcome State Fault Refusal := .next (ascCommand who 1 s)
/-- ACTIVATE -/
def execActivate (who : Who) (s : State) : Host.Outcome State Fault Refusal := .next (ascCommand who 2 s)
/-- RETIRE -/
def execRetire (who : Who) (s : State) : Host.Outcome State Fault Refusal := .next (ascCommand who 3 s)
/-- READ -/
def execAscRead (who : Who) (s : State) : Host.Outcome State Fault Refusal := .next (ascCommand who 4 s)
/-- READ_COUNTERS -/
def execReadCounters (who : Who) (s : State) : Host.Outcome State Fault Refusal := .next (ascCommand who 5 s)
/-- PIN -/
def execPin (who : Who) (s : State) : Host.Outcome State Fault Refusal := .next (ascCommand who 6 s)
/-- UNPIN -/
def execUnpin (who : Who) (s : State) : Host.Outcome State Fault Refusal := .next (ascCommand who 7 s)
/-- ADVANCE_PN -/
def execAdvancePn (who : Who) (s : State) : Host.Outcome State Fault Refusal := .next (ascCommand who 8 s)
/-- SET_SUCCESSOR -/
def execSetSuccessor (who : Who) (s : State) : Host.Outcome State Fault Refusal := .next (ascCommand who 9 s)
/-- JOIN -/
def execJoin (who : Who) (s : State) : Host.Outcome State Fault Refusal := .next (ascCommand who 10 s)
/-- LEAVE -/
def execLeave (who : Who) (s : State) : Host.Outcome State Fault Refusal := .next (ascCommand who 11 s)
/-- TROUPE_CREATE -/
def execTroupeCreate (who : Who) (s : State) : Host.Outcome State Fault Refusal := .next (ascCommand who 12 s)
/-- TROUPE_DELETE -/
def execTroupeDelete (who : Who) (s : State) : Host.Outcome State Fault Refusal := .next (ascCommand who 13 s)
/-- TROUPE_PARENT -/
def execTroupeParent (who : Who) (s : State) : Host.Outcome State Fault Refusal := .next (ascCommand who 14 s)
/-- SCHEDULE -/
def execSchedule (who : Who) (s : State) : Host.Outcome State Fault Refusal := .next (ascCommand who 15 s)
/-- CANCEL -/
def execCancel (who : Who) (s : State) : Host.Outcome State Fault Refusal := .next (ascCommand who 16 s)
/-- DISSOLVE_STATUS -/
def execDissolveStatus (who : Who) (s : State) : Host.Outcome State Fault Refusal := .next (ascCommand who 17 s)
/-- ASC_CMD_DONE -/
def execAscCmdDone (s : State) : Host.Outcome State Fault Refusal := .next (live (whenOn memDoms ascDoneOp) s)

end Sys2Proof.Machine
end

