-- ==== Sys2Proof/Machine/Dailies.lean ====
section
/-! DEFINITION. The dailies (05, 10, 15; R198, R375, R386, R554, R555): what a port's second is recorded as, the latch at each second
boundary of T, and the seconds that a step or a sleep skips. -/

namespace Sys2Proof.Machine

/-! ### The dailies (R198, R386, R554, R555) -/

/-- Port index n exists: its line or client port is in the lane map (R555). -/
def State.dailyPort (s : State) (n : Nat) : Bool := if n < 32 then s.portExists .client n else s.portExists .line (n - 32)

/-- Port index n is a Korone line port. -/
def State.dailyKor (s : State) (n : Nat) : Bool := decide (32 ≤ n) && s.isKorone (n - 32)

/-- The words of an entry: SEC, VALID, UNAVAIL, the four flags and seven 64-bit values (R554). -/
def dailyWords (sec : Nat) (unavail : Bool) (flags : Nat) (vals : List Nat) : Daily :=
  [w32 sec, w32 (2 ^ 31 + b2n unavail * 2 ^ 30 + flags * 2 ^ 26 + sec / 2 ^ 32 % 2 ^ 16)] ++
    (List.range 7).flatMap (fun i => [w32 (vals.getD i 0), w32 (vals.getD i 0 / 2 ^ 32)])

/-- Write the next entry of port n: at DLY_SEQ[n] mod 16, which then counts on. -/
def dailyWrite (s : State) (n : Nat) (d : Daily) : State :=
  let q := (s.rd (Reg.DLY_SEQ n)).toNat
  let s := { s with cnt := { s.cnt with dailies := mput (n * 16 + q % 16) d s.cnt.dailies } }
  s.wr (Reg.DLY_SEQ n) (w32 (q + 1))

/-- The four flags of a Korone port in the second that ends, and its record for the next one, which begins with what holds now
(R198). -/
def korDaily (s : State) (k : Nat) : Nat × State :=
  let p := s.korPort k
  let out := !((s.portLanes .lnl k).all (fun j => (s.korLane j).inSync))
  let now := [out, !s.flag (Reg.KOR_STS_ALIGNED k), s.flag (Reg.KOR_STS_RDI_RX k), s.flag (Reg.KOR_STS_CSF_RX k)]
  let f := fun (i : Nat) => b2n (p.daily.getLsbD i || now.getD i false)
  let next := (List.range 4).foldl (fun a i => a + b2n (now.getD i false) * 2 ^ i) 0
  (8 * f 0 + 4 * f 1 + 2 * f 2 + f 3, s.modKor k (fun p => { p with daily := BitVec.ofNat 4 next }))

/-- The flags of an Ethernet port at the boundary: link down, local fault, remote fault, HI_SER. -/
def ethDaily (s : State) (b : Nat) : Nat :=
  8 * b2n (!s.flag (Reg.PORT_STS_LINK_UP b)) + 4 * b2n (decide (s.get (Reg.PORT_STS_FAULT_RX b) = 1)) +
    2 * b2n (decide (s.get (Reg.PORT_STS_FAULT_RX b) = 2)) + b2n (s.flag (Reg.PORT_STS_HI_SER b))

/-- The entry of port n for boundary sec. -/
def dailyEntry (s : State) (n sec : Nat) : Daily × State :=
  if s.dailyPort n = false then (dailyWords sec true 0 [], s)
  else if s.dailyKor n then
    let k := n - 32
    let (fl, s) := korDaily s k
    (dailyWords sec false fl ([Reg.KOR_BIP_ERR k, Reg.KOR_BEI_RX k, Reg.KOR_FEC_CORR_CW k, Reg.KOR_FEC_UNCORR_CW k,
      Reg.KOR_OH_CRC_ERR k, Reg.KOR_HEAD_LOST k, Reg.KOR_STREAM_TAG_FAIL k].map s.ctr), s)
  else
    let b := if n < 32 then portBase .client n else portBase .line (n - 32)
    (dailyWords sec false (ethDaily s b)
      ([Reg.PORT_RX_FCS_ERR b, Reg.PORT_FEC_CORR_CW b, Reg.PORT_FEC_UNCORR_CW b, Reg.PORT_FEC_CORR_SYM b].map s.ctr), s)

/-- n seconds up to and with `last` are unavailable to port n; the latest 15 of them are written (R375, R386). -/
def dailyMissed (last missed : Nat) (s : State) (n : Nat) : State :=
  let shown := min 15 missed
  (List.range shown).foldl (fun s i => dailyWrite s n (dailyWords (last + 1 - shown + i) true 0 []))
    (s.bump (Reg.DLY_UNAVAIL n) missed)

/-- The dailies of port n at boundary sec, `missed` seconds before it being unavailable. -/
def dailyPortLatch (sec missed : Nat) (s : State) (n : Nat) : State :=
  let s := dailyMissed (sec - 1) missed s n
  let s := if s.dailyPort n then s else s.inc (Reg.DLY_UNAVAIL n)
  let (d, s) := dailyEntry s n sec
  dailyWrite s n d

/-- A second boundary of T (R386): one already latched is not latched again, and the seconds since the last one are
unavailable. -/
def dailiesOp (sec : BitVec 48) (s : State) : State :=
  if s.dormant || s.tim.dailySec.any (fun t => decide (sec ≤ t)) then s
  else
    let missed := match s.tim.dailySec with
      | some t => sec.toNat - t.toNat - 1
      | none => 0
    let s := (List.range 64).foldl (dailyPortLatch sec.toNat missed) s
    { s with tim := { s.tim with dailySec := some sec } }

/-- A forward step from second `old` latches once for the boundaries that it passes, and marks those that it skips unavailable (R386). -/
def dailiesStep (old : Nat) (s : State) : State :=
  if s.nowSec ≤ old then s
  else dailiesOp (BitVec.ofNat 48 s.nowSec)
    (if s.tim.dailySec.isNone then { s with tim := { s.tim with dailySec := some (BitVec.ofNat 48 old) } } else s)

/-- The seconds whose boundaries T crossed in a sleep that began in second `old` are unavailable (R375). -/
def dailiesSlept (old : Nat) (s : State) : State :=
  let n := s.nowSec - old
  if n = 0 then s
  else
    let s := (List.range 64).foldl (dailyMissed s.nowSec n) s
    { s with tim := { s.tim with dailySec := some (BitVec.ofNat 48 s.nowSec) } }

end Sys2Proof.Machine
end

