-- ==== Sys2Proof/Machine/TimeUnit.lean ====
section
/-! DEFINITION. The time unit (10): device time and its discipline (R364 to R369), holdover (R371, R372), time across sleep
(R373, R374), 1PPS and captures (R377, R378), and the transparent clock's arithmetic (R382). -/

namespace Sys2Proof.Machine

/-- Change the time unit. -/
def State.modTim (s : State) (f : Tim → Tim) : State := { s with tim := f s.tim }

/-! ### Device time -/

/-- One nanosecond in the units of T. -/
def nsUnit : Int := 2 ^ 42

/-- T now, in units of 2^-42 ns. -/
def State.nowUnits (s : State) : Int := timeAt s.tim s.tim.frc

/-- The largest magnitude of the rate (R367). -/
def rateMax : Int := 1099511628

/-- The rate that TIM_RATE's word gives (R367). -/
def rateOf (w : Word) : Int := max (-rateMax) (min rateMax w.toInt)

/-- The device rebases in one tick: T becomes the given value (R365). -/
def rebase (s : State) (t : Int) : State := s.modTim (fun x => { x with base := t, frcBase := x.frc })

/-- FRC counts (R364): outside reset, but not while DORMANT. -/
def State.frcRuns (s : State) : Bool :=
  (decide (s.ctl.cond = .running) || decide (s.ctl.cond = .halted) || (decide (s.ctl.cond = .reset) && decide (2 ≤ s.stage))) &&
    !s.dormant

/-! ### Holdover (R371, R372) -/

/-- Enter HOLDOVER for a reason: 1 TIMEOUT, 2 PPS_LOST, 3 SLEEP. -/
def enterHoldover (s : State) (reason : Nat) : State :=
  let entering := decide (s.get Reg.TIM_STS_STATE = 1)
  let s := (s.set Reg.TIM_STS_STATE 2).set Reg.TIM_STS_REASON reason
  if entering then
    raise0 (s.modTim (fun x => { x with holdStart := some s.tim.frc.toNat, holdSec := 0, ppsSinceHold := false })) 0x0501 0
  else s

/-- Seconds in the present or the last HOLDOVER, saturating (R372, R389). -/
def State.holdSeconds (s : State) : Nat :=
  min (2 ^ 24 - 1) (match s.tim.holdStart with
    | some t => (s.tim.frc.toNat - t) / tps
    | none => s.tim.holdSec)

/-- The state becomes LOCKED: its reason and its error bound read 0 (R374, R389). -/
def lock (s : State) : State :=
  let was := decide (s.get Reg.TIM_STS_STATE = 2)
  let n := s.holdSeconds
  let s := ((s.set Reg.TIM_STS_STATE 1).set Reg.TIM_STS_REASON 0).wr Reg.TIM_ERR_BOUND 0
  if was then raise0 (s.modTim (fun x => { x with holdStart := none, holdSec := n })) 0x0502 0 else s

/-- A discipline write is noted, and ends HOLDOVER; for PPS_LOST only once a PPS_IN edge has been detected since entry (R371). -/
def discipline (s : State) : State :=
  let s := s.modTim (fun x => { x with lastDisc := some s.clk })
  if s.get Reg.TIM_STS_STATE = 2 ∧ (s.get Reg.TIM_STS_REASON ≠ 2 ∨ s.tim.ppsSinceHold = true) then lock s else s

/-! ### Discipline writes (R365 to R368) -/

/-- A write of TIM_RATE: T is rebased and does not step. -/
def rateWrite (val : Word) (s : State) : State :=
  let s := rebase s s.nowUnits
  discipline ((storeReg Reg.TIM_RATE val s).modTim (fun x => { x with rate := rateOf val }))

/-- Seconds in the adjust registers. -/
def State.adjSec (s : State) : Nat := s.get Reg.TIM_ADJ_SEC_HI_SEC_HI * 2 ^ 32 + (s.rd Reg.TIM_ADJ_SEC_LO).toNat

/-- T takes a new value: STEPPED, TIM_STEP, and the dissolve phases and the dailies that a forward step passes (R282, R368, R386). -/
def stepTime (s : State) (t : Int) : State :=
  let fwd := decide (s.nowUnits < t)
  let old := s.nowSec
  let s := discipline (rebase s t)
  let s := raise0 (s.setFlag Reg.TIM_STS_STEPPED true) 0x0503 0
  if fwd then dailiesStep old (catchUp s) else s

/-- SET (R366, R368, R371). -/
def timSetOp (s : State) : State :=
  let ns := (s.rd Reg.TIM_ADJ_NS).toNat
  if 1000000000 ≤ ns then s
  else
    let s := s.setFlag Reg.TIM_STS_VALID true
    let s := if s.get Reg.TIM_STS_STATE = 0 then s.set Reg.TIM_STS_STATE 1 else s
    stepTime s ((s.adjSec * 1000000000 + ns : Nat) * nsUnit)

/-- ADD (R368): ignored with an NS out of range, and where the result would leave 0 to 2^48 s. -/
def timAddOp (s : State) : State :=
  let ns := (s.rd Reg.TIM_ADJ_NS).toNat
  let v : Int := ((s.adjSec * 1000000000 + ns : Nat) : Int) * nsUnit
  let t := if s.flag Reg.TIM_ADJ_SEC_HI_NEG then s.nowUnits - v else s.nowUnits + v
  if 1000000000 ≤ ns ∨ t < 0 ∨ (2 ^ 48 * 1000000000) * nsUnit ≤ t then s else stepTime s t

/-- A write of TIM_ADJ_CMD (R368, R584): the operation completes in the step that starts it (log 24). -/
def adjWrite (val : Word) (s : State) : State :=
  let op := fieldOf Reg.TIM_ADJ_CMD_OP val
  startUnlessBusy Reg.TIM_ADJ_CMD_BUSY (decide (op = 1) || decide (op = 2)) (fun s =>
    let s := storeReg Reg.TIM_ADJ_CMD val s
    match op with
    | 1 => timSetOp s
    | 2 => timAddOp s
    | _ => s) s

/-! ### Reads of time -/

/-- A read of TIM_NOW_NS: T is sampled and its seconds latched for the path (R369). -/
def nowRead (p : Path) (s : State) : Word × State :=
  (w32 s.nowSub, s.modPath p (fun x => { x with nowSec := BitVec.ofNat 48 s.nowSec }))

/-! ### Sleep (R373, R374) -/

/-- A measurement of the crystal is complete; it runs in RUN, TRIM and STANDBY (R373). -/
def xtalCalOp (offset : Word) (s : State) : State :=
  if s.dormant then s
  else (s.modTim (fun x => { x with xtalOffset := offset })).wr Reg.TIM_XTAL_CAL offset

/-- N crystal ticks in units of 10^-9/32768 s: the period is the nominal one less the measured offset, in its first-order
form as the example of R376 takes it (log 29). -/
def sleepUnits (n : Nat) (offset : Word) : Int := (n : Int) * (1000000000 - offset.toInt)

/-- Ticks of FRC that N crystal ticks give, rounded down (R374). -/
def sleepTicks (n : Nat) (offset : Word) : Nat := (sleepUnits n offset * 4 / 163840).toNat

/-- The error bound in ns: 20 ppm of the interval and 1 µs (R374). -/
def sleepBound (n : Nat) (offset : Word) : Nat := (sleepUnits n offset * 20 / 32768000000).toNat + 1000

/-- The wake from DORMANT restores time before any other unit reads it: FRC advances, HOLDOVER with reason SLEEP, the
error bound, TIM_SLEEP_RESTORED, the seconds slept through, and the dissolve phases that passed (R374, R375). In FREE the state stays FREE (R371). -/
def wakeRestore (n : Nat) (s : State) : State :=
  let off := s.tim.xtalOffset
  let old := s.nowSec
  let s := s.modTim (fun x => { x with frc := x.frc + BitVec.ofNat 64 (sleepTicks n off) })
  let s := if s.get Reg.TIM_STS_STATE = 0 then s else enterHoldover s 3
  let s := s.wr Reg.TIM_ERR_BOUND (w32 (min (2 ^ 32 - 1) (sleepBound n off)))
  catchUp (dailiesSlept old (raise0 s 0x0504 0))

/-! ### Holdover timers, 1PPS and captures (R371, R377, R378) -/

/-- The discipline timeout expires; a discipline write in the same clock wins (R387). -/
def holdoverTimeoutOp (s : State) : State :=
  if s.tim.lastDisc = some s.clk then s
  else if s.get Reg.TIM_STS_STATE = 1 ∧ s.get Reg.TIM_CFG_HOLD_TIMEOUT_MS ≠ 0 then enterHoldover s 1 else s

/-- 1.5 s have passed with no PPS_IN edge. -/
def ppsLostOp (s : State) : State :=
  let s := s.modTim (fun x => { x with lastPps := none })
  if s.get Reg.TIM_STS_STATE = 1 ∧ s.flag Reg.TIM_CFG_PPS_REF = true then enterHoldover s 2 else s

/-- PPS_SEEN: an edge in the last 1.5 s (R389). -/
def State.ppsSeen (s : State) : Bool := s.tim.lastPps.any (fun t => decide (s.clk - t < 1200000000))

/-- A capture enters a channel of 16, or is lost (R378). -/
def capture (s : State) (c : Nat) : State :=
  let x : Capture := { ns := w32 s.nowSub, sec := BitVec.ofNat 48 s.nowSec }
  let held := if c = 0 then s.tim.cap0 else s.tim.cap1
  if held.length < 16 then
    s.modTim (fun t => if c = 0 then { t with cap0 := t.cap0 ++ [x] } else { t with cap1 := t.cap1 ++ [x] })
  else raise0 (s.modTim (fun t => if c = 0 then { t with ovf0 := true } else { t with ovf1 := true })) 0x0505 c

/-- An edge of PPS_IN counts when the input has been high for 100 ns (R378). -/
def ppsEdgeOp (high : Nat) (s : State) : State :=
  if high < 100 ∨ s.dormant = true then s
  else
    let s := s.modTim (fun x => { x with lastPps := some s.clk, ppsSinceHold := true })
    if s.flag Reg.TIM_CFG_CAP_PPS_EN then capture s 0 else s

/-- An edge of TIME_EVENT. -/
def timeEventOp (high : Nat) (s : State) : State :=
  if high < 100 ∨ s.dormant = true then s
  else if s.flag Reg.TIM_CFG_CAP_EVT_EN then capture s 1 else s

/-- The captures a channel holds. -/
def State.captures (s : State) (c : Nat) : List Capture := if c = 0 then s.tim.cap0 else s.tim.cap1

/-- A read of TIM_CAP_NS removes the oldest capture (R378, R389). -/
def capPop (c : Nat) (s : State) : Word × State :=
  ((s.captures c).head?.elim 0 (fun x => x.ns),
   s.modTim (fun t => if c = 0 then { t with cap0 := t.cap0.drop 1 } else { t with cap1 := t.cap1.drop 1 }))

/-- TIM_CAP_SEC_LO of a channel. -/
def State.capLo (s : State) (c : Nat) : Word := (s.captures c).head?.elim 0 (fun x => w32 x.sec.toNat)

/-- A read of TIM_CAP_SEC_HI, which clears OVF (R389). -/
def capHiRead (c : Nat) (s : State) : Word × State :=
  let hi := (s.captures c).head?.elim 0 (fun x => x.sec.toNat / 2 ^ 32)
  (w32 (b2n (decide (s.captures c ≠ [])) * 2 ^ 31 + b2n (if c = 0 then s.tim.ovf0 else s.tim.ovf1) * 2 ^ 30 + hi),
   s.modTim (fun t => if c = 0 then { t with ovf0 := false } else { t with ovf1 := false }))

/-- PPS_OUT runs (R377). -/
def State.ppsRuns (s : State) : Bool := s.flag Reg.TIM_PPS_OUT_EN && s.flag Reg.TIM_STS_VALID

/-- PPS_OUT takes a level. -/
def setPpsOut (s : State) (level : Bool) : State :=
  if s.tim.ppsOut = level then s else (s.modTim (fun x => { x with ppsOut := level })).emit (.ppsEdge level)

/-- An edge of PPS_OUT falls due; while it does not run the output is low (R377). -/
def ppsOutOp (rise : Bool) (s : State) : State := setPpsOut s (rise && s.ppsRuns)

/-- A write of TIM_PPS_OUT: without EN the output is low. -/
def ppsOutWrite (val : Word) (s : State) : State :=
  let s := storeReg Reg.TIM_PPS_OUT val s
  if s.ppsRuns then s else setPpsOut s false

/-! ### The transparent clock (R379 to R383) -/

/-- A span of FRC ticks in units of 2^-16 ns at the present rate, rounded down (R380). -/
def State.spanUnits (s : State) (ticks : Int) : Int := ticks * 81920 * (2 ^ 40 + s.tim.rate) / 2 ^ 40

/-- The residence of a frame from index n to m, in units of 2^-16 ns (R382). -/
def State.residence (s : State) (n m ta td : Nat) : Int :=
  s.spanUnits ((td : Int) - ta) + (s.get (Reg.TIM_PORT_LAT_IN_LAT n) + s.get (Reg.TIM_PORT_LAT_OUT_LAT m) : Nat) * 8192

/-- Ones-complement sum of 16-bit words, folded. -/
def fold16 (n : Nat) : Nat := (n % 65536 + n / 65536) % 65536 + (n % 65536 + n / 65536) / 65536

/-- A UDP checksum after a change of whole words, updated as RFC 1624 gives it; 0 is sent as 0xFFFF (log 28). -/
def checksumUpdate (ck : Nat) (old new : List Byte) : Nat :=
  let words := fun (bs : List Byte) => (List.range (bs.length / 2)).map (fun i => be (sub bs (2 * i) 2))
  let acc := (words old).foldl (fun a w => a + (65535 - w)) (65535 - ck)
  let r := 65535 - fold16 (fold16 ((words new).foldl (· + ·) acc))
  if r = 0 then 65535 else r

/-- A 64-bit number read as two's complement. -/
def signed64 (v : Nat) : Int := if v < 2 ^ 63 then v else (v : Int) - 2 ^ 64

/-- Add to the correctionField of the PTP header in a plaintext frame without its FCS, and keep the UDP checksum right;
a sum that overflows is written as 0x7FFF_FFFF_FFFF_FFFF and counted (R382). -/
def addCorrection (s : State) (d : List Byte) (delta : Int) : List Byte × State :=
  let p := parse (d.take 128)
  let at' := p.ptpPos + 8
  let old := sub d at' 8
  let sum := signed64 (be old) + delta
  let sat := decide (2 ^ 63 ≤ sum) || decide (sum < -(2 ^ 63))
  let new := if sat then toBe 8 (2 ^ 63 - 1) else toBe 8 (sum % 2 ^ 64).toNat
  let s := if sat then s.inc Reg.TIM_CORR_SAT else s
  let d' := splice d at' new
  match p.l4 with
  | some q =>
    let ck := be (sub d (q + 6) 2)
    if p.etype = 0x88F7 ∨ (ck = 0 ∧ p.six = false) then (d', s)
    else (splice d' (q + 6) (toBe 2 (checksumUpdate ck old new)), s)
  | none => (d', s)

/-- messageType of a marked frame. -/
def ptpType (d : List Byte) : Nat := byteAt d (parse (d.take 128)).ptpPos % 16

/-- The correction of a PTP event frame for its departure td (R382, R383); with TC_CFG.EN = 0 the frame is unchanged. -/
def ptpCorrect (s : State) (n m ta td : Nat) (d : List Byte) : List Byte × State :=
  if s.flag Reg.TIM_TC_CFG_EN = false then (d, s)
  else
    let extra : Int := if ptpType d = 0 ∧ s.flag Reg.TIM_TC_CFG_P2P = true then
        ((s.rd (Reg.TIM_PORT_PDELAY n)).toNat * 256 : Nat) else 0
    let r := addCorrection s d (s.residence n m ta td + extra)
    (r.1, r.2.inc Reg.TIM_TC_CORRECTED)

/-- Pdelay messages are not forwarded in P2P mode (R383). -/
def State.pdelayStops (s : State) (d : List Byte) : Bool :=
  s.flag Reg.TIM_TC_CFG_P2P && (decide (ptpType d = 2) || decide (ptpType d = 3))

/-- PTP handling is on for index n (R86). -/
def State.ptpHandled (s : State) (n : Nat) : Bool :=
  if n < 32 then nbit s.ctl.ptpClient.toNat n else nbit s.ctl.ptpLine.toNat (n - 32)

/-! ### The commands -/

/-- TIM_RATE_WRITE -/
def execTimRateWrite (who : Who) (rate : Word) (s : State) : Host.Outcome State Fault Refusal :=
  .next (gateOwner who Reg.TIM_RATE (rateWrite rate) s)
/-- TIM_SET -/
def execTimSet (who : Who) (s : State) : Host.Outcome State Fault Refusal :=
  .next (gateOwner who Reg.TIM_ADJ_CMD (adjWrite (word [(Reg.TIM_ADJ_CMD_OP, 1)])) s)
/-- TIM_ADD -/
def execTimAdd (who : Who) (s : State) : Host.Outcome State Fault Refusal :=
  .next (gateOwner who Reg.TIM_ADJ_CMD (adjWrite (word [(Reg.TIM_ADJ_CMD_OP, 2)])) s)
/-- HOLDOVER_TIMEOUT -/
def execHoldoverTimeout (s : State) : Host.Outcome State Fault Refusal := .next (live holdoverTimeoutOp s)
/-- PPS_LOST -/
def execPpsLost (s : State) : Host.Outcome State Fault Refusal := .next (live ppsLostOp s)
/-- PPS_IN_EDGE -/
def execPpsInEdge (highNs : Nat) (s : State) : Host.Outcome State Fault Refusal := .next (live (ppsEdgeOp highNs) s)
/-- TIME_EVENT_EDGE -/
def execTimeEventEdge (highNs : Nat) (s : State) : Host.Outcome State Fault Refusal := .next (live (timeEventOp highNs) s)
/-- PPS_OUT_EDGE -/
def execPpsOutEdge (rise : Bool) (s : State) : Host.Outcome State Fault Refusal := .next (live (ppsOutOp rise) s)
/-- XTAL_CAL_DONE -/
def execXtalCalDone (offset : Word) (s : State) : Host.Outcome State Fault Refusal := .next (live (xtalCalOp offset) s)

end Sys2Proof.Machine
end

