-- ==== Sys2Proof/Machine/Farm.lean ====
section
/-! DEFINITION. The cipher farm (08): rings and cores (R293 to R303), the carousel's deal (R302 to R304), the constructions
of R305 to R309 and the splicer's tag (R312, R313), and the commands of rings and cores. -/

namespace Sys2Proof.Machine

/-- Change the farm. -/
def State.modFrm (s : State) (f : Frm → Frm) : State := { s with frm := f s.frm }

/-! ### Cores and rings -/

/-- A core out of service with nothing to do. -/
def noCore : Core :=
  { inService := false, queue := [], seeded := false, seed := 0, drawn := 0, key := { a := 0, b := 0 }, keyOf := none, powers := [],
    block := { a := 0, b := 0 } }

/-- Core c, ring times 16 plus its number in the ring. -/
def State.core (s : State) (c : Nat) : Core := mlook noCore c s.frm.cores

/-- Change a core. -/
def State.modCore (s : State) (c : Nat) (f : Core → Core) : State :=
  s.modFrm (fun x => { x with cores := mstore noCore c (f (s.core c)) x.cores })

/-- Power of ring r. -/
def State.ring (s : State) (r : Nat) : RingPower := mlook .asleep r s.frm.rings

/-- Set a ring's power. -/
def State.setRing (s : State) (r : Nat) (p : RingPower) : State :=
  s.modFrm (fun x => { x with rings := mstore .asleep r p x.rings })

/-- The unwrap ring (R298). -/
def State.unwrapRing (s : State) : Nat := s.get Reg.FRM_UNWRAP_CFG_RING

/-- Ring r takes datapath slices (R298). -/
def State.dataRing (s : State) (r : Nat) : Bool := decide (r ≠ s.unwrapRing) || !s.flag Reg.FRM_UNWRAP_CFG_EXCLUSIVE

/-- Ring r serves a direction (R298, R329). -/
def State.ringServes (s : State) (r : Nat) (d : Dir) : Bool :=
  s.dataRing r && match s.get (Reg.FRM_RING_CFG_ROLE r), d with
    | 1, .enc => true | 1, .dec => false
    | 2, .enc => false | 2, .dec => true
    | _, _ => true

/-- A core in a known-answer test is out of the deal (R296, R329). -/
def State.inTest (s : State) (c : Nat) : Bool := s.frm.kat.contains c || s.frm.restore.contains c

/-- A core is ready (R303). -/
def State.coreReady (s : State) (c : Nat) : Bool :=
  let x := s.core c
  x.inService && decide (s.ring (c / 16) = .awake) && decide (x.queue.length < 2) && !s.inTest c

/-- Some core in service of an awake ring serves a direction. -/
def State.coresServe (s : State) (d : Dir) : Bool :=
  s.frm.cores.any (fun p => p.2.inService && decide (s.ring (p.1 / 16) = .awake) && s.ringServes (p.1 / 16) d)

/-- The unwrap ring has a core in service. -/
def State.unwrapServed (s : State) : Bool :=
  s.frm.cores.any (fun p => p.2.inService && decide (p.1 / 16 = s.unwrapRing) && decide (s.ring s.unwrapRing = .awake))

/-- ENC_CORES_OK and DEC_CORES_OK rise with the first core that serves; FRM_NO_CORES clears them (R325). UNWRAP_FALLBACK
ends when the unwrap ring has a core again (R299). -/
def settleCores (s : State) : State :=
  let s := if s.coresServe .enc then s.setFlag Reg.FRM_STS_ENC_CORES_OK true else s
  let s := if s.coresServe .dec then s.setFlag Reg.FRM_STS_DEC_CORES_OK true else s
  if s.unwrapServed then s.setFlag Reg.FRM_STS_UNWRAP_FALLBACK false else s

/-- An unwrap is dealt: without a core in service on the unwrap ring it goes to other rings, and fallback begins (R299). -/
def dealUnwrap (s : State) : State :=
  if s.unwrapServed || s.flag Reg.FRM_STS_UNWRAP_FALLBACK then s
  else raise0 (s.setFlag Reg.FRM_STS_UNWRAP_FALLBACK true) 0x3008 0

/-! ### What a frame brings to the farm (R302, R307 to R309) -/

/-- Bytes of the secure data that OFFSET leaves in clear, of U (R307). -/
def clearPart (r : Rec) (u : Nat) : Nat := if r.offset = 0 then 0 else if r.offset = 1 then min 30 u else if r.offset = 2 then min 50 u else u

/-- The frame is protected for, or came from, a Korone port in frame mode. -/
def Rec.isKor (r : Rec) : Bool := decide (r.encap = 1)

/-! ### Constructions -/

/-- The IV of a MACsec frame (R306). -/
def macsecIv (r : Rec) (sci : List Byte) (pn : Nat) : List Byte :=
  if r.xpn then xorBytes (toBe 4 r.ssci.toNat ++ toBe 8 pn) (toBe 12 r.salt.toNat) else sci ++ toBe 4 pn

/-- The SecTAG of a transmitted frame with U bytes of secure data (R307). -/
def secTag (r : Rec) (pn u : Nat) : List Byte :=
  let ec := if r.offset = 3 then 0 else 0x0C
  [0x88, 0xE5, BitVec.ofNat 8 (b2n r.es * 64 + b2n r.scIncl * 32 + ec + r.an.toNat), BitVec.ofNat 8 (if u < 48 then u else 0)] ++
    toBe 4 pn ++ (if r.scIncl then toBe 8 r.ident.toNat else [])

/-- The job of a transmitted MACsec frame, from the client frame without its FCS (R305, R307). -/
def macsecJob (r : Rec) (pn : Nat) (d : List Byte) : Job :=
  let u := d.length - 12
  let data := d.drop 12
  let c := clearPart r u
  { iv := macsecIv r (toBe 8 r.ident.toNat) pn, aad := d.take 12 ++ secTag r pn u ++ data.take c, src := data.drop c, decrypt := false }

/-- Protect a client frame without its FCS as MACsec (R305, R307): the line frame with its ICV, without FCS. -/
def macsecProtect (r : Rec) (key : BitVec 256) (pn : Nat) (d : List Byte) : List Byte :=
  let j := macsecJob r pn d
  let o := j.whole r.key256 key
  j.aad ++ o.1 ++ blockBytes o.2

/-- The job of a received MACsec frame without its FCS (R306 to R308). -/
def macsecRxJob (s : State) (r : Rec) (k pn : Nat) (d : List Byte) : Job :=
  let t := secTagLen d
  let u := d.length - (28 + t)
  let c := clearPart r u
  { iv := macsecIv r (macsecSci s k d) pn, aad := d.take (12 + t + c), src := sub d (12 + t + c) (u - c), decrypt := true }

/-- A capsule head (R172): types 0 DATA, 1 EXTRA, 2 CONTROL, 3 ABORT. -/
def capHead (length type : Nat) : List Byte :=
  let h := toBe 2 (length * 4 + type)
  h ++ toBe 2 (crc16 h).toNat

/-- The job of a capsule of a type for a client frame, its FCS included (R174, R309, R355). -/
def capsuleJob (r : Rec) (pn type : Nat) (fr : List Byte) : Job :=
  let aad := capHead (fr.length + 28) type ++ toBe 4 (r.ident.toNat / 2 ^ 32) ++ toBe 8 pn
  { iv := xorBytes (aad.drop 4) (toBe 12 r.salt.toNat), aad := aad, src := fr, decrypt := false }

/-- Protect a client frame, its FCS included, as a capsule of a type (R174, R309, R355). -/
def capsuleProtect (r : Rec) (key : BitVec 256) (pn type : Nat) (fr : List Byte) : List Byte :=
  let j := capsuleJob r pn type fr
  let o := j.whole r.key256 key
  j.aad ++ o.1 ++ blockBytes o.2

/-- The job of a received DATA capsule (R309). -/
def capsuleRxJob (r : Rec) (cap : List Byte) : Job :=
  { iv := xorBytes (sub cap 4 12) (toBe 12 r.salt.toNat), aad := cap.take 16, src := sub cap 16 (cap.length - 32), decrypt := true }

/-- The client frame of a DATA capsule, its FCS included, and whether its tag verifies (R309, R313). -/
def capsuleOpen (r : Rec) (key : BitVec 256) (cap : List Byte) : List Byte × Bool :=
  let o := (capsuleRxJob r cap).whole r.key256 key
  (o.1, decide (cap.drop (cap.length - 16) = blockBytes o.2))

/-- The slot of a frame. -/
def State.slotFor? (s : State) (f : Frame) : Option Slot := f.slot.bind (fun i => mget i s.asc.slots)

/-- The job of a frame in the farm under its record; in the encrypt direction its bytes are the client frame with its FCS. -/
def frameJob (s : State) (f : Frame) : Job :=
  let r := s.asRec (f.assoc.getD 0)
  match f.dir with
  | .enc => if r.isKor then capsuleJob r f.pn (if f.kind = .extra then 1 else 0) f.bytes else macsecJob r f.pn (noFcs f.bytes)
  | .dec => if r.isKor then capsuleRxJob r f.bytes else macsecRxJob s r (f.n % 32) f.pn (noFcs f.bytes)

/-- Nothing returned. -/
def noPart : Part := { out := [], z := 0, j0 := 0 }

/-- What the splicer has from a frame's slices: the output bytes, and the tag that it merges with the slot's powers of H (R312). -/
def spliced (s : State) (f : Frame) : List Byte × BitVec 128 :=
  let j := frameJob s f
  let part := fun i => mlook noPart i f.parts
  (j.output part, j.merge (((s.slotFor? f).map (fun x => x.powers)).getD []) part)

/-- What its slices will give, all returned: the construction in one (R305). -/
def foretold (s : State) (f : Frame) : List Byte × BitVec 128 :=
  (frameJob s f).whole (s.asRec (f.assoc.getD 0)).key256 (((s.slotFor? f).map (fun x => x.key.value)).getD 0)

/-- The line frame of an encrypt-direction frame in the farm, its tag written in: on Ethernet with a fresh FCS (R143, R307, R309,
R313). -/
def protectFrame (s : State) (f : Frame) : List Byte :=
  let o := spliced s f
  let d := (frameJob s f).aad ++ o.1 ++ blockBytes o.2
  if (s.asRec (f.assoc.getD 0)).isKor then d else d ++ fcsBytes d

/-- The client frame, without its FCS, of a decrypt-direction frame whose encrypted region and tag come out as o, and whether the tag
that was received is that one (R313). -/
def openWith (s : State) (f : Frame) (o : List Byte × BitVec 128) : List Byte × Bool :=
  if (s.asRec (f.assoc.getD 0)).isKor then (noFcs o.1, decide (f.bytes.drop (f.bytes.length - 16) = blockBytes o.2))
  else
    let d := noFcs f.bytes
    let clear := (frameJob s f).aad
    (clear.take 12 ++ clear.drop (12 + secTagLen d) ++ o.1, decide (d.drop (d.length - 16) = blockBytes o.2))

/-- The client frame of a decrypt-direction frame in the farm, without its FCS, and whether its tag verifies. -/
def openFrame (s : State) (f : Frame) : List Byte × Bool := openWith s f (spliced s f)

/-! ### The deal (R302 to R304, R315) -/

/-- Slices in the cores' queues. -/
def State.dealt (s : State) : List (Nat × Nat) := s.frm.cores.flatMap (fun p => p.2.queue)

/-- A slice of the frame is with a core or has returned: the splicer tracks it (R315). -/
def State.tracked (s : State) (f : Frame) : Bool := decide (f.returned ≠ []) || s.dealt.any (fun q => q.1 = f.id)

/-- The farm works on the frame: it is in the farm, or leaves cut-through before its verdict (R319). -/
def Frame.farming (f : Frame) : Bool := decide (f.stage = .farm) || (f.cut && decide (f.tagOk = none))

/-- A frame that was dealt to the farm and is not yet released: it takes a tracker entry. -/
def Frame.holdsEntry (f : Frame) : Bool :=
  f.farming || match f.stage with
  | .farm => true | .lease => true | .follow => true
  | .lookup => false | .missq => false | .queued => false | .slotted => false | .sending => false | .ended => false

/-- Frames of a direction that the splicer tracks (R315, R329). -/
def State.tracking (s : State) (d : Dir) : Nat :=
  (s.sch.frames.filter (fun f => decide (f.dir = d) && f.holdsEntry && s.tracked f)).length

/-- A tracker entry is free for the frame: 256 of 8,192 are kept for PTP event frames (R315). -/
def State.entryFree (s : State) (f : Frame) : Bool := decide (s.tracking f.dir < (if f.ptpEvent then 8192 else 7936))

/-- Some direction has frames waiting for a tracker entry (R315). -/
def State.trackerWaits (s : State) : Bool :=
  s.sch.frames.any (fun f => decide (f.stage = .farm) && !s.tracked f && !s.entryFree f)

/-- Slices of a frame that wait to be dealt. -/
def State.undealt (s : State) (f : Frame) : List Nat :=
  (List.range f.slices).filter (fun i => !f.returned.contains i && !s.dealt.contains (f.id, i))

/-- The place of a frame in the order of R304. -/
def Frame.rank (f : Frame) : Nat := if f.ptpEvent then 0 else if f.kind = .extra then 2 else 1

/-- The next ready core after the pointer whose ring serves a direction (R303). -/
def State.nextCore (s : State) (d : Dir) : Option Nat :=
  (s.frm.cores.filter (fun p => s.coreReady p.1 && s.ringServes (p.1 / 16) d)).foldl (fun best p =>
    let dist := fun (c : Nat) => (c + 511 - s.frm.pointer) % 512
    match best with
    | none => some p.1
    | some b => if dist p.1 < dist b then some p.1 else some b) none

/-- The slice of a direction that is to be dealt next, by R304. -/
def State.nextSlice (s : State) (d : Dir) : Option (Frame × Nat) :=
  let waits := s.sch.frames.filter (fun f => f.farming && decide (f.dir = d) && (s.tracked f || s.entryFree f) &&
    decide (s.undealt f ≠ []))
  (waits.foldl (fun (best : Option Frame) f => match best with
    | none => some f
    | some b => if f.rank < b.rank then some f else some b) none).bind (fun f => (s.undealt f).head?.map (fun i => (f, i)))

/-- The slot of a frame pends on its verdict (R316). -/
def State.pendingKey (s : State) (f : Frame) : Bool :=
  ((f.slot.bind (fun i => mget i s.asc.slots)).map (fun x => x.verdictDue)).getD false

/-- The sampling exponent of the duplicate check, 8 to 24 (R324). -/
def State.checkExp (s : State) : Nat := max 8 (min 24 (s.get Reg.FRM_CHECK_CFG_CHECK_EXP))

/-- A core holds the key that the slice at the head of its queue works under, loaded at the change; with an empty queue it holds none
(R295). -/
def settleCore (s : State) (c : Nat) : State :=
  let x := s.core c
  match x.queue.head?.bind (fun q => (s.frame? q.1).bind (fun f => f.slot)) with
  | none => s.modCore c Core.wipe
  | some i =>
    if x.keyOf = some i then s
    else match mget i s.asc.slots with
      | some y => s.modCore c (fun x => x.load i y)
      | none => s.modCore c Core.wipe

/-- Deal one slice to a core: the pointer moves, the slice may be sampled, and a frame under a pending key is gated
(R303, R316, R317, R324). -/
def dealTo (s : State) (f : Frame) (i c : Nat) : State :=
  let s := settleCore (s.modCore c (fun x => { x with queue := x.queue ++ [(f.id, i)] })) c
  let s := s.modFrm (fun x => { x with pointer := c, lastDir := f.dir })
  let (v, s) := s.draw
  let hit := decide (v.toNat % 2 ^ s.checkExp = 0)
  let s := if hit then s.inc Reg.FRM_CHECKS else s
  let gate := s.pendingKey f
  let s := if gate && !f.gated then s.inc (Reg.FRM_GATED (f.n % 32)) else s
  let s := s.modFrame f.id (fun f => { f with gated := f.gated || gate, sampled := f.sampled + b2n hit, picked := f.picked || hit })
  if i = 0 then s.mark f.id 6 else s

/-- Deal the slice that R303 and R304 put first: with both directions waiting alike, the one not served last. -/
def dealOne (s : State) : Option State :=
  let cand := fun d => match s.nextSlice d, s.nextCore d with
    | some (f, i), some c => some (f, i, c)
    | _, _ => none
  match cand .enc, cand .dec with
  | some (f, i, c), some (g, j, e) =>
    if f.rank < g.rank ∨ (f.rank = g.rank ∧ s.frm.lastDir = .dec) then some (dealTo s f i c) else some (dealTo s g j e)
  | some (f, i, c), none => some (dealTo s f i c)
  | none, some (g, j, e) => some (dealTo s g j e)
  | none, none => none

/-- Deal while a slice and a core for it are there, at most n slices. -/
def dealN : Nat → State → State
  | 0, s => s
  | n + 1, s => match dealOne s with
    | some t => dealN n t
    | none => s

/-- Deal all that can be dealt: the 1,024 places of the cores' queues at most. -/
def dealAll (s : State) : State := dealN 1024 s

/-! ### Cores that leave and return -/

/-- A core leaves service and its slices are dealt again from their start (R294, R325, R327). -/
def coreOut (s : State) (c : Nat) : State :=
  let n := (s.core c).queue.length
  let s := s.modCore c (fun x => { x.wipe with inService := false, queue := [] })
  settleCores (if n = 0 then s else s.bump Reg.FRM_REDEALT n)

/-- A core fails its known-answer test (R296). -/
def katFail (s : State) (c : Nat) : State := raise0 ((coreOut s c).inc Reg.FRM_KAT_FAILS) 0x3002 c

/-- MASK_OK: every core in service has a current seed (R329). -/
def State.maskOk (s : State) : Bool := s.frm.cores.all (fun p => !p.2.inService || p.2.seeded)

/-- A core takes a seed from the DRBG; one that starved is tested and then returns (R294, R296). -/
def maskSeedOp (c : Nat) (s : State) : State :=
  if s.vlt.drbgRun = false ∨ s.ring (c / 16) = .asleep then s
  else
    let (v, s) := s.drbg
    let starved := !(s.core c).inService && !(s.core c).seeded
    let s := s.modCore c (fun x => { x with seeded := true, seed := v.truncate 256, drawn := 0 })
    if starved then s.modFrm (fun x => { x with kat := ladd c x.kat }) else s

/-- No seed for 131,072 clocks (R294). -/
def maskStarvedOp (c : Nat) (s : State) : State :=
  if (s.core c).inService = false then s
  else
    let s := (coreOut s c).modCore c (fun x => { x with seeded := false })
    dealAll (raise0 (s.inc Reg.FRM_MASK_STALLS) 0x3003 c)

/-- BUSY of a ring's command ends with its last test (R329). -/
def settleBusy (s : State) (r : Nat) : State :=
  if (s.frm.kat ++ s.frm.restore).any (fun c => decide (c / 16 = r)) || decide (s.ring r = .waking) then s
  else s.setFlag (Reg.FRM_RING_CMD_BUSY r) false

/-- A known-answer test ends (R296). -/
def katDoneOp (c : Nat) (pass : Bool) (s : State) : State :=
  if s.inTest c = false then s
  else
    let s := s.modFrm (fun x => { x with kat := ldel c x.kat, restore := ldel c x.restore })
    let s := if pass then settleCores (s.modCore c (fun x => { x with inService := true, seeded := true })) else katFail s c
    dealAll (settleBusy s (c / 16))

/-! ### Rings -/

/-- A ring wakes: its domain powers up (R300, R301); a ring that drains returns to the deal. One that woke for a test only stays. -/
def ringWake (s : State) (r : Nat) : State :=
  let s := s.modFrm (fun x => { x with testWake := ldel r x.testWake })
  match s.ring r with
  | .asleep => s.setRing r .waking
  | .draining => s.setRing r .awake
  | .waking => s
  | .awake => s

/-- The sixteen cores of a ring. -/
def ringCores (r : Nat) : List Nat := (List.range 16).map (fun i => 16 * r + i)

/-- Ring r is asked to sleep: it leaves the deal at once (R301). -/
def ringSleep (s : State) (r : Nat) : State := if s.ring r = .awake then s.setRing r .draining else s

/-- A ring that a KAT command woke sleeps again when the carousel has no work for it: no slice waits that it could take (R301). -/
def endTestWake (s : State) (r : Nat) : State :=
  let s' := s.modFrm (fun x => { x with testWake := ldel r x.testWake })
  let works := fun d => s.ringServes r d && (s.nextSlice d).isSome
  if s.frm.testWake.contains r && !works .enc && !works .dec then ringSleep s' r else s'

/-- A woken ring has run its tests: the cores that pass are in service, each with a seed of its own (R294, R296, R300). -/
def ringWakeDoneOp (r : Nat) (pass : BitVec 16) (s : State) : State :=
  if s.ring r ≠ .waking then s
  else
    let s := s.setRing r .awake
    let s := s.modFrm (fun x => { x with wakeAsked := if x.wakeAsked = some r then none else x.wakeAsked })
    let seed := s.vlt.drbgRun
    let s := (ringCores r).foldl (fun s c =>
      let ok := pass.getLsbD (c % 16)
      let (v, s) := if seed then s.drbg else (0, s)
      let s := s.modCore c (fun _ => { noCore with inService := seed && ok, seeded := seed, seed := v.truncate 256 })
      if ok then s else katFail s c) s
    dealAll (endTestWake (settleBusy (settleCores s) r) r)

/-- Ring r may be put to sleep now: the unwrap ring has no page-in in progress (R300, R513). -/
def State.ringMaySleep (s : State) (r : Nat) : Bool := decide (r ≠ s.unwrapRing) || decide (s.asc.paging = [])

/-- The ring's queues are empty: it sleeps, and its cores hold nothing (R295, R301). -/
def ringOff (s : State) (r : Nat) : State :=
  let s := s.setRing r .asleep
  settleCores ((ringCores r).foldl (fun s c => s.modCore c (fun _ => noCore)) s)

/-- RING_SLEEP_ACK. -/
def ringSleepAckOp (r : Nat) (s : State) : State :=
  if s.ring r = .draining ∧ (ringCores r).all (fun c => decide ((s.core c).queue = [])) = true then ringOff s r else s

/-- Slices of a direction in the farm. -/
def State.load (s : State) (d : Dir) : Nat :=
  (s.sch.frames.filter (fun f => f.farming && decide (f.dir = d))).foldl (fun a f => a + (f.slices - f.returned.length)) 0

/-- WAKE_TH, at most 100 (R329). -/
def State.wakeTh (s : State) : Nat := min 100 (s.get Reg.FRM_CFG_WAKE_TH)
/-- SLEEP_TH, below WAKE_TH (R329). -/
def State.sleepTh (s : State) : Nat := min (s.get Reg.FRM_CFG_SLEEP_TH) (s.wakeTh - 1)

/-- Each microsecond the carousel measures its load and asks for a wake or a sleep (R300). The gaffer acts on a sleep
request in TRIM and STANDBY only (R507, R519). -/
def loadTickOp (s : State) : State :=
  let ready := s.frm.cores.filter (fun p => p.2.inService && decide (s.ring (p.1 / 16) = .awake) && s.dataRing (p.1 / 16))
  let busy := (ready.filter (fun p => decide (p.2.queue ≠ []))).length
  let work := decide (s.load .enc + s.load .dec ≠ 0)
  let above := decide (s.wakeTh * ready.length < busy * 100) || (decide (ready = []) && work)
  let low := decide (busy * 100 < s.sleepTh * ready.length)
  let d : Dir := if s.load .enc < s.load .dec then .dec else .enc
  let s := s.modFrm (fun x => { x with lowTicks := if low then x.lowTicks + 1 else 0 })
  if above then
    if s.frm.wakeAsked.isSome then s
    else match (List.range 32).find? (fun r => decide (s.ring r = .asleep) && s.ringServes r d) with
      | some r => ringWake (s.modFrm (fun x => { x with wakeAsked := some r })) r
      | none => s
  else if max 1 (s.get Reg.FRM_CFG_SLEEP_HOLD_US) ≤ s.frm.lowTicks ∧ s.get Reg.GAF_STS_STATE ≠ 0 then
    match (List.range 32).reverse.find? (fun r => decide (s.ring r = .awake) && s.dataRing r &&
        !s.flag (Reg.FRM_RING_CFG_KEEP_AWAKE r) && s.ringMaySleep r) with
    | some r => ringSleep s r
    | none => s
  else s

/-- KAT or RESTORE in FRM_RING_CMD (R296, R325, R329): a command is ignored and counted while one is in progress (R584). A
KAT to a sleeping ring wakes it for the test. -/
def ringCmdWrite (r : Nat) (val : Word) (s : State) : State :=
  let kat := decide (fieldOf (Reg.FRM_RING_CMD_KAT 0) val = 1)
  let restore := decide (fieldOf (Reg.FRM_RING_CMD_RESTORE 0) val = 1)
  if (kat || restore) && s.flag (Reg.FRM_RING_CMD_BUSY r) then s.inc Reg.CTL_FAULT_BUSY
  else
    let s := storeReg (Reg.FRM_RING_CMD r) val s
    let named := (ringCores r).filter (fun c => nbit (fieldOf (Reg.FRM_RING_CMD_CORES 0) val) (c % 16))
    let kats := if kat then named.filter (fun c => (s.core c).inService) else []
    let rests := if restore then named.filter (fun c => !(s.core c).inService && (s.core c).seeded) else []
    let wake := kat && decide (s.ring r = .asleep)
    let s := if wake then (ringWake s r).modFrm (fun x => { x with testWake := ladd r x.testWake }) else s
    let s := s.modFrm (fun x => { x with kat := kats.foldl (fun l c => ladd c l) x.kat,
                                         restore := rests.foldl (fun l c => ladd c l) x.restore })
    if wake || decide (kats ≠ []) || decide (rests ≠ []) then s.setFlag (Reg.FRM_RING_CMD_BUSY r) true else s

/-- No core has served a direction for 10 µs (R325). -/
def noCoresOp (d : Dir) (s : State) : State :=
  if s.coresServe d then s
  else match d with
    | .enc => raise0 (s.setFlag Reg.FRM_STS_ENC_CORES_OK false) 0x3007 0
    | .dec => raise0 (s.setFlag Reg.FRM_STS_DEC_CORES_OK false) 0x3007 1

/-- No verdict 1 µs after the first use of a pending key (R317): a verdict taken in the same clock wins (R327). -/
def gateTimeoutOp (i : Nat) (s : State) : State :=
  match mget i s.asc.slots with
  | some x => if x.verdictDue then raise s 0x3004 i x.assoc none else s
  | none => s

/-! ### What the status registers show (R329) -/

/-- FRM_STS. -/
def State.frmSts (s : State) : Word :=
  setBits (setBits (setBits (s.rd Reg.FRM_STS) 31 18 (s.tracking .enc)) 17 4 (s.tracking .dec)) 3 3
    (b2n (s.maskOk && s.frm.cores.any (fun p => p.2.inService)))

/-- RingPower as FRM_RING_STS codes it. -/
def RingPower.num : RingPower → Nat
  | .asleep => 0 | .waking => 1 | .awake => 2 | .draining => 3

/-- FRM_RING_STS of ring r. -/
def State.ringSts (s : State) (r : Nat) : Word :=
  w32 ((s.ring r).num * 2 ^ 30 + b2n (decide (s.unwrapRing = r)) * 2 ^ 29 +
    (List.range 16).foldl (fun a i => a + b2n (s.core (16 * r + i)).inService * 2 ^ i) 0)

/-! ### The commands -/

/-- The word of a ring command. -/
def ringWord (kat : Bool) (cores : BitVec 16) : Word :=
  word [(Reg.FRM_RING_CMD_KAT 0, b2n kat), (Reg.FRM_RING_CMD_RESTORE 0, b2n (!kat)), (Reg.FRM_RING_CMD_CORES 0, cores.toNat)]

/-- MASK_SEED -/
def execMaskSeed (core : Fin 512) (s : State) : Host.Outcome State Fault Refusal := .next (live (maskSeedOp core) s)
/-- MASK_STARVED -/
def execMaskStarved (core : Fin 512) (s : State) : Host.Outcome State Fault Refusal := .next (live (maskStarvedOp core) s)
/-- KAT_DONE -/
def execKatDone (core : Fin 512) (pass : Bool) (s : State) : Host.Outcome State Fault Refusal :=
  .next (live (katDoneOp core pass) s)
/-- CAROUSEL_LOAD_TICK -/
def execCarouselLoadTick (s : State) : Host.Outcome State Fault Refusal := .next (live loadTickOp s)
/-- RING_WAKE_DONE -/
def execRingWakeDone (r : Fin 32) (pass : BitVec 16) (s : State) : Host.Outcome State Fault Refusal :=
  .next (live (ringWakeDoneOp r pass) s)
/-- RING_SLEEP_ACK -/
def execRingSleepAck (r : Fin 32) (s : State) : Host.Outcome State Fault Refusal := .next (live (ringSleepAckOp r) s)
/-- RING_KAT -/
def execRingKat (who : Who) (r : Fin 32) (cores : BitVec 16) (s : State) : Host.Outcome State Fault Refusal :=
  .next (gateOwner who (Reg.FRM_RING_CMD r) (ringCmdWrite r (ringWord true cores)) s)
/-- RING_RESTORE -/
def execRingRestore (who : Who) (r : Fin 32) (cores : BitVec 16) (s : State) : Host.Outcome State Fault Refusal :=
  .next (gateOwner who (Reg.FRM_RING_CMD r) (ringCmdWrite r (ringWord false cores)) s)
/-- GATE_TIMEOUT -/
def execGateTimeout (slot : BitVec 16) (s : State) : Host.Outcome State Fault Refusal :=
  .next (live (gateTimeoutOp slot.toNat) s)
/-- NO_CORES -/
def execNoCores (d : Dir) (s : State) : Host.Outcome State Fault Refusal := .next (live (noCoresOp d) s)

end Sys2Proof.Machine
end

