-- ==== Sys2Proof/Machine/Scheduler.lean ====
section
/-! DEFINITION. The port scheduler (09): egress queues (R340, R341), shapers (R343 to R346), departure slots (R348 to R352),
histograms (R358, R359), the punt path (R226, R227), and what happens to PTP frames in plaintext (R381 to R385). -/

namespace Sys2Proof.Machine

/-! ### Frames on their way out -/

/-- A frame takes its place behind every other: the list of frames keeps the order in which each reached its present place. -/
def State.toEnd (s : State) (id : Nat) : State :=
  match s.frame? id with
  | some f => s.modSch (fun c => { c with frames := c.frames.filter (fun g => g.id ≠ id) ++ [f] })
  | none => s

/-- The bytes a frame leaves as: a cut-through frame has its plaintext beside the bytes still in the farm. -/
def Frame.sent (f : Frame) : List Byte := if f.cut then f.plain ++ fcsBytes f.plain else f.bytes

/-- Lw: the frame's length as it leaves (R343). -/
def Frame.lw (f : Frame) : Nat := if f.cut then f.plain.length + 4 else f.bytes.length

/-! ### Shapers (R343 to R346) -/

/-- A shaper that nothing has written: not enabled (R363). -/
def noShaper : Shaper := { data0 := 0, data1 := 0, next0 := 0, next1 := 0, tokens := 0 }

/-- Association shaper i. -/
def State.shaper (s : State) (i : Nat) : Shaper := mlook noShaper i s.sch.shapers

/-- Store association shaper i. -/
def State.putShaper (s : State) (i : Nat) (x : Shaper) : State :=
  s.modSch (fun c => { c with shapers := mstore noShaper i x c.shapers })

/-- The port shaper of egress index m. -/
def State.portShaper (s : State) (m : Nat) : Shaper := mlook noShaper m s.sch.portShapers

/-- Store a port shaper. -/
def State.putPortShaper (s : State) (m : Nat) (x : Shaper) : State :=
  s.modSch (fun c => { c with portShapers := mstore noShaper m x c.portShapers })

/-- EN in force. -/
def Shaper.en (x : Shaper) : Bool := x.data0.getLsbD 31
/-- PORT in force. -/
def Shaper.port (x : Shaper) : Nat := bits x.data0 30 25
/-- PROFILE in force. -/
def Shaper.profile (x : Shaper) : Nat := bits x.data0 24 21
/-- RATE in bits a microsecond: 0 acts as 1, and the most is 800,000 (R363). -/
def Shaper.rate (x : Shaper) : Nat := max 1 (min 800000 (bits x.data0 19 0))
/-- 8 x BURST: 0 acts as 16,777,216 bytes (R363). -/
def Shaper.cap (x : Shaper) : Nat := 8 * (if bits x.data1 23 0 = 0 then 16777216 else bits x.data1 23 0)

/-- A profile in force (R345). -/
def State.profileWord (s : State) (j : Nat) : Word := mlook 0 j s.sch.profiles

/-- OVERHEAD of a profile, from -64 to 255 (R343, R363). -/
def overhead (w : Word) : Int :=
  let v := bits w 24 16
  max (-64) (if v < 256 then (v : Int) else (v : Int) - 512)

/-- The bits a frame of Lw bytes takes (R343). -/
def State.debitBits (s : State) (x : Shaper) (lw : Nat) : Int := 8 * max 0 ((lw : Int) + overhead (s.profileWord x.profile))

/-- Debit an association shaper that is enabled (R344). -/
def debitAssoc (s : State) (i lw : Nat) : State :=
  let x := s.shaper i
  if x.en then s.putShaper i { x with tokens := x.tokens - s.debitBits x lw } else s

/-- Debit the port shaper when it is enabled (R344). -/
def debitPort (s : State) (m lw : Nat) : State :=
  let x := s.portShaper m
  if x.en then s.putPortShaper m { x with tokens := x.tokens - s.debitBits x lw } else s

/-- One refill: the pending setting takes effect, the bucket gains RATE and is clipped; an EN that rises fills it
(R343, R345). -/
def Shaper.refill (x : Shaper) : Shaper :=
  let y : Shaper := { x with data0 := x.next0, data1 := x.next1 }
  { y with tokens := if y.en && !x.en then (y.cap : Int) else min (y.cap : Int) (x.tokens + y.rate) }

/-- The refill of every shaper, port shaper and profile; every 1 µs (R343, R345). -/
def refillOp (s : State) : State :=
  let s := s.modSch (fun c => { c with shapers := (c.shapers.map (fun p => (p.1, p.2.refill))).filter (fun p => p.2 ≠ noShaper) })
  let s := (List.range 64).foldl (fun s m =>
    let x := s.portShaper m
    let w0 := s.rd (Reg.SCH_PORT_SHP0 m)
    let w1 := s.rd (Reg.SCH_PORT_SHP1 m)
    if w0 = 0 ∧ w1 = 0 ∧ x = noShaper then s else s.putPortShaper m ({ x with next0 := w0, next1 := w1 }.refill)) s
  s.modSch (fun c => { c with
    profiles := (List.range 16).foldl (fun m j => mstore 0 j (s.rd (Reg.SCH_PROFILE j)) m) c.profiles })

/-! ### Queues (R340, R341, R346) -/

/-- Frames of a shaper's queue, head first. -/
def State.queueOf (s : State) (i : Nat) : List Frame :=
  s.sch.frames.filter (fun f => decide (f.stage = .queued) && decide (f.queue = some i) && decide (f.kind ≠ .extra))

/-- Frames of a port's default queue. -/
def State.defaultQueue (s : State) (m : Nat) : List Frame :=
  s.sch.frames.filter (fun f => decide (f.stage = .queued) && decide (f.queue = none) && decide (f.m = m) && decide (f.kind ≠ .extra))

/-- The head of a shaper's queue under POLICE is dropped while its bucket holds no bits, and so is every frame that comes to
the head after it (R346). -/
def policeHead (s : State) (i : Nat) : State :=
  let x := s.shaper i
  if x.en && (s.profileWord x.profile).getLsbD 31 && decide (x.tokens ≤ 0) then
    (s.queueOf i).foldl (fun s f => dropFrame s f.id (Reg.SCH_POLICE_DROP f.m)) s
  else s

/-- A frame joins its egress queue, or is dropped (R340, R341, R346). -/
def joinQueue (s : State) (id : Nat) : State :=
  match s.frame? id with
  | none => s
  | some f =>
    match f.assoc.bind (fun a => mget a s.sch.map) with
    | none => (s.modFrame id (fun f => { f with stage := .queued, queue := none })).toEnd id
    | some i =>
      let x := s.shaper i
      let q := s.queueOf i
      let limit := bits (s.profileWord x.profile) 15 0 * 1024
      if x.port ≠ f.m then dropFrame s id (Reg.SCH_MAP_DROP f.m)
      else if limit ≠ 0 ∧ limit < q.foldl (fun a g => a + g.lw) f.lw then dropFrame s id (Reg.SCH_QLIMIT_DROP f.m)
      else
        let s := (s.modFrame id (fun f => { f with stage := .queued, queue := some i })).toEnd id
        if q = [] then policeHead s i else s

/-! ### Departure slots (R348 to R352) -/

/-- Width of the port of egress index m, in lanes. -/
def State.egressWidth (s : State) (m : Nat) : Nat := if m < 32 then s.laneWidth .lnc m else s.laneWidth .lnl (m - 32)

/-- Wire time of lw bytes on port m in ticks of 1.25 ns, rounded up (R348). -/
def State.wireTicks (s : State) (m lw : Nat) : Nat :=
  let w := s.egressWidth m
  if s.korEgress m then (lw * 640 + 10588 * w - 1) / (10588 * w) else ((lw + 20) * 8 + 125 * w - 1) / (125 * w)

/-- The guard band of port m in ticks (R349). -/
def State.guardTicks (s : State) (m : Nat) : Nat :=
  s.wireTicks m (s.clientLimit (m % 32) + (if m < 32 then 0 else 32))

/-- D of port m in ticks: at least 500 ns (R348, R363); a fraction of a tick is dropped (log 32). -/
def State.slotD (s : State) (m : Nat) : Nat := max 500 (s.get (Reg.SCH_PTP_CFG_D_NS m)) * 4 / 5

/-- Slots of a port. -/
def State.slotsOf (s : State) (m : Nat) : List DepSlot := mlook [] m s.sch.slots

/-- Store a port's slots. -/
def State.putSlots (s : State) (m : Nat) (l : List DepSlot) : State := s.modSch (fun c => { c with slots := mstore [] m l c.slots })

/-- Move a start around the slots that it overlaps, to the end of each in turn (R350). -/
def moveAround (l : List DepSlot) (len : Nat) : Nat → Nat → Nat
  | 0, t => t
  | n + 1, t =>
    match l.find? (fun d => decide (t < d.start + d.length) && decide (d.start < t + len)) with
    | some d => moveAround l len n (d.start + d.length)
    | none => t

/-- A missed slot is counted; the event stands for the first of a port after 1 s without one (R351). -/
def countMiss (s : State) (m : Nat) : State :=
  let s := s.inc (Reg.SCH_PTP_MISSED m)
  let (last, s) := burst s s.sch.lastMissed m 0x5001 (some (m % 32))
  s.modSch (fun c => { c with lastMissed := last })

/-- Reserve a departure slot for a frame of lw bytes (R348 to R350): its departure, and whether it holds a slot. -/
def reserveSlot (s : State) (f : Frame) (lw : Nat) : Nat × Bool × State :=
  let m := f.m
  let td := f.ta + s.slotD m
  let now := s.tim.frc.toNat
  let rate := s.get (Reg.SCH_PTP_CFG_SLOT_RATE m)
  let tokens := refillLimiter s.sch.slotTokens m 64 (80 * rate) s.clk
  let len := s.wireTicks m lw
  let t := moveAround (s.slotsOf m) len ((s.slotsOf m).length + 1) td
  if s.flag (Reg.SCH_PTP_CFG_EN m) = true ∧ now + s.guardTicks m ≤ td ∧ rate ≠ 0 ∧ tokenUnit ≤ tokens ∧ t ≤ td + 400 then
    let s := s.modSch (fun c => { c with slotTokens := mput m (Limiter.mk (tokens - tokenUnit) s.clk) c.slotTokens })
    let s := s.inc (Reg.SCH_PTP_SLOTS m)
    let s := if t = td then s else s.inc (Reg.SCH_PTP_PUSHED m)
    (t, true, s.putSlots m (s.slotsOf m ++ [{ frame := f.id, start := t, length := len }]))
  else (td, false, countMiss s m)

/-- A slot is released. -/
def dropSlot (s : State) (m id : Nat) : State := s.putSlots m ((s.slotsOf m).filter (fun d => d.frame ≠ id))

/-- The start of the next slot on port m. -/
def State.nextSlot (s : State) (m : Nat) : Option Nat := listMin ((s.slotsOf m).map (fun d => d.start))

/-- A frame of lw bytes that starts now ends by the next slot (R349). -/
def State.fitsSlot (s : State) (m lw : Nat) : Bool :=
  match s.nextSlot m with
  | some t => decide (s.tim.frc.toNat + s.wireTicks m lw ≤ t)
  | none => true

/-! ### Two-step Syncs that missed (R385) -/

/-- TIM_FU_LOST of a port, and its event (R385, R388). -/
def fuLost (s : State) (m : Nat) : State :=
  let s := s.inc Reg.TIM_FU_LOST
  let (last, s) := burst s s.sch.lastFu m 0x0506 none
  s.modSch (fun c => { c with lastFu := last })

/-- domainNumber, sourcePortIdentity and sequenceId of a PTP frame. -/
def ptpKey (d : List Byte) : Byte × BitVec 80 × BitVec 16 :=
  let h := (parse (d.take 128)).ptpPos
  (d.getD (h + 4) 0, BitVec.ofNat 80 (be (sub d (h + 20) 10)), BitVec.ofNat 16 (be (sub d (h + 30) 2)))

/-- A Sync with twoStepFlag. -/
def twoStepSync (d : List Byte) : Bool := decide (ptpType d = 0) && nbit (byteAt d ((parse (d.take 128)).ptpPos + 6)) 1

/-- An entry has a frame's key on an egress port. -/
def Follow.has (x : Follow) (k : Byte × BitVec 80 × BitVec 16) (m : Nat) : Bool :=
  decide (x.domain = k.1) && decide (x.source = k.2.1) && decide (x.seq = k.2.2) && decide (x.egress = m)

/-- Remove the entry with an order. -/
def dropFollow (s : State) (o : Nat) : State := s.modSch (fun c => { c with follows := c.follows.filter (fun x => x.order ≠ o) })

/-- A pending entry for a two-step Sync that missed: it replaces one of its key, and in a full table the oldest (R385, R387). -/
def addFollow (s : State) (f : Frame) : State :=
  let k := ptpKey f.plain
  let s := match s.sch.follows.find? (fun x => x.has k f.m) with
    | some x => fuLost (dropFollow s x.order) f.m
    | none => match s.sch.follows with
      | x :: _ => if s.sch.follows.length = 64 then fuLost (dropFollow s x.order) x.egress else s
      | [] => s
  let x : Follow := { domain := k.1, source := k.2.1, seq := k.2.2, egress := f.m, ingress := f.n, err := none, order := s.sch.nextFollow }
  s.modSch (fun c => { c with follows := c.follows ++ [x], nextFollow := c.nextFollow + 1 })

/-- A frame's slot is missed: a two-step Sync opens its entry. -/
def markMissed (s : State) (id : Nat) : State :=
  match s.frame? id with
  | some f =>
    let s := s.modFrame id (fun f => { f with missed := true })
    if twoStepSync f.plain then addFollow s f else s
  | none => s

/-- A slot is missed: it is released to other traffic (R351). -/
def missSlot (s : State) (m id : Nat) : State := markMissed (countMiss (dropSlot s m id) m) id

/-! ### The punt path (R226, R227) -/

/-- Punt a frame: the limiters, then admission unless the frame is already held, and delivery in the step (log 31). -/
def puntFrame (s : State) (id reason : Nat) (entry : Option Nat) (bytes : List Byte) (isHeld : Bool) : State :=
  match s.frame? id with
  | none => s
  | some f =>
    let (ok, s) := puntToken s f.n
    if ok = false then
      let s := dropFrame s id (Reg.FLT_PUNT_DROP f.n)
      let (last, s) := burst s s.flt.lastPuntDrop f.n 0x2404 (some (f.n % 32))
      s.modFlt (fun x => { x with lastPuntDrop := last })
    else
      let s := s.inc (Reg.FLT_PUNTED f.n)
      let (ok, s) := if isHeld then (true, s) else takeBuffer s id f.bytes.length (some clsPunt)
      if ok = false then s else releaseFrame (s.emit (.punt f.n reason f.stamp entry bytes)) id 2

/-! ### PTP frames in plaintext (R381 to R385) -/

/-- What becomes of a plaintext frame at the point of R381. -/
inductive PtpGo where
  | go (d : List Byte)    -- it goes on with these bytes
  | hold                  -- a Follow_Up that waits for its Sync
  | gone                  -- punted or dropped
  deriving DecidableEq, Repr

/-- The point of R381 for frame id with plaintext d, without FCS, which will leave with lw bytes: PTP event frames reserve
and are corrected, Pdelay messages in P2P mode end here, and a Follow_Up meets its entry (R348, R382 to R385). The reason
code of a punted Pdelay message is not stated, only that it is none of 0x05 to 0x7F and that 0x01 to 0x04 are others' (R227, log 1). -/
def ptpPoint (s : State) (id : Nat) (d : List Byte) (lw : Nat) : PtpGo × State :=
  let p := parse (d.take 128)
  match s.frame? id with
  | none => (.gone, s)
  | some f =>
    if p.ptpEvent then
      let s := s.modFrame id (fun f => { f with ptpEvent := true, plain := d })
      if s.pdelayStops d then
        if s.ptpHandled f.n then
          let (v, s) := s.draw
          (.gone, puntFrame s id (128 + v.toNat % 128) f.entry d true)
        else (.gone, dropFrame s id Reg.TIM_PDELAY_DROP)
      else
        let (td, held, s) := reserveSlot s f lw
        let s := s.modFrame id (fun f => { f with td := some td, debit := f.assoc.bind (fun a => mget a s.sch.map) })
        let s := if held then s else markMissed s id
        let (d', s) := ptpCorrect s f.n f.m f.ta td d
        (.go d', s)
    else if p.ptpGeneral && decide (ptpType d = 8) then
      match s.sch.follows.find? (fun x => x.has (ptpKey d) f.m && decide (x.ingress = f.n)) with
      | some x => match x.err with
        | some e =>
          let (d', s) := addCorrection s d (s.spanUnits e)
          (.go d', (dropFollow s x.order).inc Reg.TIM_FU_FIXED)
        | none => (.hold, s.modFrame id (fun f => { f with stage := .follow, plain := d }))
      | none => (.go d, s)
    else (.go d, s)

/-- A frame is ready for departure: it waits for its slot, joins its queue, or as a missed frame that cannot be fixed is
dropped (R340, R385). -/
def depart (s : State) (id : Nat) : State :=
  match s.frame? id with
  | none => s
  | some f =>
    if f.td.isSome && !f.missed then (s.modFrame id (fun f => { f with stage := .slotted })).toEnd id
    else if f.missed && !twoStepSync f.plain && !s.flag Reg.TIM_TC_CFG_MISS_SEND then dropFrame s id Reg.TIM_MISS_DROP
    else joinQueue s id

/-! ### Errors of packet memory (R338) -/

/-- An uncorrectable word of packet memory in frame id, at addr (R338): a frame that has not begun to leave is dropped, and
one that is leaving fails its egress check, or as a capsule has its tail voided (R178, R323). -/
def bpmUeOp (id addr : Nat) (s : State) : State :=
  let s := raise0 (s.inc Reg.BPM_UE) 0x4002 addr
  match s.frame? id with
  | none => s
  | some f =>
    if f.stage = .sending then
      let s := s.modFrame id (fun f => { f with memBad := true })
      if s.korEgress f.m then voidTail s f else s
    else
      let s := releaseFrame s id 1
      match f.queue with
      | some i => if f.stage = .queued then policeHead s i else s
      | none => s

/-! ### Histograms (R358, R359) -/

/-- A histogram that has counted nothing (R363). -/
def noHist : Hist := { bins := [], least := 0xFFFFFFFF, most := 0 }

/-- The bin of a residence of t ns (R358). -/
def histBin (log : Bool) (w t : Nat) : Nat := if log then min 31 (Nat.log2 (t / w * 2 + 1)) else min 31 (t / w)

/-- Count a departing frame (R358). -/
def countHist (s : State) (m : Nat) (f : Frame) : State :=
  let c := s.get (Reg.SCH_HIST_CFG_CLASS m)
  let fw := f.fromFw || decide (f.kind ≠ .data)
  if fw || (decide (c = 1) && !f.ptpEvent) || (decide (c = 2) && f.ptpEvent) then s
  else
    let t := (s.spanUnits ((f.txAt : Int) - f.ta) / 65536).toNat
    let w := max 1 (s.get (Reg.SCH_HIST_CFG_WIDTH_NS m))
    let b := histBin (s.flag (Reg.SCH_HIST_CFG_LOG m)) w t
    let h := mlook noHist m s.sch.hist
    let h' : Hist := { bins := mput b (mlook 0 b h.bins + 1) h.bins, least := min h.least t, most := max h.most t }
    s.modSch (fun c => { c with hist := mput m h' c.hist })

/-- SNAP: the live values go to the read bank and are cleared (R359). -/
def histSnapOp (m : Nat) (s : State) : State :=
  let h := mlook noHist m s.sch.hist
  let s := (List.range 32).foldl (fun s i =>
    { s with cnt := { s.cnt with vals := mstore 0 (Reg.SCH_HIST_BIN m i) (mlook 0 i h.bins % 2 ^ 48) s.cnt.vals } }) s
  let s := (s.wr (Reg.SCH_HIST_MIN m) (w32 (min h.least 0xFFFFFFFF))).wr (Reg.SCH_HIST_MAX m) (w32 (min h.most 0xFFFFFFFF))
  s.modSch (fun c => { c with hist := mdel m c.hist })

/-! ### The scheduler's commands (R345, R347, R359, R363) -/

/-- A write of SCH_SHP_CMD (R345, R584); its command completes in the step that starts it (log 24). -/
def shpCmdWrite (val : Word) (s : State) : State :=
  let op := fieldOf Reg.SCH_SHP_CMD_OP val
  startUnlessBusy Reg.SCH_SHP_CMD_BUSY (decide (op = 1) || decide (op = 2)) (fun s =>
    let s := storeReg Reg.SCH_SHP_CMD val s
    let i := fieldOf Reg.SCH_SHP_CMD_INDEX val % 65536
    match op with
    | 1 => s.putShaper i { s.shaper i with next0 := s.rd Reg.SCH_SHP_DATA0, next1 := s.rd Reg.SCH_SHP_DATA1 }
    | 2 => ((s.wr Reg.SCH_SHP_DATA0 (s.shaper i).next0).wr Reg.SCH_SHP_DATA1 (s.shaper i).next1).wr Reg.SCH_SHP_TOKENS
        (BitVec.ofInt 32 (s.shaper i).tokens)
    | _ => s) s

/-- A write of SCH_MAP_CMD (R347, R584); its command completes in the step that starts it (log 24). -/
def mapCmdWrite (val : Word) (s : State) : State :=
  let op := fieldOf Reg.SCH_MAP_CMD_OP val
  startUnlessBusy Reg.SCH_MAP_CMD_BUSY (decide (op = 1) || decide (op = 2)) (fun s =>
    let s := storeReg Reg.SCH_MAP_CMD val s
    let a := fieldOf Reg.SCH_MAP_CMD_INDEX val
    match op with
    | 1 => s.modSch (fun c => { c with
        map := if fieldOf Reg.SCH_MAP_CMD_VALID val = 1 then mput a (s.get Reg.SCH_MAP_DATA_SHAPER) c.map else mdel a c.map })
    | 2 => match mget a s.sch.map with
      | some i => (s.setFlag Reg.SCH_MAP_CMD_VALID true).set Reg.SCH_MAP_DATA_SHAPER i
      | none => (s.setFlag Reg.SCH_MAP_CMD_VALID false).set Reg.SCH_MAP_DATA_SHAPER 0
    | _ => s) s

/-- A write of SCH_HIST_CMD (R359, R584); SNAP completes in the step that starts it (log 24). -/
def histCmdWrite (val : Word) (s : State) : State :=
  let go := decide (fieldOf Reg.SCH_HIST_CMD_SNAP val = 1)
  startUnlessBusy Reg.SCH_HIST_CMD_BUSY go (fun s =>
    let s := storeReg Reg.SCH_HIST_CMD val s
    if go then histSnapOp (fieldOf Reg.SCH_HIST_CMD_PORT val) s else s) s

/-- A write of SCH_PTP_CFG[m]: the slot limiter keeps what it has gained at the rate in force (R350). -/
def ptpCfgWrite (m off : Nat) (val : Word) (s : State) : State :=
  let t := refillLimiter s.sch.slotTokens m 64 (80 * s.get (Reg.SCH_PTP_CFG_SLOT_RATE m)) s.clk
  storeReg off val (s.modSch (fun c => { c with slotTokens := mput m (Limiter.mk t s.clk) c.slotTokens }))

/-- Bytes that the extras bucket of port k holds, in parts of a byte (R354). -/
def State.extraTokens (s : State) (k : Nat) : Nat :=
  refillLimiter s.sch.extras k 16384 (s.get (Reg.SCH_EXTRA_CFG_RATE k) * 100000) s.clk

/-- A write of SCH_EXTRA_CFG[k]: the bucket keeps what it has gained at the rate in force (R354). -/
def extraCfgWrite (k off : Nat) (val : Word) (s : State) : State :=
  storeReg off val (s.modSch (fun c => { c with extras := mput k (Limiter.mk (s.extraTokens k) s.clk) c.extras }))

/-! ### The commands -/

/-- BPM_UE -/
def execBpmUe (frame : Nat) (addr : Word) (s : State) : Host.Outcome State Fault Refusal :=
  .next (live (bpmUeOp frame addr.toNat) s)
/-- SHAPER_REFILL -/
def execShaperRefill (s : State) : Host.Outcome State Fault Refusal := .next (live refillOp s)
/-- SHP_WRITE -/
def execShpWrite (who : Who) (shaper : BitVec 16) (s : State) : Host.Outcome State Fault Refusal :=
  .next (gateOwner who Reg.SCH_SHP_CMD
    (shpCmdWrite (word [(Reg.SCH_SHP_CMD_OP, 1), (Reg.SCH_SHP_CMD_INDEX, shaper.toNat)])) s)
/-- SHP_READ -/
def execShpRead (who : Who) (shaper : BitVec 16) (s : State) : Host.Outcome State Fault Refusal :=
  .next (gateOwner who Reg.SCH_SHP_CMD
    (shpCmdWrite (word [(Reg.SCH_SHP_CMD_OP, 2), (Reg.SCH_SHP_CMD_INDEX, shaper.toNat)])) s)
/-- MAP_WRITE -/
def execMapWrite (who : Who) (valid : Bool) (a : BitVec 20) (s : State) : Host.Outcome State Fault Refusal :=
  .next (gateOwner who Reg.SCH_MAP_CMD (mapCmdWrite (word [(Reg.SCH_MAP_CMD_OP, 1), (Reg.SCH_MAP_CMD_VALID, b2n valid),
    (Reg.SCH_MAP_CMD_INDEX, a.toNat)])) s)
/-- MAP_READ -/
def execMapRead (who : Who) (a : BitVec 20) (s : State) : Host.Outcome State Fault Refusal :=
  .next (gateOwner who Reg.SCH_MAP_CMD (mapCmdWrite (word [(Reg.SCH_MAP_CMD_OP, 2), (Reg.SCH_MAP_CMD_INDEX, a.toNat)])) s)
/-- HIST_SNAP -/
def execHistSnap (who : Who) (m : Fin 64) (s : State) : Host.Outcome State Fault Refusal :=
  .next (gateOwner who Reg.SCH_HIST_CMD (histCmdWrite (word [(Reg.SCH_HIST_CMD_SNAP, 1), (Reg.SCH_HIST_CMD_PORT, m)])) s)

end Sys2Proof.Machine
end

