-- ==== Sys2Proof/Machine/Datapath.lean ====
section
/-! DEFINITION. The walk of a frame (01, 06 to 09): lookup and action (R223 to R225), residence and packet number (R254 to R263),
the farm's return (R312, R313), the splicer's release (R314), cut-through (R319 to R322), and departure (R337, R342). -/

namespace Sys2Proof.Machine

/-! ### Into the farm -/

/-- A frame enters the farm (R302, R304). -/
def enterFarm (s : State) (id : Nat) : State :=
  match s.frame? id with
  | none => s
  | some f =>
    let n := (frameJob s f).slices
    dealAll (s.modFrame id (fun f => { f with stage := .farm, slices := n, returned := [], parts := [], tagOk := none }))

/-- Go on after the point of R381 in the encrypt direction: the corrected client frame enters the farm. -/
def encGo (s : State) (id : Nat) (d : List Byte) : State :=
  enterFarm (s.modFrame id (fun f => { f with bytes := d ++ fcsBytes d })) id

/-- Bytes of a client frame of L bytes as they leave line port m under a record (R142, R174). -/
def lineLength (s : State) (r : Rec) (m l : Nat) : Nat := if s.korEgress m then l + 32 else l + 16 + (if r.scIncl then 16 else 8)

/-- Raise an event once for an association, by the list that remembers it. -/
def onceFor (s : State) (seen : List Nat) (a ev : Nat) : State := if seen.contains a then s else raise0 s ev a

/-- Assign the next packet number of resident association a (R14, R15, R259 to R262), in a role that forwards (R490). -/
def assignPn (s : State) (id a : Nat) : State :=
  let r := s.asRec a
  if s.forwarding = false then dropFrame s id Reg.FAB_STANDBY_DROP
  else if r.top < r.pn then
    let s := onceFor s s.asc.exhausted a 0x2802
    dropPn (s.modAsc (fun x => { x with exhausted := ladd a x.exhausted })) id a
  else if r.reel ≤ r.pn then
    let s := onceFor s s.asc.stalled a 0x2803
    dropPn (s.modAsc (fun x => { x with stalled := ladd a x.stalled })) id a
  else
    let s := touch (s.modLive a (fun r => { r with pn := r.pn + 1 })) a
    let s := s.modFrame id (fun f => { f with assoc := some a, slot := (s.slotOf a).map (fun p => p.1), pn := r.pn, stage := .farm })
    let s := requestReel (rekeyCheck ((s.mark id 4).mark id 5) a) a
    match s.frame? id with
    | none => s
    | some f =>
      match ptpPoint (s.toEnd id) id (noFcs f.bytes) (lineLength s r f.m f.bytes.length) with
      | (.go d, s) => encGo s id d
      | (.hold, s) => s
      | (.gone, s) => s

/-- Encrypt, steps 6 and 7: the association the frame uses now, or the drop or the wait that R251, R252 and R254 give. A frame behind
which none of its association waits passes. -/
def encAssoc (s : State) (id a : Nat) : State :=
  match s.frame? id with
  | none => s
  | some f =>
    let s := match s.follows a with
      | some b => if s.ready b then pnTrigger s b else s
      | none => s
    match s.follows a with
    | none => dropState s id a
    | some b =>
      let r := s.asRec b
      if r.rx ∨ s.fitsPort r (f.m - 32) = false ∨ s.asc.faulty.contains b = true then dropState s id b
      else if s.ready b = false ∨ s.parkedAhead b id = true then park s id b
      else assignPn s id b

/-- The privileged class of a frame on its way to an egress port, if it has one (R336). -/
def Frame.privileged (f : Frame) : Option Nat := if f.fromFw then some clsMgmt else if f.ptpEvent then some clsPtp else none

/-- Encrypt PROTECT (R16, R245, R333): admission first, then the association. -/
def protectEnc (s : State) (id a : Nat) : State :=
  match s.frame? id with
  | none => s
  | some f =>
    let (ok, s) := takeBuffer s id (f.bytes.length + 32) f.privileged
    if ok = false then s
    else if s.asc.size ≤ a then dropFrame s id Reg.ASC_DROP_INDEX
    else encAssoc s id a

/-- The E and C bits of a received SecTAG fit the record's OFFSET (R308). -/
def tciFits (r : Rec) (fr : List Byte) : Bool :=
  let ec := byteAt fr 14 / 4 % 4
  if r.offset = 3 then decide (ec = 0) else decide (ec = 3)

/-- Count a failed tag or a mismatched TCI in the record (R308, R313). -/
def countTagFail (s : State) (a : Nat) : State := s.modLive a (fun r => { r with tagFail := (r.tagFail + 1) % 2 ^ 48 })

/-- Decrypt with a resident association: the preliminary replay check, admission and the farm (R273, R308, R333). -/
def decResident (s : State) (id a : Nat) : State :=
  match s.frame? id with
  | none => s
  | some f =>
    let r := s.asRec a
    let p := rxPn s r f
    let s := touch s a
    let s := s.modFrame id (fun f => { f with assoc := some a, slot := (s.slotOf a).map (fun q => q.1), pn := p, stage := .farm })
    let j := judge r p false
    if j = .dup ∨ j = .old then replayDrop s id a j
    else
      let s := (s.mark id 4).mark id 5
      let (ok, s) := takeBuffer s id f.bytes.length none
      if ok = false then s
      else if r.isKor = false ∧ tciFits r f.bytes = false then
        dropFrame (countTagFail s a) id (Reg.FRM_TCI_MISMATCH (f.n % 32))
      else enterFarm (s.toEnd id) id

/-- Decrypt, step 3: residence of the association (R251, R252, R254, R256). -/
def decAssoc (s : State) (id a : Nat) : State :=
  match s.frame? id with
  | none => s
  | some f =>
    let r := s.asRec a
    if r.state ≠ .live ∨ r.rx = false ∨ s.fitsPort r (f.n - 32) = false ∨ s.asc.faulty.contains a = true then dropState s id a
    else if s.ready a = false ∨ s.parkedAhead a id = true then park s id a
    else decResident s id a

/-- Decrypt PROTECT. -/
def protectDec (s : State) (id a : Nat) : State :=
  if s.asc.size ≤ a then dropFrame s id Reg.ASC_DROP_INDEX else decAssoc s id a

/-- BYPASS (R225): admission, the transparent clock's correction of a marked frame, and departure with a fresh FCS. -/
def bypassFrame (s : State) (id : Nat) : State :=
  match s.frame? id with
  | none => s
  | some f =>
    if f.m < 32 ∧ s.clientLimit f.m < f.bytes.length then admitDrop s id f.owner
    else
      let (ok, s) := takeBuffer s id f.bytes.length f.privileged
      if ok = false then s
      else match ptpPoint s id (noFcs f.bytes) f.bytes.length with
        | (.go d, s) => depart (s.modFrame id (fun f => { f with bytes := d ++ fcsBytes d })) id
        | (.hold, s) => s
        | (.gone, s) => s

/-! ### Lookup (R223 to R225) -/

/-- Client frame length for turnstiles (R139, R228): LENGTH - 28 of a capsule. -/
def policedLength (s : State) (f : Frame) : Nat := if s.isCapsule f then f.bytes.length - 32 else f.bytes.length

/-- The turnstile at step 9: its verdict, none named passing (R215, R223, R224). -/
def turnstileStep (s : State) (f : Frame) (t : Option Nat) : Bool × State :=
  match t with
  | some i => police s (s.get (Reg.FLT_PORT_CFG_TS_BASE f.n) * 1024 + i) (policedLength s f)
  | none => (true, s)

/-- Steps 1 and 3: the default action (R224). -/
def defaultAction (s : State) (f : Frame) (reason ctr : Nat) : State :=
  let s := s.inc ctr
  if s.get (Reg.FLT_PORT_CFG_DEFAULT f.n) = 0 then dropFrame s f.id (Reg.FLT_DEFAULT_DROP f.n)
  else
    let (ok, s) := turnstileStep s f (if s.flag (Reg.FLT_PORT_CFG_MISS_TS f.n) then some 0 else none)
    if ok then puntFrame s f.id reason none f.bytes false else dropFrame s f.id (Reg.FLT_TS_DROP f.n)

/-- Steps 6 to 11 for a matching entry with result res (R215, R223, R225). -/
def entryAction (s : State) (f : Frame) (i : Nat) (res : Word) : State :=
  let act := bits res 31 30
  let s := s.modFrame f.id (fun f => { f with action := BitVec.ofNat 2 act })
  let clear := (profileOf s f).2
  let ts := bits res 9 0
  if (act = 1 ∧ clear = true) ∨ (act = 2 ∧ s.isKorone (f.n % 32) = true) then dropFrame s f.id (Reg.FLT_ACTION_INVALID f.n)
  else if act = 2 ∧ s.flag (Reg.FLT_PORT_CFG_BYPASS_OK f.n) = false then dropFrame s f.id (Reg.FLT_BYPASS_DENIED f.n)
  else if act = 0 then dropFrame s f.id (Reg.FLT_DROP_ACTION f.n)
  else
    let (ok, s) := turnstileStep s f (if ts = 0 then none else some ts)
    if ok = false then dropFrame s f.id (Reg.FLT_TS_DROP f.n)
    else if act = 3 then puntFrame s f.id (bits res 29 22) (some i) f.bytes false
    else if act = 2 then bypassFrame (s.inc (Reg.FLT_BYPASS_PASSED f.n)) f.id
    else
      let a := bits res 29 10
      let s := s.modFrame f.id (fun f => { f with named := some a })
      match f.dir with
      | .enc => protectEnc s f.id a
      | .dec => protectDec s f.id a

/-- One lookup: the frame at the head of index n's lookup queue (R205, R207, R218, R223). -/
def lookupOp (n : Nat) (s : State) : State :=
  match s.sch.frames.find? (fun f => decide (f.stage = .lookup) && decide (f.n = n)) with
  | none => s
  | some f =>
    let p := parse (parseBytes f.bytes)
    let marks := !s.isCapsule f
    let f := { f with ptpEvent := marks && p.ptpEvent, ptpGeneral := marks && p.ptpGeneral }
    let s := (s.modFrame f.id (fun g => { g with ptpEvent := f.ptpEvent, ptpGeneral := f.ptpGeneral })).mark f.id 2
    let q := (profileOf s f).1
    match frameKey s f with
    | none => defaultAction s f 2 (Reg.FLT_PARSE_FAIL n)
    | some k =>
      let s := s.inc (Reg.FLT_LOOKUPS n)
      match findKey s q (s.flag (Reg.PRS_PROF_CFG_WIDE q)) k with
      | none => defaultAction s f 1 (Reg.FLT_MISSES n)
      | some i =>
        if s.entryBad i then entryUe (dropFrame s f.id (Reg.FLT_ENTRY_UE n)) i
        else
          let e := s.entry i
          let s := s.modFlt (fun t => { t with entries := mput i { e with hit := true } t.entries })
          let s := (s.modFrame f.id (fun f => { f with entry := some i })).inc (Reg.FLT_HITS_COUNT n)
          if (s.ccGroup (i / 64)).quarantined then puntFrame (s.inc (Reg.FLT_QUARANTINE_PUNT n)) f.id 3 (some i) f.bytes false
          else entryAction s f i e.result

/-! ### Page-ins and marks (R254, R264, R284) -/

/-- Let an association's parked frames go on, each from where it waited and in their order; one that must wait on for a successor keeps
its place (R256, R284). -/
def unpark (s : State) (a : Nat) : State :=
  (s.parked a).foldl (fun s id =>
    match s.frame? id with
    | none => s
    | some f =>
      let s := match f.dir with
        | .enc => encAssoc s id (f.named.getD a)
        | .dec => decAssoc s id (f.named.getD a)
      if (s.frame? id).any (fun g => g.stage = .missq) then s
      else s.modAsc (fun x => { x with missq := x.missq.filter (fun y => y ≠ id) })) s

/-- Release what waited for residence once it is there; then what waited behind it for its successor (R256). -/
def settleReady (s : State) (a : Nat) : State :=
  let s := if s.ready a then unpark s a else s
  match s.follows a with
  | some b => if b ≠ a ∧ s.ready b = true then unpark s b else s
  | none => s

/-- A page-in of association a has failed: its frames are dropped, but for those that a successor takes now (R251, R254, R284). -/
def failParked (s : State) (a : Nat) : State :=
  match s.follows a with
  | some b => if b = a then flushParked s a else settleReady (unpark s a) a
  | none => flushParked s a

/-- A page-in ends (R254, R417): a failed read or unwrap drops the parked frames. -/
def pageInOp (a : Nat) (ecc : Ecc) (s : State) : State :=
  if s.asc.paging.contains a = false then s
  else match ecc with
    | .ueTree => raise0 (haltRec s 0x6002 0 0) 0x6002 0
    | .ueData =>
      let s := raise0 (s.inc Reg.MGD_UE_DATA_COUNT) 0x6005 0
      let s := s.modAsc (fun x => { x with paging := ldel a x.paging })
      failParked (raise0 (pushFault s a) 0x2806 a) a
    | .good | .correctable =>
      let (failed, s) := pageIn (dealUnwrap s) a
      if failed then failParked s a else settleReady s a

/-! ### The splicer (R312 to R316) -/

/-- Frames of association a that stand before frame id and are not yet released or dropped (R314). -/
def State.earlier (s : State) (a id : Nat) : List Frame :=
  (s.sch.frames.takeWhile (fun f => f.id ≠ id)).filter (fun f => decide (f.assoc = some a) &&
    match f.stage with
    | .farm => true | .lease => true | .follow => true
    | .lookup => false | .missq => false | .queued => false | .slotted => false | .sending => false | .ended => false)

/-- Every slice has returned and the tag is formed or has verified; no comparison and no verdict is waited for. -/
def State.releasable (s : State) (f : Frame) : Bool :=
  decide (f.stage = .farm) && decide (f.tagOk = some true) && decide (f.sampled = 0) && !(f.gated && s.pendingKey f)

/-- Count a frame protected or delivered in its record (R246). -/
def countFrame (s : State) (a octets : Nat) : State :=
  s.modLive a (fun r => { r with frames := (r.frames + 1) % 2 ^ 48, octets := (r.octets + octets) % 2 ^ 48 })

/-- Deliver a verified client frame: the point of R381, then departure with a fresh FCS. -/
def deliver (s : State) (id a : Nat) : State :=
  match s.frame? id with
  | none => s
  | some f =>
    let s := countFrame s a (f.plain.length + 4)
    match ptpPoint s id f.plain (f.plain.length + 4) with
    | (.go d, s) => depart ((s.modFrame id (fun f => { f with bytes := d ++ fcsBytes d })).mark id 10) id
    | (.hold, s) => s
    | (.gone, s) => s

/-- The mark that a frame beyond the lease asks for: that of the highest number among the verified frames that are held (R263). -/
def State.heldMark (s : State) (a : Nat) (f : Frame) : Nat :=
  (s.sch.frames.foldl (fun n g =>
    if g.assoc = some a ∧ (g.stage = .lease ∨ (g.stage = .farm ∧ g.tagOk = some true)) then max n g.pn else n) f.pn) / reelSize * reelSize

/-- The final replay check of a verified frame, and its lease (R263, R271, R273). -/
def finalCheck (s : State) (f : Frame) (a : Nat) : State :=
  let beyond := fun (s : State) => decide ((s.asRec a).reel + reelSize ≤ f.pn)
  let s := if beyond s && (mget a s.asc.persists).isNone then startPersist s a (s.heldMark a f) none else s
  if beyond s then s.modFrame f.id (fun f => { f with stage := .lease })
  else
    let s := s.modFrame f.id (fun f => { f with stage := .farm })
    let j := judge (s.asRec a) f.pn (s.claimed a f.pn)
    if j = .dup ∨ j = .old then replayDrop s f.id a j
    else
      let s := if j = .dupDelivered then replayDrop s f.id a j else s
      let s := rxVerified (touch (s.modLive a (fun r => r.accept f.pn)) a) a
      deliver s f.id a

/-- Release one frame whose conditions hold (R314). Of two frames of one number in flight, the one that is earlier in order is checked
first, whichever verified first: R18 lets the first to verify be delivered, R314 releases in order (DESIGN CHOICE, log 85). -/
def releaseOne (s : State) (id : Nat) : State :=
  match s.frame? id with
  | none => s
  | some f =>
    match f.assoc with
    | none => s
    | some a =>
      if (s.releasable f || decide (f.stage = .lease)) && decide (s.earlier a id = []) then
        let s := s.mark id 9
        match f.dir with
        | .enc =>
          let s := (countFrame s a (f.plain.length + 4)).mark id 10
          if f.kind = .extra then s.modFrame id (fun f => { f with stage := .queued }) else depart s id
        | .dec => finalCheck s f a
      else s

/-- SPLICER_RELEASE; a released frame gives its tracker entry to one that waits. -/
def splicerReleaseOp (id : Nat) (s : State) : State := dealAll (releaseOne s id)

/-- A persist of association a has completed: recovery is over and parked frames go on, and held receive frames are checked
and released in order (R263, R267). -/
def afterPersist (s : State) (a : Nat) : State :=
  if (mget a s.asc.persists).isSome then s
  else
    let s := if (s.slotOf a).isSome ∧ (s.asRec a).session = s.session then
        settleReady (s.modAsc (fun x => { x with paging := ldel a x.paging })) a else s
    let ids := s.framesWhere (fun f => decide (f.assoc = some a) && (decide (f.stage = .lease) || decide (f.stage = .farm)))
    if s.sch.frames.any (fun f => decide (f.assoc = some a) && decide (f.stage = .lease)) then
      dealAll (ids.foldl (fun s id => releaseOne s id) s)
    else s

/-- MARK_PERSISTED: the guard reports the write of a mark entry complete (R264). -/
def markPersistedOp (a : Nat) (s : State) : State := afterPersist (markWritten s a) a

/-! ### Slices return (R312, R313, R320, R322, R324) -/

/-- The verdict of a cut-through frame: its provisional claim becomes an acceptance or is withdrawn (R320, R322). One that
its port has already ended is not counted as delivered, and is forgotten now. -/
def cutVerdict (s : State) (f : Frame) (a : Nat) (ok : Bool) : State :=
  let s := s.modAsc (fun x => { x with claims := x.claims.erase (a, f.pn) })
  let gone := decide (f.stage = .ended)
  let s := if ok then
      (let s := touch (s.modLive a (fun r => r.accept f.pn)) a
       rxVerified (if gone then s else countFrame s a (f.plain.length + 4)) a)
    else ((countTagFail s a).inc (Reg.FRM_TAG_FAIL (f.n % 32))).modFrame f.id (fun f => { f with failed := true })
  if gone then forgetFrame s f.id else s

/-- Every slice has returned and no comparison is waited for: the tag is formed or checked (R312, R313). -/
def finishFrame (s : State) (id : Nat) : State :=
  match s.frame? id with
  | none => s
  | some f =>
    match f.assoc with
    | none => s
    | some a =>
      if f.returned.length < f.slices ∨ f.sampled ≠ 0 ∨ f.tagOk.isSome = true then s
      else
        let s := (s.mark id 7).mark id 8
        match f.dir with
        | .enc =>
          let out := protectFrame s f
          s.modFrame id (fun g => { g with plain := noFcs f.bytes, bytes := out, crc := crc32 out, tagOk := some true })
        | .dec =>
          let (d, ok) := openFrame s f
          if f.cut then cutVerdict (s.modFrame id (fun g => { g with tagOk := some ok })) f a ok
          else if ok then s.modFrame id (fun g => { g with plain := d, crc := crc32 d, tagOk := some true })
          else dropFrame (countTagFail s a) id (Reg.FRM_TAG_FAIL (f.n % 32))

/-- The core that has slice i of a frame at the head of its queue. -/
def State.sliceCore (s : State) (id i : Nat) : Option Nat :=
  (s.frm.cores.find? (fun p => p.2.queue.head? = some (id, i))).map (fun p => p.1)

/-- A core has worked on its slice of a frame: the splicer takes what it returns, and the block operations are counted (R41, R312). -/
def takeSlice (s : State) (f : Frame) (c i : Nat) : State :=
  let j := frameJob s f
  let o := (s.core c).slice (s.asRec (f.assoc.getD 0)).key256 j i
  let s := s.modCore c (fun _ => o.2)
  let s := s.bump (match f.dir with | .enc => Reg.FRM_OPS_ENC | .dec => Reg.FRM_OPS_DEC) (j.counters i).length
  s.modFrame f.id (fun f => { f with returned := ladd i f.returned, parts := mput i o.1 f.parts })

/-- A core returns the slice at the head of its queue (R312); it goes on with the next, or holds nothing (R295). -/
def sliceDoneOp (id i : Nat) (s : State) : State :=
  match s.sliceCore id i with
  | none => s
  | some c =>
    let s := match s.frame? id with
      | some f => takeSlice s f c i
      | none => s
    let s := settleCore (s.modCore c (fun x => { x with queue := x.queue.drop 1 })) c
    dealAll (finishFrame s id)

/-- The comparison of a sampled slice ends (R324): a mismatch drops the frame and takes both cores out for a test. -/
def dupCheckOp (id : Nat) (same : Bool) (a b : Nat) (s : State) : State :=
  match s.frame? id with
  | none => s
  | some f =>
    if f.sampled = 0 then s
    else if same then finishFrame (s.modFrame id (fun f => { f with sampled := f.sampled - 1 })) id
    else
      let s := dropFrame (s.inc Reg.FRM_CHECK_MISMATCH) id (Reg.FRM_CHECK_DROP (f.n % 32))
      let s := coreOut (coreOut s a) b
      let s := s.modFrm (fun x => { x with kat := ladd b (ladd a x.kat) })
      dealAll (raise s 0x3001 a b none)

/-! ### Cut-through (R319 to R322) -/

/-- Length of the client frame that a decrypt-direction frame carries, its FCS included. -/
def clientLength (r : Rec) (f : Frame) : Nat := if r.isKor then f.bytes.length - 32 else f.bytes.length - 16 - secTagLen f.bytes

/-- A frame qualifies for release before its verdict (R319); the window and the lease as they now stand decide (R263). A PTP event frame
qualifies like any other: R17 and R381 want its correction before release, R19 releases before the verdict, and a frame released so
has no slot and no correction (DESIGN CHOICE, log 86). -/
def State.cutOk (s : State) (f : Frame) (a : Nat) : Bool :=
  let r := s.asRec a
  decide (f.dir = .dec) && decide (f.stage = .farm) && s.flag (Reg.FRM_PORT_CFG_CUT_THROUGH (f.n % 32)) &&
    decide (1024 < clientLength r f) && !f.gated && !s.pendingKey f && !f.picked && decide (f.tagOk = none) &&
    decide (s.earlier a f.id = []) &&
    !s.sch.frames.any (fun g => decide (g.assoc = some a) && g.cut && decide (g.tagOk = none)) &&
    decide (f.pn < r.reel + reelSize) &&
    match judge r f.pn (s.claimed a f.pn) with
    | .accept => true | .dupDelivered => true | .dup => false | .old => false

/-- CUT_RELEASE: the frame's slices go to the client port while the farm still works on it. -/
def cutReleaseOp (id : Nat) (s : State) : State :=
  match s.frame? id with
  | none => s
  | some f =>
    match f.assoc with
    | none => s
    | some a =>
      if s.cutOk f a = false then s
      else
        let d := (openWith s f (foretold s f)).1
        let s := (s.inc (Reg.FRM_CUT_RELEASED (f.n % 32))).mark id 10
        let s := s.modAsc (fun x => { x with claims := x.claims ++ [(a, f.pn)] })
        joinQueue (s.modFrame id (fun f => { f with cut := true, plain := d })) id

/-- CUT_UNDERRUN: a slice of a leaving cut-through frame is not complete when its first byte is due (R322). -/
def cutUnderrunOp (id : Nat) (s : State) : State :=
  match s.frame? id with
  | none => s
  | some f =>
    if f.cut = true ∧ f.stage = .sending ∧ f.returned.length < f.slices then
      (s.inc (Reg.FRM_CUT_UNDERRUN (f.n % 32))).modFrame id (fun f => { f with failed := true })
    else s

/-! ### Departure (R342, R352, R385) -/

/-- A held Follow_Up goes on: its correction is e of its Sync, when there is one (R385). -/
def resumeFollow (s : State) (id : Nat) (e : Option Int) : State :=
  match s.frame? id with
  | none => s
  | some f =>
    if f.stage ≠ .follow then s
    else
      let (d, s) := match e with
        | some x => addCorrection s f.plain (s.spanUnits x)
        | none => (f.plain, s)
      match f.dir, f.assoc with
      | .enc, some _ => encGo s id d
      | _, _ => depart ((s.modFrame id (fun f => { f with bytes := d ++ fcsBytes d })).mark id 10) id

/-- The held Follow_Up of an entry. -/
def State.heldFollow (s : State) (x : Follow) : Option Frame :=
  s.sch.frames.find? (fun f => decide (f.stage = .follow) && x.has (ptpKey f.plain) f.m && decide (f.n = x.ingress))

/-- A missed Sync departs at tick t_x: e is fixed, and a Follow_Up that waits for it goes on (R385). -/
def syncDeparts (s : State) (f : Frame) : State :=
  match f.td with
  | none => s
  | some td =>
    if f.missed && twoStepSync f.plain then
      match s.sch.follows.find? (fun x => x.has (ptpKey f.plain) f.m && x.err.isNone) with
      | none => s
      | some x =>
        let e : Int := (s.tim.frc.toNat : Int) - td
        match s.heldFollow x with
        | some g => resumeFollow ((dropFollow s x.order).inc Reg.TIM_FU_FIXED) g.id (some e)
        | none => s.modSch (fun c => { c with follows := c.follows.map (fun y => if y.order = x.order then { y with err := some e } else y) })
    else if f.missed then s.inc Reg.TIM_MISS_SENT else s

/-- The frames queued in shapers' queues. -/
def queuesOf (fs : List Frame) : List Nat := (fs.filterMap (fun g => g.queue)).eraseDups

/-- Frames of the same association still queued before a slotted frame that starts are dropped (R352); what comes to the head of their
queues by that meets POLICE (R346). -/
def orderDrops (s : State) (f : Frame) : State :=
  match f.assoc with
  | none => s
  | some a =>
    let old := (s.sch.frames.takeWhile (fun g => g.id ≠ f.id)).filter (fun g => decide (g.assoc = some a) &&
      decide (g.stage = .queued) && decide (g.m = f.m) && decide (g.kind ≠ .extra))
    if old = [] then s
    else
      let s := dropAll s (old.map (fun g => g.id)) (Reg.SCH_ORDER_DROP f.m)
      let (last, s) := burst s s.sch.lastOrder f.m 0x5003 (some (f.m % 32))
      (queuesOf old).foldl policeHead (s.modSch (fun c => { c with lastOrder := last }))

/-- Extras of the association of a frame that starts, with packet numbers before its own, which wait in the port's staging memory: they
are discarded, for R26 sends an association in the order of its numbers and R360 lets the frame go first (DESIGN CHOICE, log 89). -/
def passExtras (s : State) (f : Frame) : State :=
  if f.kind = .extra ∨ f.assoc = none then s
  else (s.framesWhere (fun g => decide (g.kind = .extra) && decide (g.stage = .queued) && decide (g.m = f.m) && decide (g.assoc = f.assoc) &&
    decide (g.pn < f.pn))).foldl (fun s id => releaseFrame s id 1) s

/-- A frame starts to leave port m (R342, R344, R352). -/
def startFrame (s : State) (m : Nat) (f : Frame) : State :=
  let slotted := decide (f.stage = .slotted)
  let s := passExtras (if slotted then orderDrops s f else s) f
  let s := match (if slotted then f.debit else f.queue) with
    | some i => debitAssoc s i f.lw
    | none => s
  let s := debitPort s m f.lw
  let s := s.modFrame f.id (fun f => { f with stage := .sending, txAt := s.tim.frc.toNat })
  let s := s.modSch (fun c => { c with sending := mput m f.id c.sending })
  let s := ((dropSlot s m f.id).mark f.id 11).mark f.id 12
  let s := syncDeparts s f
  match f.queue with
  | some i => if slotted then s else policeHead s i
  | none => s

/-- The heads of the queues of port m, each with its queue's number: a shaper, or 65536 for the default queue. -/
def State.heads (s : State) (m : Nat) : List (Nat × Frame) :=
  let q := s.sch.frames.filter (fun f => decide (f.stage = .queued) && decide (f.m = m) && decide (f.kind ≠ .extra))
  q.foldl (fun hs f => let i := f.queue.getD 65536; if hs.any (fun h => h.1 = i) then hs else hs ++ [(i, f)]) []

/-- An earlier frame of the same association waits for its slot on port m, so that a frame behind it may not start (R26, R27). -/
def State.behindSlot (s : State) (m : Nat) (f : Frame) : Bool :=
  f.assoc.isSome && (s.sch.frames.takeWhile (fun g => g.id ≠ f.id)).any (fun g => decide (g.assoc = f.assoc) &&
    decide (g.stage = .slotted) && decide (g.m = m))

/-- A queue is eligible (R342, R344, R349). -/
def State.eligible (s : State) (m : Nat) (h : Nat × Frame) : Bool :=
  let x := s.shaper h.1
  let p := s.portShaper m
  (decide (h.1 = 65536) || !x.en || decide (0 < x.tokens)) && (!p.en || decide (0 < p.tokens)) && s.fitsSlot m h.2.lw &&
    !s.behindSlot m h.2

/-- The byte deficit of a queue of port m. -/
def State.deficit (s : State) (m i : Nat) : Nat := mlook 0 (m * 131072 + i) s.sch.deficits

/-- The queue that the round robin serves: the one served last while its deficit lasts, else the next in turn (R342). -/
def drrPick (s : State) (m : Nat) : Option (Nat × Frame) × State :=
  let hs := (s.heads m).filter (s.eligible m)
  let cur := mlook 65536 m s.sch.turn
  match hs.find? (fun h => decide (h.1 = cur) && decide (h.2.lw ≤ s.deficit m cur)) with
  | some h => (some h, s.modSch (fun c => { c with deficits := mstore 0 (m * 131072 + cur) (s.deficit m cur - h.2.lw) c.deficits }))
  | none =>
    let dist := fun (i : Nat) => (i + 65536 - cur) % 65537
    match hs.foldl (fun (b : Option (Nat × Frame)) h => match b with
      | none => some h
      | some x => if dist h.1 < dist x.1 then some h else some x) none with
    | none => (none, s)
    | some h =>
      let d := s.deficit m h.1 + 9728 - h.2.lw
      (some h, s.modSch (fun c => { c with turn := mstore 65536 m h.1 c.turn, deficits := mstore 0 (m * 131072 + h.1) d c.deficits }))

/-- A queue that the frame just started leaves empty keeps no deficit. -/
def clearDeficit (s : State) (m i : Nat) : State :=
  if (s.heads m).any (fun h => h.1 = i) then s else s.modSch (fun c => { c with deficits := mdel (m * 131072 + i) c.deficits })

/-! ### Extras (R354 to R357) -/

/-- The cover association that port k can use (R356): SWITCHED ones are followed one step. -/
def State.cover (s : State) (k : Nat) : Option Nat :=
  if s.flag (Reg.SCH_EXTRA_ASSOC_VALID k) then
    match s.follows (s.get (Reg.SCH_EXTRA_ASSOC_ASSOC k)) with
    | some a => if !(s.asRec a).rx && s.fitsPort (s.asRec a) k then some a else none
    | none => none
  else none


/-- Send a prepared extra. -/
def sendExtra (s : State) (k : Nat) (f : Frame) : State :=
  let s := if s.get (Reg.SCH_EXTRA_CFG_RATE k) = 0 then s
    else s.modSch (fun c => { c with extras := mput k (Limiter.mk (s.extraTokens k - f.lw * tokenUnit) s.clk) c.extras })
  startFrame s (32 + k) f

/-- Prepare an extra: a synthetic client frame of random length under the cover association, which enters the farm behind
every protected frame (R43, R304, R355). -/
def prepareExtra (s : State) (k a : Nat) : State :=
  if s.ready a = false ∨ (s.nextSlice .enc).isSome = true ∨ (s.nextCore .enc).isNone = true then s
  else
    let hi := max 64 (min 9216 (s.get (Reg.SCH_EXTRA_LEN_LEN_MAX k)))
    let lo := min hi (max 64 (min 9216 (s.get (Reg.SCH_EXTRA_LEN_LEN_MIN k))))
    let (v, s) := s.draw
    let l := lo + v.toNat % (hi - lo + 1)
    let d := wordBytes (s.rds (Reg.SCH_EXTRA_MAC k 0) 3) ++ [0x88, 0xB5] ++ List.replicate (l - 18) 0
    let f := { newFrame s .extra .enc k (32 + k) (d ++ fcsBytes d) with id := s.sch.nextId }
    assignPn (s.addFrame f) f.id a

/-- Traffic of the device's own may leave: no pair role and no power state stops it (R490, R508). -/
def State.maySend (s : State) : Bool := s.forwarding && s.admissionOpen

/-- A prepared extra may be sent: the port has a cover association, or the extra's own is being retired (R356). -/
def State.extraGoes (s : State) (k : Nat) (f : Frame) : Bool :=
  (decide (s.get (Reg.SCH_EXTRA_CFG_MODE k) = 1) && (s.cover k).isSome) || f.assoc.any (fun a => decide ((s.asRec a).state = .retiring))

/-- The extra at the head of port k's staging memory is sent where the port shaper and the bucket allow it; one that does not fit before
the next slot is discarded (R354, R360). R354 does not say how many tokens a frame needs: all of its bytes (DESIGN CHOICE, log 89). -/
def offerExtra (s : State) (k : Nat) : State :=
  let p := s.portShaper (32 + k)
  match s.sch.frames.find? (fun f => decide (f.kind = .extra) && decide (f.m = 32 + k) && decide (f.stage = .queued) && s.extraGoes k f) with
  | some f =>
    if s.fitsSlot (32 + k) f.lw = false then releaseFrame s f.id 1
    else if (!p.en || decide (0 < p.tokens)) &&
        (decide (s.get (Reg.SCH_EXTRA_CFG_RATE k) = 0) || decide (f.lw * tokenUnit ≤ s.extraTokens k)) then sendExtra s k f
    else s
  | none => s

/-- An idle line port sends an extra, or in FILL prepares one; at most two are prepared (R354, R356). -/
def extraStep (s : State) (m : Nat) : State :=
  let k := m - 32
  if m < 32 ∨ s.isStream k = true ∨ s.maySend = false then s
  else if s.get (Reg.SCH_EXTRA_CFG_MODE k) ≠ 1 then offerExtra s k
  else match s.cover k with
    | none =>
      let s := offerExtra s k
      if s.sch.extraStopped.contains k then s
      else raise (s.modSch (fun c => { c with extraStopped := ladd k c.extraStopped })) 0x5002 k 0 (some k)
    | some a =>
      let s := s.modSch (fun c => { c with extraStopped := ldel k c.extraStopped })
      let mine := s.framesWhere (fun f => decide (f.kind = .extra) && decide (f.m = m) && decide (f.stage ≠ .sending))
      let s := offerExtra s k
      if mine.length < 2 then prepareExtra s k a else s

/-- EGRESS_START (R342): the frame whose slot starts now, a queue's head, an extra, or nothing. -/
def egressStartOp (m : Nat) (s : State) : State :=
  if s.idxUp m = false ∨ (mget m s.sch.sending).isSome = true then s
  else
    let now := s.tim.frc.toNat
    let due := (s.slotsOf m).find? (fun d => decide (d.start ≤ now) && (s.frame? d.frame).any (fun f => decide (f.stage = .slotted)))
    match due.bind (fun d => s.frame? d.frame) with
    | some f => startFrame s m f
    | none =>
      match drrPick s m with
      | (some (i, f), s) => clearDeficit (startFrame s m f) m i
      | (none, s) => extraStep s m

/-- PTP_SLOT_DUE (R351): the earliest slot's t_d arrives. -/
def slotDueOp (m : Nat) (s : State) : State :=
  match (s.slotsOf m).find? (fun d => some d.start = s.nextSlot m) with
  | none => s
  | some d =>
    match s.frame? d.frame with
    | none => dropSlot s m d.frame
    | some f =>
      if f.stage = .slotted then (if s.idxUp m = true ∧ (mget m s.sch.sending).isNone = true then startFrame s m f else s)
      else missSlot s m f.id

/-- FU_WAIT_TIMEOUT (R385): a held Follow_Up leaves unchanged and its entry is lost, or a pending entry is lost. -/
def fuTimeoutOp (frame : Option Nat) (s : State) : State :=
  match frame with
  | some id =>
    match s.frame? id with
    | none => s
    | some f =>
      if f.stage ≠ .follow then s
      else
        let s := match s.sch.follows.find? (fun x => x.has (ptpKey f.plain) f.m) with
          | some x => fuLost (dropFollow s x.order) f.m
          | none => s
        resumeFollow s id none
  | none =>
    match s.sch.follows.find? (fun x => x.err.isSome) with
    | some x => fuLost (dropFollow s x.order) x.egress
    | none => s

/-! ### The end of a frame (R143, R144, R178, R322, R323, R337) -/

/-- The safety net ends a frame on client port k (R322). -/
def safetyNet (s : State) (k : Nat) : State :=
  let s := (s.inc (Reg.FRM_SAFETY_NET k)).inc (Reg.PORT_TX_STOMPED (portBase .client k))
  let (last, s) := burst s s.frm.lastNet k 0x3005 (some k)
  s.modFrm (fun x => { x with lastNet := last })

/-- The egress check fails: counted and raised with the port and the direction (R323, R328). -/
def egressMismatch (s : State) (k : Nat) (d : Dir) : State :=
  raise (s.inc (Reg.FRM_EGRESS_MISMATCH k)) 0x3006 k (match d with | .enc => 0 | .dec => 1) (some k)

/-- A capsule that follows what Korone port k already has to send (R176). -/
def putCapsule (s : State) (k : Nat) (c : List Byte) : State :=
  (s.modKor k (fun p => { p with txCaps := p.txCaps ++ [c] })).emit (.capsule k c)

/-- The capsule of the frame that port k is sending goes into the port stream, once (R176). -/
def putFrameCapsule (s : State) (k : Nat) (f : Frame) : State :=
  if (s.korPort k).txHead = some f.id then s
  else (putCapsule s k f.sent).modKor k (fun p => { p with txHead := some f.id, txOpen := true })

/-- A capsule has been sent whole; a bad one is voided by an ABORT head directly behind it (R178). -/
def endCapsule (s : State) (k : Nat) (f : Frame) (bad : Bool) : State :=
  let s := putFrameCapsule s k f
  let s := if bad then (putCapsule s k (capHead 0 3)).inc (Reg.KOR_TX_ABORTED k) else s
  s.modKor k (fun p => { p with txHead := none, txOpen := false })

/-- The last byte of the frame that port m sends has left. A cut-through frame without its verdict holds the FCS (R321). -/
def txDoneOp (m : Nat) (crcOk : Bool) (s : State) : State :=
  match (mget m s.sch.sending).bind s.frame? with
  | none => s
  | some f =>
    if f.cut = true ∧ f.tagOk = none ∧ f.failed = false then s
    else
      let k := m % 32
      let bytes := f.sent
      let s := countHist (countSent s m bytes.length) m f
      let s := if f.kind = .extra then s.inc (Reg.SCH_EXTRAS_SENT m) else s
      let bad := !crcOk || (f.memBad && !s.korEgress m)
      let s := if bad then egressMismatch s k f.dir else s
      let (s, outcome) :=
        if s.korEgress m then
          (endCapsule s k f (bad || f.memBad), if bad || f.memBad then 4 else 0)
        else if m < 32 then
          if bad ∨ f.failed = true then (safetyNet (putFrame s m (noFcs bytes ++ stompBytes (noFcs bytes)) true) k, 3)
          else (putFrame s m bytes false, 0)
        else (putFrame s m bytes false, 0)
      frameLeft (dealAll (releaseFrame s f.id outcome)) m

/-! ### The commands -/

/-- FLT_LOOKUP -/
def execFltLookup (n : Fin 64) (s : State) : Host.Outcome State Fault Refusal := .next (live (whenOn fltDoms (lookupOp n)) s)
/-- MARK_PERSISTED -/
def execMarkPersisted (a : BitVec 20) (s : State) : Host.Outcome State Fault Refusal :=
  .next (live (markPersistedOp a.toNat) s)
/-- SLICE_DONE -/
def execSliceDone (frame slice : Nat) (s : State) : Host.Outcome State Fault Refusal := .next (live (sliceDoneOp frame slice) s)
/-- SPLICER_RELEASE -/
def execSplicerRelease (frame : Nat) (s : State) : Host.Outcome State Fault Refusal := .next (live (splicerReleaseOp frame) s)
/-- CUT_RELEASE -/
def execCutRelease (frame : Nat) (s : State) : Host.Outcome State Fault Refusal := .next (live (cutReleaseOp frame) s)
/-- CUT_UNDERRUN -/
def execCutUnderrun (frame : Nat) (s : State) : Host.Outcome State Fault Refusal := .next (live (cutUnderrunOp frame) s)
/-- DUP_CHECK_DONE -/
def execDupCheckDone (frame : Nat) (same : Bool) (a b : Fin 512) (s : State) : Host.Outcome State Fault Refusal :=
  .next (live (dupCheckOp frame same a b) s)
/-- EGRESS_START -/
def execEgressStart (m : Fin 64) (s : State) : Host.Outcome State Fault Refusal := .next (live (egressStartOp m) s)
/-- TX_FRAME_DONE -/
def execTxFrameDone (m : Fin 64) (crcOk : Bool) (s : State) : Host.Outcome State Fault Refusal :=
  .next (live (txDoneOp m crcOk) s)
/-- PTP_SLOT_DUE -/
def execPtpSlotDue (m : Fin 64) (s : State) : Host.Outcome State Fault Refusal := .next (live (slotDueOp m) s)
/-- FU_WAIT_TIMEOUT -/
def execFuWaitTimeout (frame : Option Nat) (s : State) : Host.Outcome State Fault Refusal := .next (live (fuTimeoutOp frame) s)

end Sys2Proof.Machine
end

