-- ==== Sys2Proof/Machine/Uce.lean ====
section
/-! DEFINITION. The utility cipher engine (12, R459 to R467): channels, their operations and the key slots. -/

namespace Sys2Proof.Machine

/-- A channel. -/
def State.chan (s : State) (c : Nat) : UceChan := if c = 0 then s.vlt.c0 else s.vlt.c1

/-- Change a channel. -/
def State.modChan (s : State) (c : Nat) (f : UceChan → UceChan) : State :=
  s.modVlt (fun v => if c = 0 then { v with c0 := f v.c0 } else { v with c1 := f v.c1 })

/-- The channel a party uses: the firmware channel 1, every other writer channel 0 (R459). -/
def partyOf (who : Who) : Nat := match who.path with
  | .firmware => 1 | .pcie => 0 | .svc => 0 | .fabric => 0

/-- STATE of a channel (R472): 0 IDLE, 1 RUNNING, 2 READY, 3 COMPLETE, 4 ABORTED, 5 KEY_GONE, 6 TAG_FAIL, 7 PAD_FAIL,
8 ERROR. -/
def State.uceState (s : State) (c : Nat) : Nat := s.get (Reg.UCE_STS_STATE c)

/-- An operation is under way. -/
def State.uceOpen (s : State) (c : Nat) : Bool := decide (s.uceState c = 1) || decide (s.uceState c = 2)

/-- A channel's slot (R459): slots 0 to 7 are channel 0's. -/
def slotChan (slot : Nat) : Nat := slot / 8

/-- A key slot's contents. -/
def State.keySlot (s : State) (i : Nat) : Option KeySlot := mget i s.vlt.slots

/-- UCE_SLOT_STS follows the slots: EMPTY, LOADED or LOADED_PENDING (R472). -/
def showSlot (s : State) (i : Nat) : State :=
  let used := s.flag (Reg.UCE_SLOT_STS_IN_USE i)
  match s.keySlot i with
  | none => s.wr (Reg.UCE_SLOT_STS i) (word [(Reg.UCE_SLOT_STS_IN_USE 0, b2n used)])
  | some k => s.wr (Reg.UCE_SLOT_STS i) (word [(Reg.UCE_SLOT_STS_STATE 0, if (mget i s.vlt.later).isSome then 2 else 1),
      (Reg.UCE_SLOT_STS_IN_USE 0, b2n used), (Reg.UCE_SLOT_STS_SIZE256 0, b2n k.size256),
      (Reg.UCE_SLOT_STS_ORIGIN 0, k.origin.toNat)])

/-- Load a slot. -/
def loadSlot (s : State) (i : Nat) (k : KeySlot) : State :=
  showSlot (s.modVlt (fun v => { v with slots := mput i k v.slots, later := mdel i v.later })) i

/-- OUT and UCE_TAG of a channel are zeroed (R464 to R466). -/
def zeroOutputs (s : State) (c : Nat) : State :=
  { s with regs := s.regs.filter (fun e => !(decide (Reg.UCE_OUT c 0 ≤ e.1) && decide (e.1 < Reg.UCE_OUT c 2048)) &&
      !(decide (Reg.UCE_TAG c 0 ≤ e.1) && decide (e.1 < Reg.UCE_TAG c 4))) }

/-- Modes that use a key (R460). -/
def keyedMode (m : Nat) : Bool := decide (m ≠ 8)

/-- The slot of an ended operation is free; a deferred rewrite takes effect (R464). -/
def freeSlotOf (s : State) (c : Nat) : State :=
  let ch := s.chan c
  if keyedMode ch.mode then
    let s := s.setFlag (Reg.UCE_SLOT_STS_IN_USE ch.slot) false
    match mget ch.slot s.vlt.later with
    | some k => loadSlot s ch.slot k
    | none => showSlot s ch.slot
  else s

/-- An operation ends in a state: every end but COMPLETE zeroes the outputs and is counted, and the core holds no key any longer
(R295, R464 to R466, R472). -/
def endOp (s : State) (c st err : Nat) : State :=
  let s := (s.set (Reg.UCE_STS_STATE c) st).set (Reg.UCE_STS_ERR c) err
  let s := s.modChan c (fun h => { h with core := h.core.wipe, doneAt := if st = 3 ∨ st = 4 then some s.clk else h.doneAt })
  let s := if st = 3 then s else ((zeroOutputs s c).inc (Reg.UCE_FAILS c)).set (Reg.UCE_STS_OUT_LEN c) 0
  freeSlotOf s c

/-- TOTAL of a channel. -/
def State.uceTotal (s : State) (c : Nat) : Nat := (s.rd (Reg.UCE_TOTAL c)).toNat + (s.rd (Reg.UCE_TOTAL_HI c)).toNat * 2 ^ 32

/-- The ERR of a START, 0 when it may begin (R459 to R463). -/
def startErr (s : State) (c : Nat) : Nat :=
  let m := s.get (Reg.UCE_MODE_MODE c)
  let slot := s.get (Reg.UCE_MODE_SLOT c)
  let total := s.uceTotal c
  let aad := (s.rd (Reg.UCE_AAD_LEN c)).toNat
  if (s.chan c).coreOk = false then 5
  else if s.uceOpen c then 4
  else if 9 < m then 1
  else if keyedMode m = true ∧ (slotChan slot ≠ c ∨ (s.keySlot slot).isNone = true) then 3
  else if 2 ^ 36 - 32 < total ∨ (m = 4 ∧ aad ≠ total) ∨ (m = 3 ∧ total < aad) ∨
      ((m = 0 ∨ m = 1) ∧ s.get (Reg.UCE_MODE_PAD c) ≠ 1 ∧ total % 16 ≠ 0) then 2
  else 0

/-- START (R461). An operation under way is ended by it with SEQUENCE (log 21). -/
def uceStartOp (c : Nat) (s : State) : State :=
  let err := startErr s c
  let m := s.get (Reg.UCE_MODE_MODE c)
  let s := s.inc (Reg.UCE_OPS c)
  if err = 4 then endOp s c 8 4
  else if err ≠ 0 then
    ((zeroOutputs ((s.wr (Reg.UCE_STS c) 0).set (Reg.UCE_STS_STATE c) 8) c).set (Reg.UCE_STS_ERR c) err).inc (Reg.UCE_FAILS c)
  else
    let slot := s.get (Reg.UCE_MODE_SLOT c)
    let s := s.modChan c (fun h => { h with
      mode := m, decrypt := s.flag (Reg.UCE_MODE_DECRYPT c), pad := decide (s.get (Reg.UCE_MODE_PAD c) = 1),
      slot := slot, total := s.uceTotal c, aadLen := (s.rd (Reg.UCE_AAD_LEN c)).toNat, fed := [], made := 0, seg := 0,
      last := false, doneAt := none,
      core := match (if keyedMode m then s.keySlot slot else none) with | some k => h.core.loadKey k.key | none => h.core.wipe })
    let s := s.wr (Reg.UCE_STS c) (word [(Reg.UCE_STS_STATE 0, 2)])
    if keyedMode m then showSlot (s.setFlag (Reg.UCE_SLOT_STS_IN_USE slot) true) slot else s

/-- The first n bytes of IN, in stream order: byte 4i in bits [7:0] of word i (R461). -/
def uceIn (s : State) (c n : Nat) : List Byte := (wordsLe (s.rds (Reg.UCE_IN c 0) ((n + 3) / 4))).take n

/-- FEED: a segment begins, or its breach ends the operation (R461). -/
def uceFeedOp (c : Nat) (last : Bool) (n : Nat) (s : State) : State :=
  let ch := s.chan c
  if s.uceState c ≠ 2 then
    (if s.uceState c = 1 then endOp s c 8 4 else s)
  else
    let sum := ch.fed.length + n
    let kw := decide (ch.mode = 6) || decide (ch.mode = 7)
    if (kw = true ∧ (last = false ∨ ch.fed ≠ [])) then endOp s c 8 4
    else if 8192 < n ∨ (last = false ∧ n % 16 ≠ 0) ∨ ch.total < sum ∨ (last = true ∧ sum ≠ ch.total) ∨
        (ch.mode = 6 ∧ (n % 8 ≠ 0 ∨ n < 16)) ∨ (ch.mode = 7 ∧ (n = 0 ∨ 8176 < n)) then endOp s c 8 2
    else
      let s := s.modChan c (fun h => { h with fed := h.fed ++ uceIn s c n, seg := n, last := last })
      s.set (Reg.UCE_STS_STATE c) 1

/-- What a FEED ends in: output bytes, and with LAST the state (3, 6 or 7) and a tag to load. -/
structure FeedEnd where
  out : List Byte
  st : Nat
  tag : Option (List Byte)
  deriving DecidableEq, Repr

/-- The bytes of UCE_TAG. -/
def uceTag (s : State) (c : Nat) : List Byte := wordBytes (s.rds (Reg.UCE_TAG c 0) 4)

/-- A tag is loaded, or with DECRYPT compared over all 16 bytes (R460). -/
def tagEnd (s : State) (c : Nat) (decrypt : Bool) (out tag : List Byte) : FeedEnd :=
  if decrypt then { out := out, st := if uceTag s c = tag then 3 else 6, tag := none }
  else { out := out, st := 3, tag := some tag }

/-- The result of all bytes fed so far under a mode and the key in the channel's core (R459 to R462). Bytes already given are dropped from out. -/
def feedEnd (s : State) (c : Nat) (ch : UceChan) (k : KeySlot) : FeedEnd :=
  let iv := wordBytes (s.rds (Reg.UCE_IV c 0) 4)
  let b := k.size256
  let key := ch.core.key.value
  let done : List Byte → FeedEnd := fun o => { out := o.drop ch.made, st := 3, tag := none }
  let padEnd : List Byte → FeedEnd := fun o =>
    if ch.decrypt && ch.pad && ch.last then
      (match isoUnpad o with
       | some p => { out := p.drop ch.made, st := 3, tag := none }
       | none => { out := [], st := 7, tag := none })
    else done o
  let src := if ch.pad && !ch.decrypt && ch.last then isoPad ch.fed else ch.fed
  match ch.mode with
  | 0 => padEnd (ecb b ch.decrypt key src)
  | 1 => padEnd (if ch.decrypt then cbcDec b key (bytesBlock iv) (blocks src) else cbcEnc b key (bytesBlock iv) (blocks src))
  | 2 => done (ctr128 b key (bytesBlock iv) ch.fed)
  | 3 =>
    let aad := ch.fed.take ch.aadLen
    let data := ch.fed.drop ch.aadLen
    let o := ctrCrypt b key (iv.take 12) data
    let ct := if ch.decrypt then data else o
    if ch.last then tagEnd s c ch.decrypt (o.drop ch.made) (blockBytes (gcmTag b key (iv.take 12) aad ct)) else done o
  | 4 => if ch.last then tagEnd s c ch.decrypt [] (blockBytes (gcmTag b key (iv.take 12) ch.fed [])) else done []
  | 5 => if ch.last then tagEnd s c ch.decrypt [] (blockBytes (cmac b key ch.fed)) else done []
  | 6 =>
    if ch.decrypt then (match kwUnwrap b key ch.fed with | some p => done p | none => { out := [], st := 6, tag := none })
    else done (kwWrap b key ch.fed)
  | 7 =>
    if ch.decrypt then (match kwpUnwrap b key ch.fed with | some p => done p | none => { out := [], st := 6, tag := none })
    else done (kwpWrap b key ch.fed)
  | 8 => done (if ch.last then toBe 48 (sha384 ch.fed).toNat else [])
  | _ =>
    let hk : BitVec 512 := if b then key ++ 0#256 else (key.truncate 128) ++ 0#384
    done (if ch.last then toBe 48 (hmac384 hk ch.fed).toNat else [])

/-- Bytes as little-endian words, the last filled with zero bytes. -/
def leWords (bs : List Byte) : List Word := (List.range ((bs.length + 3) / 4)).map (fun i => w32 (le (padTo 4 (sub bs (4 * i) 4))))

/-- A FEED completes: OUT and OUT_LEN, and on LAST the end of the operation (R461 to R467). A slot zeroised meanwhile
ends it with KEY_GONE (R464, R468). -/
def uceFeedDoneOp (c : Nat) (s : State) : State :=
  let ch := s.chan c
  if s.uceState c ≠ 1 then s
  else match (if keyedMode ch.mode then s.keySlot ch.slot else some noKeySlot) with
    | none => endOp s c 5 0
    | some k =>
      let e := feedEnd s c ch k
      if e.st ≠ 3 then endOp s c e.st 0
      else
        let s := s.wrs (Reg.UCE_OUT c 0) ((leWords e.out).take 2048)
        let s := s.set (Reg.UCE_STS_OUT_LEN c) e.out.length
        let s := match e.tag with | some t => s.wrs (Reg.UCE_TAG c 0) (bytesWords 4 t) | none => s
        let s := s.modChan c (fun h => { h with made := h.made + e.out.length })
        if ch.last then endOp s c 3 0 else s.set (Reg.UCE_STS_STATE c) 2

/-- ABORT: it ends an operation under way; in the clock of a completion it comes too late (R465). -/
def uceAbortOp (c : Nat) (s : State) : State :=
  if s.uceOpen c then endOp s c 4 0
  else if s.uceState c = 3 ∧ (s.chan c).doneAt = some s.clk then s.setFlag (Reg.UCE_STS_ABORT_LATE c) true
  else s

/-- A write of UCE_CTRL by the channel's party (R459, R472). -/
def uceCtrlWrite (who : Who) (c : Nat) (val : Word) (s : State) : State :=
  if partyOf who ≠ c then s
  else match fieldOf (Reg.UCE_CTRL_OP 0) val with
    | 1 => uceStartOp c s
    | 2 => uceFeedOp c (fieldOf (Reg.UCE_CTRL_LAST 0) val = 1) (fieldOf (Reg.UCE_CTRL_SEG_LEN 0) val) s
    | 3 => uceAbortOp c s
    | _ => s

/-! ### Slots (R463, R464) -/

/-- Load a key, or defer it while the slot is in use: the RESULT with it. -/
def putKey (s : State) (i : Nat) (k : KeySlot) : State × Nat :=
  if s.flag (Reg.UCE_SLOT_STS_IN_USE i) then
    (showSlot (s.modVlt (fun v => { v with later := mput i k v.later })) i, 4)
  else (loadSlot s i k, 0)

/-- The staged key, and its staging zeroed (R463). -/
def takeStaged (s : State) (size256 : Bool) : BitVec 256 × State :=
  let bs := wordBytes (s.rds (Reg.UCE_SLOT_KEY 0) 8)
  (keyBits (bs.take (if size256 then 32 else 16)), s.wrs (Reg.UCE_SLOT_KEY 0) (List.replicate 8 0))

/-- A slot's contents: the key in two shares under a fresh mask (R459, R463). -/
def slotOf (s : State) (key : BitVec 256) (size256 : Bool) (origin : BitVec 2) : KeySlot × State :=
  let (m, s) := s.draw
  ({ key := shared key (m.truncate 256), size256 := size256, origin := origin }, s)

/-- ERASE takes effect at once; an operation that uses the slot, or that an ABORT ended in the same clock, ends with KEY_GONE (R464,
R469). -/
def eraseSlot (s : State) (i : Nat) : State :=
  let s := s.modVlt (fun v => { v with slots := mdel i v.slots, later := mdel i v.later })
  let c := slotChan i
  let h := s.chan c
  if s.flag (Reg.UCE_SLOT_STS_IN_USE i) ∧ s.uceOpen c = true then raise0 (endOp s c 5 0) 0x0702 0
  else if s.uceState c = 4 ∧ h.doneAt = some s.clk ∧ h.slot = i ∧ keyedMode h.mode = true then
    raise0 (showSlot (s.set (Reg.UCE_STS_STATE c) 5) i) 0x0702 0
  else showSlot s i

/-- A write of UCE_SLOT_CMD (R463, R472, R584). -/
def slotCmdWrite (who : Who) (val : Word) (s : State) : State :=
  let op := fieldOf Reg.UCE_SLOT_CMD_OP val
  let i := fieldOf Reg.UCE_SLOT_CMD_SLOT val
  if s.flag Reg.UCE_SLOT_CMD_BUSY then (if op = 0 then s else s.inc Reg.CTL_FAULT_BUSY)
  else
    let s := storeReg Reg.UCE_SLOT_CMD val s
    if op = 0 then s
    else if slotChan i ≠ partyOf who then s.set Reg.UCE_SLOT_CMD_RESULT 1
    else match op with
      | 1 =>
        let wide := fieldOf Reg.UCE_SLOT_CMD_SIZE256 val = 1
        let (k, s) := takeStaged s wide
        let (k, s) := slotOf s k wide 0
        let (s, r) := putKey s i k
        s.set Reg.UCE_SLOT_CMD_RESULT r
      | 2 =>
        let off := s.get Reg.UCE_SLOT_OFFSET_OFFSET
        (s.modVlt (fun v => { v with blobOp := some (i, off) })).setFlag Reg.UCE_SLOT_CMD_BUSY true
      | _ => (eraseSlot s i).set Reg.UCE_SLOT_CMD_RESULT 0

/-- A blob load completes (R457, R463, R464). -/
def loadBlobDoneOp (s : State) : State :=
  match s.vlt.blobOp with
  | none => s
  | some (i, off) =>
    let s := (s.modVlt (fun v => { v with blobOp := none })).setFlag Reg.UCE_SLOT_CMD_BUSY false
    if s.blobInside off = false then s.set Reg.UCE_SLOT_CMD_RESULT 3
    else match s.openAt off with
      | some b =>
        if b.usage / 2 % 2 = 1 ∧ (b.kind = 1 ∨ b.kind = 2) ∧ s.zeroised = false then
          let (k, s) := slotOf s (keyBits b.material) (decide (b.kind = 2)) (BitVec.ofNat 2 b.origin)
          let (s, r) := putKey s i k
          s.set Reg.UCE_SLOT_CMD_RESULT r
        else s.set Reg.UCE_SLOT_CMD_RESULT 2
      | none => s.set Reg.UCE_SLOT_CMD_RESULT 2

/-- The word of a slot command. -/
def slotWord (op : Nat) (size256 : Bool) (slot : Nat) : Word :=
  word [(Reg.UCE_SLOT_CMD_OP, op), (Reg.UCE_SLOT_CMD_SIZE256, b2n size256), (Reg.UCE_SLOT_CMD_SLOT, slot)]

/-- The word of a channel command. -/
def uceWord (op : Nat) (last : Bool) (n : Nat) : Word :=
  word [(Reg.UCE_CTRL_OP 0, op), (Reg.UCE_CTRL_LAST 0, b2n last), (Reg.UCE_CTRL_SEG_LEN 0, n)]

/-! ### The commands -/

/-- UCE_START -/
def execUceStart (who : Who) (c : Fin 2) (s : State) : Host.Outcome State Fault Refusal :=
  .next (gateOwner who (Reg.UCE_CTRL c) (uceCtrlWrite who c (uceWord 1 false 0)) s)
/-- UCE_FEED -/
def execUceFeed (who : Who) (c : Fin 2) (last : Bool) (segLen : BitVec 14) (s : State) : Host.Outcome State Fault Refusal :=
  .next (gateOwner who (Reg.UCE_CTRL c) (uceCtrlWrite who c (uceWord 2 last segLen.toNat)) s)
/-- UCE_FEED_DONE -/
def execUceFeedDone (c : Fin 2) (s : State) : Host.Outcome State Fault Refusal := .next (live (whenOn [103] (uceFeedDoneOp c)) s)
/-- UCE_ABORT -/
def execUceAbort (who : Who) (c : Fin 2) (s : State) : Host.Outcome State Fault Refusal :=
  .next (gateOwner who (Reg.UCE_CTRL c) (uceCtrlWrite who c (uceWord 3 false 0)) s)
/-- SLOT_WRITE -/
def execSlotWrite (who : Who) (slot : Fin 16) (size256 : Bool) (s : State) : Host.Outcome State Fault Refusal :=
  .next (gateOwner who Reg.UCE_SLOT_CMD (slotCmdWrite who (slotWord 1 size256 slot)) s)
/-- LOAD_BLOB -/
def execLoadBlob (who : Who) (slot : Fin 16) (s : State) : Host.Outcome State Fault Refusal :=
  .next (gateOwner who Reg.UCE_SLOT_CMD (slotCmdWrite who (slotWord 2 false slot)) s)
/-- LOAD_BLOB_DONE -/
def execLoadBlobDone (s : State) : Host.Outcome State Fault Refusal := .next (live loadBlobDoneOp s)
/-- SLOT_ERASE -/
def execSlotErase (who : Who) (slot : Fin 16) (s : State) : Host.Outcome State Fault Refusal :=
  .next (gateOwner who Reg.UCE_SLOT_CMD (slotCmdWrite who (slotWord 3 false slot)) s)

end Sys2Proof.Machine
end

