-- ==== Sys2Proof/Machine/Korone.lean ====
section
/-! DEFINITION. Korone line carriage (05): codeword lock (R157), lane frames and alignment (R164 to R168), defects and
backward indications (R193 to R195) and the sending side of the cue channel (R196, R197). -/

namespace Sys2Proof.Machine

/-- Raise an event that names a Korone port (R200). -/
def raiseKor (s : State) (k nn lane : Nat) : State := raise s (0x1A00 + nn) k lane (some k)

/-- Lane j of a Korone port is in MISSION. -/
def State.korActive (s : State) (k j : Nat) : Bool := s.isKorone k && decide (s.laneSt .lnl j = 6)

/-! ### Alignment and up -/

/-- Every lane in SYNC with the LANE_ID that the ladder's map gives, one port index, one STREAM flag, and a skew of at
most 400 ns (R166). -/
def State.alignable (s : State) (k : Nat) : Bool :=
  let js := s.portLanes .lnl k
  js.all (fun j =>
    let l := s.korLane j
    l.inSync && decide (l.laneId.toNat % 8 = s.logicalOf k j) && decide (l.laneId.toNat / 8 = (s.korLane k).laneId.toNat / 8) &&
      decide (l.flags.getLsbD 6 = (s.korLane k).flags.getLsbD 6)) &&
    decide (s.get (Reg.KOR_STS_SKEW_NS k) ≤ 400)

/-- The conditions for up other than their 1 ms (R168), at stage 10 (R89, R93, R94). -/
def State.korReady (s : State) (k : Nat) : Bool :=
  s.flag (Reg.KOR_CFG_PORT_EN k) && s.inMission .lnl k && (s.portLanes .lnl k).all (fun j => (s.korLane j).locked) &&
    s.flag (Reg.KOR_STS_ALIGNED k) && decide ((s.korLane k).flags.getLsbD 6 = s.flag (Reg.KOR_CFG_STREAM k)) &&
    decide (s.stage = 10)

/-- A port whose up conditions fail goes down at once (R168). -/
def korCheck (s : State) (k : Nat) : State := if s.korReady k then s else korDown s k

/-- ALIGNED follows its conditions (R166). -/
def settleAlign (s : State) (k : Nat) : State :=
  let now := s.alignable k
  if now then korCheck (s.setFlag (Reg.KOR_STS_ALIGNED k) true) k
  else if s.flag (Reg.KOR_STS_ALIGNED k) then korDown (korUnalign s k) k
  else korCheck s k

/-- Up conditions have held for 1 ms (R168). -/
def korLinkUpOp (k : Nat) (s : State) : State :=
  if s.portExists .line k ∧ s.isKorone k = true ∧ s.korReady k = true ∧ s.flag (Reg.KOR_STS_LINK_UP k) = false then
    raiseKor (s.setFlag (Reg.KOR_STS_LINK_UP k) true) k 1 0
  else s

/-! ### Codewords (R157) -/

/-- A lane loses codeword lock: it hunts, and the search starts again (R157, R164). -/
def loseLock (s : State) (k j : Nat) : State :=
  let s := leaveSync s k j
  settleAlign (s.modKorLane j (fun l => { l with locked := false, goods := [], badRun := 0, cands := [] })) k

/-- The lock machine of a lane on one codeword tested at a candidate boundary: a boundary's third codeword in a row that decodes brings
lock, in lock only the boundary's own codewords count, and the fourth in a row that does not decode loses it (R157). Answers the lane, and
whether lock is lost. -/
def lockStep (l : KorLane) (place : Nat) (c : Codeword) : KorLane × Bool :=
  if l.locked then
    if place ≠ l.lockAt then (l, false)
    else match c with
      | .clean => ({ l with badRun := 0 }, false)
      | .corrected => ({ l with badRun := 0 }, false)
      | .uncorrectable => ({ l with badRun := l.badRun + 1 }, decide (l.badRun + 1 = 4))
  else
    match c with
    | .uncorrectable => ({ l with goods := mdel place l.goods }, false)
    | .clean | .corrected =>
      let n := mlook 0 place l.goods + 1
      if n = 3 then ({ l with locked := true, lockAt := place, goods := [], badRun := 0 }, false)
      else if 32 ≤ l.goods.length ∧ n = 1 then (l, false)
      else ({ l with goods := mput place n l.goods }, false)

/-- A codeword of lane j of port k: in lock it is counted, and the lane's lock follows (R157). -/
def hearCodeword (s : State) (k j place : Nat) (c : Codeword) : State :=
  let l := s.korLane j
  let s := if l.locked = false ∨ place ≠ l.lockAt then s
    else match c with
      | .clean => s
      | .corrected => s.inc (Reg.KOR_FEC_CORR_CW k)
      | .uncorrectable => s.inc (Reg.KOR_FEC_UNCORR_CW k)
  let r := lockStep l place c
  if r.2 then loseLock s k j else s.modKorLane j (fun _ => r.1)

/-- The bits of one codeword time arrive on lane j's pair: decoded at the candidate boundary `place` (R156, R157), and sent again
by a far-end loopback; a near-end one does not hear its pair (R128; log 79). -/
def korCodewordOp (j place : Nat) (l : List Bool) (s : State) : State :=
  match s.portOf .lnl j with
  | none => s
  | some k =>
    if s.korActive k j = false ∨ s.nearLoop .lnl j = true then s
    else
      let s := if s.farLoop .lnl j && !s.flag (Reg.LN_CFG_TX_DISABLE (lnBase .lnl j)) then
          sendBits s .lnl j (s.topRung .lnl k) l else s
      hearCodeword s k j place (rsReceive l).1

/-- A codeword of fabric lane j: its lock is that of a Korone lane, and with it the lane loses cell SYNC and its link (R157, R164, R473,
R475). -/
def fabCodewordOp (j place : Nat) (l : List Bool) (s : State) : State :=
  if s.laneSt .lnf j ≠ 6 ∨ s.nearLoop .lnf j = true then s
  else
    let s := if s.farLoop .lnf j && !s.flag (Reg.LN_CFG_TX_DISABLE (lnBase .lnf j)) then sendBits s .lnf j 3 l else s
    let r := lockStep (s.korLane (32 + j)) place (rsReceive l).1
    if r.2 then
      let s := s.modKorLane (32 + j) (fun _ => noKorLane)
      fabLinkDown { s with fab := { s.fab with cellSync := mstore 0 j 0 s.fab.cellSync, cellMiss := mstore 0 j 0 s.fab.cellMiss } } (j / 4)
    else s.modKorLane (32 + j) (fun _ => r.1)

/-- KOR_CODEWORD, on a lane of a Korone port or of the fabric (R157, R473). -/
def codewordOp (x : Lane) (place : Nat) (l : List Bool) (s : State) : State :=
  match x.unit with
  | .lnl => korCodewordOp x.idx place l s
  | .lnf => fabCodewordOp x.idx place l s
  | .lnc => s

/-! ### Lane frames (R159 to R166) -/

/-- A valid head: a right HCRC, zeros in FLAGS[3:0], and a lane below the port's width (R164). -/
def headValid (w : Nat) (h : List Byte) : Bool :=
  decide (be (sub h 6 2) = (crc16 (h.take 6)).toNat) && decide (byteAt h 5 % 16 = 0) && decide (byteAt h 4 % 8 < w)

/-- The exclusive or of the 16-bit words of a byte string (R194). -/
def bip16 : List Byte → BitVec 16
  | a :: b :: r => (a ++ b) ^^^ bip16 r
  | _ => 0

/-- Bytes of a lane frame behind its head (R158). -/
abbrev bodyLength : Nat := 16376

/-- Ones of a 16-bit word. -/
def ones16 (w : BitVec 16) : Nat := (List.range 16).foldl (fun a i => a + b2n (w.getLsbD i)) 0

/-- A status bit that follows what is received, and its event when it first becomes 1 (R200). -/
def follow (s : State) (f : Field) (now : Bool) (k nn : Nat) : State :=
  let was := s.flag f
  let s := s.setFlag f now
  if now && !was then raiseKor s k nn 0 else s

/-- The flags of a port's lanes, any lane's setting counting (R193). -/
def State.anyFlag (s : State) (k b : Nat) : Bool :=
  (s.portLanes .lnl k).any (fun j => (s.korLane j).inSync && (s.korLane j).flags.getLsbD b)

/-- MODE_MISMATCH: the STREAM flag received differs from the port's own (R168, R201). -/
def settleMode (s : State) (k : Nat) : State :=
  follow s (Reg.KOR_STS_MODE_MISMATCH k)
    ((s.korLane k).inSync && decide ((s.korLane k).flags.getLsbD 6 ≠ s.flag (Reg.KOR_CFG_STREAM k))) k 0x0A

/-- What a port learns from the heads of its lanes (R166 to R168, R193, R201). -/
def portFlags (s : State) (k skew : Nat) : State :=
  let skewed := decide (400 < s.get (Reg.KOR_STS_SKEW_NS k))
  let s := (s.set (Reg.KOR_STS_SKEW_NS k) (min 511 skew)).set (Reg.KOR_STS_PEER_PORT k) ((s.korLane k).laneId.toNat / 8)
  let s := if 400 < skew ∧ skewed = false then raiseKor s k 4 0 else s
  let s := follow s (Reg.KOR_STS_RDI_RX k) (s.anyFlag k 7) k 6
  let s := follow s (Reg.KOR_STS_CSF_RX k) (s.anyFlag k 4) k 7
  let s := follow s (Reg.KOR_STS_NO_CONTENT_RX k) (s.anyFlag k 5) k 0x0C
  let s := settleMode s k
  s.modKor k (fun p => { p with daily := p.daily ||| (if s.anyFlag k 7 then 4 else 0) ||| (if s.anyFlag k 4 then 8 else 0) })

/-- A frame in SYNC, its head good or missed: the body is descrambled under the LANE_ID in force and kept for its period; BIP is
compared with the one computed over the frame before, and with a right OH_CRC the backward indication counts (R163, R194). Of a
body that is not whole no BIP is computed. -/
def readFrame (s : State) (k j : Nat) (count : Word) (body : List Byte) : State :=
  let l := s.korLane j
  let b := laneScramble 0 l.laneId.toNat body
  let errs := match l.lastBip with
    | some x => ones16 (x ^^^ BitVec.ofNat 16 (be (sub b 50 2)))
    | none => 0
  let bip := if body.length = bodyLength then some (bip16 body) else none
  let bad := decide (be (sub b 54 2) ≠ (crc16 (b.take 54)).toNat)
  let s := s.bump (Reg.KOR_BIP_ERR k) errs
  let s := s.modKorLane j (fun l => { l with
    lastBip := bip, beiDue := errs, bipErrs := l.bipErrs + errs, ohBad := bad, rx := some (count, b) })
  if bad then s.inc (Reg.KOR_OH_CRC_ERR k)
  else if byteAt b 49 ≤ 16 then s.bump (Reg.KOR_BEI_RX k) (byteAt b 49)
  else s

/-- MAP_MISMATCH: a lane's LANE_ID contradicts the ladder's map, or lanes in SYNC report different port indices (R167). -/
def State.mapMismatch (s : State) (k : Nat) : Bool :=
  let js := (s.portLanes .lnl k).filter (fun j => (s.korLane j).inSync)
  js.any (fun j => decide ((s.korLane j).laneId.toNat % 8 ≠ s.logicalOf k j) ||
    js.any (fun i => decide ((s.korLane i).laneId.toNat / 8 ≠ (s.korLane j).laneId.toNat / 8)))

/-- A frame in SYNC at the lane's place: its head is confirmed, or a miss (R164). -/
def syncHead (s : State) (k j w : Nat) (head body : List Byte) (skew : Nat) : State :=
  let l := s.korLane j
  let ok := headValid w head && decide (be (sub head 0 4) = l.expect.toNat) && decide (byteAt head 4 = l.laneId.toNat)
  if ok then
    let s := s.modKorLane j (fun l => { l with misses := 0, expect := l.expect + 1, flags := head.getD 5 0 })
    portFlags (readFrame s k j l.expect body) k skew
  else if l.misses + 1 = 3 then
    let s := leaveSync s k j
    (raiseKor s k 3 j).inc (Reg.KOR_LOF_COUNT k)
  else readFrame (s.modKorLane j (fun l => { l with misses := l.misses + 1, expect := l.expect + 1 })) k j l.expect body

/-- A head outside SYNC: the candidate in whose place it stands is confirmed or dropped, and a valid head that confirms none is a new
candidate (R164, R165; log 22). -/
def huntHead (s : State) (k j w place : Nat) (head body : List Byte) (skew : Nat) : State :=
  let l := s.korLane j
  let valid := headValid w head
  let count := w32 (be (sub head 0 4))
  let id := head.getD 4 0
  let rest := l.cands.filter (fun c => c.place ≠ place)
  let here := l.cands.find? (fun c => decide (c.place = place) && valid && decide (count = c.count + 1) && decide (id = c.laneId))
  match here with
  | some c =>
    if c.confirmed + 1 = 2 then
      let s := s.modKorLane j (fun l => { l with
        cands := [], inSync := true, place := place, misses := 0, expect := count + 1, laneId := id, flags := head.getD 5 0,
        lastBip := none })
      portFlags (readFrame s k j count body) k skew
    else
      let c := { c with count := count, confirmed := c.confirmed + 1 }
      s.modKorLane j (fun l => { l with cands := rest ++ [c] })
  | none =>
    if valid = false then s.modKorLane j (fun l => { l with cands := rest })
    else if rest.length = 8 then
      (raiseKor (s.modKorLane j (fun l => { l with cands := [] })) k 0x0E 0).inc (Reg.KOR_HUNT_OVERFLOW k)
    else
      let c : HuntCand := { place := place, count := count, laneId := id, confirmed := 0 }
      s.modKorLane j (fun l => { l with cands := rest ++ [c] })

/-- Bytes of a lane frame stand at a place of lane j: a head of eight bytes and what follows it, as the error code gave them (R164 to
R168). In SYNC only the lane's own place is looked at. -/
def hearLaneFrame (j place : Nat) (head body : List Byte) (skew : Nat) (s : State) : State :=
  match s.portOf .lnl j with
  | none => s
  | some k =>
    let l := s.korLane j
    if s.korActive k j = false ∨ l.locked = false ∨ (l.inSync = true ∧ place ≠ l.place) then s
    else
      let w := s.laneWidth .lnl k
      let s := if l.inSync then syncHead s k j w head body skew else huntHead s k j w place head body skew
      if s.mapMismatch k then laneRestartOp .lnl k (raiseKor (settleAlign s k) k 5 0)
      else settleAlign s k

/-- KOR_LANE_STS.FRAME_STATE and FEC_LOCK as the lanes stand (R201). -/
def State.korLaneSts (s : State) (k : Nat) : Word :=
  let js := s.portLanes .lnl k
  let st := fun (i : Nat) => match js.find? (fun j => decide (s.logicalOf k j = i) && decide (s.laneSt .lnl j = 6)) with
    | some j => let l := s.korLane j; if l.inSync then 2 else if l.cands = [] then 0 else 1
    | none => 3
  let lock := fun (i : Nat) => js.any (fun j => decide (s.logicalOf k j = i) && (s.korLane j).locked)
  let w := s.rd (Reg.KOR_LANE_STS k)
  (List.range 8).foldl (fun w i => setBits (setBits w (2 * i + 17) (2 * i + 16) (st i)) (8 + i) (8 + i) (b2n (lock i))) w

/-! ### Defects (R193, R195) -/

/-- 1 µs after the paired client port went down (R193). -/
def csfStartOp (k : Nat) (s : State) : State :=
  if s.isKorone k ∧ s.flag (Reg.KOR_CFG_FAULT_MIRROR k) = true ∧ s.portUp .client k = false then
    s.modKor k (fun p => { p with csf := true })
  else s

/-- 1 µs after the paired client port came up (R193). -/
def csfStopOp (k : Nat) (s : State) : State :=
  if s.isKorone k ∧ s.portUp .client k = true then s.modKor k (fun p => { p with csf := false }) else s

/-- The end of a 1 ms interval: DEGRADE from the BIP errors of each lane (R195). -/
def korDegradeOp (k : Nat) (s : State) : State :=
  if s.isKorone k = false then s
  else
    let js := s.portLanes .lnl k
    let above := js.any (fun j => decide (s.get (Reg.KOR_BIP_CFG_SET_TH k) < (s.korLane j).bipErrs))
    let clear := js.all (fun j => decide ((s.korLane j).bipErrs ≤ s.get (Reg.KOR_BIP_CFG_CLEAR_TH k)))
    let was := s.flag (Reg.KOR_STS_DEGRADED k)
    let s := js.foldl (fun s j => s.modKorLane j (fun l => { l with bipErrs := 0 })) s
    if above then (if was then s else raiseKor (s.setFlag (Reg.KOR_STS_DEGRADED k) true) k 9 0)
    else if clear then s.setFlag (Reg.KOR_STS_DEGRADED k) false else s

/-- A write of KOR_CFG: without PORT_EN the port is down (R168), without FAULT_MIRROR it sends no CSF (R193), a change of STREAM ends
what the other mode had under way, and MODE_MISMATCH follows it (R168, R201). -/
def korCfgWrite (k : Nat) (val : Word) (s : State) : State :=
  let was := s.flag (Reg.KOR_CFG_STREAM k)
  let s := storeReg (Reg.KOR_CFG k) val s
  let s := if s.flag (Reg.KOR_CFG_FAULT_MIRROR k) then s else s.modKor k (fun p => { p with csf := false })
  let s := if s.flag (Reg.KOR_CFG_STREAM k) = was then s
    else
      let s := if (s.korPort k).cap = .hunt then s else s.inc (Reg.KOR_RX_SKIPPED k)
      let s := s.setFlag (Reg.KOR_STS_CAP_SYNC k) false
      let s := s.modKor k (fun p => { p with
        cap := .hunt, rx := [], ptr := none, held := [], txRest := [], txCaps := [], txHead := none, txOpen := false, fifo := [] })
      settleMode s k
  korCheck s k

/-! ### The cue channel, sending (R196, R197) -/

/-- SEND: the message and its CRC-32 wait to be sent (R196, R197, R584). -/
def cueSendOp (k len : Nat) (s : State) : State :=
  if len = 0 ∨ 256 < len then s
  else
    let msg := (wordBytes (s.rds (Reg.KOR_CUE_TX_DATA k 0) 64)).take len
    let s := s.modKor k (fun p => { p with cueTx := msg ++ toBe 4 (crc32 msg).toNat, cueFirst := true })
    s.setFlag (Reg.KOR_CUE_TX_CTRL_BUSY k) true

/-- A write of KOR_CUE_TX_CTRL. -/
def cueTxWrite (k : Nat) (val : Word) (s : State) : State :=
  if fieldOf (Reg.KOR_CUE_TX_CTRL_SEND 0) val = 1 then
    if s.flag (Reg.KOR_CUE_TX_CTRL_BUSY k) then s.inc Reg.CTL_FAULT_BUSY
    else cueSendOp k (fieldOf (Reg.KOR_CUE_TX_CTRL_LEN 0) val) (storeReg (Reg.KOR_CUE_TX_CTRL k) val s)
  else storeReg (Reg.KOR_CUE_TX_CTRL k) val s

/-- The CUE field of the next lane-0 frame, and what is left to send (R196). -/
def cueField (s : State) (k : Nat) : List Byte × State :=
  let p := s.korPort k
  if p.cueTx = [] ∨ s.flag (Reg.KOR_STS_ALIGNED k) = false then (List.replicate 8 0, s)
  else
    let n := min 7 p.cueTx.length
    let eof := decide (p.cueTx.length ≤ 7)
    let ctl := b2n p.cueFirst * 128 + b2n eof * 64 + n
    (toBe 1 ctl ++ padTo 7 (p.cueTx.take n), s.modKor k (fun p => { p with cueTx := p.cueTx.drop n, cueFirst := false }))

/-- The end of the cue frame has been sent: BUSY clears (R197). A frame of which bytes wait is still being sent. -/
def cueTxDoneOp (k : Nat) (s : State) : State :=
  if (s.korPort k).cueTx = [] then s.setFlag (Reg.KOR_CUE_TX_CTRL_BUSY k) false else s

/-- KOR_CUE_RX_STS and KOR_CUE_RX_DATA show the head frame (R197, R201). -/
def showCue (s : State) (k : Nat) : State :=
  match (s.korPort k).cueRx with
  | [] => (s.wr (Reg.KOR_CUE_RX_STS k) 0).wrs (Reg.KOR_CUE_RX_DATA k 0) (List.replicate 64 0)
  | m :: ms =>
    let s := s.wr (Reg.KOR_CUE_RX_STS k) (word [(Reg.KOR_CUE_RX_STS_VALID 0, 1), (Reg.KOR_CUE_RX_STS_HELD 0, ms.length),
      (Reg.KOR_CUE_RX_STS_LEN 0, m.length)])
    s.wrs (Reg.KOR_CUE_RX_DATA k 0) (bytesWords 64 m)

/-- POP: on to the next frame; CUE_RX when one becomes the head (R197). -/
def cuePopOp (k : Nat) (s : State) : State :=
  match (s.korPort k).cueRx with
  | [] => s
  | _ :: ms =>
    let s := freeSpots s cellPool ((s.korPort k).cueSpots.headD [])
    let s := showCue (s.modKor k (fun p => { p with cueRx := ms, cueSpots := p.cueSpots.drop 1 })) k
    if ms = [] then s else raiseKor s k 0x0D 0

/-- The KOR window of k acts (R154). -/
def State.korActs (s : State) (k : Nat) : Bool := s.portExists .line k && s.isKorone k

/-- A write in a KOR window acts where the window does (R154). -/
def inKor (k : Nat) (op : State → State) (s : State) : State := if s.korActs k then op s else s

/-! ### The commands -/

/-- KOR_CODEWORD -/
def execKorCodeword (lane : Lane) (w : HeardWord) (s : State) : Host.Outcome State Fault Refusal :=
  .next (live (codewordOp lane w.place w.bits) s)
/-- KOR_LINK_UP -/
def execKorLinkUp (k : Fin 32) (s : State) : Host.Outcome State Fault Refusal := .next (live (korLinkUpOp k) s)
/-- CSF_START -/
def execCsfStart (k : Fin 32) (s : State) : Host.Outcome State Fault Refusal := .next (live (csfStartOp k) s)
/-- CSF_STOP -/
def execCsfStop (k : Fin 32) (s : State) : Host.Outcome State Fault Refusal := .next (live (csfStopOp k) s)
/-- KOR_DEGRADE_INTERVAL -/
def execKorDegradeInterval (k : Fin 32) (s : State) : Host.Outcome State Fault Refusal := .next (live (korDegradeOp k) s)
/-- CUE_SEND -/
def execCueSend (who : Who) (k : Fin 32) (s : State) : Host.Outcome State Fault Refusal :=
  .next (gateOwner who (Reg.KOR_CUE_TX_CTRL k)
    (inKor k (fun s => cueTxWrite k (word [(Reg.KOR_CUE_TX_CTRL_SEND 0, 1),
      (Reg.KOR_CUE_TX_CTRL_LEN 0, s.get (Reg.KOR_CUE_TX_CTRL_LEN k))]) s)) s)
/-- CUE_TX_DONE -/
def execCueTxDone (k : Fin 32) (s : State) : Host.Outcome State Fault Refusal := .next (live (cueTxDoneOp k) s)
/-- CUE_POP -/
def execCuePop (who : Who) (k : Fin 32) (s : State) : Host.Outcome State Fault Refusal :=
  .next (gateOwner who (Reg.KOR_CUE_RX_STS k) (inKor k (cuePopOp k)) s)

end Sys2Proof.Machine
end

