-- ==== Sys2Proof/Machine/KoroneData.lean ====
section
/-! DEFINITION. What Korone lane frames carry (05): stream mode (R182 to R192, R310), capsule delineation (R171 to R181), cue frames
(R196, R197), the periods received and sent (R158 to R163, R169, R194), and the dailies (R198, R554, R555). -/

namespace Sys2Proof.Machine

/-! ### Bit strings of 66-bit blocks (R310) -/

/-- Blocks as one bit string, each block's most significant bit first, filled with zero bits to whole bytes. -/
def packBlocks (bs : List (BitVec 66)) : List Byte :=
  let n := (66 * bs.length + 7) / 8
  toBe n (bs.foldl (fun a b => a * 2 ^ 66 + b.toNat) 0 * 2 ^ (8 * n - 66 * bs.length))

/-- The m blocks of a bit string. -/
def unpackBlocks (m : Nat) (bytes : List Byte) : List (BitVec 66) :=
  let v := be bytes / 2 ^ (8 * bytes.length - 66 * m)
  (List.range m).map (fun i => BitVec.ofNat 66 (v / 2 ^ (66 * (m - 1 - i))))

/-- The IV of a period: SKEY and SPN exclusive or the salt. -/
def periodIv (r : Rec) (skey : Word) (spn : Nat) : List Byte := xorBytes (toBe 4 skey.toNat ++ toBe 8 spn) (toBe 12 r.salt.toNat)

/-- The blocks of a period exclusive or the keystream: encryption and decryption. -/
def periodCrypt (r : Rec) (key : BitVec 256) (skey : Word) (spn : Nat) (bs : List (BitVec 66)) : List (BitVec 66) :=
  unpackBlocks bs.length (ctrCrypt r.key256 key (periodIv r skey spn) (packBlocks bs))

/-- The tag of a period over its ciphertext, whose length is 66 bits a block. -/
def periodTag (r : Rec) (key : BitVec 256) (skey : Word) (spn : Nat) (count : Word) (ct : List (BitVec 66)) : BitVec 128 :=
  let h := aesEnc r.key256 key 0
  let aad := toBe 4 skey.toNat ++ toBe 8 spn ++ toBe 4 count.toNat
  ghashBlocks h (blocks aad ++ blocks (packBlocks ct) ++ [bytesBlock (toBe 8 (8 * aad.length) ++ toBe 8 (66 * ct.length))]) ^^^
    aesEnc r.key256 key (bytesBlock (periodIv r skey spn ++ toBe 4 1))

/-! ### Stream mode, sending (R183 to R191) -/

/-- Block operations of a period of m blocks, J0's among them (R41, R326). -/
def periodOps (m : Nat) : Nat := (66 * m + 127) / 128 + 1

/-- B_n of frame period n (R183). -/
def baseSlots (n : Nat) : Nat := (n % 2313 + 1) * 4456448 / 2313 - n % 2313 * 4456448 / 2313

/-- Justification decisions as KOR_STREAM_STS codes them (R201). -/
inductive Justify where
  | none | positive | negative
  deriving DecidableEq, Repr

/-- Code of a decision. -/
def Justify.code : Justify → Nat | .none => 0 | .positive => 1 | .negative => 2
/-- JC of a decision (R184). -/
def Justify.jc : Justify → Byte | .none => 0x00 | .positive => 0x0F | .negative => 0xF0

/-- The mapper's decision from the FIFO level, the width and B_n (R187). -/
def decideJ (level w b : Nat) : Justify :=
  let f : Int := (level : Int) - w * b
  if f > 9 * w then .negative else if f < 7 * w then .positive else .none

/-- Blocks that a period carries (R184, R185). -/
def carried (w b : Nat) : Justify → Nat | .none => w * b | .positive => w * b - w | .negative => w * b + w

/-- The association that stream-mode port k is to send under, where it is usable (R25, R188): bound, and a LIVE transmit record that
fits the port. -/
def State.streamAssoc (s : State) (k : Nat) : Option Nat :=
  if s.flag (Reg.ASC_PORT_STREAM_TX_VALID k) then
    let a := s.get (Reg.ASC_PORT_STREAM_TX k)
    let r := s.asRec a
    if r.state = .live ∧ r.rx = false ∧ s.fitsPort r k = true ∧ s.asc.faulty.contains a = false then some a else none
  else none

/-- The association under which port k sends content now: its client port is up, and role and power state let it send (R190, R490,
R508). -/
def State.streamTx (s : State) (k : Nat) : Option Nat :=
  if s.portUp .client k && s.maySend then s.streamAssoc k else none

/-- A stream port without an association that it can use sends a period with no content and counts it (R25); the blocks that waited
for that period are lost (log 33). -/
def idlePeriod (s : State) (k : Nat) (count : Bool) : State :=
  let s := if count then s.inc (Reg.KOR_NO_CONTENT k) else s
  s.modKor k (fun p => { p with fifo := [] })

/-- The packet number of a period, or the drop that R191 counts. -/
def periodPn (s : State) (a : Nat) : Option Nat × State :=
  let r := s.asRec a
  let drop := fun (s : State) => s.modLive a (fun r => { r with dropPn := (r.dropPn + 1) % 2 ^ 48 })
  if r.top < r.pn then
    let s := onceFor s s.asc.exhausted a 0x2802
    (none, drop (s.modAsc (fun x => { x with exhausted := ladd a x.exhausted })))
  else if r.reel ≤ r.pn then
    let s := onceFor s s.asc.stalled a 0x2803
    (none, drop (s.modAsc (fun x => { x with stalled := ladd a x.stalled })))
  else (some r.pn, requestReel (rekeyCheck (touch (s.modLive a (fun r => { r with pn := r.pn + 1 })) a) a) a)

/-- The next m blocks of the mapper FIFO; blocks that it lacks are free values. -/
def takeFifo (s : State) (k m : Nat) : List (BitVec 66) × State :=
  let have' := (s.korPort k).fifo.take m
  let s' := s.modKor k (fun p => { p with fifo := p.fifo.drop m })
  (List.range (m - have'.length)).foldl (fun (x : List (BitVec 66) × State) _ =>
    let (v, t) := x.2.draw
    (x.1 ++ [v.setWidth 66], t)) (have', s')

/-- What stream mode puts into the lane frames of one period: whether it has content, the decision, SKEY, SPN, and the
enciphered blocks; and the tag that the next period carries. -/
structure Sent where
  content : Bool
  decision : Justify
  skey : Word
  spn : Nat
  cipher : List (BitVec 66)
  tag : BitVec 128
  deriving DecidableEq, Repr

/-- A period without client content (R190). -/
def noContent : Sent := { content := false, decision := .none, skey := 0, spn := 0, cipher := [], tag := 0 }

/-- The content of the period with FRAME_COUNT n (R183 to R191). Two points are the model's choice (log 33): under a bound, LIVE
association that is not resident the period goes out with no content, its page-in starts and the mapper's blocks are lost (R25 names
no association to be waited for); and a period is enciphered under a resident key whose memory verdict is still due, since R30 and
R316 gate frames only. -/
def streamContent (s : State) (k : Nat) (n : Word) : Sent × State :=
  let s := match s.streamTx k with
    | some a => if s.ready a then pnTrigger s a else startPage s a
    | none => s
  match s.streamTx k with
  | none => (noContent, idlePeriod s k (s.streamAssoc k).isNone)
  | some a =>
    match s.slotOf a with
    | none => (noContent, idlePeriod (startPage s a) k true)
    | some (_, x) =>
      if s.ready a = false then (noContent, idlePeriod s k true)
      else
        let w := s.laneWidth .lnl k
        let b := baseSlots n.toNat
        let j := decideJ (s.korPort k).fifo.length w b
        let m := carried w b j
        match periodPn s a with
        | (none, s) => (noContent, s.modKor k (fun p => { p with fifo := p.fifo.drop m }))
        | (some pn, s) =>
          let (bs, s) := takeFifo s k m
          let r := s.asRec a
          let skey := w32 (r.ident.toNat / 2 ^ 32)
          let ct := periodCrypt r x.key.value skey pn bs
          let s := s.bump Reg.FRM_OPS_ENC (periodOps m)
          ({ content := true, decision := j, skey := skey, spn := pn, cipher := ct, tag := periodTag r x.key.value skey pn n ct }, s)

/-! ### Stream mode, receiving (R184, R188 to R192) -/

/-- Bits in which two bytes differ. -/
def differ (a b : Byte) : Nat := (List.range 8).foldl (fun n i => n + b2n (a.getLsbD i != b.getLsbD i)) 0

/-- The nearest code to a received JC, none when two are equally near (R184). -/
def nearest (jc : Byte) : Option Justify :=
  let z := differ jc 0x00
  let p := differ jc 0x0F
  let n := differ jc 0xF0
  if z < p ∧ z < n then some .none else if p < z ∧ p < n then some .positive else if n < z ∧ n < p then some .negative
  else none

/-- The decision of a port's lanes, and whether JC was in error (R184). -/
def majority (jcs : List Byte) : Justify × Bool :=
  let ds := jcs.map nearest
  let count := fun (j : Justify) => (ds.filter (fun d => d = some j)).length
  let maj := fun (j : Justify) => decide (jcs.length < 2 * count j)
  if ds.contains none then (.none, true)
  else if maj .positive then (.positive, false)
  else if maj .negative then (.negative, false)
  else if maj .none then (.none, false)
  else (.none, true)

/-- A period fails its tag, or no association takes it: error control blocks to the client (R189, R192). -/
def periodFails (s : State) (k count : Nat) : State :=
  raiseKor ((s.inc (Reg.KOR_STREAM_TAG_FAIL k)).emit (.errorBlocks k count)) k 0x0B 0

/-- A period's blocks leave for the client port, deciphered. -/
def periodPasses (s : State) (k a : Nat) (key : BitVec 256) (p : Period) : State :=
  (rxVerified (touch s a) a).emit (.stream k (periodCrypt (s.asRec a) key p.skey p.spn.toNat p.cipher))

/-- The association under which a period is decrypted: the bound receive association or its successor, LIVE, with the
period's SKEY (R192, R282); one whose page-in has failed is none. -/
def State.streamRx (s : State) (k : Nat) (skey : Word) : Option Nat :=
  if s.flag (Reg.ASC_PORT_STREAM_RX_RX_VALID k) then
    let a := s.get (Reg.ASC_PORT_STREAM_RX_RX k)
    let fits := fun (b : Nat) =>
      let r := s.asRec b
      decide (r.state = .live) && r.rx && s.fitsPort r k && decide (w32 (r.ident.toNat / 2 ^ 32) = skey) &&
        !s.asc.faulty.contains b
    (a :: (s.asRec a).succ.toList).find? fits
  else none

/-- The periods of port k that wait, oldest first, leave as far as their tags and keys are there (R24, R189): one whose tag is right
is delivered, one whose tag fails or that no association takes goes out as error control blocks. The model's choices (log 50): a
period waits for a key that is not resident, whose page-in is started; and one whose tag is right passes while the key's memory
verdict is due, since R316 gates frames only. No replay rule is given for periods, and none is applied. -/
def settleHeld (k : Nat) : List Period → State → State
  | [], s => s.modKor k (fun q => { q with held := [] })
  | p :: ps, s =>
    let wait := fun (s : State) => s.modKor k (fun q => { q with held := p :: ps })
    match p.tag with
    | none => wait s
    | some t =>
      match s.streamRx k p.skey with
      | none => settleHeld k ps (periodFails s k p.cipher.length)
      | some a =>
        match s.slotOf a with
        | none => wait (startPage s a)
        | some (_, x) =>
          if s.ready a = false then wait s
          else
            let s := s.bump Reg.FRM_OPS_DEC (periodOps p.cipher.length)
            if periodTag (s.asRec a) x.key.value p.skey p.spn.toNat p.frameCount p.cipher = t then
              settleHeld k ps (periodPasses s k a x.key.value p)
            else settleHeld k ps (periodFails (countTagFail s a) k p.cipher.length)

/-- The periods of every port that wait are looked at again: a key may have come. -/
def settleStreams (s : State) : State := s.kor.foldl (fun s x => settleHeld x.1 (s.korPort x.1).held s) s

/-- The tag of the latest period held arrives, in the overhead of the next (R189). -/
def tagVerifyOp (k : Nat) (tag : BitVec 128) (s : State) : State :=
  let h := (s.korPort k).held
  if h = [] then s else settleHeld k (h.map (fun p => { p with tag := some (p.tag.getD tag) })) s

/-- Periods whose tag never came fail (R189). -/
def failUntagged (s : State) (k : Nat) : State :=
  let p := s.korPort k
  let lost := p.held.filter (fun q => q.tag.isNone)
  if lost = [] then s
  else
    let s := s.modKor k (fun q => { q with held := q.held.filter (fun q => q.tag.isSome) })
    lost.foldl (fun s q => periodFails s k q.cipher.length) s

/-- Count a received decision and show it (R184, R201). -/
def noteDecision (s : State) (k : Nat) (j : Justify) (bad : Bool) : State :=
  let s := if bad then s.inc (Reg.KOR_JC_ERR k) else s
  let s := match j with
    | .positive => s.inc (Reg.KOR_JC_POS k)
    | .negative => s.inc (Reg.KOR_JC_NEG k)
    | .none => s
  s.set (Reg.KOR_STREAM_STS_JC_RX k) j.code

/-- A period arrives. `bs` holds the blocks of the NJO fields of logical lanes 0 to w - 1, then those of every base slot in
the order of R185; the decision says which of them carry client blocks. -/
def periodRxOp (k : Nat) (count skey : Word) (spn : BitVec 64) (jc : List Byte) (empty : Bool) (bs : List (BitVec 66))
    (s : State) : State :=
  if s.korActs k = false ∨ s.isStream k = false ∨ s.flag (Reg.KOR_STS_ALIGNED k) = false then s
  else
    let s := failUntagged s k
    if empty then (s.inc (Reg.KOR_NO_CONTENT k)).emit (.localFault k)
    else if s.portUp .line k = false then s.emit (.localFault k)
    else
      let w := s.laneWidth .lnl k
      let (j, bad) := majority jc
      let s := noteDecision s k j bad
      let base := (bs.drop w).take (w * baseSlots count.toNat)
      let ct := match j with
        | .none => base
        | .positive => base.take (base.length - w)
        | .negative => bs.take w ++ base
      let p : Period := { frameCount := count, skey := skey, spn := spn, cipher := ct, tag := none }
      s.modKor k (fun q => { q with held := q.held ++ [p] })

/-! ### Capsules (R171 to R181) -/

/-- LENGTH of a capsule head. -/
def headLength (h : List Byte) : Nat := be (h.take 2) / 4
/-- TYPE of a capsule head. -/
def headType (h : List Byte) : Nat := be (h.take 2) % 4
/-- The CRC of a capsule head is right. -/
def capValid (h : List Byte) : Bool := decide (be (sub h 2 2) = (crc16 (h.take 2)).toNat)

/-- A head's LENGTH lies in the range of its type (R173). -/
def capInRange (s : State) (k : Nat) (h : List Byte) : Bool :=
  let l := headLength h
  match headType h with
  | 0 => decide (92 ≤ l) && decide (l ≤ s.clientLimit k + 28)
  | 1 => true
  | 2 => decide (64 ≤ l) && decide (l ≤ 9216)
  | _ => decide (l = 0)

/-- A plausible head (R179). -/
def plausible (s : State) (k : Nat) (h : List Byte) : Bool := capValid h && capInRange s k h

/-- A head as delineation takes it in SYNC: valid, or with HEAD_FIX corrected in its one wrong bit (R179). The flag says
that it was corrected. -/
def takeHead (s : State) (k : Nat) (h : List Byte) : Option (List Byte × Bool) :=
  if capValid h then some (h.take 4, false)
  else if s.flag (Reg.KOR_HUNT_CFG_HEAD_FIX k) then
    let v := be (h.take 4)
    (((List.range 32).map (fun i => toBe 4 (v ^^^ 2 ^ i))).find? capValid).map (fun x => (x, true))
  else none


/-- A capsule whose following head has been checked is delivered (R173, R175, R178, R179, R181). An idle head counts as the
EXTRA capsule that it is (R176), but neither idle nor ABORT heads count in RX_CAPSULES; an ABORT head voids whatever capsule stands
before it (log 49). -/
def capDeliver (s : State) (k : Nat) (cap : List Byte) (void : Bool) : State :=
  let l := headLength cap
  let t := headType cap
  if l = 0 ∧ t = 3 then s
  else if l = 0 ∧ t = 1 then s.inc (Reg.KOR_RX_EXTRA k)
  else
    let s := (s.inc (Reg.KOR_RX_CAPSULES k)).bump (Reg.KOR_RX_OCTETS k) (l + 4)
    let s := if t = 1 then s.inc (Reg.KOR_RX_EXTRA k) else if t = 2 then s.inc (Reg.KOR_RX_CONTROL k) else s
    if void then s.inc (Reg.KOR_RX_ABORTED k)
    else if capInRange s k cap = false then s.inc (Reg.KOR_RX_MALFORMED k)
    else match t with
      | 0 => enterFrame s (newFrame s .data .dec (32 + k) k cap)
      | 2 =>
        let fr := cap.drop 4
        if fcsOk fr then
          let f := newFrame s .control .dec (32 + k) k fr
          puntFrame (s.addFrame f) f.id 4 none fr false
        else s.inc (Reg.KOR_RX_MALFORMED k)
      | _ => s

/-- Delineation moves on by d bytes. -/
def passBytes (k d : Nat) (s : State) : State :=
  s.modKor k (fun p => { p with rx := p.rx.drop d, ptr := p.ptr.bind (fun q => if d ≤ q then some (q - d) else none) })

/-- Delineation takes a state; CAP_SYNC shows SYNC (R201). -/
def setCap (k : Nat) (c : CapState) (s : State) : State :=
  (s.modKor k (fun p => { p with cap := c })).setFlag (Reg.KOR_STS_CAP_SYNC k) (decide (c = .sync))

/-- Bytes to pass until a plausible head stands first; where none does, until three bytes are left. -/
def huntSkip (ok : List Byte → Bool) : List Byte → Nat
  | [] => 0
  | a :: t => match t with
    | b :: c :: d :: _ => if ok [a, b, c, d] then 0 else huntSkip ok t + 1
    | _ => 0

/-- HUNT: the next plausible head is the candidate; one where the pointer stands is the pointer's (R179). -/
def huntStep (k : Nat) (s : State) : Option State :=
  let p := s.korPort k
  let d := huntSkip (plausible s k) p.rx
  if p.rx.length < d + 4 then (if d = 0 then none else some (passBytes k d s))
  else
    let byPtr := decide (p.ptr = some d)
    let s := setCap k (.presync byPtr) (passBytes k d s)
    some (if byPtr then s.modKor k (fun q => { q with ptr := none }) else s)

/-- PRESYNC: a pointer that comes first replaces a candidate that the byte hunt found; else the head at the place the candidate's
LENGTH gives decides (R179). The candidate's capsule is discarded and counted. -/
def presyncStep (k : Nat) (byPtr : Bool) (s : State) : Option State :=
  let p := s.korPort k
  let n := headLength p.rx + 4
  match p.ptr with
  | some q =>
    if byPtr = false ∧ q < n then
      if p.rx.length < q + 4 then none
      else
        let s := s.modKor k (fun x => { x with ptr := none })
        some (if plausible s k (sub p.rx q 4) then setCap k (.presync true) (passBytes k q (s.inc (Reg.KOR_RX_SKIPPED k))) else s)
    else presyncHead k n s
  | none => presyncHead k n s
where
  /-- The head that follows the candidate. -/
  presyncHead (k n : Nat) (s : State) : Option State :=
    let rx := (s.korPort k).rx
    if rx.length < n + 4 then none
    else
      let s := s.inc (Reg.KOR_RX_SKIPPED k)
      some (if plausible s k (sub rx n 4) then setCap k .sync (passBytes k n s) else setCap k .hunt (passBytes k 1 s))

/-- Delineation loses SYNC, and the capsule in progress, of n bytes, is discarded (R179). -/
def capLost (k n : Nat) (s : State) : State :=
  let s := setCap k .hunt (passBytes k n s)
  raiseKor ((s.inc (Reg.KOR_HEAD_LOST k)).inc (Reg.KOR_RX_SKIPPED k)) k 8 0

/-- SYNC: the capsule in front is delivered once the head behind it has been taken (R179, R181). -/
def syncStep (k : Nat) (s : State) : Option State :=
  let rx := (s.korPort k).rx
  if rx.length < 4 then none
  else match takeHead s k (rx.take 4) with
    | none => some (capLost k 0 s)
    | some (h, _) =>
      let n := headLength h + 4
      if rx.length < n + 4 then none
      else match takeHead s k (sub rx n 4) with
        | none => some (capLost k n s)
        | some (next, fixed) =>
          let s := (passBytes k n s).modKor k (fun p => { p with rx := next ++ p.rx.drop 4 })
          let s := if fixed then s.inc (Reg.KOR_HEAD_CORRECTED k) else s
          some (capDeliver s k (h ++ sub rx 4 (n - 4)) (decide (headType next = 3)))

/-- One move of delineation; none where it waits for more bytes (R179). -/
def delinStep (k : Nat) (s : State) : Option State :=
  match (s.korPort k).cap with
  | .hunt => huntStep k s
  | .presync byPtr => presyncStep k byPtr s
  | .sync => syncStep k s

/-- Delineation as far as the bytes go, n moves at most. -/
def delineate (k : Nat) : Nat → State → State
  | 0, s => s
  | n + 1, s => match delinStep k s with
    | none => s
    | some t => delineate k n t

/-- Bytes of the port stream arrive; the pointer of their period counts from their first byte (R179). -/
def feedStream (s : State) (k : Nat) (bytes : List Byte) (ptr : Option Nat) : State :=
  let p := s.korPort k
  let at' := (ptr.map (fun i => p.rx.length + i)).orElse (fun _ => p.ptr)
  let s := s.modKor k (fun p => { p with rx := p.rx ++ bytes, ptr := at' })
  delineate k (3 * (p.rx.length + bytes.length) + 3) s

/-- A capsule of the port stream arrives with the head that follows it, which is seen here and comes again in front of its own
capsule (R179). -/
def capsuleRxOp (k : Nat) (cap : List Byte) (viaPtr : Bool) (next : Word) (s : State) : State :=
  if s.korActs k = false ∨ s.isStream k = true ∨ s.flag (Reg.KOR_STS_ALIGNED k) = false then s
  else
    let ptr := if viaPtr && s.flag (Reg.KOR_HUNT_CFG_PTR_EN k) then some 0 else none
    (feedStream s k (cap ++ toBe 4 next.toNat) ptr).modKor k (fun p => { p with rx := p.rx.take (p.rx.length - 4) })

/-- The transmitter's next capsule (R176): the one of the frame that the port has begun to send, once, or an idle head. -/
def capsuleTxOp (k : Nat) (s : State) : State :=
  if s.korActs k = false ∨ s.isStream k = true ∨ s.inMission .lnl k = false then s
  else match (mget (32 + k) s.sch.sending).bind s.frame? with
    | some f => if (s.korPort k).txHead = some f.id then s.emit (.capsule k (capHead 0 1)) else putFrameCapsule s k f
    | none => s.emit (.capsule k (capHead 0 1))

/-! ### Cue frames received (R197) -/

/-- A complete cue frame, its CRC-32 behind it. -/
def cueRxOp (k : Nat) (msg : List Byte) (s : State) : State :=
  if s.korActs k = false ∨ s.flag (Reg.KOR_STS_ALIGNED k) = false then s
  else
    let body := noFcs msg
    let ok := decide (5 ≤ msg.length) && decide (msg.length ≤ 260) &&
      decide (msg.drop (msg.length - 4) = toBe 4 (crc32 body).toNat)
    let q := (s.korPort k).cueRx
    if ok = false ∨ 4 ≤ q.length then s.inc (Reg.KOR_CUE_RX_DROP k)
    else if s.flag Reg.BPM_STS_CFG_ERR then
      let s := s.inc (Reg.BPM_ADMIT_DROP (32 + k))
      let (last, s) := burst s s.sch.lastAdmit (32 + k) 0x4004 (some k)
      s.modSch (fun c => { c with lastAdmit := last })
    else if s.cellsTake clsCue ((body.length + 63) / 64) = false then
      let s := s.inc (Reg.BPM_CELL_DROP clsCue)
      let (last, s) := burst s s.sch.lastCell clsCue 0x4005 none
      s.modSch (fun x => { x with lastCell := last })
    else
      let r := takeSpots ((body.length + 63) / 64) s cellPool
      let s := showCue (r.2.modKor k (fun p => { p with cueRx := p.cueRx ++ [body], cueSpots := p.cueSpots ++ [r.1] })) k
      if q = [] then raiseKor s k 0x0D 0 else s

/-- The CUE field of a period's lane 0 (R196): SOF begins a frame and forgets one that has no end (log 82), EOF ends it. -/
def takeCue (s : State) (k : Nat) (f : List Byte) : State :=
  let c := byteAt f 0
  match (if 128 ≤ c then some [] else (s.korPort k).cueIn) with
  | none => s
  | some m =>
    if c / 8 % 8 ≠ 0 then s
    else
      let m := (m ++ sub f 1 (c % 8)).take 261
      let ends := decide (c / 64 % 2 = 1)
      let s := s.modKor k (fun p => { p with cueIn := if ends then none else some m })
      if ends then cueRxOp k m s else s

/-! ### The periods received (R163, R171, R177, R185) -/

/-- What arrives on the pairs of line port k, which a near-end loopback does not hear (R128; log 79). -/
def fromPairs (k : Nat) (op : State → State) (s : State) : State := if s.portNear .lnl k then s else op s

/-- The lanes of port k in logical order. -/
def State.inOrder (s : State) (k : Nat) : List Nat :=
  (List.range (s.laneWidth .lnl k)).filterMap (fun i => (s.portLanes .lnl k).find? (fun j => s.logicalOf k j = i))

/-- The frames of one FRAME_COUNT, descrambled, once every lane has received it; in logical order. -/
def State.periodIn (s : State) (k : Nat) : Option (Word × List (List Byte)) :=
  match (s.inOrder k).map (fun j => (s.korLane j).rx) with
  | some x :: rest => if rest.all (fun y => decide (y.map (fun z => z.1) = some x.1)) then
      some (x.1, x.2 :: rest.filterMap (fun y => y.map (fun z => z.2))) else none
  | _ => none

/-- Words of 32 bytes from each lane in turn, n rounds (R171). -/
def joinWords : Nat → List (List Byte) → List Byte
  | 0, _ => []
  | n + 1, ps => ps.flatMap (fun p => p.take 32) ++ joinWords n (ps.map (fun p => p.drop 32))

/-- The words of lane i among w of n rounds (R171). -/
def laneWords (w i : Nat) : Nat → List Byte → List Byte
  | 0, _ => []
  | n + 1, l => sub l (32 * i) 32 ++ laneWords w i n (l.drop (32 * w))

/-- Payload bytes of a lane frame, in words (R158, R171). -/
abbrev payloadWords : Nat := 510

/-- The blocks that a period of stream mode brings: those of the NJO fields, then every base slot's in the order of R185. -/
def periodBlocks (count : Word) (bodies : List (List Byte)) : List (BitVec 66) :=
  let b := baseSlots count.toNat
  let lanes := bodies.map (fun x => unpackBlocks b (sub x 56 ((66 * b + 7) / 8)))
  bodies.map (fun x => BitVec.ofNat 66 (be (sub x 4 9) / 64)) ++ (List.range b).flatMap (fun i => lanes.map (fun l => l.getD i 0))

/-- The pointer candidate of a period: with PTR_EN, a right OH_CRC on lane 0, and a place that CAP_PTR names (R177, R179). -/
def State.pointer (s : State) (k : Nat) (lane0 : Nat) (b : List Byte) : Option Nat :=
  let p := be (b.take 3) % 2 ^ 17
  if s.flag (Reg.KOR_HUNT_CFG_PTR_EN k) && !(s.korLane lane0).ohBad && decide (p < 32 * payloadWords * s.laneWidth .lnl k) then
    some p
  else none

/-- The period that has come in on every lane of an ALIGNED port: its cue, and its payload as capsules or as a stream period whose
predecessor's tag it brings (R171, R179, R188, R194, R196). -/
def takePeriod (s : State) (k : Nat) : State :=
  match s.periodIn k with
  | none => s
  | some (n, bodies) =>
    let js := s.inOrder k
    let lane0 := js.headD k
    let s := js.foldl (fun s j => s.modKorLane j (fun l => { l with rx := none })) s
    let b := bodies.headD []
    if s.flag (Reg.KOR_STS_ALIGNED k) = false then s
    else
      let s := if (s.korLane lane0).ohBad then s else takeCue s k (sub b 41 8)
      if bodies.any (fun x => decide (x.length ≠ bodyLength)) then s
      else if s.isStream k then
        let s := tagVerifyOp k (BitVec.ofNat 128 (be (sub b 13 16))) s
        periodRxOp k n (w32 (be (sub b 29 4))) (BitVec.ofNat 64 (be (sub b 33 8))) (bodies.map (fun x => x.getD 3 0))
          ((s.korLane lane0).flags.getLsbD 5) (periodBlocks n bodies) s
      else feedStream s k (joinWords payloadWords (bodies.map (fun x => x.drop 56))) (s.pointer k lane0 b)

/-- A lane frame as the lane hears it, and the period that it completes. -/
def takeLaneFrame (k j place : Nat) (head body : List Byte) (skew : Nat) (s : State) : State :=
  takePeriod (hearLaneFrame j place head body skew s) k

/-- KOR_LANE_FRAME_RX; a near-end loopback does not hear its pair (R128; log 79). -/
def korLaneFrameOp (j place : Nat) (head body : List Byte) (skew : Nat) (s : State) : State :=
  match s.portOf .lnl j with
  | none => s
  | some k => if s.nearLoop .lnl j then s else takeLaneFrame k j place head body skew s

/-! ### The lane frames of a period sent (R158 to R163, R169, R171, R177, R193, R194) -/

/-- Capsules taken whole until n bytes are there; the bytes, and the capsules left. -/
def takeCaps (n : Nat) : List Byte → List (List Byte) → List Byte × List (List Byte)
  | a, [] => (a, [])
  | a, c :: cs => if n ≤ a.length then (a, c :: cs) else takeCaps n (a ++ c) cs

/-- The next n bytes of the port stream of a frame-mode port: the rest of the capsule in progress, the capsules that wait, then idle
heads (R169, R176). -/
def fillStream (s : State) (k n : Nat) : List Byte × State :=
  let p := s.korPort k
  let r := takeCaps n p.txRest p.txCaps
  let all := r.1 ++ (List.replicate ((n - r.1.length + 3) / 4) (capHead 0 1)).flatten
  let more := decide (n < r.1.length) || decide (r.2 ≠ [])
  (all.take n, s.modKor k (fun p => { p with txRest := all.drop n, txCaps := r.2, txOpen := p.txOpen && more }))

/-- CAP_PTR: where the first head of the period begins, behind the rest of the capsule in progress (R177). -/
def capPtr (s : State) (k n : Nat) : Nat := let r := (s.korPort k).txRest.length; if r < n then r else 0x1FFFF

/-- The payload of lane i among w in stream mode: its base slots, then stuff (R183 to R185). -/
def streamPayload (w i : Nat) (c : Sent) : List Byte :=
  let base := if c.decision = .negative then c.cipher.drop w else c.cipher
  padTo (32 * payloadWords) (packBlocks ((List.range ((base.length + w - 1) / w)).filterMap (fun t => base[w * t + i]?)))

/-- FLAGS of the frames that port k sends (R159, R193). -/
def sendFlags (s : State) (k : Nat) (content : Bool) : Nat :=
  128 * b2n (s.flag (Reg.KOR_CFG_RDI_EN k) && !s.flag (Reg.KOR_STS_ALIGNED k)) + 64 * b2n (s.isStream k) +
    32 * b2n (s.isStream k && !content) + 16 * b2n (s.korPort k).csf

/-- The head of a lane frame (R159). -/
def laneHead (count : Word) (laneId flags : Nat) : List Byte :=
  let h := toBe 4 count.toNat ++ toBe 1 laneId ++ toBe 1 flags
  h ++ toBe 2 (crc16 h).toNat

/-- The overhead of a lane frame (R162), from the fields' bytes. -/
def laneOverhead (ptr jc : Nat) (njo : List Byte) (tag skey spn cue : List Byte) (bei bip : Nat) : List Byte :=
  let o := toBe 3 ptr ++ toBe 1 jc ++ njo ++ tag ++ skey ++ spn ++ cue ++ toBe 1 bei ++ toBe 2 bip ++ [0, 0]
  o ++ toBe 2 (crc16 o).toNat

/-- The backward indication due on logical lane i; it is sent once (R194). -/
def takeBei (s : State) (k i : Nat) : Nat × State :=
  match (s.portLanes .lnl k).find? (fun j => s.logicalOf k j = i) with
  | some j => ((s.korLane j).beiDue, s.modKorLane j (fun l => { l with beiDue := 0 }))
  | none => (0, s)

/-- What the lanes of a period have in common: FRAME_COUNT, FLAGS, CAP_PTR, the stream content, the tag of the period before it, the
cue field, and the port stream. -/
structure PeriodOut where
  count : Word
  flags : Nat
  ptr : Nat
  sent : Sent
  lastTag : BitVec 128
  cue : List Byte
  bytes : List Byte

/-- The frame of lane i of port k before scrambling (R158 to R162). BIP is that of the lane's frame before it; of a first frame no
rule gives it, and it is free (log 23). -/
def formFrame (s : State) (k : Nat) (o : PeriodOut) (i : Nat) : List Byte × State :=
  let (bei, s) := takeBei s k i
  let (v, s) := s.draw
  let w := s.laneWidth .lnl k
  let zeros := fun (m : Nat) => List.replicate m (0 : Byte)
  let lane0 := fun (l : List Byte) => if i = 0 then l else zeros l.length
  let c := o.sent
  let bip := ((s.korLane (k + i)).txBip.getD (BitVec.ofNat 16 v.toNat)).toNat
  let njo := if c.decision = .negative then toBe 9 ((c.cipher.getD i 0).toNat * 64) else zeros 9
  let tag := if s.isStream k then blockBytes o.lastTag else zeros 16
  let oh := laneOverhead (if i = 0 then o.ptr else 0) c.decision.jc.toNat njo (lane0 tag) (lane0 (toBe 4 c.skey.toNat))
    (lane0 (toBe 8 c.spn)) (lane0 o.cue) bei bip
  let payload := if s.isStream k then streamPayload w i c else laneWords w i payloadWords o.bytes
  (laneHead o.count (8 * k + i) o.flags ++ oh ++ payload, s)

/-- Lane i of port k sends its frame: scrambled, coded, and put on its pair unless its transmitter is idle or loops its receiver back
(R128, R131, R156, R163). Answers the scrambled frame and the number of codewords. -/
def sendLane (k : Nat) (o : PeriodOut) (s : State) (i : Nat) : (List Byte × Nat) × State :=
  let (fr, s) := formFrame s k o i
  let j := k + i
  let f := korScramble (8 * k + i) fr
  let r := rsStream 27 ((s.korLane j).fecRest ++ bitsOf f)
  let s := s.modKorLane j (fun l => { l with txBip := some (bip16 (f.drop 8)), fecRest := r.2 })
  let s := if s.txIdle .lnl j || s.farLoop .lnl j then s
    else sendBits (s.emit (.laneFrame j fr)) .lnl j (s.topRung .lnl k) r.1
  ((f, r.1.length / 5440), s)

/-- In a near-end loopback a lane hears what it has sent: its codewords, and its frame (R128). -/
def hearOwn (k : Nat) (s : State) (x : Nat × List Byte × Nat) : State :=
  let j := k + x.1
  if s.nearLoop .lnl j then
    let s := (List.range x.2.2).foldl (fun s _ => hearCodeword s k j 0 .clean) s
    takeLaneFrame k j 0 (x.2.1.take 8) (x.2.1.drop 8) 0 s
  else s

/-- Every lane of port k sends its frame of a period; the lanes in a near-end loopback then hear theirs. -/
def sendPeriod (s : State) (k : Nat) (o : PeriodOut) : State :=
  let r := (List.range (s.laneWidth .lnl k)).foldl (fun (x : List (Nat × List Byte × Nat) × State) i =>
    let y := sendLane k o x.2 i
    (x.1 ++ [(i, y.1)], y.2)) ([], s)
  r.1.foldl (hearOwn k) r.2

/-- One frame period: a frame on every lane, with the capsules of frame mode or what stream mode carries in it. -/
def framePeriodOp (k : Nat) (arrived : List (BitVec 66)) (s : State) : State :=
  if s.korActs k = false ∨ s.inMission .lnl k = false then s
  else
    let n := (s.korPort k).txCount
    let lastTag := (s.korPort k).lastTag
    let stream := s.isStream k
    let room := 32 * payloadWords * s.laneWidth .lnl k
    let s := if stream then s.modKor k (fun p => { p with fifo := p.fifo ++ arrived }) else s
    let ptr := if stream then 0 else capPtr s k room
    let (c, s) := if stream then streamContent s k n else (noContent, s)
    let (bytes, s) := if stream then ([], s) else fillStream s k room
    let (cue, s) := cueField s k
    let s := s.modKor k (fun p => { p with txCount := p.txCount + 1, lastTag := c.tag })
    let s := if stream then
      let s := if c.content then s.emit (.periodSent k n c.cipher) else s
      (s.set (Reg.KOR_STREAM_STS_JC_TX k) c.decision.code).set (Reg.KOR_STREAM_STS_FILL k)
        (min 65535 (s.korPort k).fifo.length)
      else s
    sendPeriod s k { count := n, flags := sendFlags s k c.content, ptr := ptr, sent := c, lastTag := lastTag, cue := cue, bytes := bytes }

/-! ### The commands -/

/-- PAGE_IN_DONE: stream periods that waited for the key go on. -/
def execPageInDone (a : BitVec 20) (ecc : Ecc) (s : State) : Host.Outcome State Fault Refusal :=
  .next (live (whenOn (slotDoms ++ memDoms) (fun s => settleStreams (pageInOp a.toNat ecc s))) s)
/-- KOR_LANE_FRAME_RX -/
def execKorLaneFrameRx (lane : Fin 32) (place : Fin 131072) (head body : List Byte) (skewNs : Nat) (s : State) :
    Host.Outcome State Fault Refusal := .next (live (korLaneFrameOp lane place head body skewNs) s)
/-- KOR_FRAME_PERIOD_TX -/
def execKorFramePeriodTx (k : Fin 32) (blocks : List (BitVec 66)) (s : State) : Host.Outcome State Fault Refusal :=
  .next (live (framePeriodOp k blocks) s)
/-- STREAM_PERIOD_RX -/
def execStreamPeriodRx (k : Fin 32) (count skey : Word) (spn : BitVec 64) (jc : List Byte) (empty : Bool)
    (blocks : List (BitVec 66)) (s : State) : Host.Outcome State Fault Refusal :=
  .next (live (fromPairs k (periodRxOp k count skey spn jc empty blocks)) s)
/-- STREAM_TAG_VERIFY -/
def execStreamTagVerify (k : Fin 32) (tag : BitVec 128) (s : State) : Host.Outcome State Fault Refusal :=
  .next (live (fromPairs k (tagVerifyOp k tag)) s)
/-- KOR_CAPSULE_RX -/
def execKorCapsuleRx (k : Fin 32) (capsule : List Byte) (viaPtr : Bool) (nextHead : Word) (s : State) :
    Host.Outcome State Fault Refusal := .next (live (fromPairs k (capsuleRxOp k capsule viaPtr nextHead)) s)
/-- KOR_CAPSULE_TX -/
def execKorCapsuleTx (k : Fin 32) (s : State) : Host.Outcome State Fault Refusal := .next (live (capsuleTxOp k) s)
/-- CUE_RX_FRAME -/
def execCueRxFrame (k : Fin 32) (msg : List Byte) (s : State) : Host.Outcome State Fault Refusal :=
  .next (live (fromPairs k (cueRxOp k msg)) s)
/-- DAILIES_LATCH -/
def execDailiesLatch (sec : BitVec 48) (s : State) : Host.Outcome State Fault Refusal := .next (live (dailiesOp sec) s)

end Sys2Proof.Machine
end

