-- ==== Sys2Proof/Machine/Pair.lean ====
section
/-! DEFINITION. Replication to the stand-in and the end of a takeover (07 R264 to R267; 13 R492, R496, R497): what power and
fabric both need. -/

namespace Sys2Proof.Machine

/-- Every persist that waits for the stand-in completes on the local write alone (R266). -/
def ackAll (s : State) : State :=
  let as := (s.asc.persists.filter (fun p => !p.2.acked)).map (fun p => p.1)
  let s := s.modAsc (fun x => { x with persists := x.persists.map (fun p => (p.1, { p.2 with acked := true })) })
  as.foldl (fun s a => afterPersist (settlePersist s a) a) s

/-- Replication is suspended, with its resync and its unacknowledged MARK cells (R266, R497, R501). -/
def suspendRepl (s : State) : State :=
  let s := s.modFab (fun f => { f with marks := [], resync := none })
  if s.flag Reg.ASC_CFG_REPL_EN ∧ s.flag Reg.ASC_STS_REPL_SUSPENDED = false then
    raise0 (ackAll (s.setFlag Reg.ASC_STS_REPL_SUSPENDED true)) 0x2804 0
  else s

/-- Replication resumes (R266, R497). -/
def resumeRepl (s : State) : State :=
  let s := s.modFab (fun f => { f with resync := none })
  if s.flag Reg.ASC_STS_REPL_SUSPENDED then raise0 (s.setFlag Reg.ASC_STS_REPL_SUSPENDED false) 0x2805 0 else s

/-- The partner can take marks: it is a STAND_IN with STORE_READY whose heartbeats arrive on the fabric path (R497). -/
def State.partnerTakes (s : State) : Bool :=
  !s.fab.fabTick.lost && decide (s.get Reg.FAB_STS_PARTNER_ROLE = 3) && (s.rd Reg.FAB_PEER_HEALTH).getLsbD 28

/-- The active follows the partner's condition: it suspends replication, or begins a sweep from index 0 (R497). -/
def settleRepl (s : State) : State :=
  if s.fab.role = .active ∧ s.flag Reg.FAB_PAIR_CFG_PAIRED = true ∧ s.flag Reg.ASC_CFG_REPL_EN = true then
    if s.partnerTakes = false then suspendRepl s
    else if s.flag Reg.ASC_STS_REPL_SUSPENDED ∧ s.fab.resync.isNone = true then s.modFab (fun f => { f with resync := some 0 })
    else s
  else s

/-- The steps of a takeover (R492): replication is suspended, the session number counts up, and the device forwards. -/
def finishTakeover (s : State) : State :=
  let s := suspendRepl (s.modFab (fun f => { f with takeoverDue := false }))
  let s := nextSession s
  raise0 (s.inc Reg.FAB_TAKEOVERS) 0x7006 (s.rd Reg.FAB_EPOCH).toNat

end Sys2Proof.Machine
end

