-- ==== Sys2Proof/Machine/Power.lean ====
section
/-! DEFINITION. The gaffer (14, R504 to R524): domains and power states, requests and the pending slot, the handshake and its
safe points, wake on access, supplies and the freeze. -/

namespace Sys2Proof.Machine

/-- Change the gaffer. -/
def State.modGaf (s : State) (f : Gaf → Gaf) : State := { s with gaf := f s.gaf }

/-! ### Domains (R504, R505) -/

/-- KIND of domain d (R537): 0 RING, 1 QUAD, 2 PKT_BANK, 3 FLT_BANK, 4 SLOT_BANK, 5 TREE, 6 CLUSTER, 7 DDR, 8 UCE. -/
def domKind (d : Nat) : Nat :=
  if d < 32 then 0 else if d < 52 then 1 else if d < 76 then 2 else if d < 92 then 3 else if d < 96 then 4
  else if d < 97 then 5 else if d < 101 then 6 else if d < 103 then 7 else 8

/-- The unit and first lane of quad q (R98, R504). -/
def quadAt (q : Nat) : LaneUnit × Nat := if q < 8 then (.lnc, 4 * q) else if q < 16 then (.lnl, 4 * q - 32) else (.lnf, 4 * q - 64)

/-- Some lane of quad q is in a state that a test accepts. -/
def State.quadAny (s : State) (q : Nat) (p : Nat → Bool) : Bool :=
  (quadLanes (quadAt q).2).any (fun j => p (s.laneSt (quadAt q).1 j))

/-- The condition of domain d: a ring's and a quad's are those of the farm (R329) and of the lanes (R100). -/
def State.dom (s : State) (d : Nat) : DomPower :=
  match domKind d with
  | 0 => match s.ring d with | .asleep => .off | .waking => .waking | .awake => .on | .draining => .on
  | 1 => if s.lanes.quads.contains (d - 32) then .on else if s.quadAny (d - 32) (fun st => decide (st = 1)) then .waking else .off
  | _ => mlook .on d s.gaf.doms

/-- Set the condition of a domain that the gaffer's own map holds. The call sheet shows whether UCE, PD103, sleeps (R65). -/
def State.setDom (s : State) (d : Nat) (p : DomPower) : State :=
  let sleeps := fun (s : State) => decide (mlook .on 103 s.gaf.doms = .off)
  let t := s.modGaf (fun g => { g with doms := mstore .on d p g.doms })
  if sleeps s = sleeps t then t else bumpGen t

/-- What a domain keeps when it is taken down: contents in RETAIN, or nothing on its own voltage (R504). -/
def downTo (d : Nat) : DomPower := match domKind d with
  | 3 => .retain | 4 => .retain | 5 => .retain | 6 => .retain | _ => .off

/-- A quad powers down: its lanes show nothing (R99, R100). -/
def quadDown (s : State) (q : Nat) : State :=
  let (u, j) := quadAt q
  if s.lanes.quads.contains q then
    (quadLanes j).foldl (fun s i => clearSts s u i)
      (bumpGen { s with lanes := { s.lanes with quads := ldel q s.lanes.quads } })
  else (quadLanes j).foldl (fun s i => clearSts s u i) s

/-- Take a domain down. -/
def domDown (s : State) (d : Nat) : State :=
  match domKind d with
  | 0 => ringOff s d
  | 1 => quadDown s (d - 32)
  | _ => s.setDom d (downTo d)

/-- Bring a domain up again: a ring wakes and is tested first (R300); quads come up with their lanes (R100). -/
def domUp (s : State) (d : Nat) : State :=
  match domKind d with
  | 0 => if s.ring d = .asleep then ringWake s d else if s.ring d = .draining then s.setRing d .awake else s
  | 1 => s
  | _ => s.setDom d .on

/-- GAF_DOM_STS of domain d. -/
def State.domSts (s : State) (d : Nat) : Word :=
  let p := match s.dom d with | .off => 0 | .waking => 1 | .on => 2 | .retain => 3
  setBits (setBits (s.rd (Reg.GAF_DOM_STS d)) 31 30 p) 27 24 (domKind d)

/-! ### Power states (R506 to R510) -/

/-- Present state, coded as TARGET: 0 RUN, 1 TRIM, 2 STANDBY, 3 DORMANT. -/
def State.power (s : State) : Nat := s.get Reg.GAF_STS_STATE

/-- GAF_POLICY allows a state; RUN always is (R509). -/
def State.allows (s : State) (t : Nat) : Bool :=
  if t = 1 then s.flag Reg.GAF_POLICY_ALLOW_TRIM else if t = 2 then s.flag Reg.GAF_POLICY_ALLOW_STANDBY
  else if t = 3 then s.flag Reg.GAF_POLICY_ALLOW_DORMANT else true

/-- The groups of domains in the order in which they are asked (R514 step 3). -/
def askOrder : List (List Nat) :=
  [List.range 32, [103], (List.range 24).map (· + 52), (List.range 4).map (· + 97), (List.range 21).map (· + 76),
   (List.range 20).map (· + 32), [101, 102]]

/-- The target takes this kind down (R506): STANDBY all but the cluster and the quads, DORMANT all. -/
def takesDown (target kind : Nat) : Bool :=
  if target = 2 then decide (kind ≠ 6) && decide (kind ≠ 1) else decide (target = 3)

/-- The domains that a state holds ON (R506). -/
def holdsOn (target : Nat) : List Nat :=
  if target = 0 then List.range 32 ++ (List.range 52).map (· + 52)
  else if target = 1 then (List.range 51).map (· + 52)
  else if target = 2 then (List.range 4).map (· + 97)
  else []

/-- A frame is held in a buffer or a cell (R514). -/
def State.bufferHeld (s : State) : Bool :=
  s.sch.frames.any (fun f => f.pool.isSome || decide (f.cells ≠ 0)) || decide (s.cellsOf 2 ≠ 0)

/-! ### Transitions (R510 to R516) -/

/-- Write GAF_STS. -/
def gafSts (s : State) (state result reason dom : Nat) : State :=
  s.wr Reg.GAF_STS (word [(Reg.GAF_STS_STATE, state), (Reg.GAF_STS_RESULT, result), (Reg.GAF_STS_REASON, reason),
    (Reg.GAF_STS_DOMAIN, dom)])

/-- Change the transition that runs. -/
def modTrans (s : State) (f : Transition → Transition) : State := s.modGaf (fun g => { g with trans := g.trans.map f })

/-- An entry ends early: what it took down comes up again and admission reopens; GAF_TRANSITION_DONE ends it (R512, R515). -/
def undoEntry (s : State) (t : Transition) (result : Nat) : State :=
  let s := t.taken.foldl domUp s
  let s := t.waiting.foldl domUp s
  let s := if t.source.toNat ≤ 1 then s.modGaf (fun g => { g with admission := true }) else s
  modTrans s (fun x => { x with ending := some result, waiting := [], taken := [] })

/-- Ask the next group that has a domain to take down; after the last one the entry waits for its completion. -/
def askNext (s : State) : State :=
  match s.gaf.trans with
  | none => s
  | some t =>
    let groups := (List.range 7).filter (fun g => decide (t.kind ≤ g))
    let due := fun (g : Nat) => (askOrder.getD g []).filter (fun d =>
      takesDown t.target.toNat (domKind d) && (decide (s.dom d = .on) || decide (s.dom d = .waking)))
    match groups.find? (fun g => decide (due g ≠ [])) with
    | some g =>
      let s := (due g).foldl (fun s d => if domKind d = 0 then ringSleep s d else s) s
      modTrans s (fun x => { x with step := 3, kind := g, waiting := due g })
    | none => modTrans s (fun x => { x with step := 4, kind := 7, waiting := [] })

/-- A safe point: a waiting wake abandons the entry, and so does a response at QUIESCE_DEVICE or above (R512, R514, R535). -/
def abandonNow (s : State) (t : Transition) : Bool := t.abandon || decide (3 ≤ s.rung)

/-- Go on from a safe point. -/
def goOn (s : State) (next : State → State) : State :=
  match s.gaf.trans with
  | none => s
  | some t => if abandonNow s t then undoEntry (gafSts (s.inc Reg.GAF_ABANDONED) s.power 2 0 0x7F) t 2 else next s

/-- Step 2 is over when no buffer or cell holds a frame. -/
def settleDrain (s : State) : State :=
  match s.gaf.trans with
  | none => s
  | some t => if t.step = 2 ∧ t.ending = none ∧ s.bufferHeld = false then goOn s askNext else s

/-- Begin a sleep entry (R514, R516). -/
def startSleep (s : State) (target : Nat) : State :=
  let src := s.power
  let paired := (decide (2 ≤ target) && decide (s.fab.role = .active)) ||
    (decide (target = 3) && s.flag Reg.FAB_PAIR_CFG_PAIRED)
  if paired then raise0 ((gafSts s src 1 9 0x7F).inc Reg.GAF_REFUSED) 0x0302 0
  else
    let t : Transition := { target := BitVec.ofNat 2 target, source := BitVec.ofNat 2 src, step := 1, kind := 0,
                            waiting := [], taken := [], abandon := false, ending := none }
    let s := s.modGaf (fun g => { g with trans := some t })
    if target = 1 then modTrans s (fun x => { x with step := 4 })
    else if s.gaf.admission then
      let s := s.modGaf (fun g => { g with admission := false })
      goOn s (fun s => settleDrain (modTrans s (fun x => { x with step := 2 })))
    else goOn s askNext

/-- Begin a wake: the domains that the target holds ON come up (R509, R517). A target that GAF_POLICY does not allow is served as RUN. -/
def startWake (s : State) (target : Nat) : State :=
  let target := if s.allows target then target else 0
  let t : Transition := { target := BitVec.ofNat 2 target, source := BitVec.ofNat 2 s.power, step := 0, kind := 0,
                          waiting := [], taken := [], abandon := false, ending := none }
  (holdsOn target).foldl domUp (s.modGaf (fun g => { g with trans := some t, sleepAsk := [] }))

/-- Begin the transition of a request; a request for the present state completes at once (R510). -/
def startRequest (s : State) (target : Nat) : State :=
  if target = s.power then gafSts s s.power 0 0 0x7F
  else if target < s.power then startWake s target
  else if s.allows target then startSleep s target
  else gafSts s s.power 3 10 0x7F

/-- A request (R509 to R512). -/
def gafRequestOp (target : Nat) (s : State) : State :=
  match s.gaf.trans with
  | none => startRequest s target
  | some t =>
    let wake := decide (target < s.power)
    if t.step = 0 ∧ t.ending = none ∧ t.target.toNat = target ∧ s.gaf.pend = none then s
    else if wake = false ∧ target ≠ s.power ∧ s.allows target = false then gafSts s s.power 3 10 0x7F
    else
      let s := match s.gaf.pend with
        | some p =>
          let s := s.inc Reg.GAF_SUPERSEDED
          if wake = false ∧ p.toNat < s.power then s else s.modGaf (fun g => { g with pend := some (BitVec.ofNat 2 target) })
        | none => s.modGaf (fun g => { g with pend := some (BitVec.ofNat 2 target) })
      if wake ∧ t.step ≠ 0 ∧ t.step ≠ 4 ∧ t.ending = none then modTrans s (fun x => { x with abandon := true }) else s

/-- A write of GAF_REQ (R510). -/
def gafReqWrite (val : Word) (s : State) : State :=
  gafRequestOp (fieldOf Reg.GAF_REQ_TARGET val) (storeReg Reg.GAF_REQ val s)

/-- GAF_REQ as it reads. -/
def State.gafReq (s : State) : Word :=
  setBits (setBits (setBits (s.rd Reg.GAF_REQ) 31 31 (b2n s.gaf.trans.isSome)) 30 30 (b2n s.gaf.pend.isSome)) 29 28
    ((s.gaf.pend.map (fun p => p.toNat)).getD 0)

/-! ### Answers of the domains (R513 to R515, R519) -/

/-- Why domain d refuses as the device stands, if it does (R513, R537). -/
def State.refusal (s : State) (d : Nat) : Option Nat :=
  let chg := s.flag Reg.MGD_STS_CHG_ACTIVE
  match domKind d with
  | 0 =>
    if (ringCores d).any (fun c => s.frm.kat.contains c || s.frm.restore.contains c) then some 8
    else if s.ringMaySleep d = false then some 4 else none
  | 1 => if s.quadAny (d - 32) (fun st => decide (st ≠ 0)) then some 2 else none
  | 2 => if s.bufferHeld then some 5 else none
  | 5 => if chg then some 3 else none
  | 6 => if s.ctl.mbxOp ≠ 0 then some 6 else none
  | 7 => if chg then some 3 else none
  | 8 => if s.uceOpen 0 || s.uceOpen 1 then some 7 else none
  | _ => none

/-- Nothing is outstanding on domain d (R513): no frame waits for its lookup and no operation runs on a flow-table bank, no page-in
touches a slot bank, and a ring's queues are empty. -/
def State.quiet (s : State) (d : Nat) : Bool :=
  match domKind d with
  | 0 => (ringCores d).all (fun c => decide ((s.core c).queue = []))
  | 3 => s.flt.op.isNone && s.sch.frames.all (fun f => decide (f.stage ≠ .lookup))
  | 4 => decide (s.asc.paging = [])
  | _ => true

/-- Domain d may acknowledge as the device stands (R513). -/
def State.mayAck (s : State) (d : Nat) : Bool := s.refusal d = none && s.quiet d

/-- An acknowledged domain goes down. -/
def ackDom (s : State) (d : Nat) : State :=
  match s.gaf.trans with
  | some t =>
    if t.waiting.contains d ∧ t.ending = none then
      let s := modTrans (domDown s d) (fun x => { x with waiting := ldel d x.waiting, taken := ladd d x.taken })
      goOn s (fun s => match s.gaf.trans with
        | some t => if t.waiting = [] then askNext (modTrans s (fun x => { x with kind := x.kind + 1 })) else s
        | none => s)
    else s
  | none => s

/-- A refusal ends the entry, with its reason (R515). -/
def refuseDom (s : State) (d reason : Nat) : State :=
  match s.gaf.trans with
  | some t =>
    if t.waiting.contains d ∧ t.ending = none then
      let s := (gafSts s s.power 1 reason d).set (Reg.GAF_DOM_STS_LAST_REASON d) reason
      undoEntry (raise0 (s.inc Reg.GAF_REFUSED) 0x0302 0) t 1
    else s
  | none => s

/-- A domain that was asked to sleep on its own answers (R519). -/
def idleAnswer (s : State) (d : Nat) (reason : Option Nat) : State :=
  let s' := s.modGaf (fun g => { g with sleepAsk := ldel d g.sleepAsk })
  match reason with
  | none => domDown s' d
  | some r => (domUp s' d).set (Reg.GAF_DOM_STS_LAST_REASON d) r

/-- DOMAIN_ANSWER. An ACK counts when the domain may give it, and a REFUSE when it has a reason to (R513); DELAY holds the entry. -/
def domainAnswerOp (d : Nat) (a : DomAnswer) (s : State) : State :=
  let s := settleDrain s
  let own := s.gaf.sleepAsk.contains d
  match a with
  | .delay => s
  | .ack => if s.mayAck d = false then s else if own then idleAnswer s d none else ackDom s d
  | .refuse => match s.refusal d with
    | some r => if own then idleAnswer s d (some r) else refuseDom s d r
    | none => s

/-- DOMAIN_ANSWER_TIMEOUT: 1 ms of silence is a refusal with reason TIMEOUT (R513). -/
def answerTimeoutOp (d : Nat) (s : State) : State :=
  let s := settleDrain s
  if s.gaf.sleepAsk.contains d then idleAnswer s d (some 1) else refuseDom s d 1

/-- ADMISSION_DRAIN_TIMEOUT: the frames still held are dropped (R514). Kept cue frames are no frames in buffers, and go with
them: their cells must be free. -/
def drainTimeoutOp (s : State) : State :=
  match s.gaf.trans with
  | some t =>
    if t.step = 2 ∧ t.ending = none then
      let s := dropAll s (s.framesWhere (fun f => f.pool.isSome || decide (f.cells ≠ 0))) Reg.GAF_STATE_DROP
      let s := (List.range 32).foldl (fun s k =>
        let n := (s.korPort k).cueRx.length
        let s := freeSpots s cellPool (s.korPort k).cueSpots.flatten
        if n = 0 then s else showCue ((s.bump Reg.GAF_STATE_DROP n).modKor k (fun p => { p with cueRx := [], cueSpots := [] })) k) s
      settleDrain s
    else s
  | none => s

/-- A transition has reached its end. A takeover that waited for the wake goes on (R535). -/
def reached (s : State) (t : Transition) (xtalTicks : Nat) : State :=
  let target := t.target.toNat
  let s := s.modGaf (fun g => { g with trans := none, admission := g.admission || decide (target ≤ 1) })
  let s := if t.source = 3 then wakeRestore xtalTicks s else s
  let s := gafSts s target 0 0 0x7F
  let s := raise0 (s.inc Reg.GAF_TRANSITIONS) 0x0301 0
  let s := if t.source = 3 then
      [LaneUnit.lnc, .lnl, .lnf].foldl (fun s u => (List.range (laneCount u)).foldl (fun s j => settleLane s u j) s) s
    else s
  if target ≤ 1 ∧ s.fab.takeoverDue = true then finishTakeover s else s

/-- The domains that a state holds ON are ON (R517). -/
def State.allOn (s : State) (target : Nat) : Bool := (holdsOn target).all (fun d => decide (s.dom d = .on))

/-- GAF_TRANSITION_DONE: the transition completes when its conditions hold, and the pending request starts (R511, R517). -/
def transitionDoneOp (xtalTicks : Nat) (s : State) : State :=
  let s := settleDrain s
  match s.gaf.trans with
  | none => s
  | some t =>
    let fin := fun (s : State) => match s.gaf.pend with
      | some p => startRequest (s.modGaf (fun g => { g with pend := none })) p.toNat
      | none => s
    match t.ending with
    | some _ => if s.allOn t.source.toNat then fin (s.modGaf (fun g => { g with trans := none })) else s
    | none =>
      if t.step = 4 then fin (reached s t xtalTicks)
      else if t.step = 0 ∧ s.allOn t.target.toNat then fin (reached s t xtalTicks)
      else s

/-! ### Wake on access (R518, R519) -/

/-- ACCESS_WAKE: an access stalls and wakes its domain; QUAD, PKT_BANK and CLUSTER are never woken so, and in DORMANT no
access wakes anything (R518, R520). -/
def accessWakeOp (d : Nat) (s : State) : State :=
  let k := domKind d
  if k = 1 ∨ k = 2 ∨ k = 6 ∨ s.dormant = true ∨ s.dom d = .on then s
  else domUp (s.inc Reg.GAF_ACCESS_STALLS) d

/-- A domain of this kind may sleep on its own in the present state (R300, R506, R519). -/
def State.idleSleeps (s : State) (d : Nat) : Bool :=
  let k := domKind d
  let p := s.power
  if k = 8 ∨ k = 0 then decide (p = 1) || decide (p = 2)
  else if k = 3 ∨ k = 4 ∨ k = 5 ∨ k = 7 then decide (p = 2)
  else false

/-- DOMAIN_IDLE_SLEEP: a woken domain is asked to sleep again (R519). -/
def idleSleepOp (d : Nat) (s : State) : State :=
  if s.idleSleeps d = true ∧ s.gaf.trans = none ∧ s.dom d = .on then
    let s := if domKind d = 0 then ringSleep s d else s
    s.modGaf (fun g => { g with sleepAsk := ladd d g.sleepAsk })
  else s

/-! ### WAKE_SENSE (R522) -/

/-- WAKE_SENSE: a crossing in the direction of POL. -/
def wakeSenseOp (s : State) : State :=
  let s := s.setFlag Reg.AON_WAKE_CFG_LEVEL (!s.flag Reg.AON_WAKE_CFG_POL)
  if s.flag Reg.AON_WAKE_CFG_EN then
    let t := s.get Reg.AON_WAKE_CFG_TARGET
    gafRequestOp (if t = 3 then 0 else t) (raise0 s 0x0306 0)
  else s

/-! ### Supplies (R523, R524) -/

/-- A rail's number in GAF_SUPPLY_STS (R537). -/
def railNum : Rail → Nat | .core => 0 | .aux => 1 | .sdA => 2 | .sdH => 3 | .ddr => 4

/-- GAF_SUPPLY_STS: FROZEN and WARN as the rails stand. -/
def State.supplySts (s : State) : Word :=
  setBits (setBits (s.rd Reg.GAF_SUPPLY_STS) 31 31 (b2n s.frozenRails)) 4 0
    ((List.range 5).foldl (fun a i => a + b2n (s.gaf.dips.any (fun d => decide (d.1 = i))) * 2 ^ i) 0)

/-- RAIL_WARNING: VDD_CORE and VDD_AUX freeze burns and commits; the others raise an event only. -/
def railWarningOp (r : Rail) (s : State) : State :=
  let n := railNum r
  if s.gaf.dips.any (fun d => decide (d.1 = n)) then s
  else
    let s := s.modGaf (fun g => { g with dips := g.dips ++ [(n, s.clk)] })
    if n < 2 then s else raise0 s 0x0304 0

/-- RAIL_WARNING_CLEAR: the dip of a freezing rail is logged and counted. -/
def railClearOp (r : Rail) (durUs : Nat) (s : State) : State :=
  let n := railNum r
  if s.gaf.dips.any (fun d => decide (d.1 = n)) = false then s
  else
    let s := s.modGaf (fun g => { g with dips := g.dips.filter (fun d => d.1 ≠ n) })
    let s := s.set Reg.GAF_SUPPLY_STS_LOW (s.get Reg.GAF_SUPPLY_STS_LOW &&& (31 - 2 ^ n))
    let s := if s.frozenRails then s else s.setFlag Reg.VLT_UPD_STS_FROZEN false
    if n < 2 then
      let s := s.wr Reg.GAF_BROWNOUT_LOG (word [(Reg.GAF_BROWNOUT_LOG_RAIL, n), (Reg.GAF_BROWNOUT_LOG_DUR_US, min durUs (2 ^ 29 - 1))])
      raise0 (s.inc Reg.GAF_BROWNOUTS) 0x0303 0
    else s

/-- Every port and link restarts, as for a lost reference clock (R130, R523). -/
def restartAll (s : State) : State :=
  [LaneUnit.lnc, .lnl, .lnf].foldl (fun s u => (List.range (laneCount u)).foldl (fun s k =>
    if s.portOf u k = some k ∧ s.laneSt u k ≠ 0 ∧ s.laneSt u k ≠ 8 then restartPort s u k 5 else s) s) s

/-- A SerDes or DDR rail falls below its reset level (R523). -/
def railLow (s : State) (r : Rail) : State :=
  let n := railNum r
  let s := s.set Reg.GAF_SUPPLY_STS_LOW (s.get Reg.GAF_SUPPLY_STS_LOW ||| 2 ^ n)
  match r with
  | .ddr => raise0 s 0x0307 0
  | .sdA => raise0 (restartAll s) 0x0305 n
  | .sdH => raise0 (restartAll s) 0x0305 n
  | .core => s
  | .aux => s

/-! ### The commands -/

/-- GAF_REQUEST -/
def execGafRequest (who : Who) (target : BitVec 2) (s : State) : Host.Outcome State Fault Refusal :=
  .next (gateOwner who Reg.GAF_REQ (gafReqWrite (w32 target.toNat)) s)
/-- DOMAIN_ANSWER -/
def execDomainAnswer (dom : Fin 104) (answer : DomAnswer) (s : State) : Host.Outcome State Fault Refusal :=
  .next (live (domainAnswerOp dom answer) s)
/-- DOMAIN_ANSWER_TIMEOUT -/
def execDomainAnswerTimeout (dom : Fin 104) (s : State) : Host.Outcome State Fault Refusal :=
  .next (live (answerTimeoutOp dom) s)
/-- ADMISSION_DRAIN_TIMEOUT -/
def execAdmissionDrainTimeout (s : State) : Host.Outcome State Fault Refusal := .next (live drainTimeoutOp s)
/-- DOMAIN_IDLE_SLEEP -/
def execDomainIdleSleep (dom : Fin 104) (s : State) : Host.Outcome State Fault Refusal := .next (live (idleSleepOp dom) s)
/-- WAKE_SENSE -/
def execWakeSense (s : State) : Host.Outcome State Fault Refusal := .next (live wakeSenseOp s)
/-- RAIL_WARNING -/
def execRailWarning (rail : Rail) (s : State) : Host.Outcome State Fault Refusal := .next (live (railWarningOp rail) s)
/-- RAIL_WARNING_CLEAR -/
def execRailWarningClear (rail : Rail) (durUs : Nat) (s : State) : Host.Outcome State Fault Refusal :=
  .next (live (railClearOp rail durUs) s)

end Sys2Proof.Machine
end

