-- ==== Sys2Proof/Machine/Fabric.lean ====
section
/-! DEFINITION. The Gwelek fabric and stand-in pairs (13): links, neighbours and routes (R473 to R480), heartbeats and roles
(R484 to R495, R500), replication (R496, R497), planned switchover (R498) and SELF_TEST (R499). -/

namespace Sys2Proof.Machine

/-! ### Cells and links (R474, R475) -/

/-- A cell head is valid: HCRC is correct and LEN at most 240 (R475). -/
def cellHeadOk (c : List Byte) : Bool := decide (be (sub c 10 2) = (crc16 (c.take 10)).toNat) && decide (be (sub c 6 2) ≤ 240)

/-- The place of lane l of link n in the delineation maps. -/
def cellKey (n l : Nat) : Nat := 4 * n + l

/-- Delineation of a lane: 0 HUNT, 1 and 2 PRESYNC, 3 SYNC. -/
def State.cellState (s : State) (n l : Nat) : Nat := mlook 0 (cellKey n l) s.fab.cellSync

/-- Set a lane's delineation and its miss count. -/
def setCell (s : State) (n l st miss : Nat) : State :=
  s.modFab (fun f => { f with cellSync := mstore 0 (cellKey n l) st f.cellSync, cellMiss := mstore 0 (cellKey n l) miss f.cellMiss })

/-- A head arrives on a lane in MISSION: the machine of R164 as R475 changes it. Answers whether the lane delivers the cell. -/
def cellDelineate (s : State) (n l : Nat) (inPlace valid : Bool) : Bool × State :=
  let good := inPlace && valid
  let found := if valid && !inPlace then 1 else 0
  match s.cellState n l with
  | 0 => (false, setCell s n l (b2n valid) 0)
  | 1 => (false, setCell s n l (if good then 2 else found) 0)
  | 2 => (good, setCell s n l (if good then 3 else found) 0)
  | _ =>
    if good then (true, setCell s n l 3 0)
    else
      let m := mlook 0 (cellKey n l) s.fab.cellMiss + 1
      if m = 3 then (false, fabLinkDown (setCell s n l 0 0) n) else (false, setCell s n l 3 m)

/-- The four lanes of a link are in MISSION with cell SYNC (R475). -/
def State.linkReady (s : State) (n : Nat) : Bool :=
  (List.range 4).all (fun l => decide (s.laneSt .lnf (4 * n + l) = 6) && decide (s.cellState n l = 3))

/-- FAB_LINK_UP: the condition has held for 1 ms (R475). -/
def fabLinkUpOp (n : Nat) (s : State) : State :=
  if s.linkReady n = true ∧ s.fab.linkUp.contains n = false then
    raise0 (s.modFab (fun f => { f with linkUp := ladd n f.linkUp })) 0x7001 n
  else s

/-- FAB_LINK_STS of link n (R475, R478). -/
def State.linkSts (s : State) (n : Nat) : Word :=
  let x := mget n s.fab.neighbours
  let up := s.fab.linkUp.contains n
  let st := if up then (if x.any (fun y => y.conflict) then 4 else 3)
    else if (List.range 4).all (fun l => decide (s.laneSt .lnf (4 * n + l) = 6)) then 2
    else if (List.range 4).any (fun l => decide (s.laneSt .lnf (4 * n + l) ≠ 0)) then 1 else 0
  word [(Reg.FAB_LINK_STS_STATE 0, st), (Reg.FAB_LINK_STS_NEIGHBOUR_VALID 0, b2n (x.any (fun y => y.valid))),
    (Reg.FAB_LINK_STS_NEIGHBOUR 0, x.elim 0 (fun y => y.addr)), (Reg.FAB_LINK_STS_NEIGHBOUR_GROUP 0, x.elim 0 (fun y => y.group.toNat))]

/-- FAB_ROUTE of address a (R479, R503). -/
def State.routeWord (s : State) (a : Nat) : Word :=
  let g := if a = s.fabAddr then s.get Reg.FAB_CFG_GROUP_ID else mlook 0 a s.fab.groups
  match s.route a with
  | some (d, n) => word [(Reg.FAB_ROUTE_REACHABLE 0, 1), (Reg.FAB_ROUTE_HOPS 0, d), (Reg.FAB_ROUTE_LINK 0, n), (Reg.FAB_ROUTE_GROUP_ID 0, g)]
  | none => word [(Reg.FAB_ROUTE_REACHABLE 0, b2n (decide (a = s.fabAddr))), (Reg.FAB_ROUTE_GROUP_ID 0, g)]

/-! ### HELLO (R478, R479) -/

/-- Byte a of the distance vector sent on link n. -/
def State.advert (s : State) (n a : Nat) : Byte :=
  if a = s.fabAddr then 0
  else match s.route a with
    | some (d, m) => if m = n then 0xFF else BitVec.ofNat 8 d
    | none => 0xFF

/-- A HELLO payload for link n. -/
def helloBytes (s : State) (n : Nat) : List Byte :=
  (deviceId s).take 8 ++ toBe 2 (s.get Reg.FAB_CFG_GROUP_ID) ++
    [BitVec.ofNat 8 n, BitVec.ofNat 8 (128 * s.get Reg.FAB_CFG_HEAD)] ++ (List.range 64).map (s.advert n)

/-- Send a HELLO on link n: to the neighbour's address, which is free until a HELLO has given it (log 1). -/
def sendHello (s : State) (n : Nat) : State :=
  match mget n s.fab.neighbours with
  | some x => sendOn s n cellHello x.addr (helloBytes s n)
  | none => let (v, s) := s.draw; sendOn s n cellHello (v.toNat % 64) (helloBytes s n)

/-- HELLO_TX: a HELLO on every up link, and an IDLE cell on each fabric lane in MISSION that has nothing to send (R474, R476; log 1). -/
def helloTxOp (s : State) : State :=
  if s.flag Reg.FAB_CFG_EN then
    let t := s.fab.linkUp.foldl sendHello s
    (List.range 16).foldl (fun t j =>
      let sent := (t.out.take (t.out.length - s.out.length)).any (fun o => match o with
        | .cell n l _ => decide (4 * n + l = j)
        | _ => false)
      if s.laneSt .lnf j = 6 && !sent then sendIdle t (j / 4) (j % 4) else t) t
  else s

/-- A HELLO from address src arrives on link n. -/
def helloRx (s : State) (n src : Nat) (p : List Byte) : State :=
  if p.length ≠ 76 then s
  else
    let was := (mget n s.fab.neighbours).any (fun x => x.conflict)
    let bad := decide (src = s.fabAddr)
    let group := be (sub p 8 2)
    let x : Neighbour := { addr := src, group := BitVec.ofNat 16 group, vector := sub p 12 64, valid := true, conflict := bad }
    let s := s.modFab (fun f => { f with
      neighbours := mput n x f.neighbours, groups := if bad then f.groups else mstore 0 src group f.groups })
    let s := if bad && !was then raise0 s 0x7003 n else s
    settleGroup s

/-- NEIGHBOUR_LOST: 300 µs without a HELLO. A link in CONFLICT stays in it until a HELLO with another address (R478). -/
def neighbourLostOp (n : Nat) (s : State) : State :=
  match mget n s.fab.neighbours with
  | some x =>
    if x.conflict then s.modFab (fun f => { f with neighbours := mput n { x with valid := false } f.neighbours })
    else loseNeighbour s n
  | none => s

/-- Forward a cell that is not for this device (R480). -/
def forwardCell (s : State) (c : List Byte) : State :=
  let cls := byteAt c 0
  let dst := byteAt c 1 / 4
  let ttl := byteAt c 3
  match s.route dst with
  | some (_, n) =>
    if ttl ≤ 1 then s.inc Reg.FAB_CELL_DROP
    else
      let h := splice (c.take 10) 3 [BitVec.ofNat 8 (ttl - 1)]
      let b := h ++ toBe 2 (crc16 h).toNat ++ sub c 12 240
      emitCell s n ((dst + cls) % 4) (b ++ toBe 4 (crc32 b).toNat)
  | none => s.inc Reg.FAB_CELL_DROP

/-! ### Roles (R489 to R495) -/

/-- ROLE as FAB_STS and a heartbeat code it. -/
def Role.code : Role → Nat | .none => 0 | .init => 1 | .active => 2 | .standIn => 3 | .fenced => 4

/-- Address of the pair partner. -/
def State.partner (s : State) : Nat := s.get Reg.FAB_PAIR_CFG_PARTNER

/-- SELF_TEST (R499). -/
def State.selfTest (s : State) : Bool := s.flag Reg.FAB_PAIR_CFG_SELF_TEST

/-- The partner is lost: both paths are (R488). -/
def State.partnerLost (s : State) : Bool := s.fab.fabTick.lost && s.fab.lvdsTick.lost

/-- A switchover in progress ends without yielding (R498, R501). -/
def endSwitch (s : State) : State :=
  if s.fab.switching then
    (s.modFab (fun f => { f with switching := false })).wr Reg.FAB_PAIR_CMD
      (word [(Reg.FAB_PAIR_CMD_RESULT, 2)])
  else s

/-- The line lanes that SELF_TEST exercises: named in FAB_SPARE_LANES and with MODE OFF (R499). -/
def State.spareLanes (s : State) : List Nat :=
  (List.range 32).filter (fun j => nbit (s.rd Reg.FAB_SPARE_LANES).toNat j && decide (s.laneMode .lnl j = 0))

/-- Start or stop PRBS31 in near-end serial loopback on the spare lanes (R128, R499). -/
def spareTest (s : State) (on : Bool) : State :=
  s.spareLanes.foldl (fun s j =>
    let b := lnBase .lnl j
    let s := laneCfgOp .lnl j (setBits (s.rd (Reg.LN_CFG b)) 19 18 (b2n on)) s
    prbsCfgOp .lnl j (setBits (setBits (s.rd (Reg.LN_PRBS_CFG b)) 31 30 (3 * b2n on)) 27 24 5) s) s

/-- The script's settings of SELF_TEST and of its spare lanes change: the lanes that a stand-in exercises follow (R499). -/
def spareWrite (off : Nat) (val : Word) (s : State) : State :=
  let runs := fun (s : State) => decide (s.fab.role = .standIn) && s.selfTest
  let t := storeReg off val (if runs s then spareTest s false else s)
  if runs t then spareTest t true else t

/-- Enter a role. REPL_CURRENT is a stand-in's own finding, and ends with the role; SELF_TEST runs in STAND_IN only. -/
def setRole (s : State) (r : Role) : State :=
  if r = s.fab.role then s
  else
    let was := s.fab.role
    let s := (endSwitch s).modFab (fun f => { f with role := r })
    let s := s.setFlag Reg.FAB_STS_REPL_CURRENT false
    if s.selfTest then
      if r = .standIn then spareTest s true else if was = .standIn then spareTest s false else s
    else s

/-- Become ACTIVE with a role epoch. At a takeover replication is suspended and the session counts up before the device
forwards (R492); in STANDBY this waits for the wake to RUN or, where it is allowed at start, TRIM (R535). -/
def becomeActive (s : State) (epoch : Nat) (takeover : Bool) : State :=
  let s := (setRole s .active).wr Reg.FAB_EPOCH (w32 epoch)
  let s := (s.setFlag Reg.FAB_STS_YIELD false).modFab (fun f => { f with fencing := false })
  if takeover then
    if s.power = 2 then
      let trim := s.flag Reg.GAF_POLICY_START_TRIM && s.flag Reg.GAF_POLICY_ALLOW_TRIM
      gafRequestOp (b2n trim) (s.modFab (fun f => { f with takeoverDue := true }))
    else finishTakeover s
  else settleRepl s

/-- The epoch of R492: one more than the higher of its own and the partner's last. -/
def State.raisedEpoch (s : State) : Nat := max (s.rd Reg.FAB_EPOCH).toNat s.fab.partnerEpoch + 1

/-- Begin to fence, towards a role (R493). -/
def beginFence (s : State) (goal : Role) : State :=
  (endSwitch s).modFab (fun f => { f with fencing := true, fenceTo := goal })

/-- Go to a role from any other: an ACTIVE device fences first (R489, R493). -/
def leaveTo (s : State) (r : Role) : State := if s.fab.role = .active then beginFence s r else setRole s r

/-- INIT with the script's APPLY (R489). -/
def enterInit (s : State) : State :=
  if s.flag Reg.FAB_PAIR_CFG_PAIRED ∧ s.fab.role = .none then
    setRole (s.modFab (fun f => { f with fabTick := quietPath, lvdsTick := quietPath })) .init
  else s

/-- An unpaired device has role NONE (R489). -/
def settlePaired (s : State) : State :=
  if s.flag Reg.FAB_PAIR_CFG_PAIRED = false ∧ s.fab.role ≠ .none then
    (setRole s .none).modFab (fun f => { f with fencing := false, takeoverDue := false })
  else s

/-! ### Heartbeats (R485 to R488) -/

/-- Rings with every core in service (R486). -/
def State.ringsOk (s : State) : Nat := ((List.range 32).filter (fun r => (ringCores r).all (fun c => (s.core c).inService))).length

/-- Port pairs whose two ports are up (R486). -/
def State.pairsUp (s : State) : Nat := ((List.range 32).filter (fun k => s.portUp .client k && s.portUp .line k)).length

/-- REPL_CURRENT (R486): the active's replication is not suspended, a stand-in holds every current mark. -/
def State.replCurrent (s : State) : Bool :=
  match s.fab.role with
  | .active => !s.flag Reg.ASC_STS_REPL_SUSPENDED
  | .standIn => s.flag Reg.FAB_STS_REPL_CURRENT
  | .none => false | .init => false | .fenced => false

/-- A path is not lost; an unpaired device has none (R503). -/
def State.pathOk (s : State) (p : HbPath) : Bool :=
  decide (s.fab.role ≠ .none) && !(match p with | .fab => s.fab.fabTick.lost | .lvds => s.fab.lvdsTick.lost)

/-- The health word (R486). -/
def State.health (s : State) : Word :=
  let t := s.selfTest
  let prbs := s.spareLanes.all (fun j => s.flag (Reg.LN_PRBS_STS_LOCKED (lnBase .lnl j)) &&
    (s.lane .lnl j).clean.any (fun t => decide (t + tps ≤ s.clk)))
  w32 (b2n (t && decide (s.fab.katOk = BitVec.allOnes 32)) * 2 ^ 31 + b2n (t && s.fab.stateMatch) * 2 ^ 30 + b2n (t && prbs) * 2 ^ 29 +
    b2n (s.flag Reg.ASC_STS_STORE_READY) * 2 ^ 28 + b2n s.replCurrent * 2 ^ 27 + b2n (s.pathOk .fab) * 2 ^ 26 +
    b2n (s.pathOk .lvds) * 2 ^ 25 + s.ringsOk * 2 ^ 8 + s.pairsUp)

/-- A heartbeat (R485). -/
def heartbeatBytes (s : State) : List Byte :=
  let st := s.fab.role.code * 32 + s.get Reg.FAB_PAIR_CFG_TWIN * 16 + s.get Reg.FAB_STS_YIELD * 8 + b2n s.selfTest * 4
  let b := [0xB7, BitVec.ofNat 8 (4 * s.fabAddr)] ++ toBe 2 (s.get Reg.FAB_PAIR_CFG_PAIR_ID) ++
    [BitVec.ofNat 8 st, BitVec.ofNat 8 (s.get Reg.FAB_CFG_EMITTER)] ++ toBe 4 (s.rd Reg.FAB_EPOCH).toNat ++
    toBe 2 s.fab.hbSeq.toNat ++ toBe 4 s.health.toNat
  b ++ toBe 2 (crc16 b).toNat

/-- A frame on the LVDS pair: preamble, start byte and the heartbeat, in Manchester code, a 1 as low then high; the pair is low after it
(R487). -/
def lvdsFrame (b : List Byte) : List Bool := (bitsOf ([0x55, 0x55, 0xD5] ++ b)).flatMap (fun x => [!x, x]) ++ [false]

/-- HEARTBEAT_TX: on both paths (R487). -/
def heartbeatTxOp (s : State) : State :=
  if s.fab.role = .none then s
  else
    let b := heartbeatBytes s
    let s := sendCell (s.emit (.heartbeat (lvdsFrame b))) cellHeartbeat s.partner b
    s.modFab (fun f => { f with hbSeq := f.hbSeq + 1 })

/-- A heartbeat is valid (R487). -/
def heartbeatOk (s : State) (b : List Byte) : Bool :=
  decide (b.length = 18) && decide (be (sub b 16 2) = (crc16 (b.take 16)).toNat) && decide (byteAt b 0 = 0xB7) &&
    decide (byteAt b 1 / 4 = s.partner) && decide (byteAt b 1 % 4 = 0)

/-- A valid heartbeat breaks a condition of R484. -/
def disputes (s : State) (b : List Byte) : Bool :=
  decide (be (sub b 2 2) ≠ s.get Reg.FAB_PAIR_CFG_PAIR_ID) ||
    decide (byteAt b 4 / 16 % 2 = s.get Reg.FAB_PAIR_CFG_TWIN) || decide (byteAt b 5 = s.get Reg.FAB_CFG_EMITTER)

/-- A dispute (R489, R501): FENCED, and DISPUTE stays until a class 2 decision. The code of the condition is free. -/
def disputeOp (s : State) : State :=
  let (v, s) := s.draw
  raise0 (leaveTo (s.setFlag Reg.FAB_STS_DISPUTE true) .fenced) 0x7008 (v.toNat % 2 ^ 32)

/-- A response at QUIESCE_DEVICE or above holds (R489). -/
def State.heldFenced (s : State) : Bool := s.flag Reg.EVT_STS_QDEV || s.zeroised

/-- The role table on a heartbeat with its ROLE, YIELD and ROLE_EPOCH (R489). A stand-in that has itself yielded waits for
its partner's ROLE ACTIVE. -/
def roleOnHeartbeat (s : State) (role epoch : Nat) (yields : Bool) : State :=
  let twin := s.flag Reg.FAB_PAIR_CFG_TWIN
  let other := decide (role = 1) || decide (role = 3) || decide (role = 4)
  match s.fab.role with
  | .none => s
  | .init =>
    if role = 2 then setRole s .standIn
    else if other then (if twin then setRole s .standIn else becomeActive s s.raisedEpoch false) else s
  | .standIn =>
    if s.flag Reg.FAB_STS_YIELD then (if role = 2 then s.setFlag Reg.FAB_STS_YIELD false else s)
    else if other || yields then becomeActive s s.raisedEpoch true else s
  | .active =>
    let own := (s.rd Reg.FAB_EPOCH).toNat
    if role = 2 ∧ (own < epoch ∨ (own = epoch ∧ twin = true)) then raise0 (beginFence s .standIn) 0x700D epoch else s
  | .fenced =>
    if s.heldFenced then s
    else if role = 2 then setRole s .standIn
    else if role = 3 ∨ role = 1 ∨ (role = 4 ∧ twin = false) then becomeActive s s.raisedEpoch false else s

/-- The active looks at its stand-in's health (R499): once until it has been all ones. -/
def checkHealth (s : State) (selfTest : Bool) (health : Nat) : State :=
  if s.fab.role = .active ∧ selfTest = true then
    let good := decide (health / 2 ^ 27 = 31)
    let was := s.fab.healthy
    let s := s.modFab (fun f => { f with healthy := good })
    if was && !good then raise0 s 0x700B health else s
  else s

/-- A heartbeat arrives on a path (R487, R489). -/
def heartbeatRx (s : State) (p : HbPath) (b : List Byte) : State :=
  if s.fab.role = .none ∨ heartbeatOk s b = false then s
  else
    let role := byteAt b 4 / 32
    let epoch := be (sub b 6 4)
    let s := s.modFab (fun f => match p with
      | .fab => { f with fabTick := { f.fabTick with got := true }, partnerEpoch := epoch }
      | .lvds => { f with lvdsTick := { f.lvdsTick with got := true }, partnerEpoch := epoch })
    let s := (s.wr Reg.FAB_PEER_HEALTH (w32 (be (sub b 12 4)))).set Reg.FAB_STS_PARTNER_ROLE role
    let s := if s.fab.role = .active then s.setFlag Reg.FAB_STS_PARTNER_DOWN false else s
    if disputes s b then disputeOp s
    else
      let s := if s.flag Reg.FAB_STS_DISPUTE ∨ s.fab.fencing = true then s
        else roleOnHeartbeat s role epoch (nbit (byteAt b 4) 3)
      settleRepl (checkHealth s (nbit (byteAt b 4) 2) (be (sub b 12 4)))

/-- One tick of a path (R487): its new tick state, and whether it was lost or restored. -/
def tickPath (t : PathTick) : PathTick × Bool × Bool :=
  let misses := if t.got then 0 else min 255 (t.misses + 1)
  let good := if t.got then t.goodRun + 1 else 0
  let lose := !t.lost && decide (4 ≤ misses)
  let restore := t.lost && decide (4 ≤ good)
  ({ got := false, misses := misses, goodRun := min 4 good, lost := (t.lost || lose) && !restore }, lose, restore)

/-- The partner becomes lost: a stand-in takes over (R489, R492); a switchover ends (R501). -/
def onPartnerLost (s : State) : State :=
  if s.fab.role = .standIn then becomeActive s s.raisedEpoch true else endSwitch s

/-- HB_TICK. The code that names a path in the records is free (R502). -/
def hbTickOp (p : HbPath) (s : State) : State :=
  if s.fab.role = .none then s
  else
    let t := match p with | .fab => s.fab.fabTick | .lvds => s.fab.lvdsTick
    let r := tickPath t
    let s := if t.got then s else s.inc (match p with | .fab => Reg.FAB_HB_MISS_FAB | .lvds => Reg.FAB_HB_MISS_LVDS)
    let s := s.modFab (fun f => match p with | .fab => { f with fabTick := r.1 } | .lvds => { f with lvdsTick := r.1 })
    let (v, s) := if r.2.1 || r.2.2 then s.draw else (0, s)
    let s := if r.2.1 then raise0 s 0x7004 (v.toNat % 2 ^ 32) else if r.2.2 then raise0 s 0x7005 (v.toNat % 2 ^ 32) else s
    let s := if r.2.1 && s.partnerLost then onPartnerLost s else s
    settleRepl s

/-- INIT_WAIT_EXPIRY (R489). -/
def initWaitOp (s : State) : State :=
  if s.fab.role ≠ .init then s
  else if s.flag Reg.FAB_PAIR_CFG_LOSS_POLICY = true ∧ s.flag Reg.FAB_PAIR_CFG_TWIN = false then becomeActive s s.raisedEpoch false
  else if s.fab.absentRaised then s
  else raise0 (s.modFab (fun f => { f with absentRaised := true })) 0x7009 0

/-- FENCE_TIMER: FENCE_US after the last heartbeats with the partner lost (R493). -/
def fenceTimerOp (s : State) : State :=
  if s.fab.role = .active ∧ s.partnerLost = true ∧ s.flag Reg.FAB_PAIR_CFG_LOSS_POLICY = false ∧
      s.flag Reg.FAB_STS_PARTNER_DOWN = false ∧ s.fab.fencing = false then beginFence s .fenced
  else s

/-- A frame that the splicer has not released (R493). -/
def Frame.unreleased (f : Frame) : Bool :=
  match f.stage with
  | .lookup => true | .missq => true | .lease => true | .follow => true | .farm => true
  | .queued => false | .slotted => false | .sending => false | .ended => false

/-- FENCE_DONE: unreleased frames are dropped and the new role is taken (R493). The code of the reason is free. -/
def fenceDoneOp (s : State) : State :=
  if s.fab.fencing then
    let s := dropAll s (s.framesWhere Frame.unreleased) Reg.FAB_STANDBY_DROP
    let s := setRole (s.modFab (fun f => { f with fencing := false })) s.fab.fenceTo
    let (v, s) := s.draw
    settleRepl (raise0 s 0x7007 (v.toNat % 2 ^ 32))
  else s

/-- A class 2 decision (R500): role code, PARTNER_DOWN, PAIR_ID and ROLE_EPOCH of its ROLE field. -/
def decideRole (s : State) (role : Nat) (down : Bool) (pairId epoch : Nat) : State :=
  if s.fab.role = .none ∨ pairId ≠ s.get Reg.FAB_PAIR_CFG_PAIR_ID ∨ epoch ≤ (s.rd Reg.FAB_EPOCH).toNat then
    s.inc Reg.FAB_DECISION_IGNORED
  else
    let s := s.setFlag Reg.FAB_STS_DISPUTE false
    let s := if role = 2 ∧ down = true then s.setFlag Reg.FAB_STS_PARTNER_DOWN true else s
    if role = 2 then becomeActive s epoch (decide (s.fab.role = .standIn))
    else settleRepl (leaveTo (s.wr Reg.FAB_EPOCH (w32 epoch)) (if role = 3 then .standIn else .fenced))

/-- FAB_STS as it reads (R503). -/
def State.fabSts (s : State) : Word :=
  let w := s.rd Reg.FAB_STS
  word [(Reg.FAB_STS_ROLE, s.fab.role.code), (Reg.FAB_STS_FAB_PATH_OK, b2n (s.pathOk .fab)),
    (Reg.FAB_STS_LVDS_PATH_OK, b2n (s.pathOk .lvds)), (Reg.FAB_STS_PARTNER_ROLE, fieldOf Reg.FAB_STS_PARTNER_ROLE w),
    (Reg.FAB_STS_REPL_CURRENT, b2n s.replCurrent), (Reg.FAB_STS_DISPUTE, fieldOf Reg.FAB_STS_DISPUTE w),
    (Reg.FAB_STS_PARTNER_DOWN, fieldOf Reg.FAB_STS_PARTNER_DOWN w), (Reg.FAB_STS_YIELD, fieldOf Reg.FAB_STS_YIELD w),
    (Reg.FAB_STS_FAB_MISSES, s.fab.fabTick.misses), (Reg.FAB_STS_LVDS_MISSES, s.fab.lvdsTick.misses)]

/-! ### Replication (R496, R497) -/


/-- The stand-in's entry is kept: a higher KEY_GEN, or the same and a higher MARK. -/
def keepsMark (old new : Mark) : Bool :=
  decide (new.keyGen < old.keyGen) || (decide (new.keyGen = old.keyGen) && decide (new.mark < old.mark))

/-- Write one replicated entry at its INDEX. -/
def takeMark (s : State) (m : Mark) : State :=
  if s.asc.size ≤ m.index then s
  else if (s.storedMark m.index).any (fun old => keepsMark old m) then s
  else writeMark s m.index m

/-- A MARK cell arrives at the stand-in: its entries are written and acknowledged by the cell's SEQ. -/
def markRx (s : State) (src seq : Nat) (p : List Byte) : State :=
  let n := byteAt p 0
  if s.fab.role ≠ .standIn ∨ src ≠ s.partner ∨ n = 0 ∨ 7 < n ∨ p.length ≠ 4 + 32 * n ∨ s.flag Reg.ASC_STS_STORE_READY = false then s
  else
    let s := if byteAt p 1 = 1 then s.setFlag Reg.FAB_STS_REPL_CURRENT false else s
    let s := ((List.range n).map (fun i => markOfBytes (sub p (4 + 32 * i) 32))).foldl takeMark s
    sendCell s cellMarkAck s.partner (toBe 2 seq)

/-- A MARK_ACK arrives at the active: the persists of its cell complete for R264; one without its cell is discarded (R501). -/
def markAckRx (s : State) (src : Nat) (p : List Byte) : State :=
  if src ≠ s.partner ∨ p.length < 2 then s
  else match s.fab.marks.find? (fun c => decide (c.seq = be (p.take 2))) with
    | none => s
    | some c =>
      let s := s.modFab (fun f => { f with marks := f.marks.filter (fun x => x.seq ≠ c.seq) })
      c.assocs.foldl (fun s a =>
        let s := s.modAsc (fun x => { x with persists := x.persists.map (fun q => if q.1 = a then (q.1, { q.2 with acked := true }) else q) })
        afterPersist (settlePersist s a) a) s

/-- MARK_RETRY: a MARK without its ACK after 10 µs is sent again, under the SEQ of the new cell. -/
def markRetryOp (seq : Nat) (s : State) : State :=
  match s.fab.marks.find? (fun c => decide (c.seq = seq)) with
  | none => s
  | some c =>
    let new := s.nextSeq cellMark s.partner
    let s := s.modFab (fun f => { f with marks := f.marks.map (fun x => if x.seq = seq then { x with seq := new } else x) })
    (sendCell s cellMark s.partner c.bytes).inc Reg.FAB_MARK_RETRIES

/-- RESYNC_SWEEP: the next entries of the store, seven at most. -/
def resyncSweepOp (s : State) : State :=
  match s.fab.resync with
  | none => s
  | some i =>
    if s.fab.role ≠ .active ∨ s.asc.size ≤ i then s
    else
      let es := (s.marksFrom i).take 7
      match es.getLast? with
      | none => s.modFab (fun f => { f with resync := some s.asc.size })
      | some l => sendMark (s.modFab (fun f => { f with resync := some (l.index + 1) })) true [] es

/-- RESYNC_DONE: the sweep is over and acknowledged: the active resumes, the stand-in is current. -/
def resyncDoneOp (s : State) : State :=
  match s.fab.role with
  | .active =>
    if s.fab.resync.any (fun i => decide (s.asc.size ≤ i)) && s.fab.marks.all (fun c => !c.resync) then resumeRepl s else s
  | .standIn => s.setFlag Reg.FAB_STS_REPL_CURRENT true
  | .none => s | .init => s | .fenced => s

/-! ### Planned switchover (R498) -/

/-- The partner is a STAND_IN with REPL_CURRENT on two good paths. -/
def State.mayYield (s : State) : Bool :=
  decide (s.get Reg.FAB_STS_PARTNER_ROLE = 3) && (s.rd Reg.FAB_PEER_HEALTH).getLsbD 27 && s.pathOk .fab && s.pathOk .lvds &&
    !s.fab.fencing

/-- A write of FAB_PAIR_CMD. -/
def pairCmdWrite (val : Word) (s : State) : State :=
  let go := decide (fieldOf Reg.FAB_PAIR_CMD_SWITCHOVER val = 1)
  if go && s.flag Reg.FAB_PAIR_CMD_BUSY then s.inc Reg.CTL_FAULT_BUSY
  else
    let s := storeReg Reg.FAB_PAIR_CMD val s
    if go = false then s
    else if s.fab.role ≠ .active then s.set Reg.FAB_PAIR_CMD_RESULT 1
    else if s.mayYield = false then s.set Reg.FAB_PAIR_CMD_RESULT 2
    else (s.setFlag Reg.FAB_PAIR_CMD_BUSY true).modFab (fun f => { f with switching := true })

/-- SWITCHOVER_DONE: frames in flight are released and every MARK acknowledged; the device yields as STAND_IN. -/
def switchoverDoneOp (s : State) : State :=
  if s.fab.switching = false then s
  else if s.mayYield = false then endSwitch s
  else if s.fab.marks = [] ∧ s.sch.frames.all (fun f => !f.unreleased || !f.flying) then
    let s := s.modFab (fun f => { f with switching := false })
    let s := s.wr Reg.FAB_PAIR_CMD (word [(Reg.FAB_PAIR_CMD_RESULT, 0)])
    setRole (s.setFlag Reg.FAB_STS_YIELD true) .standIn
  else s

/-! ### SELF_TEST (R499) -/

/-- SELF_TEST_RING: the ring tested last reports, and sleeps again; the next one wakes or tests its cores. -/
def selfTestRingOp (s : State) : State :=
  if s.fab.role ≠ .standIn ∨ s.selfTest = false then s
  else
    let n := s.fab.selfRing
    let last := (n + 31) % 32
    let ok := (ringCores last).all (fun c => (s.core c).inService)
    let s := if n = 0 then s else s.modFab (fun f => { f with katOk := f.katOk <<< 1 ||| BitVec.ofNat 32 (b2n ok) })
    let s := if n = 0 ∨ s.power = 0 ∨ s.ringMaySleep last = false ∨ s.flag (Reg.FRM_RING_CFG_KEEP_AWAKE last) then s
      else ringSleep s last
    let s := s.modFab (fun f => { f with selfRing := n + 1 })
    ringCmdWrite (n % 32) (ringWord true 0xFFFF) s

/-- The 24 bytes of a record that a state check covers. -/
def stateBytes (s : State) (a : Nat) : List Byte :=
  let r := s.asRec a
  toLe 4 a ++ [BitVec.ofNat 8 r.state.num, r.mode, r.port, r.flags] ++ toLe 4 r.keyGen ++
    toLe 4 (r.troupe.elim 0 (fun t => 2 ^ 31 + t)) ++ toLe 4 (r.succ.elim 0 (fun t => 2 ^ 31 + t)) ++ toLe 4 0

/-- CRC-32 over the records of a block of 1,024. -/
def blockCrc (s : State) (b : Nat) : Nat :=
  (crc32 (((List.range 1024).filter (fun i => decide (1024 * b + i < s.asc.size))).flatMap (fun i => stateBytes s (1024 * b + i)))).toNat

/-- Blocks of the store. -/
def State.stateBlocks (s : State) : Nat := (s.asc.size + 1023) / 1024

/-- STATE_CRC_TX: the active sends the next block's CRC. -/
def stateCrcTxOp (s : State) : State :=
  if s.fab.role ≠ .active ∨ s.selfTest = false then s
  else
    let b := s.fab.crcBlock % max 1 s.stateBlocks
    let s := sendCell s cellStateCrc s.partner (toBe 2 b ++ toBe 4 (blockCrc s b))
    s.modFab (fun f => { f with crcBlock := b + 1 })

/-- Push a block into FAB_DIVERGE_LOG. -/
def pushDiverge (s : State) (b : Nat) : State :=
  if s.fab.diverge.length < 16 then s.modFab (fun f => { f with diverge := f.diverge ++ [b] })
  else s.modFab (fun f => { f with divergeOvf := true })

/-- A STATE_CRC cell arrives at the stand-in; the last block ends a full check. -/
def stateCrcRx (s : State) (src : Nat) (p : List Byte) : State :=
  if s.fab.role ≠ .standIn ∨ s.selfTest = false ∨ src ≠ s.partner ∨ p.length ≠ 6 then s
  else
    let b := be (p.take 2)
    let s := if be (sub p 2 4) = blockCrc s b then s
      else raise0 (pushDiverge (s.modFab (fun f => { f with crcBad := true })) b) 0x700A b
    if b + 1 = s.stateBlocks then s.modFab (fun f => { f with stateMatch := !f.crcBad, crcBad := false }) else s

/-- A read of FAB_DIVERGE_LOG removes its oldest entry. -/
def divergeRead (s : State) : Word × State :=
  (logWord s.fab.diverge s.fab.divergeOvf, s.modFab (fun f => { f with diverge := f.diverge.drop 1, divergeOvf := false }))

/-! ### The commands -/

/-- FAB_LINK_UP -/
def execFabLinkUp (link : Fin 4) (s : State) : Host.Outcome State Fault Refusal := .next (live (fabLinkUpOp link) s)
/-- HELLO_TX -/
def execHelloTx (s : State) : Host.Outcome State Fault Refusal := .next (live helloTxOp s)
/-- NEIGHBOUR_LOST -/
def execNeighbourLost (link : Fin 4) (s : State) : Host.Outcome State Fault Refusal := .next (live (neighbourLostOp link) s)
/-- HEARTBEAT_TX -/
def execHeartbeatTx (s : State) : Host.Outcome State Fault Refusal := .next (live heartbeatTxOp s)
/-- LVDS_HEARTBEAT_RX -/
def execLvdsHeartbeatRx (hb : List Byte) (s : State) : Host.Outcome State Fault Refusal :=
  .next (live (fun s => heartbeatRx s .lvds hb) s)
/-- HB_TICK -/
def execHbTick (path : HbPath) (s : State) : Host.Outcome State Fault Refusal := .next (live (hbTickOp path) s)
/-- INIT_WAIT_EXPIRY -/
def execInitWaitExpiry (s : State) : Host.Outcome State Fault Refusal := .next (live initWaitOp s)
/-- FENCE_TIMER -/
def execFenceTimer (s : State) : Host.Outcome State Fault Refusal := .next (live fenceTimerOp s)
/-- FENCE_DONE -/
def execFenceDone (s : State) : Host.Outcome State Fault Refusal := .next (live fenceDoneOp s)
/-- MARK_RETRY -/
def execMarkRetry (seq : BitVec 16) (s : State) : Host.Outcome State Fault Refusal := .next (live (markRetryOp seq.toNat) s)
/-- RESYNC_SWEEP -/
def execResyncSweep (s : State) : Host.Outcome State Fault Refusal := .next (live resyncSweepOp s)
/-- RESYNC_DONE -/
def execResyncDone (s : State) : Host.Outcome State Fault Refusal := .next (live resyncDoneOp s)
/-- SWITCHOVER -/
def execSwitchover (who : Who) (s : State) : Host.Outcome State Fault Refusal :=
  .next (gateOwner who Reg.FAB_PAIR_CMD (pairCmdWrite (word [(Reg.FAB_PAIR_CMD_SWITCHOVER, 1)])) s)
/-- SWITCHOVER_DONE -/
def execSwitchoverDone (s : State) : Host.Outcome State Fault Refusal := .next (live switchoverDoneOp s)
/-- SELF_TEST_RING -/
def execSelfTestRing (s : State) : Host.Outcome State Fault Refusal := .next (live selfTestRingOp s)
/-- STATE_CRC_TX -/
def execStateCrcTx (s : State) : Host.Outcome State Fault Refusal := .next (live stateCrcTxOp s)

end Sys2Proof.Machine
end

