-- ==== Sys2Proof/Machine/Startup.lean ====
section
/-! DEFINITION. Reset and start-up (02 R89 to R94; 16 R570, R575, R576; 14 R523) and the always-on domain with its tamper
monitors, evidence and doubled decisions (14 R525 to R534, R538). -/

namespace Sys2Proof.Machine

/-- Change the always-on domain. -/
def State.modAon (s : State) (f : Aon → Aon) : State := { s with aon := f s.aon }

/-! ### Reset (R92, R575) -/

/-- A register that a reset does not touch: the always-on window (R525), and MGD_HALT_REC while the retention store holds
(R428). The seal that follows the reset still needs the capacity in MGD_DDR_STS, which the release writes anew. -/
def keepsReg (lost : Bool) (off : Nat) : Bool :=
  decide (winOf off = .aon) || (!lost && (decide (Reg.MGD_HALT_REC ≤ off) && decide (off ≤ Reg.MGD_HALT_REC3) ||
    decide (off = Reg.MGD_DDR_STS)))


/-- The vault after a reset: fuses, battery-backed secret and owner banks (R429). -/
def keptVault (v : Vlt) : Vlt := { resetVlt with otp := v.otp, bbs := v.bbs, bank0 := v.bank0, bank1 := v.bank1 }

/-- The guard after a reset: the retention store and what memory holds, which a power-on reset loses (R419). What a dirty resident slot
held alone is lost (R255). -/
def keptMemory (m : Mgd) (lost : Bool) : Mgd :=
  if lost then resetMgd
  else { resetMgd with
    ret := m.ret, lines := m.lines, ctrs := m.ctrs, tree := m.tree, dirty := m.dirty, badLines := m.badLines }

/-- The device in reset. With `lost`, the retention store and external memory are lost too. -/
def enterReset (s : State) (lost : Bool) : State :=
  let s := updCut s
  { State.reset with
    pending := s.pending, clk := s.clk, draws := s.draws, out := s.out,
    regs := s.regs.filter (fun p => keepsReg lost p.1),
    mgd := keptMemory s.mgd lost, vlt := keptVault s.vlt,
    gaf := { resetGaf with dips := if lost then [] else s.gaf.dips },
    aon := s.aon, evt := { resetEvt with lastHalt := if lost then none else s.evt.lastHalt } }

/-- RESET_ASSERT: RESET_N or PERST_N. On battery there is nothing to reset. The seal is its own command. -/
def resetAssertOp (s : State) : State := if s.ctl.cond = .battery then s else enterReset s false

/-- POWER_ON_RESET: every rail is in its limits (R570); the always-on domain is on main power. -/
def powerOnOp (s : State) : State := (enterReset s true).modAon (fun a => { a with onBattery := false })

/-- VDD_AUX is gone: the always-on domain runs from VBAT (R523). -/
def toBattery (s : State) : State :=
  let s := (enterReset s true).modAon (fun a => { a with onBattery := true })
  { s with ctl := { s.ctl with cond := .battery } }

/-- RAIL_BELOW_RESET (R523). -/
def railBelowOp (r : Rail) (s : State) : State :=
  if s.ctl.cond = .battery then s
  else match r with
    | .core => enterReset s true
    | .aux => toBattery s
    | .sdA => live (fun s => railLow s r) s
    | .sdH => live (fun s => railLow s r) s
    | .ddr => live (fun s => railLow s r) s

/-- LC_SELF_RESET: 1 ms after a life-cycle transition (R439). -/
def lcResetOp (s : State) : State := if s.vlt.lcReset then enterReset s false else s

/-- The boot mode that the straps and the life-cycle state select (R63, R437): 0 NORMAL, 1 RECOVERY, 2 TEST. -/
def bootModeOf (strap lc : Nat) : Nat :=
  if strap = 0 then 0 else if strap = 2 ∧ (lc = 1 ∨ lc = 4) then 2 else 1

/-- RESET_RELEASE: stage 1 is complete and the straps are sampled (R89, R391, R576). It waits for every rail to leave its
warning (R570). -/
def resetReleaseOp (boot : BitVec 2) (ddr : BitVec 4) (s : State) : State :=
  if s.ctl.cond ≠ .reset ∨ s.stage ≠ 1 ∨ s.gaf.dips ≠ [] then s
  else
    let s := { s with ctl := { s.ctl with bootStrap := boot, ddrStrap := ddr } }
    let s := s.set Reg.CTL_BOOT_MODE (bootModeOf boot.toNat (lcCode s.vlt.otp))
    let s := s.wr Reg.MGD_DDR_STS (word [(Reg.MGD_DDR_STS_SUBCH, ddr.toNat % 4), (Reg.MGD_DDR_STS_CAP, ddr.toNat / 4)])
    s.toStage 2

/-! ### Evidence (R532, R533) -/

/-- Evidence bits burnt. -/
def State.evidence (s : State) : Nat := s.vlt.otp.evidence

/-- Burn n evidence bits, up to the last one. -/
def burnEvidence (s : State) (n : Nat) : State :=
  { s with vlt := { s.vlt with otp := { s.vlt.otp with evidence := min 64 (s.vlt.otp.evidence + n) } } }

/-- The events of n evidence bits burnt while there were `before` (R536). -/
def raiseBurnt (s : State) (before n : Nat) : State :=
  let s := (List.range n).foldl (fun s _ => raise0 s 0x040C 0) s
  if before < 64 ∧ 64 ≤ before + n then raise0 (s.setFlag Reg.VLT_STS_EVIDENCE_SATURATED true) 0x040D 0 else s

/-- Stage 2 is complete: reset is released to the rest of the die, the rings wake, and the battery record is reported. -/
def leaveReset (s : State) (before burnt : Nat) : State :=
  let s := ({ s with ctl := { s.ctl with cond := .running } }).toStage 3
  let s := (List.range 32).foldl (fun s r => s.setRing r .waking) s
  let s := raiseBurnt s before burnt
  if s.aon.latch = 0 then s else raise0 (s.setFlag Reg.AON_STS_BAT_TAMPER true) 0x040B s.aon.latch.toNat

/-- AON_CHECK_DONE: pending evidence is burnt, discarded, or the device stays in reset (R533). -/
def aonCheckOp (burnOk : Bool) (s : State) : State :=
  if s.ctl.cond ≠ .reset ∨ s.stage ≠ 2 then s
  else
    let before := s.evidence
    let n := min s.aon.pendingBurn (64 - before)
    if n = 0 then leaveReset (s.modAon (fun a => { a with pendingBurn := 0 })) before 0
    else if s.frozenRails then s
    else if burnOk then leaveReset ((burnEvidence s n).modAon (fun a => { a with pendingBurn := 0 })) before n
    else stageFail s 2 0x040E

/-- EVIDENCE_BURN: the burn that an alarm on main power made due; a saturated counter burns nothing (R530, R532). -/
def evidenceBurnOp (readBack : Bool) (s : State) : State :=
  if s.aon.dueBurn = 0 ∨ s.frozenRails = true then s
  else
    let before := s.evidence
    let less := s.modAon (fun a => { a with dueBurn := a.dueBurn - 1 })
    if before = 64 then less
    else if readBack then raiseBurnt (burnEvidence less 1) before 1
    else raise0 s 0x040E 0

/-! ### Monitors (R527 to R531) -/

/-- A monitor that has seen nothing. -/
def noMonitor : Monitor := { events := [], now := 0, cond := false }

/-- Monitor m. -/
def State.mon (s : State) (m : Nat) : Monitor := mlook noMonitor m s.aon.mons

/-- Change a monitor. -/
def State.modMon (s : State) (m : Nat) (f : Monitor → Monitor) : State :=
  s.modAon (fun a => { a with mons := mstore noMonitor m (f (s.mon m)) a.mons })

/-- Monitor m runs on the present supply. -/
def State.monOn (s : State) (m : Nat) : Bool :=
  if s.aon.onBattery then s.flag (Reg.AON_MON_CFG_BAT_EN m) else s.flag (Reg.AON_MON_CFG_EN m)

/-- The monitor after a sample: its events within the window, and whether they make an alarm. -/
def sampleMon (x : Monitor) (n w : Nat) (event : Bool) (ms : Nat) : Monitor :=
  let old := x.events.filter (fun t => decide (ms < t + w))
  let es := if event then ms :: old else old
  { events := es.take 255, now := ms, cond := if n = 1 then event else decide (n ≤ es.length) }

/-- An alarm on main power (R530). -/
def alarmMain (s : State) (m : Nat) : State :=
  let s := raise0 (s.inc Reg.AON_ALARMS) (0x0401 + m) 0
  if s.flag (Reg.AON_MON_CFG_EVIDENCE m) then s.modAon (fun a => { a with dueBurn := a.dueBurn + 1 }) else s

/-- An alarm on battery (R531). -/
def alarmBattery (s : State) (m : Nat) : State :=
  let s := s.modAon (fun a => { a with
    latch := a.latch ||| BitVec.ofNat 9 (2 ^ m),
    pendingBurn := if s.flag (Reg.AON_MON_CFG_EVIDENCE m) then min 15 (a.pendingBurn + 1) else a.pendingBurn })
  ({ s with vlt := { s.vlt with bbs := none } }).inc Reg.AON_ALARMS

/-- An alarm acts as the supply stands. -/
def alarm (s : State) (m : Nat) : State := if s.aon.onBattery then alarmBattery s m else alarmMain s m

/-- MONITOR_SAMPLE: a sample of monitor m at a time in ms (R529); the first taking of its decision (R534). -/
def monitorOp (m : Fin 9) (event : Bool) (ms : Nat) (s : State) : State :=
  if s.ctl.cond ≠ .running ∧ s.ctl.cond ≠ .battery then s
  else if s.monOn m = false then s.modMon m (fun x => { x with cond := false })
  else
    let was := (s.mon m).cond
    let n := max 1 (s.get (Reg.AON_MON_CFG_N m))
    let w := max 1 (s.get (Reg.AON_MON_CFG_W_MS m))
    let s := if event then s.inc (Reg.AON_EVENTS m) else s
    let s := s.modMon m (fun x => sampleMon x n w event ms)
    let now := (s.mon m).cond
    let s := takeFirst s (.monitor m) now
    if now && !was then alarm s m else s

/-- The second taking of monitor m's decision: a disagreement takes the alarm and raises AON_VERDICT_DISAGREE at the rung
of the monitor's own event (R534). -/
def monitorSecond (s : State) (m : Fin 9) (first upset : Bool) : State :=
  let s := dropTaking s (.monitor m)
  if upset = false then s
  else
    let s := if first then s else alarm s m
    if s.aon.onBattery then s else raiseAt s (rungOf s (0x0401 + m.val)) 0x040A m.val 0 none

/-- VERDICT_SECOND_TAKING: what it finds is the first taking's verdict, or with an upset its opposite. A memory verdict that
disagrees halts (R416): the failing line is not known. A halted device acts on no later event (R546). -/
def secondTakingOp (d : Decision) (upset : Bool) (s : State) : State :=
  if s.ctl.cond ≠ .running ∧ s.ctl.cond ≠ .battery then s
  else match d with
  | .memory =>
    if upset then
      let (v, s) := s.draw
      live (fun s => raise0 (haltRec s 0x6003 (v.toNat % 256) (v.toNat / 256 % 2 ^ 29)) 0x6003 0) s
    else s
  | .monitor m => match s.ctl.doubled.find? (fun x => x.decision = d) with
    | some x => monitorSecond s m x.first upset
    | none => s
  | .signature => s.modCtl (fun c => { c with doubled := c.doubled.map (fun x =>
      if x.decision = d then { x with second := some (x.first ^^ upset) } else x) })
  | .update => s.modCtl (fun c => { c with doubled := c.doubled.map (fun x =>
      if x.decision = d then { x with second := some (x.first ^^ upset) } else x) })

/-! ### The always-on registers (R538) -/

/-- VBAT_LOW: VBAT falls below 2.3 V; the event on entry (R526). On battery only the flag is set. -/
def vbatLowOp (s : State) : State :=
  if s.flag Reg.AON_STS_VBAT_LOW then s
  else
    let s := s.setFlag Reg.AON_STS_VBAT_LOW true
    if s.running then raise0 s 0x040F 0 else s

/-- AON_STS as it reads. -/
def State.aonSts (s : State) : Word :=
  let w := s.rd Reg.AON_STS
  word [(Reg.AON_STS_VBAT_LOST, b2n s.aon.vbatLost), (Reg.AON_STS_VBAT_LOW, fieldOf Reg.AON_STS_VBAT_LOW w),
    (Reg.AON_STS_XTAL_OK, fieldOf Reg.AON_STS_XTAL_OK w), (Reg.AON_STS_BAT_TAMPER, fieldOf Reg.AON_STS_BAT_TAMPER w),
    (Reg.AON_STS_PENDING, s.aon.pendingBurn), (Reg.AON_STS_SATURATED, b2n (decide (64 ≤ s.evidence))),
    (Reg.AON_STS_EVIDENCE, s.evidence)]

/-- AON_ALARM_ACTIVE: the monitors whose condition holds (R529). -/
def State.alarmActive (s : State) : Word :=
  word [(Reg.AON_ALARM_ACTIVE_MONITORS, (List.range 9).foldl (fun a m => a + b2n (s.mon m).cond * 2 ^ m) 0)]

/-- A read of AON_LATCH returns and clears the battery record. -/
def latchRead (s : State) : Word × State :=
  (word [(Reg.AON_LATCH_VALID, b2n (decide (s.aon.latch ≠ 0))), (Reg.AON_LATCH_MONITORS, s.aon.latch.toNat)],
    s.modAon (fun a => { a with latch := 0 }))

/-- A read of AON_TEMP: the die temperature is a measurement (log 6). -/
def tempRead (s : State) : Word × State :=
  let (v, s) := s.draw
  (setBits (s.rd Reg.AON_TEMP) 7 0 v.toNat, s)

/-- PORTS_ENABLE: stage 10 (R89); a TEST start ends with stage 9 (R94). -/
def portsEnableOp (s : State) : State := if s.stage = 9 ∧ s.bootMode = 0 then s.toStage 10 else s

/-! ### The commands -/

/-- RESET_ASSERT -/
def execResetAssert (_ball : ResetBall) (s : State) : Host.Outcome State Fault Refusal := .next (resetAssertOp s)
/-- POWER_ON_RESET -/
def execPowerOnReset (s : State) : Host.Outcome State Fault Refusal := .next (powerOnOp s)
/-- RESET_RELEASE -/
def execResetRelease (bootMode : BitVec 2) (ddrCfg : BitVec 4) (s : State) : Host.Outcome State Fault Refusal :=
  .next (resetReleaseOp bootMode ddrCfg s)
/-- AON_CHECK_DONE -/
def execAonCheckDone (burnOk : Bool) (s : State) : Host.Outcome State Fault Refusal := .next (aonCheckOp burnOk s)
/-- PORTS_ENABLE -/
def execPortsEnable (s : State) : Host.Outcome State Fault Refusal := .next (live portsEnableOp s)
/-- LC_SELF_RESET -/
def execLcSelfReset (s : State) : Host.Outcome State Fault Refusal := .next (live lcResetOp s)
/-- RAIL_BELOW_RESET -/
def execRailBelowReset (rail : Rail) (s : State) : Host.Outcome State Fault Refusal := .next (railBelowOp rail s)
/-- VBAT_LOW -/
def execVbatLow (s : State) : Host.Outcome State Fault Refusal := .next (vbatLowOp s)
/-- MONITOR_SAMPLE -/
def execMonitorSample (m : Fin 9) (event : Bool) (sampleMs : Nat) (s : State) : Host.Outcome State Fault Refusal :=
  .next (monitorOp m event sampleMs s)
/-- EVIDENCE_BURN -/
def execEvidenceBurn (readBack : Bool) (s : State) : Host.Outcome State Fault Refusal := .next (live (evidenceBurnOp readBack) s)
/-- VERDICT_SECOND_TAKING -/
def execVerdictSecondTaking (decision : Decision) (upset : Bool) (s : State) : Host.Outcome State Fault Refusal :=
  .next (secondTakingOp decision upset s)

end Sys2Proof.Machine
end

