-- ==== Sys2Proof/Machine/Alarms.lean ====
section
/-! DEFINITION. Alarms, counters and spotlight as they are read and commanded (15 R544, R545, R548, R550 to R553, R558,
R560 to R562). Raising an event stands in Flags. -/

namespace Sys2Proof.Machine

/-- Change the alarm unit. -/
def State.modEvt (s : State) (f : Evt → Evt) : State := { s with evt := f s.evt }

/-- Change counters, dailies and spotlight. -/
def State.modCnt (s : State) (f : Cnt → Cnt) : State := { s with cnt := f s.cnt }

/-! ### Alarms -/

/-- EVT_STS as it reads (R560). -/
def State.evtSts (s : State) : Word :=
  word [(Reg.EVT_STS_RUNG, s.rung), (Reg.EVT_STS_QDEV, s.get Reg.EVT_STS_QDEV), (Reg.EVT_STS_ZEROISED, b2n s.zeroised),
    (Reg.EVT_STS_ALARM, b2n s.alarmLow), (Reg.EVT_STS_LOG_COUNT, s.evt.log.length)]

/-- EVT_PEND_UNITS[i]. -/
def State.pendUnits (s : State) (i : Nat) : Word :=
  w32 ((List.range 32).foldl (fun a b => a + b2n (decide (s.rd (Reg.EVT_PEND (32 * i + b)) ≠ 0)) * 2 ^ b) 0)

/-- Word i of the oldest log record, 0 for an empty log (R545). -/
def State.logWordAt (s : State) (i : Nat) : Word := match s.evt.log with
  | [] => 0
  | r :: _ => (logWords r).getD i 0

/-- Word i of EVT_LAST_HALT (R546). -/
def State.lastHaltAt (s : State) (i : Nat) : Word := match s.evt.lastHalt with
  | none => 0
  | some r => (logWords r).getD i 0

/-- The read of EVT_LOG[3] removes the oldest record, and EVT_LOG_OVF may be raised again (R545). -/
def popLog (s : State) : State :=
  if s.evt.log = [] then s else s.modEvt (fun e => { e with log := e.log.drop 1, ovfRaised := false })

/-- A write of EVT_RELEASE_PORTS lifts the port pairs it names (R544). -/
def releasePorts (val : Word) (s : State) : State := s.wr Reg.EVT_QUIESCE_PORTS (s.rd Reg.EVT_QUIESCE_PORTS &&& ~~~ val)

/-- A 1 written to EVT_STS.QDEV lifts the device quiesce, unless a zeroise holds; the device no longer yields. -/
def liftQdev (s : State) : State :=
  if s.zeroised ∨ s.flag Reg.EVT_STS_QDEV = false then s
  else
    let s := s.setFlag Reg.EVT_STS_QDEV false
    if s.fab.role = .fenced then s.setFlag Reg.FAB_STS_YIELD false else s

/-- A write of 1 to bit 12 of EVT_LAST_HALT[0] clears the record. -/
def lastHaltWrite (val : Word) (s : State) : State :=
  if val.getLsbD 12 then s.modEvt (fun e => { e with lastHalt := none }) else s

/-- A write of an EVT_MAP entry: a fixed RUNG is not changed (R542). -/
def mapWriteOp (off : Nat) (val : Word) (s : State) : State :=
  let old := s.rd off
  storeReg off (if old.getLsbD 31 then setBits val 24 22 (bits old 24 22) else val) s

/-- Send the held message of a vector that is no longer masked (R548). -/
def sendHeld (s : State) (v : Nat) : State :=
  if s.evt.msixHeld.contains v && !vectorMasked s v then
    (s.modEvt (fun e => { e with msixHeld := ldel v e.msixHeld })).emit (.msix v)
  else s

/-- MSIX_UNMASK of a vector, by bit 0 of its table entry's last word, or of the function. -/
def msixUnmaskOp (v : Option Nat) (s : State) : State :=
  match v with
  | some v => sendHeld (s.wr (Reg.MSIX_TABLE v 3) (s.rd (Reg.MSIX_TABLE v 3) &&& ~~~ 1#32)) v
  | none => (List.range 8).foldl sendHeld s

/-- A write of the MSI-X table; it may unmask a vector. -/
def msixWrite (off : Nat) (val : Word) (s : State) : State := sendHeld (storeReg off val s) ((off - Reg.MSIX_TABLE 0 0) / 16)

/-- The pending-bit array. -/
def State.msixPending (s : State) : Word := w32 (s.evt.msixHeld.foldl (fun a v => a + 2 ^ v) 0)

/-! ### Counters -/

/-- SNAP of a group into a path's buffer (R552). -/
def snapOp (p : Path) (g : Nat) (s : State) : State :=
  let offs := groupOffs g
  let vals := (List.range offs.length).map (fun i => (i, s.ctr (offs.getD i 0)))
  s.modPath p (fun x => { x with snapGroup := some g, snap := vals.filter (fun e => e.2 ≠ 0) })

/-- BUSY of a path's CNT_WIN_CMD. -/
def State.winBusy (s : State) (p : Path) : Bool := (s.path p).cntWin.getLsbD 31

/-- A write of a path's CNT_WIN_CMD (R552, R584); SNAP completes in the step that starts it (log 24). -/
def winCmdWrite (p : Path) (val : Word) (s : State) : State :=
  let go := decide (fieldOf Reg.CNT_WIN_CMD_GO val = 1)
  if go && s.winBusy p then s.inc Reg.CTL_FAULT_BUSY
  else
    let s := s.modPath p (fun x => { x with cntWin := val &&& 0x7FF#32 })
    if go then snapOp p (fieldOf Reg.CNT_WIN_CMD_GROUP val) s else s

/-- CLEAR of a group: its counters and its wrap bits (R551). -/
def clearGroup (g : Nat) (s : State) : State :=
  let offs := groupOffs g
  let lo := groupBase g * 512
  let n := groupCount g
  s.modCnt (fun c => { c with
    vals := c.vals.filter (fun p => !offs.contains p.1),
    wraps := c.wraps.filter (fun x => !(decide (lo ≤ x) && decide (x < lo + n))) })

/-- A write of CNT_CLEAR (R551, R584); the clear completes in the step that starts it (log 24). -/
def clearWrite (val : Word) (s : State) : State :=
  let go := decide (fieldOf Reg.CNT_CLEAR_GO val = 1)
  startUnlessBusy Reg.CNT_CLEAR_BUSY go (fun s =>
    let s := storeReg Reg.CNT_CLEAR val s
    if go then clearGroup (fieldOf Reg.CNT_CLEAR_GROUP val) s else s) s

/-- The counter at CNT offset x: group areas stand in index order (R550). -/
def ctrAt (x : Nat) : Option Nat :=
  (List.range 201).findSome? (fun g =>
    let b := groupBase g * 4096
    if b ≤ x ∧ x < b + groupCount g * 8 then (groupOffs g)[(x - b) / 8]? else none)

/-- Word i of the wrap bits (R551). -/
def State.wrapWord (s : State) (i : Nat) : Word :=
  w32 ((List.range 32).foldl (fun a b => a + b2n (s.cnt.wraps.contains (32 * i + b)) * 2 ^ b) 0)

/-- A 1 written to a wrap bit clears it. -/
def wrapWrite (i : Nat) (val : Word) (s : State) : State :=
  s.modCnt (fun c => { c with wraps := c.wraps.filter (fun x => !(decide (x / 32 = i) && val.getLsbD (x % 32))) })

/-- CNT_DIR of group g, as 64 bits (R561). -/
def dirEntry (g : Nat) : Nat := if g < 201 then groupBase g * 2 ^ 20 + groupCount g else 0

/-- Word w of daily entry q of port n (R554). -/
def State.dailyWord (s : State) (n q w : Nat) : Word := ((mget (n * 16 + q) s.cnt.dailies).getD []).getD w 0

/-- What a 32-bit place of the CNT window reads as by its CNT offset x: group areas, dailies, a path's snapshot, wrap bits and
the directory. 64-bit values stand low word first. -/
def State.cntRead (s : State) (p : Path) (x : Nat) : Word :=
  let half := fun (v : Nat) => w32 (if x % 8 = 0 then v else v / 2 ^ 32)
  if x < 0x3A0000 then (match ctrAt (x / 8 * 8) with | some off => half (s.ctr off) | none => 0)
  else if x < 0x3B0000 then
    let y := x - 0x3A0000
    s.dailyWord (y / 0x400) (y % 0x400 / 64) (y % 64 / 4)
  else if 0x3C0000 ≤ x ∧ x < 0x3D0000 then half (mlook 0 ((x - 0x3C0000) / 8) (s.path p).snap)
  else if 0x3D0000 ≤ x ∧ x < 0x3E0000 then s.wrapWord ((x - 0x3D0000) / 4)
  else if 0x3E0000 ≤ x ∧ x < 0x3E0000 + 8 * 2047 then half (dirEntry ((x - 0x3E0000) / 8))
  else 0

/-- Group g is exposed to BAR2 (R553). -/
def State.exposed (s : State) (g : Nat) : Bool := nbit (s.rd (Reg.CNT_EXPOSE (g / 32))).toNat (g % 32)

/-- The group of daily port n: its ETH, KOR or ELN entry (R65, R553). -/
def State.dailyGroup (s : State) (n : Nat) : Nat := if n < 32 then 93 + n else if s.isKorone (n - 32) then 126 + (n - 32) else 159 + (n - 32)

/-- The group whose exposure a BAR2 read of CNT offset x needs, none where BAR2 shows nothing; the directory needs none. -/
def State.bar2Shows (s : State) (x : Nat) : Bool :=
  if x < 0x3A0000 then (match ctrAt (x / 8 * 8) with | some off => s.exposed (groupOf off) | none => false)
  else if x < 0x3B0000 then s.exposed (s.dailyGroup ((x - 0x3A0000) / 0x400))
  else if 0x3D0000 ≤ x ∧ x < 0x3E0000 then true
  else decide (0x3E0000 ≤ x) && decide (x < 0x3E0000 + 8 * 2047)

/-- Wrap bits that BAR2 shows: those of exposed groups. -/
def State.bar2Wraps (s : State) (i : Nat) : Word :=
  w32 ((List.range 32).foldl (fun a b =>
    let c := 32 * i + b
    a + b2n (s.cnt.wraps.contains c && (match ctrAt (8 * c) with | some off => s.exposed (groupOf off) | none => false)) * 2 ^ b) 0)

/-! ### Spotlight -/

/-- A write of SPT_TAIL frees read traces, and SPT_FULL may be raised again (R558). -/
def tailWrite (val : Word) (s : State) : State :=
  (storeReg Reg.SPT_TAIL val s).modCnt (fun c => { c with sptFullRaised := false })

/-- Word w of trace i in the ring. -/
def State.traceWord (s : State) (i w : Nat) : Word := ((mget i s.cnt.traces).getD []).getD w 0

/-! ### The commands -/

/-- RELEASE_PORTS -/
def execReleasePorts (who : Who) (ports : Word) (s : State) : Host.Outcome State Fault Refusal :=
  .next (gateOwner who Reg.EVT_RELEASE_PORTS (releasePorts ports) s)
/-- QDEV_LIFT -/
def execQdevLift (who : Who) (s : State) : Host.Outcome State Fault Refusal := .next (gateOwner who Reg.EVT_STS liftQdev s)
/-- MSIX_UNMASK -/
def execMsixUnmask (vector : Option (Fin 8)) (s : State) : Host.Outcome State Fault Refusal :=
  .next (live (msixUnmaskOp (vector.map (fun v => v.val))) s)
/-- CNT_SNAP -/
def execCntSnap (who : Who) (group : BitVec 11) (s : State) : Host.Outcome State Fault Refusal :=
  .next (gate who .cntWin Reg.CNT_WIN_CMD
    (winCmdWrite who.path (word [(Reg.CNT_WIN_CMD_GO, 1), (Reg.CNT_WIN_CMD_GROUP, group.toNat)])) s)
/-- CNT_CLEAR -/
def execCntClear (who : Who) (group : BitVec 11) (s : State) : Host.Outcome State Fault Refusal :=
  .next (gateOwner who Reg.CNT_CLEAR
    (clearWrite (word [(Reg.CNT_CLEAR_GO, 1), (Reg.CNT_CLEAR_GROUP, group.toNat)])) s)
/-- SPT_TAIL_WRITE -/
def execSptTailWrite (who : Who) (index : BitVec 12) (s : State) : Host.Outcome State Fault Refusal :=
  .next (gateOwner who Reg.SPT_TAIL (tailWrite (w32 index.toNat)) s)

end Sys2Proof.Machine
end

