-- ==== Sys2Proof/Machine/Loader.lean ====
section
/-! DEFINITION. The loader (02, R60 to R62, R70 to R78): staging an image, the formats of scripts, scenes and arbiter
decisions, and the checks of VERIFY. Applying what has verified stands in Apply. -/

namespace Sys2Proof.Machine

/-! ### Staging (R74 to R77) -/

/-- STATE of the loader: 0 IDLE, 1 OPEN, 2 VERIFYING, 3 VERIFIED, 4 APPLYING, 5 DONE, 6 FAILED. -/
def State.loadState (s : State) : Nat := s.get Reg.CTL_LOAD_STATUS_STATE

/-- KIND being loaded: 1 FIRMWARE, 2 SCRIPT, 3 SCENE, 4 DECISION. -/
def State.loadKind (s : State) : Nat := s.get Reg.CTL_LOAD_STATUS_KIND

/-- This path holds the loader. -/
def State.holds (s : State) (who : Who) : Bool := holderIs s (pathCode who.path) who.addr.toNat

/-- A command that R75 does not accept. -/
def loadRefuse (s : State) : State := s.inc Reg.CTL_FAULT_OWNER

/-- The path may open the loader for a kind (R53, R54, R74). -/
def State.mayOpen (s : State) (who : Who) (kind : Nat) : Bool :=
  if kind = 1 then decide (s.stage = 5) && (!s.owned || s.isOwner who)
  else if kind = 2 ∨ kind = 3 then s.isOwner who
  else decide (kind = 4)

/-- OPEN (R74, R75). The staging SRAM is empty, its unwritten words 0; the firmware area of external memory keeps what it holds
(DESIGN CHOICE, log 38). -/
def loadOpenOp (who : Who) (kind len : Nat) (s : State) : State :=
  let st := s.loadState
  if (st = 0 ∨ st = 5 ∨ st = 6) ∧ s.mayOpen who kind = true ∧ pathCode who.path ≠ 0 ∧ len % 4 = 0 then
    (s.wr Reg.CTL_LOAD_STATUS (word [(Reg.CTL_LOAD_STATUS_STATE, 1), (Reg.CTL_LOAD_STATUS_HOLDER, pathCode who.path),
      (Reg.CTL_LOAD_STATUS_KIND, kind), (Reg.CTL_LOAD_STATUS_RESULT, s.get Reg.CTL_LOAD_STATUS_RESULT)])).modCtl
      (fun c => { c with holderAddr := who.addr, image := [], imageLen := len })
  else loadRefuse s

/-- Word i of the image goes to where its kind is staged (R74): firmware to region 0 of external memory, from its offset 0 on
(R396), one guarded write of part of a line for each word (DESIGN CHOICE, log 38); the other kinds to the staging SRAM. -/
def stageWord (s : State) (i : Nat) (data : Word) : State :=
  if s.loadKind = 1 then (if s.served 0 = true then writePart s (s.rgnBase 0 * unitLines + i / 16) (4 * (i % 16)) (wordBytes [data]) else s)
  else s.modCtl (fun c => { c with image := mstore 0 i data c.image })

/-- A CTL_LOAD_DATA write (R75): a word beyond the image's length is not kept. -/
def loadDataOp (who : Who) (data : Word) (s : State) : State :=
  if s.loadState = 1 ∧ s.holds who = true then
    let i := s.get Reg.CTL_LOAD_ADDR_WORD
    (if 4 * i < s.ctl.imageLen then stageWord s i data else s).set Reg.CTL_LOAD_ADDR_WORD (i + 1)
  else loadRefuse s

/-- A write of CTL_LOAD_ADDR: from the ringmaster, or from the holder, which has opened a DECISION or, on an UNOWNED device,
FIRMWARE (R53, R54). -/
def loadAddrWrite (who : Who) (val : Word) (s : State) : State :=
  if s.holds who ∨ s.isOwner who then storeReg Reg.CTL_LOAD_ADDR val s else loadRefuse s

/-- CLOSE from the holder (R75). -/
def loadCloseOp (who : Who) (s : State) : State :=
  if s.holds who = true ∧ s.loadState ≠ 4 then
    loaderIdle s (if s.loadState = 2 then 13 else s.get Reg.CTL_LOAD_STATUS_RESULT)
  else loadRefuse s

/-- LOADER_IDLE_TIMEOUT (R77). -/
def loadTimeoutOp (s : State) : State := if s.loadState = 1 ∨ s.loadState = 3 then loaderIdle s 13 else s

/-- The staged image, read from where its kind is staged (R74). -/
def imageBytes (s : State) : List Byte :=
  if s.loadKind = 1 then (s.linesAt (s.rgnBase 0 * unitLines) (s.ctl.imageLen / 64 + 1)).take s.ctl.imageLen
  else wordBytes ((List.range (s.ctl.imageLen / 4)).map (fun i => mlook 0 i s.ctl.image))

/-! ### Scripts and scenes (R70 to R73) -/

/-- A write record (R71): an offset and a value or mask. -/
structure Record where
  off : Nat
  val : Word
  deriving DecidableEq, Repr

/-- A section: TYPE, OFFSET and SIZE (R70). -/
structure Section where
  type : Nat
  offset : Nat
  size : Nat
  deriving DecidableEq, Repr

/-- SECTIONS of the header. -/
def sectionCount (b : List Byte) : Nat := be (sub b 20 2)

/-- The section table. -/
def sectionTable (b : List Byte) : List Section :=
  (List.range (sectionCount b)).map (fun j =>
    { type := be (sub b (64 + 12 * j) 2), offset := be (sub b (68 + 12 * j) 4), size := be (sub b (72 + 12 * j) 4) })

/-- The records of a section in file order. -/
def recordsOf (b : List Byte) (x : Section) : List Record :=
  (List.range (x.size / 8)).map (fun i =>
    { off := be (sub b (x.offset + 8 * i) 4), val := w32 (be (sub b (x.offset + 8 * i + 4) 4)) })

/-- The records of every section of a type. -/
def recordsFor (b : List Byte) (t : Nat) : List Record := (sectionTable b).flatMap (fun x => if x.type = t then recordsOf b x else [])

/-- The units that a section type may name, none where it may name all (R72). -/
def sectionUnits (t : Nat) : List Win :=
  match t with
  | 1 => [.lnc, .lnl, .lnf]
  | 2 => [.eth, .eln, .kor]
  | 3 => [.frm]
  | 4 => [.bpm, .sch]
  | 5 => [.prs]
  | 6 => [.flt]
  | 7 => [.asc]
  | 8 => [.mgd]
  | 9 => [.gaf]
  | 10 => [.fab]
  | 11 => [.flt, .frm]
  | _ => []

/-- A section type may stand in a scene, or in a full script (R72). -/
def typeFits (scene : Bool) (t : Nat) : Bool :=
  if scene then [1, 2, 4, 5, 6, 11, 12, 13].contains t else decide (1 ≤ t) && decide (t ≤ 12)

/-- A record of a section keeps R71 and R72. -/
def recordFits (t : Nat) (r : Record) : Bool :=
  decide (r.off % 4 = 0) && decide (r.off < 0x1000000) &&
    (if t = 12 then decide (winOf r.off ≠ .none) else (sectionUnits t).contains (winOf r.off))

/-- A section's form is right (R70 to R72); SCENE_SCOPE names no register. -/
def sectionFits (b : List Byte) (scene : Bool) (x : Section) : Bool :=
  typeFits scene x.type && decide (x.offset % 8 = 0) && decide (x.size % 8 = 0) &&
    (decide (x.type = 13) || (recordsOf b x).all (recordFits x.type))

/-- SCENE_SCOPE holds exactly one record, with offset 0 (R73). -/
def scopeFits (b : List Byte) : Bool :=
  decide ((recordsFor b 13).length = 1) && (recordsFor b 13).all (fun r => decide (r.off = 0))

/-- The bitmap of port pairs in scope. -/
def scopeOf (b : List Byte) : Word := ((recordsFor b 13).map (fun r => r.val)).headD 0

/-- The port pair that indexes a register (R73), where one does; the lane windows stand apart. -/
def indexPair (off : Nat) : Option Nat :=
  let at' := fun (base stride n m : Nat) => if base ≤ off ∧ off < base + stride * n then some ((off - base) / stride % m) else none
  match winOf off with
  | .eth => some ((off - 0x180000) / 0x1000)
  | .kor => some ((off - 0x1A0000) / 0x1000)
  | .eln => some ((off - 0x1C0000) / 0x1000)
  | .prs => (at' 0x202000 4 64 32).orElse (fun _ => at' 0x202200 8 32 32)
  | .flt => (at' 0x241000 4 64 32).orElse (fun _ => at' 0x242000 0x80 64 32)
  | .frm => (at' 0x302000 4 32 32).orElse (fun _ => at' 0x304000 0x40 32 32)
  | .bpm => ((at' 0x401000 0x40 64 32).orElse (fun _ => at' 0x403000 0x40 64 32)).orElse (fun _ => at' 0x405000 8 64 32)
  | .sch => (((at' 0x501000 0x20 64 32).orElse (fun _ => at' 0x502000 0x20 32 32)).orElse
      (fun _ => at' 0x503000 0x40 64 32)).orElse (fun _ => at' 0x508000 0x200 64 32)
  | .tim => (at' 0x50200 4 64 32).orElse (fun _ => at' 0x50300 4 64 32)
  | .asc => (at' 0x2800C0 4 32 32).orElse (fun _ => at' 0x280140 4 32 32)
  | .evt => at' 0x20200 8 32 32
  | .cnt => ((at' 0xBA0000 0x400 64 32).orElse (fun _ => at' 0xBB0200 4 64 32)).orElse (fun _ => at' 0xBB0400 8 64 32)
  | .csh => none | .ctl => none | .gaf => none | .aon => none | .vlt => none | .uce => none
  | .lnc => none | .lnl => none | .lnf => none | .mgd => none | .fab => none | .spt => none
  | .remote => none | .none => none

/-- The port that a lane's LNx_CFG word gives it to (R101). -/
def cfgPort (j : Nat) (w : Word) : Option Nat :=
  if fieldOf (Reg.LN_CFG_MODE 0) w = 0 then none else some (j - j % 2 ^ fieldOf (Reg.LN_CFG_WIDTH 0) w)

/-- The port pairs that a register belongs to: by its index, or by the active lane map and the scene's own (R73). -/
def pairsOfReg (s : State) (map : List Record) (off : Nat) : List Nat :=
  let lane := fun (u : LaneUnit) (base : Nat) =>
    let j := (off - base) / 0x1000
    (s.portOf u j).toList ++ map.flatMap (fun r => if r.off = lnBase u j then (cfgPort j r.val).toList else [])
  match winOf off with
  | .lnc => lane .lnc 0x100000
  | .lnl => lane .lnl 0x120000
  | _ => (indexPair off).toList

/-- Some port pair of the register is in scope. -/
def inScope (s : State) (b : List Byte) (off : Nat) : Bool :=
  (pairsOfReg s (recordsFor b 1) off).any (fun k => nbit (scopeOf b).toNat k)

/-- Every record of a scene names a register of a port pair in scope (R73). -/
def sceneInScope (s : State) (b : List Byte) : Bool :=
  (sectionTable b).all (fun x => decide (x.type = 13) || (recordsOf b x).all (fun r => inScope s b r.off))

/-! ### Keys and signatures (R70, R78) -/

/-- The first 16 bytes of SHA-384 of a key (R70). -/
def keyId (key : List Byte) : List Byte := (sha384Bytes key).take 16

/-- The key that a script's KEY_ID names: the life-cycle key for a full script in TEST mode (R94), else a script key of the
owner record (R446). -/
def scriptKey (s : State) (scene : Bool) (b : List Byte) : Option (List Byte) :=
  let id := sub b (b.length - 112) 16
  if scene = false ∧ s.bootMode = 2 then
    (if keyId Config.lifeCycleKey = id then some Config.lifeCycleKey else none)
  else (scriptKeys s.vlt).find? (fun k => keyId k = id)

/-- The signature verdict on a staged image (R61, R70, R78). -/
def signatureVerdict (s : State) (b : List Byte) : Bool :=
  match s.loadKind with
  | 1 => Config.firmwareOk b
  | 4 => (match arbiterKey s.vlt with
    | some k => ecdsaVerify k (sha384 (b.take 88)) (sub b 88 96)
    | none => false)
  | kind => (match scriptKey s (decide (kind = 3)) b with
    | some k => ecdsaVerify k (sha384 (b.take (b.length - 112))) (sub b (b.length - 96) 96)
    | none => false)

/-- VERIFY from the holder in OPEN: the first verdict is taken (R75, R62). -/
def loadVerifyOp (who : Who) (s : State) : State :=
  if s.loadState = 1 ∧ s.holds who = true then
    let s := takeFirst s .signature (signatureVerdict s (imageBytes s))
    (s.set Reg.CTL_LOAD_STATUS_STATE 2).set Reg.CTL_LOAD_STATUS_BUSY 1
  else loadRefuse s

/-- The code of a doubled signature verdict: OK, BAD_SIGNATURE or VERDICT_DISAGREE (R62, R78). -/
def verdictCode (s : State) : Nat :=
  match bothTakings s .signature with
  | some (a, b) => if a ≠ b then 6 else if a then 0 else 5
  | none => 5

/-! ### The checks of VERIFY, in order (R78) -/

/-- The first code of a list of checks that is not OK. -/
def firstCode : List Nat → Nat
  | [] => 0
  | c :: cs => if c = 0 then firstCode cs else c

/-- A check's code where it fails. -/
def failing (ok : Bool) (code : Nat) : Nat := if ok then 0 else code

/-- Firmware: its length and its signature (R74, R78). -/
def firmwareCheck (s : State) : Nat := firstCode [failing (decide (s.ctl.imageLen ≤ 8388608)) 3, verdictCode s]

/-- The form of a decision (R61, R500). -/
def decisionForm (b : List Byte) : Bool :=
  let cls := byteAt b 5
  let path := byteAt b 6
  let addr := byteAt b 7
  (decide (cls = 1) && decide (1 ≤ path) && decide (path ≤ 3) && decide (addr < 64) && (decide (path = 3) || decide (addr = 0)) &&
      decide (be (sub b 72 16) = 0)) ||
    (decide (cls = 2) && decide (path = 0) && decide (addr = 0) && decide (2 ≤ byteAt b 72) && decide (byteAt b 72 ≤ 4) &&
      decide (byteAt b 73 % 128 = 0) && decide (be (sub b 80 8) = 0))

/-- A decision (R60, R61, R78). R78 names MAGIC or FORMAT for BAD_MAGIC: a wrong VERSION ends so too; a CLASS, NEW_PATH, FABRIC_ADDR
or ROLE that R61 or R500 does not allow has no code of its own and ends with BAD_SECTION (DESIGN CHOICE, log 38). -/
def decisionCheck (s : State) (b : List Byte) : Nat :=
  firstCode [failing (decide (be (sub b 0 4) = 0x41524231) && decide (byteAt b 4 = 1)) 1,
    failing (decide (s.ctl.imageLen = 184)) 3, failing (decisionForm b) 4, verdictCode s,
    failing (decide (sub b 8 48 = deviceId s) && decide (sub b 56 16 = challenge s)) 12]

/-- Every section lies between the section table and the signature block. R78 speaks of a section outside the image: one that
overlaps the header, the table or the signature block is taken so too, with BAD_LENGTH (DESIGN CHOICE, log 38). -/
def sectionsInside (b : List Byte) : Bool :=
  decide (64 + 12 * sectionCount b + 112 ≤ b.length) &&
    (sectionTable b).all (fun x => decide (64 + 12 * sectionCount b ≤ x.offset) && decide (x.offset + x.size + 112 ≤ b.length))

/-- The mode refuses every script and scene: RECOVERY (R93), or the life-cycle state END (R440). -/
def kindRefused (s : State) : Bool := decide (s.bootMode = 1) || decide (lcCode s.vlt.otp = 5)

/-- The mode allows the sections: five types in TEST (R94). -/
def modeFits (s : State) (scene : Bool) (b : List Byte) : Bool :=
  if s.bootMode = 2 then !scene && (sectionTable b).all (fun x => [1, 2, 3, 9, 12].contains x.type)
  else true

/-- A script or a scene (R70 to R73, R78). R93 and R440 refuse the kind itself with BAD_MODE, which the model tests before the
image's own checks; the sections of a TEST start are tested in R78's place. R78 gives no code for a header KIND that differs from
the kind opened: it ends with BAD_MAGIC (DESIGN CHOICE, log 38). -/
def scriptCheck (s : State) (scene : Bool) (b : List Byte) : Nat :=
  firstCode [failing (!kindRefused s) 11,
    failing (decide (be (sub b 0 4) = 0x534B5459) && decide (be (sub b 4 2) = 1) && decide (byteAt b 6 = 1 + b2n scene)) 1,
    failing (decide (be (sub b 8 2) = 0x3264) && decide (byteAt b 10 = 0xB1)) 2,
    failing (decide (be (sub b 12 4) = s.ctl.imageLen) && decide (s.ctl.imageLen ≤ 1048576) && sectionsInside b) 3,
    failing (decide (1 ≤ sectionCount b) && decide (sectionCount b ≤ 32) &&
      (sectionTable b).all (fun x => sectionFits b scene x) && (!scene || scopeFits b)) 4,
    verdictCode s,
    failing (scene || !s.ctl.scriptActive) 7,
    failing (!scene || s.ctl.scriptActive) 8,
    failing (!scene || decide (sub b 24 16 = (wordBytes (s.rds (Reg.CTL_SCRIPT_DIGEST 0) 12)).take 16)) 9,
    failing (!scene || sceneInScope s b) 10,
    failing (modeFits s scene b) 11]

/-- The result of VERIFY. -/
def verifyCode (s : State) : Nat :=
  let b := imageBytes s
  match s.loadKind with
  | 1 => firmwareCheck s
  | 4 => decisionCheck s b
  | kind => scriptCheck s (decide (kind = 3)) b

/-- VERIFY or APPLY ends: STATE and RESULT, BUSY 0. -/
def loadEnd (s : State) (st code : Nat) : State :=
  ((s.set Reg.CTL_LOAD_STATUS_STATE st).set Reg.CTL_LOAD_STATUS_BUSY 0).set Reg.CTL_LOAD_STATUS_RESULT code

/-- A script or scene ends in FAILED (R549). -/
def loadFail (s : State) (code : Nat) : State :=
  let s := loadEnd s 6 code
  if s.loadKind = 2 ∨ s.loadKind = 3 then raise0 s 0x0103 0 else s

/-- VERIFY_DONE (R78): VERIFIED or FAILED. Two verdicts that differ raise CTL_VERDICT_DISAGREE; a decision renews the
challenge, whatever its result (R60); firmware that verifies may start (R89). -/
def verifyDoneOp (s : State) : State :=
  if s.loadState ≠ 2 then s
  else
    let code := verifyCode s
    let b := imageBytes s
    let s := dropTaking s .signature
    let s := if code = 6 then raise0 s 0x0101 0 else s
    let s := if s.loadKind = 4 then newChallenge s else s
    if code ≠ 0 then loadFail s code
    else
      let s := if s.loadKind = 1 then s.modCtl (fun c => { c with fwVerified := true, fwDigest := sha384 b }) else s
      loadEnd s 3 0

/-! ### The commands -/

/-- LOAD_OPEN -/
def execLoadOpen (who : Who) (kind : BitVec 4) (len : BitVec 24) (s : State) : Host.Outcome State Fault Refusal :=
  .next (gate who .loader Reg.CTL_LOAD_CTRL (loadOpenOp who kind.toNat len.toNat) s)
/-- LOAD_DATA -/
def execLoadData (who : Who) (data : Word) (s : State) : Host.Outcome State Fault Refusal :=
  .next (gate who .loader Reg.CTL_LOAD_DATA (loadDataOp who data) s)
/-- LOAD_VERIFY -/
def execLoadVerify (who : Who) (s : State) : Host.Outcome State Fault Refusal :=
  .next (gate who .loader Reg.CTL_LOAD_CTRL (loadVerifyOp who) s)
/-- VERIFY_DONE -/
def execVerifyDone (s : State) : Host.Outcome State Fault Refusal := .next (live verifyDoneOp s)
/-- LOAD_CLOSE -/
def execLoadClose (who : Who) (s : State) : Host.Outcome State Fault Refusal :=
  .next (gate who .loader Reg.CTL_LOAD_CTRL (loadCloseOp who) s)
/-- LOADER_IDLE_TIMEOUT -/
def execLoaderIdleTimeout (s : State) : Host.Outcome State Fault Refusal := .next (live loadTimeoutOp s)

end Sys2Proof.Machine
end

