-- ==== Sys2Proof/Machine/Mailbox.lean ====
section
/-! DEFINITION. The mailbox and the management firmware as far as the spec gives its effects (02, R84 to R88; R23, R175). -/

namespace Sys2Proof.Machine

/-! ### Commands (R84 to R86) -/

/-- A write of CTL_MBX_CMD starts the command named, with the arguments as they stand; while one is in progress or firmware
does not serve it is ignored and counted (R84). -/
def mbxCmdWrite (val : Word) (s : State) : State :=
  if s.flag Reg.CTL_MBX_STATUS_BUSY = true ∨ s.ctl.fwRun = false then s.inc Reg.CTL_MBX_REFUSED
  else
    let op := fieldOf Reg.CTL_MBX_CMD_OPCODE val
    let args := s.rds (Reg.CTL_MBX_ARG 0) 16
    let s := (storeReg Reg.CTL_MBX_CMD val s).setFlag Reg.CTL_MBX_STATUS_BUSY true
    (s.modCtl (fun c => { c with mbxOp := op, mbxArgs := args })).emit (.toFirmware op args)

/-- The word that starts a command. -/
def mbxWord (op : Nat) (tag : Byte) : Word := word [(Reg.CTL_MBX_CMD_OPCODE, op), (Reg.CTL_MBX_CMD_TAG, tag.toNat)]

/-- A command ends: its response, DONE with its TAG and RESULT, and CTL_MBX_DONE (R86, R549). -/
def mbxEnd (s : State) (code : Nat) (rsp : List Word) : State :=
  let s := s.wrs (Reg.CTL_MBX_RSP 0) ((rsp ++ List.replicate 16 0).take 16)
  let s := s.modCtl (fun c => { c with mbxOp := 0, mbxArgs := [] })
  let s := s.wr Reg.CTL_MBX_STATUS (word [(Reg.CTL_MBX_STATUS_DONE, 1), (Reg.CTL_MBX_STATUS_FW_RUN, b2n s.ctl.fwRun),
    (Reg.CTL_MBX_STATUS_TAG, s.get Reg.CTL_MBX_CMD_TAG), (Reg.CTL_MBX_STATUS_RESULT, code)])
  raise0 s 0x0105 0

/-- Argument i of the command in progress. -/
def State.mbxArg (s : State) (i : Nat) : Nat := (s.ctl.mbxArgs.getD i 0).toNat

/-- The delegation that MKA_DELEGATE asks for (R86, R87). -/
def askedDelegation (s : State) : Delegation :=
  { handle := s.ctl.nextHandle, port := s.mbxArg 0, tx := s.mbxArg 2, rx := s.mbxArg 3, peers := s.mbxArg 4,
    suite := s.mbxArg 5, offset := s.mbxArg 6, live := true }

/-- The arguments of MKA_DELEGATE are in range, and the blob of kind MKA opens (R86, R457). -/
def delegateArgsOk (s : State) : Bool :=
  let d := askedDelegation s
  decide (d.port < 32) && decide (1 ≤ d.peers) && decide (d.peers ≤ 16) && decide (d.suite ≤ 3) &&
    [0, 30, 50, 255].contains d.offset && decide (d.tx + 4 ≤ s.asc.size) && decide (d.rx + 4 * d.peers ≤ s.asc.size) &&
    (s.openAt (s.mbxArg 1 / 64)).any (fun o => decide (o.kind = 3))

/-- Every association that the delegation would have is FREE (R87). -/
def delegateFree (s : State) : Bool :=
  let d := askedDelegation s
  (List.range 4).all (fun i => decide ((s.asRec (d.tx + i)).state = .free) && !s.delegated (d.tx + i)) &&
    (List.range (4 * d.peers)).all (fun i => decide ((s.asRec (d.rx + i)).state = .free) && !s.delegated (d.rx + i))

/-- ARG0 names a delegation. -/
def State.mbxHandle (s : State) : Bool := s.ctl.delegations.any (fun d => decide (d.handle = s.mbxArg 0))

/-- What the spec itself makes of a command before firmware's own result counts: BAD_OPCODE, BAD_ARG, NO_RESOURCE, or 0. -/
def mbxCode (s : State) : Nat :=
  match s.ctl.mbxOp with
  | 1 => 0
  | 2 => if delegateArgsOk s = false then 2 else if delegateFree s then 0 else 3
  | 3 => if s.mbxHandle then 0 else 2
  | 4 => if s.mbxHandle then 0 else 2
  | 5 => if s.mbxArg 2 ≤ 1 then 0 else 2
  | 6 => 0
  | 7 => 0
  | _ => 1

/-- PTP handling switched on or off for a bitmap of ports. -/
def switchPorts (w : Word) (ports on : Nat) : Word := if on = 1 then w ||| w32 ports else w &&& ~~~ w32 ports

/-- The response of a command from firmware's words: GET_INFO ends with the seconds since the cluster started, MKA_STATUS gives a
state of four, an AN and a count of peers (R86). -/
def mbxResponse (s : State) (rsp : List Word) : List Word :=
  match s.ctl.mbxOp with
  | 1 => [rsp.getD 0 0, rsp.getD 1 0, w32 ((s.clk - s.ctl.fwStart) / tps)]
  | 4 => [rsp.getD 0 0 &&& 3, rsp.getD 1 0 &&& 3, w32 (min (rsp.getD 2 0).toNat 16), rsp.getD 3 0]
  | 6 => rsp.take 16
  | 7 => [rsp.getD 0 0 &&& 7]
  | _ => []

/-- The effect of a command that firmware has carried out, and what the device adds to its response. -/
def mbxEffect (s : State) : List Word × State :=
  match s.ctl.mbxOp with
  | 2 =>
    ([w32 s.ctl.nextHandle],
      s.modCtl (fun c => { c with delegations := c.delegations ++ [askedDelegation s], nextHandle := (c.nextHandle + 1) % 2 ^ 32 }))
  | 3 => ([], s.modCtl (fun c => { c with delegations := c.delegations.filter (fun d => d.handle ≠ s.mbxArg 0) }))
  | 5 => ([], s.modCtl (fun c => { c with
      ptpClient := switchPorts c.ptpClient (s.mbxArg 0) (s.mbxArg 2),
      ptpLine := switchPorts c.ptpLine (s.mbxArg 1) (s.mbxArg 2) }))
  | _ => ([], s)

/-- MBX_DONE: firmware finishes the command in progress with its result and response. A command that fails has no effect and
no response. -/
def mbxDoneOp (result : Nat) (rsp : List Word) (s : State) : State :=
  if s.flag Reg.CTL_MBX_STATUS_BUSY = false then s
  else
    let forced := mbxCode s
    let code := if forced = 0 then result else forced
    if code ≠ 0 then mbxEnd s code []
    else
      let words := mbxResponse s rsp
      let (own, s) := mbxEffect s
      mbxEnd s 0 (own ++ words)

/-- MBX_TIMEOUT (R85). -/
def mbxTimeoutOp (s : State) : State := if s.flag Reg.CTL_MBX_STATUS_BUSY then mbxEnd s 5 [] else s

/-! ### The cluster (R85, R88, R89) -/

/-- The watchdog resets the cluster: the command in progress ends, and the delegations wait to be resumed. -/
def watchdogOp (s : State) : State :=
  let s := s.modCtl (fun c => { c with fwRun := false, delegations := c.delegations.map (fun d => { d with live := false }) })
  let s := s.setFlag Reg.CTL_MBX_STATUS_FW_RUN false
  if s.flag Reg.CTL_MBX_STATUS_BUSY then mbxEnd s 4 [] else s

/-- Firmware resumes one delegation from the delegation table. -/
def resumeDelegationOp (h : Nat) (s : State) : State :=
  if s.ctl.fwRun then
    s.modCtl (fun c => { c with delegations := c.delegations.map (fun d => if d.handle = h then { d with live := true } else d) })
  else s

/-- The cluster runs verified firmware and serves the mailbox: stage 5 completes (R89). -/
def fwRunOp (s : State) : State :=
  if s.ctl.fwVerified = false then s
  else
    let s := (s.modCtl (fun c => { c with fwRun := true, fwStart := if c.fwRun then c.fwStart else s.clk })).setFlag Reg.CTL_MBX_STATUS_FW_RUN true
    if s.stage = 5 then settleStages (s.toStage 6) else s

/-! ### Frames from firmware (R23, R175) -/

/-- The frame is MKA for a line port: EtherType 0x888E. -/
def isMka (n : Nat) (fr : List Byte) : Bool := decide (32 ≤ n) && decide (be (sub fr 12 2) = 0x888E)

/-- Firmware submits a frame for port n; the device appends its FCS. MKA leaves line port n in clear, in a CONTROL capsule on
a Korone port; every other frame passes the lookup of port n as if it had arrived there.
For a port that does not exist nothing is sent, for no frame uses its registers (R202). -/
def fwFrameOp (n : Nat) (fr : List Byte) (s : State) : State :=
  if s.ctl.fwRun = false ∨ s.portExists (if n < 32 then .client else .line) (n % 32) = false then s
  else
    let whole := fr ++ fcsBytes fr
    if isMka n fr then
      let bytes := if s.isKorone (n - 32) then capHead whole.length 2 ++ whole else whole
      let f := { newFrame s .mka .enc n n bytes with owner := 64, stage := .farm }
      let (ok, t) := takeBuffer (s.addFrame f) f.id bytes.length (some clsMgmt)
      if ok then depart t f.id else t
    else if n < 32 then enterFrame s { newFrame s .data .enc n (32 + n) whole with owner := 64 }
    else enterFrame s { newFrame s .data .dec n (n - 32) whole with owner := 64 }

/-! ### The commands -/

/-- A mailbox command of the host. -/
def mbxCommand (who : Who) (op : Nat) (tag : Byte) (s : State) : State := gateOwner who Reg.CTL_MBX_CMD (mbxCmdWrite (mbxWord op tag)) s

/-- GET_INFO -/
def execMbxGetInfo (who : Who) (tag : Byte) (s : State) : Host.Outcome State Fault Refusal := .next (mbxCommand who 1 tag s)
/-- MKA_DELEGATE -/
def execMbxMkaDelegate (who : Who) (tag : Byte) (s : State) : Host.Outcome State Fault Refusal := .next (mbxCommand who 2 tag s)
/-- MKA_RELEASE -/
def execMbxMkaRelease (who : Who) (tag : Byte) (s : State) : Host.Outcome State Fault Refusal := .next (mbxCommand who 3 tag s)
/-- MKA_STATUS -/
def execMbxMkaStatus (who : Who) (tag : Byte) (s : State) : Host.Outcome State Fault Refusal := .next (mbxCommand who 4 tag s)
/-- PTP_HANDLE -/
def execMbxPtpHandle (who : Who) (tag : Byte) (s : State) : Host.Outcome State Fault Refusal := .next (mbxCommand who 5 tag s)
/-- LOG_READ -/
def execMbxLogRead (who : Who) (tag : Byte) (s : State) : Host.Outcome State Fault Refusal := .next (mbxCommand who 6 tag s)
/-- SELF_TEST -/
def execMbxSelfTest (who : Who) (tag : Byte) (s : State) : Host.Outcome State Fault Refusal := .next (mbxCommand who 7 tag s)
/-- MBX_DONE -/
def execMbxDone (result : BitVec 16) (rsp : List Word) (s : State) : Host.Outcome State Fault Refusal :=
  .next (live (mbxDoneOp result.toNat rsp) s)
/-- MBX_TIMEOUT -/
def execMbxTimeout (s : State) : Host.Outcome State Fault Refusal := .next (live mbxTimeoutOp s)
/-- FW_WATCHDOG_RESET -/
def execFwWatchdogReset (s : State) : Host.Outcome State Fault Refusal := .next (live watchdogOp s)
/-- FW_DELEGATION_RESUME -/
def execFwDelegationResume (handle : Word) (s : State) : Host.Outcome State Fault Refusal :=
  .next (live (resumeDelegationOp handle.toNat) s)
/-- FW_RUN -/
def execFwRun (s : State) : Host.Outcome State Fault Refusal := .next (live fwRunOp s)
/-- FW_FRAME_TX -/
def execFwFrameTx (n : Fin 64) (frame : List Byte) (s : State) : Host.Outcome State Fault Refusal :=
  .next (live (fwFrameOp n frame) s)

end Sys2Proof.Machine
end

