-- ==== Sys2Proof/Machine/Bus.lean ====
section
/-! DEFINITION. The register bus: what a write of each register does and what a read of it answers (00 R2 to R8; 02 R48, R49,
R53, R54, R63; and the register maps of every chapter). Commands of the loader that apply an image stand in Apply, and the
remote aperture in FabricRx. -/

namespace Sys2Proof.Machine

/-! ### Writes by window -/

/-- A write in a lane's window (R134). -/
def laneWrite (u : LaneUnit) (j off : Nat) (val : Word) (s : State) : State :=
  match off % 0x1000 with
  | 0x000 => laneCfgOp u j val s
  | 0x008 => laneTrainWrite u j val s
  | 0x010 => txeqWrite u j val s
  | 0x014 => eqWrite u j off 20 8 val s
  | 0x018 => eqWrite u j off 0 0 val s
  | 0x020 => dfeWrite u j off val s
  | 0x024 => dfeWrite u j off val s
  | 0x028 => dfeWrite u j off val s
  | 0x040 => prbsCfgOp u j val s
  | 0x048 => injWrite u j val s
  | _ => storeReg off val s

/-- A write in an Ethernet port's window (R135, R153). -/
def ethWrite (side : Side) (k off : Nat) (val : Word) (s : State) : State :=
  if s.ethActs side k = false then s
  else if off % 0x1000 = 0 then portCfgWrite side k val s else storeReg off val s

/-- A write in a Korone port's window (R154, R201). -/
def korWrite (k off : Nat) (val : Word) (s : State) : State :=
  inKor k (fun s => match off % 0x1000 with
    | 0x000 => korCfgWrite k val s
    | 0x020 => cueTxWrite k val s
    | 0x024 => if fieldOf (Reg.KOR_CUE_RX_STS_POP 0) val = 1 then cuePopOp k s else s
    | _ => storeReg off val s) s

/-- A write of CTL_REMOTE_SEL, of which each path has a copy (R49, R63). -/
def remoteSelWrite (p : Path) (val : Word) (s : State) : State :=
  s.modPath p (fun x => { x with
    remoteSel := ((x.remoteSel &&& 0x80000000#32) &&& ~~~ val) ||| (val &&& 0x3F#32) })

/-- A write in the CTL window, but for CTL_LOAD_CTRL (R63). -/
def ctlWrite (who : Who) (off : Nat) (val : Word) (s : State) : State :=
  if off = Reg.CTL_CLAIM then claimWrite who val s
  else if off = Reg.CTL_HANDOVER then handoverWrite val s
  else if off = Reg.CTL_REMOTE_SEL then remoteSelWrite who.path val s
  else if off = Reg.CTL_LOAD_ADDR then loadAddrWrite who val s
  else if off = Reg.CTL_LOAD_DATA then loadDataOp who val s
  else if off = Reg.CTL_MBX_CMD then mbxCmdWrite val s
  else storeReg off val s

/-- A write in the EVT window (R560). -/
def evtWrite (off : Nat) (val : Word) (s : State) : State :=
  if off = Reg.EVT_STS then (if val.getLsbD 28 then liftQdev s else s)
  else if off = Reg.EVT_RELEASE_PORTS then releasePorts val s
  else if off = Reg.EVT_LAST_HALT 0 then lastHaltWrite val s
  else if 0x24000 ≤ off ∧ off < 0x2C000 then mapWriteOp off val s
  else if 0x2F000 ≤ off ∧ off < 0x2F080 then msixWrite off val s
  else storeReg off val s

/-- A write in the TIM window (R389). -/
def timWrite (off : Nat) (val : Word) (s : State) : State :=
  if off = Reg.TIM_RATE then rateWrite val s
  else if off = Reg.TIM_ADJ_CMD then adjWrite val s
  else if off = Reg.TIM_PPS_OUT then ppsOutWrite val s
  else storeReg off val s

/-- A write in the VLT window (R471). Key material is stored where no read shows it. -/
def vltWrite (who : Who) (off : Nat) (val : Word) (s : State) : State :=
  if off = Reg.VLT_CMD then vltCmdWrite who val s
  else if off = Reg.VLT_UPD_CTRL then updCtrlWrite val s
  else if off = Reg.VLT_UPD_DATA then updDataOp val s
  else if 0x60100 ≤ off ∧ off < 0x60144 then s.wr off val
  else storeReg off val s

/-- The channel of the utility cipher engine whose registers or buffers an offset names (R472). -/
def uceChanOf (off : Nat) : Option Nat :=
  if off < 0x71000 then some 0 else if off < 0x72000 then some 1
  else if off < 0x74000 then none else if off < 0x78000 then some 0 else some 1

/-- A write in the UCE window: only a channel's own party writes its registers and its IN buffer (R459). -/
def uceWrite (who : Who) (off : Nat) (val : Word) (s : State) : State :=
  match uceChanOf off with
  | some c =>
    if partyOf who ≠ c then s
    else if off = Reg.UCE_CTRL c then uceCtrlWrite who c val s
    else storeReg off val s
  | none =>
    if off = Reg.UCE_SLOT_CMD then slotCmdWrite who val s
    else if 0x73080 ≤ off ∧ off < 0x730A0 then s.wr off val
    else storeReg off val s

/-- A write in the FLT window (R244). -/
def fltWrite (who : Who) (off : Nat) (val : Word) (s : State) : State :=
  if off = Reg.FLT_CMD then fltCmdWrite who val s
  else if bankedReg off then storeAt (ifc who off) off val s
  else if off = Reg.FLT_TS_CMD then tsCmdWrite val s
  else if off = Reg.FLT_CC_GROUP then ccGroupWrite val s
  else if off = Reg.FLT_CC_SIG then ccSigOp val s
  else if off = Reg.FLT_PUNT_CFG then puntCfgWrite 64 off val s
  else if Reg.FLT_PORT_CFG 0 ≤ off ∧ off < Reg.FLT_PORT_CFG 64 then puntCfgWrite ((off - Reg.FLT_PORT_CFG 0) / 4) off val s
  else storeReg off val s

/-- A write in the ASC window (R290). -/
def ascWrite (who : Who) (off : Nat) (val : Word) (s : State) : State :=
  if off = Reg.ASC_CMD then ascCmdWrite who val s
  else if Reg.ASC_KEY_STAGE 0 ≤ off ∧ off < Reg.ASC_KEY_STAGE 8 then s.wr (ifc who off) val
  else if bankedReg off then storeAt (ifc who off) off val s
  else if off = Reg.ASC_CFG then settleRepl (storeReg off val s)
  else storeReg off val s

/-- A write in the FRM window (R329): a ring's role or the unwrap ring decides which cores serve a waiting slice. -/
def frmWrite (off : Nat) (val : Word) (s : State) : State :=
  if 0x301000 ≤ off ∧ off < 0x301200 then
    if off % 16 = 8 then ringCmdWrite ((off - 0x301000) / 16) val s else dealAll (storeReg off val s)
  else if off = Reg.FRM_UNWRAP_CFG then dealAll (storeReg off val s)
  else storeReg off val s

/-- A write in the BPM window (R332, R362). -/
def bpmWrite (off : Nat) (val : Word) (s : State) : State :=
  if Reg.BPM_POOL_CFG 0 ≤ off ∧ off < Reg.BPM_POOL_CFG 8 ∨ off = Reg.BPM_CELL_CFG then poolCfgWrite off val s
  else settlePools (storeReg off val s)

/-- A write in the SCH window (R363). -/
def schWrite (off : Nat) (val : Word) (s : State) : State :=
  if off = Reg.SCH_SHP_CMD then shpCmdWrite val s
  else if off = Reg.SCH_MAP_CMD then mapCmdWrite val s
  else if off = Reg.SCH_HIST_CMD then histCmdWrite val s
  else if 0x501000 ≤ off ∧ off < 0x501800 ∧ off % 32 = 8 then ptpCfgWrite ((off - 0x501000) / 32) off val s
  else if 0x502000 ≤ off ∧ off < 0x502400 ∧ off % 32 = 0 then extraCfgWrite ((off - 0x502000) / 32) off val s
  else storeReg off val s

/-- A write of FAB_CFG: the call sheet's GROUP entry comes and goes with HEAD, and the members with the group (R64, R68, R483). -/
def headWrite (val : Word) (s : State) : State :=
  let t := storeReg Reg.FAB_CFG val s
  settleGroup (if s.flag Reg.FAB_CFG_HEAD ≠ t.flag Reg.FAB_CFG_HEAD ∧ t.groupMembers = t.fab.members then bumpGen t else t)

/-- A write in the FAB window (R503). -/
def fabWrite (off : Nat) (val : Word) (s : State) : State :=
  if off = Reg.FAB_PAIR_CMD then pairCmdWrite val s
  else if off = Reg.FAB_PAIR_CFG then settlePaired (spareWrite off val s)
  else if off = Reg.FAB_SPARE_LANES then spareWrite off val s
  else if off = Reg.FAB_CFG then headWrite val s
  else storeReg off val s

/-- A write in the CNT window (R561). -/
def cntWrite (p : Path) (off : Nat) (val : Word) (s : State) : State :=
  let x := off - 0x800000
  if off = Reg.CNT_WIN_CMD then winCmdWrite p val s
  else if off = Reg.CNT_CLEAR then clearWrite val s
  else if 0x3D0000 ≤ x ∧ x < 0x3E0000 then wrapWrite ((x - 0x3D0000) / 4) val s
  else storeReg off val s

/-- The effect of a write that is let through, but for CTL_LOAD_CTRL and the remote aperture. -/
def unitWrite (who : Who) (off : Nat) (val : Word) (s : State) : State :=
  match winOf off with
  | .ctl => ctlWrite who off val s
  | .evt => evtWrite off val s
  | .gaf => if off = Reg.GAF_REQ then gafReqWrite val s else storeReg off val s
  | .aon => storeReg off val s
  | .tim => timWrite off val s
  | .vlt => vltWrite who off val s
  | .uce => uceWrite who off val s
  | .lnc => laneWrite .lnc ((off - 0x100000) / 0x1000) off val s
  | .lnl => laneWrite .lnl ((off - 0x120000) / 0x1000) off val s
  | .lnf => laneWrite .lnf ((off - 0x140000) / 0x1000) off val s
  | .eth => ethWrite .client ((off - 0x180000) / 0x1000) off val s
  | .kor => korWrite ((off - 0x1A0000) / 0x1000) off val s
  | .eln => ethWrite .line ((off - 0x1C0000) / 0x1000) off val s
  | .prs => storeReg off val s
  | .flt => fltWrite who off val s
  | .asc => ascWrite who off val s
  | .frm => frmWrite off val s
  | .bpm => bpmWrite off val s
  | .sch => schWrite off val s
  | .mgd =>
    if off = Reg.MGD_CHG_CMD then chgCmdWrite val s
    else if off = Reg.MGD_HALT_REC then haltRecWrite val s
    else storeReg off val s
  | .fab => fabWrite off val s
  | .cnt => cntWrite who.path off val s
  | .spt => if off = Reg.SPT_TAIL then tailWrite val s else storeReg off val s
  | .csh => s
  | .remote => s
  | .none => s

/-! ### The call sheet (R64 to R68) -/

/-- Type code of a unit (R48). -/
def winType : Win → Nat
  | .csh => 0x01 | .ctl => 0x02 | .evt => 0x03 | .gaf => 0x04 | .aon => 0x05 | .tim => 0x06 | .vlt => 0x07 | .uce => 0x08
  | .lnc => 0x10 | .lnl => 0x11 | .lnf => 0x12 | .eth => 0x18 | .kor => 0x1A | .eln => 0x1C | .prs => 0x20 | .flt => 0x24
  | .asc => 0x28 | .frm => 0x30 | .bpm => 0x40 | .sch => 0x50 | .mgd => 0x60 | .fab => 0x70 | .cnt => 0x80 | .spt => 0xC0
  | .remote => 0 | .none => 0

/-- Base of a unit: its type code is the upper byte of its offset's page (R48). -/
def winBase (w : Win) : Nat := if w = .csh then 0 else if w = .ctl then 0x10000 else match w with
  | .evt => 0x20000 | .gaf => 0x30000 | .aon => 0x40000 | .tim => 0x50000 | .vlt => 0x60000 | .uce => 0x70000
  | .lnc => 0x100000 | .lnl => 0x120000 | .lnf => 0x140000 | .eth => 0x180000 | .kor => 0x1A0000 | .eln => 0x1C0000
  | .prs => 0x200000 | .flt => 0x240000 | .asc => 0x280000 | .frm => 0x300000 | .bpm => 0x400000 | .sch => 0x500000
  | .mgd => 0x600000 | .fab => 0x700000 | .cnt => 0x800000 | .spt => 0xC00000
  | .csh => 0 | .ctl => 0x10000 | .remote => 0x1000000 | .none => 0

/-- Size of a unit's window (R48). -/
def winSize : Win → Nat
  | .lnc => 0x20000 | .lnl => 0x20000 | .lnf => 0x10000 | .eth => 0x20000 | .kor => 0x20000 | .eln => 0x20000
  | .prs => 0x40000 | .asc => 0x40000 | .frm => 0x100000 | .sch => 0x100000 | .mgd => 0x100000 | .fab => 0x40000
  | .cnt => 0x400000 | .spt => 0x100000 | .remote => 0x1000000 | .none => 0
  | .csh => 0x10000 | .ctl => 0x10000 | .evt => 0x10000 | .gaf => 0x10000 | .aon => 0x10000 | .tim => 0x10000
  | .vlt => 0x10000 | .uce => 0x10000 | .flt => 0x10000 | .bpm => 0x10000

/-- The unit exists and is enabled by the script: a lane in a port, a port of its kind (R65, R101). -/
def State.unitPresent (s : State) (w : Win) (k : Option Nat) : Bool :=
  match w, k with
  | .lnc, some j => (s.portOf .lnc j).isSome
  | .lnl, some j => (s.portOf .lnl j).isSome
  | .lnf, some j => (s.portOf .lnf j).isSome
  | .eth, some j => s.portExists .client j
  | .kor, some j => s.korActs j
  | .eln, some j => s.ethActs .line j
  | _, _ => true

/-- DOMAIN of an entry (R65, R98, R504): a lane's quad, the cipher engine's PD103, the always-on domain, or the unswitched
core. -/
def entryDomain (w : Win) (k : Option Nat) : Nat :=
  match w, k with
  | .lnc, some j => 32 + j / 4
  | .lnl, some j => 40 + j / 4
  | .lnf, some j => 48 + j / 4
  | .uce, _ => 103
  | .aon, _ => 0xFF
  | _, _ => 0xFE

/-- Some RWL field in a window is locked. -/
def State.winLocked (s : State) (base size : Nat) : Bool :=
  s.locks.any (fun p => decide (base ≤ p.1) && decide (p.1 < base + size) && decide (p.2 ≠ 0))

/-- A unit's version is not given (log 1). -/
def unitVersion (type : Nat) : Nat := (Config.freeValue (2 ^ 64 + type)).toNat % 65536

/-- The eight words of a local entry (R65). -/
def State.localEntry (s : State) (i : Nat) : List Word :=
  let (w, k) := sheetEntry i
  let base := winBase w + (match k with | some j => 0x1000 * j | none => 0)
  let size := if k.isSome then 0x1000 else winSize w
  let d := entryDomain w k
  let off := decide (d < 104) && decide (s.dom d = .off)
  let parent := match k with | some j => i - j - 1 | none => 0
  if i = 0 then
    [0x01000000, w32 (unitVersion 0x100 * 65536 + 0x8000), 0, 0, 0x10000000, 0, 0xFFFF00FE, 0]
  else
    [w32 (winType w * 65536 + k.getD 0),
      w32 (unitVersion (winType w) * 65536 + b2n (s.unitPresent w k) * 0x8000 + b2n off * 0x1000 + b2n (s.winLocked base size) * 0x800),
      w32 base, 0, w32 size, 0, w32 (parent * 65536 + d), 0]

/-- The GROUP entry and the DEVICE entries of the members (R68). -/
def State.groupEntries (s : State) : List (List Word) :=
  if s.flag Reg.FAB_CFG_HEAD then
    [0x01010000, w32 (unitVersion 0x101 * 65536 + 0xA000), 0, 0, 0, 0, 0x000000FE, 0] ::
      s.fab.members.map (fun a =>
        [0x01000000, w32 (unitVersion 0x100 * 65536 + 0xC000), 0, 0, 0x1000000, 0, w32 (201 * 65536 + 0xFE), w32 a])
  else []

/-- Every entry in index order. -/
def State.sheetEntries (s : State) : List (List Word) := (List.range 201).map s.localEntry ++ s.groupEntries

/-- The header (R64). -/
def State.sheetHeader (s : State) : List Word :=
  let es := s.sheetEntries
  [0x53484543, 0x3264B101, w32 (es.length * 65536 + 0x2020), s.ctl.generation, crc32 (wordsLe (es.flatMap id)), 0, 0, 0]

/-- A word of the CSH window. -/
def State.sheetWord (s : State) (off : Nat) : Word :=
  if off < 0x20 then s.sheetHeader.getD (off / 4) 0
  else
    let i := (off - 0x20) / 32
    let e := if i < 201 then s.localEntry i else s.groupEntries.getD (i - 201) []
    e.getD (off % 32 / 4) 0

/-! ### What a register shows -/

/-- TIM_STS with PPS_SEEN and HOLD_SEC as they stand (R389). -/
def State.timSts (s : State) : Word :=
  setBits (setBits (s.rd Reg.TIM_STS) 26 26 (b2n s.ppsSeen)) 23 0 (min s.holdSeconds (2 ^ 24 - 1))

/-- What a register of the CTL window shows to a path (R63). -/
def State.ctlShow (s : State) (p : Path) (off : Nat) : Word :=
  if off = Reg.CTL_OWNER then setBits (s.rd off) 13 12 (pathCode p)
  else if off = Reg.CTL_REMOTE_SEL then (s.path p).remoteSel
  else s.rd off

/-- What a register of the EVT window shows (R560). -/
def State.evtShow (s : State) (off : Nat) : Word :=
  if off = Reg.EVT_STS then s.evtSts
  else if Reg.EVT_LOG 0 ≤ off ∧ off < Reg.EVT_LOG 4 then s.logWordAt ((off - Reg.EVT_LOG 0) / 4)
  else if Reg.EVT_LAST_HALT 0 ≤ off ∧ off < Reg.EVT_LAST_HALT 4 then s.lastHaltAt ((off - Reg.EVT_LAST_HALT 0) / 4)
  else if off = Reg.EVT_RELEASE_PORTS then s.rd Reg.EVT_QUIESCE_PORTS
  else if Reg.EVT_PEND_UNITS 0 ≤ off ∧ off < Reg.EVT_PEND_UNITS 8 then s.pendUnits ((off - Reg.EVT_PEND_UNITS 0) / 4)
  else if off = 0x2F800 then s.msixPending
  else s.rd off

/-- What a register of the FLT window shows (R244). -/
def State.fltShow (s : State) (off : Nat) : Word :=
  if off = Reg.FLT_OCCUPANCY then s.fltOccupancy
  else if off = Reg.FLT_CC_STS then s.ccSts
  else if off = Reg.FLT_CC_GROUP then s.ccGroupWord
  else if Reg.FLT_PART_USED 0 ≤ off ∧ off < Reg.FLT_PART_USED 16 then w32 (s.profileUsed ((off - Reg.FLT_PART_USED 0) / 4))
  else s.rd off

/-- What a register of the ASC window shows (R290). -/
def State.ascShow (s : State) (off : Nat) : Word :=
  if off = Reg.ASC_STS then setBits (s.rd off) 25 13 s.asc.missq.length
  else if off = Reg.ASC_RESIDENT then w32 s.asc.slots.length
  else if off = Reg.ASC_PINNED then w32 (s.dissolvePins % 65536 * 65536 + s.pinnedSlots % 65536)
  else if Reg.ASC_KEY_STAGE 0 ≤ off ∧ off < Reg.ASC_KEY_STAGE 8 then 0
  else s.rd off

/-- What a register of the FRM window shows (R329). -/
def State.frmShow (s : State) (off : Nat) : Word :=
  if off = Reg.FRM_STS then s.frmSts
  else if 0x301000 ≤ off ∧ off < 0x301200 ∧ off % 16 = 4 then s.ringSts ((off - 0x301000) / 16)
  else s.rd off

/-- What a register of the BPM window shows (R362). -/
def State.bpmShow (s : State) (off : Nat) : Word :=
  if off = Reg.BPM_STS then setBits (s.rd off) 19 0 s.cellsFree
  else if Reg.BPM_POOL_FREE 0 ≤ off ∧ off < Reg.BPM_POOL_FREE 8 then w32 (s.poolFree ((off - Reg.BPM_POOL_FREE 0) / 4))
  else if 0x403000 ≤ off ∧ off < 0x404040 then
    let o := (off - 0x403000) / 0x40
    let p := (off - 0x403000) % 0x40 / 4
    if p < 8 then w32 (s.used o p) else 0
  else s.rd off

/-- What a register of the FAB window shows (R503). -/
def State.fabShow (s : State) (off : Nat) : Word :=
  if off = Reg.FAB_STS then s.fabSts
  else if Reg.FAB_LINK_STS 0 ≤ off ∧ off < Reg.FAB_LINK_STS 4 then s.linkSts ((off - Reg.FAB_LINK_STS 0) / 4)
  else if Reg.FAB_ROUTE 0 ≤ off ∧ off < Reg.FAB_ROUTE 64 then s.routeWord ((off - Reg.FAB_ROUTE 0) / 4)
  else s.rd off

/-- What a register of the TIM window shows to a path (R369, R389). -/
def State.timShow (s : State) (p : Path) (off : Nat) : Word :=
  if off = Reg.TIM_STS then s.timSts
  else if off = Reg.TIM_NOW_SEC_LO then w32 (s.path p).nowSec.toNat
  else if off = Reg.TIM_NOW_SEC_HI then w32 ((s.path p).nowSec.toNat / 2 ^ 32)
  else if off = Reg.TIM_FRC then w32 s.tim.frc.toNat
  else if off = Reg.TIM_FRC_HI then w32 (s.tim.frc.toNat / 2 ^ 32)
  else if off = Reg.TIM_CAP_SEC_LO 0 then s.capLo 0
  else if off = Reg.TIM_CAP_SEC_LO 1 then s.capLo 1
  else s.rd off

/-- LNx_TRAIN and LNx_TRAIN_STS show in a first lane's window only (R134). -/
def State.laneShow (s : State) (u : LaneUnit) (j off : Nat) : Word :=
  if (off % 0x1000 = 8 ∨ off % 0x1000 = 12) ∧ s.portOf u j ≠ some j then 0 else s.rd off

/-- What a register of an ELN window shows: MAX_FRAME follows the client port (R153). -/
def State.portShow (s : State) (side : Side) (k off : Nat) : Word :=
  if s.ethActs side k = false then 0
  else if side = .line ∧ off % 0x1000 = 8 then setBits (s.rd off) 15 0 (s.clientLimit k + 32)
  else s.rd off

/-- What a 32-bit word of BAR0 shows to a path: registers, the low and high words of counters, and what the units compute.
Reading it has no effect yet. R562 gives the offset 0xC0000C to SPT_HEAD and, with the 64-bit SPT_PORTS at 0xC00008, to its high
word: it shows SPT_HEAD here, and a write of it stores the high word (DESIGN CHOICE, log 73). -/
def State.shows (s : State) (who : Who) (off : Nat) : Word :=
  let p := who.path
  let word := if isCtr off then w32 (s.ctr off) else if isCtr (off - 4) && decide (4 ≤ off) then w32 (s.ctr (off - 4) / 2 ^ 32) else
    match winOf off with
    | .csh => s.sheetWord off
    | .ctl => s.ctlShow p off
    | .evt => s.evtShow off
    | .gaf => if off = Reg.GAF_REQ then s.gafReq else if off = Reg.GAF_SUPPLY_STS then s.supplySts
        else if Reg.GAF_DOM_STS 0 ≤ off ∧ off < Reg.GAF_DOM_STS 104 then s.domSts ((off - Reg.GAF_DOM_STS 0) / 4) else s.rd off
    | .aon => if off = Reg.AON_STS then s.aonSts else if off = Reg.AON_ALARM_ACTIVE then s.alarmActive else s.rd off
    | .tim => s.timShow p off
    | .vlt => if 0x60100 ≤ off ∧ off < 0x60144 then 0 else s.rd off
    | .uce => if 0x73080 ≤ off ∧ off < 0x730A0 then 0
        else if 0x7A000 ≤ off ∧ off < 0x7C000 ∧ p ≠ .firmware then 0 else s.rd off
    | .lnc => s.laneShow .lnc ((off - 0x100000) / 0x1000) off
    | .lnl => s.laneShow .lnl ((off - 0x120000) / 0x1000) off
    | .lnf => s.laneShow .lnf ((off - 0x140000) / 0x1000) off
    | .eth => s.portShow .client ((off - 0x180000) / 0x1000) off
    | .kor => if off % 0x1000 = 12 then s.korLaneSts ((off - 0x1A0000) / 0x1000) else s.rd off
    | .eln => s.portShow .line ((off - 0x1C0000) / 0x1000) off
    | .prs => s.rd off
    | .flt => if bankedReg off then s.rd (ifc who off) else s.fltShow off
    | .asc => if bankedReg off ∧ off < Reg.ASC_KEY_STAGE 0 then s.rd (ifc who off) else s.ascShow off
    | .frm => s.frmShow off
    | .bpm => s.bpmShow off
    | .sch => s.rd off
    | .mgd => s.rd off
    | .fab => s.fabShow off
    | .cnt => if off = Reg.CNT_WIN_CMD then (s.path p).cntWin
        else if (0x3A0000 ≤ off - 0x800000 ∧ off - 0x800000 < 0x3B0000) ∨ 0x3C0000 ≤ off - 0x800000 ∨ off - 0x800000 < 0x3A0000 then
          s.cntRead p (off - 0x800000)
        else s.rd off
    | .spt => if off = Reg.SPT_PORTS_HI then w32 s.cnt.sptHead
        else if 0xC80000 ≤ off ∧ off < 0xCC0000 then s.traceWord ((off - 0xC80000) / 64) ((off - 0xC80000) % 64 / 4) else s.rd off
    | .remote => 0
    | .none => 0
  match winOf off with
  | .kor => if s.korActs ((off - 0x1A0000) / 0x1000) then word else 0
  | .eth => if s.ethActs .client ((off - 0x180000) / 0x1000) then word else 0
  | .eln => if s.ethActs .line ((off - 0x1C0000) / 0x1000) then word else 0
  | _ => word

/-! ### Reads (R5, R7) -/

/-- The low word of a 64-bit register: a counter, a group's value, a directory entry or one of the few wide registers. -/
def isLow (off : Nat) : Bool :=
  isCtr off || decide (off = Reg.VLT_COUNTER) || decide (off = Reg.TIM_FRC) || decide (off = Reg.SPT_PORTS) ||
    decide (off = Reg.UCE_TOTAL 0) || decide (off = Reg.UCE_TOTAL 1) ||
    (decide (Reg.PRS_IMPLICIT_SCI 0 ≤ off) && decide (off < Reg.PRS_IMPLICIT_SCI 32) && decide (off % 8 = 0)) ||
    (decide (0x800000 ≤ off) && decide (off % 8 = 0) &&
      (decide (off < 0xBA0000) || (decide (0xBC0000 ≤ off) && decide (off < 0xBD0000)) ||
        (decide (0xBE0000 ≤ off) && decide (off < 0xC00000))))

/-- The high word of a 64-bit register. -/
def isHigh (off : Nat) : Bool := decide (4 ≤ off) && isLow (off - 4)

/-- Reads with an effect of their own: the logs, the queues, random bits, time and the measured temperature. -/
def specialRead (who : Who) (off : Nat) : Option (State → Word × State) :=
  if off = Reg.FLT_CC_MISMATCH then some ccMismatchRead
  else if off = Reg.FLT_FW_LOG then some fwLogRead
  else if off = Reg.ASC_REKEY_LOG then some rekeyLogRead
  else if off = Reg.ASC_FAULT_LOG then some faultLogRead
  else if off = Reg.FAB_DIVERGE_LOG then some divergeRead
  else if off = Reg.AON_LATCH then some latchRead
  else if off = Reg.AON_TEMP then some tempRead
  else if off = Reg.TIM_NOW_NS then some (nowRead who.path)
  else if off = Reg.TIM_CAP_NS 0 then some (capPop 0)
  else if off = Reg.TIM_CAP_NS 1 then some (capPop 1)
  else if off = Reg.TIM_CAP_SEC_HI 0 then some (capHiRead 0)
  else if off = Reg.TIM_CAP_SEC_HI 1 then some (capHiRead 1)
  else if off = Reg.VLT_RANDOM then some randomRead
  else if off = Reg.EVT_LOG 3 then some (fun s => (s.logWordAt 3, popLog s))
  else none

/-- The high word of a 64-bit register as the latch takes it. -/
def State.highShows (s : State) (who : Who) (off : Nat) : Word :=
  if off = Reg.SPT_PORTS then s.rd Reg.SPT_PORTS_HI else s.shows who (off + 4)

/-- A read that is let through: a low word sets the path's latch, a high word comes from it (R7). The offset of the high word of
SPT_PORTS is SPT_HEAD's too: read after the low word of SPT_PORTS it answers the latched high word, else SPT_HEAD (log 73). -/
def unitRead (who : Who) (off : Nat) (s : State) : Word × State :=
  match specialRead who off with
  | some f => f s
  | none =>
    if isLow off then
      (s.shows who off, s.modPath who.path (fun x => { x with latch := { off := some off, high := s.highShows who off } }))
    else if isHigh off then
      let l := (s.path who.path).latch
      (if l.off = some (off - 4) then l.high else if off = Reg.SPT_PORTS_HI then s.shows who off else 0, s)
    else (s.shows who off, s)

/-- A read by a path in the conditions of R520 and R546: what is not served answers 0. -/
def localRead (who : Who) (off : Nat) (s : State) : Word × State :=
  if s.halted then (if haltedOpen off then unitRead who off s else (0, s))
  else if s.running = false then (0, s)
  else if s.dormant && !dormantOpen off then (0, s.inc Reg.GAF_DORMANT_ACCESS)
  else unitRead who off s

/-- The device answers accesses: it is out of reset, or halted (R546). -/
def State.answers (s : State) : Bool := s.running || s.halted

/-- A read command: its answer is given to the path. -/
def readOp (who : Who) (off : Nat) (s : State) : State :=
  if s.answers then
    let (v, s) := localRead who off s
    s.emit (.readData who.path v)
  else s

/-! ### Reads with rows of their own -/

/-- FLT_CC_MISMATCH_READ -/
def execFltCcMismatchRead (who : Who) (s : State) : Host.Outcome State Fault Refusal := .next (readOp who Reg.FLT_CC_MISMATCH s)
/-- FLT_FW_LOG_READ -/
def execFltFwLogRead (who : Who) (s : State) : Host.Outcome State Fault Refusal := .next (readOp who Reg.FLT_FW_LOG s)
/-- ASC_REKEY_LOG_READ -/
def execAscRekeyLogRead (who : Who) (s : State) : Host.Outcome State Fault Refusal := .next (readOp who Reg.ASC_REKEY_LOG s)
/-- ASC_FAULT_LOG_READ -/
def execAscFaultLogRead (who : Who) (s : State) : Host.Outcome State Fault Refusal := .next (readOp who Reg.ASC_FAULT_LOG s)
/-- TIM_NOW_READ -/
def execTimNowRead (who : Who) (s : State) : Host.Outcome State Fault Refusal := .next (readOp who Reg.TIM_NOW_NS s)
/-- TIM_CAP_POP -/
def execTimCapPop (who : Who) (c : Fin 2) (s : State) : Host.Outcome State Fault Refusal := .next (readOp who (Reg.TIM_CAP_NS c) s)
/-- VLT_RANDOM_READ -/
def execVltRandomRead (who : Who) (s : State) : Host.Outcome State Fault Refusal := .next (readOp who Reg.VLT_RANDOM s)
/-- FAB_DIVERGE_LOG_READ -/
def execFabDivergeLogRead (who : Who) (s : State) : Host.Outcome State Fault Refusal := .next (readOp who Reg.FAB_DIVERGE_LOG s)
/-- AON_LATCH_READ -/
def execAonLatchRead (who : Who) (s : State) : Host.Outcome State Fault Refusal := .next (readOp who Reg.AON_LATCH s)
/-- EVT_LOG_POP -/
def execEvtLogPop (who : Who) (s : State) : Host.Outcome State Fault Refusal := .next (readOp who (Reg.EVT_LOG 3) s)

end Sys2Proof.Machine
end

