-- ==== Sys2Proof/Machine/Apply.lean ====
section
/-! DEFINITION. APPLY (02, R71, R73, R76, R80 to R83, R89): the writes of a verified script or scene, its checks and locks,
what a decision changes, and a register write as every path makes it. -/

namespace Sys2Proof.Machine

/-! ### Records (R71) -/

/-- The write records in the order in which they are applied: ascending TYPE, file order, without LOCKS and SCENE_SCOPE. -/
def writeRecords (b : List Byte) : List Record := (List.range 12).flatMap (recordsFor b)

/-- One record is written as a register write of the device's own. -/
def putRecord (s : State) (r : Record) : State := unitWrite Who.fw r.off r.val s

/-- LOCKED of every local entry of the call sheet (R65). -/
def State.lockView (s : State) : List Bool :=
  (List.range 201).map (fun i =>
    let (w, k) := sheetEntry i
    s.winLocked (winBase w + 0x1000 * k.getD 0) (if k.isSome then 0x1000 else winSize w))

/-- GENERATION counts up where a LOCKED bit has changed (R64). -/
def noteLocks (old s : State) : State := if old.lockView = s.lockView then s else bumpGen s

/-- The RWL bits of a register (R5). -/
def rwlOf (off : Nat) : Word := match rowOf off with | some r => w32 r.rwl | none => 0

/-- The LOCKS records: the RWL bits under each mask are locked (R71; log 39). -/
def lockRecords (s : State) (b : List Byte) : State :=
  noteLocks s { s with locks :=
    (recordsFor b 12).foldl (fun l r => mstore 0 r.off (mlook 0 r.off l ||| (r.val &&& rwlOf r.off)) l) s.locks }

/-- A scene unlocks the registers of the ports in scope (R82). -/
def unlockScope (s : State) (b : List Byte) : State :=
  noteLocks s { s with locks := s.locks.filter (fun p => !inScope s b p.1) }

/-! ### Stopping ports (R73, R83, R133, R144, R199) -/

/-- The frames that are leaving the pair's two ports: a stomped FCS on Ethernet, a cut capsule without ABORT on Korone. -/
def stopLeaving (s : State) (k : Nat) : State :=
  [k, 32 + k].foldl (fun s m =>
    match (mget m s.sch.sending).bind s.frame? with
    | none => s
    | some f => if s.korEgress m then dropFrame s f.id (downCtr s m) else endStomped s m f.id (noFcs f.sent)) s

/-- Port pair k stops: its frames end, its lanes go OFF, and what it still holds is dropped and counted; a frame that has left, and
stays for its verdict alone, is not. -/
def stopPair (s : State) (k : Nat) : State :=
  let s := stopLeaving s k
  let s := settleLanes (settleLanes s .lnc k) .lnl k
  (s.framesWhere (fun f => decide (f.m % 32 = k) && decide (f.stage ≠ .ended))).foldl (fun s i =>
    match s.frame? i with | some f => dropFrame s i (downCtr s f.m) | none => s) s

/-- The port pairs of a bitmap. -/
def pairsIn (w : Word) : List Nat := (List.range 32).filter (fun k => w.getLsbD k)

/-- A scene holds the port pairs in scope down from now on (R83). -/
def stopScope (s : State) (w : Word) : State :=
  (pairsIn w).foldl stopPair (s.modCtl (fun c => { c with scope := c.scope ||| w }))

/-- A scene's ports begin bring-up again (R133). -/
def startScope (s : State) (w : Word) : State :=
  let s := s.modCtl (fun c => { c with scope := c.scope &&& ~~~ w })
  (pairsIn w).foldl (fun s k => settleLanes (settleLanes s .lnc k) .lnl k) s

/-! ### LOAD_APPLY and APPLY_DONE -/

/-- A decision takes effect: class 1 moves ownership, class 2 sets the pair role (R62, R500). -/
def applyDecision (s : State) (b : List Byte) : State :=
  if byteAt b 5 = 1 then setOwner s (byteAt b 6) (byteAt b 7)
  else decideRole s (byteAt b 72) (nbit (byteAt b 73) 7) (be (sub b 74 2)) (be (sub b 76 4))

/-- APPLY from the holder in VERIFIED (R75, R76). Firmware has nothing to write: its cluster starts by itself (R89). -/
def loadApplyOp (who : Who) (s : State) : State :=
  if s.loadState = 3 ∧ s.holds who = true then
    let b := imageBytes s
    let s := (s.set Reg.CTL_LOAD_STATUS_STATE 4).set Reg.CTL_LOAD_STATUS_BUSY 1
    match s.loadKind with
    | 2 => (writeRecords b).foldl putRecord s
    | 3 => (writeRecords b).foldl putRecord (unlockScope (stopScope s (scopeOf b)) b)
    | 4 => applyDecision s b
    | _ => s
  else loadRefuse s

/-- The size N that the script's ASC_STORE section gives (R245). -/
def applyStore (s : State) (b : List Byte) : State :=
  if (sectionTable b).any (fun x => decide (x.type = 7)) then
    let n := Config.storeSize ((recordsFor b 7).map (fun r => (r.off, r.val)))
    s.modAsc (fun x => { x with size := max 1 (min n 1048576) })
  else s

/-- A full script reaches DONE: it is the active script, the guard lays out its regions, a paired device enters INIT, start-up
goes on, and START_TRIM asks for TRIM (R63, R80, R89, R397, R489, R509). -/
def scriptDone (s : State) (b : List Byte) : State :=
  let s := lockRecords s b
  let s := s.wrs (Reg.CTL_SCRIPT_DIGEST 0) (bytesWords 12 (sha384Bytes b))
  let s := s.wr Reg.CTL_SCRIPT_SERIAL (w32 (be (sub b 16 4)))
  let s := s.modCtl (fun c => { c with scriptActive := true, stage7Done := true })
  let s := settleStore (applyRegions (applyStore s b))
  let s := settleStages (enterInit s)
  let s := if s.flag Reg.GAF_POLICY_START_TRIM then gafRequestOp 1 s else s
  loadEnd s 5 0

/-- A scene reaches DONE (R81 to R83, R549). -/
def sceneDone (s : State) (b : List Byte) : State :=
  let s := lockRecords s b
  let s := s.wr Reg.CTL_SCENE_SERIAL (w32 (be (sub b 16 4)))
  let s := startScope s (scopeOf b)
  loadEnd (raise0 s 0x0104 0) 5 0

/-- A class 1 decision closes the loader for a holder that is not the new ringmaster (R62). -/
def decisionDone (s : State) (b : List Byte) : State :=
  if byteAt b 5 = 1 ∧ holderIs s (byteAt b 6) (byteAt b 7) = false then loaderIdle s 0 else loadEnd s 5 0

/-- APPLY_DONE: STRUCTURE where the lane map breaks the rules of R102, which leaves no active script, or the ports in scope
down (R78, R81); else DONE. -/
def applyDoneOp (s : State) : State :=
  if s.loadState ≠ 4 then s
  else
    let b := imageBytes s
    match s.loadKind with
    | 2 => if laneMapOk s then scriptDone s b else loadFail s 14
    | 3 => if laneMapOk s then sceneDone s b else loadFail s 14
    | 4 => decisionDone s b
    | _ => loadEnd s 5 0

/-- A write of CTL_LOAD_CTRL: other CMD values are ignored (R63). -/
def loadCtrlWrite (who : Who) (val : Word) (s : State) : State :=
  match fieldOf Reg.CTL_LOAD_CTRL_CMD val with
  | 1 => loadOpenOp who (fieldOf Reg.CTL_LOAD_CTRL_KIND val) (fieldOf Reg.CTL_LOAD_CTRL_LENGTH val) s
  | 2 => loadVerifyOp who s
  | 3 => loadApplyOp who s
  | 4 => loadCloseOp who s
  | _ => s

/-! ### Access by a path (R3, R53, R54) -/

/-- An aligned write that a path makes to the device's own registers. -/
def busWrite (who : Who) (off : Nat) (val : Word) (s : State) : State :=
  gate who (classOf off) off (if off = Reg.CTL_LOAD_CTRL then loadCtrlWrite who val else unitWrite who off val) s

/-- An access that is not a naturally aligned word is counted, in a halted device that answers too (R3, R546). -/
def misaligned (s : State) : State := if s.answers then s.inc Reg.CTL_FAULT_ALIGN else s

/-- A write to any offset. -/
def pathWrite (who : Who) (off : Nat) (val : Word) (s : State) : State :=
  if off % 4 ≠ 0 then misaligned s else busWrite who off val s

/-- A read of a field that a receiver measures or adapts shows what it has found now (R121, R123; log 6). -/
def measureAt (off : Nat) (s : State) : State :=
  let now := fun (u : LaneUnit) (base : Nat) =>
    let j := (off - base) / 0x1000
    if s.running && !s.dormant && s.adapts u j && [0x4, 0x14, 0x20, 0x24, 0x28, 0x30].contains (off % 0x1000) then adapt s u j else s
  match winOf off with
  | .lnc => now .lnc 0x100000
  | .lnl => now .lnl 0x120000
  | .lnf => now .lnf 0x140000
  | _ => s

/-- A read of any offset. -/
def pathRead (who : Who) (off : Nat) (s : State) : Word × State :=
  if off % 4 ≠ 0 then (0, misaligned s) else localRead who off (measureAt off s)

/-! ### The commands -/

/-- LOAD_APPLY -/
def execLoadApply (who : Who) (s : State) : Host.Outcome State Fault Refusal :=
  .next (gate who .loader Reg.CTL_LOAD_CTRL (loadApplyOp who) s)
/-- APPLY_DONE -/
def execApplyDone (s : State) : Host.Outcome State Fault Refusal := .next (live applyDoneOp s)

end Sys2Proof.Machine
end

