-- ==== Sys2Proof/Machine/Held.lean ====
section
/-! DEFINITION. Accesses to the device's own registers as every path makes them: each path's in the order of arrival, an access to a
power domain that is not ON held until it is (R50 to R52, R518), and the answer in the path's own form. -/

namespace Sys2Proof.Machine

/-- An access at this offset stalls: its unit's domain is not ON (R65, R504, R518). The registers and buffers of the utility cipher
engine's channels stand in PD103; every other register stands in the unswitched core, or in a lane's quad, which no access wakes
(R99). -/
def State.stallsAt (s : State) (off : Nat) : Bool :=
  s.running && !s.dormant && decide (off % 4 = 0) && decide (winOf off = .uce) && (uceChanOf off).isSome && decide (s.dom 103 ≠ .on)

/-- The four data bytes of a service-port transaction, least significant first (R50, R51). -/
def dataLe (v : Word) : List Byte := toLe 4 v.toNat

/-- An answer's payload on the fabric: STATUS, TAG, offset and data (R481). -/
def answerBytes (status tag off : Nat) (data : Word) : List Byte := BitVec.ofNat 8 status :: (toBe 3 tag ++ toBe 4 off ++ toBe 4 data.toNat)

/-- Answer a read, or on the fabric a write too, in the form in which the access came (R50, R51, R481). -/
def answer (a : Held) (v : Word) (s : State) : State :=
  match a.form with
  | .bar => if a.write.isSome then s else s.emit (.readData a.who.path v)
  | .spi => if a.write.isSome then s else s.emit (.svcBytes (0x5C :: dataLe v))
  | .i2c => if a.write.isSome then s else s.emit (.svcBytes (dataLe v))
  | .fab tag => sendCell s cellRegRsp a.who.addr.toNat (answerBytes 0 tag a.off v)

/-- An access is served: a write takes effect, a read is answered. -/
def serveAccess (a : Held) (s : State) : State :=
  match a.write with
  | some v => answer a 0 (pathWrite a.who a.off v s)
  | none => let (v, s) := pathRead a.who a.off s; answer a v s

/-- Serve up to n of a path's accesses, in order, until one stalls. -/
def serveSome (p : Path) : Nat → State → State
  | 0, s => s
  | n + 1, s => match (s.path p).held with
    | [] => s
    | a :: rest =>
      if s.stallsAt a.off then s else serveSome p n (serveAccess a (s.modPath p (fun x => { x with held := rest })))

/-- Serve a path's accesses. -/
def serveHeld (p : Path) (s : State) : State := serveSome p (s.path p).held.length s

/-- Serve every path's accesses: a domain may have come ON. -/
def serveAll (s : State) : State := [Path.pcie, .svc, .fabric, .firmware].foldl (fun s p => serveHeld p s) s

/-- An access arrives on a path: it is served at once, or waits behind those before it (R52, R518). An SPI read that waits returns
0xFF meanwhile (R50, R52). -/
def arrive (a : Held) (s : State) : State :=
  let p := a.who.path
  if (s.path p).held = [] ∧ s.stallsAt a.off = false then serveAccess a s
  else
    let s := s.modPath p (fun x => { x with held := x.held ++ [a] })
    let s := serveHeld p s
    if a.form = .spi ∧ a.write = none ∧ (s.path p).held ≠ [] then s.emit (.svcBytes [0xFF]) else s

end Sys2Proof.Machine
end

