-- ==== Sys2Proof/Machine/FabricRx.lean ====
section
/-! DEFINITION. Cells as they arrive (R475, R476, R480) and register access over the fabric: the remote aperture (R49), its
requests and answers (R481, R482). -/

namespace Sys2Proof.Machine

/-! ### The remote aperture (R49, R481, R482) -/

/-- A request's payload: OP, TAG, offset and data (R481). -/
def requestBytes (r : RemoteReq) : List Byte := BitVec.ofNat 8 (b2n r.write) :: (toBe 3 r.tag ++ toBe 4 r.off ++ toBe 4 r.data.toNat)

/-- Send the first request that a path holds. -/
def sendRequest (s : State) (p : Path) : State :=
  match (s.path p).remote with
  | r :: _ => sendCell s cellRegReq r.dst (requestBytes r)
  | [] => s

/-- An access through the aperture joins the path's requests, under a TAG of its own, and is sent when it is the first. -/
def addRequest (s : State) (p : Path) (x : Nat) (write : Bool) (data : Word) : State :=
  let r : RemoteReq := { dst := fieldOf Reg.CTL_REMOTE_SEL_ADDR (s.path p).remoteSel, tag := s.ctl.nextTag, off := x, write := write, data := data }
  let first := (s.path p).remote.isEmpty
  let s := s.modCtl (fun c => { c with nextTag := (c.nextTag + 1) % 2 ^ 24 })
  let s := s.modPath p (fun y => { y with remote := y.remote ++ [r] })
  if first then sendRequest s p else s

/-- The first request of a path ends: a read is answered, and the next request is sent. -/
def endRequest (s : State) (p : Path) (data : Word) : State :=
  match (s.path p).remote with
  | r :: rest =>
    let s := s.modPath p (fun y => { y with remote := rest })
    sendRequest (if r.write then s else s.emit (.readData p data)) p
  | [] => s

/-- An access to the remote aperture, which is the PCIe host's alone: the service port does not have it, and the fabric's own
requests end below it. -/
def apertureOp (who : Who) (x : Nat) (write : Bool) (data : Word) (s : State) : State :=
  if s.running = false ∨ s.dormant = true ∨ who.path ≠ .pcie then
    if write then gate who .other 0x1000000 (fun s => s) s else readOp who 0x1000000 s
  else if x % 4 ≠ 0 then
    let s := misaligned s
    if write then s else s.emit (.readData who.path 0)
  else if write then gate who .other 0x1000000 (fun s => addRequest s who.path x true data) s
  else addRequest s who.path x false 0

/-- REMOTE_ACCESS_TIMEOUT: 50 µs without reaching the device (R49, R482). -/
def remoteTimeoutOp (p : Path) (s : State) : State :=
  if (s.path p).remote = [] then s
  else
    let s := (s.inc Reg.FAB_REG_TIMEOUT).modPath p (fun y => { y with remoteSel := y.remoteSel ||| 0x80000000#32 })
    endRequest s p 0

/-- A REG_RSP arrives: it ends the request whose TAG it carries, when that is the one in progress. -/
def regRspRx (s : State) (src : Nat) (b : List Byte) : State :=
  if b.length ≠ 12 then s
  else
    let mine := fun (p : Path) => match (s.path p).remote with
      | r :: _ => decide (r.tag = be (sub b 1 3)) && decide (r.dst = src)
      | [] => false
    match [Path.pcie, Path.svc, Path.fabric].find? mine with
    | some p => endRequest s p (if byteAt b 0 = 0 then w32 (be (sub b 8 4)) else 0)
    | none => s

/-- A REG_REQ arrives: an access from path fabric at address SRC. A write whose TAG is among the last 16 of its source is
answered without writing again (R481, R482). -/
def regReqRx (s : State) (src : Nat) (b : List Byte) : State :=
  if b.length ≠ 12 then s
  else
    let who : Who := { path := .fabric, addr := BitVec.ofNat 6 src }
    let tag := be (sub b 1 3)
    let off := be (sub b 4 4)
    let data := w32 (be (sub b 8 4))
    if 0x1000000 ≤ off then sendCell s cellRegRsp src (answerBytes 1 tag off 0)
    else if byteAt b 0 = 1 then
      let old := mlook [] src s.ctl.served
      if old.contains tag then sendCell s cellRegRsp src (answerBytes 0 tag off 0)
      else arrive { who := who, form := .fab tag, off := off, write := some data }
        (s.modCtl (fun c => { c with served := mput src ((tag :: old).take 16) c.served }))
    else if byteAt b 0 = 0 then arrive { who := who, form := .fab tag, off := off, write := none } s
    else s

/-! ### A cell arrives (R475, R476, R480) -/

/-- A cell for this device is consumed by its class. -/
def consumeCell (s : State) (cls src seq : Nat) (p : List Byte) : State :=
  match cls with
  | 2 => heartbeatRx s .fab p
  | 3 => regReqRx s src p
  | 4 => regRspRx s src p
  | 5 => markRx s src seq p
  | 6 => markAckRx s src p
  | 7 => stateCrcRx s src p
  | _ => s

/-- A cell that lane l of a link delivers: it is descrambled (R474), then checked. A HELLO is for the device at the link's other end,
whatever its address (R478). -/
def takeCell (s : State) (n l : Nat) (raw : List Byte) : State :=
  let c := cellScramble l raw
  let cls := byteAt c 0
  let dst := byteAt c 1 / 4
  let src := byteAt c 2 / 4
  let p := sub c 12 (be (sub c 6 2))
  if be (sub c 252 4) ≠ (crc32 (c.take 252)).toNat then s.inc Reg.FAB_CELL_CRC_ERR
  else if s.flag Reg.FAB_CFG_EN = false ∨ s.fab.linkUp.contains n = false then s
  else if cls = 0 then s
  else if 7 < cls then s.inc Reg.FAB_CELL_DROP
  else if cls = 1 then helloRx s n src p
  else if (mget n s.fab.neighbours).any (fun x => x.conflict) then s
  else if dst = s.fabAddr then consumeCell s cls src (be (sub c 4 2)) p
  else forwardCell s c

/-- FAB_CELL_RX: a cell as lane l of link n decodes it, scrambled from byte 12 on. -/
def cellRxOp (n l : Nat) (inPlace : Bool) (c : List Byte) (s : State) : State :=
  if s.laneSt .lnf (4 * n + l) ≠ 6 ∨ (s.korLane (32 + 4 * n + l)).locked = false then s
  else
    let (given, s) := cellDelineate s n l inPlace (cellHeadOk c)
    if given then takeCell s n l c else s

/-! ### The commands -/

/-- REMOTE_APERTURE_ACCESS -/
def execRemoteApertureAccess (who : Who) (off : BitVec 24) (write : Bool) (data : Word) (s : State) :
    Host.Outcome State Fault Refusal := .next (apertureOp who off.toNat write data s)
/-- REMOTE_ACCESS_TIMEOUT -/
def execRemoteAccessTimeout (path : Path) (s : State) : Host.Outcome State Fault Refusal := .next (live (remoteTimeoutOp path) s)
/-- REG_REQ_RETRY -/
def execRegReqRetry (path : Path) (s : State) : Host.Outcome State Fault Refusal := .next (live (fun s => sendRequest s path) s)
/-- FAB_CELL_RX -/
def execFabCellRx (link lane : Fin 4) (inPlace : Bool) (cell : List Byte) (s : State) : Host.Outcome State Fault Refusal :=
  .next (live (cellRxOp link lane inPlace cell) s)

end Sys2Proof.Machine
end

