-- ==== Sys2Proof/Machine/Service.lean ====
section
/-! DEFINITION. Accesses as the paths make them: plain register reads and writes (00 R3 to R7), BAR2 (R553), the service port
(R50 to R52, R581), and the tick that passes when no command waits. -/

namespace Sys2Proof.Machine

/-! ### BAR0 (R3, R7, R48, R49) -/

/-- A register write at a BAR0 offset: above 16 MiB it is an access to the remote aperture. -/
def regWriteOp (who : Who) (off : Nat) (val : Word) (s : State) : State :=
  if 0x1000000 ≤ off ∧ off < 0x2000000 ∧ off % 4 = 0 then apertureOp who (off - 0x1000000) true val s
  else arrive { who := who, form := .bar, off := off, write := some val } s

/-- A register read at a BAR0 offset, answered on the path that made it. -/
def regReadOp (who : Who) (off : Nat) (s : State) : State :=
  if 0x1000000 ≤ off ∧ off < 0x2000000 ∧ off % 4 = 0 then apertureOp who (off - 0x1000000) false 0 s
  else if s.answers then arrive { who := who, form := .bar, off := off, write := none } s
  else s

/-- MISALIGNED_ACCESS: discarded or answered 0, and counted (R3). -/
def misalignedOp (who : Who) (write : Bool) (s : State) : State :=
  if s.answers then
    let s := misaligned s
    if write then s else s.emit (.readData who.path 0)
  else s

/-- DORMANT_ACCESS: an access like any other, which a dormant device serves in four windows and counts elsewhere (R520). -/
def dormantOp (who : Who) (off : Nat) (write : Bool) (data : Word) (s : State) : State :=
  if write then regWriteOp who off data s else regReadOp who off s

/-! ### BAR2 (R553) -/

/-- What BAR2 shows at CNT offset x. -/
def State.bar2Word (s : State) (x : Nat) : Word :=
  if s.bar2Shows x = false then 0
  else if 0x3D0000 ≤ x ∧ x < 0x3E0000 then s.bar2Wraps ((x - 0x3D0000) / 4)
  else s.cntRead .pcie x

/-- A place of BAR2 that is a 64-bit register: the group area and the directory. -/
def bar2Wide (x : Nat) : Bool := decide (x < 0x3A0000) || decide (0x3E0000 ≤ x)

/-- BAR2_READ, with a latch of its own; a device that is halted, dormant or in reset shows nothing (R520, R546). -/
def bar2ReadOp (x : Nat) (s : State) : State :=
  if s.answers = false then s
  else if x % 4 ≠ 0 then (misaligned s).emit (.bar2Data 0)
  else if s.halted then s.emit (.bar2Data 0)
  else if s.dormant then (s.inc Reg.GAF_DORMANT_ACCESS).emit (.bar2Data 0)
  else if bar2Wide x then
    if x % 8 = 0 then
      (s.modCtl (fun c => { c with bar2 := { off := some x, high := s.bar2Word (x + 4) } })).emit (.bar2Data (s.bar2Word x))
    else s.emit (.bar2Data (if s.ctl.bar2.off = some (x - 4) then s.ctl.bar2.high else 0))
  else s.emit (.bar2Data (s.bar2Word x))

/-! ### The service port (R50 to R52, R581) -/

/-- The answer of a service-port read that is given without data: the marker 0xE1 on SPI, and four zero bytes (R50, R51). -/
def noData (spi : Bool) : List Byte := if spi then 0xE1 :: dataLe 0 else dataLe 0

/-- SPI_TRANSACTION: 0x02 writes, 0x0B reads and is answered with the marker 0x5C, or 0xE1 for the remote aperture (R50). A write
of the aperture, which the port does not have, passes the tests of every write and has no effect (R53, R54). -/
def spiOp (opcode : Byte) (off data : Word) (s : State) : State :=
  if s.answers = false then s
  else if opcode = 0x02 then arrive { who := Who.service, form := .spi, off := off.toNat, write := some data } s
  else if opcode = 0x0B then
    if 0x1000000 ≤ off.toNat ∧ off.toNat < 0x2000000 ∧ off.toNat % 4 = 0 then s.emit (.svcBytes (noData true))
    else arrive { who := Who.service, form := .spi, off := off.toNat, write := none } s
  else s

/-- I2C_TRANSACTION at the device's slave address (R51). One that waits stretches the clock and is answered in its turn (R52). -/
def i2cOp (write : Bool) (off data : Word) (s : State) : State :=
  if s.answers = false then s
  else if write then arrive { who := Who.service, form := .i2c, off := off.toNat, write := some data } s
  else if 0x1000000 ≤ off.toNat ∧ off.toNat < 0x2000000 ∧ off.toNat % 4 = 0 then s.emit (.svcBytes (noData false))
  else arrive { who := Who.service, form := .i2c, off := off.toNat, write := none } s

/-- The first access of a form that the service port holds leaves its queue, and the others go on in order. -/
def dropHeld (form : Form) (s : State) : State :=
  match s.ctl.svc.held.find? (fun a => decide (a.form = form)) with
  | none => s
  | some a => serveHeld .svc (s.modPath .svc (fun x => { x with held := x.held.erase a }))

/-- The service port holds a read of a form. -/
def State.heldRead (s : State) (form : Form) : Bool := s.ctl.svc.held.any (fun a => decide (a.form = form) && a.write.isNone)

/-- SVC_READ_TIMEOUT: a read that has waited for 2 ms is answered without data and counted (R50, R51, R63). -/
def svcTimeoutOp (spi : Bool) (s : State) : State :=
  let form := if spi then Form.spi else .i2c
  if s.heldRead form then dropHeld form ((s.inc Reg.CTL_FAULT_SVC).emit (.svcBytes (noData spi))) else s

/-- I2C_SDA_STUCK: SDA is released and the slave's transaction is gone; where SDA stays low the bus is cleared, and that is counted
(R581). -/
def sdaStuckOp (stillLow : Bool) (s : State) : State :=
  if s.answers = false then s
  else
    let s := dropHeld .i2c s
    if stillLow then (s.inc Reg.CTL_FAULT_SVC).emit .i2cBusClear else s

/-- I2C_SCL_STUCK: the transaction in progress is abandoned; a read returns four zero bytes (R581). -/
def sclStuckOp (reading : Bool) (s : State) : State :=
  if s.answers = false then s
  else
    let s := dropHeld .i2c s
    if reading then s.emit (.svcBytes (noData false)) else s

/-! ### The tick -/

/-- One tick of 1.25 ns passes with nothing commanded: the model's own clock and the free-running counter count (R364), and a
frame that waits for a tracker entry of the splicer waits two clocks more (R315) (log 14). -/
def tick (s : State) : State :=
  let s := { s with clk := s.clk + 1 }
  let s := if s.frcRuns then { s with tim := { s.tim with frc := s.tim.frc + 1 } } else s
  if s.running && s.trackerWaits then s.bump Reg.FRM_TRACKER_FULL 2 else s

/-! ### The commands -/

/-- REG_WRITE -/
def execRegWrite (who : Who) (off : BitVec 28) (val : Word) (s : State) : Host.Outcome State Fault Refusal :=
  .next (regWriteOp who off.toNat val s)
/-- MISALIGNED_ACCESS -/
def execMisalignedAccess (who : Who) (write : Bool) (s : State) : Host.Outcome State Fault Refusal := .next (misalignedOp who write s)
/-- READ_LOW_WORD -/
def execReadLowWord (who : Who) (off : BitVec 28) (s : State) : Host.Outcome State Fault Refusal := .next (regReadOp who off.toNat s)
/-- READ_HIGH_WORD -/
def execReadHighWord (who : Who) (off : BitVec 28) (s : State) : Host.Outcome State Fault Refusal := .next (regReadOp who off.toNat s)
/-- DORMANT_ACCESS -/
def execDormantAccess (who : Who) (off : BitVec 28) (write : Bool) (data : Word) (s : State) : Host.Outcome State Fault Refusal :=
  .next (dormantOp who off.toNat write data s)
/-- BAR2_READ -/
def execBar2Read (off : BitVec 22) (s : State) : Host.Outcome State Fault Refusal := .next (bar2ReadOp off.toNat s)
/-- SPI_TRANSACTION -/
def execSpiTransaction (opcode : Byte) (off data : Word) (s : State) : Host.Outcome State Fault Refusal := .next (spiOp opcode off data s)
/-- I2C_TRANSACTION -/
def execI2cTransaction (write : Bool) (off data : Word) (s : State) : Host.Outcome State Fault Refusal := .next (i2cOp write off data s)
/-- SVC_READ_TIMEOUT -/
def execSvcReadTimeout (spi : Bool) (s : State) : Host.Outcome State Fault Refusal := .next (svcTimeoutOp spi s)
/-- I2C_SDA_STUCK -/
def execI2cSdaStuck (stillLow : Bool) (s : State) : Host.Outcome State Fault Refusal := .next (sdaStuckOp stillLow s)
/-- GAF_TRANSITION_DONE: the domains that came ON let waiting accesses go on (R518). -/
def execGafTransitionDone (xtalTicks : Nat) (s : State) : Host.Outcome State Fault Refusal :=
  .next (live (fun s => serveAll (transitionDoneOp xtalTicks s)) s)
/-- ACCESS_WAKE: the access that stalled goes on when its domain is ON (R518). -/
def execAccessWake (dom : Fin 104) (s : State) : Host.Outcome State Fault Refusal :=
  .next (live (fun s => serveAll (accessWakeOp dom s)) s)
/-- I2C_SCL_STUCK -/
def execI2cSclStuck (reading : Bool) (s : State) : Host.Outcome State Fault Refusal := .next (sclStuckOp reading s)

end Sys2Proof.Machine
end

