-- ==== Sys2Proof/Machine/Dispatch.lean ====
section
/-! DEFINITION. One arm per command: each calls the command's own meaning. -/

namespace Sys2Proof.Machine

def exec (i : Instr) (s : State) : Host.Outcome State Fault Refusal :=
  match i with
  | .regWrite who off val => Sys2Proof.Machine.execRegWrite who off val s
  | .misalignedAccess who write => Sys2Proof.Machine.execMisalignedAccess who write s
  | .readLowWord who off => Sys2Proof.Machine.execReadLowWord who off s
  | .readHighWord who off => Sys2Proof.Machine.execReadHighWord who off s
  | .bar2Read off => Sys2Proof.Machine.execBar2Read off s
  | .remoteApertureAccess who off write data => Sys2Proof.Machine.execRemoteApertureAccess who off write data s
  | .remoteAccessTimeout path => Sys2Proof.Machine.execRemoteAccessTimeout path s
  | .regReqRetry path => Sys2Proof.Machine.execRegReqRetry path s
  | .spiTransaction opcode off data => Sys2Proof.Machine.execSpiTransaction opcode off data s
  | .i2cTransaction write off data => Sys2Proof.Machine.execI2cTransaction write off data s
  | .svcReadTimeout spi => Sys2Proof.Machine.execSvcReadTimeout spi s
  | .i2cSdaStuck stillLow => Sys2Proof.Machine.execI2cSdaStuck stillLow s
  | .i2cSclStuck reading => Sys2Proof.Machine.execI2cSclStuck reading s
  | .claim who => Sys2Proof.Machine.execClaim who s
  | .confirm who => Sys2Proof.Machine.execConfirm who s
  | .release who => Sys2Proof.Machine.execRelease who s
  | .handoverOffer who target addr ms => Sys2Proof.Machine.execHandoverOffer who target addr ms s
  | .handoverWithdraw who => Sys2Proof.Machine.execHandoverWithdraw who s
  | .offerExpiry => Sys2Proof.Machine.execOfferExpiry s
  | .loadOpen who kind len => Sys2Proof.Machine.execLoadOpen who kind len s
  | .loadData who data => Sys2Proof.Machine.execLoadData who data s
  | .loadVerify who => Sys2Proof.Machine.execLoadVerify who s
  | .verifyDone => Sys2Proof.Machine.execVerifyDone s
  | .loadApply who => Sys2Proof.Machine.execLoadApply who s
  | .applyDone => Sys2Proof.Machine.execApplyDone s
  | .loadClose who => Sys2Proof.Machine.execLoadClose who s
  | .loaderIdleTimeout => Sys2Proof.Machine.execLoaderIdleTimeout s
  | .mbxGetInfo who tag => Sys2Proof.Machine.execMbxGetInfo who tag s
  | .mbxMkaDelegate who tag => Sys2Proof.Machine.execMbxMkaDelegate who tag s
  | .mbxMkaRelease who tag => Sys2Proof.Machine.execMbxMkaRelease who tag s
  | .mbxMkaStatus who tag => Sys2Proof.Machine.execMbxMkaStatus who tag s
  | .mbxPtpHandle who tag => Sys2Proof.Machine.execMbxPtpHandle who tag s
  | .mbxLogRead who tag => Sys2Proof.Machine.execMbxLogRead who tag s
  | .mbxSelfTest who tag => Sys2Proof.Machine.execMbxSelfTest who tag s
  | .mbxDone result rsp => Sys2Proof.Machine.execMbxDone result rsp s
  | .mbxTimeout => Sys2Proof.Machine.execMbxTimeout s
  | .fwWatchdogReset => Sys2Proof.Machine.execFwWatchdogReset s
  | .fwDelegationResume handle => Sys2Proof.Machine.execFwDelegationResume handle s
  | .fwRun => Sys2Proof.Machine.execFwRun s
  | .fwFrameTx n frame => Sys2Proof.Machine.execFwFrameTx n frame s
  | .resetAssert ball => Sys2Proof.Machine.execResetAssert ball s
  | .powerOnReset => Sys2Proof.Machine.execPowerOnReset s
  | .resetRelease bootMode ddrCfg => Sys2Proof.Machine.execResetRelease bootMode ddrCfg s
  | .aonCheckDone burnOk => Sys2Proof.Machine.execAonCheckDone burnOk s
  | .vaultStageDone entropyOk burnOk weak kat => Sys2Proof.Machine.execVaultStageDone entropyOk burnOk weak kat s
  | .entropyStartupTimeout => Sys2Proof.Machine.execEntropyStartupTimeout s
  | .memoryInitDone rate pinnedOk => Sys2Proof.Machine.execMemoryInitDone rate pinnedOk s
  | .ddrTrainTimeout => Sys2Proof.Machine.execDdrTrainTimeout s
  | .portsEnable => Sys2Proof.Machine.execPortsEnable s
  | .quadPowered unit quad => Sys2Proof.Machine.execQuadPowered unit quad s
  | .laneCfgWrite who lane val => Sys2Proof.Machine.execLaneCfgWrite who lane val s
  | .laneRestart who lane => Sys2Proof.Machine.execLaneRestart who lane s
  | .lanePrbsCfgWrite who lane val => Sys2Proof.Machine.execLanePrbsCfgWrite who lane val s
  | .cdrLock lane => Sys2Proof.Machine.execCdrLock lane s
  | .cdrUnlock lane => Sys2Proof.Machine.execCdrUnlock lane s
  | .los lane => Sys2Proof.Machine.execLos lane s
  | .signalStable lane => Sys2Proof.Machine.execSignalStable lane s
  | .ktfReceived lane lead ktf knownBits errs => Sys2Proof.Machine.execKtfReceived lane lead ktf knownBits errs s
  | .stepResume lane => Sys2Proof.Machine.execStepResume lane s
  | .rungTimeout lane => Sys2Proof.Machine.execRungTimeout lane s
  | .failRetry lane => Sys2Proof.Machine.execFailRetry lane s
  | .anPageReceived lane page => Sys2Proof.Machine.execAnPageReceived lane page s
  | .anTimerExpiry lane => Sys2Proof.Machine.execAnTimerExpiry lane s
  | .ieeeTrainDone lane => Sys2Proof.Machine.execIeeeTrainDone lane s
  | .ieeeTrainTimeout lane => Sys2Proof.Machine.execIeeeTrainTimeout lane s
  | .prbsLock heard => Sys2Proof.Machine.execPrbsLock heard s
  | .prbsLockLost lane bits errs => Sys2Proof.Machine.execPrbsLockLost lane bits errs s
  | .injOnce who lane => Sys2Proof.Machine.execInjOnce who lane s
  | .injBurst lane => Sys2Proof.Machine.execInjBurst lane s
  | .refclkLost unit => Sys2Proof.Machine.execRefclkLost unit s
  | .refclkRestored unit => Sys2Proof.Machine.execRefclkRestored unit s
  | .macRxFrame side k frame pcsError => Sys2Proof.Machine.execMacRxFrame side k frame pcsError s
  | .pcsAligned side k => Sys2Proof.Machine.execPcsAligned side k s
  | .pcsAlignLost side k cause => Sys2Proof.Machine.execPcsAlignLost side k cause s
  | .deskewFail side k => Sys2Proof.Machine.execDeskewFail side k s
  | .rsFaultRx side k fault => Sys2Proof.Machine.execRsFaultRx side k fault s
  | .linkUp side k => Sys2Proof.Machine.execLinkUp side k s
  | .faultMirrorStart side k => Sys2Proof.Machine.execFaultMirrorStart side k s
  | .faultMirrorStop side k => Sys2Proof.Machine.execFaultMirrorStop side k s
  | .fecInterval side k corrCw uncorrCw laneSyms => Sys2Proof.Machine.execFecInterval side k corrCw uncorrCw laneSyms s
  | .korCodeword lane result => Sys2Proof.Machine.execKorCodeword lane result s
  | .korLaneFrameRx lane inPlace frame bip skewNs => Sys2Proof.Machine.execKorLaneFrameRx lane inPlace frame bip skewNs s
  | .korLinkUp k => Sys2Proof.Machine.execKorLinkUp k s
  | .korFramePeriodTx k blocks => Sys2Proof.Machine.execKorFramePeriodTx k blocks s
  | .streamPeriodRx k frameCount skey spn jc noContent blocks => Sys2Proof.Machine.execStreamPeriodRx k frameCount skey spn jc noContent blocks s
  | .streamTagVerify k tag => Sys2Proof.Machine.execStreamTagVerify k tag s
  | .korCapsuleRx k capsule viaPtr nextHead => Sys2Proof.Machine.execKorCapsuleRx k capsule viaPtr nextHead s
  | .korCapsuleTx k => Sys2Proof.Machine.execKorCapsuleTx k s
  | .csfStart k => Sys2Proof.Machine.execCsfStart k s
  | .csfStop k => Sys2Proof.Machine.execCsfStop k s
  | .korDegradeInterval k => Sys2Proof.Machine.execKorDegradeInterval k s
  | .cueSend who k => Sys2Proof.Machine.execCueSend who k s
  | .cueTxDone k => Sys2Proof.Machine.execCueTxDone k s
  | .cueRxFrame k msg => Sys2Proof.Machine.execCueRxFrame k msg s
  | .cuePop who k => Sys2Proof.Machine.execCuePop who k s
  | .dailiesLatch sec => Sys2Proof.Machine.execDailiesLatch sec s
  | .fltLookup n => Sys2Proof.Machine.execFltLookup n s
  | .fltInsert who wide profile => Sys2Proof.Machine.execFltInsert who wide profile s
  | .fltDelete who byIndex wide profile => Sys2Proof.Machine.execFltDelete who byIndex wide profile s
  | .fltRead who => Sys2Proof.Machine.execFltRead who s
  | .fltModify who byIndex wide profile => Sys2Proof.Machine.execFltModify who byIndex wide profile s
  | .fltSearch who wide profile => Sys2Proof.Machine.execFltSearch who wide profile s
  | .harvestHits who => Sys2Proof.Machine.execHarvestHits who s
  | .fltCmdDone => Sys2Proof.Machine.execFltCmdDone s
  | .tsWrite who idx => Sys2Proof.Machine.execTsWrite who idx s
  | .tsRead who idx => Sys2Proof.Machine.execTsRead who idx s
  | .tsClear who idx => Sys2Proof.Machine.execTsClear who idx s
  | .ccSigWrite who sig => Sys2Proof.Machine.execCcSigWrite who sig s
  | .ccLift who group => Sys2Proof.Machine.execCcLift who group s
  | .ccCompare group => Sys2Proof.Machine.execCcCompare group s
  | .fltCcMismatchRead who => Sys2Proof.Machine.execFltCcMismatchRead who s
  | .fltFwLogRead who => Sys2Proof.Machine.execFltFwLogRead who s
  | .install who => Sys2Proof.Machine.execInstall who s
  | .activate who => Sys2Proof.Machine.execActivate who s
  | .retire who => Sys2Proof.Machine.execRetire who s
  | .ascRead who => Sys2Proof.Machine.execAscRead who s
  | .readCounters who => Sys2Proof.Machine.execReadCounters who s
  | .pin who => Sys2Proof.Machine.execPin who s
  | .unpin who => Sys2Proof.Machine.execUnpin who s
  | .advancePn who => Sys2Proof.Machine.execAdvancePn who s
  | .setSuccessor who => Sys2Proof.Machine.execSetSuccessor who s
  | .join who => Sys2Proof.Machine.execJoin who s
  | .leave who => Sys2Proof.Machine.execLeave who s
  | .troupeCreate who => Sys2Proof.Machine.execTroupeCreate who s
  | .troupeDelete who => Sys2Proof.Machine.execTroupeDelete who s
  | .troupeParent who => Sys2Proof.Machine.execTroupeParent who s
  | .schedule who => Sys2Proof.Machine.execSchedule who s
  | .cancel who => Sys2Proof.Machine.execCancel who s
  | .dissolveStatus who => Sys2Proof.Machine.execDissolveStatus who s
  | .ascCmdDone => Sys2Proof.Machine.execAscCmdDone s
  | .ascRekeyLogRead who => Sys2Proof.Machine.execAscRekeyLogRead who s
  | .ascFaultLogRead who => Sys2Proof.Machine.execAscFaultLogRead who s
  | .storeReady => Sys2Proof.Machine.execStoreReady s
  | .pageInDone assoc ecc => Sys2Proof.Machine.execPageInDone assoc ecc s
  | .markPersisted assoc => Sys2Proof.Machine.execMarkPersisted assoc s
  | .dissolveOpen entry => Sys2Proof.Machine.execDissolveOpen entry s
  | .dissolveSwitch entry => Sys2Proof.Machine.execDissolveSwitch entry s
  | .dissolveClose entry => Sys2Proof.Machine.execDissolveClose entry s
  | .sliceDone frame slice => Sys2Proof.Machine.execSliceDone frame slice s
  | .splicerRelease frame => Sys2Proof.Machine.execSplicerRelease frame s
  | .cutRelease frame => Sys2Proof.Machine.execCutRelease frame s
  | .maskSeed core => Sys2Proof.Machine.execMaskSeed core s
  | .maskStarved core => Sys2Proof.Machine.execMaskStarved core s
  | .katDone core pass => Sys2Proof.Machine.execKatDone core pass s
  | .carouselLoadTick => Sys2Proof.Machine.execCarouselLoadTick s
  | .ringWakeDone r pass => Sys2Proof.Machine.execRingWakeDone r pass s
  | .ringSleepAck r => Sys2Proof.Machine.execRingSleepAck r s
  | .ringKat who r cores => Sys2Proof.Machine.execRingKat who r cores s
  | .ringRestore who r cores => Sys2Proof.Machine.execRingRestore who r cores s
  | .gateTimeout slot => Sys2Proof.Machine.execGateTimeout slot s
  | .dupCheckDone frame equal coreA coreB => Sys2Proof.Machine.execDupCheckDone frame equal coreA coreB s
  | .noCores dir => Sys2Proof.Machine.execNoCores dir s
  | .poolCfgWrite who pool val => Sys2Proof.Machine.execPoolCfgWrite who pool val s
  | .bpmUe frame addr => Sys2Proof.Machine.execBpmUe frame addr s
  | .egressStart m => Sys2Proof.Machine.execEgressStart m s
  | .txFrameDone m crcOk => Sys2Proof.Machine.execTxFrameDone m crcOk s
  | .shaperRefill => Sys2Proof.Machine.execShaperRefill s
  | .shpWrite who shaper => Sys2Proof.Machine.execShpWrite who shaper s
  | .shpRead who shaper => Sys2Proof.Machine.execShpRead who shaper s
  | .mapWrite who valid assoc => Sys2Proof.Machine.execMapWrite who valid assoc s
  | .mapRead who assoc => Sys2Proof.Machine.execMapRead who assoc s
  | .ptpSlotDue m => Sys2Proof.Machine.execPtpSlotDue m s
  | .histSnap who m => Sys2Proof.Machine.execHistSnap who m s
  | .timRateWrite who rate => Sys2Proof.Machine.execTimRateWrite who rate s
  | .timSet who => Sys2Proof.Machine.execTimSet who s
  | .timAdd who => Sys2Proof.Machine.execTimAdd who s
  | .timNowRead who => Sys2Proof.Machine.execTimNowRead who s
  | .holdoverTimeout => Sys2Proof.Machine.execHoldoverTimeout s
  | .ppsLost => Sys2Proof.Machine.execPpsLost s
  | .ppsInEdge highNs => Sys2Proof.Machine.execPpsInEdge highNs s
  | .timeEventEdge highNs => Sys2Proof.Machine.execTimeEventEdge highNs s
  | .timCapPop who c => Sys2Proof.Machine.execTimCapPop who c s
  | .ppsOutEdge rise => Sys2Proof.Machine.execPpsOutEdge rise s
  | .xtalCalDone offset => Sys2Proof.Machine.execXtalCalDone offset s
  | .fuWaitTimeout frame => Sys2Proof.Machine.execFuWaitTimeout frame s
  | .mgdReadComplete client line ecc level missed => Sys2Proof.Machine.execMgdReadComplete client line ecc level missed s
  | .memVerdict assoc pass1 pass2 line level => Sys2Proof.Machine.execMemVerdict assoc pass1 pass2 line level s
  | .mgdWriteComplete client line data => Sys2Proof.Machine.execMgdWriteComplete client line data s
  | .chgStart who region => Sys2Proof.Machine.execChgStart who region s
  | .chgPage => Sys2Proof.Machine.execChgPage s
  | .seal ok => Sys2Proof.Machine.execSeal ok s
  | .vltGenerate who => Sys2Proof.Machine.execVltGenerate who s
  | .vltImport who => Sys2Proof.Machine.execVltImport who s
  | .vltStore who => Sys2Proof.Machine.execVltStore who s
  | .vltFetch who => Sys2Proof.Machine.execVltFetch who s
  | .vltAttest who => Sys2Proof.Machine.execVltAttest who s
  | .vltCmdDone => Sys2Proof.Machine.execVltCmdDone s
  | .vltRandomRead who => Sys2Proof.Machine.execVltRandomRead who s
  | .drbgReseed => Sys2Proof.Machine.execDrbgReseed s
  | .entropyFail => Sys2Proof.Machine.execEntropyFail s
  | .entropyRetest pass => Sys2Proof.Machine.execEntropyRetest pass s
  | .bbsRemask => Sys2Proof.Machine.execBbsRemask s
  | .updOpen who len => Sys2Proof.Machine.execUpdOpen who len s
  | .updData who data => Sys2Proof.Machine.execUpdData who data s
  | .updApply who => Sys2Proof.Machine.execUpdApply who s
  | .updClose who => Sys2Proof.Machine.execUpdClose who s
  | .updApplyDone burnOk => Sys2Proof.Machine.execUpdApplyDone burnOk s
  | .lcSelfReset => Sys2Proof.Machine.execLcSelfReset s
  | .uceStart who c => Sys2Proof.Machine.execUceStart who c s
  | .uceFeed who c last segLen => Sys2Proof.Machine.execUceFeed who c last segLen s
  | .uceFeedDone c => Sys2Proof.Machine.execUceFeedDone c s
  | .uceAbort who c => Sys2Proof.Machine.execUceAbort who c s
  | .slotWrite who slot size256 => Sys2Proof.Machine.execSlotWrite who slot size256 s
  | .loadBlob who slot => Sys2Proof.Machine.execLoadBlob who slot s
  | .loadBlobDone => Sys2Proof.Machine.execLoadBlobDone s
  | .slotErase who slot => Sys2Proof.Machine.execSlotErase who slot s
  | .fabCellRx link lane inPlace cell => Sys2Proof.Machine.execFabCellRx link lane inPlace cell s
  | .fabLinkUp link => Sys2Proof.Machine.execFabLinkUp link s
  | .helloTx => Sys2Proof.Machine.execHelloTx s
  | .neighbourLost link => Sys2Proof.Machine.execNeighbourLost link s
  | .heartbeatTx => Sys2Proof.Machine.execHeartbeatTx s
  | .lvdsHeartbeatRx hb => Sys2Proof.Machine.execLvdsHeartbeatRx hb s
  | .hbTick path => Sys2Proof.Machine.execHbTick path s
  | .initWaitExpiry => Sys2Proof.Machine.execInitWaitExpiry s
  | .fenceTimer => Sys2Proof.Machine.execFenceTimer s
  | .fenceDone => Sys2Proof.Machine.execFenceDone s
  | .markRetry seq => Sys2Proof.Machine.execMarkRetry seq s
  | .resyncDone => Sys2Proof.Machine.execResyncDone s
  | .switchover who => Sys2Proof.Machine.execSwitchover who s
  | .switchoverDone => Sys2Proof.Machine.execSwitchoverDone s
  | .selfTestRing => Sys2Proof.Machine.execSelfTestRing s
  | .stateCrcTx => Sys2Proof.Machine.execStateCrcTx s
  | .fabDivergeLogRead who => Sys2Proof.Machine.execFabDivergeLogRead who s
  | .gafRequest who target => Sys2Proof.Machine.execGafRequest who target s
  | .domainAnswer dom answer => Sys2Proof.Machine.execDomainAnswer dom answer s
  | .domainAnswerTimeout dom => Sys2Proof.Machine.execDomainAnswerTimeout dom s
  | .admissionDrainTimeout => Sys2Proof.Machine.execAdmissionDrainTimeout s
  | .gafTransitionDone xtalTicks => Sys2Proof.Machine.execGafTransitionDone xtalTicks s
  | .accessWake dom => Sys2Proof.Machine.execAccessWake dom s
  | .domainIdleSleep dom => Sys2Proof.Machine.execDomainIdleSleep dom s
  | .dormantAccess who off write data => Sys2Proof.Machine.execDormantAccess who off write data s
  | .wakeSense => Sys2Proof.Machine.execWakeSense s
  | .railWarning rail => Sys2Proof.Machine.execRailWarning rail s
  | .railWarningClear rail durUs => Sys2Proof.Machine.execRailWarningClear rail durUs s
  | .railBelowReset rail => Sys2Proof.Machine.execRailBelowReset rail s
  | .vbatLow => Sys2Proof.Machine.execVbatLow s
  | .monitorSample m event sampleMs => Sys2Proof.Machine.execMonitorSample m event sampleMs s
  | .evidenceBurn readBack => Sys2Proof.Machine.execEvidenceBurn readBack s
  | .verdictSecondTaking decision upset => Sys2Proof.Machine.execVerdictSecondTaking decision upset s
  | .aonLatchRead who => Sys2Proof.Machine.execAonLatchRead who s
  | .evtLogPop who => Sys2Proof.Machine.execEvtLogPop who s
  | .releasePorts who ports => Sys2Proof.Machine.execReleasePorts who ports s
  | .qdevLift who => Sys2Proof.Machine.execQdevLift who s
  | .msixUnmask vector => Sys2Proof.Machine.execMsixUnmask vector s
  | .cntSnap who group => Sys2Proof.Machine.execCntSnap who group s
  | .cntClear who group => Sys2Proof.Machine.execCntClear who group s
  | .sptTailWrite who index => Sys2Proof.Machine.execSptTailWrite who index s
  | .cutUnderrun frame => Sys2Proof.Machine.execCutUnderrun frame s
  | .resyncSweep => Sys2Proof.Machine.execResyncSweep s
  | .ktfTx lane => Sys2Proof.Machine.execKtfTx lane s

end Sys2Proof.Machine
end

