-- ==== Sys2Proof/Machine/Pins.lean ====
section
/-! DEFINITION. The balls of the package (16): their names (R12), where each signal lies (R564 to R568), the state each group of balls takes
(R577), and what the test access port gives (R437, R576). -/

namespace Sys2Proof.Machine

/-! ### The ball map (R12, R563 to R568) -/

/-- The row letters, from the row of index 1 on (R12). -/
def rowNames : List String :=
  ["A", "B", "C", "D", "E", "F", "G", "H", "J", "K", "L", "M", "N", "P", "T", "U", "V", "W", "Y",
   "AA", "AB", "AC", "AD", "AE", "AF", "AG", "AH", "AJ", "AK", "AL", "AM", "AN", "AP", "AT", "AU", "AV", "AW", "AY",
   "BA", "BB", "BC", "BD"]

/-- A ball's name: its row letters, then its column (R12). -/
def ballName (row col : Nat) : String := rowNames.getD (row - 1) "" ++ toString col

/-- What a ball carries. -/
inductive Signal where
  | laneTx (u : LaneUnit) (j : Nat) (n : Bool)      -- the positive or negative ball of a lane's transmitter
  | laneRx (u : LaneUnit) (j : Nat) (n : Bool)
  | ddr (channel position : Nat)
  | corner (i : Nat)                                -- a signal of R568, by its place in the table
  | vddCore | vddaSd | vddhSd | vddqDdr | vddAux | vss
  deriving DecidableEq, Repr

/-- The first lane of a group of sixteen lies on row 5, each next two rows below: the lane index in the group (R566). -/
def laneRow (row : Nat) : Option Nat := if 5 ≤ row ∧ row ≤ 35 ∧ row % 2 = 1 then some ((row - 5) / 2) else none

/-- A ball of the client or line lanes, by its column counted from the edge inwards, 1 to 11 (R566). -/
def sideBall (u : LaneUnit) (row c : Nat) : Signal :=
  match laneRow row with
  | some i => match c with
    | 1 => .laneTx u i false | 2 => .laneTx u i true | 4 => .laneRx u i false | 5 => .laneRx u i true
    | 7 => .laneTx u (16 + i) false | 8 => .laneTx u (16 + i) true | 10 => .laneRx u (16 + i) false | 11 => .laneRx u (16 + i) true
    | _ => .vss
  | none => if c = 3 ∨ c = 9 then .vddaSd else if c = 6 then .vddhSd else .vss

/-- A ball of the fabric lanes (R566). -/
def fabricBall (row col : Nat) : Signal :=
  let j := (col - 6) / 2
  if row = 42 then .laneTx .lnf j (decide (col % 2 = 1))
  else if row = 40 then .laneRx .lnf j (decide (col % 2 = 1))
  else if col % 2 = 0 then .vddaSd else .vddhSd

/-- A ball of a DDR channel's rectangle: its position counts row by row, and the last four are VSS (R567). -/
def ddrBall (channel top row col : Nat) : Signal :=
  let p := 20 * (row - top) + (col - 12)
  if p < 136 then .ddr channel p else .vss

/-- A signal's name within a DDR channel, by its position (R567). -/
def ddrName (p : Nat) : String :=
  let sub := fun (s q : Nat) =>
    let h := "S" ++ toString s ++ "_"
    if q < 40 then h ++ "DQ" ++ toString q
    else if q < 50 then h ++ "DQS" ++ toString ((q - 40) / 2) ++ (if q % 2 = 0 then "_T" else "_C")
    else if q < 64 then h ++ "CA" ++ toString (q - 50)
    else if q = 64 then h ++ "CS_N" else if q = 65 then h ++ "CK_T" else h ++ "CK_C"
  if p < 67 then sub 0 p else if p < 134 then sub 1 (p - 67) else if p = 134 then "RESET_N" else "ALERT_N"

/-- The corner balls that carry signals, by row and column (R568). -/
def cornerSignals : List (Nat × Nat × String) :=
  [(2, 2, "PCIE_TX0_P"), (2, 3, "PCIE_TX0_N"), (2, 5, "PCIE_TX1_P"), (2, 6, "PCIE_TX1_N"),
   (4, 2, "PCIE_RX0_P"), (4, 3, "PCIE_RX0_N"), (4, 5, "PCIE_RX1_P"), (4, 6, "PCIE_RX1_N"),
   (2, 8, "PCIE_REFCLK_P"), (2, 9, "PCIE_REFCLK_N"), (4, 9, "PERST_N"),
   (2, 33, "REFCLK_CL_P"), (2, 34, "REFCLK_CL_N"), (2, 36, "REFCLK_LL_P"), (2, 37, "REFCLK_LL_N"),
   (4, 33, "REFCLK_FL_P"), (4, 34, "REFCLK_FL_N"), (4, 36, "REFCLK_CORE_P"), (4, 37, "REFCLK_CORE_N"),
   (2, 40, "SD_CAL_C"), (2, 41, "SD_CAL_L"), (4, 40, "SD_CAL_F"), (4, 41, "DDR_ZQ_A"), (39, 41, "DDR_ZQ_B")] ++
  [(36, 2, "RESET_N"), (36, 3, "BOOT_MODE0"), (36, 4, "BOOT_MODE1"), (36, 6, "HEALTHY"),
   (36, 7, "ALARM_N"), (36, 8, "INT0_N"), (36, 9, "INT1_N"),
   (38, 2, "SPI_SCK"), (38, 3, "SPI_CS_N"), (38, 4, "SPI_MOSI"), (38, 5, "SPI_MISO"), (38, 7, "I2C_SCL"), (38, 8, "I2C_SDA"),
   (39, 2, "JTAG_TCK"), (39, 3, "JTAG_TMS"), (39, 4, "JTAG_TDI"), (39, 5, "JTAG_TDO"), (39, 6, "JTAG_TRST_N"),
   (39, 8, "DDR_CFG0"), (39, 9, "DDR_CFG1"), (39, 10, "DDR_CFG2"), (39, 11, "DDR_CFG3"),
   (40, 2, "PPS_IN"), (40, 3, "PPS_OUT"), (40, 4, "TIME_EVENT"), (42, 2, "DIODE_P"), (42, 3, "DIODE_N")] ++
  [(36, 37, "WAKE_SENSE"), (36, 39, "XTAL32_IN"), (36, 40, "XTAL32_OUT"), (36, 41, "VBAT"),
   (38, 33, "MESH0_OUT"), (38, 34, "MESH0_IN"), (38, 36, "MESH1_OUT"), (38, 37, "MESH1_IN"),
   (39, 33, "SW0"), (39, 34, "SW1"), (39, 35, "SW2"), (39, 36, "SW3"),
   (40, 39, "HB_TX_P"), (40, 40, "HB_TX_N"), (42, 39, "HB_RX_P"), (42, 40, "HB_RX_N")]

/-- A corner ball (R568). -/
def cornerBall (row col : Nat) : Signal :=
  match cornerSignals.findIdx? (fun x => decide (x.1 = row) && decide (x.2.1 = col)) with
  | some i => .corner i
  | none =>
    if row = 37 ∧ (2 ≤ col ∧ col ≤ 7 ∨ 33 ≤ col ∧ col ≤ 35 ∨ 39 ≤ col ∧ col ≤ 41) then .vddAux
    else if row = 3 ∧ [2, 3, 5, 6, 33, 34, 36, 37].contains col then .vddaSd
    else .vss

/-- What the ball at a row and column carries, each 1 to 42 (R565). -/
def ballAt (row col : Nat) : Signal :=
  if 5 ≤ row ∧ row ≤ 35 ∧ col ≤ 11 then sideBall .lnc row col
  else if 5 ≤ row ∧ row ≤ 35 ∧ 32 ≤ col then sideBall .lnl row (43 - col)
  else if row ≤ 7 ∧ 12 ≤ col ∧ col ≤ 31 then ddrBall 0 1 row col
  else if (row = 8 ∨ row = 32) ∧ 12 ≤ col ∧ col ≤ 31 then .vddqDdr
  else if 9 ≤ row ∧ row ≤ 31 then (if (row + col) % 2 = 0 then .vddCore else .vss)
  else if 33 ≤ row ∧ row ≤ 39 ∧ 12 ≤ col ∧ col ≤ 31 then ddrBall 1 33 row col
  else if 40 ≤ row ∧ 6 ≤ col ∧ col ≤ 37 then fabricBall row col
  else cornerBall row col

/-- Every ball of the grid (R563). -/
def allBalls : List (Nat × Nat) := (List.range 42).flatMap (fun r => (List.range 42).map (fun c => (r + 1, c + 1)))

/-! ### Ball states (R577) -/

/-- The groups of balls whose states R577 gives. -/
inductive BallGroup where
  | laneTx (l : Lane) | laneRx (l : Lane) | pcieTx | ddrReset | otherDdr | healthy | alarmN | int0 | int1 | ppsOut | hbTx
  | spiMiso | i2cSda | jtagTdo | meshOut (m : Fin 2) | inputPulls
  deriving DecidableEq, Repr

/-- The state of a ball. -/
inductive BallState where
  | highZ | terminated | idle | low | high | released
  | active                                          -- as the unit behind it drives it
  | sampled                                         -- driven during the monitor's samples
  | alwaysOnPulls | pulls
  deriving DecidableEq, Repr

/-- JTAG is open in TEST and RETURN; otherwise it gives IDCODE alone (R437). -/
def State.jtagOpen (s : State) : Bool := decide (lcCode s.vlt.otp = 1) || decide (lcCode s.vlt.otp = 4)

/-- What IDCODE reads in every state (R576). -/
def idcode : Word := 0xB3264A5F

/-- A line low or released, or high-Z on battery. -/
def lowIf (b : Bool) : BallState := if b then .low else .released

/-- The state that a ball takes (R131, R137, R537, R547, R548, R577). What R577 names for a device with no supply at all is no state of
the model. -/
def State.ball (s : State) (g : BallGroup) : BallState :=
  match s.ctl.cond with
  | .battery => match g with
    | .meshOut m => if s.flag (Reg.AON_MON_CFG_BAT_EN m) then .sampled else .low
    | .inputPulls => .alwaysOnPulls
    | _ => .highZ
  | .reset => match g with
    | .laneTx _ => .idle | .laneRx _ => .terminated | .pcieTx => .idle
    | .ddrReset => if s.mgd.ret.isSealed then .high else .low
    | .otherDdr => .highZ | .healthy => .low | .alarmN => lowIf s.alarmLow | .int0 => .released | .int1 => .released
    | .ppsOut => .low | .hbTx => .low | .spiMiso => .highZ | .i2cSda => .released | .jtagTdo => .highZ
    | .meshOut _ => .sampled | .inputPulls => .pulls
  | .halted => match g with
    | .laneTx _ => .idle | .laneRx _ => .terminated | .pcieTx => .active
    | .ddrReset => if s.mgd.ret.isSealed then .high else .low
    | .otherDdr => .highZ | .healthy => .low | .alarmN => .low | .int0 => lowIf (s.intLow false) | .int1 => lowIf (s.intLow true)
    | .ppsOut => .low | .hbTx => .low | .spiMiso => .active | .i2cSda => .active | .jtagTdo => .active
    | .meshOut _ => .sampled | .inputPulls => .pulls
  | .running => match g with
    | .laneTx l => if s.txIdle l.unit l.idx then .idle else .active
    | .laneRx _ => .terminated | .pcieTx => .active | .ddrReset => .high | .otherDdr => .active
    | .healthy => if s.flag Reg.CTL_BOOT_HEALTHY then .high else .low
    | .alarmN => lowIf s.alarmLow | .int0 => lowIf (s.intLow false) | .int1 => lowIf (s.intLow true)
    | .ppsOut => if s.tim.ppsOut then .high else .low
    | .hbTx => .active | .spiMiso => .active | .i2cSda => .active | .jtagTdo => .active | .meshOut _ => .sampled | .inputPulls => .pulls

end Sys2Proof.Machine
end

