-- ==== Sys2Proof/Safety.lean ====
section
/-! DEFINITION. The conditions that statements name: when a device serves an access, when a path's commands have their effect, and
what a tidy state is. -/

namespace Sys2Proof.Machine

/-- The device serves accesses of every path: it is out of reset, not halted and not dormant (R32, R520, R546). -/
def Awake (s : State) : Prop := s.running = true ∧ s.dormant = false

/-- The device serves this path's writes: the path is ringmaster (R53, R55). -/
def Serves (s : State) (who : Who) : Prop := Awake s ∧ s.isOwner who = true

/-- The device serves what this path writes to a command interface of which the management firmware has its own: the path is
ringmaster, or it is the firmware (R231, R286, R459). -/
def ServesOwn (s : State) (who : Who) : Prop := Awake s ∧ s.mayWrite who .fwOwn = true

/-- No access that this path has made waits (R52, R518). -/
def NoneWaits (s : State) (p : Path) : Prop := (s.path p).held = []

/-- These power domains are ON, so that what needs them does not stall (R518). -/
def DomainsOn (s : State) (ds : List Nat) : Prop := ds.all (fun d => decide (mlook .on d s.gaf.doms = .on)) = true

/-- A counter has room: counting one does not wrap it (R8, R551). -/
def Room (s : State) (ctr : Nat) : Prop := s.ctr ctr + 1 < 2 ^ 48

/-- A state after one counter has counted one, and nothing else (R8). -/
def counted (s : State) (ctr : Nat) : State :=
  { s with cnt := { s.cnt with vals := mstore 0 ctr (s.ctr ctr + 1) s.cnt.vals } }

/-- Nothing but the named registers may differ. -/
def OnlyRegs (offs : List Nat) (s t : State) : Prop := t = { s with regs := t.regs } ∧ ∀ a, a ∉ offs → t.rd a = s.rd a

/-- Only association a's record may differ, and in external memory the lines that hold it, with what their writing changes: the guard's
counters and tree, the free values drawn, what is given to the outside, and MGD_MINOR_OVF, as long as it has room (R246, R401). -/
def OnlyRec (a : Nat) (s t : State) : Prop :=
  (∀ b, b ≠ a → t.asRec b = s.asRec b) ∧
  (∀ l, (∀ b, s.recLine? a = some b → l < b ∨ b + 4 ≤ l) → t.lineAt l = s.lineAt l) ∧
  (s.ctr Reg.MGD_MINOR_OVF + 4 < 2 ^ 48 → (∀ c, c ≠ Reg.MGD_MINOR_OVF → t.ctr c = s.ctr c) ∧
    t = { s with
      draws := t.draws, out := t.out, cnt := t.cnt, asc := { s.asc with recs := t.asc.recs }
      mgd := { s.mgd with lines := t.mgd.lines, ctrs := t.mgd.ctrs, tree := t.mgd.tree, dirty := t.mgd.dirty, badLines := t.mgd.badLines } })

/-- The register file, the locks and the counters are in their one canonical form: keys rise, and nothing is listed that equals
what an unlisted place reads as. -/
def Tidy (s : State) : Prop :=
  mcanon regReset s.regs = true ∧ mcanon (fun _ => (0 : Word)) s.locks = true ∧ mcanon (fun _ => (0 : Nat)) s.cnt.vals = true

/-- External memory is in its one canonical form: the written lines, as they stand in memory, rise, and none is listed that equals
what an unwritten line reads as (R404). -/
def Memory.wf (m : Mgd) : Bool := mcanon (fun _ => zeroLine) m.lines

end Sys2Proof.Machine
end

