-- ==== Sys2Proof/Laws/State.lean ====
section
/-! SUPPORT. What each named update of the state leaves alone and what it changes: one lemma for each field, true by rfl, so that
no proof unfolds a record update. -/

namespace Sys2Proof.Machine

/-! ### wr -/

@[simp] theorem State.wr_pending (s : State) (off : Nat) (v : Word) : (s.wr off v).pending = s.pending := rfl
@[simp] theorem State.wr_clk (s : State) (off : Nat) (v : Word) : (s.wr off v).clk = s.clk := rfl
@[simp] theorem State.wr_draws (s : State) (off : Nat) (v : Word) : (s.wr off v).draws = s.draws := rfl
@[simp] theorem State.wr_out (s : State) (off : Nat) (v : Word) : (s.wr off v).out = s.out := rfl
@[simp] theorem State.wr_locks (s : State) (off : Nat) (v : Word) : (s.wr off v).locks = s.locks := rfl
@[simp] theorem State.wr_ctl (s : State) (off : Nat) (v : Word) : (s.wr off v).ctl = s.ctl := rfl
@[simp] theorem State.wr_lanes (s : State) (off : Nat) (v : Word) : (s.wr off v).lanes = s.lanes := rfl
@[simp] theorem State.wr_korLanes (s : State) (off : Nat) (v : Word) : (s.wr off v).korLanes = s.korLanes := rfl
@[simp] theorem State.wr_kor (s : State) (off : Nat) (v : Word) : (s.wr off v).kor = s.kor := rfl
@[simp] theorem State.wr_flt (s : State) (off : Nat) (v : Word) : (s.wr off v).flt = s.flt := rfl
@[simp] theorem State.wr_asc (s : State) (off : Nat) (v : Word) : (s.wr off v).asc = s.asc := rfl
@[simp] theorem State.wr_frm (s : State) (off : Nat) (v : Word) : (s.wr off v).frm = s.frm := rfl
@[simp] theorem State.wr_sch (s : State) (off : Nat) (v : Word) : (s.wr off v).sch = s.sch := rfl
@[simp] theorem State.wr_tim (s : State) (off : Nat) (v : Word) : (s.wr off v).tim = s.tim := rfl
@[simp] theorem State.wr_mgd (s : State) (off : Nat) (v : Word) : (s.wr off v).mgd = s.mgd := rfl
@[simp] theorem State.wr_vlt (s : State) (off : Nat) (v : Word) : (s.wr off v).vlt = s.vlt := rfl
@[simp] theorem State.wr_fab (s : State) (off : Nat) (v : Word) : (s.wr off v).fab = s.fab := rfl
@[simp] theorem State.wr_gaf (s : State) (off : Nat) (v : Word) : (s.wr off v).gaf = s.gaf := rfl
@[simp] theorem State.wr_aon (s : State) (off : Nat) (v : Word) : (s.wr off v).aon = s.aon := rfl
@[simp] theorem State.wr_evt (s : State) (off : Nat) (v : Word) : (s.wr off v).evt = s.evt := rfl
@[simp] theorem State.wr_cnt (s : State) (off : Nat) (v : Word) : (s.wr off v).cnt = s.cnt := rfl
@[simp] theorem State.wr_ctr (s : State) (off : Nat) (v : Word) (a : Nat) : (s.wr off v).ctr a = s.ctr a := rfl

/-! ### set -/

@[simp] theorem State.set_pending (s : State) (g : Field) (v : Nat) : (s.set g v).pending = s.pending := rfl
@[simp] theorem State.set_clk (s : State) (g : Field) (v : Nat) : (s.set g v).clk = s.clk := rfl
@[simp] theorem State.set_draws (s : State) (g : Field) (v : Nat) : (s.set g v).draws = s.draws := rfl
@[simp] theorem State.set_out (s : State) (g : Field) (v : Nat) : (s.set g v).out = s.out := rfl
@[simp] theorem State.set_locks (s : State) (g : Field) (v : Nat) : (s.set g v).locks = s.locks := rfl
@[simp] theorem State.set_ctl (s : State) (g : Field) (v : Nat) : (s.set g v).ctl = s.ctl := rfl
@[simp] theorem State.set_lanes (s : State) (g : Field) (v : Nat) : (s.set g v).lanes = s.lanes := rfl
@[simp] theorem State.set_korLanes (s : State) (g : Field) (v : Nat) : (s.set g v).korLanes = s.korLanes := rfl
@[simp] theorem State.set_kor (s : State) (g : Field) (v : Nat) : (s.set g v).kor = s.kor := rfl
@[simp] theorem State.set_flt (s : State) (g : Field) (v : Nat) : (s.set g v).flt = s.flt := rfl
@[simp] theorem State.set_asc (s : State) (g : Field) (v : Nat) : (s.set g v).asc = s.asc := rfl
@[simp] theorem State.set_frm (s : State) (g : Field) (v : Nat) : (s.set g v).frm = s.frm := rfl
@[simp] theorem State.set_sch (s : State) (g : Field) (v : Nat) : (s.set g v).sch = s.sch := rfl
@[simp] theorem State.set_tim (s : State) (g : Field) (v : Nat) : (s.set g v).tim = s.tim := rfl
@[simp] theorem State.set_mgd (s : State) (g : Field) (v : Nat) : (s.set g v).mgd = s.mgd := rfl
@[simp] theorem State.set_vlt (s : State) (g : Field) (v : Nat) : (s.set g v).vlt = s.vlt := rfl
@[simp] theorem State.set_fab (s : State) (g : Field) (v : Nat) : (s.set g v).fab = s.fab := rfl
@[simp] theorem State.set_gaf (s : State) (g : Field) (v : Nat) : (s.set g v).gaf = s.gaf := rfl
@[simp] theorem State.set_aon (s : State) (g : Field) (v : Nat) : (s.set g v).aon = s.aon := rfl
@[simp] theorem State.set_evt (s : State) (g : Field) (v : Nat) : (s.set g v).evt = s.evt := rfl
@[simp] theorem State.set_cnt (s : State) (g : Field) (v : Nat) : (s.set g v).cnt = s.cnt := rfl
@[simp] theorem State.set_ctr (s : State) (g : Field) (v : Nat) (a : Nat) : (s.set g v).ctr a = s.ctr a := rfl

/-! ### setFlag -/

@[simp] theorem State.setFlag_pending (s : State) (g : Field) (b : Bool) : (s.setFlag g b).pending = s.pending := rfl
@[simp] theorem State.setFlag_clk (s : State) (g : Field) (b : Bool) : (s.setFlag g b).clk = s.clk := rfl
@[simp] theorem State.setFlag_draws (s : State) (g : Field) (b : Bool) : (s.setFlag g b).draws = s.draws := rfl
@[simp] theorem State.setFlag_out (s : State) (g : Field) (b : Bool) : (s.setFlag g b).out = s.out := rfl
@[simp] theorem State.setFlag_locks (s : State) (g : Field) (b : Bool) : (s.setFlag g b).locks = s.locks := rfl
@[simp] theorem State.setFlag_ctl (s : State) (g : Field) (b : Bool) : (s.setFlag g b).ctl = s.ctl := rfl
@[simp] theorem State.setFlag_lanes (s : State) (g : Field) (b : Bool) : (s.setFlag g b).lanes = s.lanes := rfl
@[simp] theorem State.setFlag_korLanes (s : State) (g : Field) (b : Bool) : (s.setFlag g b).korLanes = s.korLanes := rfl
@[simp] theorem State.setFlag_kor (s : State) (g : Field) (b : Bool) : (s.setFlag g b).kor = s.kor := rfl
@[simp] theorem State.setFlag_flt (s : State) (g : Field) (b : Bool) : (s.setFlag g b).flt = s.flt := rfl
@[simp] theorem State.setFlag_asc (s : State) (g : Field) (b : Bool) : (s.setFlag g b).asc = s.asc := rfl
@[simp] theorem State.setFlag_frm (s : State) (g : Field) (b : Bool) : (s.setFlag g b).frm = s.frm := rfl
@[simp] theorem State.setFlag_sch (s : State) (g : Field) (b : Bool) : (s.setFlag g b).sch = s.sch := rfl
@[simp] theorem State.setFlag_tim (s : State) (g : Field) (b : Bool) : (s.setFlag g b).tim = s.tim := rfl
@[simp] theorem State.setFlag_mgd (s : State) (g : Field) (b : Bool) : (s.setFlag g b).mgd = s.mgd := rfl
@[simp] theorem State.setFlag_vlt (s : State) (g : Field) (b : Bool) : (s.setFlag g b).vlt = s.vlt := rfl
@[simp] theorem State.setFlag_fab (s : State) (g : Field) (b : Bool) : (s.setFlag g b).fab = s.fab := rfl
@[simp] theorem State.setFlag_gaf (s : State) (g : Field) (b : Bool) : (s.setFlag g b).gaf = s.gaf := rfl
@[simp] theorem State.setFlag_aon (s : State) (g : Field) (b : Bool) : (s.setFlag g b).aon = s.aon := rfl
@[simp] theorem State.setFlag_evt (s : State) (g : Field) (b : Bool) : (s.setFlag g b).evt = s.evt := rfl
@[simp] theorem State.setFlag_cnt (s : State) (g : Field) (b : Bool) : (s.setFlag g b).cnt = s.cnt := rfl
@[simp] theorem State.setFlag_ctr (s : State) (g : Field) (b : Bool) (a : Nat) : (s.setFlag g b).ctr a = s.ctr a := rfl

/-! ### emit -/

@[simp] theorem State.emit_pending (s : State) (o : Output) : (s.emit o).pending = s.pending := rfl
@[simp] theorem State.emit_clk (s : State) (o : Output) : (s.emit o).clk = s.clk := rfl
@[simp] theorem State.emit_draws (s : State) (o : Output) : (s.emit o).draws = s.draws := rfl
@[simp] theorem State.emit_regs (s : State) (o : Output) : (s.emit o).regs = s.regs := rfl
@[simp] theorem State.emit_locks (s : State) (o : Output) : (s.emit o).locks = s.locks := rfl
@[simp] theorem State.emit_ctl (s : State) (o : Output) : (s.emit o).ctl = s.ctl := rfl
@[simp] theorem State.emit_lanes (s : State) (o : Output) : (s.emit o).lanes = s.lanes := rfl
@[simp] theorem State.emit_korLanes (s : State) (o : Output) : (s.emit o).korLanes = s.korLanes := rfl
@[simp] theorem State.emit_kor (s : State) (o : Output) : (s.emit o).kor = s.kor := rfl
@[simp] theorem State.emit_flt (s : State) (o : Output) : (s.emit o).flt = s.flt := rfl
@[simp] theorem State.emit_asc (s : State) (o : Output) : (s.emit o).asc = s.asc := rfl
@[simp] theorem State.emit_frm (s : State) (o : Output) : (s.emit o).frm = s.frm := rfl
@[simp] theorem State.emit_sch (s : State) (o : Output) : (s.emit o).sch = s.sch := rfl
@[simp] theorem State.emit_tim (s : State) (o : Output) : (s.emit o).tim = s.tim := rfl
@[simp] theorem State.emit_mgd (s : State) (o : Output) : (s.emit o).mgd = s.mgd := rfl
@[simp] theorem State.emit_vlt (s : State) (o : Output) : (s.emit o).vlt = s.vlt := rfl
@[simp] theorem State.emit_fab (s : State) (o : Output) : (s.emit o).fab = s.fab := rfl
@[simp] theorem State.emit_gaf (s : State) (o : Output) : (s.emit o).gaf = s.gaf := rfl
@[simp] theorem State.emit_aon (s : State) (o : Output) : (s.emit o).aon = s.aon := rfl
@[simp] theorem State.emit_evt (s : State) (o : Output) : (s.emit o).evt = s.evt := rfl
@[simp] theorem State.emit_cnt (s : State) (o : Output) : (s.emit o).cnt = s.cnt := rfl
@[simp] theorem State.emit_out (s : State) (o : Output) : (s.emit o).out = o :: s.out := rfl
@[simp] theorem State.emit_rd (s : State) (o : Output) (off : Nat) : (s.emit o).rd off = s.rd off := rfl
@[simp] theorem State.emit_get (s : State) (o : Output) (h : Field) : (s.emit o).get h = s.get h := rfl
@[simp] theorem State.emit_flag (s : State) (o : Output) (h : Field) : (s.emit o).flag h = s.flag h := rfl
@[simp] theorem State.emit_ctr (s : State) (o : Output) (a : Nat) : (s.emit o).ctr a = s.ctr a := rfl

/-! ### draw -/

@[simp] theorem State.draw_pending (s : State) : (s.draw.2).pending = s.pending := rfl
@[simp] theorem State.draw_clk (s : State) : (s.draw.2).clk = s.clk := rfl
@[simp] theorem State.draw_out (s : State) : (s.draw.2).out = s.out := rfl
@[simp] theorem State.draw_regs (s : State) : (s.draw.2).regs = s.regs := rfl
@[simp] theorem State.draw_locks (s : State) : (s.draw.2).locks = s.locks := rfl
@[simp] theorem State.draw_ctl (s : State) : (s.draw.2).ctl = s.ctl := rfl
@[simp] theorem State.draw_lanes (s : State) : (s.draw.2).lanes = s.lanes := rfl
@[simp] theorem State.draw_korLanes (s : State) : (s.draw.2).korLanes = s.korLanes := rfl
@[simp] theorem State.draw_kor (s : State) : (s.draw.2).kor = s.kor := rfl
@[simp] theorem State.draw_flt (s : State) : (s.draw.2).flt = s.flt := rfl
@[simp] theorem State.draw_asc (s : State) : (s.draw.2).asc = s.asc := rfl
@[simp] theorem State.draw_frm (s : State) : (s.draw.2).frm = s.frm := rfl
@[simp] theorem State.draw_sch (s : State) : (s.draw.2).sch = s.sch := rfl
@[simp] theorem State.draw_tim (s : State) : (s.draw.2).tim = s.tim := rfl
@[simp] theorem State.draw_mgd (s : State) : (s.draw.2).mgd = s.mgd := rfl
@[simp] theorem State.draw_vlt (s : State) : (s.draw.2).vlt = s.vlt := rfl
@[simp] theorem State.draw_fab (s : State) : (s.draw.2).fab = s.fab := rfl
@[simp] theorem State.draw_gaf (s : State) : (s.draw.2).gaf = s.gaf := rfl
@[simp] theorem State.draw_aon (s : State) : (s.draw.2).aon = s.aon := rfl
@[simp] theorem State.draw_evt (s : State) : (s.draw.2).evt = s.evt := rfl
@[simp] theorem State.draw_cnt (s : State) : (s.draw.2).cnt = s.cnt := rfl
@[simp] theorem State.draw_draws (s : State) : (s.draw.2).draws = s.draws + 1 := rfl
@[simp] theorem State.draw_rd (s : State) (off : Nat) : (s.draw.2).rd off = s.rd off := rfl
@[simp] theorem State.draw_get (s : State) (h : Field) : (s.draw.2).get h = s.get h := rfl
@[simp] theorem State.draw_flag (s : State) (h : Field) : (s.draw.2).flag h = s.flag h := rfl
@[simp] theorem State.draw_ctr (s : State) (a : Nat) : (s.draw.2).ctr a = s.ctr a := rfl

/-! ### modCtl -/

@[simp] theorem State.modCtl_pending (s : State) (f : Ctl → Ctl) : (s.modCtl f).pending = s.pending := rfl
@[simp] theorem State.modCtl_clk (s : State) (f : Ctl → Ctl) : (s.modCtl f).clk = s.clk := rfl
@[simp] theorem State.modCtl_draws (s : State) (f : Ctl → Ctl) : (s.modCtl f).draws = s.draws := rfl
@[simp] theorem State.modCtl_out (s : State) (f : Ctl → Ctl) : (s.modCtl f).out = s.out := rfl
@[simp] theorem State.modCtl_regs (s : State) (f : Ctl → Ctl) : (s.modCtl f).regs = s.regs := rfl
@[simp] theorem State.modCtl_locks (s : State) (f : Ctl → Ctl) : (s.modCtl f).locks = s.locks := rfl
@[simp] theorem State.modCtl_lanes (s : State) (f : Ctl → Ctl) : (s.modCtl f).lanes = s.lanes := rfl
@[simp] theorem State.modCtl_korLanes (s : State) (f : Ctl → Ctl) : (s.modCtl f).korLanes = s.korLanes := rfl
@[simp] theorem State.modCtl_kor (s : State) (f : Ctl → Ctl) : (s.modCtl f).kor = s.kor := rfl
@[simp] theorem State.modCtl_flt (s : State) (f : Ctl → Ctl) : (s.modCtl f).flt = s.flt := rfl
@[simp] theorem State.modCtl_asc (s : State) (f : Ctl → Ctl) : (s.modCtl f).asc = s.asc := rfl
@[simp] theorem State.modCtl_frm (s : State) (f : Ctl → Ctl) : (s.modCtl f).frm = s.frm := rfl
@[simp] theorem State.modCtl_sch (s : State) (f : Ctl → Ctl) : (s.modCtl f).sch = s.sch := rfl
@[simp] theorem State.modCtl_tim (s : State) (f : Ctl → Ctl) : (s.modCtl f).tim = s.tim := rfl
@[simp] theorem State.modCtl_mgd (s : State) (f : Ctl → Ctl) : (s.modCtl f).mgd = s.mgd := rfl
@[simp] theorem State.modCtl_vlt (s : State) (f : Ctl → Ctl) : (s.modCtl f).vlt = s.vlt := rfl
@[simp] theorem State.modCtl_fab (s : State) (f : Ctl → Ctl) : (s.modCtl f).fab = s.fab := rfl
@[simp] theorem State.modCtl_gaf (s : State) (f : Ctl → Ctl) : (s.modCtl f).gaf = s.gaf := rfl
@[simp] theorem State.modCtl_aon (s : State) (f : Ctl → Ctl) : (s.modCtl f).aon = s.aon := rfl
@[simp] theorem State.modCtl_evt (s : State) (f : Ctl → Ctl) : (s.modCtl f).evt = s.evt := rfl
@[simp] theorem State.modCtl_cnt (s : State) (f : Ctl → Ctl) : (s.modCtl f).cnt = s.cnt := rfl
@[simp] theorem State.modCtl_ctl (s : State) (f : Ctl → Ctl) : (s.modCtl f).ctl = f s.ctl := rfl
@[simp] theorem State.modCtl_rd (s : State) (f : Ctl → Ctl) (off : Nat) : (s.modCtl f).rd off = s.rd off := rfl
@[simp] theorem State.modCtl_get (s : State) (f : Ctl → Ctl) (h : Field) : (s.modCtl f).get h = s.get h := rfl
@[simp] theorem State.modCtl_flag (s : State) (f : Ctl → Ctl) (h : Field) : (s.modCtl f).flag h = s.flag h := rfl
@[simp] theorem State.modCtl_ctr (s : State) (f : Ctl → Ctl) (a : Nat) : (s.modCtl f).ctr a = s.ctr a := rfl

/-! ### modAsc -/

@[simp] theorem State.modAsc_pending (s : State) (f : Asc → Asc) : (s.modAsc f).pending = s.pending := rfl
@[simp] theorem State.modAsc_clk (s : State) (f : Asc → Asc) : (s.modAsc f).clk = s.clk := rfl
@[simp] theorem State.modAsc_draws (s : State) (f : Asc → Asc) : (s.modAsc f).draws = s.draws := rfl
@[simp] theorem State.modAsc_out (s : State) (f : Asc → Asc) : (s.modAsc f).out = s.out := rfl
@[simp] theorem State.modAsc_regs (s : State) (f : Asc → Asc) : (s.modAsc f).regs = s.regs := rfl
@[simp] theorem State.modAsc_locks (s : State) (f : Asc → Asc) : (s.modAsc f).locks = s.locks := rfl
@[simp] theorem State.modAsc_ctl (s : State) (f : Asc → Asc) : (s.modAsc f).ctl = s.ctl := rfl
@[simp] theorem State.modAsc_lanes (s : State) (f : Asc → Asc) : (s.modAsc f).lanes = s.lanes := rfl
@[simp] theorem State.modAsc_korLanes (s : State) (f : Asc → Asc) : (s.modAsc f).korLanes = s.korLanes := rfl
@[simp] theorem State.modAsc_kor (s : State) (f : Asc → Asc) : (s.modAsc f).kor = s.kor := rfl
@[simp] theorem State.modAsc_flt (s : State) (f : Asc → Asc) : (s.modAsc f).flt = s.flt := rfl
@[simp] theorem State.modAsc_frm (s : State) (f : Asc → Asc) : (s.modAsc f).frm = s.frm := rfl
@[simp] theorem State.modAsc_sch (s : State) (f : Asc → Asc) : (s.modAsc f).sch = s.sch := rfl
@[simp] theorem State.modAsc_tim (s : State) (f : Asc → Asc) : (s.modAsc f).tim = s.tim := rfl
@[simp] theorem State.modAsc_mgd (s : State) (f : Asc → Asc) : (s.modAsc f).mgd = s.mgd := rfl
@[simp] theorem State.modAsc_vlt (s : State) (f : Asc → Asc) : (s.modAsc f).vlt = s.vlt := rfl
@[simp] theorem State.modAsc_fab (s : State) (f : Asc → Asc) : (s.modAsc f).fab = s.fab := rfl
@[simp] theorem State.modAsc_gaf (s : State) (f : Asc → Asc) : (s.modAsc f).gaf = s.gaf := rfl
@[simp] theorem State.modAsc_aon (s : State) (f : Asc → Asc) : (s.modAsc f).aon = s.aon := rfl
@[simp] theorem State.modAsc_evt (s : State) (f : Asc → Asc) : (s.modAsc f).evt = s.evt := rfl
@[simp] theorem State.modAsc_cnt (s : State) (f : Asc → Asc) : (s.modAsc f).cnt = s.cnt := rfl
@[simp] theorem State.modAsc_asc (s : State) (f : Asc → Asc) : (s.modAsc f).asc = f s.asc := rfl
@[simp] theorem State.modAsc_rd (s : State) (f : Asc → Asc) (off : Nat) : (s.modAsc f).rd off = s.rd off := rfl
@[simp] theorem State.modAsc_get (s : State) (f : Asc → Asc) (h : Field) : (s.modAsc f).get h = s.get h := rfl
@[simp] theorem State.modAsc_flag (s : State) (f : Asc → Asc) (h : Field) : (s.modAsc f).flag h = s.flag h := rfl
@[simp] theorem State.modAsc_ctr (s : State) (f : Asc → Asc) (a : Nat) : (s.modAsc f).ctr a = s.ctr a := rfl

/-! ### modSch -/

@[simp] theorem State.modSch_pending (s : State) (f : Sch → Sch) : (s.modSch f).pending = s.pending := rfl
@[simp] theorem State.modSch_clk (s : State) (f : Sch → Sch) : (s.modSch f).clk = s.clk := rfl
@[simp] theorem State.modSch_draws (s : State) (f : Sch → Sch) : (s.modSch f).draws = s.draws := rfl
@[simp] theorem State.modSch_out (s : State) (f : Sch → Sch) : (s.modSch f).out = s.out := rfl
@[simp] theorem State.modSch_regs (s : State) (f : Sch → Sch) : (s.modSch f).regs = s.regs := rfl
@[simp] theorem State.modSch_locks (s : State) (f : Sch → Sch) : (s.modSch f).locks = s.locks := rfl
@[simp] theorem State.modSch_ctl (s : State) (f : Sch → Sch) : (s.modSch f).ctl = s.ctl := rfl
@[simp] theorem State.modSch_lanes (s : State) (f : Sch → Sch) : (s.modSch f).lanes = s.lanes := rfl
@[simp] theorem State.modSch_korLanes (s : State) (f : Sch → Sch) : (s.modSch f).korLanes = s.korLanes := rfl
@[simp] theorem State.modSch_kor (s : State) (f : Sch → Sch) : (s.modSch f).kor = s.kor := rfl
@[simp] theorem State.modSch_flt (s : State) (f : Sch → Sch) : (s.modSch f).flt = s.flt := rfl
@[simp] theorem State.modSch_asc (s : State) (f : Sch → Sch) : (s.modSch f).asc = s.asc := rfl
@[simp] theorem State.modSch_frm (s : State) (f : Sch → Sch) : (s.modSch f).frm = s.frm := rfl
@[simp] theorem State.modSch_tim (s : State) (f : Sch → Sch) : (s.modSch f).tim = s.tim := rfl
@[simp] theorem State.modSch_mgd (s : State) (f : Sch → Sch) : (s.modSch f).mgd = s.mgd := rfl
@[simp] theorem State.modSch_vlt (s : State) (f : Sch → Sch) : (s.modSch f).vlt = s.vlt := rfl
@[simp] theorem State.modSch_fab (s : State) (f : Sch → Sch) : (s.modSch f).fab = s.fab := rfl
@[simp] theorem State.modSch_gaf (s : State) (f : Sch → Sch) : (s.modSch f).gaf = s.gaf := rfl
@[simp] theorem State.modSch_aon (s : State) (f : Sch → Sch) : (s.modSch f).aon = s.aon := rfl
@[simp] theorem State.modSch_evt (s : State) (f : Sch → Sch) : (s.modSch f).evt = s.evt := rfl
@[simp] theorem State.modSch_cnt (s : State) (f : Sch → Sch) : (s.modSch f).cnt = s.cnt := rfl
@[simp] theorem State.modSch_sch (s : State) (f : Sch → Sch) : (s.modSch f).sch = f s.sch := rfl
@[simp] theorem State.modSch_rd (s : State) (f : Sch → Sch) (off : Nat) : (s.modSch f).rd off = s.rd off := rfl
@[simp] theorem State.modSch_get (s : State) (f : Sch → Sch) (h : Field) : (s.modSch f).get h = s.get h := rfl
@[simp] theorem State.modSch_flag (s : State) (f : Sch → Sch) (h : Field) : (s.modSch f).flag h = s.flag h := rfl
@[simp] theorem State.modSch_ctr (s : State) (f : Sch → Sch) (a : Nat) : (s.modSch f).ctr a = s.ctr a := rfl

/-! ### modFab -/

@[simp] theorem State.modFab_pending (s : State) (f : Fab → Fab) : (s.modFab f).pending = s.pending := rfl
@[simp] theorem State.modFab_clk (s : State) (f : Fab → Fab) : (s.modFab f).clk = s.clk := rfl
@[simp] theorem State.modFab_draws (s : State) (f : Fab → Fab) : (s.modFab f).draws = s.draws := rfl
@[simp] theorem State.modFab_out (s : State) (f : Fab → Fab) : (s.modFab f).out = s.out := rfl
@[simp] theorem State.modFab_regs (s : State) (f : Fab → Fab) : (s.modFab f).regs = s.regs := rfl
@[simp] theorem State.modFab_locks (s : State) (f : Fab → Fab) : (s.modFab f).locks = s.locks := rfl
@[simp] theorem State.modFab_ctl (s : State) (f : Fab → Fab) : (s.modFab f).ctl = s.ctl := rfl
@[simp] theorem State.modFab_lanes (s : State) (f : Fab → Fab) : (s.modFab f).lanes = s.lanes := rfl
@[simp] theorem State.modFab_korLanes (s : State) (f : Fab → Fab) : (s.modFab f).korLanes = s.korLanes := rfl
@[simp] theorem State.modFab_kor (s : State) (f : Fab → Fab) : (s.modFab f).kor = s.kor := rfl
@[simp] theorem State.modFab_flt (s : State) (f : Fab → Fab) : (s.modFab f).flt = s.flt := rfl
@[simp] theorem State.modFab_asc (s : State) (f : Fab → Fab) : (s.modFab f).asc = s.asc := rfl
@[simp] theorem State.modFab_frm (s : State) (f : Fab → Fab) : (s.modFab f).frm = s.frm := rfl
@[simp] theorem State.modFab_sch (s : State) (f : Fab → Fab) : (s.modFab f).sch = s.sch := rfl
@[simp] theorem State.modFab_tim (s : State) (f : Fab → Fab) : (s.modFab f).tim = s.tim := rfl
@[simp] theorem State.modFab_mgd (s : State) (f : Fab → Fab) : (s.modFab f).mgd = s.mgd := rfl
@[simp] theorem State.modFab_vlt (s : State) (f : Fab → Fab) : (s.modFab f).vlt = s.vlt := rfl
@[simp] theorem State.modFab_gaf (s : State) (f : Fab → Fab) : (s.modFab f).gaf = s.gaf := rfl
@[simp] theorem State.modFab_aon (s : State) (f : Fab → Fab) : (s.modFab f).aon = s.aon := rfl
@[simp] theorem State.modFab_evt (s : State) (f : Fab → Fab) : (s.modFab f).evt = s.evt := rfl
@[simp] theorem State.modFab_cnt (s : State) (f : Fab → Fab) : (s.modFab f).cnt = s.cnt := rfl
@[simp] theorem State.modFab_fab (s : State) (f : Fab → Fab) : (s.modFab f).fab = f s.fab := rfl
@[simp] theorem State.modFab_rd (s : State) (f : Fab → Fab) (off : Nat) : (s.modFab f).rd off = s.rd off := rfl
@[simp] theorem State.modFab_get (s : State) (f : Fab → Fab) (h : Field) : (s.modFab f).get h = s.get h := rfl
@[simp] theorem State.modFab_flag (s : State) (f : Fab → Fab) (h : Field) : (s.modFab f).flag h = s.flag h := rfl
@[simp] theorem State.modFab_ctr (s : State) (f : Fab → Fab) (a : Nat) : (s.modFab f).ctr a = s.ctr a := rfl

/-! ### modFlt -/

@[simp] theorem State.modFlt_pending (s : State) (f : Flt → Flt) : (s.modFlt f).pending = s.pending := rfl
@[simp] theorem State.modFlt_clk (s : State) (f : Flt → Flt) : (s.modFlt f).clk = s.clk := rfl
@[simp] theorem State.modFlt_draws (s : State) (f : Flt → Flt) : (s.modFlt f).draws = s.draws := rfl
@[simp] theorem State.modFlt_out (s : State) (f : Flt → Flt) : (s.modFlt f).out = s.out := rfl
@[simp] theorem State.modFlt_regs (s : State) (f : Flt → Flt) : (s.modFlt f).regs = s.regs := rfl
@[simp] theorem State.modFlt_locks (s : State) (f : Flt → Flt) : (s.modFlt f).locks = s.locks := rfl
@[simp] theorem State.modFlt_ctl (s : State) (f : Flt → Flt) : (s.modFlt f).ctl = s.ctl := rfl
@[simp] theorem State.modFlt_lanes (s : State) (f : Flt → Flt) : (s.modFlt f).lanes = s.lanes := rfl
@[simp] theorem State.modFlt_korLanes (s : State) (f : Flt → Flt) : (s.modFlt f).korLanes = s.korLanes := rfl
@[simp] theorem State.modFlt_kor (s : State) (f : Flt → Flt) : (s.modFlt f).kor = s.kor := rfl
@[simp] theorem State.modFlt_asc (s : State) (f : Flt → Flt) : (s.modFlt f).asc = s.asc := rfl
@[simp] theorem State.modFlt_frm (s : State) (f : Flt → Flt) : (s.modFlt f).frm = s.frm := rfl
@[simp] theorem State.modFlt_sch (s : State) (f : Flt → Flt) : (s.modFlt f).sch = s.sch := rfl
@[simp] theorem State.modFlt_tim (s : State) (f : Flt → Flt) : (s.modFlt f).tim = s.tim := rfl
@[simp] theorem State.modFlt_mgd (s : State) (f : Flt → Flt) : (s.modFlt f).mgd = s.mgd := rfl
@[simp] theorem State.modFlt_vlt (s : State) (f : Flt → Flt) : (s.modFlt f).vlt = s.vlt := rfl
@[simp] theorem State.modFlt_fab (s : State) (f : Flt → Flt) : (s.modFlt f).fab = s.fab := rfl
@[simp] theorem State.modFlt_gaf (s : State) (f : Flt → Flt) : (s.modFlt f).gaf = s.gaf := rfl
@[simp] theorem State.modFlt_aon (s : State) (f : Flt → Flt) : (s.modFlt f).aon = s.aon := rfl
@[simp] theorem State.modFlt_evt (s : State) (f : Flt → Flt) : (s.modFlt f).evt = s.evt := rfl
@[simp] theorem State.modFlt_cnt (s : State) (f : Flt → Flt) : (s.modFlt f).cnt = s.cnt := rfl
@[simp] theorem State.modFlt_flt (s : State) (f : Flt → Flt) : (s.modFlt f).flt = f s.flt := rfl
@[simp] theorem State.modFlt_rd (s : State) (f : Flt → Flt) (off : Nat) : (s.modFlt f).rd off = s.rd off := rfl
@[simp] theorem State.modFlt_get (s : State) (f : Flt → Flt) (h : Field) : (s.modFlt f).get h = s.get h := rfl
@[simp] theorem State.modFlt_flag (s : State) (f : Flt → Flt) (h : Field) : (s.modFlt f).flag h = s.flag h := rfl
@[simp] theorem State.modFlt_ctr (s : State) (f : Flt → Flt) (a : Nat) : (s.modFlt f).ctr a = s.ctr a := rfl

/-! ### modFrm -/

@[simp] theorem State.modFrm_pending (s : State) (f : Frm → Frm) : (s.modFrm f).pending = s.pending := rfl
@[simp] theorem State.modFrm_clk (s : State) (f : Frm → Frm) : (s.modFrm f).clk = s.clk := rfl
@[simp] theorem State.modFrm_draws (s : State) (f : Frm → Frm) : (s.modFrm f).draws = s.draws := rfl
@[simp] theorem State.modFrm_out (s : State) (f : Frm → Frm) : (s.modFrm f).out = s.out := rfl
@[simp] theorem State.modFrm_regs (s : State) (f : Frm → Frm) : (s.modFrm f).regs = s.regs := rfl
@[simp] theorem State.modFrm_locks (s : State) (f : Frm → Frm) : (s.modFrm f).locks = s.locks := rfl
@[simp] theorem State.modFrm_ctl (s : State) (f : Frm → Frm) : (s.modFrm f).ctl = s.ctl := rfl
@[simp] theorem State.modFrm_lanes (s : State) (f : Frm → Frm) : (s.modFrm f).lanes = s.lanes := rfl
@[simp] theorem State.modFrm_korLanes (s : State) (f : Frm → Frm) : (s.modFrm f).korLanes = s.korLanes := rfl
@[simp] theorem State.modFrm_kor (s : State) (f : Frm → Frm) : (s.modFrm f).kor = s.kor := rfl
@[simp] theorem State.modFrm_flt (s : State) (f : Frm → Frm) : (s.modFrm f).flt = s.flt := rfl
@[simp] theorem State.modFrm_asc (s : State) (f : Frm → Frm) : (s.modFrm f).asc = s.asc := rfl
@[simp] theorem State.modFrm_sch (s : State) (f : Frm → Frm) : (s.modFrm f).sch = s.sch := rfl
@[simp] theorem State.modFrm_tim (s : State) (f : Frm → Frm) : (s.modFrm f).tim = s.tim := rfl
@[simp] theorem State.modFrm_mgd (s : State) (f : Frm → Frm) : (s.modFrm f).mgd = s.mgd := rfl
@[simp] theorem State.modFrm_vlt (s : State) (f : Frm → Frm) : (s.modFrm f).vlt = s.vlt := rfl
@[simp] theorem State.modFrm_fab (s : State) (f : Frm → Frm) : (s.modFrm f).fab = s.fab := rfl
@[simp] theorem State.modFrm_gaf (s : State) (f : Frm → Frm) : (s.modFrm f).gaf = s.gaf := rfl
@[simp] theorem State.modFrm_aon (s : State) (f : Frm → Frm) : (s.modFrm f).aon = s.aon := rfl
@[simp] theorem State.modFrm_evt (s : State) (f : Frm → Frm) : (s.modFrm f).evt = s.evt := rfl
@[simp] theorem State.modFrm_cnt (s : State) (f : Frm → Frm) : (s.modFrm f).cnt = s.cnt := rfl
@[simp] theorem State.modFrm_frm (s : State) (f : Frm → Frm) : (s.modFrm f).frm = f s.frm := rfl
@[simp] theorem State.modFrm_rd (s : State) (f : Frm → Frm) (off : Nat) : (s.modFrm f).rd off = s.rd off := rfl
@[simp] theorem State.modFrm_get (s : State) (f : Frm → Frm) (h : Field) : (s.modFrm f).get h = s.get h := rfl
@[simp] theorem State.modFrm_flag (s : State) (f : Frm → Frm) (h : Field) : (s.modFrm f).flag h = s.flag h := rfl
@[simp] theorem State.modFrm_ctr (s : State) (f : Frm → Frm) (a : Nat) : (s.modFrm f).ctr a = s.ctr a := rfl

/-! ### modMgd -/

@[simp] theorem State.modMgd_pending (s : State) (f : Mgd → Mgd) : (s.modMgd f).pending = s.pending := rfl
@[simp] theorem State.modMgd_clk (s : State) (f : Mgd → Mgd) : (s.modMgd f).clk = s.clk := rfl
@[simp] theorem State.modMgd_draws (s : State) (f : Mgd → Mgd) : (s.modMgd f).draws = s.draws := rfl
@[simp] theorem State.modMgd_out (s : State) (f : Mgd → Mgd) : (s.modMgd f).out = s.out := rfl
@[simp] theorem State.modMgd_regs (s : State) (f : Mgd → Mgd) : (s.modMgd f).regs = s.regs := rfl
@[simp] theorem State.modMgd_locks (s : State) (f : Mgd → Mgd) : (s.modMgd f).locks = s.locks := rfl
@[simp] theorem State.modMgd_ctl (s : State) (f : Mgd → Mgd) : (s.modMgd f).ctl = s.ctl := rfl
@[simp] theorem State.modMgd_lanes (s : State) (f : Mgd → Mgd) : (s.modMgd f).lanes = s.lanes := rfl
@[simp] theorem State.modMgd_korLanes (s : State) (f : Mgd → Mgd) : (s.modMgd f).korLanes = s.korLanes := rfl
@[simp] theorem State.modMgd_kor (s : State) (f : Mgd → Mgd) : (s.modMgd f).kor = s.kor := rfl
@[simp] theorem State.modMgd_flt (s : State) (f : Mgd → Mgd) : (s.modMgd f).flt = s.flt := rfl
@[simp] theorem State.modMgd_asc (s : State) (f : Mgd → Mgd) : (s.modMgd f).asc = s.asc := rfl
@[simp] theorem State.modMgd_frm (s : State) (f : Mgd → Mgd) : (s.modMgd f).frm = s.frm := rfl
@[simp] theorem State.modMgd_sch (s : State) (f : Mgd → Mgd) : (s.modMgd f).sch = s.sch := rfl
@[simp] theorem State.modMgd_tim (s : State) (f : Mgd → Mgd) : (s.modMgd f).tim = s.tim := rfl
@[simp] theorem State.modMgd_vlt (s : State) (f : Mgd → Mgd) : (s.modMgd f).vlt = s.vlt := rfl
@[simp] theorem State.modMgd_fab (s : State) (f : Mgd → Mgd) : (s.modMgd f).fab = s.fab := rfl
@[simp] theorem State.modMgd_gaf (s : State) (f : Mgd → Mgd) : (s.modMgd f).gaf = s.gaf := rfl
@[simp] theorem State.modMgd_aon (s : State) (f : Mgd → Mgd) : (s.modMgd f).aon = s.aon := rfl
@[simp] theorem State.modMgd_evt (s : State) (f : Mgd → Mgd) : (s.modMgd f).evt = s.evt := rfl
@[simp] theorem State.modMgd_cnt (s : State) (f : Mgd → Mgd) : (s.modMgd f).cnt = s.cnt := rfl
@[simp] theorem State.modMgd_mgd (s : State) (f : Mgd → Mgd) : (s.modMgd f).mgd = f s.mgd := rfl
@[simp] theorem State.modMgd_rd (s : State) (f : Mgd → Mgd) (off : Nat) : (s.modMgd f).rd off = s.rd off := rfl
@[simp] theorem State.modMgd_get (s : State) (f : Mgd → Mgd) (h : Field) : (s.modMgd f).get h = s.get h := rfl
@[simp] theorem State.modMgd_flag (s : State) (f : Mgd → Mgd) (h : Field) : (s.modMgd f).flag h = s.flag h := rfl
@[simp] theorem State.modMgd_ctr (s : State) (f : Mgd → Mgd) (a : Nat) : (s.modMgd f).ctr a = s.ctr a := rfl

/-! ### modGaf -/

@[simp] theorem State.modGaf_pending (s : State) (f : Gaf → Gaf) : (s.modGaf f).pending = s.pending := rfl
@[simp] theorem State.modGaf_clk (s : State) (f : Gaf → Gaf) : (s.modGaf f).clk = s.clk := rfl
@[simp] theorem State.modGaf_draws (s : State) (f : Gaf → Gaf) : (s.modGaf f).draws = s.draws := rfl
@[simp] theorem State.modGaf_out (s : State) (f : Gaf → Gaf) : (s.modGaf f).out = s.out := rfl
@[simp] theorem State.modGaf_regs (s : State) (f : Gaf → Gaf) : (s.modGaf f).regs = s.regs := rfl
@[simp] theorem State.modGaf_locks (s : State) (f : Gaf → Gaf) : (s.modGaf f).locks = s.locks := rfl
@[simp] theorem State.modGaf_ctl (s : State) (f : Gaf → Gaf) : (s.modGaf f).ctl = s.ctl := rfl
@[simp] theorem State.modGaf_lanes (s : State) (f : Gaf → Gaf) : (s.modGaf f).lanes = s.lanes := rfl
@[simp] theorem State.modGaf_korLanes (s : State) (f : Gaf → Gaf) : (s.modGaf f).korLanes = s.korLanes := rfl
@[simp] theorem State.modGaf_kor (s : State) (f : Gaf → Gaf) : (s.modGaf f).kor = s.kor := rfl
@[simp] theorem State.modGaf_flt (s : State) (f : Gaf → Gaf) : (s.modGaf f).flt = s.flt := rfl
@[simp] theorem State.modGaf_asc (s : State) (f : Gaf → Gaf) : (s.modGaf f).asc = s.asc := rfl
@[simp] theorem State.modGaf_frm (s : State) (f : Gaf → Gaf) : (s.modGaf f).frm = s.frm := rfl
@[simp] theorem State.modGaf_sch (s : State) (f : Gaf → Gaf) : (s.modGaf f).sch = s.sch := rfl
@[simp] theorem State.modGaf_tim (s : State) (f : Gaf → Gaf) : (s.modGaf f).tim = s.tim := rfl
@[simp] theorem State.modGaf_mgd (s : State) (f : Gaf → Gaf) : (s.modGaf f).mgd = s.mgd := rfl
@[simp] theorem State.modGaf_vlt (s : State) (f : Gaf → Gaf) : (s.modGaf f).vlt = s.vlt := rfl
@[simp] theorem State.modGaf_fab (s : State) (f : Gaf → Gaf) : (s.modGaf f).fab = s.fab := rfl
@[simp] theorem State.modGaf_aon (s : State) (f : Gaf → Gaf) : (s.modGaf f).aon = s.aon := rfl
@[simp] theorem State.modGaf_evt (s : State) (f : Gaf → Gaf) : (s.modGaf f).evt = s.evt := rfl
@[simp] theorem State.modGaf_cnt (s : State) (f : Gaf → Gaf) : (s.modGaf f).cnt = s.cnt := rfl
@[simp] theorem State.modGaf_gaf (s : State) (f : Gaf → Gaf) : (s.modGaf f).gaf = f s.gaf := rfl
@[simp] theorem State.modGaf_rd (s : State) (f : Gaf → Gaf) (off : Nat) : (s.modGaf f).rd off = s.rd off := rfl
@[simp] theorem State.modGaf_get (s : State) (f : Gaf → Gaf) (h : Field) : (s.modGaf f).get h = s.get h := rfl
@[simp] theorem State.modGaf_flag (s : State) (f : Gaf → Gaf) (h : Field) : (s.modGaf f).flag h = s.flag h := rfl
@[simp] theorem State.modGaf_ctr (s : State) (f : Gaf → Gaf) (a : Nat) : (s.modGaf f).ctr a = s.ctr a := rfl

/-! ### modAon -/

@[simp] theorem State.modAon_pending (s : State) (f : Aon → Aon) : (s.modAon f).pending = s.pending := rfl
@[simp] theorem State.modAon_clk (s : State) (f : Aon → Aon) : (s.modAon f).clk = s.clk := rfl
@[simp] theorem State.modAon_draws (s : State) (f : Aon → Aon) : (s.modAon f).draws = s.draws := rfl
@[simp] theorem State.modAon_out (s : State) (f : Aon → Aon) : (s.modAon f).out = s.out := rfl
@[simp] theorem State.modAon_regs (s : State) (f : Aon → Aon) : (s.modAon f).regs = s.regs := rfl
@[simp] theorem State.modAon_locks (s : State) (f : Aon → Aon) : (s.modAon f).locks = s.locks := rfl
@[simp] theorem State.modAon_ctl (s : State) (f : Aon → Aon) : (s.modAon f).ctl = s.ctl := rfl
@[simp] theorem State.modAon_lanes (s : State) (f : Aon → Aon) : (s.modAon f).lanes = s.lanes := rfl
@[simp] theorem State.modAon_korLanes (s : State) (f : Aon → Aon) : (s.modAon f).korLanes = s.korLanes := rfl
@[simp] theorem State.modAon_kor (s : State) (f : Aon → Aon) : (s.modAon f).kor = s.kor := rfl
@[simp] theorem State.modAon_flt (s : State) (f : Aon → Aon) : (s.modAon f).flt = s.flt := rfl
@[simp] theorem State.modAon_asc (s : State) (f : Aon → Aon) : (s.modAon f).asc = s.asc := rfl
@[simp] theorem State.modAon_frm (s : State) (f : Aon → Aon) : (s.modAon f).frm = s.frm := rfl
@[simp] theorem State.modAon_sch (s : State) (f : Aon → Aon) : (s.modAon f).sch = s.sch := rfl
@[simp] theorem State.modAon_tim (s : State) (f : Aon → Aon) : (s.modAon f).tim = s.tim := rfl
@[simp] theorem State.modAon_mgd (s : State) (f : Aon → Aon) : (s.modAon f).mgd = s.mgd := rfl
@[simp] theorem State.modAon_vlt (s : State) (f : Aon → Aon) : (s.modAon f).vlt = s.vlt := rfl
@[simp] theorem State.modAon_fab (s : State) (f : Aon → Aon) : (s.modAon f).fab = s.fab := rfl
@[simp] theorem State.modAon_gaf (s : State) (f : Aon → Aon) : (s.modAon f).gaf = s.gaf := rfl
@[simp] theorem State.modAon_evt (s : State) (f : Aon → Aon) : (s.modAon f).evt = s.evt := rfl
@[simp] theorem State.modAon_cnt (s : State) (f : Aon → Aon) : (s.modAon f).cnt = s.cnt := rfl
@[simp] theorem State.modAon_aon (s : State) (f : Aon → Aon) : (s.modAon f).aon = f s.aon := rfl
@[simp] theorem State.modAon_rd (s : State) (f : Aon → Aon) (off : Nat) : (s.modAon f).rd off = s.rd off := rfl
@[simp] theorem State.modAon_get (s : State) (f : Aon → Aon) (h : Field) : (s.modAon f).get h = s.get h := rfl
@[simp] theorem State.modAon_flag (s : State) (f : Aon → Aon) (h : Field) : (s.modAon f).flag h = s.flag h := rfl
@[simp] theorem State.modAon_ctr (s : State) (f : Aon → Aon) (a : Nat) : (s.modAon f).ctr a = s.ctr a := rfl

/-! ### modEvt -/

@[simp] theorem State.modEvt_pending (s : State) (f : Evt → Evt) : (s.modEvt f).pending = s.pending := rfl
@[simp] theorem State.modEvt_clk (s : State) (f : Evt → Evt) : (s.modEvt f).clk = s.clk := rfl
@[simp] theorem State.modEvt_draws (s : State) (f : Evt → Evt) : (s.modEvt f).draws = s.draws := rfl
@[simp] theorem State.modEvt_out (s : State) (f : Evt → Evt) : (s.modEvt f).out = s.out := rfl
@[simp] theorem State.modEvt_regs (s : State) (f : Evt → Evt) : (s.modEvt f).regs = s.regs := rfl
@[simp] theorem State.modEvt_locks (s : State) (f : Evt → Evt) : (s.modEvt f).locks = s.locks := rfl
@[simp] theorem State.modEvt_ctl (s : State) (f : Evt → Evt) : (s.modEvt f).ctl = s.ctl := rfl
@[simp] theorem State.modEvt_lanes (s : State) (f : Evt → Evt) : (s.modEvt f).lanes = s.lanes := rfl
@[simp] theorem State.modEvt_korLanes (s : State) (f : Evt → Evt) : (s.modEvt f).korLanes = s.korLanes := rfl
@[simp] theorem State.modEvt_kor (s : State) (f : Evt → Evt) : (s.modEvt f).kor = s.kor := rfl
@[simp] theorem State.modEvt_flt (s : State) (f : Evt → Evt) : (s.modEvt f).flt = s.flt := rfl
@[simp] theorem State.modEvt_asc (s : State) (f : Evt → Evt) : (s.modEvt f).asc = s.asc := rfl
@[simp] theorem State.modEvt_frm (s : State) (f : Evt → Evt) : (s.modEvt f).frm = s.frm := rfl
@[simp] theorem State.modEvt_sch (s : State) (f : Evt → Evt) : (s.modEvt f).sch = s.sch := rfl
@[simp] theorem State.modEvt_tim (s : State) (f : Evt → Evt) : (s.modEvt f).tim = s.tim := rfl
@[simp] theorem State.modEvt_mgd (s : State) (f : Evt → Evt) : (s.modEvt f).mgd = s.mgd := rfl
@[simp] theorem State.modEvt_vlt (s : State) (f : Evt → Evt) : (s.modEvt f).vlt = s.vlt := rfl
@[simp] theorem State.modEvt_fab (s : State) (f : Evt → Evt) : (s.modEvt f).fab = s.fab := rfl
@[simp] theorem State.modEvt_gaf (s : State) (f : Evt → Evt) : (s.modEvt f).gaf = s.gaf := rfl
@[simp] theorem State.modEvt_aon (s : State) (f : Evt → Evt) : (s.modEvt f).aon = s.aon := rfl
@[simp] theorem State.modEvt_cnt (s : State) (f : Evt → Evt) : (s.modEvt f).cnt = s.cnt := rfl
@[simp] theorem State.modEvt_evt (s : State) (f : Evt → Evt) : (s.modEvt f).evt = f s.evt := rfl
@[simp] theorem State.modEvt_rd (s : State) (f : Evt → Evt) (off : Nat) : (s.modEvt f).rd off = s.rd off := rfl
@[simp] theorem State.modEvt_get (s : State) (f : Evt → Evt) (h : Field) : (s.modEvt f).get h = s.get h := rfl
@[simp] theorem State.modEvt_flag (s : State) (f : Evt → Evt) (h : Field) : (s.modEvt f).flag h = s.flag h := rfl
@[simp] theorem State.modEvt_ctr (s : State) (f : Evt → Evt) (a : Nat) : (s.modEvt f).ctr a = s.ctr a := rfl

/-! ### modCnt -/

@[simp] theorem State.modCnt_pending (s : State) (f : Cnt → Cnt) : (s.modCnt f).pending = s.pending := rfl
@[simp] theorem State.modCnt_clk (s : State) (f : Cnt → Cnt) : (s.modCnt f).clk = s.clk := rfl
@[simp] theorem State.modCnt_draws (s : State) (f : Cnt → Cnt) : (s.modCnt f).draws = s.draws := rfl
@[simp] theorem State.modCnt_out (s : State) (f : Cnt → Cnt) : (s.modCnt f).out = s.out := rfl
@[simp] theorem State.modCnt_regs (s : State) (f : Cnt → Cnt) : (s.modCnt f).regs = s.regs := rfl
@[simp] theorem State.modCnt_locks (s : State) (f : Cnt → Cnt) : (s.modCnt f).locks = s.locks := rfl
@[simp] theorem State.modCnt_ctl (s : State) (f : Cnt → Cnt) : (s.modCnt f).ctl = s.ctl := rfl
@[simp] theorem State.modCnt_lanes (s : State) (f : Cnt → Cnt) : (s.modCnt f).lanes = s.lanes := rfl
@[simp] theorem State.modCnt_korLanes (s : State) (f : Cnt → Cnt) : (s.modCnt f).korLanes = s.korLanes := rfl
@[simp] theorem State.modCnt_kor (s : State) (f : Cnt → Cnt) : (s.modCnt f).kor = s.kor := rfl
@[simp] theorem State.modCnt_flt (s : State) (f : Cnt → Cnt) : (s.modCnt f).flt = s.flt := rfl
@[simp] theorem State.modCnt_asc (s : State) (f : Cnt → Cnt) : (s.modCnt f).asc = s.asc := rfl
@[simp] theorem State.modCnt_frm (s : State) (f : Cnt → Cnt) : (s.modCnt f).frm = s.frm := rfl
@[simp] theorem State.modCnt_sch (s : State) (f : Cnt → Cnt) : (s.modCnt f).sch = s.sch := rfl
@[simp] theorem State.modCnt_tim (s : State) (f : Cnt → Cnt) : (s.modCnt f).tim = s.tim := rfl
@[simp] theorem State.modCnt_mgd (s : State) (f : Cnt → Cnt) : (s.modCnt f).mgd = s.mgd := rfl
@[simp] theorem State.modCnt_vlt (s : State) (f : Cnt → Cnt) : (s.modCnt f).vlt = s.vlt := rfl
@[simp] theorem State.modCnt_fab (s : State) (f : Cnt → Cnt) : (s.modCnt f).fab = s.fab := rfl
@[simp] theorem State.modCnt_gaf (s : State) (f : Cnt → Cnt) : (s.modCnt f).gaf = s.gaf := rfl
@[simp] theorem State.modCnt_aon (s : State) (f : Cnt → Cnt) : (s.modCnt f).aon = s.aon := rfl
@[simp] theorem State.modCnt_evt (s : State) (f : Cnt → Cnt) : (s.modCnt f).evt = s.evt := rfl
@[simp] theorem State.modCnt_cnt (s : State) (f : Cnt → Cnt) : (s.modCnt f).cnt = f s.cnt := rfl
@[simp] theorem State.modCnt_rd (s : State) (f : Cnt → Cnt) (off : Nat) : (s.modCnt f).rd off = s.rd off := rfl
@[simp] theorem State.modCnt_get (s : State) (f : Cnt → Cnt) (h : Field) : (s.modCnt f).get h = s.get h := rfl
@[simp] theorem State.modCnt_flag (s : State) (f : Cnt → Cnt) (h : Field) : (s.modCnt f).flag h = s.flag h := rfl

/-! ### modTim -/

@[simp] theorem State.modTim_pending (s : State) (f : Tim → Tim) : (s.modTim f).pending = s.pending := rfl
@[simp] theorem State.modTim_clk (s : State) (f : Tim → Tim) : (s.modTim f).clk = s.clk := rfl
@[simp] theorem State.modTim_draws (s : State) (f : Tim → Tim) : (s.modTim f).draws = s.draws := rfl
@[simp] theorem State.modTim_out (s : State) (f : Tim → Tim) : (s.modTim f).out = s.out := rfl
@[simp] theorem State.modTim_regs (s : State) (f : Tim → Tim) : (s.modTim f).regs = s.regs := rfl
@[simp] theorem State.modTim_locks (s : State) (f : Tim → Tim) : (s.modTim f).locks = s.locks := rfl
@[simp] theorem State.modTim_ctl (s : State) (f : Tim → Tim) : (s.modTim f).ctl = s.ctl := rfl
@[simp] theorem State.modTim_lanes (s : State) (f : Tim → Tim) : (s.modTim f).lanes = s.lanes := rfl
@[simp] theorem State.modTim_korLanes (s : State) (f : Tim → Tim) : (s.modTim f).korLanes = s.korLanes := rfl
@[simp] theorem State.modTim_kor (s : State) (f : Tim → Tim) : (s.modTim f).kor = s.kor := rfl
@[simp] theorem State.modTim_flt (s : State) (f : Tim → Tim) : (s.modTim f).flt = s.flt := rfl
@[simp] theorem State.modTim_asc (s : State) (f : Tim → Tim) : (s.modTim f).asc = s.asc := rfl
@[simp] theorem State.modTim_frm (s : State) (f : Tim → Tim) : (s.modTim f).frm = s.frm := rfl
@[simp] theorem State.modTim_sch (s : State) (f : Tim → Tim) : (s.modTim f).sch = s.sch := rfl
@[simp] theorem State.modTim_mgd (s : State) (f : Tim → Tim) : (s.modTim f).mgd = s.mgd := rfl
@[simp] theorem State.modTim_vlt (s : State) (f : Tim → Tim) : (s.modTim f).vlt = s.vlt := rfl
@[simp] theorem State.modTim_fab (s : State) (f : Tim → Tim) : (s.modTim f).fab = s.fab := rfl
@[simp] theorem State.modTim_gaf (s : State) (f : Tim → Tim) : (s.modTim f).gaf = s.gaf := rfl
@[simp] theorem State.modTim_aon (s : State) (f : Tim → Tim) : (s.modTim f).aon = s.aon := rfl
@[simp] theorem State.modTim_evt (s : State) (f : Tim → Tim) : (s.modTim f).evt = s.evt := rfl
@[simp] theorem State.modTim_cnt (s : State) (f : Tim → Tim) : (s.modTim f).cnt = s.cnt := rfl
@[simp] theorem State.modTim_tim (s : State) (f : Tim → Tim) : (s.modTim f).tim = f s.tim := rfl
@[simp] theorem State.modTim_rd (s : State) (f : Tim → Tim) (off : Nat) : (s.modTim f).rd off = s.rd off := rfl
@[simp] theorem State.modTim_get (s : State) (f : Tim → Tim) (h : Field) : (s.modTim f).get h = s.get h := rfl
@[simp] theorem State.modTim_flag (s : State) (f : Tim → Tim) (h : Field) : (s.modTim f).flag h = s.flag h := rfl
@[simp] theorem State.modTim_ctr (s : State) (f : Tim → Tim) (a : Nat) : (s.modTim f).ctr a = s.ctr a := rfl

/-! ### modVlt -/

@[simp] theorem State.modVlt_pending (s : State) (f : Vlt → Vlt) : (s.modVlt f).pending = s.pending := rfl
@[simp] theorem State.modVlt_clk (s : State) (f : Vlt → Vlt) : (s.modVlt f).clk = s.clk := rfl
@[simp] theorem State.modVlt_draws (s : State) (f : Vlt → Vlt) : (s.modVlt f).draws = s.draws := rfl
@[simp] theorem State.modVlt_out (s : State) (f : Vlt → Vlt) : (s.modVlt f).out = s.out := rfl
@[simp] theorem State.modVlt_regs (s : State) (f : Vlt → Vlt) : (s.modVlt f).regs = s.regs := rfl
@[simp] theorem State.modVlt_locks (s : State) (f : Vlt → Vlt) : (s.modVlt f).locks = s.locks := rfl
@[simp] theorem State.modVlt_ctl (s : State) (f : Vlt → Vlt) : (s.modVlt f).ctl = s.ctl := rfl
@[simp] theorem State.modVlt_lanes (s : State) (f : Vlt → Vlt) : (s.modVlt f).lanes = s.lanes := rfl
@[simp] theorem State.modVlt_korLanes (s : State) (f : Vlt → Vlt) : (s.modVlt f).korLanes = s.korLanes := rfl
@[simp] theorem State.modVlt_kor (s : State) (f : Vlt → Vlt) : (s.modVlt f).kor = s.kor := rfl
@[simp] theorem State.modVlt_flt (s : State) (f : Vlt → Vlt) : (s.modVlt f).flt = s.flt := rfl
@[simp] theorem State.modVlt_asc (s : State) (f : Vlt → Vlt) : (s.modVlt f).asc = s.asc := rfl
@[simp] theorem State.modVlt_frm (s : State) (f : Vlt → Vlt) : (s.modVlt f).frm = s.frm := rfl
@[simp] theorem State.modVlt_sch (s : State) (f : Vlt → Vlt) : (s.modVlt f).sch = s.sch := rfl
@[simp] theorem State.modVlt_tim (s : State) (f : Vlt → Vlt) : (s.modVlt f).tim = s.tim := rfl
@[simp] theorem State.modVlt_mgd (s : State) (f : Vlt → Vlt) : (s.modVlt f).mgd = s.mgd := rfl
@[simp] theorem State.modVlt_fab (s : State) (f : Vlt → Vlt) : (s.modVlt f).fab = s.fab := rfl
@[simp] theorem State.modVlt_gaf (s : State) (f : Vlt → Vlt) : (s.modVlt f).gaf = s.gaf := rfl
@[simp] theorem State.modVlt_aon (s : State) (f : Vlt → Vlt) : (s.modVlt f).aon = s.aon := rfl
@[simp] theorem State.modVlt_evt (s : State) (f : Vlt → Vlt) : (s.modVlt f).evt = s.evt := rfl
@[simp] theorem State.modVlt_cnt (s : State) (f : Vlt → Vlt) : (s.modVlt f).cnt = s.cnt := rfl
@[simp] theorem State.modVlt_vlt (s : State) (f : Vlt → Vlt) : (s.modVlt f).vlt = f s.vlt := rfl
@[simp] theorem State.modVlt_rd (s : State) (f : Vlt → Vlt) (off : Nat) : (s.modVlt f).rd off = s.rd off := rfl
@[simp] theorem State.modVlt_get (s : State) (f : Vlt → Vlt) (h : Field) : (s.modVlt f).get h = s.get h := rfl
@[simp] theorem State.modVlt_flag (s : State) (f : Vlt → Vlt) (h : Field) : (s.modVlt f).flag h = s.flag h := rfl
@[simp] theorem State.modVlt_ctr (s : State) (f : Vlt → Vlt) (a : Nat) : (s.modVlt f).ctr a = s.ctr a := rfl

/-! ### modLane -/

@[simp] theorem State.modLane_pending (s : State) (u : LaneUnit) (j : Nat) (f : LaneState → LaneState) : (s.modLane u j f).pending = s.pending := rfl
@[simp] theorem State.modLane_clk (s : State) (u : LaneUnit) (j : Nat) (f : LaneState → LaneState) : (s.modLane u j f).clk = s.clk := rfl
@[simp] theorem State.modLane_draws (s : State) (u : LaneUnit) (j : Nat) (f : LaneState → LaneState) : (s.modLane u j f).draws = s.draws := rfl
@[simp] theorem State.modLane_out (s : State) (u : LaneUnit) (j : Nat) (f : LaneState → LaneState) : (s.modLane u j f).out = s.out := rfl
@[simp] theorem State.modLane_regs (s : State) (u : LaneUnit) (j : Nat) (f : LaneState → LaneState) : (s.modLane u j f).regs = s.regs := rfl
@[simp] theorem State.modLane_locks (s : State) (u : LaneUnit) (j : Nat) (f : LaneState → LaneState) : (s.modLane u j f).locks = s.locks := rfl
@[simp] theorem State.modLane_ctl (s : State) (u : LaneUnit) (j : Nat) (f : LaneState → LaneState) : (s.modLane u j f).ctl = s.ctl := rfl
@[simp] theorem State.modLane_korLanes (s : State) (u : LaneUnit) (j : Nat) (f : LaneState → LaneState) : (s.modLane u j f).korLanes = s.korLanes := rfl
@[simp] theorem State.modLane_kor (s : State) (u : LaneUnit) (j : Nat) (f : LaneState → LaneState) : (s.modLane u j f).kor = s.kor := rfl
@[simp] theorem State.modLane_flt (s : State) (u : LaneUnit) (j : Nat) (f : LaneState → LaneState) : (s.modLane u j f).flt = s.flt := rfl
@[simp] theorem State.modLane_asc (s : State) (u : LaneUnit) (j : Nat) (f : LaneState → LaneState) : (s.modLane u j f).asc = s.asc := rfl
@[simp] theorem State.modLane_frm (s : State) (u : LaneUnit) (j : Nat) (f : LaneState → LaneState) : (s.modLane u j f).frm = s.frm := rfl
@[simp] theorem State.modLane_sch (s : State) (u : LaneUnit) (j : Nat) (f : LaneState → LaneState) : (s.modLane u j f).sch = s.sch := rfl
@[simp] theorem State.modLane_tim (s : State) (u : LaneUnit) (j : Nat) (f : LaneState → LaneState) : (s.modLane u j f).tim = s.tim := rfl
@[simp] theorem State.modLane_mgd (s : State) (u : LaneUnit) (j : Nat) (f : LaneState → LaneState) : (s.modLane u j f).mgd = s.mgd := rfl
@[simp] theorem State.modLane_vlt (s : State) (u : LaneUnit) (j : Nat) (f : LaneState → LaneState) : (s.modLane u j f).vlt = s.vlt := rfl
@[simp] theorem State.modLane_fab (s : State) (u : LaneUnit) (j : Nat) (f : LaneState → LaneState) : (s.modLane u j f).fab = s.fab := rfl
@[simp] theorem State.modLane_gaf (s : State) (u : LaneUnit) (j : Nat) (f : LaneState → LaneState) : (s.modLane u j f).gaf = s.gaf := rfl
@[simp] theorem State.modLane_aon (s : State) (u : LaneUnit) (j : Nat) (f : LaneState → LaneState) : (s.modLane u j f).aon = s.aon := rfl
@[simp] theorem State.modLane_evt (s : State) (u : LaneUnit) (j : Nat) (f : LaneState → LaneState) : (s.modLane u j f).evt = s.evt := rfl
@[simp] theorem State.modLane_cnt (s : State) (u : LaneUnit) (j : Nat) (f : LaneState → LaneState) : (s.modLane u j f).cnt = s.cnt := rfl
@[simp] theorem State.modLane_lanes (s : State) (u : LaneUnit) (j : Nat) (f : LaneState → LaneState) :
    (s.modLane u j f).lanes = { s.lanes with lane := mstore noLane (laneKey u j) (f (s.lane u j)) s.lanes.lane } := rfl
@[simp] theorem State.modLane_rd (s : State) (u : LaneUnit) (j : Nat) (f : LaneState → LaneState) (off : Nat) : (s.modLane u j f).rd off = s.rd off := rfl
@[simp] theorem State.modLane_get (s : State) (u : LaneUnit) (j : Nat) (f : LaneState → LaneState) (h : Field) : (s.modLane u j f).get h = s.get h := rfl
@[simp] theorem State.modLane_flag (s : State) (u : LaneUnit) (j : Nat) (f : LaneState → LaneState) (h : Field) : (s.modLane u j f).flag h = s.flag h := rfl
@[simp] theorem State.modLane_ctr (s : State) (u : LaneUnit) (j : Nat) (f : LaneState → LaneState) (a : Nat) : (s.modLane u j f).ctr a = s.ctr a := rfl

/-! ### modKorLane -/

@[simp] theorem State.modKorLane_pending (s : State) (j : Nat) (f : KorLane → KorLane) : (s.modKorLane j f).pending = s.pending := rfl
@[simp] theorem State.modKorLane_clk (s : State) (j : Nat) (f : KorLane → KorLane) : (s.modKorLane j f).clk = s.clk := rfl
@[simp] theorem State.modKorLane_draws (s : State) (j : Nat) (f : KorLane → KorLane) : (s.modKorLane j f).draws = s.draws := rfl
@[simp] theorem State.modKorLane_out (s : State) (j : Nat) (f : KorLane → KorLane) : (s.modKorLane j f).out = s.out := rfl
@[simp] theorem State.modKorLane_regs (s : State) (j : Nat) (f : KorLane → KorLane) : (s.modKorLane j f).regs = s.regs := rfl
@[simp] theorem State.modKorLane_locks (s : State) (j : Nat) (f : KorLane → KorLane) : (s.modKorLane j f).locks = s.locks := rfl
@[simp] theorem State.modKorLane_ctl (s : State) (j : Nat) (f : KorLane → KorLane) : (s.modKorLane j f).ctl = s.ctl := rfl
@[simp] theorem State.modKorLane_lanes (s : State) (j : Nat) (f : KorLane → KorLane) : (s.modKorLane j f).lanes = s.lanes := rfl
@[simp] theorem State.modKorLane_kor (s : State) (j : Nat) (f : KorLane → KorLane) : (s.modKorLane j f).kor = s.kor := rfl
@[simp] theorem State.modKorLane_flt (s : State) (j : Nat) (f : KorLane → KorLane) : (s.modKorLane j f).flt = s.flt := rfl
@[simp] theorem State.modKorLane_asc (s : State) (j : Nat) (f : KorLane → KorLane) : (s.modKorLane j f).asc = s.asc := rfl
@[simp] theorem State.modKorLane_frm (s : State) (j : Nat) (f : KorLane → KorLane) : (s.modKorLane j f).frm = s.frm := rfl
@[simp] theorem State.modKorLane_sch (s : State) (j : Nat) (f : KorLane → KorLane) : (s.modKorLane j f).sch = s.sch := rfl
@[simp] theorem State.modKorLane_tim (s : State) (j : Nat) (f : KorLane → KorLane) : (s.modKorLane j f).tim = s.tim := rfl
@[simp] theorem State.modKorLane_mgd (s : State) (j : Nat) (f : KorLane → KorLane) : (s.modKorLane j f).mgd = s.mgd := rfl
@[simp] theorem State.modKorLane_vlt (s : State) (j : Nat) (f : KorLane → KorLane) : (s.modKorLane j f).vlt = s.vlt := rfl
@[simp] theorem State.modKorLane_fab (s : State) (j : Nat) (f : KorLane → KorLane) : (s.modKorLane j f).fab = s.fab := rfl
@[simp] theorem State.modKorLane_gaf (s : State) (j : Nat) (f : KorLane → KorLane) : (s.modKorLane j f).gaf = s.gaf := rfl
@[simp] theorem State.modKorLane_aon (s : State) (j : Nat) (f : KorLane → KorLane) : (s.modKorLane j f).aon = s.aon := rfl
@[simp] theorem State.modKorLane_evt (s : State) (j : Nat) (f : KorLane → KorLane) : (s.modKorLane j f).evt = s.evt := rfl
@[simp] theorem State.modKorLane_cnt (s : State) (j : Nat) (f : KorLane → KorLane) : (s.modKorLane j f).cnt = s.cnt := rfl
@[simp] theorem State.modKorLane_korLanes (s : State) (j : Nat) (f : KorLane → KorLane) :
    (s.modKorLane j f).korLanes = mstore noKorLane j (f (s.korLane j)) s.korLanes := rfl
@[simp] theorem State.modKorLane_rd (s : State) (j : Nat) (f : KorLane → KorLane) (off : Nat) : (s.modKorLane j f).rd off = s.rd off := rfl
@[simp] theorem State.modKorLane_get (s : State) (j : Nat) (f : KorLane → KorLane) (h : Field) : (s.modKorLane j f).get h = s.get h := rfl
@[simp] theorem State.modKorLane_flag (s : State) (j : Nat) (f : KorLane → KorLane) (h : Field) : (s.modKorLane j f).flag h = s.flag h := rfl
@[simp] theorem State.modKorLane_ctr (s : State) (j : Nat) (f : KorLane → KorLane) (a : Nat) : (s.modKorLane j f).ctr a = s.ctr a := rfl

/-! ### modKor -/

@[simp] theorem State.modKor_pending (s : State) (k : Nat) (f : KorPort → KorPort) : (s.modKor k f).pending = s.pending := rfl
@[simp] theorem State.modKor_clk (s : State) (k : Nat) (f : KorPort → KorPort) : (s.modKor k f).clk = s.clk := rfl
@[simp] theorem State.modKor_draws (s : State) (k : Nat) (f : KorPort → KorPort) : (s.modKor k f).draws = s.draws := rfl
@[simp] theorem State.modKor_out (s : State) (k : Nat) (f : KorPort → KorPort) : (s.modKor k f).out = s.out := rfl
@[simp] theorem State.modKor_regs (s : State) (k : Nat) (f : KorPort → KorPort) : (s.modKor k f).regs = s.regs := rfl
@[simp] theorem State.modKor_locks (s : State) (k : Nat) (f : KorPort → KorPort) : (s.modKor k f).locks = s.locks := rfl
@[simp] theorem State.modKor_ctl (s : State) (k : Nat) (f : KorPort → KorPort) : (s.modKor k f).ctl = s.ctl := rfl
@[simp] theorem State.modKor_lanes (s : State) (k : Nat) (f : KorPort → KorPort) : (s.modKor k f).lanes = s.lanes := rfl
@[simp] theorem State.modKor_korLanes (s : State) (k : Nat) (f : KorPort → KorPort) : (s.modKor k f).korLanes = s.korLanes := rfl
@[simp] theorem State.modKor_flt (s : State) (k : Nat) (f : KorPort → KorPort) : (s.modKor k f).flt = s.flt := rfl
@[simp] theorem State.modKor_asc (s : State) (k : Nat) (f : KorPort → KorPort) : (s.modKor k f).asc = s.asc := rfl
@[simp] theorem State.modKor_frm (s : State) (k : Nat) (f : KorPort → KorPort) : (s.modKor k f).frm = s.frm := rfl
@[simp] theorem State.modKor_sch (s : State) (k : Nat) (f : KorPort → KorPort) : (s.modKor k f).sch = s.sch := rfl
@[simp] theorem State.modKor_tim (s : State) (k : Nat) (f : KorPort → KorPort) : (s.modKor k f).tim = s.tim := rfl
@[simp] theorem State.modKor_mgd (s : State) (k : Nat) (f : KorPort → KorPort) : (s.modKor k f).mgd = s.mgd := rfl
@[simp] theorem State.modKor_vlt (s : State) (k : Nat) (f : KorPort → KorPort) : (s.modKor k f).vlt = s.vlt := rfl
@[simp] theorem State.modKor_fab (s : State) (k : Nat) (f : KorPort → KorPort) : (s.modKor k f).fab = s.fab := rfl
@[simp] theorem State.modKor_gaf (s : State) (k : Nat) (f : KorPort → KorPort) : (s.modKor k f).gaf = s.gaf := rfl
@[simp] theorem State.modKor_aon (s : State) (k : Nat) (f : KorPort → KorPort) : (s.modKor k f).aon = s.aon := rfl
@[simp] theorem State.modKor_evt (s : State) (k : Nat) (f : KorPort → KorPort) : (s.modKor k f).evt = s.evt := rfl
@[simp] theorem State.modKor_cnt (s : State) (k : Nat) (f : KorPort → KorPort) : (s.modKor k f).cnt = s.cnt := rfl
@[simp] theorem State.modKor_kor (s : State) (k : Nat) (f : KorPort → KorPort) :
    (s.modKor k f).kor = mstore noKorPort k (f (s.korPort k)) s.kor := rfl
@[simp] theorem State.modKor_rd (s : State) (k : Nat) (f : KorPort → KorPort) (off : Nat) : (s.modKor k f).rd off = s.rd off := rfl
@[simp] theorem State.modKor_get (s : State) (k : Nat) (f : KorPort → KorPort) (h : Field) : (s.modKor k f).get h = s.get h := rfl
@[simp] theorem State.modKor_flag (s : State) (k : Nat) (f : KorPort → KorPort) (h : Field) : (s.modKor k f).flag h = s.flag h := rfl
@[simp] theorem State.modKor_ctr (s : State) (k : Nat) (f : KorPort → KorPort) (a : Nat) : (s.modKor k f).ctr a = s.ctr a := rfl

end Sys2Proof.Machine
end

