-- ==== Sys2Proof/Laws/Registers.lean ====
section
/-! SUPPORT. Sparse data, registers, fields and counters: reading what was written, what a write leaves alone, and the one
canonical form that every operation on sparse data keeps. -/

namespace Sys2Proof.Machine

/-! ### Sparse data -/

theorem mget_mput_same {α : Type} (k : Nat) (v : α) (m : SMap α) : mget k (mput k v m) = some v := by
  induction m with
  | nil => simp [mput, mget]
  | cons p m ih =>
    obtain ⟨j, w⟩ := p
    by_cases h : k < j
    · simp [mput, h, mget]
    · by_cases e : k = j
      · simp [mput, e, mget]
      · simp [mput, h, e, mget, Ne.symm e, ih]

theorem mget_mput_ne {α : Type} {k k' : Nat} (v : α) (m : SMap α) (h : k' ≠ k) : mget k' (mput k v m) = mget k' m := by
  induction m with
  | nil => simp [mput, mget, h.symm]
  | cons p m ih =>
    obtain ⟨j, w⟩ := p
    by_cases h1 : k < j
    · simp [mput, h1, mget, h.symm]
    · by_cases e : k = j
      · subst e; simp [mput, mget, h.symm]
      · simp [mput, h1, e, mget, ih]

theorem mget_mdel_same {α : Type} (k : Nat) (m : SMap α) : mget k (mdel k m) = none := by
  induction m with
  | nil => rfl
  | cons p m ih =>
    obtain ⟨j, w⟩ := p
    by_cases e : j = k
    · simp [mdel, e, ih]
    · simp [mdel, e, mget, ih]

theorem mget_mdel_ne {α : Type} {k k' : Nat} (m : SMap α) (h : k' ≠ k) : mget k' (mdel k m) = mget k' m := by
  induction m with
  | nil => rfl
  | cons p m ih =>
    obtain ⟨j, w⟩ := p
    by_cases e : j = k
    · subst e; simp [mdel, mget, h.symm, ih]
    · simp [mdel, e, mget, ih]

@[simp] theorem mlook_mput_same {α : Type} (d : α) (k : Nat) (v : α) (m : SMap α) : mlook d k (mput k v m) = v := by
  simp [mlook, mget_mput_same]

theorem mlook_mput_ne {α : Type} (d : α) {k k' : Nat} (v : α) (m : SMap α) (h : k' ≠ k) :
    mlook d k' (mput k v m) = mlook d k' m := by
  simp [mlook, mget_mput_ne v m h]

@[simp] theorem mlook_mstore_same {α : Type} [DecidableEq α] (d : α) (k : Nat) (v : α) (m : SMap α) :
    mlook d k (mstore d k v m) = v := by
  unfold mstore
  split
  · next h => simp [mlook, mget_mdel_same, h]
  · simp

theorem mlook_mstore_ne {α : Type} [DecidableEq α] (d d' : α) {k k' : Nat} (v : α) (m : SMap α) (h : k' ≠ k) :
    mlook d' k' (mstore d k v m) = mlook d' k' m := by
  unfold mstore
  split
  · simp [mlook, mget_mdel_ne m h]
  · simp [mlook, mget_mput_ne v m h]

/-! ### The canonical form -/

theorem mrising_mono {α : Type} {b c : Nat} {m : SMap α} (h : mrising b m = true) (hc : c ≤ b) : mrising c m = true := by
  cases m with
  | nil => rfl
  | cons p m =>
    obtain ⟨j, w⟩ := p
    simp only [mrising, Bool.and_eq_true, decide_eq_true_eq] at h ⊢
    exact ⟨by omega, h.2⟩

theorem mrising_mput {α : Type} (k : Nat) (v : α) {b : Nat} (hk : b ≤ k) {m : SMap α} (h : mrising b m = true) :
    mrising b (mput k v m) = true := by
  induction m generalizing b with
  | nil => simp [mput, mrising, hk]
  | cons p m ih =>
    obtain ⟨j, w⟩ := p
    simp only [mrising, Bool.and_eq_true, decide_eq_true_eq] at h
    by_cases h1 : k < j
    · simp [mput, h1, mrising, hk, h.2]
    · by_cases e : k = j
      · subst e; simp [mput, mrising, h]
      · have hj : j + 1 ≤ k := by omega
        simp [mput, h1, e, mrising, h.1, ih hj h.2]

theorem mrising_mdel {α : Type} (k : Nat) {b : Nat} {m : SMap α} (h : mrising b m = true) : mrising b (mdel k m) = true := by
  induction m generalizing b with
  | nil => rfl
  | cons p m ih =>
    obtain ⟨j, w⟩ := p
    simp only [mrising, Bool.and_eq_true, decide_eq_true_eq] at h
    by_cases e : j = k
    · simp only [mdel, e, if_true]; exact mrising_mono (ih h.2) (by omega)
    · simp [mdel, e, mrising, h.1, ih h.2]

theorem all_mput {α : Type} (k : Nat) (v : α) (q : Nat × α → Bool) {m : SMap α} (hv : q (k, v) = true) (h : m.all q = true) :
    (mput k v m).all q = true := by
  induction m with
  | nil => simp [mput, hv]
  | cons p m ih =>
    obtain ⟨j, w⟩ := p
    simp only [List.all_cons, Bool.and_eq_true] at h
    simp only [mput]
    split
    · simp [hv, h.1, h.2]
    · split
      · simp [hv, h.2]
      · simp [h.1, ih h.2]

theorem all_mdel {α : Type} (k : Nat) (q : Nat × α → Bool) {m : SMap α} (h : m.all q = true) : (mdel k m).all q = true := by
  induction m with
  | nil => rfl
  | cons p m ih =>
    obtain ⟨j, w⟩ := p
    simp only [List.all_cons, Bool.and_eq_true] at h
    simp only [mdel]
    split
    · exact ih h.2
    · simp [h.1, ih h.2]

/-- Storing keeps the canonical form. -/
theorem mcanon_mstore {α : Type} [DecidableEq α] (dflt : Nat → α) (k : Nat) (v : α) {m : SMap α} (h : mcanon dflt m = true) :
    mcanon dflt (mstore (dflt k) k v m) = true := by
  simp only [mcanon, Bool.and_eq_true] at h ⊢
  unfold mstore
  split
  · exact ⟨mrising_mdel k h.1, all_mdel k _ h.2⟩
  · next hv => exact ⟨mrising_mput k v (Nat.zero_le k) h.1, all_mput k v _ (by simp [hv]) h.2⟩

/-! ### Registers -/

@[simp] theorem State.rd_wr (s : State) (off : Nat) (v : Word) : (s.wr off v).rd off = v := by simp [State.rd, State.wr]

theorem State.rd_wr_ne (s : State) {off a : Nat} (v : Word) (h : a ≠ off) : (s.wr off v).rd a = s.rd a := by
  simp [State.rd, State.wr, mlook_mstore_ne _ _ v s.regs h]

theorem State.rd_set_ne (s : State) (g : Field) {a : Nat} (v : Nat) (h : a ≠ g.off) : (s.set g v).rd a = s.rd a :=
  s.rd_wr_ne _ h

@[simp] theorem State.rd_set (s : State) (g : Field) (v : Nat) : (s.set g v).rd g.off = setBits (s.rd g.off) g.hi g.lo v := by
  simp [State.set]

/-! ### Fields -/

theorem setBits_toNat (w : Word) {hi lo : Nat} (h : lo ≤ hi) (hh : hi < 32) (v : Nat) :
    (setBits w hi lo v).toNat = w.toNat / 2 ^ (hi + 1) * 2 ^ (hi + 1) + v % 2 ^ (hi + 1 - lo) * 2 ^ lo + w.toNat % 2 ^ lo := by
  have hw := w.isLt
  have e1 : 2 ^ (hi + 1) = 2 ^ (hi + 1 - lo) * 2 ^ lo := by rw [← Nat.pow_add]; congr 1; omega
  have e2 : (2 : Nat) ^ 32 = 2 ^ (31 - hi) * 2 ^ (hi + 1) := by rw [← Nat.pow_add]; congr 1; omega
  have h1 : w.toNat % 2 ^ lo < 2 ^ lo := Nat.mod_lt _ (Nat.two_pow_pos lo)
  have h2 : v % 2 ^ (hi + 1 - lo) < 2 ^ (hi + 1 - lo) := Nat.mod_lt _ (Nat.two_pow_pos _)
  have h3 : w.toNat / 2 ^ (hi + 1) < 2 ^ (31 - hi) := by
    apply Nat.div_lt_of_lt_mul
    rw [Nat.mul_comm, ← e2]; exact hw
  have h4 : v % 2 ^ (hi + 1 - lo) * 2 ^ lo + w.toNat % 2 ^ lo < 2 ^ (hi + 1) := by
    rw [e1]
    calc _ < v % 2 ^ (hi + 1 - lo) * 2 ^ lo + 2 ^ lo := by omega
      _ = (v % 2 ^ (hi + 1 - lo) + 1) * 2 ^ lo := by rw [Nat.add_mul, Nat.one_mul]
      _ ≤ 2 ^ (hi + 1 - lo) * 2 ^ lo := Nat.mul_le_mul_right _ h2
  have h5 : w.toNat / 2 ^ (hi + 1) * 2 ^ (hi + 1) + 2 ^ (hi + 1) ≤ 2 ^ 32 := by
    rw [e2]
    calc _ = (w.toNat / 2 ^ (hi + 1) + 1) * 2 ^ (hi + 1) := by rw [Nat.add_mul, Nat.one_mul]
      _ ≤ 2 ^ (31 - hi) * 2 ^ (hi + 1) := Nat.mul_le_mul_right _ h3
  unfold setBits
  rw [BitVec.toNat_ofNat, Nat.mod_eq_of_lt]
  omega

/-- A field reads as what was stored in it. -/
theorem bits_setBits (w : Word) {hi lo : Nat} (h : lo ≤ hi) (hh : hi < 32) (v : Nat) :
    bits (setBits w hi lo v) hi lo = v % 2 ^ (hi + 1 - lo) := by
  unfold bits
  rw [setBits_toNat w h hh]
  have e1 : 2 ^ (hi + 1) = 2 ^ (hi + 1 - lo) * 2 ^ lo := by rw [← Nat.pow_add]; congr 1; omega
  have h1 : w.toNat % 2 ^ lo < 2 ^ lo := Nat.mod_lt _ (Nat.two_pow_pos lo)
  rw [e1, ← Nat.mul_assoc, ← Nat.add_mul, Nat.add_comm, Nat.add_mul_div_right _ _ (Nat.two_pow_pos lo),
    Nat.div_eq_of_lt h1, Nat.zero_add, Nat.add_comm, Nat.add_mul_mod_self_right, Nat.mod_mod]

theorem testBit_setBits (w : Word) {hi lo : Nat} (h : lo ≤ hi) (hh : hi < 32) (v i : Nat) :
    (setBits w hi lo v).toNat.testBit i =
      if i < lo then w.toNat.testBit i else if i ≤ hi then v.testBit (i - lo) else w.toNat.testBit i := by
  rw [setBits_toNat w h hh]
  have h1 : w.toNat % 2 ^ lo < 2 ^ lo := Nat.mod_lt _ (Nat.two_pow_pos lo)
  have e1 : 2 ^ (hi + 1) = 2 ^ lo * 2 ^ (hi + 1 - lo) := by rw [← Nat.pow_add]; congr 1; omega
  have key : w.toNat / 2 ^ (hi + 1) * 2 ^ (hi + 1) + v % 2 ^ (hi + 1 - lo) * 2 ^ lo + w.toNat % 2 ^ lo =
      2 ^ lo * (2 ^ (hi + 1 - lo) * (w.toNat / 2 ^ (hi + 1)) + v % 2 ^ (hi + 1 - lo)) + w.toNat % 2 ^ lo := by
    rw [e1]; ring
  rw [key, Nat.testBit_two_pow_mul_add _ h1, Nat.testBit_two_pow_mul_add _ (Nat.mod_lt _ (Nat.two_pow_pos _))]
  by_cases a : i < lo
  · simp [a, Nat.testBit_mod_two_pow]
  · by_cases b : i ≤ hi
    · simp [a, b, Nat.testBit_mod_two_pow, show i - lo < hi + 1 - lo by omega]
    · simp [a, b, show ¬ i - lo < hi + 1 - lo by omega, Nat.testBit_div_two_pow,
        show i - lo - (hi + 1 - lo) + (hi + 1) = i by omega]

/-- A field apart from the one stored reads as before. -/
theorem bits_setBits_apart (w : Word) {hi lo : Nat} (h : lo ≤ hi) (hh : hi < 32) (v : Nat) {hi' lo' : Nat}
    (d : hi < lo' ∨ hi' < lo) : bits (setBits w hi lo v) hi' lo' = bits w hi' lo' := by
  unfold bits
  apply Nat.eq_of_testBit_eq
  intro i
  simp only [Nat.testBit_mod_two_pow, Nat.testBit_div_two_pow, testBit_setBits w h hh]
  by_cases c : i < hi' + 1 - lo'
  · simp only [c, decide_true, Bool.true_and]
    rcases d with d | d
    · simp [show ¬ i + lo' < lo by omega, show ¬ i + lo' ≤ hi by omega]
    · simp [show i + lo' < lo by omega]
  · simp [c]

/-- The stored field. -/
theorem State.get_set (s : State) (g : Field) (h : g.lo ≤ g.hi) (hh : g.hi < 32) (v : Nat) :
    (s.set g v).get g = v % 2 ^ (g.hi + 1 - g.lo) := by
  simp [State.get, bits_setBits _ h hh]

/-- Another register's field. -/
theorem State.get_set_off (s : State) (g f : Field) (v : Nat) (h : f.off ≠ g.off) : (s.set g v).get f = s.get f := by
  simp [State.get, State.rd_set_ne s g v h]

/-- Another field of the same register. -/
theorem State.get_set_apart (s : State) (g f : Field) (v : Nat) (h : g.lo ≤ g.hi) (hh : g.hi < 32) (o : f.off = g.off)
    (d : g.hi < f.lo ∨ f.hi < g.lo) : (s.set g v).get f = s.get f := by
  simp only [State.get, o, State.rd_set]
  exact bits_setBits_apart _ h hh v d

theorem State.get_wr_ne (s : State) {off : Nat} (v : Word) (f : Field) (h : f.off ≠ off) : (s.wr off v).get f = s.get f := by
  simp [State.get, State.rd_wr_ne s v h]

@[simp] theorem State.get_wr (s : State) (v : Word) (f : Field) : (s.wr f.off v).get f = bits v f.hi f.lo := by
  simp [State.get]

/-! ### Counters -/

@[simp] theorem State.ctr_bumpRaw (s : State) (off n : Nat) (h : s.ctr off + n < 2 ^ 48) :
    (s.bumpRaw off n).ctr off = s.ctr off + n := by
  unfold State.bumpRaw
  simp only [h, if_true]
  simp [State.ctr]

theorem State.ctr_bumpRaw_ne (s : State) {off a : Nat} (n : Nat) (h : a ≠ off) : (s.bumpRaw off n).ctr a = s.ctr a := by
  by_cases c : s.ctr off + n < 2 ^ 48
  · simp only [State.bumpRaw, c, if_true]; simp [State.ctr, mlook_mstore_ne _ _ _ _ h]
  · simp only [State.bumpRaw, c, if_false]; simp [State.ctr, mlook_mstore_ne _ _ _ _ h]

/-- Counting below the wrap adds and does nothing else (R8, R551). -/
theorem State.inc_eq (s : State) (off : Nat) (h : s.ctr off + 1 < 2 ^ 48) :
    s.inc off = { s with cnt := { s.cnt with vals := mstore 0 off (s.ctr off + 1) s.cnt.vals } } := by
  have w : s.wouldWrap off 1 = false := by simp [State.wouldWrap]; omega
  simp only [State.inc, State.bump, w, State.bumpRaw, h, if_true, Bool.false_eq_true, if_false]

end Sys2Proof.Machine
end

