-- ==== Sys2Proof/Laws/Access.lean ====
section
/-! SUPPORT. What passes a write, a read and an event (R53, R54, R520, R546), and what raising an event leaves alone (R541 to
R548): each shared operation's one lemma. -/

namespace Sys2Proof.Machine

/-- A write that passes acts; the three ways in which it does not (R53, R54, R520, R546). -/
theorem gate_cases (who : Who) (c : WriteClass) (off : Nat) (op : State → State) (s : State) :
    (s.running = false ∧ gate who c off op s = s) ∨
    (s.running = true ∧ s.dormant = true ∧ dormantOpen off = false ∧ gate who c off op s = s.inc Reg.GAF_DORMANT_ACCESS) ∨
    (s.running = true ∧ (s.dormant = false ∨ dormantOpen off = true) ∧ s.mayWrite who c = false ∧
      gate who c off op s = s.inc Reg.CTL_FAULT_OWNER) ∨
    (s.running = true ∧ (s.dormant = false ∨ dormantOpen off = true) ∧ s.mayWrite who c = true ∧ gate who c off op s = op s) := by
  unfold gate
  cases s.running <;> cases s.dormant <;> cases dormantOpen off <;> cases s.mayWrite who c <;> simp

theorem gate_acts {who : Who} {c : WriteClass} {s : State} (off : Nat) (op : State → State) (h : Awake s)
    (m : s.mayWrite who c = true) : gate who c off op s = op s := by
  simp [gate, h.1, h.2, m]

theorem gate_refuses {who : Who} {c : WriteClass} {s : State} (off : Nat) (op : State → State) (h : Awake s)
    (m : s.mayWrite who c = false) : gate who c off op s = s.inc Reg.CTL_FAULT_OWNER := by
  simp [gate, h.1, h.2, m]

theorem Serves.mayWrite {s : State} {who : Who} (h : Serves s who) (c : WriteClass) : s.mayWrite who c = true := by
  simp [State.mayWrite, h.2]

theorem Serves.own {s : State} {who : Who} (h : Serves s who) : ServesOwn s who := ⟨h.1, h.mayWrite _⟩

theorem gateOwner_acts {who : Who} {s : State} (off : Nat) (op : State → State) (h : Serves s who) :
    gateOwner who off op s = op s := gate_acts off op h.1 (h.mayWrite _)

theorem gateOwner_own {who : Who} {s : State} {off : Nat} (op : State → State) (h : ServesOwn s who) (o : firmwareOwn off = true) :
    gateOwner who off op s = op s := by
  unfold gateOwner
  rw [o]
  exact gate_acts off op h.1 h.2

@[simp] theorem live_acts {s : State} (op : State → State) (h : s.running = true) : live op s = op s := by simp [live, h]

theorem whenOn_on {s : State} {ds : List Nat} (op : State → State) (h : DomainsOn s ds) : whenOn ds op s = op s := if_pos h

theorem whenOn_off {s : State} {ds : List Nat} (op : State → State) (h : ¬ DomainsOn s ds) : whenOn ds op s = s := if_neg h

theorem readOp_special {who : Who} {s : State} (h : Awake s) {off : Nat} {f : State → Word × State} (hf : specialRead who off = some f) :
    readOp who off s = (f s).2.emit (.readData who.path (f s).1) := by
  have hh : s.halted = false := by
    have := h.1; simp only [State.running, State.halted, decide_eq_true_eq] at this ⊢; simp [this]
  simp [readOp, State.answers, h.1, localRead, hh, h.2, unitRead, hf]

theorem live_idle {s : State} (op : State → State) (h : s.running = false) : live op s = s := by simp [live, h]

end Sys2Proof.Machine
end

