-- ==== Sys2Proof/Certificates/Slice0/Obligations.lean ====
section
/-! DEFINITION. The statements about the model that the provers answer, chapter by chapter of the spec. Each docstring names the rules
of spec/ that it rests on. -/

open Sys2Proof Sys2Proof.Machine

/-! ### The step and reset -/

/-- A step runs the command at the front of the queue on the state whose queue is the rest. -/
def Obligations.StepRunsFront : Prop :=
  ∀ (c : Instr) (cs : List Instr) (s : State), step { s with pending := c :: cs } = exec c { s with pending := cs }

/-- A step with no command waiting lets one tick of 1.25 ns pass (the model's choice, log 14): the model's clock counts, and FRC
where it runs (R364). -/
def Obligations.IdleStepTicks : Prop :=
  ∀ s : State, s.pending = [] → s.trackerWaits = false →
    step s = .next { s with clk := s.clk + 1, tim := if s.frcRuns then { s.tim with frc := s.tim.frc + 1 } else s.tim }

/-- What reset leaves, as the register maps give it: start-up at stage 1 with EPHEMERAL 1 (R63), nobody owns the device and the
loader is idle (R55, R63), nothing is exposed to BAR2 (R553), the device is in RUN (R509), FRC is 0 and time FREE (R364, R389),
and no response holds (R560). -/
def Obligations.ResetLeaves : Prop :=
  State.reset.get Reg.CTL_BOOT_STAGE = 1 ∧ State.reset.get Reg.CTL_BOOT_EPHEMERAL = 1 ∧ State.reset.get Reg.CTL_BOOT_HEALTHY = 0 ∧
  State.reset.get Reg.CTL_OWNER_STATE = 0 ∧ State.reset.loadState = 0 ∧ (∀ i < 64, State.reset.rd (Reg.CNT_EXPOSE i) = 0) ∧
  State.reset.power = 0 ∧ State.reset.tim.frc = 0 ∧ State.reset.get Reg.TIM_STS_STATE = 0 ∧ State.reset.rung = 0 ∧
  State.reset.pending = [] ∧ State.reset.evt.log = []

/-! ### Register access (00 R3 to R8; 02 R47 to R54) -/

/-- REG_WRITE by the ringmaster, none of its accesses waiting, to a register of the parser window that no lock covers: the
writable bits take the value, a written 1 clears a W1C bit, every other bit stays (R4, R5), and nothing else changes. A write of
the parser window that would change a locked RWL bit, of a register without W1C bits, leaves every locked bit, is counted in
CTL_FAULT_LOCK, and changes no other register (R5, R71). -/
def Obligations.RegisterWrites : Prop :=
  (∀ (s : State) (who : Who) (off : BitVec 28) (val : Word) (r : RegRow), Serves s who → NoneWaits s who.path → winOf off.toNat = .prs →
      off.toNat % 4 = 0 → rowOf off.toNat = some r → mlook 0 off.toNat s.locks = 0 →
      exec (.regWrite who off val) s = .next (s.wr off.toNat
        (((s.rd off.toNat &&& ~~~ w32 r.rw) ||| (val &&& w32 r.rw)) &&& ~~~ (val &&& w32 r.w1c)))) ∧
  (∀ (s : State) (who : Who) (off : BitVec 28) (val : Word) (r : RegRow), Serves s who → NoneWaits s who.path → winOf off.toNat = .prs →
      off.toNat % 4 = 0 → rowOf off.toNat = some r → Room s Reg.CTL_FAULT_LOCK → w32 r.w1c = 0 →
      (s.rd off.toNat ^^^ val) &&& (mlook 0 off.toNat s.locks &&& w32 r.rwl) ≠ 0 →
      ∃ t, exec (.regWrite who off val) s = .next t ∧ t.ctr Reg.CTL_FAULT_LOCK = s.ctr Reg.CTL_FAULT_LOCK + 1 ∧
        t.rd off.toNat &&& (mlook 0 off.toNat s.locks &&& w32 r.rwl) =
          s.rd off.toNat &&& (mlook 0 off.toNat s.locks &&& w32 r.rwl) ∧
        ∀ a, a ≠ off.toNat → t.rd a = s.rd a)

/-- MISALIGNED_ACCESS (R3): a write changes nothing and a read is answered 0, each counted in CTL_FAULT_ALIGN; so is a register
access at an offset that is no multiple of 4, when none of the path's accesses waits. A write of a path that is not ringmaster,
while another is (R53) or while nobody is (R54), to a register that R53 and R54 do not leave open to it, is discarded and
counted in CTL_FAULT_OWNER, when none of the path's accesses waits. DORMANT_ACCESS (R520): outside CSH, CTL, GAF and AON a read
of a dormant device answers 0 and a write is discarded; each is counted in GAF_DORMANT_ACCESS. -/
def Obligations.AccessesRefused : Prop :=
  (∀ (s : State) (who : Who), s.answers = true → NoneWaits s who.path →
      exec (.misalignedAccess who true) s = .next (s.inc Reg.CTL_FAULT_ALIGN) ∧
      exec (.misalignedAccess who false) s = .next ((s.inc Reg.CTL_FAULT_ALIGN).emit (.readData who.path 0)) ∧
      ∀ (off : BitVec 28) (val : Word), off.toNat % 4 ≠ 0 → exec (.regWrite who off val) s = .next (s.inc Reg.CTL_FAULT_ALIGN) ∧
        exec (.readLowWord who off) s = .next ((s.inc Reg.CTL_FAULT_ALIGN).emit (.readData who.path 0))) ∧
  (∀ (s : State) (who : Who) (off : BitVec 28) (val : Word), Awake s → s.isOwner who = false → NoneWaits s who.path →
      off.toNat % 4 = 0 → off.toNat < 0x1000000 → s.stallsAt off.toNat = false →
      (classOf off.toNat = .other ∨ (classOf off.toNat = .fwOwn ∧ who.path ≠ .firmware)) →
      exec (.regWrite who off val) s = .next (s.inc Reg.CTL_FAULT_OWNER)) ∧
  (∀ (s : State) (who : Who) (off : BitVec 28) (data : Word), s.running = true → s.dormant = true → NoneWaits s who.path →
      off.toNat % 4 = 0 → off.toNat < 0x1000000 → dormantOpen off.toNat = false →
      exec (.dormantAccess who off true data) s = .next (s.inc Reg.GAF_DORMANT_ACCESS) ∧
      exec (.dormantAccess who off false data) s = .next ((s.inc Reg.GAF_DORMANT_ACCESS).emit (.readData who.path 0)))

/-- A 64-bit register on BAR0 (R7), of those whose reads do nothing else and but for SPT_PORTS (log 73), when none of the path's
accesses waits: a read of its low word answers it and latches the high word and the register for the reading path; a read of its
high word answers the latched word when that path's last low-word read was of this register, and 0 otherwise. Neither changes
anything else. BAR2_READ (R553) of an awake device: the low word of a 64-bit register is shown and latched, apart from BAR0's
latches; its high word comes from that latch; a 32-bit place is shown; and what is not exposed shows 0. -/
def Obligations.WideReads : Prop :=
  (∀ (s : State) (who : Who) (off : BitVec 28), Awake s → NoneWaits s who.path → isLow off.toNat = true → off.toNat ≠ Reg.SPT_PORTS →
      off.toNat % 4 = 0 → off.toNat + 4 < 0x1000000 → isLow (off.toNat + 4) = false → specialRead who off.toNat = none →
      specialRead who (off.toNat + 4) = none → s.stallsAt off.toNat = false → s.stallsAt (off.toNat + 4) = false →
      measureAt off.toNat s = s → measureAt (off.toNat + 4) s = s →
      exec (.readLowWord who off) s = .next ((s.modPath who.path (fun x => { x with
        latch := { off := some off.toNat, high := s.shows who (off.toNat + 4) } })).emit (.readData who.path (s.shows who off.toNat))) ∧
      exec (.readHighWord who (off + 4)) s = .next (s.emit (.readData who.path
        (if (s.path who.path).latch.off = some off.toNat then (s.path who.path).latch.high else 0)))) ∧
  (∀ (s : State) (off : BitVec 22), Awake s → off.toNat % 4 = 0 →
      (bar2Wide off.toNat = true → off.toNat % 8 = 0 → exec (.bar2Read off) s = .next ((s.modCtl (fun c => { c with
        bar2 := { off := some off.toNat, high := s.bar2Word (off.toNat + 4) } })).emit (.bar2Data (s.bar2Word off.toNat)))) ∧
      (bar2Wide off.toNat = true → off.toNat % 8 ≠ 0 → exec (.bar2Read off) s = .next (s.emit (.bar2Data
        (if s.ctl.bar2.off = some (off.toNat - 4) then s.ctl.bar2.high else 0)))) ∧
      (bar2Wide off.toNat = false → exec (.bar2Read off) s = .next (s.emit (.bar2Data (s.bar2Word off.toNat)))) ∧
      (s.bar2Shows off.toNat = false → s.bar2Word off.toNat = 0))

/-- The service port (R50, R51), when none of its accesses waits and the access does not stall: a write is the service path's
register write; a read is answered with the marker 0x5C and the four bytes least significant first on SPI, and with the four
bytes on I2C. An SPI read that stalls answers 0xFF and waits (R52). A read that has waited for 2 ms ends with the marker 0xE1
and zeros on SPI, and with zeros on I2C, and is counted in CTL_FAULT_SVC; where none waits the timeout does nothing. The I2C
bus, of a port on which no access waits (R581): SDA low for 25 ms and 1 ms more brings nine clocks and a stop, counted in
CTL_FAULT_SVC; SDA that is released in that time changes nothing; SCL low for 25 ms ends the transaction in progress, a read
with four zero bytes. -/
def Obligations.ServicePort : Prop :=
  (∀ (s : State) (off data : Word), s.running = true → off.toNat < 0x1000000 → off.toNat % 4 = 0 →
      (NoneWaits s .svc → s.stallsAt off.toNat = false →
        exec (.spiTransaction 0x02 off data) s = exec (.regWrite Who.service (BitVec.ofNat 28 off.toNat) data) s ∧
        exec (.i2cTransaction true off data) s = exec (.regWrite Who.service (BitVec.ofNat 28 off.toNat) data) s ∧
        exec (.spiTransaction 0x0B off data) s =
          .next ((pathRead Who.service off.toNat s).2.emit (.svcBytes (0x5C :: toLe 4 (pathRead Who.service off.toNat s).1.toNat))) ∧
        exec (.i2cTransaction false off data) s =
          .next ((pathRead Who.service off.toNat s).2.emit (.svcBytes (toLe 4 (pathRead Who.service off.toNat s).1.toNat)))) ∧
      (let read (form : Form) : Held := { who := Who.service, form := form, off := off.toNat, write := none }
       let waits (form : Form) : State := s.modPath .svc (fun x => { x with held := [read form] })
       (NoneWaits s .svc → s.stallsAt off.toNat = true →
         exec (.spiTransaction 0x0B off data) s = .next ((waits .spi).emit (.svcBytes [0xFF])) ∧
         exec (.i2cTransaction false off data) s = .next (waits .i2c)) ∧
       (NoneWaits s .svc →
         exec (.svcReadTimeout true) (waits .spi) = .next ((s.inc Reg.CTL_FAULT_SVC).emit (.svcBytes [0xE1, 0, 0, 0, 0])) ∧
         exec (.svcReadTimeout false) (waits .i2c) = .next ((s.inc Reg.CTL_FAULT_SVC).emit (.svcBytes [0, 0, 0, 0])) ∧
         exec (.svcReadTimeout true) s = .next s ∧ exec (.svcReadTimeout false) s = .next s))) ∧
  (∀ s : State, s.running = true → NoneWaits s .svc →
      exec (.i2cSdaStuck true) s = .next ((s.inc Reg.CTL_FAULT_SVC).emit .i2cBusClear) ∧ exec (.i2cSdaStuck false) s = .next s ∧
      exec (.i2cSclStuck true) s = .next (s.emit (.svcBytes [0, 0, 0, 0])) ∧ exec (.i2cSclStuck false) s = .next s)

/-- The remote aperture (R49, R481, R482): the PCIe host's read, when no other is outstanding, joins its requests under the next
TAG and is sent as a REG_REQ to the device that its CTL_REMOTE_SEL names; a retry sends it again with the same TAG; with no
answer in 50 µs the read answers 0, ERR is set and FAB_REG_TIMEOUT counts. -/
def Obligations.RemoteAperture : Prop :=
  ∀ (s : State) (x : BitVec 24) (data : Word), Awake s → x.toNat % 4 = 0 → s.ctl.pcie.remote = [] →
    let r : RemoteReq := { dst := fieldOf Reg.CTL_REMOTE_SEL_ADDR s.ctl.pcie.remoteSel, tag := s.ctl.nextTag, off := x.toNat, write := false, data := 0 }
    let t := (s.modCtl (fun c => { c with nextTag := (c.nextTag + 1) % 2 ^ 24 })).modPath .pcie (fun y => { y with remote := [r] })
    exec (.remoteApertureAccess Who.host x false data) s = .next (sendCell t cellRegReq r.dst (requestBytes r)) ∧
    exec (.regReqRetry .pcie) t = .next (sendCell t cellRegReq r.dst (requestBytes r)) ∧
    exec (.remoteAccessTimeout .pcie) t = .next ((((t.inc Reg.FAB_REG_TIMEOUT).modPath .pcie (fun y => { y with
      remoteSel := y.remoteSel ||| 0x80000000#32 })).modPath .pcie (fun y => { y with remote := [] })).emit (.readData .pcie 0))

/-! ### Ownership, the loader, the mailbox and the firmware cluster (02) -/

/-- Ownership moves by CLAIM, CONFIRM and RELEASE on an awake device (R55, R56, R58): a CLAIM that comes alone makes the
claiming path ringmaster of an UNOWNED device and is counted as refused by any other; of two in one clock the one of lower rank
is served and the other is counted, and both are where a class 1 decision is applied in that clock; the target of an offer that
confirms becomes ringmaster, any other CONFIRM is counted; a RELEASE from the ringmaster leaves nobody, and from another path
changes nothing. What one write of CTL_OWNER leaves there, on a device whose start-up is at neither stage 6 nor stage 7 (R55,
R63): STATE is OWNED when a path is named and UNOWNED otherwise, the path and address are as named, the offer is gone, and SEQ
has counted a change of path or address. Where neither changes, no other register and nothing else changes. A hand-over,
CTL_HANDOVER not being locked (R55): the ringmaster's offer with a time-out makes the state OFFERED with its target, and an
offer with TIMEOUT_MS 0 withdraws it; an offer that expires lapses; in each the ringmaster stays, and only CTL_OWNER and
CTL_HANDOVER change. An expiry without an offer changes nothing. -/
def Obligations.OwnershipMoves : Prop :=
  (∀ (s : State) (who rival : Who), Awake s → pathCode who.path ≠ 0 → pathCode rival.path ≠ 0 →
      exec (.claim who.alone) s = .next (if s.get Reg.CTL_OWNER_STATE = 0 then setOwner s (pathCode who.path) (ownerAddr who)
        else s.inc Reg.CTL_CLAIM_REFUSED) ∧
      exec (.claim { who := who, rivals := [rival], decided := false }) s =
        .next ((claimOp (if claimRank rival < claimRank who then rival else who) s).inc Reg.CTL_CLAIM_REFUSED) ∧
      (decisionNear s = true → exec (.claim { who := who, rivals := [rival], decided := true }) s = .next (s.bump Reg.CTL_CLAIM_REFUSED 2)) ∧
      exec (.confirm who) s = .next (if s.get Reg.CTL_OWNER_STATE = 2 ∧
          whoIs who (s.get Reg.CTL_OWNER_OFFER_PATH) (s.get Reg.CTL_OWNER_OFFER_ADDR) = true
        then setOwner s (pathCode who.path) (ownerAddr who) else s.inc Reg.CTL_CLAIM_REFUSED) ∧
      exec (.release who) s = .next (if s.isOwner who then setOwner s 0 0 else s)) ∧
  (∀ (s : State) (code addr : Nat), code < 4 → addr < 64 → s.stage ≠ 6 → s.stage ≠ 7 →
      let same := s.get Reg.CTL_OWNER_OWNER_PATH = code ∧ s.get Reg.CTL_OWNER_OWNER_ADDR = addr
      let t := setOwner s code addr
      t.get Reg.CTL_OWNER_STATE = (if code = 0 then 0 else 1) ∧ t.get Reg.CTL_OWNER_OWNER_PATH = code ∧
      t.get Reg.CTL_OWNER_OWNER_ADDR = addr ∧ t.get Reg.CTL_OWNER_OFFER_PATH = 0 ∧ t.get Reg.CTL_OWNER_OFFER_ADDR = 0 ∧
      t.get Reg.CTL_OWNER_SEQ = (if same then s.get Reg.CTL_OWNER_SEQ else (s.get Reg.CTL_OWNER_SEQ + 1) % 4096) ∧
      (same → OnlyRegs [Reg.CTL_OWNER] s t)) ∧
  (∀ (s : State) (who : Who) (target : Path) (addr : BitVec 6) (ms : BitVec 16), Serves s who → mlook 0 Reg.CTL_HANDOVER s.locks = 0 →
      let stays (t : State) : Prop := t.get Reg.CTL_OWNER_OWNER_PATH = s.get Reg.CTL_OWNER_OWNER_PATH ∧
        t.get Reg.CTL_OWNER_OWNER_ADDR = s.get Reg.CTL_OWNER_OWNER_ADDR ∧ t.get Reg.CTL_OWNER_SEQ = s.get Reg.CTL_OWNER_SEQ ∧
        OnlyRegs [Reg.CTL_HANDOVER, Reg.CTL_OWNER] s t
      (ms ≠ 0 → ∃ t, exec (.handoverOffer who target addr ms) s = .next t ∧ t.get Reg.CTL_OWNER_STATE = 2 ∧
        t.get Reg.CTL_OWNER_OFFER_PATH = pathCode target ∧
        t.get Reg.CTL_OWNER_OFFER_ADDR = (if target = .fabric then addr.toNat else 0) ∧ stays t) ∧
      (∃ t, exec (.handoverWithdraw who) s = .next t ∧ exec (.handoverOffer who .firmware 0 0) s = .next t ∧
        t.get Reg.CTL_OWNER_STATE = (if s.get Reg.CTL_OWNER_STATE = 2 then 1 else s.get Reg.CTL_OWNER_STATE) ∧
        (s.get Reg.CTL_OWNER_STATE = 2 → t.get Reg.CTL_OWNER_OFFER_PATH = 0 ∧ t.get Reg.CTL_OWNER_OFFER_ADDR = 0) ∧ stays t) ∧
      (s.get Reg.CTL_OWNER_STATE = 2 → ∃ t, exec .offerExpiry s = .next t ∧ t.get Reg.CTL_OWNER_STATE = 1 ∧
        t.get Reg.CTL_OWNER_OFFER_PATH = 0 ∧ t.get Reg.CTL_OWNER_OFFER_ADDR = 0 ∧ stays t) ∧
      (s.get Reg.CTL_OWNER_STATE ≠ 2 → exec .offerExpiry s = .next s))

/-- Staging an image on an awake device (R74 to R77). OPEN from a path with the right to the kind, in IDLE, DONE or FAILED and
with a length in whole words, makes the path the holder and empties the staging SRAM. The holder's data goes to the word of
CTL_LOAD_ADDR, which moves on: to the staging SRAM, or for firmware to region 0 of external memory where it is served; a word
beyond the length is not kept. VERIFY from the holder in OPEN goes to VERIFYING with BUSY; CLOSE from the holder but in APPLYING
goes to IDLE, with ABORTED from VERIFYING; so does a second without a command, in OPEN and VERIFIED, with ABORTED. Every other
such command is counted in CTL_FAULT_OWNER and changes nothing else. -/
def Obligations.LoaderStages : Prop :=
  ∀ (s : State) (who : Who) (kind : BitVec 4) (len : BitVec 24) (data : Word), Awake s →
    let refused (c : Instr) : Prop := exec c s = .next (s.inc Reg.CTL_FAULT_OWNER)
    let i := s.get Reg.CTL_LOAD_ADDR_WORD
    let opens := (s.loadState = 0 ∨ s.loadState = 5 ∨ s.loadState = 6) ∧ s.mayOpen who kind.toNat = true ∧ pathCode who.path ≠ 0 ∧ len.toNat % 4 = 0
    (opens → ∃ t, exec (.loadOpen who kind len) s = .next t ∧ t.loadState = 1 ∧ t.get Reg.CTL_LOAD_STATUS_BUSY = 0 ∧
      t.get Reg.CTL_LOAD_STATUS_HOLDER = pathCode who.path ∧ t.loadKind = kind.toNat ∧
      t.get Reg.CTL_LOAD_STATUS_RESULT = s.get Reg.CTL_LOAD_STATUS_RESULT ∧
      OnlyRegs [Reg.CTL_LOAD_STATUS] { s with ctl := { s.ctl with holderAddr := who.addr, image := [], imageLen := len.toNat } } t) ∧
    (¬ opens → refused (.loadOpen who kind len)) ∧
    (s.loadState = 1 → s.holds who = true →
      (4 * i < s.ctl.imageLen → s.loadKind ≠ 1 → exec (.loadData who data) s = .next ((s.modCtl (fun c => { c with
        image := mstore 0 i data c.image })).set Reg.CTL_LOAD_ADDR_WORD (i + 1))) ∧
      (4 * i < s.ctl.imageLen → s.loadKind = 1 → s.served 0 = true → exec (.loadData who data) s = .next
        ((writePart s (s.rgnBase 0 * unitLines + i / 16) (4 * (i % 16)) (wordBytes [data])).set Reg.CTL_LOAD_ADDR_WORD (i + 1))) ∧
      (s.ctl.imageLen ≤ 4 * i ∨ (s.loadKind = 1 ∧ s.served 0 = false) →
        exec (.loadData who data) s = .next (s.set Reg.CTL_LOAD_ADDR_WORD (i + 1))) ∧
      (∃ t, exec (.loadVerify who) s = .next t ∧ t.loadState = 2 ∧ t.get Reg.CTL_LOAD_STATUS_BUSY = 1 ∧
        OnlyRegs [Reg.CTL_LOAD_STATUS] (takeFirst s .signature (signatureVerdict s (imageBytes s))) t)) ∧
    (s.loadState ≠ 4 → s.holds who = true → ∃ t, exec (.loadClose who) s = .next t ∧ t.loadState = 0 ∧
      t.get Reg.CTL_LOAD_STATUS_HOLDER = 0 ∧
      t.get Reg.CTL_LOAD_STATUS_RESULT = (if s.loadState = 2 then 13 else s.get Reg.CTL_LOAD_STATUS_RESULT) ∧
      OnlyRegs [Reg.CTL_LOAD_STATUS] { s with ctl := t.ctl } t ∧ t.ctl.image = s.ctl.image) ∧
    (s.holds who = false → refused (.loadData who data) ∧ refused (.loadVerify who) ∧ refused (.loadApply who) ∧ refused (.loadClose who)) ∧
    (s.loadState ≠ 1 → refused (.loadData who data) ∧ refused (.loadVerify who)) ∧
    (s.loadState ≠ 3 → refused (.loadApply who)) ∧ (s.loadState = 4 → refused (.loadClose who)) ∧
    ((s.loadState = 1 ∨ s.loadState = 3) → exec .loaderIdleTimeout s = .next (loaderIdle s 13)) ∧
    (s.loadState ≠ 1 → s.loadState ≠ 3 → exec .loaderIdleTimeout s = .next s)

/-- VERIFY, APPLY and their ends (R60, R62, R71, R76, R78): an image that passes the checks leaves the loader VERIFIED with OK;
the checks' first failing code, when it is not that of disputed takings, leaves it FAILED with that code, which for a script or
a scene raises the event of a failed load; a decision that was verified brings a fresh challenge either way; disputed takings of
a firmware signature raise CTL_VERDICT_DISAGREE. The holder's APPLY goes to APPLYING with BUSY and, for a script, writes its
records as register writes; for a decision of class 1 it moves ownership in one write. APPLY_DONE of firmware and of a decision
leaves DONE, or closes the loader of a holder that is not the new ringmaster; that of a script or a scene whose lane map breaks
the rules leaves FAILED with STRUCTURE. Where nothing is verified or applied the two ends do nothing. -/
def Obligations.LoaderVerifies : Prop :=
  ∀ (s : State) (who : Who), Awake s →
    let b := imageBytes s
    let dropped := dropTaking s .signature
    let applying := (s.set Reg.CTL_LOAD_STATUS_STATE 4).set Reg.CTL_LOAD_STATUS_BUSY 1
    (s.loadState = 2 → verifyCode s = 0 → s.loadKind ≠ 4 → ∃ t, exec .verifyDone s = .next t ∧ t.loadState = 3 ∧
      t.get Reg.CTL_LOAD_STATUS_RESULT = 0 ∧ t.get Reg.CTL_LOAD_STATUS_BUSY = 0 ∧
      OnlyRegs [Reg.CTL_LOAD_STATUS] { s with ctl := t.ctl } t) ∧
    (s.loadState = 2 → verifyCode s ≠ 0 → verifyCode s ≠ 6 →
      (s.loadKind = 1 → exec .verifyDone s = .next (loadEnd dropped 6 (verifyCode s))) ∧
      (s.loadKind = 2 ∨ s.loadKind = 3 → exec .verifyDone s = .next (raise0 (loadEnd dropped 6 (verifyCode s)) 0x0103 0))) ∧
    (s.loadState = 2 → verifyCode s ≠ 6 → s.loadKind = 4 →
      exec .verifyDone s = .next (loadEnd (newChallenge dropped) (if verifyCode s = 0 then 3 else 6) (verifyCode s))) ∧
    (s.loadState = 2 → verifyCode s = 6 → s.loadKind = 1 → exec .verifyDone s = .next (loadEnd (raise0 dropped 0x0101 0) 6 6)) ∧
    (s.loadState ≠ 2 → exec .verifyDone s = .next s) ∧
    (s.loadState = 3 → s.holds who = true →
      (s.loadKind = 1 → exec (.loadApply who) s = .next applying) ∧
      (s.loadKind = 2 → exec (.loadApply who) s = .next ((writeRecords b).foldl putRecord applying)) ∧
      (s.loadKind = 3 → exec (.loadApply who) s = .next ((writeRecords b).foldl putRecord (unlockScope (stopScope applying (scopeOf b)) b))) ∧
      (s.loadKind = 4 → byteAt b 5 = 1 → exec (.loadApply who) s = .next (setOwner applying (byteAt b 6) (byteAt b 7)))) ∧
    (s.loadState = 4 →
      (s.loadKind = 1 → exec .applyDone s = .next (loadEnd s 5 0)) ∧
      (s.loadKind = 2 ∨ s.loadKind = 3 → laneMapOk s = false → exec .applyDone s = .next (loadFail s 14)) ∧
      (s.loadKind = 2 → laneMapOk s = true → exec .applyDone s = .next (scriptDone s b)) ∧
      (s.loadKind = 3 → laneMapOk s = true → exec .applyDone s = .next (sceneDone s b)) ∧
      (s.loadKind = 4 → exec .applyDone s = .next
        (if byteAt b 5 = 1 ∧ holderIs s (byteAt b 6) (byteAt b 7) = false then loaderIdle s 0 else loadEnd s 5 0))) ∧
    (s.loadState ≠ 4 → exec .applyDone s = .next s)

/-- A mailbox command of the ringmaster, CTL_MBX_CMD not being locked (R84): with firmware running and none in progress, BUSY is
set and firmware is handed the opcode with the sixteen arguments; otherwise it is ignored and counted in CTL_MBX_REFUSED. This
holds for all seven commands. A write of CTL_MBX_CMD or of CTL_MBX_ARG by a path that is not ringmaster is counted in
CTL_FAULT_OWNER. -/
def Obligations.MailboxStarts : Prop :=
  ∀ (s : State) (who : Who) (tag : Byte), Serves s who → mlook 0 Reg.CTL_MBX_CMD s.locks = 0 →
    let started (op : Nat) (c : Instr) : Prop :=
      (s.flag Reg.CTL_MBX_STATUS_BUSY = false → s.ctl.fwRun = true → ∃ t, exec c s = .next t ∧
        t.flag Reg.CTL_MBX_STATUS_BUSY = true ∧ t.get Reg.CTL_MBX_CMD_OPCODE = op ∧ t.get Reg.CTL_MBX_CMD_TAG = tag.toNat ∧
        OnlyRegs [Reg.CTL_MBX_CMD, Reg.CTL_MBX_STATUS] { s with
          ctl := { s.ctl with mbxOp := op, mbxArgs := s.rds (Reg.CTL_MBX_ARG 0) 16 },
          out := .toFirmware op (s.rds (Reg.CTL_MBX_ARG 0) 16) :: s.out } t) ∧
      (s.flag Reg.CTL_MBX_STATUS_BUSY = true ∨ s.ctl.fwRun = false → exec c s = .next (s.inc Reg.CTL_MBX_REFUSED))
    started 1 (.mbxGetInfo who tag) ∧ started 2 (.mbxMkaDelegate who tag) ∧ started 3 (.mbxMkaRelease who tag) ∧
    started 4 (.mbxMkaStatus who tag) ∧ started 5 (.mbxPtpHandle who tag) ∧ started 6 (.mbxLogRead who tag) ∧
    started 7 (.mbxSelfTest who tag) ∧
    (∀ (p : Who) (i : Nat) (val : Word), i < 16 → s.isOwner p = false → NoneWaits s p.path →
      exec (.regWrite p (BitVec.ofNat 28 Reg.CTL_MBX_CMD) val) s = .next (s.inc Reg.CTL_FAULT_OWNER) ∧
      exec (.regWrite p (BitVec.ofNat 28 (Reg.CTL_MBX_ARG i)) val) s = .next (s.inc Reg.CTL_FAULT_OWNER))

/-- A mailbox command ends (R85, R86): after 1 s with TIMEOUT and no response; with FW_RESTARTED when the watchdog resets the
cluster; when firmware is done, with the code of arguments or an opcode that do not fit, else with firmware's own code, else
with OK, its effect and its response: MKA_DELEGATE adds its delegation and answers its handle, MKA_RELEASE removes the one it
names, PTP_HANDLE switches the ports it names, and the others change nothing. With no command in progress these ends do nothing
but reset the cluster. The watchdog stops firmware and leaves every delegation waiting; firmware that runs resumes one by its
handle and touches no other; firmware that has verified starts to serve, at stage 5 on to stage 6 where nobody owns the device
(R88, R89). What the end of a mailbox command leaves, CTL_MBX_DONE being at rung LOG and finding room (R85, R86): BUSY 0, DONE
1, the TAG of the command and the result in CTL_MBX_STATUS, the response words with zeros after them, and the record of
CTL_MBX_DONE in the log. -/
def Obligations.MailboxEnds : Prop :=
  (∀ (s : State) (code : BitVec 16) (rsp : List Word) (h : Word), s.running = true →
      let stopped := (s.modCtl (fun c => { c with
        fwRun := false, delegations := c.delegations.map (fun d => { d with live := false }) })).setFlag Reg.CTL_MBX_STATUS_FW_RUN false
      let started := (s.modCtl (fun c => { c with fwRun := true, fwStart := if c.fwRun then c.fwStart else s.clk })).setFlag
        Reg.CTL_MBX_STATUS_FW_RUN true
      (s.flag Reg.CTL_MBX_STATUS_BUSY = true →
        exec .mbxTimeout s = .next (mbxEnd s 5 []) ∧
        exec .fwWatchdogReset s = .next (mbxEnd stopped 4 []) ∧
        (mbxCode s ≠ 0 → exec (.mbxDone code rsp) s = .next (mbxEnd s (mbxCode s) [])) ∧
        (mbxCode s = 0 → code ≠ 0 → exec (.mbxDone code rsp) s = .next (mbxEnd s code.toNat [])) ∧
        (mbxCode s = 0 → exec (.mbxDone 0 rsp) s = .next (mbxEnd (mbxEffect s).2 0 ((mbxEffect s).1 ++ mbxResponse s rsp)))) ∧
      (s.ctl.mbxOp = 2 → mbxEffect s = ([w32 s.ctl.nextHandle], s.modCtl (fun c => { c with
        delegations := c.delegations ++ [askedDelegation s], nextHandle := (c.nextHandle + 1) % 2 ^ 32 }))) ∧
      (s.ctl.mbxOp = 3 → mbxEffect s = ([], s.modCtl (fun c => { c with
        delegations := c.delegations.filter (fun d => d.handle ≠ s.mbxArg 0) }))) ∧
      (s.ctl.mbxOp = 5 → mbxEffect s = ([], s.modCtl (fun c => { c with
        ptpClient := switchPorts c.ptpClient (s.mbxArg 0) (s.mbxArg 2), ptpLine := switchPorts c.ptpLine (s.mbxArg 1) (s.mbxArg 2) }))) ∧
      (s.ctl.mbxOp ≠ 2 → s.ctl.mbxOp ≠ 3 → s.ctl.mbxOp ≠ 5 → mbxEffect s = ([], s)) ∧
      (s.flag Reg.CTL_MBX_STATUS_BUSY = false →
        exec .mbxTimeout s = .next s ∧ exec (.mbxDone code rsp) s = .next s ∧ exec .fwWatchdogReset s = .next stopped) ∧
      (s.ctl.fwRun = true → exec (.fwDelegationResume h) s = .next (s.modCtl (fun c => { c with
        delegations := c.delegations.map (fun d => if d.handle = h.toNat then { d with live := true } else d) }))) ∧
      (s.ctl.fwRun = false → exec (.fwDelegationResume h) s = .next s) ∧
      (s.ctl.fwVerified = true → s.stage ≠ 5 → exec .fwRun s = .next started) ∧
      (s.ctl.fwVerified = true → s.stage = 5 → s.owned = false → exec .fwRun s = .next (started.toStage 6)) ∧
      (s.ctl.fwVerified = false → exec .fwRun s = .next s)) ∧
  (∀ (s : State) (code : Nat) (rsp : List Word), code < 65536 → s.evt.frozen = false → rungOf s 0x0105 = 0 → s.evt.log.length < 1024 →
      let t := mbxEnd s code rsp
      t.get Reg.CTL_MBX_STATUS_BUSY = 0 ∧ t.get Reg.CTL_MBX_STATUS_DONE = 1 ∧ t.get Reg.CTL_MBX_STATUS_TAG = s.get Reg.CTL_MBX_CMD_TAG ∧
      t.get Reg.CTL_MBX_STATUS_RESULT = code ∧ t.ctl.mbxOp = 0 ∧ (∀ i < 16, t.rd (Reg.CTL_MBX_RSP i) = rsp.getD i 0) ∧
      t.evt.log = s.evt.log ++ [logRec s 0 0x0105 0 0] ∧ t.cnt = s.cnt)

/-- Frames of the firmware (R23, R175, R202, R203): with firmware not running, or for a port that does not exist, nothing is
sent; a frame that is no MKA, its FCS appended, passes the lookup of the port it is for as if it had arrived there; an MKA takes
a management buffer and leaves its line port in clear, in a CONTROL capsule where that port carries Korone, or is dropped where
there is no buffer. -/
def Obligations.FirmwareFrames : Prop :=
  ∀ (s : State) (n : Fin 64) (fr : List Byte), s.running = true →
    let exist := s.portExists (if n.val < 32 then .client else .line) (n % 32)
    let whole := fr ++ fcsBytes fr
    (s.ctl.fwRun = false ∨ exist = false → exec (.fwFrameTx n fr) s = .next s) ∧
    (s.ctl.fwRun = true → exist = true → isMka n fr = false → n.val < 32 → exec (.fwFrameTx n fr) s =
      .next (enterFrame s { newFrame s .data .enc n (32 + n) whole with owner := 64 })) ∧
    (s.ctl.fwRun = true → exist = true → isMka n fr = false → 32 ≤ n.val → exec (.fwFrameTx n fr) s =
      .next (enterFrame s { newFrame s .data .dec n (n - 32) whole with owner := 64 })) ∧
    (s.ctl.fwRun = true → exist = true → isMka n fr = true →
      let bytes := if s.isKorone (n - 32) then capHead whole.length 2 ++ whole else whole
      let f : Frame := { newFrame s .mka .enc n n bytes with owner := 64, stage := .farm }
      let b := takeBuffer (s.addFrame f) f.id bytes.length (some clsMgmt)
      exec (.fwFrameTx n fr) s = .next (if b.1 then depart b.2 f.id else b.2))

/-! ### Reset, start-up and the always-on domain (02; 12; 14; 16) -/

/-- A reset, of a device that applies no update (R92, R419, R575): the ringmaster, the script, every register of the control
unit, the locks and the counters go back to their reset values, start-up is at stage 1 and the device is held in reset;
always-on registers, fuses, BBS, the owner banks and the waiting commands stay. RESET_ASSERT and the reset of a life-cycle
transition keep external memory and the retention store; a power-on reset and the loss of the core or the auxiliary supply lose
them; with VDD_AUX gone the device runs on battery, where RESET_ASSERT and further supplies change nothing. -/
def Obligations.ResetsDevice : Prop :=
  ∀ (s : State) (ball : ResetBall) (r : Rail), s.updState ≠ 2 →
    let kept (t : State) : Prop := t.pending = s.pending ∧ (∀ a, winOf a = .aon → t.rd a = s.rd a) ∧
      (∀ a, winOf a = .ctl → t.rd a = regReset a) ∧ t.locks = [] ∧ t.cnt = resetCnt ∧ t.vlt.otp = s.vlt.otp ∧
      t.vlt.bbs = s.vlt.bbs ∧ t.vlt.bank0 = s.vlt.bank0 ∧ t.vlt.bank1 = s.vlt.bank1 ∧ t.ctl.scriptActive = false ∧ t.stage = 1
    (s.ctl.cond ≠ .battery → ∃ t, exec (.resetAssert ball) s = .next t ∧ kept t ∧ t.ctl.cond = .reset ∧ t.mgd.ret = s.mgd.ret ∧
      t.mgd.lines = s.mgd.lines) ∧
    (s.running = true → s.vlt.lcReset = true → ∃ t, exec .lcSelfReset s = .next t ∧ kept t ∧ t.ctl.cond = .reset ∧
      t.mgd.ret = s.mgd.ret ∧ t.mgd.lines = s.mgd.lines) ∧
    (s.vlt.lcReset = false → exec .lcSelfReset s = .next s) ∧
    (∃ t, exec .powerOnReset s = .next t ∧ kept t ∧ t.ctl.cond = .reset ∧ t.mgd = resetMgd ∧ t.aon = { s.aon with onBattery := false }) ∧
    (s.ctl.cond ≠ .battery → ∃ t, exec (.railBelowReset .core) s = .next t ∧ kept t ∧ t.ctl.cond = .reset ∧ t.mgd = resetMgd) ∧
    (s.ctl.cond ≠ .battery → ∃ t, exec (.railBelowReset .aux) s = .next t ∧ kept t ∧ t.ctl.cond = .battery ∧ t.mgd = resetMgd ∧
      t.aon = { s.aon with onBattery := true }) ∧
    (s.running = true → r ≠ .core → r ≠ .aux → exec (.railBelowReset r) s = .next (railLow s r)) ∧
    (s.ctl.cond = .battery → exec (.resetAssert ball) s = .next s ∧ exec (.railBelowReset r) s = .next s)

/-- Reset is released (R89, R391, R533, R570, R576): at stage 1 in reset, with no rail in warning, the straps are sampled, the
boot mode follows them and the life-cycle state, the memory straps show in MGD_DDR_STS, and stage 2 begins; otherwise nothing
changes. At stage 2 the always-on check, with no evidence pending and no battery record, releases the rest of the die into stage
3, its rings waking; where a pending burn fails it stops start-up with the burn's event number and ALARM_N low, and reset holds.
Stages 3, 4 and 10 of a running device (R89, R91, R392, R408, R433): an OWNED device whose secret and fuses need nothing
finishes the vault's stage with its keys derived and goes on to stage 4; a start without entropy stops in stage 3 with the
event's number and halts; memory that trains and starts afresh, nothing being sealed, is unwritten, serves region 0 under its
ephemeral key, and goes on to stage 5; memory that fails to train stops in stage 4 with ALARM_N low; the ports of a device in
NORMAL mode at stage 9 bring it to stage 10. In other stages each of these changes nothing. -/
def Obligations.StartUpStages : Prop :=
  (∀ (s : State) (boot : BitVec 2) (ddr : BitVec 4) (ok : Bool), s.ctl.cond = .reset →
      (s.stage = 1 → s.gaf.dips = [] → ∃ t, exec (.resetRelease boot ddr) s = .next t ∧ t.stage = 2 ∧
        t.bootMode = bootModeOf boot.toNat (lcCode s.vlt.otp) ∧ t.ctl = { s.ctl with bootStrap := boot, ddrStrap := ddr } ∧
        t.get Reg.MGD_DDR_STS_SUBCH = ddr.toNat % 4 ∧ t.get Reg.MGD_DDR_STS_CAP = ddr.toNat / 4 ∧
        OnlyRegs [Reg.CTL_BOOT, Reg.MGD_DDR_STS] { s with ctl := t.ctl } t) ∧
      (s.stage ≠ 1 ∨ s.gaf.dips ≠ [] → exec (.resetRelease boot ddr) s = .next s) ∧
      (s.stage = 2 → s.aon.pendingBurn = 0 → s.aon.latch = 0 → ∃ t, exec (.aonCheckDone ok) s = .next t ∧ t.stage = 3 ∧
        t.running = true ∧ t.vlt = s.vlt ∧ t.evt = s.evt ∧ ∀ r < 32, mlook .asleep r t.frm.rings = .waking) ∧
      (s.stage = 2 → 0 < min s.aon.pendingBurn (64 - s.evidence) → s.frozenRails = false →
        ∃ t, exec (.aonCheckDone false) s = .next t ∧ t.stage = 15 ∧ t.get Reg.CTL_BOOT_FAIL_STAGE = 2 ∧
          t.get Reg.CTL_BOOT_FAIL = 0x040E ∧ t.ctl.cond = .reset ∧ t.alarmLow = true ∧ OnlyRegs [Reg.CTL_BOOT] s t) ∧
      (s.stage ≠ 2 → exec (.aonCheckDone ok) s = .next s)) ∧
  (∀ (s : State) (weak : Byte) (kat : BitVec 2) (rate : BitVec 2) (ok : Bool) (b : Bbs), s.running = true →
      (s.stage = 3 → s.frozenRails = false → lcCode s.vlt.otp = 3 → s.aon.vbatLost = false → s.vlt.bbs = some b → bbsStale s.vlt = false →
        weak = 0 → kat = 3 → counterEnd s.vlt = false →
        ∃ t, exec (.vaultStageDone true true weak kat) s = .next t ∧ t.stage = 4 ∧ t.flag Reg.VLT_STS_KEYS_READY = true ∧
          t.flag Reg.VLT_STS_ENTROPY_OK = true ∧ t.vlt.drbgRun = true ∧ t.vlt.root.value = s.vlt.otp.root.getD 0 ∧ t.vlt.secret.value = b.value ∧
          t.vlt.wrapKey.map Shares.value = some (wrapKeyOf t.vlt) ∧ t.vlt.blobKey.map Shares.value = some (blobKeyOf t.vlt) ∧
          t.vlt.idKey = some (identityOf t.vlt) ∧ t.vlt.otp = s.vlt.otp ∧ t.vlt.bbs = s.vlt.bbs) ∧
      (s.stage ≠ 3 → exec (.vaultStageDone ok ok weak kat) s = .next s) ∧
      (s.stage = 3 → s.evt.frozen = false → ∃ t, exec .entropyStartupTimeout s = .next t ∧ t.halted = true ∧
        t.get Reg.CTL_BOOT_FAIL_STAGE = 3 ∧ t.get Reg.CTL_BOOT_FAIL = 0x0601) ∧
      (s.stage = 4 → s.get Reg.MGD_DDR_STS_SUBCH ≠ 3 → s.get Reg.MGD_DDR_STS_CAP ≠ 3 → rate ≠ 0 → s.mgd.ret.isSealed = false →
        ∃ t, exec (.memoryInitDone rate ok) s = .next t ∧ t.stage = 5 ∧ t.rgnState 0 = 2 ∧
          t.get (Reg.MGD_RGN_STS_EPHEMERAL 0) = 1 ∧ t.mgd.lines = [] ∧ t.mgd.ret.isSealed = false ∧ t.asc.recs = [] ∧
          t.get Reg.MGD_DDR_STS_RATE = rate.toNat ∧ t.vlt.otp = s.vlt.otp) ∧
      (s.stage ≠ 4 → exec (.memoryInitDone rate ok) s = .next s) ∧
      (s.stage = 4 → s.flag Reg.MGD_STS_TRAINED = false → ∃ t, exec .ddrTrainTimeout s = .next t ∧ t.stage = 15 ∧
        t.get Reg.CTL_BOOT_FAIL_STAGE = 4 ∧ t.get Reg.CTL_BOOT_FAIL = 0x600A ∧ t.alarmLow = true) ∧
      (s.stage ≠ 4 ∨ s.flag Reg.MGD_STS_TRAINED = true → exec .ddrTrainTimeout s = .next s) ∧
      (s.stage = 9 → s.bootMode = 0 → exec .portsEnable s = .next (s.toStage 10)) ∧
      (s.stage ≠ 9 ∨ s.bootMode ≠ 0 → exec .portsEnable s = .next s))

/-- Tamper monitors and their evidence, of a running device (R526, R529, R532 to R534): a sample of a monitor that its EN leaves
off on main power ends its condition and counts nothing; an event that brings its condition up, with N at 1 or less, counts in
AON_EVENTS, is the first taking of its decision and takes its alarm; a sample without an event ends that condition and changes
no counter. A due evidence burn that reads back burns one bit and raises AON_EVIDENCE, the 64th also EVIDENCE_SATURATED; one
that does not read back raises AON_BURN_FAIL; with none due, or rails frozen, nothing is burnt. A second taking that finds the
opposite of a first verdict takes the alarm that the first did not, and raises AON_VERDICT_DISAGREE for the monitor at its
event's rung; one that agrees ends the decision. VBAT_LOW raises its event on entry only; a read of AON_LATCH answers and clears
it. What an alarm does (R530, R531): on main power it counts in AON_ALARMS, raises the event of its monitor and, with EVIDENCE
set, one burn falls due; on battery the battery-backed secret is erased, the monitor's bit stands in the battery record, the
alarm counts, and with EVIDENCE set pending evidence counts to 15 at most, with no event and no register written. -/
def Obligations.TamperRecorded : Prop :=
  (∀ (s : State) (m : Fin 9) (ms : Nat) (who : Who) (first : Bool), s.running = true →
      let again := { s with ctl := { s.ctl with doubled := [] } }
      let acted := if first then again else alarmMain again m
      let burnt := { s with aon := { s.aon with dueBurn := s.aon.dueBurn - 1 }, vlt := { s.vlt with otp := { s.vlt.otp with evidence := s.evidence + 1 } } }
      (s.aon.onBattery = false → s.flag (Reg.AON_MON_CFG_EN m) = false → ∀ event : Bool,
        exec (.monitorSample m event ms) s = .next (s.modMon m (fun x => { x with cond := false }))) ∧
      (s.aon.onBattery = false → s.flag (Reg.AON_MON_CFG_EN m) = true → s.get (Reg.AON_MON_CFG_N m) ≤ 1 →
        ((s.mon m).cond = false → ∃ x, exec (.monitorSample m true ms) s =
          .next (alarmMain (takeFirst ((s.inc (Reg.AON_EVENTS m)).modMon m (fun _ => x)) (.monitor m) true) m) ∧ x.cond = true) ∧
        ∃ x, exec (.monitorSample m false ms) s = .next (takeFirst (s.modMon m (fun _ => x)) (.monitor m) false) ∧ x.cond = false) ∧
      (s.aon.dueBurn ≠ 0 → s.frozenRails = false →
        (s.evidence < 63 → exec (.evidenceBurn true) s = .next (raise0 burnt 0x040C 0)) ∧
        (s.evidence = 63 → exec (.evidenceBurn true) s =
          .next (raise0 ((raise0 burnt 0x040C 0).setFlag Reg.VLT_STS_EVIDENCE_SATURATED true) 0x040D 0)) ∧
        (s.evidence ≠ 64 → exec (.evidenceBurn false) s = .next (raise0 s 0x040E 0))) ∧
      (s.aon.dueBurn = 0 ∨ s.frozenRails = true → ∀ ok : Bool, exec (.evidenceBurn ok) s = .next s) ∧
      (s.aon.onBattery = false → s.ctl.doubled = [{ decision := .monitor m, first := first, second := none }] →
        exec (.verdictSecondTaking (.monitor m) true) s = .next (raiseAt acted (rungOf acted (0x0401 + m.val)) 0x040A m.val 0 none) ∧
        exec (.verdictSecondTaking (.monitor m) false) s = .next again) ∧
      exec .vbatLow s = .next (if s.flag Reg.AON_STS_VBAT_LOW then s else raise0 (s.setFlag Reg.AON_STS_VBAT_LOW true) 0x040F 0) ∧
      exec (.aonLatchRead who) s = .next ((s.modAon (fun a => { a with latch := 0 })).emit (.readData who.path
        (word [(Reg.AON_LATCH_VALID, b2n (decide (s.aon.latch ≠ 0))), (Reg.AON_LATCH_MONITORS, s.aon.latch.toNat)])))) ∧
  (∀ (s : State) (m : Fin 9),
      (s.aon.onBattery = true → Room s Reg.AON_ALARMS → let t := alarm s m; t.vlt = { s.vlt with bbs := none } ∧
        t.aon.latch = s.aon.latch ||| BitVec.ofNat 9 (2 ^ m.val) ∧
        t.aon.pendingBurn = (if s.flag (Reg.AON_MON_CFG_EVIDENCE m) then min 15 (s.aon.pendingBurn + 1) else s.aon.pendingBurn) ∧
        t.ctr Reg.AON_ALARMS = s.ctr Reg.AON_ALARMS + 1 ∧ t.evt = s.evt ∧ t.regs = s.regs) ∧
      (s.aon.onBattery = false → let r := raise0 (s.inc Reg.AON_ALARMS) (0x0401 + m.val) 0
        alarm s m = if r.flag (Reg.AON_MON_CFG_EVIDENCE m) then { r with aon := { r.aon with dueBurn := r.aon.dueBurn + 1 } } else r))

/-! ### Serial lanes (03) -/

/-- Lanes are configured and powered (R99, R100, R110, R124, R125, R134): the ringmaster's write of LNx_CFG stores its bits and
the ports of the lane's group are settled; a write of LNx_PRBS_CFG, not locked, does so too, shows BAD_CFG where a generator or
checker is asked for what its rung does not allow, takes LOCKED from a checker that is off, and stops a pattern in progress; a
RESTART restarts a port, asked for in the window of its first lane and neither OFF nor in PRBS, and changes nothing otherwise; a
quad that a lane wants powers up, shows POWERED on its four lanes and counts GENERATION; one that no lane wants, or that is on,
stays as it is. What a restart and a failure leave on a port that is not in MISSION (R110, R111, R114, R117, R119, R129, R132):
a restart counts in LNx_RESTARTS of the first lane; every lane of the port is in the start state at its rung, shows the reason,
has neither a lane map nor a polarity found, and waits for 1 ms of signal; the last it does is to raise TRAIN_RESTART. A failure
takes every lane to FAILED at rung 0 with the reason and raises TRAIN_FAIL, and writes no other register before that. -/
def Obligations.LanesConfigured : Prop :=
  (∀ (s : State) (who : Who) (l : Lane) (val : Word) (u : LaneUnit) (q : Fin 8), Serves s who → l.idx.val < laneCount l.unit →
      let j := l.idx.val
      let b := lnBase l.unit j
      exec (.laneCfgWrite who l val) s = .next (noteMap s (settleLanes (storeReg (Reg.LN_CFG b) val s) l.unit j)) ∧
      (mlook 0 (Reg.LN_PRBS_CFG b) s.locks = 0 → ∃ t, exec (.lanePrbsCfgWrite who l val) s = .next (settleLanes t l.unit j) ∧
        OnlyRegs [Reg.LN_PRBS_CFG b, Reg.LN_PRBS_STS b] { s with lanes := t.lanes } t ∧
        t.rd (Reg.LN_PRBS_CFG b) = (storeReg (Reg.LN_PRBS_CFG b) val s).rd (Reg.LN_PRBS_CFG b) ∧
        t.flag (Reg.LN_PRBS_STS_BAD_CFG b) = (t.prbsOn l.unit j && !prbsValid (t.rd (Reg.LN_PRBS_CFG b))) ∧
        t.flag (Reg.LN_PRBS_STS_LOCKED b) = (s.flag (Reg.LN_PRBS_STS_LOCKED b) && t.flag (Reg.LN_PRBS_CFG_CHK_EN b)) ∧
        (t.lane l.unit j).gen = none) ∧
      (let restarts := s.portOf l.unit j = some j ∧ s.laneSt l.unit j ≠ 0 ∧ s.laneSt l.unit j ≠ 8
       (restarts → exec (.laneRestart who l) s = .next (restartPort s l.unit j 0)) ∧ (¬ restarts → exec (.laneRestart who l) s = .next s)) ∧
      (let powers := 4 * q.val < laneCount u ∧ s.quadOn u (4 * q) = false ∧ (quadLanes (4 * q)).any (fun i => s.wantsPower u i) = true
       (powers → exec (.quadPowered u q) s = .next (settleLanes ((quadLanes (4 * q)).foldl (fun s i => s.setFlag (Reg.LN_STS_POWERED (lnBase u i)) true)
          { s with ctl := { s.ctl with generation := s.ctl.generation + 1 },
                   lanes := { s.lanes with quads := ladd (laneKey u (4 * q) / 4) s.lanes.quads } }) u (4 * q))) ∧
       (¬ powers → exec (.quadPowered u q) s = .next s))) ∧
  (∀ (s : State) (u : LaneUnit) (k r : Nat), s.running = true → s.laneSt u k ≠ 6 → r < 256 →
      (Room s (Reg.LN_RESTARTS (lnBase u k)) → ∃ t, restartPort s u k r = raiseLane t u k 4 ∧
        t.ctr (Reg.LN_RESTARTS (lnBase u k)) = s.ctr (Reg.LN_RESTARTS (lnBase u k)) + 1 ∧ ∀ j ∈ s.portLanes u k,
          t.laneSt u j = s.startState u k ∧ t.get (Reg.LN_STS_RUNG (lnBase u j)) = s.startRung u k ∧
          t.get (Reg.LN_STS_FAIL_REASON (lnBase u j)) = r ∧ t.flag (Reg.LN_STS_MAP_VALID (lnBase u j)) = false ∧
          t.flag (Reg.LN_STS_RX_POL_INV (lnBase u j)) = false ∧ (t.lane u j).waitSignal = true) ∧
      (∃ t, failPort s u k r = raiseLane t u k 5 ∧ OnlyRegs ((s.portLanes u k).map (fun j => Reg.LN_STS (lnBase u j))) s t ∧
        ∀ j ∈ s.portLanes u k, t.laneSt u j = 7 ∧ t.get (Reg.LN_STS_RUNG (lnBase u j)) = 0 ∧ t.get (Reg.LN_STS_FAIL_REASON (lnBase u j)) = r))

/-- Signal, lock and clock (R110, R123, R129, R130, R132): loss of signal on a lane of an active port counts, raises LOS, clears
SIGNAL and CDR_LOCK, and restarts a port in TRAIN or MISSION with reason 6; on any other lane it changes nothing. Loss of lock
clears CDR_LOCK and latches LOST; on a lane of no port nothing else follows. Lock, where the quad is on and its clock is good,
sets CDR_LOCK and SIGNAL, and the port may leave DETECT; a signal that is stable ends the wait after a restart; with the quad
off both change nothing. A lost reference clock, not lost already, clears REFCLK_OK and raises REFCLK_LOST on every lane of its
group and restarts every port there that is neither OFF nor in PRBS, with reason 5; a restored one sets REFCLK_OK. -/
def Obligations.LaneSignals : Prop :=
  ∀ (s : State) (l : Lane) (k : Nat), s.running = true →
    let u := l.unit
    let j := l.idx.val
    let b := lnBase u j
    let loss := raiseLane (s.inc (Reg.LN_LOS_COUNT b)) u j 1
    (s.portOf u j = some k → s.portActive u k = true → ∃ t, exec (.los l) s =
        .next (if (t.laneSt u j = 4 ∨ t.laneSt u j = 6) ∧ t.inGap u k = false then restartPort t u k 6 else t) ∧
      OnlyRegs [Reg.LN_STS b, Reg.LN_CDR b] { loss with lanes := t.lanes } t ∧ t.flag (Reg.LN_STS_SIGNAL b) = false ∧
      t.flag (Reg.LN_STS_CDR_LOCK b) = false ∧ t.flag (Reg.LN_CDR_LOCK b) = false ∧ t.laneSt u j = loss.laneSt u j ∧
      (t.lane u j).rxReady = false) ∧
    (s.portOf u j = none ∨ (s.portOf u j = some k ∧ s.portActive u k = false) → exec (.los l) s = .next s) ∧
    (s.portOf u j = none → s.flag (Reg.LN_STS_CDR_LOCK b) = true → ∃ t, exec (.cdrUnlock l) s = .next t ∧
      OnlyRegs [Reg.LN_STS b, Reg.LN_CDR b] { s with lanes := t.lanes } t ∧ t.flag (Reg.LN_STS_CDR_LOCK b) = false ∧
      t.flag (Reg.LN_CDR_LOCK b) = false ∧ t.flag (Reg.LN_CDR_LOST b) = true) ∧
    (s.flag (Reg.LN_STS_CDR_LOCK b) = false → exec (.cdrUnlock l) s = .next s) ∧
    (s.quadOn u j = true → s.refclkOk u = true → ∃ t, exec (.cdrLock l) s =
        .next (match s.portOf u j with | some k => tryDetect t u k | none => t) ∧
      OnlyRegs [Reg.LN_STS b, Reg.LN_CDR b, Reg.LN_CTLE b, Reg.LN_DFE_VAL b 0, Reg.LN_DFE_VAL b 1, Reg.LN_DFE_VAL b 2]
        { s with draws := t.draws } t ∧
      t.flag (Reg.LN_STS_CDR_LOCK b) = true ∧ t.flag (Reg.LN_CDR_LOCK b) = true ∧ t.flag (Reg.LN_STS_SIGNAL b) = true) ∧
    (s.quadOn u j = false ∨ s.refclkOk u = false → exec (.cdrLock l) s = .next s) ∧
    (s.quadOn u j = true → s.portOf u j = none → exec (.signalStable l) s =
      .next ((s.setFlag (Reg.LN_STS_SIGNAL b) true).modLane u j (fun x => { x with waitSignal := false }))) ∧
    (s.quadOn u j = false → exec (.signalStable l) s = .next s) ∧
    (s.laneSt u k = 2 → s.refclkOk u = true → (s.portLanes u k).all (fun i => s.laneHeard u i) = true →
      (s.policy u k ≠ 2 → tryDetect s u k = portSet s u k 6 4) ∧
      (s.policy u k = 2 → tryDetect s u k = if (s.portLanes u k).all (fun i => (s.lane u i).ktfSeen) then portSet s u k 4 1 else s)) ∧
    (u ∉ s.lanes.refclkBad → exec (.refclkLost u) s = .next ((List.range (laneCount u)).foldl
      (fun s i => if s.portOf u i = some i ∧ s.laneSt u i ≠ 0 ∧ s.laneSt u i ≠ 8 then restartPort s u i 5 else s)
      ((List.range (laneCount u)).foldl (fun s i => raiseLane (s.setFlag (Reg.LN_STS_REFCLK_OK (lnBase u i)) false) u i 3)
        { s with lanes := { s.lanes with refclkBad := u :: s.lanes.refclkBad } }))) ∧
    (u ∈ s.lanes.refclkBad → exec (.refclkLost u) s = .next s) ∧
    (∃ t, exec (.refclkRestored u) s = .next t ∧ u ∉ t.lanes.refclkBad ∧
      OnlyRegs ((List.range (laneCount u)).map (fun i => Reg.LN_STS (lnBase u i))) { s with lanes := t.lanes } t ∧
      ∀ i < laneCount u, t.flag (Reg.LN_STS_REFCLK_OK (lnBase u i)) = true)

/-- The timers of bring-up and the IEEE clauses, on a lane of a port (R107, R110, R118, R119): a ladder port that makes no
progress in DETECT, TRAIN or STEP restarts with reason RUNG_TIMEOUT; a FAILED port begins again after a second; the gap ends at
the top rung in MISSION, and in STEP at the next rung of the common mask, in TRAIN, or with NO_TOP; training of an IEEE port
that completes leads to MISSION once no lane waits for signal, and training that times out fails it with reason 8. In NEGOTIATE,
on the first lane, a base page is answered with the port's own pages, a page that resolves to the medium leads to TRAIN once no
lane waits for signal, one that does not fails the port with AN_FAIL, as does a return to TRANSMIT DISABLE after a base page.
Elsewhere each changes nothing. -/
def Obligations.BringUpMoves : Prop :=
  ∀ (s : State) (l : Lane) (k : Nat) (page : AnPage), s.running = true → s.portOf l.unit l.idx = some k →
    let u := l.unit
    let j := l.idx.val
    let st := s.laneSt u j
    let fresh := modLanes s u (s.portLanes u k) (fun x => { x with
      validRun := 0, ktfSeen := false, peerReady := false, peerStep := 0, rxReady := false, sentStep := 0, gap := false, known := 0, errs := 0 })
    let heard := s.modLane u j (fun x => { x with anBase := true })
    let resolved (code : Nat) : State := heard.set (Reg.LN_TRAIN_STS_AN_HCD (lnBase u j)) code
    exec (.rungTimeout l) s = .next (if s.policy u k = 2 ∧ (st = 2 ∨ st = 4 ∨ st = 5) then restartPort s u k 1 else s) ∧
    exec (.failRetry l) s = .next (if st = 7 then beginPort s u k false else s) ∧
    (s.inGap u k = true → exec (.stepResume l) s = .next (portSet fresh u k 6 (s.topRung u k))) ∧
    (s.inGap u k = false → st = 5 → exec (.stepResume l) s = .next (match s.nextRung u k with
      | some r => portSet fresh u k 4 r
      | none => failPort fresh u k 2)) ∧
    (s.inGap u k = false → st ≠ 5 → exec (.stepResume l) s = .next s) ∧
    (s.policy u k ≠ 2 → st = 4 → exec (.ieeeTrainDone l) s = .next (if s.noWait u k then ieeeMission s u k
      else modLanes s u (s.portLanes u k) (fun x => { x with trained := true }))) ∧
    (s.policy u k ≠ 2 → st = 4 → exec (.ieeeTrainTimeout l) s = .next (failPort s u k 8)) ∧
    (s.policy u k = 2 ∨ st ≠ 4 → exec (.ieeeTrainDone l) s = .next s ∧ exec (.ieeeTrainTimeout l) s = .next s) ∧
    exec (.anTimerExpiry l) s = .next (if k = j ∧ st = 3 ∧ (s.lane u j).anBase = true then failPort s u j 7 else s) ∧
    (k ≠ j ∨ st ≠ 3 → exec (.anPageReceived l page) s = .next s) ∧
    (k = j → st = 3 →
      exec (.anPageReceived l .base) s = .next (sendPages heard u j) ∧
      exec (.anPageReceived l .resolvedOther) s = .next (failPort (resolved 3) u j 7) ∧
      (s.get (Reg.LN_CFG_MEDIUM (lnBase u j)) = 0 → exec (.anPageReceived l .resolvedCr) s = .next (failPort (resolved 2) u j 7)) ∧
      (s.get (Reg.LN_CFG_MEDIUM (lnBase u j)) ≠ 0 → exec (.anPageReceived l .resolvedKr) s = .next (failPort (resolved 1) u j 7)) ∧
      (s.get (Reg.LN_CFG_MEDIUM (lnBase u j)) = 0 → s.noWait u j = true →
        exec (.anPageReceived l .resolvedKr) s = .next (portSet (resolved 1) u j 4 4)) ∧
      (s.get (Reg.LN_CFG_MEDIUM (lnBase u j)) = 1 → s.noWait u j = true →
        exec (.anPageReceived l .resolvedCr) s = .next (portSet (resolved 2) u j 4 4)))

/-- Training frames of a ladder port (R111 to R115, R118): a lane in DETECT or TRAIN, whose transmitter is on and loops nothing
back, sends a frame, scrambled behind its marker, that names its lane, its port's width, its rung and the state of its request.
Received bits in which no marker is found, or whose frame is not valid for the rung, end the runs of valid frames and of
STEP_REQ and take RX_READY back; a frame of its marker, its own rung, a right CRC and no bit before it counts for what it says.
In other states neither sending nor receiving does anything. Test patterns and injection (R124, R126, R127), on a lane that is
not looped: a checker that runs locks on 1,024 bits that its pattern can hold, after Gray decoding and with INV undone, and on
nothing else. What a locked checker has compared is counted with its errors; 64 errors lose the lock, latch LOCK_LOST and raise
PRBS_LOCK_LOST, and fewer do not (the windows are the model's choice, log 80). An injection, asked for or due by RATE_EXP of 10
to 40, inverts and counts a burst of BURST bits, 1 to 64, where the lane sends its pattern, or mission data with MISSION set;
otherwise it does nothing. -/
def Obligations.LaneTests : Prop :=
  (∀ (s : State) (l : Lane) (k known errs : Nat) (lead : List Bool) (f : List Byte), s.running = true → s.portOf l.unit l.idx = some k →
      s.policy l.unit k = 2 → s.get (Reg.LN_CFG_LOOP (lnBase l.unit l.idx)) = 0 →
      let u := l.unit
      let j := l.idx.val
      let b := lnBase u j
      let st := s.laneSt u j
      let lost := s.modLane u j (fun x => { x with validRun := 0, peerStep := 0, rxReady := false })
      let ready (stepReq : Bool) : List Byte := ktfScramble (ktfBytes s u k j stepReq (s.ownHold u k))
      (st = 2 → s.laneSt u k = 2 → (s.lane u j).peerAck ≠ (s.lane u j).reqSeq → s.flag (Reg.LN_CFG_TX_DISABLE b) = false →
        exec (.ktfTx l) s = .next (sendBits s u j (s.get (Reg.LN_STS_RUNG b)) (bitsOf (ready false)))) ∧
      (st = 2 ∨ st = 4 ∨ st = 5 →
        (findKtf (s.get (Reg.LN_STS_RUNG b)) (lead ++ bitsOf f) = none → exec (.ktfReceived l lead f known errs) s = .next lost) ∧
        (s.flag (Reg.LN_STS_RX_POL_INV b) = false → s.adapts u j = false → f.length = 64 → be (f.take 4) = 0x1D2B6E47 →
          exec (.ktfReceived l [] f known errs) s =
            .next (if ktfValid s u j (ktfScramble f) then ktfTake s u k j (ktfScramble f) known errs else lost))) ∧
      (st ≠ 2 → st ≠ 4 → exec (.ktfTx l) s = .next s) ∧
      (st ≠ 2 → st ≠ 4 → st ≠ 5 → exec (.ktfReceived l lead f known errs) s = .next s)) ∧
  (∀ (s : State) (who : Who) (l : Lane) (syms : List Symbol) (n errs : Nat), Serves s who →
      s.get (Reg.LN_CFG_LOOP (lnBase l.unit l.idx)) = 0 →
      let u := l.unit
      let j := l.idx.val
      let b := lnBase u j
      let bits := if s.flag (Reg.LN_PRBS_CFG_INV b) then (symbolBits syms).map not else symbolBits syms
      let found := s.checks u j = true ∧ 1024 ≤ bits.length ∧ inPattern (s.get (Reg.LN_PRBS_CFG_PATTERN b)) bits = true
      let tallied := (s.bump (Reg.LN_PRBS_BITS b) n).bump (Reg.LN_PRBS_ERR b) errs
      let noted := if errs = 0 then tallied else tallied.modLane u j (fun x => { x with clean := some tallied.clk })
      let burst := (s.inc (Reg.LN_INJ_COUNT b)).emit (.inverted (laneNamed u j) (min 64 (max 1 (s.get (Reg.LN_INJ_BURST b)))))
      let e := s.get (Reg.LN_INJ_RATE_EXP b)
      (found → s.flag (Reg.LN_PRBS_STS_LOCKED b) = false → exec (.prbsLock { lane := l, symbols := syms }) s =
        .next ((s.modLane u j (fun x => { x with clean := some s.clk })).setFlag (Reg.LN_PRBS_STS_LOCKED b) true)) ∧
      (¬ found ∨ s.flag (Reg.LN_PRBS_STS_LOCKED b) = true → exec (.prbsLock { lane := l, symbols := syms }) s = .next s) ∧
      (s.flag (Reg.LN_PRBS_STS_LOCKED b) = true → errs < 64 → exec (.prbsLockLost l n errs) s = .next noted) ∧
      (s.flag (Reg.LN_PRBS_STS_LOCKED b) = true → 64 ≤ errs → exec (.prbsLockLost l n errs) s = .next (raiseLane
        ((noted.setFlag (Reg.LN_PRBS_STS_LOCKED b) false).setFlag (Reg.LN_PRBS_STS_LOCK_LOST b) true) u j 8)) ∧
      (s.flag (Reg.LN_PRBS_STS_LOCKED b) = false → exec (.prbsLockLost l n errs) s = .next s) ∧
      exec (.injOnce who l) s = .next (if s.injectable u j then burst else s) ∧
      exec (.injBurst l) s = .next (if 10 ≤ e ∧ e ≤ 40 ∧ s.injectable u j = true then burst else s))

/-! ### Ports (04, 05) -/

/-- The MAC receives a frame on pairs that are not looped (R140, R141, R202): it is counted in RX_FRAMES and RX_OCTETS, then
dropped and counted in the first case that applies: a runt, a frame over the limit, a PCS error or wrong FCS, MAC control; any
other frame enters the device at its index, client frames in encrypt direction and line frames in decrypt direction. Where the
window does not act, the port carries a stream or its lanes are not in MISSION, nothing changes. -/
def Obligations.EthernetReceives : Prop :=
  ∀ (s : State) (side : Side) (k : Fin 32) (fr : List Byte) (e : Bool), s.running = true →
    (∀ j ∈ s.portLanes (sideUnit side) k, s.get (Reg.LN_CFG_LOOP (lnBase (sideUnit side) j)) = 0) →
    let b := portBase side k
    let c := (s.inc (Reg.PORT_RX_FRAMES b)).bump (Reg.PORT_RX_OCTETS b) fr.length
    let hears := s.ethActs side k = true ∧ s.isStream k = false ∧ s.inMission (sideUnit side) k = true
    (¬ hears → exec (.macRxFrame side k fr e) s = .next s) ∧
    (hears → exec (.macRxFrame side k fr e) s = .next (
      if fr.length < 64 then c.inc (Reg.PORT_RX_RUNT b)
      else if c.rxLimit side k < fr.length then c.inc (Reg.PORT_RX_OVERSIZE b)
      else if e = true ∨ fcsOk fr = false then c.inc (Reg.PORT_RX_FCS_ERR b)
      else if be (sub fr 12 2) = 0x8808 then c.inc (Reg.PORT_RX_MACCTL b)
      else enterFrame c (newFrame c .data (match side with | .client => .enc | .line => .dec) (portIdx side k) (portIdx (otherSide side) k) fr)))

/-- Link state of an Ethernet port (R138, R145, R147 to R152): a PCS that is aligned, its lanes in MISSION, shows block lock and
alignment, and under IEEE_FORCED without training finds its polarity; a loss, a deskew that fails and a received fault take the
port down at once, each with its own event, once for a fault that goes on; the up conditions held for 1 ms bring LINK_UP; fault
mirroring follows the paired port, and waits for the frame that is leaving; a FEC interval counts, and sets DEGRADED when a lane
is above SET_TH, with its event on entry, and clears it when none is above CLEAR_TH. Outside an acting window none of these
changes anything. -/
def Obligations.EthernetLinks : Prop :=
  ∀ (s : State) (side : Side) (k : Fin 32) (corr uncorr : Nat) (syms : List Nat) (cause : PcsCause) (fault : RsFault), s.running = true →
    let b := portBase side k
    let u := sideUnit side
    let m := portIdx side k
    let event (s : State) (nn : Nat) : State := raise s (ethEvent side nn) k 0 (some k.val)
    let polar := if s.policy u k = 1 && s.flag (Reg.LN_TRAIN_TRAIN_OFF (lnBase u k)) then (s.portLanes u k).foldl (fun s j => ieeePolarity s u j) s else s
    let c := ((s.bump (Reg.PORT_FEC_CORR_CW b) corr).bump (Reg.PORT_FEC_UNCORR_CW b) uncorr).bump (Reg.PORT_FEC_CORR_SYM b) (syms.foldl (· + ·) 0)
    let above := syms.any (fun n => decide (c.get (Reg.PORT_FEC_CFG_SET_TH b) < n))
    (s.ethActs side k = true →
      (s.inMission u k = true → exec (.pcsAligned side k) s = .next
        (((polar.setFlag (Reg.PORT_STS_BLOCK_LOCK b) true).setFlag (Reg.PORT_STS_ALIGNED b) true).setFlag (Reg.PORT_STS_HI_SER b) false)) ∧
      (s.inMission u k = false → exec (.pcsAligned side k) s = .next s) ∧
      exec (.pcsAlignLost side k .blockLock) s =
        .next (ethDown ((s.setFlag (Reg.PORT_STS_BLOCK_LOCK b) false).setFlag (Reg.PORT_STS_ALIGNED b) false) side k) ∧
      exec (.pcsAlignLost side k .align) s = .next (ethDown (s.setFlag (Reg.PORT_STS_ALIGNED b) false) side k) ∧
      exec (.pcsAlignLost side k .hiSer) s = .next (ethDown (event (s.setFlag (Reg.PORT_STS_HI_SER b) true) 6) side k) ∧
      exec (.deskewFail side k) s = .next (ethDown (event (s.setFlag (Reg.PORT_STS_ALIGNED b) false) 5) side k) ∧
      exec (.rsFaultRx side k .none) s = .next (s.set (Reg.PORT_STS_FAULT_RX b) 0) ∧
      (let t := s.set (Reg.PORT_STS_FAULT_RX b) 1
       exec (.rsFaultRx side k .localFault) s = .next (ethDown (if s.get (Reg.PORT_STS_FAULT_RX b) = 1 then t else event t 3) side k)) ∧
      (let t := stompCut (s.set (Reg.PORT_STS_FAULT_RX b) 2) m
       exec (.rsFaultRx side k .remoteFault) s = .next (ethDown (if s.get (Reg.PORT_STS_FAULT_RX b) = 2 then t else event t 4) side k)) ∧
      exec (.linkUp side k) s = .next (if s.ethReady side k = true ∧ s.flag (Reg.PORT_STS_LINK_UP b) = false
        then event (s.setFlag (Reg.PORT_STS_LINK_UP b) true) 1 else s) ∧
      exec (.faultMirrorStart side k) s = .next (if s.get (Reg.PORT_CFG_FAULT_MIRROR b) = 1 ∧ s.pairDown side k = true
        then (if (mget m s.sch.sending).isSome then { s with sch := { s.sch with mirrorDue := ladd m s.sch.mirrorDue } }
          else s.setFlag (Reg.PORT_STS_MIRRORING b) true) else s) ∧
      exec (.faultMirrorStop side k) s = .next (if s.pairDown side k then s
        else State.setFlag { s with sch := { s.sch with mirrorDue := ldel m s.sch.mirrorDue } } (Reg.PORT_STS_MIRRORING b) false) ∧
      exec (.fecInterval side k corr uncorr syms) s = .next (
        if above then (if c.flag (Reg.PORT_STS_DEGRADED b) then c else event (c.setFlag (Reg.PORT_STS_DEGRADED b) true) 7)
        else if syms.all (fun n => decide (n ≤ c.get (Reg.PORT_FEC_CFG_CLEAR_TH b))) then c.setFlag (Reg.PORT_STS_DEGRADED b) false else c)) ∧
    (s.ethActs side k = false → exec (.pcsAligned side k) s = .next s ∧ exec (.pcsAlignLost side k cause) s = .next s ∧
      exec (.deskewFail side k) s = .next s ∧ exec (.rsFaultRx side k fault) s = .next s ∧ exec (.linkUp side k) s = .next s ∧
      exec (.faultMirrorStart side k) s = .next s ∧ exec (.faultMirrorStop side k) s = .next s ∧
      exec (.fecInterval side k corr uncorr syms) s = .next s)

/-- Codeword lock and lane frames of a lane in MISSION that is not looped (R157, R164 to R168): without lock, a word that
decodes counts for its boundary, of which at most 32 are tested, the third in a row gives lock there, and one that does not
decode begins its boundary anew; in lock, at the lane's boundary, a corrected word and one that does not decode are counted, and
the fourth of these in a row loses lock. A lane frame on a lane without lock is nothing; a valid head that confirms no candidate
of a hunting lane is a new one, and a candidate's second confirmation brings SYNC; a third miss in a row raises LOF, is counted
and loses SYNC. What a lane frame changes settles the port's alignment, or restarts it when the lanes contradict their map. The
up conditions held for 1 ms bring LINK_UP. A client lane carries no Korone codewords. Client signal fail and degrade (R193,
R195): CSF is sent from 1 µs after the paired client port of a Korone port with FAULT_MIRROR set went down, until 1 µs after it
came up; a 1 ms interval with more BIP errors on a lane than SET_TH sets DEGRADED, and raises KOR_DEGRADE on entry, one with
CLEAR_TH or fewer on every lane clears it, and each lane's interval count starts again. A port that is no Korone port does none
of this. -/
def Obligations.KoroneLanes : Prop :=
  (∀ (s : State) (j k : Fin 32) (w : HeardWord) (place : Fin 131072) (head body : List Byte) (skew : Nat), s.running = true →
      s.portOf .lnl j = some k.val → s.korActive k j = true → s.get (Reg.LN_CFG_LOOP (lnBase .lnl j)) = 0 → s.periodIn k = none →
      let l := s.korLane j
      let p := w.place.val
      let n := mlook 0 p l.goods
      let word : Instr := .korCodeword { unit := .lnl, idx := j } w
      let frame : Instr := .korLaneFrameRx j place head body skew
      let width := s.laneWidth .lnl k
      let settled (t : State) : State :=
        takePeriod (if t.mapMismatch k then laneRestartOp .lnl k (raiseKor (settleAlign t k) k 5 0) else settleAlign t k) k
      (l.locked = false → exec word s = .next (s.modKorLane j (fun x =>
        if (rsReceive w.bits).1 = .uncorrectable then { x with goods := mdel p x.goods }
        else if n = 2 then { x with locked := true, lockAt := p, goods := [], badRun := 0 }
        else if 32 ≤ x.goods.length ∧ n = 0 then x else { x with goods := mput p (n + 1) x.goods }))) ∧
      (l.locked = true → p = l.lockAt → exec word s = .next (match (rsReceive w.bits).1 with
        | .clean => s.modKorLane j (fun x => { x with badRun := 0 })
        | .corrected => (s.inc (Reg.KOR_FEC_CORR_CW k)).modKorLane j (fun _ => { l with badRun := 0 })
        | .uncorrectable => if l.badRun = 3 then loseLock (s.inc (Reg.KOR_FEC_UNCORR_CW k)) k j
            else (s.inc (Reg.KOR_FEC_UNCORR_CW k)).modKorLane j (fun _ => { l with badRun := l.badRun + 1 }))) ∧
      exec (.korCodeword { unit := .lnc, idx := j } w) s = .next s ∧
      (l.locked = false → exec frame s = .next s) ∧
      (l.locked = true → l.inSync = false → headValid width head = true → (∀ c ∈ l.cands, c.place ≠ place.val) → l.cands.length < 8 →
        exec frame s = .next (settled (s.modKorLane j (fun x => { x with
          cands := x.cands ++ [{ place := place.val, count := w32 (be (sub head 0 4)), laneId := head.getD 4 0, confirmed := 0 }] })))) ∧
      (l.locked = true → l.inSync = false → headValid width head = true → ∀ count : Word, w32 (be (sub head 0 4)) = count + 1 →
        l.cands = [{ place := place.val, count := count, laneId := head.getD 4 0, confirmed := 1 }] → ∃ t, exec frame s = .next (settled t) ∧
          (t.korLane j).inSync = true ∧ (t.korLane j).place = place.val ∧ (t.korLane j).laneId = head.getD 4 0) ∧
      (l.locked = true → l.inSync = true → place.val = l.place → l.misses = 2 → headValid width head = false → exec frame s =
        .next (settled ((raiseKor (leaveSync s k j) k 3 j).inc (Reg.KOR_LOF_COUNT k)))) ∧
      exec (.korLinkUp k) s = .next (if s.portExists .line k = true ∧ s.isKorone k = true ∧ s.korReady k = true ∧
        s.flag (Reg.KOR_STS_LINK_UP k) = false then raise (s.setFlag (Reg.KOR_STS_LINK_UP k) true) 0x1A01 k 0 (some k.val) else s)) ∧
  (∀ (s : State) (k : Fin 32), s.running = true →
      let js := s.portLanes .lnl k
      let t := js.foldl (fun s j => s.modKorLane j (fun l => { l with bipErrs := 0 })) s
      exec (.csfStart k) s = .next (if s.isKorone k = true ∧ s.flag (Reg.KOR_CFG_FAULT_MIRROR k) = true ∧ s.portUp .client k = false
        then s.modKor k (fun p => { p with csf := true }) else s) ∧
      exec (.csfStop k) s = .next (if s.isKorone k = true ∧ s.portUp .client k = true then s.modKor k (fun p => { p with csf := false }) else s) ∧
      (s.isKorone k = false → exec (.korDegradeInterval k) s = .next s) ∧
      (s.isKorone k = true → exec (.korDegradeInterval k) s = .next (
        if js.any (fun j => decide (s.get (Reg.KOR_BIP_CFG_SET_TH k) < (s.korLane j).bipErrs)) then
          (if s.flag (Reg.KOR_STS_DEGRADED k) then t else raise (t.setFlag (Reg.KOR_STS_DEGRADED k) true) 0x1A09 k 0 (some k.val))
        else if js.all (fun j => decide ((s.korLane j).bipErrs ≤ s.get (Reg.KOR_BIP_CFG_CLEAR_TH k))) then
          t.setFlag (Reg.KOR_STS_DEGRADED k) false else t)))

/-- Stream mode on pairs that are not looped (R184, R188 to R192): a period on an aligned stream port is counted, or delivered
as local fault, when its lanes say NO_CONTENT, is local fault on a port that is not up, and is otherwise held with the blocks
that its justification selects, its decision counted and shown; the tag decides the one held: no association for it, or a wrong
tag, puts error control blocks in its place, counted and raised, a right one delivers it deciphered, and one whose key is not
resident waits while the page-in starts. A port with no usable association sends its lane frames without content, counts
KOR_NO_CONTENT and loses the blocks that waited; FRAME_COUNT counts every period. On a port out of MISSION, or that carries
frames or is not aligned, the commands that do not fit it change nothing. -/
def Obligations.StreamPeriods : Prop :=
  ∀ (s : State) (k : Fin 32) (count skey : Word) (spn : BitVec 64) (jc : List Byte) (bs : List (BitVec 66)) (tag : BitVec 128) (p : Period),
    s.running = true → (∀ j ∈ s.portLanes .lnl k, s.get (Reg.LN_CFG_LOOP (lnBase .lnl j)) = 0) →
    let fits := s.korActs k = true ∧ s.isStream k = true ∧ s.flag (Reg.KOR_STS_ALIGNED k) = true
    let fails (t : State) : State := raise ((t.inc (Reg.KOR_STREAM_TAG_FAIL k)).emit (.errorBlocks k p.cipher.length)) 0x1A0B k 0 (some k.val)
    let decided (t : State) : State := t.modKor k (fun q => { q with held := [] })
    (¬ fits → ∀ none : Bool, exec (.streamPeriodRx k count skey spn jc none bs) s = .next s) ∧
    (fits → (∀ q ∈ (s.korPort k).held, q.tag.isSome) →
      exec (.streamPeriodRx k count skey spn jc true bs) s = .next ((s.inc (Reg.KOR_NO_CONTENT k)).emit (.localFault k)) ∧
      (s.portUp .line k = false → exec (.streamPeriodRx k count skey spn jc false bs) s = .next (s.emit (.localFault k))) ∧
      (s.portUp .line k = true →
        let t := noteDecision s k (majority jc).1 (majority jc).2
        let w := t.laneWidth .lnl k
        let base := (bs.drop w).take (w * baseSlots count.toNat)
        let cipher := match (majority jc).1 with
          | .none => base
          | .positive => base.take (base.length - w)
          | .negative => bs.take w ++ base
        exec (.streamPeriodRx k count skey spn jc false bs) s = .next (t.modKor k (fun q => { q with
          held := q.held ++ [{ frameCount := count, skey := skey, spn := spn, cipher := cipher, tag := none }] })))) ∧
    ((s.korPort k).held = [p] → p.tag = none →
      (s.streamRx k p.skey = none → exec (.streamTagVerify k tag) s = .next (decided (fails s))) ∧
      (∀ a, s.streamRx k p.skey = some a →
        (s.slotOf a = none → exec (.streamTagVerify k tag) s =
          .next ((startPage s a).modKor k (fun q => { q with held := [{ p with tag := some tag }] }))) ∧
        (∀ i x, s.slotOf a = some (i, x) → s.ready a = true →
          let t := s.bump Reg.FRM_OPS_DEC (periodOps p.cipher.length)
          exec (.streamTagVerify k tag) s = .next (decided (
            if periodTag (t.asRec a) x.key.value p.skey p.spn.toNat p.frameCount p.cipher = tag then
              (rxVerified (touch t a) a).emit (.stream k (periodCrypt (t.asRec a) x.key.value p.skey p.spn.toNat p.cipher))
            else fails (countTagFail t a)))))) ∧
    ((s.korPort k).held = [] → exec (.streamTagVerify k tag) s = .next s) ∧
    (s.korActs k = true → s.inMission .lnl k = true → ∃ t, exec (.korFramePeriodTx k bs) s = .next t ∧
      (t.korPort k).txCount = (s.korPort k).txCount + 1 ∧
      (s.isStream k = true → s.flag (Reg.ASC_PORT_STREAM_TX_VALID k) = false → Room s (Reg.KOR_NO_CONTENT k) →
        (t.korPort k).fifo = [] ∧ t.get (Reg.KOR_STREAM_STS_JC_TX k) = 0 ∧ t.asc = s.asc ∧
        t.ctr (Reg.KOR_NO_CONTENT k) = s.ctr (Reg.KOR_NO_CONTENT k) + 1)) ∧
    (s.korActs k = false ∨ s.inMission .lnl k = false → exec (.korFramePeriodTx k bs) s = .next s)

/-- Capsules of an aligned frame-mode port whose lanes are not looped, no bytes waiting (R171 to R181): in HUNT, a whole capsule
with a plausible head and a plausible head behind it brings SYNC and is itself skipped, and bytes among which no plausible head
stands are passed over; in SYNC a whole capsule whose head and next head are valid is delivered: an idle head and an EXTRA count
in RX_EXTRA, every other capsule counts, one that an ABORT head follows counts in RX_ABORTED, one out of range in RX_MALFORMED,
and a DATA capsule enters the device in decrypt direction; a head that cannot be taken loses SYNC, counted in HEAD_LOST and
SKIPPED with CAP_LOST. The transmitter sends, where no frame is being sent, an idle head. The cue channel, on a Korone port
whose lanes are not looped (R196, R197, R584): SEND, its control not locked, of 1 to 256 bytes takes the message and its CRC-32
and sets BUSY, and while one waits it is counted in CTL_FAULT_BUSY; the frame's end clears BUSY once all its bytes have been
sent; a received cue with a wrong length or CRC, or a fifth one, is dropped and counted; one that is right and finds cells is
kept, and raises CUE_RX when it is the first; POP frees the first and moves on to the next, which raises CUE_RX too; with none
it changes nothing. -/
def Obligations.CapsulesAndCues : Prop :=
  (∀ (s : State) (k : Fin 32) (cap : List Byte) (via : Bool) (next : Word), s.running = true → s.korActs k = true → s.isStream k = false →
      (∀ j ∈ s.portLanes .lnl k, s.get (Reg.LN_CFG_LOOP (lnBase .lnl j)) = 0) →
      let nx := toBe 4 next.toNat
      let whole := cap.length = headLength cap + 4
      let waiting := s.flag (Reg.KOR_STS_ALIGNED k) = true ∧ (s.korPort k).rx = [] ∧ (s.korPort k).ptr = none
      let c := (s.inc (Reg.KOR_RX_CAPSULES k)).bump (Reg.KOR_RX_OCTETS k) (headLength cap + 4)
      (waiting → (s.korPort k).cap = .hunt →
        (whole → plausible s k cap = true → plausible s k nx = true → Room s (Reg.KOR_RX_SKIPPED k) →
          ∃ t, exec (.korCapsuleRx k cap false next) s = .next t ∧ (t.korPort k).cap = .sync ∧ (t.korPort k).rx = [] ∧
            t.flag (Reg.KOR_STS_CAP_SYNC k) = true ∧ t.ctr (Reg.KOR_RX_SKIPPED k) = s.ctr (Reg.KOR_RX_SKIPPED k) + 1 ∧ t.sch = s.sch) ∧
        ((∀ d, d < cap.length + 1 → plausible s k (sub (cap ++ nx) d 4) = false) → ∃ t, exec (.korCapsuleRx k cap via next) s = .next t ∧
          (t.korPort k).cap = .hunt ∧ t.cnt = s.cnt ∧ t.sch = s.sch ∧ t.regs = s.regs)) ∧
      (waiting → (s.korPort k).cap = .sync → whole → capValid cap = true → capValid nx = true →
        exec (.korCapsuleRx k cap via next) s = .next
          ((capDeliver (s.modKor k (fun p => { p with rx := nx })) k cap (decide (headType nx = 3))).modKor k (fun p => { p with rx := [] }))) ∧
      (∀ void : Bool, (headLength cap = 0 → headType cap = 1 → capDeliver s k cap void = s.inc (Reg.KOR_RX_EXTRA k)) ∧
        (headLength cap ≠ 0 → headType cap = 1 → capDeliver s k cap false = c.inc (Reg.KOR_RX_EXTRA k)) ∧
        (headType cap = 0 → capDeliver s k cap true = c.inc (Reg.KOR_RX_ABORTED k)) ∧
        (headType cap = 0 → capInRange c k cap = false → capDeliver s k cap false = c.inc (Reg.KOR_RX_MALFORMED k)) ∧
        (headType cap = 0 → capInRange c k cap = true → capDeliver s k cap false = enterFrame c (newFrame c .data .dec (32 + k) k cap)) ∧
        (headType cap = 2 → capInRange (c.inc (Reg.KOR_RX_CONTROL k)) k cap = true → fcsOk (cap.drop 4) = false →
          capDeliver s k cap false = (c.inc (Reg.KOR_RX_CONTROL k)).inc (Reg.KOR_RX_MALFORMED k))) ∧
      ((s.korPort k).cap = .sync → 4 ≤ (s.korPort k).rx.length → capValid ((s.korPort k).rx.take 4) = false →
        s.flag (Reg.KOR_HUNT_CFG_HEAD_FIX k) = false → delinStep k s = some (raise
          (((((s.modKor k (fun p => { p with rx := p.rx.drop 0, ptr := p.ptr.bind (fun q => if 0 ≤ q then some (q - 0) else none) })).modKor k
            (fun p => { p with cap := .hunt })).setFlag (Reg.KOR_STS_CAP_SYNC k) false).inc (Reg.KOR_HEAD_LOST k)).inc (Reg.KOR_RX_SKIPPED k))
          0x1A08 k 0 (some k.val))) ∧
      (s.flag (Reg.KOR_STS_ALIGNED k) = false → exec (.korCapsuleRx k cap via next) s = .next s) ∧
      (s.inMission .lnl k = true → mget (32 + k.val) s.sch.sending = none → exec (.korCapsuleTx k) s = .next (s.emit (.capsule k (capHead 0 1)))) ∧
      (s.inMission .lnl k = false → exec (.korCapsuleTx k) s = .next s)) ∧
  (∀ (s : State) (who : Who) (k : Fin 32) (msg : List Byte), Serves s who → s.korActs k = true → mlook 0 (Reg.KOR_CUE_TX_CTRL k) s.locks = 0 →
      (∀ j ∈ s.portLanes .lnl k, s.get (Reg.LN_CFG_LOOP (lnBase .lnl j)) = 0) →
      let len := s.get (Reg.KOR_CUE_TX_CTRL_LEN k)
      let right := 5 ≤ msg.length ∧ msg.length ≤ 260 ∧ msg.drop (msg.length - 4) = toBe 4 (crc32 (noFcs msg)).toNat
      let q := (s.korPort k).cueRx
      let cells := ((noFcs msg).length + 63) / 64
      (s.flag (Reg.KOR_CUE_TX_CTRL_BUSY k) = true → exec (.cueSend who k) s = .next (s.inc Reg.CTL_FAULT_BUSY)) ∧
      (s.flag (Reg.KOR_CUE_TX_CTRL_BUSY k) = false → 1 ≤ len → len ≤ 256 → ∃ t, exec (.cueSend who k) s = .next t ∧
        t.flag (Reg.KOR_CUE_TX_CTRL_BUSY k) = true ∧ OnlyRegs [Reg.KOR_CUE_TX_CTRL k] { s with kor := t.kor } t ∧
        (let m := (wordBytes (s.rds (Reg.KOR_CUE_TX_DATA k 0) 64)).take len
         t.korPort k = { s.korPort k with cueTx := m ++ toBe 4 (crc32 m).toNat, cueFirst := true })) ∧
      exec (.cueTxDone k) s = .next (if (s.korPort k).cueTx = [] then s.setFlag (Reg.KOR_CUE_TX_CTRL_BUSY k) false else s) ∧
      (s.flag (Reg.KOR_STS_ALIGNED k) = true → ¬ right ∨ 4 ≤ q.length → exec (.cueRxFrame k msg) s = .next (s.inc (Reg.KOR_CUE_RX_DROP k))) ∧
      (s.flag (Reg.KOR_STS_ALIGNED k) = true → right → q.length < 4 → s.flag Reg.BPM_STS_CFG_ERR = false → s.cellsTake clsCue cells = true →
        let r := takeSpots cells s cellPool
        let t := showCue (r.2.modKor k (fun p => { p with cueRx := p.cueRx ++ [noFcs msg], cueSpots := p.cueSpots ++ [r.1] })) k
        exec (.cueRxFrame k msg) s = .next (if q = [] then raise t 0x1A0D k 0 (some k.val) else t)) ∧
      (s.flag (Reg.KOR_STS_ALIGNED k) = false → exec (.cueRxFrame k msg) s = .next s) ∧
      (∀ rest, q = msg :: rest →
        let t := showCue ((freeSpots s cellPool ((s.korPort k).cueSpots.headD [])).modKor k (fun p => { p with
          cueRx := rest, cueSpots := p.cueSpots.drop 1 })) k
        exec (.cuePop who k) s = .next (if rest = [] then t else raise t 0x1A0D k 0 (some k.val))) ∧
      (q = [] → exec (.cuePop who k) s = .next s))

/-! ### Classification (06) -/

/-- A command of the flow table at the ringmaster's or at the firmware's own interface (R231, R233): while one of that interface
is in progress it is counted in FLT_CMD_REFUSED and changes nothing else; else the interface's FLT_CMD takes it with BUSY, and
the table changes by its operation, whose answer waits, or the command waits while one of the other interface is served. The
command's end shows its result with BUSY 0 at its interface, an answer that failed changing no other register there, and the
other interface's is served then. With none served, the end changes nothing. This holds for all six commands. -/
def Obligations.FlowCommandsStart : Prop :=
  ∀ (s : State) (who : Who) (bi wide : Bool) (p : BitVec 4), ServesOwn s who → mlook 0 Reg.FLT_CMD s.locks = 0 →
    let busy := ifcField who Reg.FLT_CMD_BUSY
    let starts (op : Nat) (bi wide : Bool) (p : Nat) (c : Instr) : Prop :=
      (s.flag busy = true → exec c s = .next (s.inc Reg.FLT_CMD_REFUSED)) ∧
      (s.flag busy = false → ∃ u, OnlyRegs [ifc who Reg.FLT_CMD] s u ∧ u.flag busy = true ∧ u.get (ifcField who Reg.FLT_CMD_OP) = op ∧
        let a := fltOperate who op bi wide p u
        exec c s = .next (if s.flt.op.isSome then u.modFlt (fun f => { f with waiting := some (who, fltWord op bi wide p) })
          else a.2.modFlt (fun f => { f with op := some { result := a.1.1, writes := a.1.2, who := who } })))
    starts 1 false wide p.toNat (.fltInsert who wide p) ∧ starts 2 bi wide p.toNat (.fltDelete who bi wide p) ∧
    starts 3 false false 0 (.fltRead who) ∧ starts 4 bi wide p.toNat (.fltModify who bi wide p) ∧
    starts 5 false wide p.toNat (.fltSearch who wide p) ∧ starts 6 false false 0 (.harvestHits who) ∧
    (DomainsOn s fltDoms →
      (∀ r : Fin 16, s.flt.op = some { result := r, writes := [], who := who } → r ≠ 0 → ∃ t, exec .fltCmdDone s =
          .next (match s.flt.waiting with | some (w, val) => fltStart w val t | none => t) ∧
        t.get (ifcField who Reg.FLT_CMD_RESULT) = r ∧ t.flag busy = false ∧
        OnlyRegs [ifc who Reg.FLT_CMD] (s.modFlt (fun f => { f with op := none, waiting := none })) t) ∧
      (s.flt.op = none → exec .fltCmdDone s = .next s))

/-- What the operations of the flow table do (R213 to R216, R220, R231 to R237), for narrow and wide keys. INSERT and MODIFY
answer BAD_ENTRY to a result that is none; INSERT does to a width that is not the profile's, EXISTS to a key that the table
holds and QUOTA at the profile's quota; a command by key whose width is not the profile's, or whose key is held by no entry,
answers NOT_FOUND; an index with no entry NOT_FOUND, one of a pair's second half BAD_ENTRY, one beyond the table BAD_INDEX: all
these change nothing. INSERT writes a new key's entry, or pair, into its first free candidate place and shows where, with no
moves; DELETE clears the entry or pair; READ and SEARCH show it and change nothing; MODIFY replaces its result and keeps the
rest; what firmware's commands wrote or cleared stands in FLT_FW_LOG; HARVEST_HITS answers and clears the hits of its 64
entries. -/
def Obligations.FlowCommandsAct : Prop :=
  ∀ (s : State) (who : Who) (p : Fin 16) (wide bi : Bool) (i : Nat), s.flt.fwLog.length < 255 →
    let logged (l : List Nat) := if who.path = .firmware then s.flt.fwLog ++ l else s.flt.fwLog
    let res := s.rd (ifc who Reg.FLT_STAGE_RES)
    let k := stagedKey who s wide
    let index := s.stagedIndex who
    let run (op : Nat) (bi : Bool) := fltOperate who op bi wide p s
    let answers (op : Nat) (bi : Bool) (code : Nat) : Prop := (run op bi).1.1 = code ∧ (run op bi).2 = s
    let fits := s.flag (Reg.PRS_PROF_CFG_WIDE p) = wide
    let half (j : Nat) : List Nat := if wide then [j, pairOf j] else [j]
    let changes (r : FltAnswer × State) (js : List Nat) : Prop :=
      (∀ j, j ∉ js → r.2.entry j = s.entry j) ∧ r.2.flt.fwLog = logged js ∧ r.2 = { s with flt := r.2.flt }
    (resultOk res = false → answers 1 false 5 ∧ answers 4 bi 5) ∧
    (¬ fits → answers 1 false 5 ∧ answers 2 false 1 ∧ answers 5 false 1) ∧
    (fits → findKey s p wide k = none → answers 2 false 1 ∧ answers 5 false 1) ∧
    (resultOk res = true → fits → resultBeyond s res = false →
      ((findKey s p wide k).isSome = true → answers 1 false 2) ∧
      (findKey s p wide k = none → s.get (Reg.FLT_PART_QUOTA p) < s.profileUsed p + (half i).length → answers 1 false 4) ∧
      (findKey s p wide k = none → s.profileUsed p + (half i).length ≤ s.get (Reg.FLT_PART_QUOTA p) →
        (if wide then (pairPlaces s p k).find? (fun j => decide ((s.entry j).valid = false) && decide ((s.entry (pairOf j)).valid = false))
          else (candidates s p k).find? (fun j => (s.entry j).valid = false)) = some i →
        let e : Entry := { valid := true, profile := BitVec.ofNat 4 p, wide := if wide then 1 else 0, hit := false, key := bytesBlock k, result := res, ue := false }
        (run 1 false).1 = (0, [(Reg.FLT_CMD, 0), (Reg.FLT_STAGE_INDEX, w32 i)]) ∧ (run 1 false).2.entry i = e ∧
        (wide = true → (run 1 false).2.entry (pairOf i) = { e with wide := 2, key := bytesBlock (k.drop 16), result := 0 }) ∧
        changes (run 1 false) (half i))) ∧
    (s.entryBad index = false → (s.entry index).valid = true → (s.entry index).wide = (if wide then 1 else 0) → index < tableEnd →
      ((run 2 true).1 = (0, []) ∧ (∀ j ∈ half index, (run 2 true).2.entry j = noEntry) ∧ changes (run 2 true) (half index)) ∧
      run 3 bi = ((0, readWords s index true), s) ∧
      (resultOk res = true → resultBeyond s res = false → (run 4 true).1 = (0, []) ∧
        (run 4 true).2.entry index = { s.entry index with result := res } ∧ changes (run 4 true) [index])) ∧
    (index < tableEnd → (s.entry index).valid = false → answers 2 true 1 ∧ answers 3 bi 1) ∧
    (index < tableEnd → (s.entry index).valid = true → (s.entry index).wide = 2 → answers 2 true 5 ∧ answers 3 bi 5) ∧
    (tableEnd ≤ index → answers 2 true 6 ∧ answers 3 bi 6) ∧
    (fits → findKey s p wide k = some i → s.entryBad i = false → run 5 bi = ((0, readWords s i false), s)) ∧
    (let g := index % 65536
     let base := if g < 32768 then 64 * g else stashBase + 64 * (g - 32768)
     let hits (lo : Nat) : Word := w32 ((List.range 32).foldl (fun a b => a + b2n (s.entry (base + lo + b)).hit * 2 ^ b) 0)
     (32776 ≤ g → answers 6 bi 6) ∧
     (g < 32776 → (run 6 bi).1 = (0, [(Reg.FLT_HITS 0, hits 0), (Reg.FLT_HITS 1, hits 32)]) ∧
       ∀ j, (run 6 bi).2.entry j = if base ≤ j ∧ j < base + 64 then { s.entry j with hit := false } else s.entry j))

/-- Turnstiles (R228, R230, R584): TS_WRITE gives the turnstile the staged mode, rate and burst with a full bucket and keeps its
counts; TS_READ shows them; TS_CLEAR zeroes its counts; while BUSY, each is counted in CTL_FAULT_BUSY. A frame passes and is
paid for, by its length or in the mode of frames as one, while the bucket holds that, and is dropped and counted otherwise; with
RATE 0 every frame passes. The continuity check (R238 to R240): writing FLT_CC_SIG arms the named group; LIFT lifts its
quarantine; a comparison of an armed group that matches lifts its quarantine; one that does not, with QUARANTINE set,
quarantines it, and reports it once, into FLT_CC_MISMATCH, or its OVF where that is full, with its event; an unarmed group, and
every group with EN 0, is passed over, and a change of an entry's signed bytes disarms its group. -/
def Obligations.TurnstilesAndContinuity : Prop :=
  (∀ (s : State) (who : Who) (idx : BitVec 16) (len : Nat), Serves s who → mlook 0 Reg.FLT_TS_CMD s.locks = 0 →
      let old := s.turnstile idx.toNat
      (s.flag Reg.FLT_TS_CMD_BUSY = true → exec (.tsWrite who idx) s = .next (s.inc Reg.CTL_FAULT_BUSY) ∧
        exec (.tsRead who idx) s = .next (s.inc Reg.CTL_FAULT_BUSY) ∧ exec (.tsClear who idx) s = .next (s.inc Reg.CTL_FAULT_BUSY)) ∧
      (s.flag Reg.FLT_TS_CMD_BUSY = false →
        (∃ t, exec (.tsWrite who idx) s = .next t ∧ t.turnstile idx.toNat = { old with
            frames := s.flag Reg.FLT_TS_CFG0_FRAMES, rate := s.get Reg.FLT_TS_CFG0_RATE, burst := s.get Reg.FLT_TS_CFG1_BURST,
            tokens := s.get Reg.FLT_TS_CFG1_BURST * tokenUnit, stamp := s.clk } ∧
          (∀ j, j ≠ idx.toNat → t.turnstile j = s.turnstile j) ∧ OnlyRegs [Reg.FLT_TS_CMD] { s with flt := t.flt } t) ∧
        (old.rate < 2 ^ 20 → old.burst < 2 ^ 24 → ∃ t, exec (.tsRead who idx) s = .next t ∧ t.flag Reg.FLT_TS_CFG0_FRAMES = old.frames ∧
          t.get Reg.FLT_TS_CFG0_RATE = old.rate ∧ t.get Reg.FLT_TS_CFG1_BURST = old.burst ∧
          t.ctr Reg.FLT_TS_PASSED = old.passed ∧ t.ctr Reg.FLT_TS_DROPPED = old.dropped ∧
          OnlyRegs [Reg.FLT_TS_CMD, Reg.FLT_TS_CFG0, Reg.FLT_TS_CFG1] { s with cnt := t.cnt } t) ∧
        (∃ t, exec (.tsClear who idx) s = .next t ∧ t.turnstile idx.toNat = { old with passed := 0, dropped := 0 } ∧
          (∀ j, j ≠ idx.toNat → t.turnstile j = s.turnstile j) ∧ OnlyRegs [Reg.FLT_TS_CMD] { s with flt := t.flt } t)) ∧
      (let x := old.refilled s.clk
       let a := police s idx.toNat len
       let cost := (if old.frames then 1 else len) * tokenUnit
       let now := a.2.turnstile idx.toNat
       (old.rate = 0 → a.1 = true) ∧
       (old.rate ≠ 0 → cost ≤ x.tokens → a.1 = true ∧ now.tokens = x.tokens - cost ∧
          now.passed = (old.passed + 1) % 2 ^ 48 ∧ now.dropped = old.dropped) ∧
       (old.rate ≠ 0 → x.tokens < cost → a.1 = false ∧ now.tokens = x.tokens ∧
          now.passed = old.passed ∧ now.dropped = (old.dropped + 1) % 2 ^ 48))) ∧
  (∀ (s : State) (who : Who) (sig : Word) (g : BitVec 15) (e : Entry) (i : Nat), Serves s who → mlook 0 Reg.FLT_CC_GROUP s.locks = 0 →
      let x := s.ccGroup g.toNat
      let named := s.get Reg.FLT_CC_GROUP_GROUP
      let compares := s.flag Reg.FLT_CC_CFG_EN = true ∧ x.armed = true
      let q := s.flag Reg.FLT_CC_CFG_QUARANTINE
      (∃ t, exec (.ccSigWrite who sig) s = .next t ∧ t.ccGroup named = { s.ccGroup named with armed := true, sig := sig, reported := false } ∧
        (∀ j, j ≠ named → t.ccGroup j = s.ccGroup j) ∧ t = { s with flt := { s.flt with groups := t.flt.groups } }) ∧
      (∃ t, exec (.ccLift who g) s = .next t ∧ t.ccGroup g.toNat = { x with quarantined := false } ∧
        (∀ j, j ≠ g.toNat → t.ccGroup j = s.ccGroup j) ∧ OnlyRegs [Reg.FLT_CC_GROUP] { s with flt := { s.flt with groups := t.flt.groups } } t) ∧
      (¬ compares → exec (.ccCompare g) s = .next s) ∧
      (compares → groupCrc s g.toNat = x.sig → ∃ t, exec (.ccCompare g) s = .next t ∧
        t.ccGroup g.toNat = { x with quarantined := false, reported := false } ∧ (∀ j, j ≠ g.toNat → t.ccGroup j = s.ccGroup j) ∧
        t = { s with flt := { s.flt with groups := t.flt.groups } }) ∧
      (compares → groupCrc s g.toNat ≠ x.sig → ∃ u, exec (.ccCompare g) s = .next (if x.reported then u else raise0 u 0x2401 g.toNat) ∧
        u.ccGroup g.toNat = { x with quarantined := x.quarantined || q, reported := true } ∧ (∀ j, j ≠ g.toNat → u.ccGroup j = s.ccGroup j) ∧
        u = { s with flt := { s.flt with
          groups := u.flt.groups,
          mismatch := if x.reported = false ∧ s.flt.mismatch.length < 16 then s.flt.mismatch ++ [g.toNat] else s.flt.mismatch,
          mismatchOvf := s.flt.mismatchOvf || (!x.reported && decide (16 ≤ s.flt.mismatch.length)) } }) ∧
      (i < stashBase → entryImage (s.entry i) ≠ entryImage e → ((s.putEntry i e).ccGroup (i / 64)).armed = false))

/-- A lookup, the flow table's domains being ON (R203, R218, R222 to R225, R240): the frame at the head of its port's queue is
matched by its key. A frame whose key cannot be formed takes its port's default action with PARSE_FAIL, one that no entry
matches with MISSES; an entry with an uncorrectable error, or whose copies differ, drops it and is reported; a match counts,
sets HIT, and is punted from a quarantined group and else acts by the entry's result. With nothing waiting a lookup changes
nothing. The default action with DEFAULT 0 and the action DROP drop the frame into their counters, and PROTECT on a
CLEAR_PROFILE and BYPASS toward a Korone port are invalid. The logs that a read pops (R236, R240, R254, R260, R497, R545, R560):
a read of each answers its oldest entry, for FAB_DIVERGE_LOG that of the association whose record diverged, and removes it, with
OVF cleared, and changes nothing else; the event log answers the last word of its oldest record and moves on to its next; an
empty one answers 0. -/
def Obligations.LookupsAndLogs : Prop :=
  (∀ (s : State) (n : Fin 64) (f : Frame) (k : List Byte) (i : Nat) (res : Word), s.running = true → DomainsOn s fltDoms →
      let head := s.sch.frames.find? (fun f => decide (f.stage = .lookup) && decide (f.n = n.val))
      let p := parse (parseBytes f.bytes)
      let g := { f with ptpEvent := !s.isCapsule f && p.ptpEvent, ptpGeneral := !s.isCapsule f && p.ptpGeneral }
      let t := (s.modFrame g.id (fun x => { x with ptpEvent := g.ptpEvent, ptpGeneral := g.ptpGeneral })).mark g.id 2
      let u := t.inc (Reg.FLT_LOOKUPS n)
      let q := (profileOf t g).1
      let found := findKey u q (u.flag (Reg.PRS_PROF_CFG_WIDE q)) k
      let v := ((u.modFlt (fun y => { y with entries := mput i { u.entry i with hit := true } y.entries })).modFrame g.id
          (fun x => { x with entry := some i })).inc (Reg.FLT_HITS_COUNT n)
      let w := s.modFrame f.id (fun x => { x with action := BitVec.ofNat 2 (bits res 31 30) })
      (head = none → exec (.fltLookup n) s = .next s) ∧
      (head = some f → frameKey t g = none → exec (.fltLookup n) s = .next (defaultAction t g 2 (Reg.FLT_PARSE_FAIL n))) ∧
      (head = some f → frameKey t g = some k →
        (found = none → exec (.fltLookup n) s = .next (defaultAction u g 1 (Reg.FLT_MISSES n))) ∧
        (found = some i → u.entryBad i = true → exec (.fltLookup n) s = .next (entryUe (dropFrame u g.id (Reg.FLT_ENTRY_UE n)) i)) ∧
        (found = some i → u.entryBad i = false → exec (.fltLookup n) s = .next (
          if (v.ccGroup (i / 64)).quarantined then puntFrame (v.inc (Reg.FLT_QUARANTINE_PUNT n)) g.id 3 (some i) g.bytes false
          else entryAction v g i (u.entry i).result))) ∧
      ((s.inc (Reg.FLT_MISSES n)).get (Reg.FLT_PORT_CFG_DEFAULT f.n) = 0 →
        defaultAction s f 1 (Reg.FLT_MISSES n) = dropFrame (s.inc (Reg.FLT_MISSES n)) f.id (Reg.FLT_DEFAULT_DROP f.n)) ∧
      (bits res 31 30 = 0 → entryAction s f i res = dropFrame w f.id (Reg.FLT_DROP_ACTION f.n)) ∧
      (bits res 31 30 = 1 → (profileOf w f).2 = true → entryAction s f i res = dropFrame w f.id (Reg.FLT_ACTION_INVALID f.n)) ∧
      (bits res 31 30 = 2 → w.isKorone (f.n % 32) = true → entryAction s f i res = dropFrame w f.id (Reg.FLT_ACTION_INVALID f.n))) ∧
  (∀ (s : State) (who : Who), Awake s →
      let pops (c : Instr) (w : Word) (t : State) : Prop := exec c s = .next (t.emit (.readData who.path w))
      pops (.fltCcMismatchRead who) (logWord s.flt.mismatch s.flt.mismatchOvf)
        { s with flt := { s.flt with mismatch := s.flt.mismatch.drop 1, mismatchOvf := false } } ∧
      pops (.fltFwLogRead who) (logWord s.flt.fwLog s.flt.fwLogOvf)
        { s with flt := { s.flt with fwLog := s.flt.fwLog.drop 1, fwLogOvf := false } } ∧
      pops (.ascRekeyLogRead who) (logWord s.asc.rekeyLog s.asc.rekeyOvf)
        { s with asc := { s.asc with rekeyLog := s.asc.rekeyLog.drop 1, rekeyOvf := false } } ∧
      pops (.ascFaultLogRead who) (logWord s.asc.faultLog s.asc.faultOvf)
        { s with asc := { s.asc with faultLog := s.asc.faultLog.drop 1, faultOvf := false } } ∧
      pops (.fabDivergeLogRead who) (divergeRead s).1
        { s with fab := { s.fab with diverge := s.fab.diverge.drop 1, divergeOvf := false } } ∧
      (∀ r rs, s.evt.log = r :: rs → pops (.evtLogPop who) r.stamp { s with evt := { s.evt with log := rs, ovfRaised := false } }) ∧
      (s.evt.log = [] → pops (.evtLogPop who) 0 s))

/-! ### Associations (07) -/

/-- A command of the association engine at the ringmaster's or at the firmware's own interface (R286, R287): while one of that
interface is in progress it is counted in ASC_CMD_REFUSED and changes nothing else; else the interface's ASC_CMD takes it with
BUSY, and its operation acts and its answer waits, or the command waits while one of the other interface is served; INSTALL
leaves the key staging zero. A command's end makes the association of an INSTALL LIVE or READY, shows the answer's words and its
code with BUSY 0 at its interface, and serves the other interface's then; with none served, or one that waits for its lease, the
end changes nothing. This holds for all seventeen commands. -/
def Obligations.AssociationCommandsStart : Prop :=
  ∀ (s : State) (who : Who), ServesOwn s who → mlook 0 Reg.ASC_CMD s.locks = 0 →
    let busy := ifcField who Reg.ASC_CMD_BUSY
    let starts (op : Nat) (c : Instr) : Prop :=
      (s.flag busy = true → exec c s = .next (s.inc Reg.ASC_CMD_REFUSED)) ∧
      (s.flag busy = false → ∃ u, OnlyRegs [ifc who Reg.ASC_CMD] s u ∧ u.flag busy = true ∧ u.get (ifcField who Reg.ASC_CMD_OP) = op ∧
        let a := ascOperate who op u
        let v := if op = 1 then a.2.wrs (ifc who (Reg.ASC_KEY_STAGE 0)) (List.replicate 8 0) else a.2
        let p : PendOp := { result := a.1.1.num, writes := a.1.2.map (fun p => (ifc who (Reg.ASC_STAGE p.1), p.2)), who := who }
        exec c s = .next (if s.asc.op.isSome then u.modAsc (fun x => { x with waiting := some (who, ascWord op) })
          else v.modAsc (fun x => { x with op := some p })))
    (starts 1 (.install who) ∧ starts 2 (.activate who) ∧ starts 3 (.retire who) ∧ starts 4 (.ascRead who) ∧
      starts 5 (.readCounters who) ∧ starts 6 (.pin who) ∧ starts 7 (.unpin who) ∧ starts 8 (.advancePn who) ∧
      starts 9 (.setSuccessor who)) ∧
    (starts 10 (.join who) ∧ starts 11 (.leave who) ∧ starts 12 (.troupeCreate who) ∧ starts 13 (.troupeDelete who) ∧
      starts 14 (.troupeParent who) ∧ starts 15 (.schedule who) ∧ starts 16 (.cancel who) ∧ starts 17 (.dissolveStatus who)) ∧
    (DomainsOn s memDoms →
      (∀ (r : Fin 16) (ws : List (Nat × Word)), s.asc.op = some { result := r, writes := ws, who := who } → s.ascWaits who = false →
        let m := match s.asc.installing with
          | some (a, active) => s.modRec a (fun x => { x with state := if active then .live else .ready })
          | none => s
        let base := (m.modAsc (fun x => { x with op := none, installing := none, waiting := none })).wrAll ws
        ∃ t, exec .ascCmdDone s = .next (match s.asc.waiting with | some (w, val) => ascStart w val t | none => t) ∧
          t.get (ifcField who Reg.ASC_CMD_RESULT) = r ∧ t.flag busy = false ∧ OnlyRegs [ifc who Reg.ASC_CMD] base t) ∧
      (∀ p, s.asc.op = some p → s.ascWaits p.who = true → exec .ascCmdDone s = .next s) ∧
      (s.asc.op = none → exec .ascCmdDone s = .next s))

/-- INSTALL (R286, R288, R491): an index beyond the store is BAD_INDEX, one that firmware serves DELEGATED to the host, a store
that is not ready NOT_READY, a record in use BAD_STATE, a descriptor against the rules BAD_ARG, a successor beyond the store
BAD_INDEX and a key that does not open KEY_FAIL, none of them changing anything; else the record is written, in memory too, and
no other, its first lease is persisted, and the rules of R260 and R262 apply from its start. The record has the descriptor's
START as its packet number, the emitter as the first byte of a Korone transmit IDENT, its key wrapped under its own index and
the next KEY_GEN, no count and no successor but the staged one. What the other commands of the association engine do (R250,
R253, R259, R267, R274, R276, R283, R284, R286, R289): each on an association that exists and that firmware does not serve, in
the states that allow it; in others it answers the code of R287 and changes nothing. ACTIVATE makes a READY association LIVE;
RETIRE makes one with no frame waiting or in flight FREE, its key zero and its slot gone; READ and READ_COUNTERS show and change
nothing; PIN brings an association in and pins its slot within the limit, UNPIN releases it; ADVANCE_PN moves NEXT_PN up on a
transmit association, recovering a record of an earlier session first, also where its value is refused then; SET_SUCCESSOR, JOIN
and LEAVE write their one field; troupes are created, deleted when empty, and hung under another without a loop; SCHEDULE is
refused by R278's rules and takes the lowest free entry, CANCEL frees an entry that waits or is DONE, and DISSOLVE_STATUS shows
one. -/
def Obligations.AssociationCommandsAct : Prop :=
  (∀ (s : State) (who : Who) (key : BitVec 256) (wk : Shares 256),
      let a := s.stageIndex who
      let op := ascOperate who 1 s
      let start := (s.stage? who 10).toNat * 2 ^ 32 + (s.stage? who 9).toNat
      let far := (s.stage? who 11).getLsbD 31 = true ∧ s.asc.size ≤ bits (s.stage? who 11) 19 0
      let r := installRec s who a wk.value key
      (s.asc.size ≤ a → op = ((.badIndex, []), s)) ∧
      (a < s.asc.size → s.hostDelegated who a = true → op = ((.delegated, []), s)) ∧
      (a < s.asc.size → s.hostDelegated who a = false →
        (s.flag Reg.ASC_STS_STORE_READY = false → op = ((.notReady, []), s)) ∧
        (s.flag Reg.ASC_STS_STORE_READY = true → (s.asRec a).state ≠ .free → op = ((.badState, []), s)) ∧
        (s.flag Reg.ASC_STS_STORE_READY = true → (s.asRec a).state = .free → installBad s who = true → op = ((.badArg, []), s)) ∧
        (s.flag Reg.ASC_STS_STORE_READY = true → (s.asRec a).state = .free → installBad s who = false →
          (far → op = ((.badIndex, []), s)) ∧
          (¬ far → installKey who s = none ∨ s.vlt.wrapKey = none → op = ((.keyFail, []), s)) ∧
          (¬ far → installKey who s = some key → s.vlt.wrapKey = some wk →
            let v := (forget s a).putRec a r
            v.asRec a = r ∧ OnlyRec a (forget s a) v ∧
            op = ((.ok, []), requestReel (rekeyCheck (startPersist
              (v.modAsc (fun x => { x with installing := some (a, (s.stage? who 0).getLsbD 31) })) a
              (if r.rx then r.reel else (r.pn / reelSize + 1) * reelSize) none) a) a)))) ∧
      (r.pn = (if r.rx then start - 1 else start) ∧ r.frames = 0 ∧ r.octets = 0 ∧ r.dropPn = 0 ∧ r.dropMissq = 0 ∧ r.dropState = 0 ∧
       r.tagFail = 0 ∧ r.rxDup = 0 ∧ r.session = s.session ∧
       r.succ = (if (s.stage? who 11).getLsbD 31 then some (bits (s.stage? who 11) 19 0) else none) ∧
       r.keyGen = ((s.asRec a).keyGen + 1) % 2 ^ 32 ∧ r.wrapped = wrapRecKey wk.value r.key256 key a r.keyGen ∧
       (r.rx = false → r.encap ≠ 0 → r.ident.toNat / 2 ^ 56 = s.get Reg.FAB_CFG_EMITTER))) ∧
  (∀ (s : State) (who : Who), s.stageIndex who < s.asc.size → s.hostDelegated who (s.stageIndex who) = false →
      let a := s.stageIndex who
      let r := s.asRec a
      let w := s.stage? who 1
      let e := bits (s.stage? who 0) 7 0
      let answers (op : Nat) (c : AscCode) : Prop := ascOperate who op s = ((c, []), s)
      let writes (op : Nat) (q : Rec) : Prop := ∃ t, ascOperate who op s = ((.ok, []), t) ∧ t.asRec a = q ∧ OnlyRec a s t
      ((r.state = .ready → writes 2 { r with state := .live }) ∧ (r.state ≠ .ready → answers 2 .badState)) ∧
      ((s.stage? who 0).getLsbD 29 = false → (r.state = .free → answers 3 .badState) ∧ (r.state = .retiring → answers 3 .ok) ∧
        (r.state ≠ .free → r.state ≠ .retiring → ascOperate who 3 s = ((.ok, []), retire s a)) ∧
        (r.state = .live → s.parked a = [] → s.inFlight a = 0 →
          (retire s a).asRec a = { r with state := .free, wrapped := 0 } ∧ (retire s a).slotOf a = none ∧
          ∀ b, b ≠ a → (retire s a).asRec b = s.asRec b)) ∧
      ((ascOperate who 4 s).2 = s ∧ (ascOperate who 4 s).1.1 = .ok ∧ (ascOperate who 5 s).2 = s ∧ (ascOperate who 5 s).1.1 = .ok ∧
        (0, w32 (r.state.num * 2 ^ 28 + a)) ∈ (ascOperate who 4 s).1.2 ∧ (0, w32 r.frames) ∈ (ascOperate who 5 s).1.2) ∧
      ((r.state = .free → answers 6 .badState) ∧
       (r.state ≠ .free → pinLimit < s.pinnedSlots + s.newPin a false → answers 6 .noSlot) ∧
       (∀ i x, r.state ≠ .free → s.pinnedSlots + s.newPin a false ≤ pinLimit → (bringIn s a).slotOf a = some (i, x) →
          ascOperate who 6 s = ((.ok, []), (bringIn s a).modSlot i (fun x => { x with pinned := true }))) ∧
       (s.ready a = true → bringIn s a = s) ∧
       (∀ i x, s.slotOf a = some (i, x) → x.pinned = true →
          ascOperate who 7 s = ((.ok, []), s.modSlot i (fun x => { x with pinned := false }))) ∧
       (s.slotOf a = none → answers 7 .badState)) ∧
      (let v := (s.stage? who 2).toNat * 2 ^ 32 + w.toNat
       (r.rx = true → answers 8 .badState) ∧
       (r.rx = false → r.state = .live ∨ r.state = .ready →
         let s' := if r.session ≠ s.session then recover s a else s
         let r' := s'.asRec a
         r'.rx = false → r'.state = .live ∨ r'.state = .ready →
         (v < r'.pn ∨ r'.top < v → ascOperate who 8 s = ((.badArg, []), s')) ∧
         (r'.pn ≤ v → v ≤ r'.top → mget a s'.asc.persists = none → ascOperate who 8 s = ((.ok, []), advanceTo s' a v))) ∧
       (v < r.reel → (s.modLive a (fun x => { x with pn := max x.pn v })).asRec a = { r with pn := max r.pn v } ∧
         advanceTo s a v = requestReel (rekeyCheck (s.modLive a (fun x => { x with pn := max x.pn v })) a) a) ∧
       (r.reel ≤ v → advanceTo s a v = requestReel (startPersist s a ((v / reelSize + 1) * reelSize) (some v)) a)) ∧
      ((r.state = .free → answers 9 .badState) ∧
       (r.state ≠ .free → w.getLsbD 31 = true → s.asc.size ≤ bits w 19 0 → answers 9 .badIndex) ∧
       (r.state ≠ .free → w.getLsbD 31 = true → bits w 19 0 < s.asc.size → writes 9 { r with succ := some (bits w 19 0) }) ∧
       (r.state ≠ .free → w.getLsbD 31 = false → writes 9 { r with succ := none })) ∧
      ((r.state = .free → answers 10 .badState) ∧
       (r.state ≠ .free → w.getLsbD 31 = false ∨ s.troupe (bits w 11 0) = false → answers 10 .badArg) ∧
       (r.state ≠ .free → w.getLsbD 31 = true → s.troupe (bits w 11 0) = true →
         (s.memberCovered a = true ∨ s.covered (bits w 11 0) = true → answers 10 .inDissolve) ∧
         (s.memberCovered a = false → s.covered (bits w 11 0) = false → writes 10 { r with troupe := some (bits w 11 0) })) ∧
       (r.troupe = none → answers 11 .badState) ∧
       (r.troupe ≠ none → s.memberCovered a = true → answers 11 .inDissolve) ∧
       (r.troupe ≠ none → s.memberCovered a = false → writes 11 { r with troupe := none })) ∧
      (let t0 := bits (s.stage? who 0) 11 0
       (s.troupe t0 = true → answers 12 .badState) ∧
       (s.troupe t0 = false → ∀ p, stagedParent who s = some p →
          ascOperate who 12 s = ((.ok, []), s.modAsc (fun x => { x with troupes := mput t0 p x.troupes }))) ∧
       (s.troupe t0 = false → (stagedParent who s = none → answers 12 .badArg) ∧ answers 13 .badArg ∧ answers 14 .badArg) ∧
       (s.troupe t0 = true → s.asc.recs.any (fun p => p.2.troupe = some t0) = true ∨ s.asc.troupes.any (fun p => p.2 = some t0) = true →
          answers 13 .notEmpty) ∧
       (s.troupe t0 = true → s.asc.recs.any (fun p => p.2.troupe = some t0) = false → s.asc.troupes.any (fun p => p.2 = some t0) = false →
          ascOperate who 13 s = ((.ok, []), s.modAsc (fun x => { x with troupes := mdel t0 x.troupes }))) ∧
       (s.troupe t0 = true → w.getLsbD 31 = true → s.troupe (bits w 11 0) = true →
         (s.under (bits w 11 0) t0 = true → answers 14 .loop) ∧
         (s.under (bits w 11 0) t0 = false → s.covered t0 = true ∨ s.aboveCovered t0 = true ∨ s.covered (bits w 11 0) = true →
           answers 14 .inDissolve) ∧
         (s.under (bits w 11 0) t0 = false → s.covered t0 = false → s.aboveCovered t0 = false → s.covered (bits w 11 0) = false →
           ascOperate who 14 s = ((.ok, []), s.modAsc (fun x => { x with troupes := mput t0 (some (bits w 11 0)) x.troupes }))))) ∧
      ((∀ c, scheduleRefusal who s (stagedDissolve who s) = some c → answers 15 c) ∧
       (scheduleRefusal who s (stagedDissolve who s) = none →
         ((List.range 256).find? (fun i => (s.dissolve i).phase = .free) = none → answers 15 .tableFull) ∧
         (∀ i, (List.range 256).find? (fun i => (s.dissolve i).phase = .free) = some i →
           let t := s.modDissolve i (fun _ => stagedDissolve who s)
           ascOperate who 15 s = ((.ok, shown 6 [(9, w32 i)]), if (stagedDissolve who s).byPn then openOp i t else t)))) ∧
      (((s.dissolve e).phase = .free → answers 16 .badState) ∧
       ((s.dissolve e).phase = .waiting ∨ (s.dissolve e).phase = .done → ∃ t, ascOperate who 16 s = ((.ok, []), t) ∧
          t.dissolve e = noDissolve ∧ (∀ j, j ≠ e → t.dissolve j = s.dissolve j) ∧
          t = { s with asc := { s.asc with dissolves := t.asc.dissolves } }) ∧
       ((s.dissolve e).phase = .opened ∨ (s.dissolve e).phase = .switched → answers 16 .late) ∧
       (ascOperate who 17 s).2 = s ∧ (ascOperate who 17 s).1.1 = .ok ∧ (9, w32 (s.dissolve e).phase.num) ∈ (ascOperate who 17 s).1.2))

/-- Reels, marks and packet numbers (R259 to R264, R268): without PERSIST_EN a lease is granted at once; with it, the value
waits until the write of its mark entry, which MARK_PERSISTED ends, and where a stand-in takes part its acknowledgement are
there. A transmit grant sets LEASE_END, moves NEXT_PN nowhere and counts ASC_REEL_GRANTS. A frame takes NEXT_PN and moves it on
by one; it is dropped into DROP_PN when the numbers are exhausted or the reel has ended, and into FAB_STANDBY_DROP on a device
that does not forward. Residence (R254, R255, R267, R270, R397, R410, R417): a page-in ends once the domains of the slots and
the memory are ON. One that no association waits for changes no association; a read that the tree refuses halts; one with wrong
data is counted, logged and drops the parked frames. Otherwise a victim's slot is taken, the record read and its key unwrapped:
one that does not unwrap is logged as faulty and its frames are dropped; else the key fills the slot, the record is recovered
and what waited goes on. A page-in that finds no victim waits. Stream periods that waited for the key go on last. STORE_READY is
set once a store in service stands under an applied script, and the store's header in memory gives N and the session. -/
def Obligations.ReelsAndPages : Prop :=
  (∀ (s : State) (a : BitVec 20) (v : Nat) (p : Persist) (id : Nat), s.running = true →
      let i := a.toNat
      let written (u : State) : Prop := u = (writeMark s i (newMark s i p.value)).modAsc (fun x => { x with persists := u.asc.persists })
      (s.persistEn = false → startPersist s i v none = grant s i v none) ∧
      (s.persistEn = true → s.replicating = false → s.resyncing = false → startPersist s i v none =
        s.modAsc (fun x => { x with persists := mput i { value := v, localDone := false, acked := true, advance := none } x.persists })) ∧
      (let u := (s.modAsc (fun x => { x with stalled := ldel i x.stalled })).modLive i (fun r => { r with reel := v, pn := max r.pn 0 })
       (s.asRec i).rx = false → grant s i v none = rekeyCheck (u.inc Reg.ASC_REEL_GRANTS) i) ∧
      (∀ f, (s.modLive i f).asRec i = f (s.asRec i) ∧ ∀ b, b ≠ i → (s.modLive i f).asRec b = s.asRec b) ∧
      (mget i s.asc.persists = none → exec (.markPersisted a) s = .next (afterPersist s i)) ∧
      (mget i s.asc.persists = some p → p.acked = false → ∃ t, exec (.markPersisted a) s = .next t ∧
        mget i t.asc.persists = some { p with localDone := true } ∧ written t) ∧
      (mget i s.asc.persists = some p → p.acked = true → p.advance = none → ∃ u, mget i u.asc.persists = none ∧ written u ∧
        exec (.markPersisted a) s = .next (afterPersist (requestReel (grant u i p.value none) i) i)) ∧
      (s.forwarding = true → (s.asRec i).top < (s.asRec i).pn → i ∈ s.asc.exhausted → assignPn s id i =
        dropPn (s.modAsc (fun x => { x with exhausted := ladd i x.exhausted })) id i) ∧
      (s.forwarding = true → (s.asRec i).pn ≤ (s.asRec i).top → (s.asRec i).reel ≤ (s.asRec i).pn → i ∈ s.asc.stalled → assignPn s id i =
        dropPn (s.modAsc (fun x => { x with stalled := ladd i x.stalled })) id i) ∧
      (s.forwarding = true → (s.asRec i).pn ≤ (s.asRec i).top → (s.asRec i).pn < (s.asRec i).reel →
        let u := touch (s.modLive i (fun r => { r with pn := r.pn + 1 })) i
        let n := u.modFrame id (fun f => { f with
          assoc := some i, slot := (u.slotOf i).map (fun p => p.1), pn := (s.asRec i).pn, stage := .farm })
        let x := requestReel (rekeyCheck ((n.mark id 4).mark id 5) i) i
        u.asRec i = { s.asRec i with pn := (s.asRec i).pn + 1 } ∧
        ∀ f, x.frame? id = some f → assignPn s id i =
          match ptpPoint (x.toEnd id) id (noFcs f.bytes) (lineLength x (s.asRec i) f.m f.bytes.length) with
          | (.go d, t) => encGo t id d
          | (.hold, t) => t
          | (.gone, t) => t) ∧
      (s.forwarding = false → assignPn s id i = dropFrame s id Reg.FAB_STANDBY_DROP)) ∧
  (∀ (s : State) (a : BitVec 20) (ecc : Ecc), s.running = true →
      let i := a.toNat
      let ends (ecc : Ecc) (t : State) : Prop := exec (.pageInDone a ecc) s = .next (settleStreams t)
      (DomainsOn s (slotDoms ++ memDoms) →
        (i ∉ s.asc.paging → ends ecc s) ∧
        (i ∈ s.asc.paging →
          ends .ueTree (raise0 (haltRec s 0x6002 0 0) 0x6002 0) ∧
          (let t := (raise0 (s.inc Reg.MGD_UE_DATA_COUNT) 0x6005 0).modAsc (fun x => { x with paging := ldel i x.paging })
           ends .ueData (failParked (raise0 (pushFault t i) 0x2806 i) i)) ∧
          (let t := dealUnwrap s
           ((t.slotOf i).isSome = true → ends .good (settleReady (recoverIn t i) i) ∧ ends .correctable (settleReady (recoverIn t i) i)) ∧
           (t.slotOf i = none → t.victimExists = false → ends .good (settleReady t i)) ∧
           (∀ j u, t.slotOf i = none → takeSlot t = (some j, u) →
             let v := (readRec u i).inc Reg.FRM_UNWRAPS
             ends .good (match v.unwrap i with
               | none => failParked (raise0 (pushFault (v.modAsc (fun x => { x with paging := ldel i x.paging })) i) 0x2806 i) i
               | some key => settleReady (recoverIn ((install v j i key).inc Reg.ASC_PAGE_INS) i) i))))) ∧
      (¬ DomainsOn s (slotDoms ++ memDoms) → exec (.pageInDone a ecc) s = .next s) ∧
      (s.storeServed = true → s.ctl.stage7Done = true → ∃ t, exec .storeReady s = .next t ∧ t.flag Reg.ASC_STS_STORE_READY = true ∧
        OnlyRegs [Reg.ASC_STS] (if s.storedHeader = some (s.asc.size, s.session) then s else writeHeader s s.asc.size s.session) t) ∧
      (s.storeServed = false ∨ s.ctl.stage7Done = false → exec .storeReady s = .next s))

/-- A dissolve (R253, R276 to R281, R290): each phase acts only on an entry that the phase before it has left, and gives every
member its turn in order. At OPEN a member with a fit successor is pinned with it within both limits, a receive member's
successor becoming LIVE; one without faults, counted and passed over from then on, the first of an entry raising its event, and
one that is FREE or RETIRING is passed over; with a PN trigger a fault ends the entry. At SWITCH a LIVE transmit member becomes
SWITCHED and its successor LIVE, and a stream binding of its port moves to it. At CLOSE receive members retire, the entry is
DONE with none of its pins left and ASC_DISSOLVE_DONE is raised. -/
def Obligations.DissolvesRun : Prop :=
  ∀ (s : State) (e : Fin 256) (a b : Nat), s.running = true →
    let d := s.dissolve e
    (d.phase = .waiting → let t := walk s e (openMember e) .opened
      exec (.dissolveOpen e) s = .next (if d.byPn = true ∧ (t.dissolve e).faults ≠ 0 then dissolveDone t e else t)) ∧
    (d.phase ≠ .waiting → exec (.dissolveOpen e) s = .next s) ∧
    (d.phase = .opened → d.byPn = false → exec (.dissolveSwitch e) s = .next (walk s e (atSwitch e) .switched)) ∧
    (d.phase ≠ .opened ∨ d.byPn = true → exec (.dissolveSwitch e) s = .next s) ∧
    (d.phase = .switched → exec (.dissolveClose e) s = .next (dissolveDone (walk s e (atClose e) .switched) e)) ∧
    (∃ u, dissolveDone s e = raise0 u 0x2808 e ∧ (u.dissolve e).phase = .done ∧ (u.dissolve e).pins = []) ∧
    (d.phase ≠ .switched → exec (.dissolveClose e) s = .next s) ∧
    (s.gone a = true → openMember e s a = memberPass s e a) ∧
    (s.gone a = false → s.fitSuccessor a = none → openMember e s a = memberFault s e a) ∧
    (s.gone a = false → s.fitSuccessor a = some b → (s.asRec a).rx = true →
      openMember e s a = dissolvePin (s.modRec b (fun r => { r with state := .live })) e a b) ∧
    (s.gone a = false → s.fitSuccessor a = some b → (s.asRec a).rx = false → openMember e s a = dissolvePin s e a b) ∧
    (memberPass s e a = s.modDissolve e (fun d => { d with passed := ladd a d.passed }) ∧
      let t := s.modDissolve e (fun d => { d with faults := d.faults + 1, passed := ladd a d.passed })
      memberFault s e a = if d.faults = 0 then raise t 0x2809 e a none else t) ∧
    (let full := min pinLimit (s.get Reg.ASC_CFG_DISSOLVE_PIN_MAX) < s.dissolvePins + s.newPin a true + s.newPin b true ∨
       pinLimit < s.pinnedSlots + s.newPin a false + s.newPin b false
     let new := [a, b].filter (fun c => !s.dissolvePinned c)
     (full → dissolvePin s e a b = s) ∧
     (¬ full → dissolvePin s e a b = (new.foldl (setDissolvePin true) (bringIn (bringIn s a) b)).modDissolve e
        (fun d => { d with pins := d.pins ++ [(a, new)] }))) ∧
    (a ∉ d.passed → (s.asRec a).rx = false → (s.asRec a).state = .live → s.fitSuccessor a = some b →
      let t := atSwitch e s a
      let off := Reg.ASC_PORT_STREAM (s.asRec a).k
      t.asRec a = { s.asRec a with state := .switched } ∧ t.asRec b = { s.asRec b with state := .live } ∧
      (∀ c, c ≠ a → c ≠ b → t.asRec c = s.asRec c) ∧
      (s.ctr Reg.MGD_MINOR_OVF + 8 < 2 ^ 48 → (∀ o, o ≠ off → t.rd o = s.rd o) ∧
        (bits (s.rd off) 31 31 = 1 → bits (s.rd off) 19 0 = a → t.rd off = setBits (s.rd off) 19 0 b) ∧
        (bits (s.rd off) 31 31 ≠ 1 ∨ bits (s.rd off) 19 0 ≠ a → t.rd off = s.rd off))) ∧
    (a ∈ d.passed ∨ (s.asRec a).rx = true → atSwitch e s a = s) ∧
    (let t := dissolveUnpin e s a
     (a ∉ (t.dissolve e).passed → t.gone a = false → (s.asRec a).rx = true → atClose e s a = retire (match (s.asRec a).succ with
       | some b => moveBinding t (Reg.ASC_PORT_STREAM_RX (s.asRec a).k) a b
       | none => t) a) ∧
     (a ∈ (t.dissolve e).passed ∨ t.gone a = true ∨ (s.asRec a).rx = false → atClose e s a = t))

/-! ### The cipher farm and the splicer (08) -/

/-- Cores and seeds (R294 to R296, R325, R329): a seed starts a core's mask generator anew, and a core that had starved is
tested; one that comes while no random value is there or the ring sleeps changes nothing; a core that starves leaves service,
its slices are dealt again, it holds no key, and FRM_MASK_STARVED names it; a test that passes puts the core in service and one
that fails takes it out with FRM_KAT_FAIL; a direction that no core serves clears its flag and raises FRM_NO_CORES, and nothing
happens while one serves. Rings (R295, R296, R300, R301, R317, R329): a ring that has woken with every test passed serves again
with its sixteen cores, each with a seed; a draining ring whose queues are empty sleeps, and its cores hold nothing; KAT names
the cores in service for a test and RESTORE the others that have a seed, KAT to a sleeping ring wakes it, and a command while
one is in progress is counted; each microsecond of high load asks for one more ring of the busier direction, one at a time, and
long low load lets the highest ring that may go drain; a key still without its verdict after 1 µs raises FRM_GATE_TIMEOUT with
its slot and association. -/
def Obligations.FarmServes : Prop :=
  (∀ (s : State) (c : Fin 512), s.running = true →
      let r := c.val / 16
      let seeds (x : Core) : Core := { x with seeded := true, seed := s.drbg.1.truncate 256, drawn := 0 }
      (s.vlt.drbgRun = true → s.ring r ≠ .asleep → s.vlt.requests + 1 < 2 ^ 20 →
        ((s.core c).inService = true ∨ (s.core c).seeded = true → exec (.maskSeed c) s = .next (s.drbg.2.modCore c seeds)) ∧
        ((s.core c).inService = false → (s.core c).seeded = false →
          exec (.maskSeed c) s = .next ((s.drbg.2.modCore c seeds).modFrm (fun x => { x with kat := ladd c x.kat })))) ∧
      (s.vlt.drbgRun = false ∨ s.ring r = .asleep → exec (.maskSeed c) s = .next s) ∧
      ((s.core c).inService = true → exec (.maskStarved c) s = .next (dealAll (raise0
        (((coreOut s c).modCore c (fun x => { x with seeded := false })).inc Reg.FRM_MASK_STALLS) 0x3003 c))) ∧
      ((s.core c).inService = false → exec (.maskStarved c) s = .next s) ∧
      (s.ctr Reg.FRM_REDEALT + (s.core c).queue.length < 2 ^ 48 →
        (coreOut s c).core c = { (s.core c).wipe with inService := false, queue := [] } ∧
        (coreOut s c).ctr Reg.FRM_REDEALT = s.ctr Reg.FRM_REDEALT + (s.core c).queue.length) ∧
      (s.inTest c = true →
        let t := s.modFrm (fun x => { x with kat := ldel c x.kat, restore := ldel c x.restore })
        exec (.katDone c true) s = .next (dealAll (settleBusy (settleCores (t.modCore c (fun x => { x with inService := true, seeded := true }))) r)) ∧
        exec (.katDone c false) s = .next (dealAll (settleBusy (raise0 ((coreOut t c).inc Reg.FRM_KAT_FAILS) 0x3002 c) r))) ∧
      (s.inTest c = false → exec (.katDone c true) s = .next s ∧ exec (.katDone c false) s = .next s) ∧
      (s.coresServe .enc = false → exec (.noCores .enc) s = .next (raise0 (s.setFlag Reg.FRM_STS_ENC_CORES_OK false) 0x3007 0)) ∧
      (s.coresServe .dec = false → exec (.noCores .dec) s = .next (raise0 (s.setFlag Reg.FRM_STS_DEC_CORES_OK false) 0x3007 1)) ∧
      (∀ d, s.coresServe d = true → exec (.noCores d) s = .next s)) ∧
  (∀ (s : State) (who : Who) (r : Fin 32) (cores : BitVec 16) (slot : BitVec 16) (x : Slot), Serves s who →
      mlook 0 (Reg.FRM_RING_CMD r) s.locks = 0 →
      (s.ring r ≠ .waking → exec (.ringWakeDone r cores) s = .next s) ∧
      (s.ring r = .waking → s.vlt.drbgRun = true → cores = 0xFFFF → s.vlt.requests + 16 < 2 ^ 20 → ∃ u,
        exec (.ringWakeDone r cores) s = .next (dealAll (endTestWake (settleBusy (settleCores u) r) r)) ∧ u.ring r = .awake ∧
        (∀ c ∈ ringCores r, (u.core c).inService = true ∧ (u.core c).seeded = true ∧ (u.core c).queue = []) ∧
        ∀ c, c ∉ ringCores r → u.core c = s.core c) ∧
      (s.ring r = .draining → (ringCores r).all (fun c => decide ((s.core c).queue = [])) = true →
        exec (.ringSleepAck r) s = .next (ringOff s r) ∧ (ringOff s r).ring r = .asleep ∧ ∀ c ∈ ringCores r, (ringOff s r).core c = noCore) ∧
      (s.ring r ≠ .draining ∨ (ringCores r).all (fun c => decide ((s.core c).queue = [])) = false → exec (.ringSleepAck r) s = .next s) ∧
      (s.flag (Reg.FRM_RING_CMD_BUSY r) = true → exec (.ringKat who r cores) s = .next (s.inc Reg.CTL_FAULT_BUSY) ∧
        exec (.ringRestore who r cores) s = .next (s.inc Reg.CTL_FAULT_BUSY)) ∧
      (s.flag (Reg.FRM_RING_CMD_BUSY r) = false →
        (let named := (ringCores r).filter (fun c => nbit cores.toNat (c % 16) && (s.core c).inService)
         s.ring r ≠ .asleep → named ≠ [] → ∃ t, exec (.ringKat who r cores) s = .next t ∧ t.flag (Reg.FRM_RING_CMD_BUSY r) = true ∧
          t.frm = { s.frm with kat := named.foldl (fun l c => ladd c l) s.frm.kat } ∧
          OnlyRegs [Reg.FRM_RING_CMD r] { s with frm := t.frm } t) ∧
        (s.ring r = .asleep → ∃ t, exec (.ringKat who r cores) s = .next t ∧ t.flag (Reg.FRM_RING_CMD_BUSY r) = true ∧
          t.ring r = .waking ∧ r.val ∈ t.frm.testWake ∧ OnlyRegs [Reg.FRM_RING_CMD r] { s with frm := t.frm } t) ∧
        (let named := (ringCores r).filter (fun c => nbit cores.toNat (c % 16) && (!(s.core c).inService && (s.core c).seeded))
         named ≠ [] → ∃ t, exec (.ringRestore who r cores) s = .next t ∧ t.flag (Reg.FRM_RING_CMD_BUSY r) = true ∧
          t.frm = { s.frm with restore := named.foldl (fun l c => ladd c l) s.frm.restore } ∧
          OnlyRegs [Reg.FRM_RING_CMD r] { s with frm := t.frm } t)) ∧
      (let ready := s.frm.cores.filter (fun p => p.2.inService && decide (s.ring (p.1 / 16) = .awake) && s.dataRing (p.1 / 16))
       let busy := (ready.filter (fun p => decide (p.2.queue ≠ []))).length
       let high := s.wakeTh * ready.length < busy * 100 ∨ (ready = [] ∧ s.load .enc + s.load .dec ≠ 0)
       let t := s.modFrm (fun x => { x with lowTicks := if busy * 100 < s.sleepTh * ready.length then x.lowTicks + 1 else 0 })
       let d : Dir := if s.load .enc < s.load .dec then .dec else .enc
       let sleeper := (List.range 32).find? (fun q => decide (s.ring q = .asleep) && s.ringServes q d)
       let goer := (List.range 32).reverse.find? (fun q => decide (s.ring q = .awake) && s.dataRing q &&
         !s.flag (Reg.FRM_RING_CFG_KEEP_AWAKE q) && s.ringMaySleep q)
       let late := max 1 (s.get Reg.FRM_CFG_SLEEP_HOLD_US) ≤ t.frm.lowTicks ∧ s.get Reg.GAF_STS_STATE ≠ 0
       (high → s.frm.wakeAsked ≠ none ∨ sleeper = none → exec .carouselLoadTick s = .next t) ∧
       (high → s.frm.wakeAsked = none → sleeper = some r.val →
         let u := ringWake (t.modFrm (fun x => { x with wakeAsked := some r.val })) r
         exec .carouselLoadTick s = .next u ∧ u.ring r = .waking) ∧
       (¬ high → ¬ late ∨ goer = none → exec .carouselLoadTick s = .next t) ∧
       (¬ high → late → goer = some r.val → exec .carouselLoadTick s = .next (t.setRing r .draining))) ∧
      (mget slot.toNat s.asc.slots = some x → x.verdictDue = true → exec (.gateTimeout slot) s = .next (raise s 0x3004 slot.toNat x.assoc none)) ∧
      (mget slot.toNat s.asc.slots = some x → x.verdictDue = false → exec (.gateTimeout slot) s = .next s) ∧
      (mget slot.toNat s.asc.slots = none → exec (.gateTimeout slot) s = .next s))

/-- Slices return (R41, R295, R302, R303, R312 to R314, R324): the slice at the head of a core's queue is worked on under the
key that the core holds, what it returns goes to the splicer and its block operations are counted, and the core goes on with the
next; a frame whose slices have all returned has its tag formed or checked, and one whose tag is wrong is dropped and counted;
an equal comparison takes the frame on, and a mismatch drops it, counts it, takes both cores out for a test and raises
FRM_CHECK_MISMATCH; the splicer releases a frame only when it may and no earlier frame of its association is held. Cut-through
(R319 to R322): a frame that qualifies begins to leave before its verdict, with a provisional claim on its number and counted in
FRM_CUT_RELEASED; one that does not stays; a slice that is not complete when its first byte is due is counted and fails the
frame; a gated frame, one of 1,024 bytes or less, one with a slice taken for comparison and one of a port without CUT_THROUGH
never qualify. -/
def Obligations.SlicesReturn : Prop :=
  (∀ (s : State) (id i a c : Nat) (f : Frame) (x y : Fin 512), s.running = true →
      (s.sliceCore id i = none → exec (.sliceDone id i) s = .next s) ∧
      (s.sliceCore id i = some c → s.frame? id = some f →
        let o := (s.core c).slice (s.asRec (f.assoc.getD 0)).key256 (frameJob s f) i
        let ctr := match f.dir with | .enc => Reg.FRM_OPS_ENC | .dec => Reg.FRM_OPS_DEC
        let t := ((s.modCore c (fun _ => o.2)).bump ctr ((frameJob s f).counters i).length).modFrame f.id
          (fun g => { g with returned := ladd i g.returned, parts := mput i o.1 g.parts })
        exec (.sliceDone id i) s = .next (dealAll (finishFrame (settleCore (t.modCore c (fun x => { x with queue := x.queue.drop 1 })) c) id))) ∧
      (s.frame? id = none → exec (.dupCheckDone id true x y) s = .next s ∧ exec (.dupCheckDone id false x y) s = .next s ∧
        exec (.splicerRelease id) s = .next (dealAll s) ∧ exec (.cutRelease id) s = .next s ∧ exec (.cutUnderrun id) s = .next s) ∧
      (s.frame? id = some f → f.sampled = 0 → exec (.dupCheckDone id true x y) s = .next s ∧ exec (.dupCheckDone id false x y) s = .next s) ∧
      (s.frame? id = some f → f.sampled ≠ 0 →
        exec (.dupCheckDone id true x y) s = .next (finishFrame (s.modFrame id (fun f => { f with sampled := f.sampled - 1 })) id) ∧
        exec (.dupCheckDone id false x y) s = .next (dealAll (raise ((coreOut (coreOut
          (dropFrame (s.inc Reg.FRM_CHECK_MISMATCH) id (Reg.FRM_CHECK_DROP (f.n % 32))) x) y).modFrm
            (fun z => { z with kat := ladd y (ladd x z.kat) })) 0x3001 x y none))) ∧
      (s.frame? id = some f → f.assoc = some a →
        (s.releasable f = false → f.stage ≠ .lease → exec (.splicerRelease id) s = .next (dealAll s)) ∧
        (s.earlier a id ≠ [] → exec (.splicerRelease id) s = .next (dealAll s)) ∧
        (s.releasable f = true → s.earlier a id = [] → f.dir = .dec →
          exec (.splicerRelease id) s = .next (dealAll (finalCheck (s.mark id 9) f a))) ∧
        (s.releasable f = true → s.earlier a id = [] → f.dir = .enc → f.kind ≠ .extra →
          exec (.splicerRelease id) s = .next (dealAll (depart ((countFrame (s.mark id 9) a (f.plain.length + 4)).mark id 10) id))) ∧
        (f.returned.length = f.slices → f.sampled = 0 → f.tagOk = none →
          let t := (s.mark id 7).mark id 8
          (f.dir = .enc → finishFrame s id = t.modFrame id (fun g => { g with
            plain := noFcs f.bytes, bytes := protectFrame t f, crc := crc32 (protectFrame t f), tagOk := some true })) ∧
          (f.dir = .dec → f.cut = false → (openFrame t f).2 = false →
            finishFrame s id = dropFrame (countTagFail t a) id (Reg.FRM_TAG_FAIL (f.n % 32))) ∧
          (f.dir = .dec → f.cut = false → (openFrame t f).2 = true → finishFrame s id =
            t.modFrame id (fun g => { g with plain := (openFrame t f).1, crc := crc32 (openFrame t f).1, tagOk := some true }))))) ∧
  (∀ (s : State) (id a : Nat) (f : Frame), s.running = true → s.frame? id = some f → f.assoc = some a →
      (s.cutOk f a = true → exec (.cutRelease id) s = .next (joinQueue (
        (((s.inc (Reg.FRM_CUT_RELEASED (f.n % 32))).mark id 10).modAsc (fun x => { x with claims := x.claims ++ [(a, f.pn)] })).modFrame id
          (fun g => { g with cut := true, plain := (openWith s f (foretold s f)).1 })) id)) ∧
      (s.cutOk f a = false → exec (.cutRelease id) s = .next s) ∧
      (f.gated = true ∨ s.pendingKey f = true ∨ clientLength (s.asRec a) f ≤ 1024 ∨
        s.flag (Reg.FRM_PORT_CFG_CUT_THROUGH (f.n % 32)) = false ∨ f.dir = .enc ∨ f.picked = true → s.cutOk f a = false) ∧
      (f.cut = true → f.stage = .sending → f.returned.length < f.slices → exec (.cutUnderrun id) s =
        .next ((s.inc (Reg.FRM_CUT_UNDERRUN (f.n % 32))).modFrame id (fun g => { g with failed := true }))) ∧
      (f.cut = false ∨ f.stage ≠ .sending ∨ f.slices ≤ f.returned.length → exec (.cutUnderrun id) s = .next s))

/-- What is protected opens to itself (R174, R305, R309, R313): for every key, record, packet number and frame that a capsule
can carry, the receiver's construction over the capsule that the transmitter's builds verifies and gives the frame back, and a
capsule whose last 16 bytes differ does not verify. -/
def Obligations.CapsuleOpensToItself : Prop :=
  ∀ (r : Rec) (key : BitVec 256) (pn : Nat) (fr t : List Byte),
    capsuleOpen r key (capsuleProtect r key pn 0 fr) = (fr, true) ∧
    (t.length = 16 → t ≠ (capsuleProtect r key pn 0 fr).drop (16 + fr.length) →
      (capsuleOpen r key ((capsuleProtect r key pn 0 fr).take (16 + fr.length) ++ t)).2 = false)

/-! ### Buffers and scheduling (09) -/

/-- Buffer memory (R146, R331, R332, R334, R336 to R338, R490, R508, R540): a pool's size is written only while nothing is
allocated, else the write is counted in CTL_FAULT_LOCK; a frame whose port pair is quiesced, that the pair role keeps out, that
a power state keeps out or whose egress port is down is dropped into that rule's counter, in that order (the order is the
model's, log 25); an invalid configuration takes nothing; an ordinary frame takes a free buffer of the pool that fits, or is
dropped and counted, and one of a class its chain of cells, or is dropped and counted; a free of what is free already is counted
and raised; a memory error drops its frame, and one that is leaving fails its check or, as a capsule, has its tail voided. -/
def Obligations.BuffersTaken : Prop :=
  ∀ (s : State) (who : Who) (pool : Fin 9) (val addr : Word) (id size p c : Nat) (f : Frame), Serves s who →
    (s.anyHeld = true → exec (.poolCfgWrite who pool val) s = .next (s.inc Reg.CTL_FAULT_LOCK)) ∧
    (s.anyHeld = false → exec (.poolCfgWrite who pool val) s = .next (settlePools (storeReg (poolOff pool) val s))) ∧
    (s.poolsValid = false → s.flag Reg.BPM_STS_CFG_ERR = false → settlePools s = raise0 (s.setFlag Reg.BPM_STS_CFG_ERR true) 0x4003 0) ∧
    (s.poolsValid = true → s.flag Reg.BPM_STS_CFG_ERR = true → settlePools s = s.setFlag Reg.BPM_STS_CFG_ERR false) ∧
    (let t := raise0 (s.inc Reg.BPM_UE) 0x4002 addr.toNat
     let u := t.modFrame id (fun g => { g with memBad := true })
     let v := releaseFrame t id 1
     (t.frame? id = none → exec (.bpmUe id addr) s = .next t) ∧
     (t.frame? id = some f → f.stage = .sending → exec (.bpmUe id addr) s = .next (if u.korEgress f.m then voidTail u f else u)) ∧
     (t.frame? id = some f → f.stage = .queued → exec (.bpmUe id addr) s =
       .next (match f.queue with | some i => policeHead v i | none => v)) ∧
     (t.frame? id = some f → f.stage ≠ .sending → f.stage ≠ .queued → exec (.bpmUe id addr) s = .next v)) ∧
    (s.frame? id = some f →
      (s.quiesced (f.n % 32) = true → takeBuffer s id size none = (false, dropFrame s id (Reg.EVT_QDROP (f.n % 32)))) ∧
      (s.quiesced (f.n % 32) = false → s.forwarding = false → takeBuffer s id size none = (false, dropFrame s id Reg.FAB_STANDBY_DROP)) ∧
      (s.quiesced (f.n % 32) = false → s.forwarding = true → s.admissionOpen = false →
        takeBuffer s id size none = (false, dropFrame s id Reg.GAF_STATE_DROP)) ∧
      (s.quiesced (f.n % 32) = false → s.forwarding = true → s.admissionOpen = true →
        (s.idxUp f.m = false → takeBuffer s id size none = (false, dropFrame s id (downCtr s f.m))) ∧
        (s.idxUp f.m = true →
          (s.flag Reg.BPM_STS_CFG_ERR = true → takeBuffer s id size none = (false, admitDrop s id f.n)) ∧
          (s.flag Reg.BPM_STS_CFG_ERR = false → s.pickPool f.n size = none → takeBuffer s id size none = (false, admitDrop s id f.n)) ∧
          (s.flag Reg.BPM_STS_CFG_ERR = false → s.pickPool f.n size = some p → takeBuffer s id size none =
            (true, ((takeSpots 1 s p).2.modFrame id (fun g => { g with
              owner := f.n, pool := some p, spots := (takeSpots 1 s p).1 })).mark id 3)) ∧
          (let n := (size + 63) / 64
           s.flag Reg.BPM_STS_CFG_ERR = false → size ≤ 2048 → c ≠ clsMgmt →
            (s.cellsTake c n = false → takeBuffer s id size (some c) = (false, cellDrop s id c)) ∧
            (s.cellsTake c n = true → takeBuffer s id size (some c) =
              (true, ((takeSpots n s cellPool).2.modFrame id (fun g => { g with
                owner := f.n, cls := c, cells := n, spots := (takeSpots n s cellPool).1 })).mark id 3)))))) ∧
    (let l := mlook [] p s.sch.inUse
     (takeSpots 1 s p).1 = [lowestFree l] ∧ lowestFree l ∉ l ∧ mlook [] p (takeSpots 1 s p).2.sch.inUse = ladd (lowestFree l) l ∧
     (size ∈ l → mlook [] p (freeSpot s p size).sch.inUse = ldel size l) ∧
     (size ∉ l → freeSpot s p size = raise0 (s.inc Reg.BPM_DOUBLE_FREE) 0x4001 (p * 2 ^ 20 + size)))

/-- Egress (R143, R342, R344, R346, R349 to R352): a port that is down or already sends starts nothing; a frame whose departure
slot has come starts first, else the queue that the round robin serves, else an extra; a slot's frame that is ready starts at
its time, and one that is not misses its slot, which is released and counted; a frame's good end counts it on its port, gives it
to the line or to the port stream, and lets its buffer go. -/
def Obligations.EgressServed : Prop :=
  ∀ (s : State) (m : Fin 64) (crc : Bool) (f : Frame) (d : DepSlot) (i : Nat), s.running = true →
    let due := (s.slotsOf m).find? (fun d => decide (d.start ≤ s.tim.frc.toNat) && (s.frame? d.frame).any (fun f => decide (f.stage = .slotted)))
    (s.idxUp m = false ∨ mget m.val s.sch.sending ≠ none → exec (.egressStart m) s = .next s) ∧
    (s.idxUp m = true → mget m.val s.sch.sending = none →
      (due = some d → s.frame? d.frame = some f → exec (.egressStart m) s = .next (startFrame s m f)) ∧
      (due = none → (drrPick s m).1 = some (i, f) →
        exec (.egressStart m) s = .next (clearDeficit (startFrame (drrPick s m).2 m f) m i)) ∧
      (due = none → (drrPick s m).1 = none → exec (.egressStart m) s = .next (extraStep (drrPick s m).2 m))) ∧
    (s.slotsOf m = [] → exec (.ptpSlotDue m) s = .next s) ∧
    ((s.slotsOf m).find? (fun d => some d.start = s.nextSlot m) = some d → s.frame? d.frame = some f →
      (f.stage = .slotted → s.idxUp m = true → mget m.val s.sch.sending = none → exec (.ptpSlotDue m) s = .next (startFrame s m f)) ∧
      (f.stage ≠ .slotted → exec (.ptpSlotDue m) s = .next (markMissed (countMiss (dropSlot s m f.id) m) f.id))) ∧
    (mget m.val s.sch.sending = none → exec (.txFrameDone m crc) s = .next s) ∧
    ((mget m.val s.sch.sending).bind s.frame? = some f → f.cut = true → f.tagOk = none → f.failed = false →
      exec (.txFrameDone m crc) s = .next s) ∧
    ((mget m.val s.sch.sending).bind s.frame? = some f → f.cut = false → f.kind = .data → f.memBad = false → f.failed = false →
      let t := countHist (countSent s m f.sent.length) m f
      (t.korEgress m = false →
        exec (.txFrameDone m true) s = .next (frameLeft (dealAll (releaseFrame (putFrame t m f.sent false) f.id 0)) m)) ∧
      (t.korEgress m = true →
        exec (.txFrameDone m true) s = .next (frameLeft (dealAll (releaseFrame (endCapsule t (m.val % 32) f false) f.id 0)) m)))

/-- Shapers, the map and histograms (R343, R345, R347, R359, R584): SHP_WRITE stores a shaper's next setting and SHP_READ shows
it with its tokens; a refill puts the setting in force, adds RATE and clips at the burst, and fills a shaper whose EN rises;
MAP_WRITE binds or unbinds an association and MAP_READ shows the binding; SNAP copies the live histogram to the read bank and
clears it. A command while its register's BUSY is 1 is counted in CTL_FAULT_BUSY and does nothing else. -/
def Obligations.ShapersServe : Prop :=
  ∀ (s : State) (who : Who) (i : BitVec 16) (a : BitVec 20) (m : Fin 64) (x : Shaper), Serves s who →
    mlook 0 Reg.SCH_SHP_CMD s.locks = 0 → mlook 0 Reg.SCH_MAP_CMD s.locks = 0 → mlook 0 Reg.SCH_HIST_CMD s.locks = 0 →
    let refused (c : Instr) : Prop := exec c s = .next (s.inc Reg.CTL_FAULT_BUSY)
    (s.flag Reg.SCH_SHP_CMD_BUSY = true → refused (.shpWrite who i) ∧ refused (.shpRead who i)) ∧
    (s.flag Reg.SCH_MAP_CMD_BUSY = true → refused (.mapWrite who true a) ∧ refused (.mapWrite who false a) ∧ refused (.mapRead who a)) ∧
    (s.flag Reg.SCH_HIST_CMD_BUSY = true → refused (.histSnap who m)) ∧
    (s.flag Reg.SCH_SHP_CMD_BUSY = false →
      (∃ t, exec (.shpWrite who i) s = .next t ∧
        t.shaper i.toNat = { s.shaper i.toNat with next0 := s.rd Reg.SCH_SHP_DATA0, next1 := s.rd Reg.SCH_SHP_DATA1 } ∧
        (∀ j, j ≠ i.toNat → t.shaper j = s.shaper j) ∧
        OnlyRegs [Reg.SCH_SHP_CMD] { s with sch := { s.sch with shapers := t.sch.shapers } } t) ∧
      (∃ t, exec (.shpRead who i) s = .next t ∧ t.rd Reg.SCH_SHP_DATA0 = (s.shaper i.toNat).next0 ∧
        t.rd Reg.SCH_SHP_DATA1 = (s.shaper i.toNat).next1 ∧ t.rd Reg.SCH_SHP_TOKENS = BitVec.ofInt 32 (s.shaper i.toNat).tokens ∧
        OnlyRegs [Reg.SCH_SHP_CMD, Reg.SCH_SHP_DATA0, Reg.SCH_SHP_DATA1, Reg.SCH_SHP_TOKENS] s t)) ∧
    (∃ t, exec .shaperRefill s = .next t ∧
      t = { s with sch := { s.sch with shapers := t.sch.shapers, portShapers := t.sch.portShapers, profiles := t.sch.profiles } } ∧
      (mget i.toNat s.sch.shapers = some x → x.refill ≠ noShaper → t.shaper i.toNat = x.refill)) ∧
    (x.next0 = x.data0 → x.next1 = x.data1 → x.refill.tokens = min (x.cap : Int) (x.tokens + x.rate)) ∧
    (x.refill.data0 = x.next0 ∧ x.refill.data1 = x.next1) ∧
    (x.en = false → x.refill.en = true → x.refill.tokens = x.refill.cap) ∧
    (s.flag Reg.SCH_MAP_CMD_BUSY = false →
      (∃ t, exec (.mapWrite who true a) s = .next t ∧ mget a.toNat t.sch.map = some (s.get Reg.SCH_MAP_DATA_SHAPER) ∧
        (∀ b, b ≠ a.toNat → mget b t.sch.map = mget b s.sch.map) ∧
        OnlyRegs [Reg.SCH_MAP_CMD] { s with sch := { s.sch with map := t.sch.map } } t) ∧
      (∃ t, exec (.mapWrite who false a) s = .next t ∧ mget a.toNat t.sch.map = none ∧
        (∀ b, b ≠ a.toNat → mget b t.sch.map = mget b s.sch.map) ∧
        OnlyRegs [Reg.SCH_MAP_CMD] { s with sch := { s.sch with map := t.sch.map } } t) ∧
      (∃ t, exec (.mapRead who a) s = .next t ∧ t.flag Reg.SCH_MAP_CMD_VALID = (mget a.toNat s.sch.map).isSome ∧
        t.get Reg.SCH_MAP_DATA_SHAPER = (mget a.toNat s.sch.map).getD 0 % 65536 ∧ OnlyRegs [Reg.SCH_MAP_CMD, Reg.SCH_MAP_DATA] s t)) ∧
    (s.flag Reg.SCH_HIST_CMD_BUSY = false →
      let h := mlook noHist m.val s.sch.hist
      ∃ t, exec (.histSnap who m) s = .next t ∧ mget m.val t.sch.hist = none ∧
        (∀ b < 32, t.ctr (Reg.SCH_HIST_BIN m b) = mlook 0 b h.bins % 2 ^ 48) ∧
        (∀ c, (∀ b < 32, c ≠ Reg.SCH_HIST_BIN m b) → t.ctr c = s.ctr c) ∧
        t.rd (Reg.SCH_HIST_MIN m) = w32 (min h.least 0xFFFFFFFF) ∧ t.rd (Reg.SCH_HIST_MAX m) = w32 (min h.most 0xFFFFFFFF) ∧
        (∀ j, j ≠ m.val → mget j t.sch.hist = mget j s.sch.hist) ∧
        OnlyRegs [Reg.SCH_HIST_CMD, Reg.SCH_HIST_MIN m, Reg.SCH_HIST_MAX m]
          { s with sch := { s.sch with hist := t.sch.hist }, cnt := { s.cnt with vals := t.cnt.vals } } t)

/-! ### Time (10) -/

/-- Discipline (R365 to R368, R371, R374, R389, R584): a write of TIM_RATE takes the rate, at most 1,099,511,628 in magnitude,
and T does not step; SET gives T the staged value, with VALID and LOCKED from FREE, and ADD moves T by the staged amount, either
way; both set STEPPED and raise TIM_STEP, and a forward step fires the dissolve phases and latches the dailies that it passes; a
command whose NS is a second or more, or that would take T out of its range, leaves time alone; one while BUSY is 1 is counted.
A discipline write ends HOLDOVER with TIM_HOLDOVER_END, for PPS_LOST only once an edge has been seen since. -/
def Obligations.TimeDisciplined : Prop :=
  ∀ (s : State) (who : Who) (rate : Word) (t0 : Int), Serves s who → mlook 0 Reg.TIM_RATE s.locks = 0 → mlook 0 Reg.TIM_ADJ_CMD s.locks = 0 →
    let ns := (s.rd Reg.TIM_ADJ_NS).toNat
    let value : Int := ((s.adjSec * 1000000000 + ns : Nat) : Int) * 2 ^ 42
    let sum := if s.flag Reg.TIM_ADJ_SEC_HI_NEG then s.nowUnits - value else s.nowUnits + value
    let late := s.get Reg.TIM_STS_STATE = 2 ∧ (s.get Reg.TIM_STS_REASON ≠ 2 ∨ s.tim.ppsSinceHold = true)
    let noted := s.modTim (fun x => { x with lastDisc := some s.clk })
    (∃ u, exec (.timRateWrite who rate) s = .next (discipline u) ∧ u.nowUnits = s.nowUnits ∧ u.tim.rate = rateOf rate ∧
      u.rd Reg.TIM_RATE = rate ∧ OnlyRegs [Reg.TIM_RATE] { s with tim := u.tim } u) ∧
    (-1099511628 ≤ rateOf rate ∧ rateOf rate ≤ 1099511628) ∧
    (¬ late → discipline s = noted) ∧
    (late → ∃ u, discipline s = raise0 u 0x0502 0 ∧ u.get Reg.TIM_STS_STATE = 1 ∧ u.get Reg.TIM_STS_REASON = 0 ∧
      u.rd Reg.TIM_ERR_BOUND = 0 ∧ OnlyRegs [Reg.TIM_STS, Reg.TIM_ERR_BOUND]
        (noted.modTim (fun x => { x with holdStart := none, holdSec := s.holdSeconds })) u) ∧
    (s.flag Reg.TIM_ADJ_CMD_BUSY = true →
      exec (.timSet who) s = .next (s.inc Reg.CTL_FAULT_BUSY) ∧ exec (.timAdd who) s = .next (s.inc Reg.CTL_FAULT_BUSY)) ∧
    (s.flag Reg.TIM_ADJ_CMD_BUSY = false →
      (ns < 1000000000 → ∃ u, exec (.timSet who) s = .next (stepTime u value) ∧ u.flag Reg.TIM_STS_VALID = true ∧
        u.get Reg.TIM_STS_STATE = (if s.get Reg.TIM_STS_STATE = 0 then 1 else s.get Reg.TIM_STS_STATE) ∧
        OnlyRegs [Reg.TIM_ADJ_CMD, Reg.TIM_STS] s u) ∧
      (1000000000 ≤ ns → ∃ t, exec (.timSet who) s = .next t ∧ OnlyRegs [Reg.TIM_ADJ_CMD] s t) ∧
      (ns < 1000000000 → 0 ≤ sum → sum < 2 ^ 48 * 1000000000 * 2 ^ 42 →
        ∃ u, exec (.timAdd who) s = .next (stepTime u sum) ∧ OnlyRegs [Reg.TIM_ADJ_CMD] s u) ∧
      (1000000000 ≤ ns ∨ sum < 0 ∨ 2 ^ 48 * 1000000000 * 2 ^ 42 ≤ sum →
        ∃ t, exec (.timAdd who) s = .next t ∧ OnlyRegs [Reg.TIM_ADJ_CMD] s t)) ∧
    ((rebase s t0).nowUnits = t0) ∧
    (let u := raise0 ((discipline (rebase s t0)).setFlag Reg.TIM_STS_STEPPED true) 0x0503 0
     stepTime s t0 = if s.nowUnits < t0 then dailiesStep s.nowSec (catchUp u) else u)

/-- Holdover, 1PPS and captures (R369, R371 to R373, R377, R378, R387, R389): a discipline timeout in LOCKED with a limit set,
and no discipline write in the same clock, enters HOLDOVER with reason TIMEOUT and 1.5 s without an edge, with PPS_REF, with
reason PPS_LOST, each raising TIM_HOLDOVER; elsewhere neither acts. An edge that was high for 100 ns counts and, enabled, is
captured into a channel of sixteen, a further one setting OVF with its event; a pop answers the oldest capture and removes it; a
read of TIM_NOW_NS latches the seconds for its path; PPS_OUT follows its edges while it runs; the crystal's offset is kept. Held
Follow_Ups and the dailies (R198, R385, R386, R554): a Follow_Up whose wait ends goes on unchanged and its entry is lost and
counted, as is the oldest fixed entry that no Follow_Up came for; with neither, nothing changes. The dailies of a second that is
later than the last one latched are latched on every port, the seconds between them being unavailable; a second that is not
later changes nothing, and nor does any while the device is dormant. -/
def Obligations.TimeHeld : Prop :=
  (∀ (s : State) (who : Who) (ns : Nat) (off : Word) (x : Capture) (xs : List Capture), s.running = true → s.dormant = false →
      let once := s.get Reg.TIM_STS_STATE = 1 ∧ s.get Reg.TIM_CFG_HOLD_TIMEOUT_MS ≠ 0 ∧ s.tim.lastDisc ≠ some s.clk
      (once → exec .holdoverTimeout s = .next (enterHoldover s 1)) ∧
      (¬ once → exec .holdoverTimeout s = .next s) ∧
      (let t := s.modTim (fun x => { x with lastPps := none })
       (s.get Reg.TIM_STS_STATE = 1 → s.flag Reg.TIM_CFG_PPS_REF = true → exec .ppsLost s = .next (enterHoldover t 2)) ∧
       (s.get Reg.TIM_STS_STATE ≠ 1 ∨ s.flag Reg.TIM_CFG_PPS_REF = false → exec .ppsLost s = .next t)) ∧
      (∀ why : Fin 4, s.get Reg.TIM_STS_STATE = 1 → ∃ u, enterHoldover s why = raise0 u 0x0501 0 ∧ u.get Reg.TIM_STS_STATE = 2 ∧
        u.get Reg.TIM_STS_REASON = why ∧ OnlyRegs [Reg.TIM_STS] (s.modTim (fun x => { x with
          holdStart := some s.tim.frc.toNat, holdSec := 0, ppsSinceHold := false })) u) ∧
      (ns < 100 → exec (.ppsInEdge ns) s = .next s ∧ exec (.timeEventEdge ns) s = .next s) ∧
      (100 ≤ ns →
        (let t := s.modTim (fun x => { x with lastPps := some s.clk, ppsSinceHold := true })
         exec (.ppsInEdge ns) s = .next (if s.flag Reg.TIM_CFG_CAP_PPS_EN then capture t 0 else t)) ∧
        exec (.timeEventEdge ns) s = .next (if s.flag Reg.TIM_CFG_CAP_EVT_EN then capture s 1 else s)) ∧
      (let now : Capture := { ns := w32 s.nowSub, sec := BitVec.ofNat 48 s.nowSec }
       (s.tim.cap0.length < 16 → capture s 0 = s.modTim (fun t => { t with cap0 := t.cap0 ++ [now] })) ∧
       (s.tim.cap1.length < 16 → capture s 1 = s.modTim (fun t => { t with cap1 := t.cap1 ++ [now] })) ∧
       (16 ≤ s.tim.cap0.length → capture s 0 = raise0 (s.modTim (fun t => { t with ovf0 := true })) 0x0505 0) ∧
       (16 ≤ s.tim.cap1.length → capture s 1 = raise0 (s.modTim (fun t => { t with ovf1 := true })) 0x0505 1)) ∧
      (s.tim.cap0 = x :: xs → exec (.timCapPop who 0) s =
        .next ((s.modTim (fun t => { t with cap0 := xs })).emit (.readData who.path x.ns))) ∧
      (s.tim.cap1 = x :: xs → exec (.timCapPop who 1) s =
        .next ((s.modTim (fun t => { t with cap1 := xs })).emit (.readData who.path x.ns))) ∧
      (s.tim.cap1 = [] → exec (.timCapPop who 1) s = .next (s.emit (.readData who.path 0))) ∧
      exec (.timNowRead who) s = .next ((s.modPath who.path (fun y => { y with nowSec := BitVec.ofNat 48 s.nowSec })).emit
        (.readData who.path (w32 s.nowSub))) ∧
      (s.ppsRuns = true → s.tim.ppsOut = false →
        exec (.ppsOutEdge true) s = .next ((s.modTim (fun t => { t with ppsOut := true })).emit (.ppsEdge true))) ∧
      (s.tim.ppsOut = true → exec (.ppsOutEdge false) s = .next ((s.modTim (fun t => { t with ppsOut := false })).emit (.ppsEdge false))) ∧
      (s.ppsRuns = false → s.tim.ppsOut = false → exec (.ppsOutEdge true) s = .next s) ∧
      (∃ t, exec (.xtalCalDone off) s = .next t ∧ t.rd Reg.TIM_XTAL_CAL = off ∧
        OnlyRegs [Reg.TIM_XTAL_CAL] (s.modTim (fun x => { x with xtalOffset := off })) t)) ∧
  (∀ (s : State) (id : Nat) (f : Frame) (x : Follow) (sec : BitVec 48), s.running = true →
      (s.frame? id = none → exec (.fuWaitTimeout (some id)) s = .next s) ∧
      (s.frame? id = some f → f.stage ≠ .follow → exec (.fuWaitTimeout (some id)) s = .next s) ∧
      (s.frame? id = some f → f.stage = .follow → s.sch.follows.find? (fun x => x.has (ptpKey f.plain) f.m) = some x →
        exec (.fuWaitTimeout (some id)) s = .next (resumeFollow (fuLost (dropFollow s x.order) f.m) id none)) ∧
      (s.sch.follows.find? (fun x => x.err.isSome) = some x → exec (.fuWaitTimeout none) s = .next (fuLost (dropFollow s x.order) x.egress)) ∧
      (s.sch.follows.find? (fun x => x.err.isSome) = none → exec (.fuWaitTimeout none) s = .next s) ∧
      (∀ last : BitVec 48, s.tim.dailySec = some last → sec ≤ last → exec (.dailiesLatch sec) s = .next s) ∧
      (s.dormant = true → exec (.dailiesLatch sec) s = .next s) ∧
      (s.dormant = false → s.tim.dailySec = none → exec (.dailiesLatch sec) s =
        .next (((List.range 64).foldl (dailyPortLatch sec.toNat 0) s).modTim (fun t => { t with dailySec := some sec }))) ∧
      (∀ last : BitVec 48, s.dormant = false → s.tim.dailySec = some last → last < sec → exec (.dailiesLatch sec) s =
        .next (((List.range 64).foldl (dailyPortLatch sec.toNat (sec.toNat - last.toNat - 1)) s).modTim (fun t => { t with dailySec := some sec }))))

/-! ### The memory guard (11) -/

/-- Guarded accesses (R396, R402, R404, R409, R414 to R418, R428): an access to a line that no served region holds changes
nothing; a write leaves its bytes in its line and every other line as it was, and a partial one of a line that cannot be read
fails and leaves it; a good read delivers the line, unless it is unreadable, a pager's that runs ahead of its verdict being
counted; a corrected one is written back, counted and, the first, raised; wrong data makes the line unreadable, is counted and
raises MGD_UE_DATA, and a tree that fails fills MGD_HALT_REC and raises its event; two takings of a verdict that pass release
the key that waits for them, and a failed or disputed one fills MGD_HALT_REC with the level and the place and raises
MGD_MAC_MISMATCH or MGD_VERDICT_DISAGREE. -/
def Obligations.MemoryGuarded : Prop :=
  ∀ (s : State) (c : MemClient) (line place : Nat) (data : List Byte) (ecc : Ecc) (lvl : Byte) (a : BitVec 20) (i : Nat) (x : Slot) (m : MemRead)
    (miss t1 t2 : Bool), s.running = true → DomainsOn s memDoms →
    let reads (ecc : Ecc) (miss : Bool) (t : State) : Prop := exec (.mgdReadComplete c line ecc lvl miss) s = .next t
    (s.reachable line = false → reads ecc miss s) ∧
    (s.reachable line = true →
      reads .ueTree false (raise0 (haltRec s 0x6002 lvl.toNat line) 0x6002 0) ∧
      reads .ueData false (raise0 ((s.modMgd (fun m => { m with badLines := ladd line m.badLines })).inc Reg.MGD_UE_DATA_COUNT) 0x6005 0) ∧
      (line ∈ s.mgd.badLines → reads .good false s ∧ reads .good true (s.inc Reg.MGD_TREE_MISSES)) ∧
      (line ∉ s.mgd.badLines →
        (c ≠ .pager ∨ s.flag Reg.MGD_CFG_SPEC_EN = false → reads .good false (s.emit (.memData c line (s.lineAt line)))) ∧
        (c = .pager → s.flag Reg.MGD_CFG_SPEC_EN = true → Room s Reg.MGD_SPEC_READS →
          reads .good false ((s.inc Reg.MGD_SPEC_READS).emit (.memData c line (s.lineAt line))))) ∧
      (s.mgd.lastCe = none → let t := s.modMgd (fun m => { m with lastCe := some s.clk })
        reads .correctable false (raise0 (deliverLine
          ((t.inc Reg.MGD_CE_COUNT).store (t.pathOffset lvl.toNat line) (t.pathLine lvl.toNat line)) c line) 0x6006 0))) ∧
    (s.reachable (place / 64) = false → exec (.mgdWriteComplete c place data) s = .next s) ∧
    (s.reachable (place / 64) = true → ∃ t, exec (.mgdWriteComplete c place data) s = .next t ∧
      (∀ j, j ≠ place / 64 → t.lineAt j = s.lineAt j) ∧
      (place / 64 ∈ s.mgd.badLines → data.length < 64 → t.lineAt (place / 64) = s.lineAt (place / 64) ∧
        ∃ u, u = readFails s ∧ t = { u with asc := { u.asc with recs := t.asc.recs } }) ∧
      (place / 64 ∉ s.mgd.badLines ∨ 64 ≤ data.length →
        t.lineAt (place / 64) = padTo 64 ((splice (s.lineAt (place / 64)) (place % 64) data).take 64) ∧ place / 64 ∉ t.mgd.badLines)) ∧
    (t1 ≠ t2 → exec (.memVerdict a t1 t2 m lvl) s = .next (raise0 (haltRec s 0x6003 lvl.toNat m.line) 0x6003 0)) ∧
    (s.authentic lvl.toNat m ≠ t1 → exec (.memVerdict a t1 t1 m lvl) s = .next (raise0 (haltRec s 0x6001 lvl.toNat m.line) 0x6001 0)) ∧
    (s.authentic lvl.toNat m = t1 →
      (s.slotOf a.toNat = some (i, x) → exec (.memVerdict a t1 t1 m lvl) s = .next (s.modSlot i (fun y => { y with verdictDue := false }))) ∧
      (s.slotOf a.toNat = none → exec (.memVerdict a t1 t1 m lvl) s = .next s)) ∧
    (∀ ev, ev < 2 ^ 16 → let t := haltRec s ev lvl.toNat line
      t.flag Reg.MGD_HALT_REC_VALID = true ∧ t.get Reg.MGD_HALT_REC_EVENT = ev ∧ t.get Reg.MGD_HALT_REC_LEVEL = lvl.toNat ∧
      t.rd Reg.MGD_HALT_REC1 = w32 (s.pathOffset lvl.toNat line) ∧ t.rd Reg.MGD_HALT_REC2 = w32 (s.pathOffset lvl.toNat line / 2 ^ 32) ∧
      OnlyRegs [Reg.MGD_HALT_REC, Reg.MGD_HALT_REC1, Reg.MGD_HALT_REC2] s t)

/-- Changeover and the seal (R401, R406, R420, R422 to R424, R426, R584): START of region 0 is refused, as is one of a region
that is not in service or whose GEN is at its end, and one of a queued region is ignored; one while another changes over is
queued; else the region goes to CHANGEOVER with GEN one higher; one while BUSY is 1 is counted. A page's step without a
changeover changes nothing; the next written page is converted, its MAJOR rising and its lines staying, and the boundary moves
behind it; past the last written page the boundary goes to the region's end. A seal in reset or after a halt writes back and
sets SEALED where it still can, and sets POISON when it fails; a running device does not seal. -/
def Obligations.RegionsChangeOver : Prop :=
  ∀ (s : State) (who : Who) (r : BitVec 3) (ok : Bool) (p : Nat) (blk : CtrBlock),
    let k := r.toNat
    (Serves s who → mlook 0 Reg.MGD_CHG_CMD s.locks = 0 →
      (s.flag Reg.MGD_CHG_CMD_BUSY = true → exec (.chgStart who r) s = .next (s.inc Reg.CTL_FAULT_BUSY)) ∧
      (s.flag Reg.MGD_CHG_CMD_BUSY = false →
        (k ∈ s.mgd.chgQueue → ∃ t, exec (.chgStart who r) s = .next t ∧ OnlyRegs [Reg.MGD_CHG_CMD] s t) ∧
        (k ∉ s.mgd.chgQueue →
          (k = 0 → ∃ t, exec (.chgStart who r) s = .next t ∧ t.get Reg.MGD_CHG_STS_RESULT = 1 ∧
            OnlyRegs [Reg.MGD_CHG_CMD, Reg.MGD_CHG_STS] s t) ∧
          (k ≠ 0 → s.rgnState k ≠ 2 ∨ s.mgd.keysGone = true → ∃ t, exec (.chgStart who r) s = .next t ∧
            t.get Reg.MGD_CHG_STS_RESULT = 2 ∧ OnlyRegs [Reg.MGD_CHG_CMD, Reg.MGD_CHG_STS] s t) ∧
          (k ≠ 0 → s.rgnState k = 2 → s.mgd.keysGone = false →
            (s.get (Reg.MGD_RGN_STS_GEN k) = 65535 → ∃ t, exec (.chgStart who r) s = .next t ∧
              t.get Reg.MGD_CHG_STS_RESULT = 3 ∧ OnlyRegs [Reg.MGD_CHG_CMD, Reg.MGD_CHG_STS] s t) ∧
            (s.get (Reg.MGD_RGN_STS_GEN k) < 65535 → s.flag Reg.MGD_STS_CHG_ACTIVE = true →
              ∃ t, exec (.chgStart who r) s = .next t ∧ t.get Reg.MGD_CHG_STS_RESULT = 4 ∧ t.mgd.chgQueue = s.mgd.chgQueue ++ [k] ∧
                t.flag (Reg.MGD_RGN_STS_QUEUED k) = true ∧ t.rgnState k = 2) ∧
            (s.get (Reg.MGD_RGN_STS_GEN k) < 65535 → s.flag Reg.MGD_STS_CHG_ACTIVE = false →
              ∃ t, exec (.chgStart who r) s = .next t ∧ t.get Reg.MGD_CHG_STS_RESULT = 0 ∧ t.get Reg.MGD_CHG_STS_REGION = k ∧
                t.flag Reg.MGD_STS_CHG_ACTIVE = true ∧ t.rgnState k = 3 ∧
                t.get (Reg.MGD_RGN_STS_GEN k) = s.get (Reg.MGD_RGN_STS_GEN k) + 1 ∧ t.mgd.lines = s.mgd.lines))))) ∧
    (s.running = true →
      let c := s.get Reg.MGD_CHG_STS_REGION
      let first := s.rgnBase c * 512
      let n := s.rgnSize c * 512
      let next := s.mgd.ctrs.find? (fun e => decide (first + s.get Reg.MGD_CHG_STS_BOUNDARY ≤ e.1) && decide (e.1 < first + n))
      (s.flag Reg.MGD_STS_CHG_ACTIVE = false ∨ s.mgd.keysGone = true → exec .chgPage s = .next s) ∧
      (s.flag Reg.MGD_STS_CHG_ACTIVE = true → s.mgd.keysGone = false →
        (next = none → exec .chgPage s = .next (chgDone (s.set Reg.MGD_CHG_STS_BOUNDARY n) c)) ∧
        (next = some (p, blk) → Room s Reg.MGD_CHG_PAGES → ∃ u,
          exec .chgPage s = .next (if p - first + 1 = n then chgDone u c else u) ∧
          mget p u.mgd.ctrs = some (convertBlock blk) ∧ p ∈ u.mgd.dirty ∧ u.mgd.lines = s.mgd.lines ∧
          u.ctr Reg.MGD_CHG_PAGES = s.ctr Reg.MGD_CHG_PAGES + 1 ∧
          u.regs = (s.set Reg.MGD_CHG_STS_BOUNDARY (p - first + 1)).regs))) ∧
    ((convertBlock blk).major = blk.major + 1 ∧ ∀ l < 64, (∀ q < 64, blk.minor q ≠ 127) → (convertBlock blk).minor l = blk.minor l + 1) ∧
    (s.ctl.cond ≠ .halted → s.ctl.cond ≠ .reset → exec (.seal ok) s = .next s) ∧
    ((s.ctl.cond = .halted ∨ s.ctl.cond = .reset) → s.mgd.ret.isSealed = false → s.mgd.ret.poison = false → s.mgd.ret.crcOk = true →
      exec (.seal true) s = .next ((writeBackAll s).modRet (fun t => { t with isSealed := true })) ∧
      exec (.seal false) s = .next (raise0 (s.modRet (fun t => { t with poison := true })) 0x600B 0)) ∧
    (s.mgd.dirty = [] → writeBackAll s = s) ∧ (writeBackAll s).mgd.dirty = [] ∧
    (s.mgd.ret.isSealed = true ∨ s.mgd.ret.poison = true ∨ s.mgd.ret.crcOk = false → exec (.seal ok) s = .next s)

/-! ### The key vault and the utility cipher engine (12) -/

/-- Vault commands (R458, R468, R471, R584): while one is in progress a further one is counted in CTL_FAULT_BUSY; else BUSY is
set and the answer waits; its end shows the result, loads its words into VLT_IO, clears the key staging and BUSY, and after a
zeroise shows NO_KEYS and loads no word. A vault without keys, an import that the owner does not permit, and a blob outside the
window are refused by their codes, and nothing is drawn or stored; FETCH answers with the blob of the window, and a blob put
there reads as it was written. -/
def Obligations.VaultCommands : Prop :=
  ∀ (s : State) (who : Who), Serves s who → mlook 0 Reg.VLT_CMD s.locks = 0 →
    let starts (op : Nat) (c : Instr) : Prop :=
      (s.flag Reg.VLT_CMD_BUSY = true → exec c s = .next (s.inc Reg.CTL_FAULT_BUSY)) ∧
      (s.flag Reg.VLT_CMD_BUSY = false → ∃ u, OnlyRegs [Reg.VLT_CMD] s u ∧ u.flag Reg.VLT_CMD_BUSY = true ∧ u.get Reg.VLT_CMD_OP = op ∧
        let a := vaultAnswer u op
        exec c s = .next { a.2 with vlt := { a.2.vlt with
          op := some { result := a.1.1, writes := a.1.2.zipIdx.map (fun p => (Reg.VLT_IO p.2, p.1)), who := who } } })
    starts 1 (.vltGenerate who) ∧ starts 2 (.vltImport who) ∧ starts 3 (.vltStore who) ∧ starts 4 (.vltFetch who) ∧
    starts 5 (.vltAttest who) ∧
    (s.vlt.op = none → exec .vltCmdDone s = .next s) ∧
    (∀ (r : Fin 8) (ws : List Word), ws.length ≤ 90 →
      s.vlt.op = some { result := r, writes := ws.zipIdx.map (fun p => (Reg.VLT_IO p.2, p.1)), who := who } →
      ∃ t, exec .vltCmdDone s = .next t ∧
        t.flag Reg.VLT_CMD_BUSY = false ∧ t.get Reg.VLT_CMD_RESULT = (if s.flag Reg.VLT_STS_ZEROISED then 6 else r.val) ∧
        (∀ i < 90, t.rd (Reg.VLT_IO i) = if s.flag Reg.VLT_STS_ZEROISED then s.rd (Reg.VLT_IO i) else ws.getD i (s.rd (Reg.VLT_IO i))) ∧
        (∀ i < 17, t.rd (Reg.VLT_KEY_STAGE i) = 0) ∧ t = { s with regs := t.regs, vlt := { s.vlt with op := none } }) ∧
    (∀ op, s.vaultServes op = false → vaultAnswer s op = ((6, []), s)) ∧
    (s.vaultServes 2 = true → importEn s.vlt = false → vaultAnswer s 2 = ((3, []), s)) ∧
    (s.vaultServes 3 = true → s.blobInside (s.get Reg.VLT_OFFSET_OFFSET) = false →
      vaultAnswer s 3 = ((2, []), s) ∧ vaultAnswer s 4 = ((2, []), s)) ∧
    (s.vaultServes 4 = true → s.blobInside (s.get Reg.VLT_OFFSET_OFFSET) = true →
      vaultAnswer s 4 = ((0, bytesWords 32 (s.blobAt (s.get Reg.VLT_OFFSET_OFFSET))), s)) ∧
    (∀ off b, b.length = 128 → s.ctr Reg.MGD_MINOR_OVF + 2 < 2 ^ 48 → (putBlob s off b).blobAt off = b)

/-- Entropy (R430, R432, R433): a health failure clears ENTROPY_OK, is counted and raises ENTROPY_FAIL, and a command in
progress that needs random values ends with NO_ENTROPY and no word; a repeated test that passes restores service after a reseed;
VLT_RANDOM answers a fresh value while ENTROPY_OK is set and 0 otherwise; the re-masking of the battery-backed secret changes
both of its shares by one mask, and keeps its value. -/
def Obligations.EntropyServes : Prop :=
  ∀ (s : State) (who : Who), Awake s →
    (s.flag Reg.VLT_STS_ENTROPY_OK = true → s.vlt.op = none →
      exec .entropyFail s = .next (raise0 ((s.setFlag Reg.VLT_STS_ENTROPY_OK false).inc Reg.VLT_ENTROPY_FAILS) 0x0601 0)) ∧
    (∀ p, s.flag Reg.VLT_STS_ENTROPY_OK = true → s.vlt.op = some p → p.result = 0 → s.get Reg.VLT_CMD_OP ∈ [1, 2, 5] →
      exec .entropyFail s = .next (raise0 (((s.setFlag Reg.VLT_STS_ENTROPY_OK false).modVlt (fun v => { v with
        op := some { p with result := 5, writes := [] } })).inc Reg.VLT_ENTROPY_FAILS) 0x0601 0)) ∧
    (s.flag Reg.VLT_STS_ENTROPY_OK = false → exec .entropyFail s = .next s ∧ exec .drbgReseed s = .next s ∧
      exec (.vltRandomRead who) s = .next (s.emit (.readData who.path 0))) ∧
    (s.flag Reg.VLT_STS_ENTROPY_OK = false → s.vlt.drbgRun = true → exec (.entropyRetest true) s = .next
      (((s.setFlag Reg.VLT_STS_ENTROPY_OK true).modVlt (fun v => { v with requests := 0 })).inc Reg.VLT_DRBG_RESEEDS)) ∧
    (exec (.entropyRetest false) s = .next s) ∧
    (s.flag Reg.VLT_STS_ENTROPY_OK = true → s.vlt.drbgRun = true →
      exec .drbgReseed s = .next ((s.modVlt (fun v => { v with requests := 0 })).inc Reg.VLT_DRBG_RESEEDS)) ∧
    (s.flag Reg.VLT_STS_ENTROPY_OK = true →
      exec (.vltRandomRead who) s = .next (s.drbg.2.emit (.readData who.path (s.drbg.1.truncate 32)))) ∧
    (∃ (t : State) (m : BitVec 256), exec .bbsRemask s = .next t ∧ t.vlt.secret.value = s.vlt.secret.value ∧
      t.vlt.secret.a = s.vlt.secret.a ^^^ m ∧ t.vlt.secret.b = s.vlt.secret.b ^^^ m ∧
      t = { s with draws := s.draws + 1, vlt := { s.vlt with secret := t.vlt.secret } })

/-- Update messages (R443 to R449, R524, R534): OPEN from the ringmaster empties the message and shows OPEN; its words follow
each other; APPLY takes the signature verdict and goes to APPLYING with BUSY; CLOSE of an open one leaves IDLE with ABORTED, and
after an end IDLE; each is counted in CTL_FAULT_OWNER in a state that does not allow it. A message that a check refuses leaves
FAILED with its code and is counted, a disputed signature raises VERDICT_DISAGREE, burns wait while a rail is in warning, a
zeroised device refuses with ABORTED, and a failed burn refuses with BURN_FAIL. An accepted message runs its steps, leaves DONE,
is counted and raises UPD_DONE; a counter at its end is shown and raised, and a transition resets the device after LC_CHANGED.
What a committed record leaves (R443, R448), and what a transition burns (R438, R439): with neither bank at a later epoch than
the fuses, the inactive bank takes the record and the next count and is valid, the other bank and the fuses stay, and the
counter is one higher. The burns of a message leave its type's fuse burnt, a CLAIM the digest of its key and VALID of the lowest
free slot, a RELEASE RELEASED of the live one, and no other fuse. -/
def Obligations.UpdatesApply : Prop :=
  (∀ (s : State) (who : Who) (len : BitVec 11) (d : Word), Serves s who →
      (s.updState ≠ 1 → s.updState ≠ 2 → ∃ t, exec (.updOpen who len) s = .next t ∧ t.updState = 1 ∧ t.get Reg.VLT_UPD_ADDR_WORD = 0 ∧
        OnlyRegs [Reg.VLT_UPD_ADDR, Reg.VLT_UPD_STS] { s with vlt := { s.vlt with upd := [], updLen := len.toNat } } t) ∧
      (s.updState = 1 ∨ s.updState = 2 → exec (.updOpen who len) s = .next (s.inc Reg.CTL_FAULT_OWNER)) ∧
      (s.updState = 1 → exec (.updData who d) s = .next ((s.modVlt (fun v => { v with
        upd := mput (s.get Reg.VLT_UPD_ADDR_WORD) d v.upd })).set Reg.VLT_UPD_ADDR_WORD (s.get Reg.VLT_UPD_ADDR_WORD + 1))) ∧
      (s.updState ≠ 1 → exec (.updData who d) s = .next (s.inc Reg.CTL_FAULT_OWNER) ∧
        exec (.updApply who) s = .next (s.inc Reg.CTL_FAULT_OWNER)) ∧
      (s.updState = 1 → ∃ t, exec (.updApply who) s = .next t ∧ t.updState = 2 ∧ t.flag Reg.VLT_UPD_STS_BUSY = true ∧
        OnlyRegs [Reg.VLT_UPD_STS] (takeFirst s .update (updVerdict (updMessage s.vlt))) t) ∧
      (s.updState = 1 → ∃ t, exec (.updClose who) s = .next t ∧ t.updState = 0 ∧ t.get Reg.VLT_UPD_STS_RESULT = 11 ∧
        OnlyRegs [Reg.VLT_UPD_STS] s t) ∧
      (s.updState = 2 → exec (.updClose who) s = .next (s.inc Reg.CTL_FAULT_OWNER)) ∧
      (s.updState ≠ 1 → s.updState ≠ 2 → ∃ t, exec (.updClose who) s = .next t ∧ t.updState = 0 ∧
        t.get Reg.VLT_UPD_STS_RESULT = s.get Reg.VLT_UPD_STS_RESULT ∧ OnlyRegs [Reg.VLT_UPD_STS] s t) ∧
      (∀ ok, s.updState ≠ 2 → exec (.updApplyDone ok) s = .next s) ∧
      (∀ ok, s.updState = 2 → s.frozenRails = true → exec (.updApplyDone ok) s = .next (s.setFlag Reg.VLT_UPD_STS_FROZEN true)) ∧
      (∀ ok, s.updState = 2 → s.frozenRails = false → s.zeroised = true →
        exec (.updApplyDone ok) s = .next (dropTaking (updRefuse s 11) .update)) ∧
      (s.updState = 2 → s.frozenRails = false → s.zeroised = false →
        let m := updMessage s.vlt
        let u := dropTaking s .update
        let next := nextCounter (counterOf s.vlt)
        let burns : Prop := byteAt m 5 ≠ 1 ∨ (s.vlt.otp.epoch < next.1 ∧ next.1 ≤ 128)
        (∀ ok, updCheck s m ≠ 0 → updCheck s m ≠ 6 → exec (.updApplyDone ok) s = .next (updRefuse u (updCheck s m))) ∧
        (∀ ok, updCheck s m = 6 → exec (.updApplyDone ok) s = .next (raise0 (updRefuse u 6) 0x0602 0)) ∧
        (updCheck s m = 0 → burns → byteAt m 5 ≠ 2 →
          exec (.updApplyDone false) s = .next (raise0 (updRefuse (showRoot u.draw.2) 10) 0x0607 0)) ∧
        (∀ i, updCheck s m = 0 → byteAt m 5 = 2 → freeSlot s.vlt.otp = some i → ∃ h : BitVec 384,
          exec (.updApplyDone false) s = .next (raise0 (updRefuse (showRoot
            (u.draw.2.modOtp (fun o => { o with ownerHash := mput i h o.ownerHash }))) 10) 0x0607 0)) ∧
        (∀ ok, updCheck s m = 0 → (ok = true ∨ ¬ burns) →
          let v := (showRoot (runSteps (updSteps s.vlt m) u)).wr Reg.VLT_UPD_STS (word [(Reg.VLT_UPD_STS_STATE, 3)])
          let w := raise0 (v.inc Reg.VLT_UPDATES) 0x0603 0
          let x := if counterEnd w.vlt then exhaust w else w
          exec (.updApplyDone ok) s = .next
            (if byteAt m 5 = 1 then x else raise0 (x.modVlt (fun v => { v with lcReset := true })) 0x0604 0)))) ∧
  ((∀ (s : State) (record : List Byte) (b : Bank), currentBank s.vlt = some (false, b) → b.count < 2 ^ 40 - 1 → b.epoch ≤ 128 →
      b.epoch ≤ s.vlt.otp.epoch → record.length = 504 →
      let t := commitBank s record
      t.vlt.bank0 = s.vlt.bank0 ∧ t.vlt.otp = s.vlt.otp ∧ t.vlt.bank1.record = record ∧ bankGood t.vlt.otp t.vlt.bank1 = true ∧
      t.vlt.bank1.slot = BitVec.ofNat 8 (slotByte s.vlt.otp) ∧ counterOf t.vlt = (b.epoch, b.count + 1) ∧
      t = { s with vlt := { s.vlt with bank1 := t.vlt.bank1 } }) ∧
    (∀ (s : State) (m : List Byte),
      let t := runSteps (burnSteps s.vlt m) s
      t = { s with vlt := { s.vlt with otp := t.vlt.otp } } ∧
      (byteAt m 5 = 1 → t = s) ∧
      (byteAt m 5 = 16 → t.vlt.otp = { s.vlt.otp with blank := true }) ∧
      (∀ i, byteAt m 5 = 2 → freeSlot s.vlt.otp = some i → t.vlt.otp = { s.vlt.otp with
        ownerHash := mput i (sha384 (sub m 64 96)) s.vlt.otp.ownerHash, valid := s.vlt.otp.valid ||| BitVec.ofNat 4 (2 ^ i) }) ∧
      (∀ i, byteAt m 5 = 3 → liveSlot s.vlt.otp = some i → t.vlt.otp = { s.vlt.otp with
        released := s.vlt.otp.released ||| BitVec.ofNat 4 (2 ^ i) }) ∧
      (byteAt m 5 = 4 → t.vlt.otp = { s.vlt.otp with ret := true }) ∧
      (byteAt m 5 = 5 → t.vlt.otp = { s.vlt.otp with endFuse := true })))

/-- The utility cipher engine (R459 to R467): a write from a path that is not the channel's party changes nothing; a START
counts, shows READY with its slot in use and the slot's key in the core when no rule refuses it, and else ends in ERROR with its
code; a FEED of a segment within the rules goes to RUNNING with its bytes, and one against the rules ends the operation with its
code; its end gives the output and the tag and goes to READY, and the last to COMPLETE, or the state of a tag or a padding that
fails; a slot erased meanwhile ends it with KEY_GONE; ABORT ends it with ABORTED, and comes too late in the clock of a
completion. -/
def Obligations.CipherChannels : Prop :=
  ∀ (s : State) (who : Who) (c : Fin 2) (last : Bool) (n : BitVec 14), ServesOwn s who →
    let ch := s.chan c
    let slot := s.get (Reg.UCE_MODE_SLOT c)
    let sum := ch.fed.length + n.toNat
    let seqBad : Prop := (ch.mode = 6 ∨ ch.mode = 7) ∧ (last = false ∨ ch.fed ≠ [])
    let lenBad : Prop := 8192 < n.toNat ∨ (last = false ∧ n.toNat % 16 ≠ 0) ∨ ch.total < sum ∨ (last = true ∧ sum ≠ ch.total) ∨
      (ch.mode = 6 ∧ (n.toNat % 8 ≠ 0 ∨ n.toNat < 16)) ∨ (ch.mode = 7 ∧ (n.toNat = 0 ∨ 8176 < n.toNat))
    (partyOf who ≠ c.val → exec (.uceStart who c) s = .next s ∧ exec (.uceFeed who c last n) s = .next s ∧ exec (.uceAbort who c) s = .next s) ∧
    (partyOf who = c.val →
      (startErr s c = 4 → exec (.uceStart who c) s = .next (endOp (s.inc (Reg.UCE_OPS c)) c 8 4)) ∧
      (startErr s c ∈ [1, 2, 3, 5] → Room s (Reg.UCE_OPS c) → Room s (Reg.UCE_FAILS c) → ∃ t, exec (.uceStart who c) s = .next t ∧
        t.uceState c = 8 ∧ t.get (Reg.UCE_STS_ERR c) = startErr s c ∧ t.ctr (Reg.UCE_OPS c) = s.ctr (Reg.UCE_OPS c) + 1 ∧
        t.ctr (Reg.UCE_FAILS c) = s.ctr (Reg.UCE_FAILS c) + 1 ∧ t.vlt = s.vlt) ∧
      (startErr s c = 0 → Room s (Reg.UCE_OPS c) → ∃ t, exec (.uceStart who c) s = .next t ∧ t.uceState c = 2 ∧
        t.ctr (Reg.UCE_OPS c) = s.ctr (Reg.UCE_OPS c) + 1 ∧ (t.chan c).mode = s.get (Reg.UCE_MODE_MODE c) ∧ (t.chan c).fed = [] ∧
        (t.chan c).total = s.uceTotal c ∧ t.vlt.slots = s.vlt.slots ∧
        (keyedMode (s.get (Reg.UCE_MODE_MODE c)) = true → (t.chan c).slot = slot ∧ t.flag (Reg.UCE_SLOT_STS_IN_USE slot) = true ∧
          ∀ k, s.keySlot slot = some k → (t.chan c).core.key.value = k.key.value)) ∧
      (s.uceState c = 2 → seqBad → exec (.uceFeed who c last n) s = .next (endOp s c 8 4)) ∧
      (s.uceState c = 2 → ¬ seqBad → lenBad → exec (.uceFeed who c last n) s = .next (endOp s c 8 2)) ∧
      (s.uceState c = 2 → ¬ seqBad → ¬ lenBad → ∃ t, exec (.uceFeed who c last n) s = .next t ∧ t.uceState c = 1 ∧
        (t.chan c).fed = ch.fed ++ uceIn s c n.toNat ∧ (t.chan c).last = last ∧ OnlyRegs [Reg.UCE_STS c] { s with vlt := t.vlt } t) ∧
      (s.uceState c = 1 → exec (.uceFeed who c last n) s = .next (endOp s c 8 4)) ∧
      (s.uceOpen c = false → exec (.uceFeed who c last n) s = .next s) ∧
      (s.uceOpen c = true → exec (.uceAbort who c) s = .next (endOp s c 4 0)) ∧
      (s.uceState c = 3 → ch.doneAt = some s.clk → exec (.uceAbort who c) s = .next (s.setFlag (Reg.UCE_STS_ABORT_LATE c) true)) ∧
      (s.uceOpen c = false → (s.uceState c ≠ 3 ∨ ch.doneAt ≠ some s.clk) → exec (.uceAbort who c) s = .next s)) ∧
    (s.uceState c ≠ 1 → exec (.uceFeedDone c) s = .next s) ∧
    (DomainsOn s [103] → s.uceState c = 1 →
      (keyedMode ch.mode = true → s.keySlot ch.slot = none → exec (.uceFeedDone c) s = .next (endOp s c 5 0)) ∧
      (∀ k, (keyedMode ch.mode = true ∧ s.keySlot ch.slot = some k) ∨ (keyedMode ch.mode = false ∧ k = noKeySlot) →
        let e := feedEnd s c ch k
        (e.st ≠ 3 → exec (.uceFeedDone c) s = .next (endOp s c e.st 0)) ∧
        (e.st = 3 →
          let t := (s.wrs (Reg.UCE_OUT c 0) ((leWords e.out).take 2048)).set (Reg.UCE_STS_OUT_LEN c) e.out.length
          let u := match e.tag with | some x => t.wrs (Reg.UCE_TAG c 0) (bytesWords 4 x) | none => t
          let v := u.modChan c (fun h => { h with made := h.made + e.out.length })
          exec (.uceFeedDone c) s = .next (if ch.last then endOp v c 3 0 else v.set (Reg.UCE_STS_STATE c) 2))))

/-- Key slots (R457, R463, R464, R468, R472, R584): a command to a slot of the other channel's is refused with code 1, one while
a blob load is in progress is counted; a write takes the staged key, in two shares, into a slot that is not in use and leaves
the staging zero, and waits for a slot that is in use with code 4; an erased slot is empty at once, and an operation that uses
it ends with KEY_GONE and its event; a blob load ends with its code: outside the window 3, for a blob that does not open 2, and
else the slot holds its key. -/
def Obligations.KeySlots : Prop :=
  ∀ (s : State) (who : Who) (i : Fin 16) (wide : Bool) (off : Nat) (b : Opened), ServesOwn s who → mlook 0 Reg.UCE_SLOT_CMD s.locks = 0 →
    let used := s.flag (Reg.UCE_SLOT_STS_IN_USE i)
    let h := s.chan (slotChan i)
    let staged := keyBits ((wordBytes (s.rds (Reg.UCE_SLOT_KEY 0) 8)).take (if wide then 32 else 16))
    (s.flag Reg.UCE_SLOT_CMD_BUSY = true → exec (.slotWrite who i wide) s = .next (s.inc Reg.CTL_FAULT_BUSY) ∧
      exec (.loadBlob who i) s = .next (s.inc Reg.CTL_FAULT_BUSY) ∧ exec (.slotErase who i) s = .next (s.inc Reg.CTL_FAULT_BUSY)) ∧
    (s.flag Reg.UCE_SLOT_CMD_BUSY = false →
      (slotChan i ≠ partyOf who → ∀ c ∈ [Instr.slotWrite who i wide, .loadBlob who i, .slotErase who i], ∃ t, exec c s = .next t ∧
        t.get Reg.UCE_SLOT_CMD_RESULT = 1 ∧ OnlyRegs [Reg.UCE_SLOT_CMD] s t) ∧
      (slotChan i = partyOf who →
        (used = false → ∃ (t : State) (k : KeySlot), exec (.slotWrite who i wide) s = .next t ∧
          t.keySlot i = some k ∧ k.key.value = staged ∧ k.size256 = wide ∧ k.origin = 0 ∧ (∀ j, j ≠ i.val → t.keySlot j = s.keySlot j) ∧
          (∀ j < 8, t.rd (Reg.UCE_SLOT_KEY j) = 0) ∧ t.get Reg.UCE_SLOT_CMD_RESULT = 0 ∧ t.get (Reg.UCE_SLOT_STS_STATE i) = 1) ∧
        (used = true → ∃ (t : State) (k : KeySlot), exec (.slotWrite who i wide) s = .next t ∧
          t.vlt.slots = s.vlt.slots ∧ mget i.val t.vlt.later = some k ∧ k.key.value = staged ∧ k.size256 = wide ∧
          (∀ j < 8, t.rd (Reg.UCE_SLOT_KEY j) = 0) ∧ t.get Reg.UCE_SLOT_CMD_RESULT = 4) ∧
        (∃ t, exec (.loadBlob who i) s = .next t ∧ t.vlt.blobOp = some (i.val, s.get Reg.UCE_SLOT_OFFSET_OFFSET) ∧
          t.flag Reg.UCE_SLOT_CMD_BUSY = true ∧ OnlyRegs [Reg.UCE_SLOT_CMD] { s with vlt := t.vlt } t) ∧
        (used = false → s.uceState (slotChan i) ≠ 4 ∨ h.doneAt ≠ some s.clk → ∃ t, exec (.slotErase who i) s = .next t ∧
          t.keySlot i = none ∧ t.get (Reg.UCE_SLOT_STS_STATE i) = 0 ∧
          t.get Reg.UCE_SLOT_CMD_RESULT = 0 ∧ (∀ j, j ≠ i.val → t.keySlot j = s.keySlot j)) ∧
        (used = true → s.uceOpen (slotChan i) = true → ∃ u, OnlyRegs [Reg.UCE_SLOT_CMD] s u ∧
          exec (.slotErase who i) s = .next ((raise0 (endOp
            (u.modVlt (fun v => { v with slots := mdel i.val v.slots, later := mdel i.val v.later })) (slotChan i) 5 0) 0x0702 0).set
              Reg.UCE_SLOT_CMD_RESULT 0)))) ∧
    (s.vlt.blobOp = none → exec .loadBlobDone s = .next s) ∧
    (s.vlt.blobOp = some (i.val, off) →
      (s.blobInside off = false → ∃ t, exec .loadBlobDone s = .next t ∧
        t.get Reg.UCE_SLOT_CMD_RESULT = 3 ∧ t.flag Reg.UCE_SLOT_CMD_BUSY = false ∧
        OnlyRegs [Reg.UCE_SLOT_CMD] { s with vlt := { s.vlt with blobOp := none } } t) ∧
      (s.blobInside off = true → s.openAt off = none → ∃ t, exec .loadBlobDone s = .next t ∧
        t.get Reg.UCE_SLOT_CMD_RESULT = 2 ∧ t.flag Reg.UCE_SLOT_CMD_BUSY = false ∧
        OnlyRegs [Reg.UCE_SLOT_CMD] { s with vlt := { s.vlt with blobOp := none } } t) ∧
      (s.blobInside off = true → s.openAt off = some b → b.usage / 2 % 2 = 1 → (b.kind = 1 ∨ b.kind = 2) → s.zeroised = false →
        used = false → b.origin < 4 → ∃ (t : State) (k : KeySlot), exec .loadBlobDone s = .next t ∧ t.keySlot i = some k ∧
        k.key.value = keyBits b.material ∧ k.size256 = decide (b.kind = 2) ∧ k.origin.toNat = b.origin ∧
        t.get Reg.UCE_SLOT_CMD_RESULT = 0 ∧ t.flag Reg.UCE_SLOT_CMD_BUSY = false))

/-! ### The fabric and stand-in pairs (13) -/

/-- Fabric links and cells (R474, R475, R478, R480): a cell on a lane out of MISSION or without codeword lock delivers nothing
and changes nothing; a valid head in HUNT starts PRESYNC, one at the right place twice more gives SYNC, and a missing one in
PRESYNC leads back; a miss in SYNC is counted, and the third takes the lane to HUNT and its link down. A cell that a lane
delivers is descrambled: it is dropped and counted when its CRC fails; an idle one ends there, a HELLO is its link's, one of no
class or without a route or with no hop left is dropped and counted, any other that is not the device's own goes on unchanged
with one hop less on the link that the route names, and the device's own is consumed. A link whose four lanes have held cell
SYNC comes up; a neighbour that is no longer heard is lost, a link in CONFLICT keeping its mark. HELLOs and routes (R478, R479):
on a link that is up the device sends its neighbour a HELLO, before any idle cell of the lanes, and none with FAB_CFG.EN 0; a
HELLO of another address makes its sender the link's neighbour, one of the device's own address puts the link in CONFLICT and
raises FAB_ADDR_CONFLICT when it is the first; one that is not 76 bytes long changes nothing. The route to any other address has
the least distance that a usable neighbour gives, at most 14, on that neighbour's link, the lowest among equals. -/
def Obligations.FabricLinks : Prop :=
  (∀ (s : State) (n l : Fin 4) (inPlace : Bool) (raw : List Byte), s.running = true →
      let rx := exec (.fabCellRx n l inPlace raw) s
      let c := cellScramble l raw
      let cls := byteAt c 0
      let dst := byteAt c 1 / 4
      let src := byteAt c 2 / 4
      let p := sub c 12 (be (sub c 6 2))
      let good := inPlace && cellHeadOk raw
      let found := b2n (cellHeadOk raw && !inPlace)
      (s.laneSt .lnf (4 * n + l) ≠ 6 ∨ (s.korLane (32 + 4 * n + l)).locked = false → rx = .next s) ∧
      (s.laneSt .lnf (4 * n + l) = 6 → (s.korLane (32 + 4 * n + l)).locked = true →
        (s.cellState n l = 0 → rx = .next (setCell s n l (b2n (cellHeadOk raw)) 0)) ∧
        (s.cellState n l = 1 → rx = .next (setCell s n l (if good then 2 else found) 0)) ∧
        (s.cellState n l = 2 → good = false → rx = .next (setCell s n l found 0)) ∧
        (s.cellState n l = 3 → good = false →
          (mlook 0 (cellKey n l) s.fab.cellMiss = 2 → rx = .next (fabLinkDown (setCell s n l 0 0) n)) ∧
          (mlook 0 (cellKey n l) s.fab.cellMiss < 2 → rx = .next (setCell s n l 3 (mlook 0 (cellKey n l) s.fab.cellMiss + 1)))) ∧
        ((s.cellState n l = 2 ∨ s.cellState n l = 3) → good = true →
          let t := setCell s n l 3 0
          (be (sub c 252 4) ≠ (crc32 (c.take 252)).toNat → rx = .next (t.inc Reg.FAB_CELL_CRC_ERR)) ∧
          (be (sub c 252 4) = (crc32 (c.take 252)).toNat →
            (s.flag Reg.FAB_CFG_EN = false ∨ n.val ∉ s.fab.linkUp → rx = .next t) ∧
            (s.flag Reg.FAB_CFG_EN = true → n.val ∈ s.fab.linkUp →
              (cls = 0 → rx = .next t) ∧ (7 < cls → rx = .next (t.inc Reg.FAB_CELL_DROP)) ∧ (cls = 1 → rx = .next (helloRx t n src p)) ∧
              (∀ x, mget n.val s.fab.neighbours = some x → x.conflict = true → 2 ≤ cls → cls ≤ 7 → rx = .next t) ∧
              (2 ≤ cls → cls ≤ 7 → (∀ x, mget n.val s.fab.neighbours = some x → x.conflict = false) →
                (dst ≠ s.fabAddr → (s.route dst = none ∨ byteAt c 3 ≤ 1) → rx = .next (t.inc Reg.FAB_CELL_DROP)) ∧
                (∀ d m, dst ≠ s.fabAddr → s.route dst = some (d, m) → 1 < byteAt c 3 → c.length = 256 →
                  ∃ b, rx = .next (emitCell t m ((dst + cls) % 4) b) ∧ b.length = 256 ∧ byteAt b 3 = byteAt c 3 - 1 ∧ b.take 3 = c.take 3 ∧
                    sub b 4 6 = sub c 4 6 ∧ sub b 12 240 = sub c 12 240 ∧ cellHeadOk b = true ∧
                    be (sub b 252 4) = (crc32 (b.take 252)).toNat) ∧
                (dst = s.fabAddr → rx = .next (consumeCell t cls src (be (sub c 4 2)) p))))))) ∧
      (s.linkReady n = true → n.val ∉ s.fab.linkUp →
        exec (.fabLinkUp n) s = .next (raise0 { s with fab := { s.fab with linkUp := ladd n.val s.fab.linkUp } } 0x7001 n)) ∧
      (s.linkReady n = false ∨ n.val ∈ s.fab.linkUp → exec (.fabLinkUp n) s = .next s) ∧
      (mget n.val s.fab.neighbours = none → exec (.neighbourLost n) s = .next s) ∧
      (∀ x, mget n.val s.fab.neighbours = some x → exec (.neighbourLost n) s = .next
        (if x.conflict then s.modFab (fun f => { f with neighbours := mput n.val { x with valid := false } f.neighbours })
         else settleGroup { s with fab := { s.fab with neighbours := mdel n.val s.fab.neighbours } }))) ∧
  (∀ (s : State) (n : Fin 4) (src a : Nat) (p : List Byte), s.running = true →
      (s.flag Reg.FAB_CFG_EN = false → exec .helloTx s = .next s) ∧
      (∀ x, s.flag Reg.FAB_CFG_EN = true → s.fab.linkUp = [n.val] → mget n.val s.fab.neighbours = some x →
        ∃ t o, exec .helloTx s = .next t ∧ t.out = o ++ (sendOn s n cellHello x.addr (helloBytes s n)).out ∧
          t.regs = s.regs ∧ t.cnt = s.cnt ∧ t.fab = { s.fab with seqs := t.fab.seqs, rest := t.fab.rest }) ∧
      (p.length ≠ 76 → helloRx s n src p = s) ∧
      (p.length = 76 → src ≠ s.fabAddr → ∃ t, helloRx s n src p = settleGroup t ∧ mget n.val t.fab.neighbours =
        some { addr := src, group := BitVec.ofNat 16 (be (sub p 8 2)), vector := sub p 12 64, valid := true, conflict := false } ∧
        t = { s with fab := t.fab }) ∧
      (p.length = 76 → src = s.fabAddr → mget n.val s.fab.neighbours = none → ∃ t, helloRx s n src p = settleGroup (raise0 t 0x7003 n) ∧
        (∃ x, mget n.val t.fab.neighbours = some x ∧ x.conflict = true) ∧ t = { s with fab := t.fab }) ∧
      (s.flag Reg.FAB_CFG_EN = true → a ≠ s.fabAddr →
        (∀ d m, s.route a = some (d, m) → m < 4 ∧ d ≤ 14 ∧ s.distVia m a = some d ∧
          ∀ k < 4, ∀ e, s.distVia k a = some e → d ≤ e ∧ (d = e → m ≤ k)) ∧
        (s.route a = none → ∀ k < 4, s.distVia k a = none)))

/-- Heartbeats, roles and the ends of roles (R487 to R489, R492, R493, R498, R501): a paired device sends its heartbeat on both
paths; one that is not valid changes nothing; a dispute sets DISPUTE, begins FENCED and raises FAB_ROLE_DISPUTE; a tick without
a heartbeat counts a miss, and the fourth loses the path; INIT without a partner becomes ACTIVE only with LOSS_POLICY HOLD and
TWIN 0; the active fences FENCE_US after the partner's loss only with LOSS_POLICY FENCE and outside PARTNER_DOWN; fencing drops
and counts what the splicer has not released and takes the new role; a switchover is refused with its code or shows BUSY, one
while another is in progress is counted, and it ends, with every MARK acknowledged and no frame in flight, with the device a
yielding STAND_IN. The role table on a heartbeat (R489, R492): INIT becomes STAND_IN beside an ACTIVE partner or with TWIN 1,
and else ACTIVE with the epoch raised; a STAND_IN that has not yielded takes over from a partner that is not ACTIVE or that
yields, and one that has waits for its partner's ACTIVE; an ACTIVE device yields to a higher epoch, TWIN 1 to an equal one,
fencing first with FAB_BOTH_ACTIVE raised; a FENCED device that no response holds follows the partner's role. Becoming ACTIVE
sets the role and the epoch and ends YIELD and fencing. -/
def Obligations.RolesMove : Prop :=
  (∀ (s : State) (who : Who) (hb : List Byte), Serves s who →
      (s.fab.role = .none → exec .heartbeatTx s = .next s ∧ exec (.lvdsHeartbeatRx hb) s = .next s ∧ (∀ p, exec (.hbTick p) s = .next s)) ∧
      (s.fab.role ≠ .none → exec .heartbeatTx s = .next ((sendCell (s.emit (.heartbeat (lvdsFrame (heartbeatBytes s)))) cellHeartbeat s.partner
        (heartbeatBytes s)).modFab (fun f => { f with hbSeq := f.hbSeq + 1 }))) ∧
      (heartbeatOk s hb = false → exec (.lvdsHeartbeatRx hb) s = .next s) ∧
      (s.fab.role ≠ .none → heartbeatOk s hb = true → disputes s hb = true → ∃ t, exec (.lvdsHeartbeatRx hb) s = .next (disputeOp t) ∧
        t.fab = { s.fab with lvdsTick := { s.fab.lvdsTick with got := true }, partnerEpoch := be (sub hb 6 4) } ∧
        t.rd Reg.FAB_PEER_HEALTH = w32 (be (sub hb 12 4)) ∧ t.get Reg.FAB_STS_PARTNER_ROLE = byteAt hb 4 / 32 ∧
        OnlyRegs [Reg.FAB_PEER_HEALTH, Reg.FAB_STS] { s with fab := t.fab } t) ∧
      (s.fab.role ≠ .none → s.fab.lvdsTick.got = false → s.fab.lvdsTick.misses < 3 → s.fab.lvdsTick.lost = false →
        exec (.hbTick .lvds) s = .next (settleRepl ((s.inc Reg.FAB_HB_MISS_LVDS).modFab (fun f => { f with
          lvdsTick := { got := false, misses := s.fab.lvdsTick.misses + 1, goodRun := 0, lost := false } })))) ∧
      (s.fab.role ≠ .none → s.fab.fabTick.got = false → s.fab.fabTick.misses < 3 → s.fab.fabTick.lost = false →
        exec (.hbTick .fab) s = .next (settleRepl ((s.inc Reg.FAB_HB_MISS_FAB).modFab (fun f => { f with
          fabTick := { got := false, misses := s.fab.fabTick.misses + 1, goodRun := 0, lost := false } })))) ∧
      (∀ t : PathTick, t.got = false → t.misses = 3 → t.lost = false → (tickPath t).1.lost = true ∧ (tickPath t).2.1 = true) ∧
      (∀ t : PathTick, t.got = true → t.goodRun = 3 → t.lost = true → (tickPath t).1.lost = false ∧ (tickPath t).2.2 = true) ∧
      (s.fab.role ≠ .init → exec .initWaitExpiry s = .next s) ∧
      (s.fab.role = .init → exec .initWaitExpiry s = .next (
        if s.flag Reg.FAB_PAIR_CFG_LOSS_POLICY = true ∧ s.flag Reg.FAB_PAIR_CFG_TWIN = false then becomeActive s s.raisedEpoch false
        else if s.fab.absentRaised then s else raise0 (s.modFab (fun f => { f with absentRaised := true })) 0x7009 0)) ∧
      (s.fab.role = .active → s.partnerLost = true → s.flag Reg.FAB_PAIR_CFG_LOSS_POLICY = false → s.flag Reg.FAB_STS_PARTNER_DOWN = false →
        s.fab.fencing = false → s.fab.switching = false →
        exec .fenceTimer s = .next (s.modFab (fun f => { f with fencing := true, fenceTo := .fenced }))) ∧
      (s.fab.role ≠ .active ∨ s.partnerLost = false ∨ s.flag Reg.FAB_PAIR_CFG_LOSS_POLICY = true ∨ s.flag Reg.FAB_STS_PARTNER_DOWN = true ∨
        s.fab.fencing = true → exec .fenceTimer s = .next s) ∧
      (s.fab.fencing = false → exec .fenceDone s = .next s) ∧
      (s.fab.fencing = true →
        let u := dropAll s (s.framesWhere Frame.unreleased) Reg.FAB_STANDBY_DROP
        let v := setRole (u.modFab (fun f => { f with fencing := false })) u.fab.fenceTo
        exec .fenceDone s = .next (settleRepl (raise0 v.draw.2 0x7007 (v.draw.1.toNat % 2 ^ 32)))) ∧
      (s.fab.fencing = true → s.framesWhere Frame.unreleased = [] → s.selfTest = false → ∃ t, exec .fenceDone s = .next (settleRepl (raise0 t 0x7007
        ((Config.freeValue s.draws).toNat % 2 ^ 32))) ∧ t.fab.role = s.fab.fenceTo ∧ t.fab.fencing = false) ∧
      (s.flag Reg.FAB_PAIR_CMD_BUSY = true → exec (.switchover who) s = .next (s.inc Reg.CTL_FAULT_BUSY)) ∧
      (s.flag Reg.FAB_PAIR_CMD_BUSY = false → mlook 0 Reg.FAB_PAIR_CMD s.locks = 0 → ∃ t, exec (.switchover who) s = .next t ∧
        OnlyRegs [Reg.FAB_PAIR_CMD] { s with fab := t.fab } t ∧
        (s.fab.role ≠ .active → t.get Reg.FAB_PAIR_CMD_RESULT = 1 ∧ t.fab = s.fab) ∧
        (s.fab.role = .active → s.mayYield = false → t.get Reg.FAB_PAIR_CMD_RESULT = 2 ∧ t.fab = s.fab) ∧
        (s.fab.role = .active → s.mayYield = true → t.flag Reg.FAB_PAIR_CMD_BUSY = true ∧ t.fab = { s.fab with switching := true })) ∧
      (s.fab.switching = false → exec .switchoverDone s = .next s) ∧
      (s.fab.switching = true → s.mayYield = false → exec .switchoverDone s = .next (endSwitch s)) ∧
      (s.fab.switching = true → s.mayYield = true → (s.fab.marks ≠ [] ∨ ∃ f ∈ s.sch.frames, f.unreleased = true ∧ f.flying = true) →
        exec .switchoverDone s = .next s) ∧
      (s.fab.switching = true → s.mayYield = true → s.fab.marks = [] → (∀ f ∈ s.sch.frames, f.unreleased = false ∨ f.flying = false) →
        s.fab.role = .active → s.selfTest = false →
        ∃ t, exec .switchoverDone s = .next t ∧ t.fab = { s.fab with switching := false, role := .standIn } ∧
          t.flag Reg.FAB_STS_YIELD = true ∧ t.get Reg.FAB_PAIR_CMD_RESULT = 0 ∧ t.flag Reg.FAB_PAIR_CMD_BUSY = false ∧
          OnlyRegs [Reg.FAB_PAIR_CMD, Reg.FAB_STS] { s with fab := t.fab } t)) ∧
  (∀ (s : State) (epoch : Nat) (yields : Bool),
      let on (role : Nat) : State := roleOnHeartbeat s role epoch yields
      let own := (s.rd Reg.FAB_EPOCH).toNat
      let twin := s.flag Reg.FAB_PAIR_CFG_TWIN
      (∀ r, s.fab.role = .none → on r = s) ∧
      (s.fab.role = .init → on 2 = setRole s .standIn ∧ ∀ r ∈ [1, 3, 4], on r =
        if twin then setRole s .standIn else becomeActive s (max own s.fab.partnerEpoch + 1) false) ∧
      (s.fab.role = .standIn → s.flag Reg.FAB_STS_YIELD = false → (yields = false → on 2 = s) ∧
        (yields = true → on 2 = becomeActive s (max own s.fab.partnerEpoch + 1) true) ∧
        ∀ r ∈ [1, 3, 4], on r = becomeActive s (max own s.fab.partnerEpoch + 1) true) ∧
      (s.fab.role = .standIn → s.flag Reg.FAB_STS_YIELD = true → on 2 = s.setFlag Reg.FAB_STS_YIELD false ∧ ∀ r, r ≠ 2 → on r = s) ∧
      (s.fab.role = .active → (∀ r ∈ [1, 3, 4], on r = s) ∧ (epoch < own → on 2 = s) ∧ (epoch = own → twin = false → on 2 = s) ∧
        ((own < epoch ∨ (own = epoch ∧ twin = true)) → s.fab.switching = false →
          on 2 = raise0 (s.modFab (fun f => { f with fencing := true, fenceTo := .standIn })) 0x700D epoch)) ∧
      (s.fab.role = .fenced → (s.heldFenced = true → ∀ r, on r = s) ∧ (s.heldFenced = false → on 2 = setRole s .standIn ∧
        (∀ r ∈ [1, 3], on r = becomeActive s (max own s.fab.partnerEpoch + 1) false) ∧
        on 4 = if twin then s else becomeActive s (max own s.fab.partnerEpoch + 1) false)) ∧
      (s.fab.switching = false → s.selfTest = false → s.fab.role ≠ .standIn → (setRole s .standIn).fab = { s.fab with role := .standIn }) ∧
      (s.fab.switching = false → s.selfTest = false → s.flag Reg.ASC_CFG_REPL_EN = false → s.fab.role ≠ .active →
        let t := becomeActive s epoch false
        t.fab = { s.fab with role := .active, fencing := false } ∧ t.rd Reg.FAB_EPOCH = w32 epoch ∧ t.flag Reg.FAB_STS_YIELD = false ∧
          OnlyRegs [Reg.FAB_EPOCH, Reg.FAB_STS] { s with fab := t.fab } t))

/-- Replication and SELF_TEST (R496, R497, R499): an unacknowledged MARK is sent again under the SEQ of its new cell and
counted, an unknown one changes nothing; a resync sends the store's next seven entries in index order and its end resumes
replication or makes the stand-in current; the stand-in tests the cores of one ring after another, the result of the one before
kept and its ring asleep again where it may; the active sends its blocks' CRCs in turn, and a stand-in that finds another logs
the block and raises FAB_DIVERGE. A device out of the role, or without SELF_TEST, does none of it. -/
def Obligations.PairsReplicate : Prop :=
  ∀ (s : State) (seq : BitVec 16) (cell : MarkCell), s.running = true →
    (s.fab.marks = [] → exec (.markRetry seq) s = .next s) ∧
    (s.fab.marks = [cell] → cell.seq = seq.toNat → exec (.markRetry seq) s = .next ((sendCell
      (s.modFab (fun f => { f with marks := [{ cell with seq := s.nextSeq cellMark s.partner }] })) cellMark s.partner cell.bytes).inc Reg.FAB_MARK_RETRIES)) ∧
    (s.fab.resync = none ∨ s.fab.role ≠ .active → exec .resyncSweep s = .next s) ∧
    (∀ i, s.fab.resync = some i → s.fab.role = .active → i < s.asc.size → s.marksFrom i = [] →
      exec .resyncSweep s = .next (s.modFab (fun f => { f with resync := some s.asc.size }))) ∧
    (∀ i l, s.fab.resync = some i → s.fab.role = .active → i < s.asc.size →
      let es := (s.marksFrom i).take 7
      es.getLast? = some l →
      exec .resyncSweep s = .next (sendMark (s.modFab (fun f => { f with resync := some (l.index + 1) })) true [] es)) ∧
    (s.fab.role = .standIn → exec .resyncDone s = .next (s.setFlag Reg.FAB_STS_REPL_CURRENT true)) ∧
    (∀ i, s.fab.role = .active → s.fab.resync = some i → s.asc.size ≤ i → (∀ c ∈ s.fab.marks, c.resync = false) →
      exec .resyncDone s = .next (resumeRepl s)) ∧
    (s.fab.role = .active → (s.fab.resync = none ∨ ∃ c ∈ s.fab.marks, c.resync = true) → exec .resyncDone s = .next s) ∧
    (s.fab.role ≠ .active → s.fab.role ≠ .standIn → exec .resyncDone s = .next s) ∧
    (s.fab.role ≠ .standIn ∨ s.selfTest = false → exec .selfTestRing s = .next s) ∧
    (s.fab.role = .standIn → s.selfTest = true →
      let n := s.fab.selfRing
      let last := (n + 31) % 32
      (n = 0 → exec .selfTestRing s = .next (ringCmdWrite 0 (ringWord true 0xFFFF) (s.modFab (fun f => { f with selfRing := 1 })))) ∧
      (n ≠ 0 →
        let ok := (ringCores last).all (fun c => (s.core c).inService)
        let t := s.modFab (fun f => { f with katOk := s.fab.katOk <<< 1 ||| BitVec.ofNat 32 (b2n ok) })
        let stays : Prop := s.power = 0 ∨ t.ringMaySleep last = false ∨ s.flag (Reg.FRM_RING_CFG_KEEP_AWAKE last) = true
        let after (u : State) : State := ringCmdWrite (n % 32) (ringWord true 0xFFFF) (u.modFab (fun f => { f with selfRing := n + 1 }))
        (stays → exec .selfTestRing s = .next (after t)) ∧ (¬ stays → exec .selfTestRing s = .next (after (ringSleep t last))))) ∧
    (s.fab.role ≠ .active ∨ s.selfTest = false → exec .stateCrcTx s = .next s) ∧
    (s.fab.role = .active → s.selfTest = true →
      let b := s.fab.crcBlock % max 1 s.stateBlocks
      exec .stateCrcTx s = .next ((sendCell s cellStateCrc s.partner (toBe 2 b ++ toBe 4 (blockCrc s b))).modFab (fun f => { f with crcBlock := b + 1 }))) ∧
    (∀ p : List Byte, s.fab.role = .standIn → s.selfTest = true → p.length = 6 → be (p.take 2) + 1 < s.stateBlocks →
      stateCrcRx s s.partner p = if be (sub p 2 4) = blockCrc s (be (p.take 2)) then s else
        raise0 (pushDiverge (s.modFab (fun f => { f with crcBad := true })) (be (p.take 2))) 0x700A (be (p.take 2)))

/-! ### Power states, domains and supplies (14) -/

/-- Requests (R509 to R512, R516, R520): GAF_REQ with no transition running completes at once for the present state, refuses a
sleep that the policy does not allow with NOT_ALLOWED, and one of a paired device that R516 names with PAIRED, counted,
ENTRY_REFUSED raised; TRIM from RUN asks no domain; a wake brings up what its target, or RUN where the policy does not allow it,
holds ON; while a transition runs, the request takes the pending slot, a replaced or discarded one being counted, a sleep never
replacing a wake, and a wake marks a sleep entry to be abandoned at its next safe point; a second request for the wake that runs
changes nothing more. A transition (R511 to R517): each answer moves the entry on: DELAY holds it, an ACK takes its domain down,
and one that the domain cannot give yet, or a REFUSE without a reason, changes nothing; a REFUSE or a silence brings back what
was taken, writes result, domain and reason, is counted and raised; frames still held after a millisecond are dropped and
counted in GAF_STATE_DROP; a transition at its end shows its target, is counted and raised, starts the pending request, and lets
the accesses go on that wait for domains. With no transition nothing else happens. -/
def Obligations.PowerTransitions : Prop :=
  (∀ (s : State) (who : Who) (target : BitVec 2), Serves s who → mlook 0 Reg.GAF_REQ s.locks = 0 →
      ∃ t, exec (.gafRequest who target) s = .next (gafRequestOp target.toNat t) ∧ OnlyRegs [Reg.GAF_REQ] s t ∧
        (s.gaf.trans = none →
          (target.toNat = s.power → gafRequestOp target.toNat t = gafSts t s.power 0 0 0x7F) ∧
          (s.power < target.toNat → s.allows target.toNat = false → gafRequestOp target.toNat t = gafSts t s.power 3 10 0x7F) ∧
          (s.power < target.toNat → s.allows target.toNat = true →
            ((2 ≤ target.toNat ∧ s.fab.role = .active) ∨ (target.toNat = 3 ∧ s.flag Reg.FAB_PAIR_CFG_PAIRED = true)) →
            gafRequestOp target.toNat t = raise0 ((gafSts t s.power 1 9 0x7F).inc Reg.GAF_REFUSED) 0x0302 0) ∧
          (s.power = 0 → target = 1 → s.allows 1 = true → 
            let trim : Transition := { target := 1, source := 0, step := 4, kind := 0, waiting := [], taken := [], abandon := false, ending := none }
            gafRequestOp 1 t = { t with gaf := { s.gaf with trans := some trim } }) ∧
          (target.toNat < s.power →
            let goal := if s.allows target.toNat then target.toNat else 0
            let wake : Transition := { target := BitVec.ofNat 2 goal, source := BitVec.ofNat 2 s.power, step := 0, kind := 0, waiting := [], taken := [], abandon := false, ending := none }
            gafRequestOp target.toNat t = (holdsOn goal).foldl domUp { t with gaf := { s.gaf with trans := some wake, sleepAsk := [] } })) ∧
        (∀ r, s.gaf.trans = some r → r.step = 0 → r.ending = none → r.target = target → s.gaf.pend = none → gafRequestOp target.toNat t = t) ∧
        (∀ r, s.gaf.trans = some r → r.step ∈ [1, 2, 3] → r.ending = none → target.toNat < s.power → s.gaf.pend = none →
          gafRequestOp target.toNat t = { t with gaf := { s.gaf with pend := some target, trans := some { r with abandon := true } } }) ∧
        (∀ r, s.gaf.trans = some r → r.step = 4 → (target.toNat < s.power ∨ target.toNat = s.power ∨ s.allows target.toNat = true) →
          (s.gaf.pend = none → gafRequestOp target.toNat t = { t with gaf := { s.gaf with pend := some target } }) ∧
          (∀ p, s.gaf.pend = some p → Room s Reg.GAF_SUPERSEDED → let u := gafRequestOp target.toNat t
            u.ctr Reg.GAF_SUPERSEDED = s.ctr Reg.GAF_SUPERSEDED + 1 ∧
            u.gaf.pend = (if s.power ≤ target.toNat ∧ p.toNat < s.power then some p else some target)))) ∧
  (∀ (s : State) (d : Fin 104) (a : DomAnswer) (n : Nat) (t : Transition), s.running = true →
      (s.gaf.trans = none → s.gaf.sleepAsk = [] → exec (.domainAnswer d a) s = .next s ∧ exec (.domainAnswerTimeout d) s = .next s ∧
        exec .admissionDrainTimeout s = .next s ∧ exec (.gafTransitionDone n) s = .next (serveAll s)) ∧
      (s.gaf.trans = some t → t.step = 3 → t.ending = none →
        exec (.domainAnswer d .delay) s = .next s ∧ exec .admissionDrainTimeout s = .next s ∧ exec (.gafTransitionDone n) s = .next (serveAll s) ∧
        (s.mayAck d = false → exec (.domainAnswer d .ack) s = .next s) ∧ (s.refusal d = none → exec (.domainAnswer d .refuse) s = .next s) ∧
        (d.val ∈ t.waiting → d.val ∉ s.gaf.sleepAsk → (domKind d = 3 ∨ domKind d = 4) → s.mayAck d = true → t.abandon = false → s.rung < 3 → (∃ e ∈ t.waiting, e ≠ d.val) →
          ∃ u, exec (.domainAnswer d .ack) s = .next u ∧ u.dom d = .retain ∧
            (let t' : Transition := { t with waiting := ldel d.val t.waiting, taken := ladd d.val t.taken }
             u.gaf = { s.gaf with doms := mstore .on d.val .retain s.gaf.doms, trans := some t' }) ∧
            u.regs = s.regs ∧ u.cnt = s.cnt ∧ u.sch = s.sch) ∧
        (∀ r, d.val ∈ t.waiting → d.val ∉ s.gaf.sleepAsk → s.refusal d = some r →
          exec (.domainAnswer d .refuse) s = .next (undoEntry (raise0 (((gafSts s s.power 1 r d).set (Reg.GAF_DOM_STS_LAST_REASON d) r).inc
            Reg.GAF_REFUSED) 0x0302 0) t 1)) ∧
        (domKind d = 2 → s.bufferHeld = true → s.refusal d = some 5) ∧
        (d.val ∈ t.waiting → d.val ∉ s.gaf.sleepAsk →
          exec (.domainAnswerTimeout d) s = .next (undoEntry (raise0 (((gafSts s s.power 1 1 d).set (Reg.GAF_DOM_STS_LAST_REASON d) 1).inc
            Reg.GAF_REFUSED) 0x0302 0) t 1)) ∧
        (d.val ∉ t.waiting → d.val ∉ s.gaf.sleepAsk → exec (.domainAnswer d a) s = .next s ∧ exec (.domainAnswerTimeout d) s = .next s)) ∧
      (s.gaf.trans = some t → t.step = 2 → t.ending = none → (∀ k < 32, (s.korPort k).cueRx = [] ∧ (s.korPort k).cueSpots = []) →
        exec .admissionDrainTimeout s = .next (settleDrain
          (dropAll s (s.framesWhere (fun f => f.pool.isSome || decide (f.cells ≠ 0))) Reg.GAF_STATE_DROP))) ∧
      (s.gaf.trans = some t → t.step = 4 → t.ending = none → (reached s t n).gaf.pend = none →
        exec (.gafTransitionDone n) s = .next (serveAll (reached s t n))) ∧
      (∀ p, s.gaf.trans = some t → t.step = 4 → t.ending = none → (reached s t n).gaf.pend = some p →
        exec (.gafTransitionDone n) s = .next (serveAll (startRequest ((reached s t n).modGaf (fun g => { g with pend := none })) p.toNat))) ∧
      (t.target = 1 → t.source = 0 → s.fab.takeoverDue = false → reached s t n =
        raise0 ((gafSts { s with gaf := { s.gaf with trans := none, admission := true } } 1 0 0 0x7F).inc Reg.GAF_TRANSITIONS) 0x0301 0))

/-- Domains on their own, WAKE_SENSE and supplies (R518, R519, R522 to R524): an access to a sleeping domain of a kind that
accesses wake counts a stall and brings it up, any other changes nothing, and then the accesses that wait go on, of which there
may be none; an idle domain that its state lets sleep is asked to; a crossing of the comparator with EN set raises WAKE_SENSE
and requests its target; a warning of VDD_CORE or VDD_AUX freezes, of another rail raises an event, and its end writes the dip
of a freezing rail, counts it and raises BROWNOUT_WARN. -/
def Obligations.DomainsAndSupplies : Prop :=
  ∀ (s : State) (d : Fin 104) (r : Rail) (us : Nat), s.running = true →
    let k := domKind d
    (k = 1 ∨ k = 2 ∨ k = 6 ∨ s.dormant = true ∨ s.dom d = .on →
      exec (.accessWake d) s = .next (serveAll s)) ∧
    ((k = 3 ∨ k = 4 ∨ k = 5 ∨ k = 7 ∨ k = 8) → s.dormant = false → s.dom d ≠ .on → Room s Reg.GAF_ACCESS_STALLS →
      ∃ t, exec (.accessWake d) s = .next (serveAll t) ∧ t.dom d = .on ∧ t.ctr Reg.GAF_ACCESS_STALLS = s.ctr Reg.GAF_ACCESS_STALLS + 1 ∧
        t.regs = s.regs ∧ t.gaf.trans = s.gaf.trans ∧ (∀ e, e ≠ d.val → mlook .on e t.gaf.doms = mlook .on e s.gaf.doms)) ∧
    (k = 0 → s.dormant = false → s.ring d = .asleep → Room s Reg.GAF_ACCESS_STALLS →
      exec (.accessWake d) s = .next (serveAll (ringWake (s.inc Reg.GAF_ACCESS_STALLS) d))) ∧
    (k = 0 → s.dormant = false → s.ring d = .waking → exec (.accessWake d) s = .next (serveAll (s.inc Reg.GAF_ACCESS_STALLS))) ∧
    ((∀ p, (s.path p).held = []) → serveAll s = s) ∧
    (s.power = 0 ∨ s.gaf.trans ≠ none ∨ s.dom d ≠ .on → exec (.domainIdleSleep d) s = .next s) ∧
    (((k = 3 ∨ k = 4 ∨ k = 5 ∨ k = 7) ∧ s.power = 2) ∨ (k = 8 ∧ (s.power = 1 ∨ s.power = 2)) → s.gaf.trans = none → s.dom d = .on → d.val ∉ s.gaf.sleepAsk →
      exec (.domainIdleSleep d) s = .next { s with gaf := { s.gaf with sleepAsk := s.gaf.sleepAsk ++ [d.val] } }) ∧
    (k = 0 → (s.power = 1 ∨ s.power = 2) → s.gaf.trans = none → s.dom d = .on →
      exec (.domainIdleSleep d) s = .next ((ringSleep s d).modGaf (fun g => { g with sleepAsk := ladd d.val g.sleepAsk }))) ∧
    (s.flag Reg.AON_WAKE_CFG_EN = false → ∃ t, exec .wakeSense s = .next t ∧ t.flag Reg.AON_WAKE_CFG_LEVEL = !s.flag Reg.AON_WAKE_CFG_POL ∧
      OnlyRegs [Reg.AON_WAKE_CFG] s t) ∧
    (s.flag Reg.AON_WAKE_CFG_EN = true → ∃ t, exec .wakeSense s = .next (gafRequestOp
      (if s.get Reg.AON_WAKE_CFG_TARGET = 3 then 0 else s.get Reg.AON_WAKE_CFG_TARGET) (raise0 t 0x0306 0)) ∧ OnlyRegs [Reg.AON_WAKE_CFG] s t) ∧
    (s.gaf.dips = [] → ∃ t, t = { s with gaf := { s.gaf with dips := [(railNum r, s.clk)] } } ∧
      exec (.railWarning r) s = .next (if r = .core ∨ r = .aux then t else raise0 t 0x0304 0) ∧
      t.frozenRails = decide (r = .core ∨ r = .aux)) ∧
    (s.gaf.dips = [] → exec (.railWarningClear r us) s = .next s) ∧
    (∀ x, s.gaf.dips = [(railNum r, x)] → us < 2 ^ 29 → ∃ t, OnlyRegs [Reg.GAF_SUPPLY_STS, Reg.GAF_BROWNOUT_LOG, Reg.VLT_UPD_STS] { s with gaf := { s.gaf with dips := [] } } t ∧
      t.frozenRails = false ∧ t.flag Reg.VLT_UPD_STS_FROZEN = false ∧ exec (.railWarningClear r us) s = .next (if r = .core ∨ r = .aux then raise0 (t.inc Reg.GAF_BROWNOUTS) 0x0303 0 else t) ∧
      (r = .core ∨ r = .aux → t.get Reg.GAF_BROWNOUT_LOG_RAIL = railNum r ∧ t.get Reg.GAF_BROWNOUT_LOG_DUR_US = us))

/-! ### Alarms, counters and spotlight (15) -/

/-- Raising an event (R541 to R546): on a halted device nothing; else its record joins the log with SEQ, rung, arguments and
time, unless the log is full, which keeps the log as it is; LOG does nothing more; NOTIFY also sets the event's pending bit and
no other register; QUIESCE_PORT also quiesces the port pair that the record names, and the device where it names none;
QUIESCE_DEVICE sets QDEV; the ZEROISE rungs erase the working keys, of the vault, of every resident slot and of every core, and
set POISON, ZEROISE_VAULT also erases the battery-backed secret; HALT keeps the record, freezes the log, turns every lane OFF
and halts. -/
def Obligations.EventsRespond : Prop :=
  ∀ (s : State) (id a0 a1 : Nat) (pair : Option Nat), id < 65536 →
    let t := raise s id a0 a1 pair
    let r := logRec s (rungOf s id) id a0 a1
    let u := id / 256
    let e := id % 256 % 32
    (s.evt.frozen = true → t = s) ∧
    (s.evt.frozen = false → s.evt.log.length < 1024 →
      t.evt.log = s.evt.log ++ [r] ∧ t.evt.seq = s.evt.seq + 1 ∧
      (rungOf s id = 0 → t = { s with evt := { s.evt with log := s.evt.log ++ [r], seq := s.evt.seq + 1 } }) ∧
      (rungOf s id = 1 → nbit (t.rd (Reg.EVT_PEND u)).toNat e = true ∧ (∀ a, a ≠ Reg.EVT_PEND u → t.rd a = s.rd a) ∧ t.rung = s.rung) ∧
      (∀ k < 32, rungOf s id = 2 → pair = some k → nbit (t.rd Reg.EVT_QUIESCE_PORTS).toNat k = true ∧
        t.flag Reg.EVT_STS_QDEV = s.flag Reg.EVT_STS_QDEV) ∧
      (rungOf s id = 2 → pair = none → t.flag Reg.EVT_STS_QDEV = true) ∧
      (rungOf s id = 3 → t.flag Reg.EVT_STS_QDEV = true ∧ t.vlt = s.vlt ∧ t.ctl = s.ctl) ∧
      (rungOf s id = 4 ∨ rungOf s id = 5 → t.vlt.wrapKey = none ∧ t.vlt.blobKey = none ∧ t.vlt.idKey = none ∧ t.vlt.slots = [] ∧
        t.zeroised = true ∧ t.vlt.otp = s.vlt.otp ∧ t.mgd.keysGone = true ∧ t.mgd.ret.poison = true ∧ t.flag Reg.EVT_STS_QDEV = true ∧
        (∀ p ∈ t.asc.slots, p.2.key = { a := 0, b := 0 }) ∧ ∀ p ∈ t.frm.cores, p.2.key = { a := 0, b := 0 }) ∧
      (rungOf s id = 4 → t.vlt.bbs = s.vlt.bbs) ∧ (rungOf s id = 5 → t.vlt.bbs = none ∧ t.vlt.secret = { a := 0, b := 0 }) ∧
      (rungOf s id = 6 → t.halted = true ∧ t.evt.frozen = true ∧ t.evt.lastHalt = some r ∧ t.get Reg.CTL_BOOT_HEALTHY = 0 ∧
        (∀ u j, j < laneCount u → t.laneSt u j = 0) ∧ t.gaf.trans = none)) ∧
    (s.evt.frozen = false → 1024 ≤ s.evt.log.length → t.evt.log = s.evt.log)

/-- The commands of the alarm unit (R544, R548): RELEASE_PORTS lifts the port pairs it names and no other; QDEV_LIFT lifts a
device quiesce unless a zeroise holds; unmasking a vector sends its held message once, and a vector that holds none sends
nothing. Counters and spotlight (R8, R551, R552, R558, R584): a counter counts, and past its last value begins again at 0 with
its wrap bit set; CNT_SNAP copies a group's counters into the buffer of the path that asks, whoever owns the device; CNT_CLEAR
zeroes the counters of its group and no other; a command while BUSY is 1 is counted in CTL_FAULT_BUSY; SPT_TAIL takes the index
and lets SPT_FULL be raised again. -/
def Obligations.AlarmsAndCounters : Prop :=
  (∀ (s : State) (who : Who) (ports : Word) (v : Fin 8), Serves s who →
      (∃ t, exec (.releasePorts who ports) s = .next t ∧ t.rd Reg.EVT_QUIESCE_PORTS = s.rd Reg.EVT_QUIESCE_PORTS &&& ~~~ ports ∧
        OnlyRegs [Reg.EVT_QUIESCE_PORTS] s t) ∧
      (s.zeroised = false → s.flag Reg.EVT_STS_QDEV = true → ∃ t, exec (.qdevLift who) s = .next t ∧ t.flag Reg.EVT_STS_QDEV = false ∧
        (s.fab.role = .fenced → t.flag Reg.FAB_STS_YIELD = false) ∧ OnlyRegs [Reg.EVT_STS, Reg.FAB_STS] s t) ∧
      (s.zeroised = true ∨ s.flag Reg.EVT_STS_QDEV = false → exec (.qdevLift who) s = .next s) ∧
      (v.val ∈ s.evt.msixHeld → ∃ t, exec (.msixUnmask (some v)) s = .next t ∧ t.out = .msix v :: s.out ∧ v.val ∉ t.evt.msixHeld ∧
        (t.rd (Reg.MSIX_TABLE v 3)).getLsbD 0 = false ∧ ∀ a, a ≠ Reg.MSIX_TABLE v 3 → t.rd a = s.rd a) ∧
      (v.val ∉ s.evt.msixHeld → ∃ t, exec (.msixUnmask (some v)) s = .next t ∧ OnlyRegs [Reg.MSIX_TABLE v 3] s t) ∧
      (s.evt.msixHeld = [] → exec (.msixUnmask none) s = .next s)) ∧
  (∀ (s : State) (who : Who) (off n : Nat) (g : BitVec 11) (index : BitVec 12), Awake s →
      (s.ctr off + n < 2 ^ 48 → (s.bump off n).ctr off = s.ctr off + n ∧ (∀ a, a ≠ off → (s.bump off n).ctr a = s.ctr a) ∧
        (s.bump off n).regs = s.regs ∧ (s.bump off n).evt = s.evt ∧ (s.bump off n).cnt.wraps = s.cnt.wraps) ∧
      (2 ^ 48 ≤ s.ctr off + n → n < 2 ^ 48 → s.evt.frozen = true ∨ s.evt.log.length < 1024 → s.ctr off < 2 ^ 48 →
        (s.bump off n).ctr off = s.ctr off + n - 2 ^ 48 ∧ ctrNumber off ∈ (s.bump off n).cnt.wraps ∧ (s.bump off n).cnt.lastWrap = some s.clk) ∧
      (s.winBusy who.path = true → exec (.cntSnap who g) s = .next (s.inc Reg.CTL_FAULT_BUSY)) ∧
      (s.winBusy who.path = false → ∃ t, exec (.cntSnap who g) s = .next t ∧ (t.path who.path).snapGroup = some g.toNat ∧
        (∀ i < (groupOffs g.toNat).length, mlook 0 i (t.path who.path).snap = s.ctr ((groupOffs g.toNat).getD i 0)) ∧
        t.regs = s.regs ∧ t.cnt = s.cnt ∧ t.evt = s.evt ∧ ∀ p, p ≠ who.path → t.path p = s.path p) ∧
      (Serves s who → s.flag Reg.CNT_CLEAR_BUSY = true → exec (.cntClear who g) s = .next (s.inc Reg.CTL_FAULT_BUSY)) ∧
      (Serves s who → s.flag Reg.CNT_CLEAR_BUSY = false → mlook 0 Reg.CNT_CLEAR s.locks = 0 → ∃ t, exec (.cntClear who g) s = .next t ∧
        (∀ a ∈ groupOffs g.toNat, t.ctr a = 0) ∧ (∀ a, a ∉ groupOffs g.toNat → t.ctr a = s.ctr a) ∧ t.evt = s.evt ∧
        ∀ a, a ≠ Reg.CNT_CLEAR → t.rd a = s.rd a) ∧
      (Serves s who → mlook 0 Reg.SPT_TAIL s.locks = 0 → ∃ t, exec (.sptTailWrite who index) s = .next t ∧
        t.get Reg.SPT_TAIL_INDEX = index.toNat ∧ t.cnt = { s.cnt with sptFullRaised := false } ∧ ∀ a, a ≠ Reg.SPT_TAIL → t.rd a = s.rd a))

/-! ### Rules of the whole device -/

/-- A halted device stays halted until a reset (R32, R546): whatever command comes, but the resets of R92 and R523, the step
answers a state that is halted with the log frozen and the same record of the halt; no register outside the always-on window, no
lock, no counter but those of misaligned accesses and of the service port's timeouts, and no port, association, core, buffer,
key, domain or pair state changes, and the memory guard's only by the seal. -/
def Obligations.HaltHolds : Prop :=
  ∀ s : State, s.halted = true → s.evt.frozen = true →
    (∀ c, s.pending.head? = some c → c ≠ .powerOnReset ∧ (∀ b, c ≠ .resetAssert b) ∧ c ≠ .railBelowReset .core ∧ c ≠ .railBelowReset .aux) →
    ∃ t, step s = .next t ∧ t.halted = true ∧ t.evt.frozen = true ∧ t.evt.lastHalt = s.evt.lastHalt ∧
      (∀ a, winOf a ≠ .aon → t.rd a = s.rd a) ∧ t.locks = s.locks ∧ (∀ c, c ≠ Reg.CTL_FAULT_ALIGN → c ≠ Reg.CTL_FAULT_SVC → t.ctr c = s.ctr c) ∧
      t.lanes = s.lanes ∧ t.korLanes = s.korLanes ∧ t.kor = s.kor ∧ t.flt = s.flt ∧ t.asc = s.asc ∧ t.frm = s.frm ∧ t.sch = s.sch ∧
      t.fab = { s.fab with seqs := t.fab.seqs } ∧ t.gaf = s.gaf ∧ t.vlt = s.vlt ∧
      ((∀ ok, s.pending.head? ≠ some (.seal ok)) → t.mgd = s.mgd)

/-- Only the ringmaster commands (R53, R54): each of the device's commands that is a write of the ringmaster, sent by a path
that is not ringmaster, whatever its operands, does nothing but count in CTL_FAULT_OWNER; of the units of which the firmware has
an interface of its own, each such command of another path. -/
def Obligations.OnlyRingmasterCommands : Prop :=
  ∀ (s : State) (who : Who) (path : Path) (lane : Lane) (k : Fin 32) (addr : BitVec 6) (ms b16 sh : BitVec 16) (tag : Byte) (val : Word) (wide byIndex valid : Bool)
    (profile : BitVec 4) (grp : BitVec 15) (pool : Fin 9) (assoc : BitVec 20) (m : Fin 64) (region : BitVec 3) (len : BitVec 11)
    (c : Fin 2) (seg : BitVec 14) (slot : Fin 16) (target : BitVec 2) (g : BitVec 11) (index : BitVec 12),
    Awake s → s.isOwner who = false →
    (who.path ≠ .firmware → ∀ cmd ∈ [Instr.fltInsert who wide profile, .fltDelete who byIndex wide profile, .fltRead who, .fltModify who byIndex wide profile,
        .fltSearch who wide profile, .harvestHits who, .install who, .activate who, .retire who, .ascRead who, .readCounters who, .pin who, .unpin who,
        .advancePn who, .setSuccessor who, .join who, .leave who, .troupeCreate who, .troupeDelete who, .troupeParent who, .schedule who,
        .cancel who, .dissolveStatus who, .uceStart who c, .uceFeed who c wide seg, .uceAbort who c, .slotWrite who slot wide, .loadBlob who slot,
        .slotErase who slot],
      exec cmd s = .next (s.inc Reg.CTL_FAULT_OWNER)) ∧
    ∀ cmd ∈ [Instr.handoverOffer who path addr ms, .handoverWithdraw who, .mbxGetInfo who tag, .mbxMkaDelegate who tag,
        .mbxMkaRelease who tag, .mbxMkaStatus who tag, .mbxPtpHandle who tag, .mbxLogRead who tag, .mbxSelfTest who tag,
        .laneCfgWrite who lane val, .laneRestart who lane, .lanePrbsCfgWrite who lane val, .injOnce who lane, .cueSend who k, .cuePop who k,
        .tsWrite who b16, .tsRead who b16, .tsClear who b16, .ccSigWrite who val, .ccLift who grp,
        .ringKat who k b16, .ringRestore who k b16, .poolCfgWrite who pool val, .shpWrite who sh, .shpRead who sh, .mapWrite who valid assoc,
        .mapRead who assoc, .histSnap who m, .timRateWrite who val, .timSet who, .timAdd who, .chgStart who region, .vltGenerate who,
        .vltImport who, .vltStore who, .vltFetch who, .vltAttest who, .updOpen who len, .updData who val, .updApply who, .updClose who,
        .switchover who, .gafRequest who target, .releasePorts who val, .qdevLift who, .cntClear who g, .sptTailWrite who index],
      exec cmd s = .next (s.inc Reg.CTL_FAULT_OWNER)

/-- Every command completes (the model's own: no rule of the spec gives a command that stops the block): whatever state it meets
and whatever its operands, a command answers a next state, and so does a step. -/
def Obligations.EveryCommandCompletes : Prop :=
  (∀ (i : Instr) (s : State), ∃ t, exec i s = .next t) ∧ ∀ s : State, ∃ t, step s = .next t

/-- The canonical form is kept (the model's own invariant: equal registers, locks and counters are equal data): a register's or
a field's new value, a counted event, a stored write of any register, a path's write that is refused, and the records of the
loader each keep the register file, the locks and the counters in their one form. -/
def Obligations.TidyKept : Prop :=
  ∀ (s : State) (who : Who) (cls : WriteClass) (off n : Nat) (v : Word) (f : Field) (ws : List Word) (op : State → State), Tidy s →
    Tidy (s.wr off v) ∧ Tidy (s.set f n) ∧ Tidy (s.wrs off ws) ∧ Tidy (s.bump off n) ∧ Tidy (storeReg off v s) ∧
    (∀ id a0 a1 pair, Tidy (raise s id a0 a1 pair)) ∧ (∀ b, Tidy (enterReset s b)) ∧
    ((∀ u, Tidy u → Tidy (op u)) → Tidy (gate who cls off op s) ∧ Tidy (live op s))
end

