-- ==== Sys2Proof/Laws/Events.lean ====
section
/-! SUPPORT. What raising an event, counting and a plain register write can do (R4, R5, R8, R539 to R548, R551): the parts of the
state that none of them touches, and the registers that an event's response may write. -/

namespace Sys2Proof.Machine

/-! ### What no event changes -/

/-- A state t with every part of s that no event and no count changes: only registers, counters, the alarm unit, the outputs, keys and
masks, the halt with the power transition it ends, and the fence are t's. -/
def workOf (s t : State) : State :=
  { s with
    regs := t.regs, out := t.out, cnt := t.cnt, evt := t.evt,
    ctl := { s.ctl with cond := t.ctl.cond },
    asc := { s.asc with slots := t.asc.slots },
    frm := { s.frm with cores := t.frm.cores },
    vlt := { s.vlt with wrapKey := t.vlt.wrapKey, blobKey := t.vlt.blobKey, idKey := t.vlt.idKey, slots := t.vlt.slots,
                        later := t.vlt.later, bbs := t.vlt.bbs, secret := t.vlt.secret, c0 := t.vlt.c0, c1 := t.vlt.c1 },
    gaf := { s.gaf with trans := t.gaf.trans, pend := t.gaf.pend, sleepAsk := t.gaf.sleepAsk },
    mgd := { s.mgd with keysGone := t.mgd.keysGone, ret := t.mgd.ret },
    fab := { s.fab with fencing := t.fab.fencing, fenceTo := t.fab.fenceTo } }

/-- Two states differ in nothing but what an event or a count may change. -/
def SameWork (s t : State) : Prop := t = workOf s t

theorem SameWork.refl (s : State) : SameWork s s := rfl

theorem SameWork.trans {s t u : State} (h : SameWork s t) (k : SameWork t u) : SameWork s u := by
  have h' : t = workOf s t := h
  have k' : u = workOf t u := k
  have e : workOf t u = workOf (workOf s t) u := congrArg (fun x => workOf x u) h'
  exact k'.trans e

theorem SameWork.wr {s t : State} (h : SameWork s t) (off : Nat) (v : Word) : SameWork s (t.wr off v) :=
  h.trans rfl

theorem SameWork.wrs {s : State} (off : Nat) (ws : List Word) : ∀ {t : State}, SameWork s t → SameWork s (t.wrs off ws) := by
  induction ws generalizing off with
  | nil => exact fun h => h
  | cons w ws ih => exact fun h => ih (off + 4) (h.wr off w)

theorem bumpRaw_work (s : State) (off n : Nat) : SameWork s (s.bumpRaw off n) := by
  unfold State.bumpRaw
  dsimp only
  split
  · exact rfl
  · exact rfl

theorem SameWork.bumpRaw {s t : State} (h : SameWork s t) (off n : Nat) : SameWork s (t.bumpRaw off n) :=
  h.trans (bumpRaw_work t off n)

theorem SameWork.setFlag {s t : State} (h : SameWork s t) (f : Field) (b : Bool) : SameWork s (t.setFlag f b) := h.wr _ _

theorem SameWork.ite {s a b : State} {p : Prop} [Decidable p] (h : SameWork s a) (k : SameWork s b) :
    SameWork s (if p then a else b) := by split; exacts [h, k]

theorem sendMsix_work (s : State) (v : Nat) : SameWork s (sendMsix s v) :=
  SameWork.ite (a := { s with evt := { s.evt with msixHeld := ladd v s.evt.msixHeld } }) rfl rfl

theorem SameWork.setPend {s t : State} (h : SameWork s t) (id : Nat) : SameWork s (setPend t id) :=
  have k := h.wr (Reg.EVT_PEND (id / 256)) (t.rd (Reg.EVT_PEND (id / 256)) ||| w32 (2 ^ (id % 256 % 32)))
  SameWork.ite h (SameWork.ite (k.trans (sendMsix_work _ _)) k)

theorem SameWork.quiescePort {s t : State} (h : SameWork s t) (k : Nat) : SameWork s (quiescePort t k) := h.wr _ _

theorem fence_work (s : State) : SameWork s { s with fab := { s.fab with fencing := true, fenceTo := .fenced } } := rfl

theorem SameWork.quiesceDevice {s t : State} (h : SameWork s t) : SameWork s (quiesceDevice t) :=
  have k := h.setFlag Reg.EVT_STS_QDEV true
  have y := k.setFlag Reg.FAB_STS_YIELD true
  SameWork.ite (SameWork.ite (y.trans (fence_work _)) y) k

/-- ZEROISE_WORKING beyond its registers. -/
def keysGone (s : State) : State :=
  { s with
    vlt := { s.vlt with wrapKey := none, blobKey := none, idKey := none, slots := [], later := [], c0 := bareChan s.vlt.c0, c1 := bareChan s.vlt.c1 }
    asc := { s.asc with slots := s.asc.slots.map (fun p => (p.1, { p.2 with key := { a := 0, b := 0 }, powers := [] })) }
    frm := { s.frm with cores := s.frm.cores.map (fun p => (p.1, { bareCore p.2 with seeded := false, seed := 0 })) }
    mgd := { s.mgd with keysGone := true, ret := { s.mgd.ret with poison := true } }
    evt := { s.evt with zeroise := max 4 s.evt.zeroise } }

theorem keysGone_work (s : State) : SameWork s (keysGone s) := rfl

theorem zeroiseWorking_eq (s : State) :
    zeroiseWorking s = keysGone ((zeroSlotSts (zeroStaging s)).setFlag Reg.VLT_STS_ZEROISED true) := by
  unfold zeroiseWorking keysGone
  dsimp only

theorem zeroSlots_work (l : List Nat) : ∀ {s t : State}, SameWork s t → SameWork s (l.foldl (fun s i => s.wr (Reg.UCE_SLOT_STS i) 0) t) := by
  induction l with
  | nil => exact fun h => h
  | cons i l ih => exact fun h => ih (h.wr _ _)

theorem SameWork.zeroiseWorking {s t : State} (h : SameWork s t) : SameWork s (zeroiseWorking t) := by
  rw [zeroiseWorking_eq]
  exact SameWork.trans ((zeroSlots_work _ (((h.wrs _ _).wrs _ _).wrs _ _)).setFlag _ _) (keysGone_work _)

theorem SameWork.lanesOff {s t : State} (h : SameWork s t) : SameWork s (lanesOff t) := by
  unfold Machine.lanesOff
  generalize laneBases = l
  induction l generalizing t with
  | nil => exact h
  | cons b l ih => exact ih ((h.wr _ _).wr _ _)

theorem haltNow_work (s : State) (c : Ctl → Ctl) (g : Gaf → Gaf) (e : Evt) (r : Retention) (hc : ∀ x, c x = { x with cond := (c x).cond })
    (hg : ∀ x, g x = { x with trans := (g x).trans, pend := (g x).pend, sleepAsk := (g x).sleepAsk }) :
    SameWork s { s with ctl := c s.ctl, gaf := g s.gaf, evt := e, mgd := { s.mgd with ret := r } } := by
  unfold SameWork workOf
  dsimp only
  rw [← hc, ← hg]

theorem SameWork.haltNow {s t : State} (h : SameWork s t) (r : LogRec) : SameWork s (haltNow t r) :=
  (h.setFlag Reg.CTL_BOOT_HEALTHY false).lanesOff.trans (haltNow_work _ (fun x => { x with cond := .halted })
    (fun x => { x with trans := none, pend := none, sleepAsk := [] }) _ _ (fun _ => rfl) (fun _ => rfl))

theorem SameWork.pushLog {s t : State} (h : SameWork s t) (r : LogRec) : SameWork s (pushLog t r) := by
  unfold Machine.pushLog
  split
  · exact h.trans rfl
  · exact h.bumpRaw _ _

theorem SameWork.respond {s t : State} (h : SameWork s t) (rung id : Nat) (pair : Option Nat) (r : LogRec) :
    SameWork s (respond t rung id pair r) := by
  have vault : ∀ {u : State}, SameWork s u → SameWork s (zeroiseVault u) := fun hu => hu.trans rfl
  have last : ∀ {u : State}, SameWork s u → SameWork s
      (let v := if rung = 4 ∨ rung = 5 then Machine.zeroiseWorking u else u
       let w := if rung = 5 then zeroiseVault v else v
       if rung = 6 then Machine.haltNow w r else w) := fun hu =>
    let hv := SameWork.ite hu.zeroiseWorking hu
    let hw := SameWork.ite (vault hv) hv
    SameWork.ite (hw.haltNow r) hw
  have h1 : SameWork s (if 1 ≤ rung then Machine.setPend t id else t) := SameWork.ite (h.setPend id) h
  unfold Machine.respond
  cases pair with
  | none =>
    have h2 := SameWork.ite (p := 2 ≤ rung) h1 h1
    exact last (SameWork.ite h2.quiesceDevice h2)
  | some k =>
    have h2 := SameWork.ite (p := 2 ≤ rung) (h1.quiescePort k) h1
    exact last (SameWork.ite h2.quiesceDevice h2)

theorem SameWork.raiseOne {s t : State} (h : SameWork s t) (rung id a0 a1 : Nat) (pair : Option Nat) :
    SameWork s (raiseOne t rung id a0 a1 pair) := by
  unfold Machine.raiseOne
  dsimp only
  split
  · exact h
  · exact (h.pushLog _).respond _ _ _ _

/-- Raising an event leaves the work of every unit alone: queue, time, lanes, ports, tables, records, fuses, role and memory. -/
theorem raise_work (s : State) (id a0 a1 : Nat) (pair : Option Nat) : SameWork s (raise s id a0 a1 pair) := by
  unfold raise raiseAt
  dsimp only
  have h := (SameWork.refl s).raiseOne (rungOf s id) id a0 a1 pair
  generalize raiseOne s (rungOf s id) id a0 a1 pair = t at h ⊢
  split
  · have k : SameWork s { t with evt := { t.evt with ovfRaised := true } } := h.trans rfl
    exact k.raiseOne _ _ _ _ _
  · exact h

theorem raise0_work (s : State) (id a0 : Nat) : SameWork s (raise0 s id a0) := raise_work s id a0 0 none

/-- Counting leaves the work of every unit alone. -/
theorem bump_work (s : State) (off n : Nat) : SameWork s (s.bump off n) := by
  unfold State.bump
  split
  · dsimp only
    have h : SameWork s { s.bumpRaw off n with cnt := { (s.bumpRaw off n).cnt with lastWrap := some s.clk } } :=
      ((SameWork.refl s).bumpRaw off n).trans rfl
    split
    · split
      · exact h.trans (raise0_work _ _ _)
      · exact h
    · split
      · exact h.trans (raise0_work _ _ _)
      · exact h
  · exact (SameWork.refl s).bumpRaw off n

theorem inc_work (s : State) (off : Nat) : SameWork s (s.inc off) := bump_work s off 1

/-! ### The registers that an event may write -/

/-- The registers that the event of a number, and the loss of its record, may write: pending bits, what the responses show, and the
staging that a zeroise and the lane states that a halt clears. -/
def eventRegs (id : Nat) : List Nat :=
  [Reg.EVT_PEND (id / 256), Reg.EVT_PEND 2, Reg.EVT_QUIESCE_PORTS, Reg.EVT_STS, Reg.FAB_STS, Reg.VLT_STS, Reg.CTL_BOOT] ++
    ((List.range 17).map Reg.VLT_KEY_STAGE ++ (List.range 8).map Reg.UCE_SLOT_KEY ++ (List.range 8).map Reg.ASC_KEY_STAGE ++
      (List.range 16).map Reg.UCE_SLOT_STS ++ laneBases.map Reg.LN_STS)

theorem rd_wrs_ne (off : Nat) (ws : List Word) {a : Nat} : ∀ {s : State}, (∀ i < ws.length, a ≠ off + 4 * i) → (s.wrs off ws).rd a = s.rd a := by
  induction ws generalizing off with
  | nil => exact fun _ => rfl
  | cons w ws ih =>
    intro s h
    have h0 : a ≠ off := by simpa using h 0 (by simp)
    have := ih (off + 4) (s := s.wr off w) (fun i hi => by
      have := h (i + 1) (by simpa using hi)
      omega)
    rw [State.wrs, this, State.rd_wr_ne _ _ h0]

theorem rd_bumpRaw (s : State) (off n a : Nat) : (s.bumpRaw off n).rd a = s.rd a := by
  unfold State.bumpRaw
  dsimp only
  split <;> rfl

theorem rd_ite {s u v : State} {p : Prop} [Decidable p] {a : Nat} (h : u.rd a = s.rd a) (k : v.rd a = s.rd a) :
    (if p then u else v).rd a = s.rd a := by split; exacts [h, k]

theorem rd_setFlag_ne (s : State) (f : Field) (b : Bool) {a : Nat} (h : a ≠ f.off) : (s.setFlag f b).rd a = s.rd a := s.rd_set_ne f _ h

theorem rd_sendMsix (s : State) (v a : Nat) : (sendMsix s v).rd a = s.rd a := by unfold sendMsix; exact rd_ite rfl rfl

theorem rd_setPend (s : State) (id : Nat) {a : Nat} (h : a ≠ Reg.EVT_PEND (id / 256)) : (setPend s id).rd a = s.rd a := by
  unfold setPend
  exact rd_ite rfl (rd_ite ((rd_sendMsix _ _ _).trans (s.rd_wr_ne _ h)) (s.rd_wr_ne _ h))

theorem rd_fence (s : State) {a : Nat} (k : a ≠ Reg.FAB_STS) : (fenceOnAlarm s).rd a = s.rd a :=
  have y := rd_setFlag_ne s Reg.FAB_STS_YIELD true k
  have part : ∀ (u : State) (f : Fab), ({ u with fab := f }).rd a = u.rd a := fun _ _ => rfl
  rd_ite (rd_ite ((part _ _).trans y) y) rfl

theorem rd_quiesceDevice (s : State) {a : Nat} (h : a ≠ Reg.EVT_STS) (k : a ≠ Reg.FAB_STS) : (quiesceDevice s).rd a = s.rd a := by
  unfold quiesceDevice
  rw [rd_fence _ k, rd_setFlag_ne s Reg.EVT_STS_QDEV true h]

theorem rd_zeroSlots (l : List Nat) {a : Nat} : ∀ {s : State}, (∀ i ∈ l, a ≠ Reg.UCE_SLOT_STS i) →
    (l.foldl (fun s i => s.wr (Reg.UCE_SLOT_STS i) 0) s).rd a = s.rd a := by
  induction l with
  | nil => exact fun _ => rfl
  | cons i l ih =>
    intro s h
    simp only [List.foldl_cons]
    rw [ih (fun j hj => h j (List.mem_cons_of_mem _ hj)), s.rd_wr_ne _ (h i List.mem_cons_self)]

theorem rd_zeroiseWorking (s : State) (id : Nat) {a : Nat} (h : a ∉ eventRegs id) : (zeroiseWorking s).rd a = s.rd a := by
  simp only [eventRegs, List.mem_append, List.mem_cons, List.mem_map, List.mem_range, List.not_mem_nil, or_false, not_or, not_exists,
    not_and] at h
  obtain ⟨⟨-, -, -, -, -, h1, -⟩, ⟨⟨⟨h2, h3⟩, h4⟩, h5⟩, -⟩ := h
  rw [zeroiseWorking_eq]
  have e0 : ∀ t : State, (keysGone t).rd a = t.rd a := fun t => rfl
  rw [e0, rd_setFlag_ne _ _ _ h1]
  unfold zeroSlotSts zeroStaging
  rw [rd_zeroSlots _ (fun i hi => fun e => h5 i (List.mem_range.mp hi) e.symm)]
  dsimp only
  rw [rd_wrs_ne _ _ (fun i hi => fun e => h4 i (by simpa using hi) (by rw [e]; rfl)),
    rd_wrs_ne _ _ (fun i hi => fun e => h3 i (by simpa using hi) (by rw [e]; rfl)),
    rd_wrs_ne _ _ (fun i hi => fun e => h2 i (by simpa using hi) (by rw [e]; rfl))]

theorem rd_lanesOff {a : Nat} (h : ∀ b ∈ laneBases, a ≠ Reg.LN_STS b) (s : State) : (lanesOff s).rd a = s.rd a := by
  unfold lanesOff
  revert h
  generalize laneBases = l
  intro h
  induction l generalizing s with
  | nil => rfl
  | cons b l ih =>
    have hb := h b List.mem_cons_self
    simp only [List.foldl_cons]
    rw [ih _ (fun j hj => h j (List.mem_cons_of_mem _ hj)), State.rd_set_ne _ (Reg.LN_STS_RUNG b) 0 hb,
      State.rd_set_ne _ (Reg.LN_STS_STATE b) 0 hb]

theorem rd_haltNow (s : State) (r : LogRec) {a : Nat} (h : a ≠ Reg.CTL_BOOT) (k : ∀ b ∈ laneBases, a ≠ Reg.LN_STS b) :
    (haltNow s r).rd a = s.rd a :=
  have parts : ∀ (u : State) (c : Ctl) (g : Gaf) (e : Evt) (m : Mgd), ({ u with ctl := c, gaf := g, evt := e, mgd := m }).rd a = u.rd a :=
    fun _ _ _ _ _ => rfl
  (parts _ _ _ _ _).trans ((rd_lanesOff k _).trans (rd_setFlag_ne s Reg.CTL_BOOT_HEALTHY false h))

theorem rd_respond (s : State) (rung id : Nat) (pair : Option Nat) (r : LogRec) {a : Nat} (h : a ∉ eventRegs id) :
    (respond s rung id pair r).rd a = s.rd a := by
  have g := h
  simp only [eventRegs, List.mem_append, List.mem_cons, List.mem_map, not_or, not_exists, not_and] at g
  obtain ⟨⟨p1, -, p3, p4, p5, -, p7, -⟩, -, p8⟩ := g
  have lanes : ∀ b ∈ laneBases, a ≠ Reg.LN_STS b := fun b hb e => p8 b hb e.symm
  have last : ∀ u : State, u.rd a = s.rd a →
      (let v := if rung = 4 ∨ rung = 5 then zeroiseWorking u else u
       let w := if rung = 5 then zeroiseVault v else v
       if rung = 6 then haltNow w r else w).rd a = s.rd a := fun u hu =>
    let hv : (if rung = 4 ∨ rung = 5 then zeroiseWorking u else u).rd a = s.rd a := rd_ite ((rd_zeroiseWorking u id h).trans hu) hu
    let hw : (if rung = 5 then zeroiseVault (if rung = 4 ∨ rung = 5 then zeroiseWorking u else u)
        else (if rung = 4 ∨ rung = 5 then zeroiseWorking u else u)).rd a = s.rd a := rd_ite hv hv
    rd_ite ((rd_haltNow _ _ p7 lanes).trans hw) hw
  have h1 : (if 1 ≤ rung then setPend s id else s).rd a = s.rd a := rd_ite (rd_setPend s id p1) rfl
  unfold respond
  cases pair with
  | none =>
    have h2 : (if 2 ≤ rung then (if 1 ≤ rung then setPend s id else s) else (if 1 ≤ rung then setPend s id else s)).rd a = s.rd a := rd_ite h1 h1
    exact last _ (rd_ite ((rd_quiesceDevice _ p4 p5).trans h2) h2)
  | some k =>
    have h2 : (if 2 ≤ rung then quiescePort (if 1 ≤ rung then setPend s id else s) k else (if 1 ≤ rung then setPend s id else s)).rd a =
        s.rd a := rd_ite ((State.rd_wr_ne _ _ p3).trans h1) h1
    exact last _ (rd_ite ((rd_quiesceDevice _ p4 p5).trans h2) h2)

theorem rd_raiseOne (s : State) (rung id a0 a1 : Nat) (pair : Option Nat) {a : Nat} (h : a ∉ eventRegs id) :
    (raiseOne s rung id a0 a1 pair).rd a = s.rd a := by
  unfold raiseOne
  refine rd_ite rfl ?_
  rw [rd_respond _ _ _ _ _ h]
  unfold pushLog
  exact rd_ite rfl (rd_bumpRaw _ _ _ _)

/-- A register that the event's responses do not name keeps its value. -/
theorem raise_rd (s : State) (id a0 a1 : Nat) (pair : Option Nat) {a : Nat} (h : a ∉ eventRegs id) :
    (raise s id a0 a1 pair).rd a = s.rd a := by
  have k : a ∉ eventRegs 0x0201 := by
    simp only [eventRegs, List.mem_append, List.mem_cons, not_or] at h ⊢
    obtain ⟨⟨-, p2, p3, p4, p5, p6, p7, p8⟩, q⟩ := h
    exact ⟨⟨p2, p2, p3, p4, p5, p6, p7, p8⟩, q⟩
  unfold raise raiseAt
  exact rd_ite ((rd_raiseOne _ _ _ _ _ _ k).trans (rd_raiseOne _ _ _ _ _ _ h)) (rd_raiseOne _ _ _ _ _ _ h)

theorem raise0_rd (s : State) (id a0 : Nat) {a : Nat} (h : a ∉ eventRegs id) : (raise0 s id a0).rd a = s.rd a := raise_rd s id a0 0 none h

/-! ### A frozen log -/

/-- A device whose log is frozen records and acts on no event (R546). -/
theorem raise_frozen {s : State} (h : s.evt.frozen = true) (id a0 a1 : Nat) (pair : Option Nat) : raise s id a0 a1 pair = s := by
  simp [raise, raiseAt, raiseOne, h]

/-- An event at rung LOG that finds room leaves its record and nothing else (R539, R545). -/
theorem raise_logged {s : State} {id : Nat} (h : s.evt.frozen = false) (k : s.evt.log.length < 1024) (r : rungOf s id = 0)
    (a0 a1 : Nat) (pair : Option Nat) : raise s id a0 a1 pair =
      { s with evt := { s.evt with log := s.evt.log ++ [logRec s 0 id a0 a1], seq := s.evt.seq + 1 } } := by
  have k' : ¬ 1024 ≤ s.evt.log.length := by omega
  simp [raise, raiseAt, raiseOne, h, r, pushLog, k, respond, k']

/-! ### A plain register write -/

/-- A register of no row ignores a write (R4). -/
theorem storeReg_none {off : Nat} (h : rowOf off = none) (val : Word) (s : State) : storeReg off val s = s := by simp [storeReg, storeAt, h]

/-- A register none of whose bits is locked takes its writable bits and clears its W1C bits, and nothing else changes (R5). -/
theorem storeReg_unlocked {off : Nat} {r : RegRow} (h : rowOf off = some r) {s : State} (k : mlook 0 off s.locks = 0) (val : Word) :
    storeReg off val s = s.wr off (((s.rd off &&& ~~~ w32 r.rw) ||| (val &&& w32 r.rw)) &&& ~~~ (val &&& w32 r.w1c)) := by
  simp only [storeReg, storeAt, h, k]
  simp [show ∀ x : Word, x &&& 4294967295#32 = x from fun x => BitVec.and_allOnes]

theorem storeAt_work (place off : Nat) (val : Word) (s : State) : SameWork s (storeAt place off val s) := by
  unfold storeAt
  split
  · exact SameWork.refl s
  · dsimp only
    split
    · exact (inc_work _ _).wr _ _
    · exact (SameWork.refl s).wr _ _

theorem storeReg_work (off : Nat) (val : Word) (s : State) : SameWork s (storeReg off val s) := storeAt_work off off val s

end Sys2Proof.Machine
end

