-- ==== Sys2Proof/Laws/LineCode.lean ====
section
/-! SUPPORT. Bits and bytes are the same thing written twice, and a scrambler undoes itself: what a receiver descrambles is what was
scrambled. -/

namespace Sys2Proof.Machine

/-- The bits of bytes, as bytes again, are those bytes. -/
@[simp] theorem bytesOf_bitsOf (bs : List Byte) : bytesOf (bitsOf bs) = bs := by
  induction bs with
  | nil => rfl
  | cons b bs ih =>
    have h : ∀ b : Byte, bytesOf (bitsOf [b]) = [b] := by decide +kernel
    have e : bytesOf (bitsOf (b :: bs)) = bytesOf (bitsOf [b]) ++ bytesOf (bitsOf bs) := rfl
    rw [e, h, ih]; rfl

/-- A scrambler keeps the number of its bits. -/
@[simp] theorem length_scramble (n : Nat) (taps : List Nat) (l : List Bool) : ∀ r, (scramble n taps r l).length = l.length := by
  induction l with
  | nil => intro _; rfl
  | cons b l ih => intro r; simp [scramble, ih]

/-- Scrambled twice from the same register, bits are as they were (R112, R163). -/
@[simp] theorem scramble_scramble (n : Nat) (taps : List Nat) (l : List Bool) : ∀ r, scramble n taps r (scramble n taps r l) = l := by
  induction l with
  | nil => intro _; rfl
  | cons b l ih => intro r; simp [scramble, ih]

/-- Whole bytes' bits, made bytes, have the same bits. -/
theorem bitsOf_bytesOf : ∀ (k : Nat) (l : List Bool), l.length = 8 * k → bitsOf (bytesOf l) = l
  | 0, l, h => by rw [List.length_eq_zero_iff.1 h]; rfl
  | k + 1, a :: b :: c :: d :: e :: f :: g :: h :: r, hl => by
    have one : ∀ a b c d e f g h : Bool,
        bitsOf [BitVec.ofNat 8 (bitsNum [a, b, c, d, e, f, g, h])] = [a, b, c, d, e, f, g, h] := by decide +kernel
    have cut : bitsOf (bytesOf (a :: b :: c :: d :: e :: f :: g :: h :: r)) =
        bitsOf [BitVec.ofNat 8 (bitsNum [a, b, c, d, e, f, g, h])] ++ bitsOf (bytesOf r) := rfl
    rw [cut, one, bitsOf_bytesOf k r (by simp at hl; omega)]; rfl
  | k + 1, [], hl | k + 1, [_], hl | k + 1, [_, _], hl | k + 1, [_, _, _], hl | k + 1, [_, _, _, _], hl | k + 1, [_, _, _, _, _], hl
  | k + 1, [_, _, _, _, _, _], hl | k + 1, [_, _, _, _, _, _, _], hl => by simp at hl; try omega

/-- Eight bits a byte. -/
@[simp] theorem length_bitsOf (bs : List Byte) : (bitsOf bs).length = 8 * bs.length := by
  simp [bitsOf, List.length_flatMap, Function.const_def, Nat.mul_comm]

/-- A scrambler over bytes undoes itself, and leaves the bytes before its first alone. -/
theorem scrambleFrom_scrambleFrom (i n : Nat) (taps : List Nat) (r : Nat) (bs : List Byte) (h : i ≤ bs.length) :
    scrambleFrom i n taps r (scrambleFrom i n taps r bs) = bs := by
  have e : (bs.take i).length = i := by simp [h]
  have d : (scrambleFrom i n taps r bs).drop i = bytesOf (scramble n taps r (bitsOf (bs.drop i))) := by
    rw [scrambleFrom, List.drop_append_of_le_length (by omega), List.drop_eq_nil_of_le (by omega), List.nil_append]
  rw [scrambleFrom, d, bitsOf_bytesOf (bs.drop i).length _ (by simp), scramble_scramble, bytesOf_bitsOf, scrambleFrom,
    List.take_append_of_le_length (by omega), List.take_take, Nat.min_self, List.take_append_drop]

/-- A cell descrambled is the cell that was scrambled (R474). -/
theorem cellScramble_cellScramble (lane : Nat) (c : List Byte) (h : 12 ≤ c.length) : cellScramble lane (cellScramble lane c) = c :=
  scrambleFrom_scrambleFrom 12 23 [22, 17] _ c h

/-- A lane frame descrambled is the lane frame that was scrambled (R163). -/
theorem korScramble_korScramble (laneId : Nat) (f : List Byte) (h : 8 ≤ f.length) : korScramble laneId (korScramble laneId f) = f :=
  scrambleFrom_scrambleFrom 8 23 [22, 17] _ f h

/-- A training frame descrambled is the training frame that was scrambled (R112). -/
theorem ktfScramble_ktfScramble (f : List Byte) (h : 4 ≤ f.length) : ktfScramble (ktfScramble f) = f :=
  scrambleFrom_scrambleFrom 4 13 [12, 11, 1, 0] _ f h

end Sys2Proof.Machine
end

