-- ==== Sys2Proof/Laws/Memory.lean ====
section
/-! SUPPORT. External memory behind the guard (11 R401, R404, R405, R421): every operation on it keeps its canonical form, a line reads
as it was written, and a write leaves every other line alone. -/

namespace Sys2Proof.Machine

theorem mrising_filter {α : Type} (q : Nat × α → Bool) {b : Nat} {m : SMap α} (h : mrising b m = true) :
    mrising b (m.filter q) = true := by
  induction m generalizing b with
  | nil => rfl
  | cons p m ih =>
    obtain ⟨j, w⟩ := p
    simp only [mrising, Bool.and_eq_true, decide_eq_true_eq] at h
    simp only [List.filter_cons]
    split
    · simp [mrising, h.1, ih h.2]
    · exact mrising_mono (ih h.2) (by omega)

theorem mcanon_filter {α : Type} [DecidableEq α] (dflt : Nat → α) (q : Nat × α → Bool) {m : SMap α} (h : mcanon dflt m = true) :
    mcanon dflt (m.filter q) = true := by
  simp only [mcanon, Bool.and_eq_true] at h ⊢
  refine ⟨mrising_filter q h.1, ?_⟩
  rw [List.all_eq_true] at h ⊢
  exact fun p hp => h.2 p (List.mem_of_mem_filter hp)

@[simp] theorem store_mgd (s : State) (off : Nat) (b : List Byte) : (s.store off b).mgd = s.mgd := rfl

theorem modMgd_tree_lines (s : State) (f : SMap TreeEntry → SMap TreeEntry) :
    (s.modMgd (fun m => { m with tree := f m.tree })).mgd.lines = s.mgd.lines := rfl

theorem initPath_lines (s : State) (p : Nat) : (initPath s p).mgd.lines = s.mgd.lines := by
  unfold initPath
  generalize s.pathKeys p = l
  exact modMgd_tree_lines s (fun t => l.foldl setInit t)

theorem SameWork.lines {s t : State} (h : SameWork s t) : t.mgd.lines = s.mgd.lines := by
  rw [show t = workOf s t from h]; rfl

theorem foldl_mgd {β : Type} (f : State → β → State) (hf : ∀ s x, (f s x).mgd = s.mgd) (l : List β) (s : State) :
    (l.foldl f s).mgd = s.mgd := by
  induction l generalizing s with
  | nil => rfl
  | cons x l ih => rw [List.foldl_cons, ih, hf]

@[simp] theorem storePage_mgd (s : State) (p : Nat) : (storePage s p).mgd = s.mgd := by
  unfold storePage
  dsimp only
  generalize List.range 64 = l
  generalize List.range 8 = m
  rw [foldl_mgd _ (fun _ _ => store_mgd _ _ _), foldl_mgd _ (fun _ _ => store_mgd _ _ _)]

@[simp] theorem storeLine_mgd (s : State) (line : Nat) : (storeLine s line).mgd = s.mgd :=
  (store_mgd _ _ _).trans (store_mgd _ _ _)

/-- The counters' part of a guarded write: whether all the page goes out, and the state. -/
def countWrite (s : State) (line : Nat) : Bool × State :=
  let p := line / 64
  match mget p s.mgd.ctrs with
  | none =>
    let (v, s) := s.draw
    (true, initPath (s.modMgd (fun m => { m with ctrs := mput p (firstBlock v) m.ctrs })) p)
  | some b =>
    let (b, ovf) := bumpLine b (line % 64)
    let s := s.modMgd (fun m => { m with ctrs := mput p b m.ctrs })
    (ovf, if ovf then s.inc Reg.MGD_MINOR_OVF else s)

theorem modMgd_ctrs_lines (s : State) (f : SMap CtrBlock → SMap CtrBlock) :
    (s.modMgd (fun m => { m with ctrs := f m.ctrs })).mgd.lines = s.mgd.lines := rfl

theorem countWrite_lines (s : State) (line : Nat) : (countWrite s line).2.mgd.lines = s.mgd.lines := by
  unfold countWrite
  dsimp only
  split
  · exact (initPath_lines _ _).trans rfl
  · next b _ =>
    generalize bumpLine b (line % 64) = r
    obtain ⟨b, ovf⟩ := r
    dsimp only
    cases ovf
    · exact modMgd_ctrs_lines s (fun c => mput (line / 64) b c)
    · exact (inc_work _ Reg.MGD_MINOR_OVF).lines.trans (modMgd_ctrs_lines s (fun c => mput (line / 64) b c))

theorem writeLine_eq (s : State) (line : Nat) (data : List Byte) :
    writeLine s line data =
      (let s' := (countWrite s line).2.modMgd (fun m => { m with
        lines := mstore zeroLine line (padTo 64 (data.take 64)) m.lines,
        dirty := ladd (line / 64) m.dirty,
        badLines := ldel line m.badLines })
      if (countWrite s line).1 then storePage s' (line / 64) else storeLine s' line) := rfl

/-- The data space after a guarded write: the line holds the data, and nothing else changes. -/
theorem writeLine_lines (s : State) (line : Nat) (data : List Byte) :
    (writeLine s line data).mgd.lines = mstore zeroLine line (padTo 64 (data.take 64)) s.mgd.lines := by
  have shown : ∀ (b : Bool) (t : State) (p : Nat), (if b then storePage t p else storeLine t line).mgd = t.mgd := fun b t p => by
    cases b <;> simp
  rw [writeLine_eq]
  have k := countWrite_lines s line
  generalize countWrite s line = r at k ⊢
  dsimp only
  rw [shown, ← k]
  rfl

/-- A line reads as it was written. -/
theorem writeLine_same (s : State) (line : Nat) (data : List Byte) :
    mlook zeroLine line (writeLine s line data).mgd.lines = padTo 64 (data.take 64) := by
  rw [writeLine_lines, mlook_mstore_same]

/-- A write leaves every other line alone. -/
theorem writeLine_other (s : State) (line : Nat) (data : List Byte) {l : Nat} (h : l ≠ line) :
    mlook zeroLine l (writeLine s line data).mgd.lines = mlook zeroLine l s.mgd.lines := by
  rw [writeLine_lines, mlook_mstore_ne _ _ _ _ h]

/-- A guarded write keeps the canonical form. -/
theorem writeLine_wf {s : State} (h : Memory.wf s.mgd = true) (line : Nat) (data : List Byte) : Memory.wf (writeLine s line data).mgd = true := by
  unfold Memory.wf
  rw [writeLine_lines]
  exact mcanon_mstore _ line _ h

/-- A write of part of a line keeps the canonical form. -/
theorem writePart_wf {s : State} (h : Memory.wf s.mgd = true) (line pos : Nat) (bytes : List Byte) :
    Memory.wf (writePart s line pos bytes).mgd = true := by
  unfold writePart
  split
  · unfold Memory.wf
    rw [show (readFails s).mgd.lines = s.mgd.lines from (SameWork.trans (inc_work _ _) (raise0_work _ _ _)).lines]
    exact h
  · exact writeLine_wf h _ _

/-- A write of whole lines keeps the canonical form. -/
theorem writeLines_wf {s : State} (h : Memory.wf s.mgd = true) (line n : Nat) (bytes : List Byte) :
    Memory.wf (writeLines s line n bytes).mgd = true := by
  unfold writeLines
  generalize List.range n = l
  induction l generalizing s with
  | nil => exact h
  | cons i l ih => exact ih (writeLine_wf h _ _)

/-- A range reset keeps the canonical form. -/
theorem rangeReset_wf {s : State} (h : Memory.wf s.mgd = true) (lo n : Nat) : Memory.wf (rangeReset s lo n).mgd = true := by
  have ages : (resetAges s lo n).mgd.lines = s.mgd.lines := by
    unfold resetAges
    dsimp only
    split <;> split
    · exact (SameWork.trans (raise0_work _ _ _) (raise0_work _ _ _)).lines
    · exact (raise0_work _ _ _).lines
    · exact (raise0_work _ _ _).lines
    · rfl
  have part : Memory.wf (rangeReset s lo n).mgd = mcanon (fun _ => zeroLine)
      ((resetAges s lo n).mgd.lines.filter (fun e => !(decide (lo ≤ e.1 / unitLines) && decide (e.1 / unitLines < lo + n)))) := rfl
  rw [part, ages]
  exact mcanon_filter _ _ h

/-- A blob that is stored keeps the canonical form. -/
theorem putBlob_wf {s : State} (h : Memory.wf s.mgd = true) (off : Nat) (b : List Byte) : Memory.wf (putBlob s off b).mgd = true :=
  writeLines_wf h _ _ _

/-- Memory after a power-on reset is in its canonical form, and a reset that keeps memory keeps the form. -/
theorem keptMemory_wf {m : Mgd} (h : Memory.wf m = true) (lost : Bool) : Memory.wf (keptMemory m lost) = true := by
  unfold keptMemory
  split
  · rfl
  · exact h

theorem reset_memory_wf : Memory.wf State.reset.mgd = true := rfl

end Sys2Proof.Machine
end

