-- ==== Sys2Proof/Tests/Slice0.lean ====
section
/-! SUPPORT. Small tests of one step each, the smoke test of `Instr.wf`, and for every statement with hypotheses a witness that some
concrete state and operands meet them, clause by clause. Expected values come from the spec's own rules. -/

open Sys2Proof Sys2Proof.Machine

namespace Sys2Proof.Tests

-- One theorem after the other: the tests' evaluations side by side need much more memory.
set_option Elab.async false

/-! ### States and operands for the tests -/

/-- The device out of reset, every register as reset leaves it. -/
def up : State := { State.reset with ctl := { State.reset.ctl with cond := .running } }

/-- Fields given values. -/
def fix (s : State) (fs : List (Field × Nat)) : State := fs.foldl (fun s p => s.set p.1 p.2) s

/-- The PCIe host is ringmaster (R55). -/
def own : State := fix up [(Reg.CTL_OWNER_STATE, 1), (Reg.CTL_OWNER_OWNER_PATH, 1)]

/-- Region 7 of the memory guard is in service and holds the association store and a blob window (R397). -/
def guarded : State := fix own [(Reg.MGD_STS_TRAINED, 1), (Reg.MGD_RGN_STS_STATE 7, 2), (Reg.MGD_RGN_BASE_VALUE 7, 32),
  (Reg.MGD_RGN_SIZE_VALUE 7, 1), (Reg.MGD_ROLE_STORE_VALID, 1), (Reg.MGD_ROLE_STORE_REGION, 7), (Reg.MGD_ROLE_BLOB_VALID, 1),
  (Reg.MGD_ROLE_BLOB_REGION, 7), (Reg.MGD_ROLE_BLOB_SIZE, 1)]

/-- The device serves a path's writes, as a test. -/
def served (s : State) (who : Who) : Bool := s.running && !s.dormant && s.isOwner who

/-- The test answers what `Serves` says. -/
theorem serves_of_served (s : State) (who : Who) (h : served s who = true) : Serves s who := by
  simp only [served, Bool.and_eq_true, Bool.not_eq_true'] at h
  exact ⟨⟨h.1.1, h.1.2⟩, h.2⟩

/-- The hypotheses that most statements share are met: the device serves its ringmaster, in RUN and awake. -/
theorem test_meets_serves : Serves own Who.host ∧ Awake own ∧ ServesOwn own Who.host ∧ ServesOwn own Who.fw :=
  have h := serves_of_served own Who.host (by decide +kernel)
  ⟨h, h.1, ⟨h.1, by decide +kernel⟩, ⟨h.1, by decide +kernel⟩⟩

/-- On a device that has just left reset no path's access waits, and every power domain is ON. -/
theorem test_meets_rest : (∀ p, NoneWaits up p) ∧ (∀ p, NoneWaits own p) ∧ DomainsOn up memDoms ∧ DomainsOn own [103] ∧
    DomainsOn up (List.range 32) := by
  refine ⟨fun p => ?_, fun p => ?_, ?_, ?_, ?_⟩
  · cases p <;> rfl
  · cases p <;> rfl
  all_goals (unfold DomainsOn; decide +kernel)

/-- Reset's registers, locks and counters are in their canonical form, and its memory too. -/
theorem test_meets_TidyKept : Tidy State.reset ∧ Memory.wf State.reset.mgd = true := by
  refine ⟨⟨?_, ?_, ?_⟩, ?_⟩ <;> decide +kernel

/-! ### The hypotheses of the statements are met -/

/-- IdleStepTicks: nothing waits at reset. -/
theorem test_meets_IdleStepTicks :
    State.reset.pending = [] ∧ State.reset.trackerWaits = false := by
  decide +kernel

/-- RegisterWrites: the first register of the parser, plain and with a bit locked. -/
theorem test_meets_RegisterWrites :
    served own Who.host = true ∧ winOf 0x200000 = .prs ∧ (rowOf 0x200000).isSome = true ∧ mlook 0 0x200000 own.locks = 0 ∧
    (rowOf 0x200000).any (fun r => decide (w32 r.w1c = 0) && decide ((own.rd 0x200000 ^^^ 0x20000000) &&& (0x20000000 &&& w32 r.rwl) ≠ 0)) = true ∧
    (mlook 0 0x200000 ({ own with locks := [(0x200000, 0x20000000)] } : State).locks = 0x20000000) := by
  decide +kernel

/-- AccessesRefused: an offset that is no multiple of 4, a path that is not ringmaster, and a dormant device. -/
theorem test_meets_AccessesRefused :
    up.answers = true ∧ (5#28).toNat % 4 ≠ 0 ∧
    own.isOwner Who.service = false ∧ Who.service.path ≠ .firmware ∧ own.dormant = false ∧ (0x200000#28).toNat % 4 = 0 ∧ classOf 0x200000 = .other ∧ own.stallsAt 0x200000 = false ∧
    own.isOwner Who.fw = false ∧ classOf Reg.FLT_CMD = .fwOwn ∧ Reg.FLT_CMD % 4 = 0 ∧ own.stallsAt Reg.FLT_CMD = false ∧
    (fix up [(Reg.GAF_STS_STATE, 3)]).running = true ∧ (fix up [(Reg.GAF_STS_STATE, 3)]).halted = false ∧ (fix up [(Reg.GAF_STS_STATE, 3)]).dormant = true ∧ dormantOpen 0x200000 = false ∧ 0xFFFFFC < 0x1000000 ∧ dormantOpen 0xFFFFFC = false := by
  decide +kernel

/-- WideReads: the counter CTL_FAULT_ALIGN; BAR2 offsets of both halves of an exposed group's counter and of a hidden one. -/
theorem test_meets_WideReads :
    up.running = true ∧ up.dormant = false ∧ Who.host.path ≠ .firmware ∧ isCtr Reg.CTL_FAULT_ALIGN = true ∧ Reg.CTL_FAULT_ALIGN % 8 = 0 ∧ isLow (Reg.CTL_FAULT_ALIGN + 4) = false ∧
    (specialRead Who.host Reg.CTL_FAULT_ALIGN).isNone = true ∧ (specialRead Who.host (Reg.CTL_FAULT_ALIGN + 4)).isNone = true ∧
    up.stallsAt Reg.CTL_FAULT_ALIGN = false ∧ up.stallsAt (Reg.CTL_FAULT_ALIGN + 4) = false ∧ measureAt Reg.CTL_FAULT_ALIGN up = up ∧ measureAt (Reg.CTL_FAULT_ALIGN + 4) up = up ∧ Reg.CTL_FAULT_ALIGN ≠ Reg.SPT_PORTS ∧
    up.halted = false ∧ up.bar2Shows 0x3A0000 = false ∧ bar2Wide 0x3A0000 = false ∧
    bar2Wide 0 = true ∧ bar2Wide 4 = true ∧ (4#22).toNat % 8 ≠ 0 ∧ bar2Wide 0x39FFF8 = true ∧ bar2Wide 0x3E0000 = true ∧
    bar2Wide 0x3D0000 = false ∧ up.bar2Shows 0x3D0000 = true := by
  decide +kernel

/-- ServicePort: the first and the last offset of BAR0's registers, and an access that stalls. -/
theorem test_meets_ServicePort :
    (up.stallsAt 0 = false ∧ up.stallsAt 0xFFFFFC = false ∧ (let z := { up with gaf := { up.gaf with doms := [(103, .off)] } }
   z.running = true ∧ z.stallsAt (Reg.UCE_CTRL 0) = true ∧ Reg.UCE_CTRL 0 < 0x1000000 ∧ Reg.UCE_CTRL 0 % 4 = 0)) ∧
    up.running = true ∧ (0#32).toNat < 0x1000000 ∧ (0xFFFFFC#32).toNat < 0x1000000 ∧ (0xFFFFFC#32).toNat % 4 = 0 := by
  decide +kernel

/-- RemoteAperture: the first and the last offset of the aperture, with no request waiting. -/
theorem test_meets_RemoteAperture :
    up.running = true ∧ up.dormant = false ∧ (0#24).toNat % 4 = 0 ∧ (0xFFFFFC#24).toNat % 4 = 0 ∧ up.ctl.pcie.remote = [] := by
  decide +kernel

/-- OwnershipMoves: an unowned, an owned and an offered device; codes and addresses at their ends. -/
theorem test_meets_OwnershipMoves :
    up.running = true ∧ up.dormant = false ∧ pathCode Who.host.path ≠ 0 ∧ up.get Reg.CTL_OWNER_STATE = 0 ∧ own.get Reg.CTL_OWNER_STATE ≠ 0 ∧
    own.isOwner Who.host = true ∧ own.isOwner Who.service = false ∧
    pathCode Who.service.path ≠ 0 ∧ claimRank Who.host < claimRank Who.service ∧
    ((let d := fix up [(Reg.CTL_LOAD_STATUS_STATE, 3), (Reg.CTL_LOAD_STATUS_KIND, 4)]
   decisionNear { d with ctl := { d.ctl with image := [(1, 0x00010100)] } } = true)) ∧
    up.stage ≠ 6 ∧ up.stage ≠ 7 ∧ own.get Reg.CTL_OWNER_OWNER_PATH = 1 ∧ own.get Reg.CTL_OWNER_OWNER_ADDR = 0 ∧ own.get Reg.CTL_OWNER_OWNER_PATH ≠ 3 ∧
    ((let o := fix own [(Reg.CTL_OWNER_STATE, 2), (Reg.CTL_OWNER_OFFER_PATH, 2)]
   o.get Reg.CTL_OWNER_STATE = 2 ∧ whoIs Who.service (o.get Reg.CTL_OWNER_OFFER_PATH) (o.get Reg.CTL_OWNER_OFFER_ADDR) = true ∧ served o Who.host = true)) ∧
    served own Who.host = true ∧ mlook 0 Reg.CTL_HANDOVER own.locks = 0 ∧ (1#16) ≠ 0 := by
  decide +kernel

/-- LoaderStages: the loader idle, done and failed, open, verifying, verified and applying, with and without its holder. -/
theorem test_meets_LoaderStages :
    up.running = true ∧ up.dormant = false ∧ pathCode Who.host.path ≠ 0 ∧ own.loadState = 0 ∧ own.mayOpen Who.host 2 = true ∧ (0xFFFFFC#24).toNat % 4 = 0 ∧
    (fix own [(Reg.CTL_LOAD_STATUS_STATE, 5)]).loadState = 5 ∧ (fix own [(Reg.CTL_LOAD_STATUS_STATE, 6)]).loadState = 6 ∧ own.mayOpen Who.service 2 = false ∧
    ((let o := fix own [(Reg.CTL_LOAD_STATUS_STATE, 1), (Reg.CTL_LOAD_STATUS_HOLDER, 1)]
   let i := { o with ctl := { o.ctl with imageLen := 4 } }
   let f := fix i [(Reg.CTL_LOAD_STATUS_KIND, 1)]
   i.loadState = 1 ∧ i.holds Who.host = true ∧ i.holds Who.service = false ∧ 4 * i.get Reg.CTL_LOAD_ADDR_WORD < i.ctl.imageLen ∧
   i.loadKind ≠ 1 ∧ o.ctl.imageLen ≤ 4 * o.get Reg.CTL_LOAD_ADDR_WORD ∧ f.loadKind = 1 ∧ f.served 0 = false ∧ (fix f [(Reg.MGD_RGN_STS_STATE 0, 2)]).served 0 = true)) ∧
    (fix own [(Reg.CTL_LOAD_STATUS_STATE, 2), (Reg.CTL_LOAD_STATUS_HOLDER, 1)]).loadState = 2 ∧ (fix own [(Reg.CTL_LOAD_STATUS_STATE, 3)]).loadState = 3 := by
  decide +kernel

/-- LoaderVerifies: firmware whose two verdicts pass, fail and differ, a script and a decision that fail, each kind verified and applying. -/
theorem test_meets_LoaderVerifies :
    ((let o := fix own [(Reg.CTL_LOAD_STATUS_STATE, 2), (Reg.CTL_LOAD_STATUS_HOLDER, 1), (Reg.CTL_LOAD_STATUS_KIND, 1)]
   let verdicts := fun a b => { o with ctl := { o.ctl with doubled := [{ decision := .signature, first := a, second := some b }] } }
   o.loadState = 2 ∧ o.loadKind = 1 ∧ verifyCode (verdicts true true) = 0 ∧ verifyCode (verdicts false false) ≠ 0 ∧ verifyCode (verdicts false false) ≠ 6 ∧ verifyCode (verdicts true false) = 6)) ∧
    ((let o := fix own [(Reg.CTL_LOAD_STATUS_STATE, 2), (Reg.CTL_LOAD_STATUS_KIND, 2)]
   o.loadState = 2 ∧ o.loadKind = 2 ∧ verifyCode o ≠ 0 ∧ verifyCode o ≠ 6 ∧ up.loadState ≠ 2)) ∧
    ((let o := fix own [(Reg.CTL_LOAD_STATUS_STATE, 2), (Reg.CTL_LOAD_STATUS_KIND, 4)]
   o.loadState = 2 ∧ verifyCode o ≠ 6 ∧ o.loadKind = 4)) ∧
    ((let o := fix own [(Reg.CTL_LOAD_STATUS_STATE, 3), (Reg.CTL_LOAD_STATUS_HOLDER, 1)]
   o.loadState = 3 ∧ o.holds Who.host = true ∧ (fix o [(Reg.CTL_LOAD_STATUS_KIND, 1)]).loadKind = 1 ∧ (fix o [(Reg.CTL_LOAD_STATUS_KIND, 2)]).loadKind = 2 ∧ (fix o [(Reg.CTL_LOAD_STATUS_KIND, 3)]).loadKind = 3)) ∧
    ((let o := fix own [(Reg.CTL_LOAD_STATUS_STATE, 3), (Reg.CTL_LOAD_STATUS_HOLDER, 1), (Reg.CTL_LOAD_STATUS_KIND, 4)]
   let i := { o with ctl := { o.ctl with imageLen := 184, image := [(1, 0x00010100)] } }
   i.loadState = 3 ∧ i.holds Who.host = true ∧ i.loadKind = 4 ∧ byteAt (imageBytes i) 5 = 1)) ∧
    ((let o := fix own [(Reg.CTL_LOAD_STATUS_STATE, 4)]
   o.loadState = 4 ∧ up.loadState ≠ 4 ∧ laneMapOk o = true ∧ laneMapOk (fix o [(Reg.LN_CFG_MODE (lnBase .lnc 0), 1)]) = false)) := by
  decide +kernel

/-- MailboxStarts: firmware running and not, the mailbox busy and not, and a path that is not ringmaster. -/
theorem test_meets_MailboxStarts :
    served own Who.host = true ∧ mlook 0 Reg.CTL_MBX_CMD own.locks = 0 ∧ own.flag Reg.CTL_MBX_STATUS_BUSY = false ∧ own.ctl.fwRun = false ∧
    (({ own with ctl := { own.ctl with fwRun := true } } : State).ctl.fwRun = true ∧ (fix own [(Reg.CTL_MBX_STATUS_BUSY, 1)]).flag Reg.CTL_MBX_STATUS_BUSY = true) ∧
    own.isOwner Who.service = false := by
  decide +kernel

/-- MailboxEnds: a command in progress that firmware may finish and one that its arguments forbid; firmware verified before and after ownership. -/
theorem test_meets_MailboxEnds :
    ((let b := fix up [(Reg.CTL_MBX_STATUS_BUSY, 1)]
   let l := { b with ctl := { b.ctl with mbxOp := 6 } }
   let d := { b with ctl := { b.ctl with mbxOp := 2 } }
   b.flag Reg.CTL_MBX_STATUS_BUSY = true ∧ up.flag Reg.CTL_MBX_STATUS_BUSY = false ∧ l.ctl.mbxOp = 6 ∧ mbxCode d ≠ 0 ∧ mbxCode l = 0)) ∧
    (({ up with ctl := { up.ctl with mbxOp := 3 } } : State).ctl.mbxOp = 3 ∧ ({ up with ctl := { up.ctl with mbxOp := 5 } } : State).ctl.mbxOp = 5) ∧
    ((let f := { up with ctl := { up.ctl with fwVerified := true, fwRun := true } }
   f.ctl.fwRun = true ∧ f.ctl.fwVerified = true ∧ f.stage ≠ 5 ∧ up.ctl.fwRun = false ∧ up.ctl.fwVerified = false ∧ (fix f [(Reg.CTL_BOOT_STAGE, 5)]).stage = 5 ∧ (fix f [(Reg.CTL_BOOT_STAGE, 5)]).owned = false)) ∧
    up.evt.frozen = false ∧ rungOf (fix up [(Reg.EVT_MAP_RUNG 1 5, 0)]) 0x0105 = 0 ∧ up.evt.log.length < 1024 := by
  decide +kernel

/-- FirmwareFrames: firmware running and not; a port that exists and one that does not; an MKA frame for a line port and another frame for either side. -/
theorem test_meets_FirmwareFrames :
    (up.running = true ∧ up.ctl.fwRun = false ∧ ({ up with ctl := { up.ctl with fwRun := true } } : State).ctl.fwRun = true) ∧
    up.portExists .client 0 = false ∧ (fix up [(Reg.LN_CFG_MODE (lnBase .lnc 0), 1)]).portExists .client 0 = true ∧ (fix up [(Reg.LN_CFG_MODE (lnBase .lnl 31), 1)]).portExists .line 31 = true ∧
    isMka 0 (List.replicate 60 0) = false ∧ isMka 63 (List.replicate 60 0) = false ∧ isMka 32 (List.replicate 12 0 ++ [0x88, 0x8E]) = true := by
  decide +kernel

/-- ResetsDevice: a device out of reset, and one whose life-cycle transition waits for its reset. -/
theorem test_meets_ResetsDevice :
    (up.ctl.cond ≠ .battery ∧ up.running = true ∧ ({ up with vlt := { up.vlt with lcReset := true } } : State).vlt.lcReset = true) := by
  decide +kernel

/-- StartUpStages: each stage of start-up as its clause needs it. -/
theorem test_meets_StartUpStages :
    State.reset.ctl.cond = .reset ∧ State.reset.stage = 1 ∧ State.reset.gaf.dips = [] ∧
    ((let t := fix State.reset [(Reg.CTL_BOOT_STAGE, 2)]
   t.stage = 2 ∧ t.aon.pendingBurn = 0 ∧ t.aon.latch = 0 ∧ t.frozenRails = false)) ∧
    ((let t := fix State.reset [(Reg.CTL_BOOT_STAGE, 2)]
   let p := { t with aon := { t.aon with pendingBurn := 1 } }
   p.stage = 2 ∧ 0 < min p.aon.pendingBurn (64 - p.evidence) ∧ p.frozenRails = false)) ∧
    ((let t := fix up [(Reg.CTL_BOOT_STAGE, 3)]
   let v := { t with aon := { t.aon with vbatLost := false }, vlt := { t.vlt with otp := { t.vlt.otp with valid := 1 }, bbs := some { value := 0, lc := 3, slot := 0 } } }
   v.running = true ∧ v.stage = 3 ∧ v.frozenRails = false ∧ lcCode v.vlt.otp = 3 ∧ v.aon.vbatLost = false ∧ bbsStale v.vlt = false ∧ counterEnd v.vlt = false ∧ v.evt.frozen = false)) ∧
    ((let t := fix up [(Reg.CTL_BOOT_STAGE, 4)]
   t.stage = 4 ∧ t.get Reg.MGD_DDR_STS_SUBCH ≠ 3 ∧ t.get Reg.MGD_DDR_STS_CAP ≠ 3 ∧ (1#2) ≠ 0 ∧ t.mgd.ret.isSealed = false ∧ t.flag Reg.MGD_STS_TRAINED = false)) ∧
    (fix up [(Reg.CTL_BOOT_STAGE, 9)]).stage = 9 ∧ (fix up [(Reg.CTL_BOOT_STAGE, 9)]).bootMode = 0 ∧ (fix up [(Reg.CTL_BOOT_STAGE, 9), (Reg.CTL_BOOT_MODE, 1)]).bootMode ≠ 0 := by
  decide +kernel

/-- TamperRecorded: a monitor off and on, evidence due with room and without, a doubled verdict, VBAT low and not; AlarmActs: both supplies. -/
theorem test_meets_TamperRecorded :
    up.running = true ∧ up.aon.onBattery = false ∧ (fix up [(Reg.AON_MON_CFG_EN 8, 0)]).flag (Reg.AON_MON_CFG_EN 8) = false ∧
    ((let t := fix up [(Reg.AON_MON_CFG_EN 0, 1), (Reg.AON_MON_CFG_N 0, 1)]
   t.flag (Reg.AON_MON_CFG_EN 0) = true ∧ t.get (Reg.AON_MON_CFG_N 0) ≤ 1 ∧ (t.mon 0).cond = false)) ∧
    ((let t := { up with aon := { up.aon with dueBurn := 1 } }
   t.aon.dueBurn ≠ 0 ∧ t.frozenRails = false ∧ t.evidence < 63 ∧ up.aon.dueBurn = 0)) ∧
    (({ up with vlt := { up.vlt with otp := { up.vlt.otp with evidence := 63 } } } : State).evidence = 63 ∧ up.evidence ≠ 64) ∧
    ((let t := { up with ctl := { up.ctl with doubled := [{ decision := .monitor 3, first := true, second := none }] } }
   t.aon.onBattery = false ∧ t.ctl.doubled = [{ decision := .monitor 3, first := true, second := none }])) ∧
    up.flag Reg.AON_STS_VBAT_LOW = false ∧ (fix up [(Reg.AON_STS_VBAT_LOW, 1)]).flag Reg.AON_STS_VBAT_LOW = true ∧
    (({ up with aon := { up.aon with onBattery := true } } : State).aon.onBattery = true ∧ up.ctr Reg.AON_ALARMS + 1 < 2 ^ 48) := by
  decide +kernel

/-- LanesConfigured: the last lane of LNF, a port's first lane and another lane, and a quad that is wanted and one that is not. -/
theorem test_meets_LanesConfigured :
    served own Who.host = true ∧ (15 : Fin 32).val < laneCount .lnf ∧ mlook 0 (Reg.LN_PRBS_CFG (lnBase .lnf 15)) own.locks = 0 ∧
    ((let t := fix own [(Reg.LN_CFG_MODE (lnBase .lnc 31), 1), (Reg.LN_STS_STATE (lnBase .lnc 31), 7)]
   t.portOf .lnc 31 = some 31 ∧ t.laneSt .lnc 31 ≠ 0 ∧ t.laneSt .lnc 31 ≠ 8 ∧ t.portOf .lnc 30 ≠ some 30)) ∧
    ((let t := fix own [(Reg.LN_CFG_MODE (lnBase .lnf 15), 3), (Reg.LN_CFG_ADMIN_UP (lnBase .lnf 15), 1)]
   4 * (3 : Fin 8).val < laneCount .lnf ∧ t.quadOn .lnf 12 = false ∧ (quadLanes 12).any (fun i => t.wantsPower .lnf i) = true ∧
   (quadLanes 0).any (fun i => t.wantsPower .lnf i) = false)) := by
  decide +kernel

/-- PortRestarts: a running device, a port not in MISSION, a reason of 255, and room in its counter. -/
theorem test_meets_PortRestarts :
    up.running = true ∧ up.laneSt .lnc 0 ≠ 6 ∧ 255 < 256 ∧ up.ctr (Reg.LN_RESTARTS (lnBase .lnc 0)) + 1 < 2 ^ 48 := by
  decide +kernel

/-- LaneSignals: a lane in a port in DETECT and OFF, one in none with and without lock, a quad on and off, a clock good and lost, all heard. -/
theorem test_meets_LaneSignals :
    ((let t := fix up [(Reg.LN_CFG_MODE (lnBase .lnl 0), 1), (Reg.LN_STS_STATE (lnBase .lnl 0), 2)]
   t.running = true ∧ t.portOf .lnl 0 = some 0 ∧ t.portActive .lnl 0 = true ∧ t.flag (Reg.LN_STS_CDR_LOCK (lnBase .lnl 0)) = false ∧ t.portOf .lnl 31 = none ∧
   (fix t [(Reg.LN_STS_STATE (lnBase .lnl 0), 0)]).portActive .lnl 0 = false)) ∧
    (fix up [(Reg.LN_STS_CDR_LOCK (lnBase .lnl 31), 1)]).flag (Reg.LN_STS_CDR_LOCK (lnBase .lnl 31)) = true ∧ up.portOf .lnl 31 = none ∧
    ((let t := fix { up with lanes := { up.lanes with quads := [15] } } [(Reg.LN_STS_REFCLK_OK (lnBase .lnl 0), 1)]
   t.quadOn .lnl 31 = true ∧ t.refclkOk .lnl = true ∧ t.portOf .lnl 31 = none ∧ t.quadOn .lnl 0 = false)) ∧
    ((let t := fix up [(Reg.LN_CFG_MODE (lnBase .lnl 0), 2), (Reg.LN_STS_STATE (lnBase .lnl 0), 2), (Reg.LN_STS_SIGNAL (lnBase .lnl 0), 1), (Reg.LN_STS_CDR_LOCK (lnBase .lnl 0), 1), (Reg.LN_STS_REFCLK_OK (lnBase .lnl 0), 1)]
   t.laneSt .lnl 0 = 2 ∧ t.refclkOk .lnl = true ∧ (t.portLanes .lnl 0).all (fun i => t.laneHeard .lnl i) = true ∧ t.policy .lnl 0 ≠ 2 ∧
   (fix t [(Reg.LN_CFG_POLICY (lnBase .lnl 0), 2)]).policy .lnl 0 = 2)) ∧
    (.lnc ∉ up.lanes.refclkBad ∧ .lnc ∈ ({ up with lanes := { up.lanes with refclkBad := [.lnc] } } : State).lanes.refclkBad) := by
  decide +kernel

/-- BringUpMoves: a ladder port in TRAIN and in its gap, in STEP and FAILED, and an IEEE port in TRAIN and in NEGOTIATE over both media. -/
theorem test_meets_BringUpMoves :
    ((let t := fun (pol st rung med : Nat) => fix up [(Reg.LN_CFG_MODE (lnBase .lnc 31), 1), (Reg.LN_CFG_POLICY (lnBase .lnc 31), pol), (Reg.LN_CFG_MEDIUM (lnBase .lnc 31), med), (Reg.LN_STS_STATE (lnBase .lnc 31), st), (Reg.LN_STS_RUNG (lnBase .lnc 31), rung)]
   (t 2 4 1 0).running = true ∧ (t 2 4 1 0).portOf .lnc 31 = some 31 ∧ (t 2 4 1 0).policy .lnc 31 = 2 ∧ (t 2 4 1 0).laneSt .lnc 31 = 4 ∧
   (t 2 4 1 0).inGap .lnc 31 = false ∧ ((t 2 4 1 0).modLane .lnc 31 (fun x => { x with gap := true })).inGap .lnc 31 = true ∧
   (t 0 4 4 0).policy .lnc 31 ≠ 2 ∧ (t 0 4 4 0).laneSt .lnc 31 = 4 ∧ (t 2 7 0 0).laneSt .lnc 31 = 7 ∧ (t 2 5 1 0).laneSt .lnc 31 = 5 ∧ (t 2 5 1 0).inGap .lnc 31 = false ∧
   (t 0 3 0 0).laneSt .lnc 31 = 3 ∧ (t 0 3 0 0).get (Reg.LN_CFG_MEDIUM (lnBase .lnc 31)) = 0 ∧ (t 0 3 0 0).noWait .lnc 31 = true ∧
   (t 0 3 0 1).laneSt .lnc 31 = 3 ∧ (t 0 3 0 1).get (Reg.LN_CFG_MEDIUM (lnBase .lnc 31)) = 1 ∧ (t 0 3 0 1).noWait .lnc 31 = true)) := by
  decide +kernel

/-- TrainingFrames: a ladder port in DETECT with an answer due, one in MISSION, bits without a marker, and a frame behind its marker. -/
theorem test_meets_TrainingFrames :
    ((let t := fun (st : Nat) => fix up [(Reg.LN_CFG_MODE (lnBase .lnl 0), 2), (Reg.LN_CFG_POLICY (lnBase .lnl 0), 2), (Reg.LN_STS_STATE (lnBase .lnl 0), st)]
   let a := (t 2).modLane .lnl 0 (fun x => { x with peerAck := 1 })
   a.running = true ∧ a.portOf .lnl 0 = some 0 ∧ a.policy .lnl 0 = 2 ∧ a.get (Reg.LN_CFG_LOOP (lnBase .lnl 0)) = 0 ∧ a.laneSt .lnl 0 = 2 ∧
   (a.lane .lnl 0).peerAck ≠ (a.lane .lnl 0).reqSeq ∧ a.flag (Reg.LN_CFG_TX_DISABLE (lnBase .lnl 0)) = false ∧
   findKtf (a.get (Reg.LN_STS_RUNG (lnBase .lnl 0))) ([] ++ bitsOf []) = none ∧
   a.flag (Reg.LN_STS_RX_POL_INV (lnBase .lnl 0)) = false ∧ a.adapts .lnl 0 = false ∧ (t 6).laneSt .lnl 0 = 6)) ∧
    ((let f := toBe 4 0x1D2B6E47 ++ List.replicate 60 (0 : Byte)
   f.length = 64 ∧ be (f.take 4) = 0x1D2B6E47)) := by
  decide +kernel

/-- LaneTests: a checker that runs and one that does not, 1,024 bits of the square wave, and a lane that may inject and one that may not. -/
theorem test_meets_LaneTests :
    ((let t := fix own [(Reg.LN_PRBS_CFG_CHK_EN (lnBase .lnl 31), 1), (Reg.LN_PRBS_CFG_PATTERN (lnBase .lnl 31), 9), (Reg.LN_STS_STATE (lnBase .lnl 31), 8)]
   let bits := symbolBits ((List.replicate 64 [true, true, true, true, true, true, true, true, false, false, false, false, false, false, false, false]).flatten.map .nrz)
   served t Who.host = true ∧ t.get (Reg.LN_CFG_LOOP (lnBase .lnl 31)) = 0 ∧ t.checks .lnl 31 = true ∧ own.checks .lnl 31 = false ∧
   t.flag (Reg.LN_PRBS_STS_LOCKED (lnBase .lnl 31)) = false ∧ t.flag (Reg.LN_PRBS_CFG_INV (lnBase .lnl 31)) = false ∧
   1024 ≤ bits.length ∧ inPattern (t.get (Reg.LN_PRBS_CFG_PATTERN (lnBase .lnl 31))) bits = true)) ∧
    (fix own [(Reg.LN_PRBS_STS_LOCKED (lnBase .lnl 31), 1)]).flag (Reg.LN_PRBS_STS_LOCKED (lnBase .lnl 31)) = true ∧
    ((let t := fun (r : Nat) => fix own [(Reg.LN_PRBS_CFG_GEN_EN (lnBase .lnl 31), 1), (Reg.LN_STS_STATE (lnBase .lnl 31), 8), (Reg.LN_PRBS_CFG_RUNG (lnBase .lnl 31), 4), (Reg.LN_INJ_RATE_EXP (lnBase .lnl 31), r)]
   (t 10).injectable .lnl 31 = true ∧ (t 10).get (Reg.LN_INJ_RATE_EXP (lnBase .lnl 31)) = 10 ∧ (t 40).get (Reg.LN_INJ_RATE_EXP (lnBase .lnl 31)) = 40 ∧ own.injectable .lnl 31 = false)) := by
  decide +kernel

/-- EthernetReceives: a runt of 63 bytes, a frame of 64 and one over the limit, MAC control, and a frame that passes, on client port 0. -/
theorem test_meets_EthernetReceives :
    ((let t := fix up [(Reg.LN_CFG_MODE (lnBase .lnc 0), 1), (Reg.LN_STS_STATE (lnBase .lnc 0), 6)]
   t.running = true ∧ t.portLanes (sideUnit .client) 0 = [0] ∧ t.get (Reg.LN_CFG_LOOP (lnBase .lnc 0)) = 0 ∧ t.ethActs .client 0 = true ∧ t.isStream 0 = false ∧
   t.inMission .lnc 0 = true ∧ t.rxLimit .client 0 < 9217 ∧ up.ethActs .client 0 = false)) ∧
    ((let ok := fun (x y : Byte) => let h := List.replicate 12 (0 : Byte) ++ [x, y] ++ List.replicate 46 0; h ++ fcsBytes h
   (ok 8 0).length = 64 ∧ fcsOk (ok 8 0) = true ∧ be (sub (ok 8 0) 12 2) ≠ 0x8808 ∧ fcsOk (ok 0x88 8) = true ∧ be (sub (ok 0x88 8) 12 2) = 0x8808 ∧
   (List.replicate 63 (0 : Byte)).length < 64 ∧ fcsOk (List.replicate 64 0) = false ∧ 9216 < (List.replicate 9217 (0 : Byte)).length)) := by
  decide +kernel

/-- EthernetLinks: a client port ready for its link, its pair up and down, thresholds met and not, and a window that does not act. -/
theorem test_meets_EthernetLinks :
    ((let t := fix up [(Reg.CTL_BOOT_STAGE, 10), (Reg.LN_CFG_MODE (lnBase .lnc 31), 1), (Reg.LN_STS_STATE (lnBase .lnc 31), 6), (Reg.PORT_CFG_PORT_EN (portBase .client 31), 1), (Reg.PORT_STS_BLOCK_LOCK (portBase .client 31), 1), (Reg.PORT_STS_ALIGNED (portBase .client 31), 1), (Reg.PORT_CFG_FAULT_MIRROR (portBase .client 31), 1)]
   t.running = true ∧ t.ethActs .client 31 = true ∧ t.inMission .lnc 31 = true ∧ (fix t [(Reg.LN_STS_STATE (lnBase .lnc 31), 2)]).inMission .lnc 31 = false ∧
   t.ethReady .client 31 = true ∧ t.flag (Reg.PORT_STS_LINK_UP (portBase .client 31)) = false ∧
   t.get (Reg.PORT_STS_FAULT_RX (portBase .client 31)) ≠ 1 ∧ t.get (Reg.PORT_CFG_FAULT_MIRROR (portBase .client 31)) = 1 ∧ t.pairDown .client 31 = true ∧
   (fix t [(Reg.PORT_STS_LINK_UP (portBase .line 31), 1)]).pairDown .client 31 = false ∧ t.ethActs .client 0 = false)) ∧
    ((let t := fix up [(Reg.PORT_FEC_CFG_SET_TH (portBase .client 31), 5), (Reg.PORT_FEC_CFG_CLEAR_TH (portBase .client 31), 2)]
   t.get (Reg.PORT_FEC_CFG_SET_TH (portBase .client 31)) < 6 ∧ t.flag (Reg.PORT_STS_DEGRADED (portBase .client 31)) = false ∧ 2 ≤ t.get (Reg.PORT_FEC_CFG_SET_TH (portBase .client 31)) ∧ 2 ≤ t.get (Reg.PORT_FEC_CFG_CLEAR_TH (portBase .client 31)))) := by
  decide +kernel

/-- KoroneLanes: a Korone port of one lane, its lane locked and not, hunting with and without candidates, in SYNC after two misses, and ready. -/
theorem test_meets_KoroneLanes :
    ((let t := fix up [(Reg.CTL_BOOT_STAGE, 10), (Reg.LN_CFG_MODE (lnBase .lnl 31), 2), (Reg.LN_STS_STATE (lnBase .lnl 31), 6), (Reg.KOR_CFG_PORT_EN 31, 1), (Reg.KOR_STS_ALIGNED 31, 1)]
   let l := t.modKorLane 31 (fun l => { l with locked := true, badRun := 3 })
   let c := l.modKorLane 31 (fun l => { l with cands := [{ place := 7, count := 0, laneId := 0, confirmed := 1 }] })
   let y := l.modKorLane 31 (fun l => { l with inSync := true, place := 7, misses := 2 })
   t.running = true ∧ t.portOf .lnl 31 = some 31 ∧ t.korActive 31 31 = true ∧ t.get (Reg.LN_CFG_LOOP (lnBase .lnl 31)) = 0 ∧ l.periodIn 31 = none ∧
   (t.korLane 31).locked = false ∧ (l.korLane 31).locked = true ∧ (l.korLane 31).lockAt = 0 ∧ (l.korLane 31).inSync = false ∧ (l.korLane 31).cands = [] ∧
   (c.korLane 31).cands = [{ place := 7, count := 0, laneId := 0, confirmed := 1 }] ∧ (y.korLane 31).inSync = true ∧ (y.korLane 31).misses = 2 ∧
   headValid 1 [] = false ∧ l.portExists .line 31 = true ∧ l.isKorone 31 = true ∧ l.korReady 31 = true ∧ t.korReady 31 = false ∧ l.flag (Reg.KOR_STS_LINK_UP 31) = false)) ∧
    ((let h : List Byte := [0, 0, 0, 1, 0, 0]
   let head := h ++ toBe 2 (crc16 h).toNat
   headValid 1 head = true ∧ w32 (be (sub head 0 4)) = (0 : Word) + 1 ∧ head.getD 4 0 = 0)) := by
  decide +kernel

/-- KoroneDefects: BIP errors above SET_TH and at CLEAR_TH, a pair up and down, and a port that is no Korone port. -/
theorem test_meets_KoroneDefects :
    ((let t := (fix up [(Reg.LN_CFG_MODE (lnBase .lnl 31), 2), (Reg.KOR_CFG_FAULT_MIRROR 31, 1), (Reg.KOR_BIP_CFG_SET_TH 31, 1)]).modKorLane 31 (fun l => { l with bipErrs := 2 })
   t.running = true ∧ t.isKorone 31 = true ∧ up.isKorone 31 = false ∧ t.flag (Reg.KOR_CFG_FAULT_MIRROR 31) = true ∧ t.portUp .client 31 = false ∧
   (fix t [(Reg.PORT_STS_LINK_UP (portBase .client 31), 1)]).portUp .client 31 = true ∧ (t.portLanes .lnl 31).any (fun j => decide (t.get (Reg.KOR_BIP_CFG_SET_TH 31) < (t.korLane j).bipErrs)) = true ∧
   (up.portLanes .lnl 31).all (fun j => decide ((up.korLane j).bipErrs ≤ up.get (Reg.KOR_BIP_CFG_CLEAR_TH 31))) = true)) := by
  decide +kernel

/-- StreamPeriods: an aligned stream port in MISSION, up and down, with a period held and without; no association and one not resident. -/
theorem test_meets_StreamPeriods :
    ((let t := fix up [(Reg.LN_CFG_MODE (lnBase .lnl 0), 2), (Reg.LN_STS_STATE (lnBase .lnl 0), 6), (Reg.KOR_CFG_STREAM 0, 1), (Reg.KOR_STS_ALIGNED 0, 1)]
   let p : Period := { frameCount := 0, skey := 0, spn := 0, cipher := [], tag := none }
   t.running = true ∧ t.portLanes .lnl 0 = [0] ∧ t.get (Reg.LN_CFG_LOOP (lnBase .lnl 0)) = 0 ∧ t.korActs 0 = true ∧ t.isStream 0 = true ∧
   t.flag (Reg.KOR_STS_ALIGNED 0) = true ∧ (t.korPort 0).held = [] ∧ t.portUp .line 0 = false ∧ (fix t [(Reg.KOR_STS_LINK_UP 0, 1)]).portUp .line 0 = true ∧
   t.inMission .lnl 0 = true ∧ t.streamRx 0 0 = none ∧ t.flag (Reg.ASC_PORT_STREAM_TX_VALID 0) = false ∧ t.ctr (Reg.KOR_NO_CONTENT 0) + 1 < 2 ^ 48 ∧
   ((t.modKor 0 (fun q => { q with held := [p] })).korPort 0).held = [p] ∧ p.tag = none ∧ up.korActs 0 = false)) := by
  decide +kernel

/-- CapsulesPass: a capsule port in HUNT and SYNC, nothing waiting, with whole capsules of each kind, and a head that cannot be taken. -/
theorem test_meets_CapsulesPass :
    ((let t := fix up [(Reg.LN_CFG_MODE (lnBase .lnl 0), 2), (Reg.LN_STS_STATE (lnBase .lnl 0), 6), (Reg.KOR_STS_ALIGNED 0, 1), (Reg.KOR_STS_LINK_UP 0, 1), (Reg.KOR_HUNT_CFG_HEAD_FIX 0, 0)]
   let sy := t.modKor 0 (fun p => { p with cap := .sync })
   let data := capHead 92 0 ++ List.replicate 92 (0 : Byte)
   t.running = true ∧ t.korActs 0 = true ∧ t.isStream 0 = false ∧ t.portLanes .lnl 0 = [0] ∧ t.get (Reg.LN_CFG_LOOP (lnBase .lnl 0)) = 0 ∧
   t.flag (Reg.KOR_STS_ALIGNED 0) = true ∧ (t.korPort 0).rx = [] ∧ (t.korPort 0).ptr = none ∧ (t.korPort 0).cap = .hunt ∧ (sy.korPort 0).cap = .sync ∧
   data.length = headLength data + 4 ∧ plausible t 0 data = true ∧ plausible t 0 (toBe 4 (be (capHead 92 0))) = true ∧
   (List.range 1).all (fun d => !plausible t 0 (sub ([] ++ toBe 4 0) d 4)) = true ∧ capValid data = true ∧ capValid (toBe 4 (be (capHead 0 1))) = true ∧
   ((sy.modKor 0 (fun p => { p with rx := [0, 0, 0, 0] })).korPort 0).rx.take 4 = [0, 0, 0, 0] ∧ capValid [0, 0, 0, 0] = false ∧
   t.flag (Reg.KOR_HUNT_CFG_HEAD_FIX 0) = false ∧ t.inMission .lnl 0 = true ∧ mget 32 t.sch.sending = none ∧ (fix t [(Reg.LN_STS_STATE (lnBase .lnl 0), 2)]).inMission .lnl 0 = false ∧ up.flag (Reg.KOR_STS_ALIGNED 0) = false)) ∧
    ((let t := fix up [(Reg.LN_CFG_MODE (lnBase .lnl 0), 2), (Reg.LN_STS_STATE (lnBase .lnl 0), 6), (Reg.KOR_STS_LINK_UP 0, 1)]
   headLength (capHead 0 1) = 0 ∧ headType (capHead 0 1) = 1 ∧ headLength (capHead 92 1) ≠ 0 ∧ headType (capHead 92 1) = 1 ∧ headType (capHead 92 0) = 0 ∧
   capInRange t 0 (capHead 92 0) = true ∧ capInRange t 0 (capHead 1 0) = false ∧ headType (capHead 64 2) = 2 ∧ capInRange t 0 (capHead 64 2) = true ∧
   fcsOk ((capHead 64 2 ++ List.replicate 64 (0 : Byte)).drop 4) = false)) := by
  decide +kernel

/-- CuesPass: a Korone port of one lane, cues of the least and the greatest length, one with a wrong CRC, and a buffer empty and held. -/
theorem test_meets_CuesPass :
    ((let t := fix own [(Reg.LN_CFG_MODE (lnBase .lnl 0), 2), (Reg.KOR_STS_ALIGNED 0, 1), (Reg.KOR_CUE_TX_CTRL_LEN 0, 256)]
   served t Who.host = true ∧ t.korActs 0 = true ∧ mlook 0 (Reg.KOR_CUE_TX_CTRL 0) t.locks = 0 ∧ t.portLanes .lnl 0 = [0] ∧ t.get (Reg.LN_CFG_LOOP (lnBase .lnl 0)) = 0 ∧
   t.flag (Reg.KOR_CUE_TX_CTRL_BUSY 0) = false ∧ t.get (Reg.KOR_CUE_TX_CTRL_LEN 0) = 256 ∧ (fix t [(Reg.KOR_CUE_TX_CTRL_LEN 0, 1)]).get (Reg.KOR_CUE_TX_CTRL_LEN 0) = 1 ∧
   (fix t [(Reg.KOR_CUE_TX_CTRL_BUSY 0, 1)]).flag (Reg.KOR_CUE_TX_CTRL_BUSY 0) = true ∧ t.flag (Reg.KOR_STS_ALIGNED 0) = true ∧ own.flag (Reg.KOR_STS_ALIGNED 0) = false ∧
   (t.korPort 0).cueRx = [] ∧ t.flag Reg.BPM_STS_CFG_ERR = false ∧ t.cellsTake clsCue 4 = true ∧
   ((t.modKor 0 (fun p => { p with cueRx := [[1], [2]] })).korPort 0).cueRx = [[1], [2]])) ∧
    ((let msg := fun (n : Nat) => let m := List.replicate n (0 : Byte); m ++ toBe 4 (crc32 m).toNat
   let right := fun (m : List Byte) => decide (5 ≤ m.length ∧ m.length ≤ 260 ∧ m.drop (m.length - 4) = toBe 4 (crc32 (noFcs m)).toNat)
   right (msg 1) = true ∧ (msg 256).length = 260 ∧ right [1] = false ∧ ((noFcs (msg 256)).length + 63) / 64 = 4)) := by
  decide +kernel

/-- FlowCommandsStart: no command in progress, one in progress, and one that failed and waits for its end. -/
theorem test_meets_FlowCommandsStart :
    mlook 0 Reg.FLT_CMD own.locks = 0 ∧ own.flag (ifcField Who.host Reg.FLT_CMD_BUSY) = false ∧ own.flag (ifcField Who.fw Reg.FLT_CMD_BUSY) = false ∧ (fix own [(Reg.FLT_CMD_BUSY, 1)]).flag (ifcField Who.host Reg.FLT_CMD_BUSY) = true ∧
   own.flt.waiting = none ∧
    (own.flt.op = none ∧ ({ own with flt := { own.flt with op := some { result := 15, writes := [], who := Who.host } } } : State).flt.op = some { result := (15 : Fin 16), writes := [], who := Who.host } ∧ (15 : Fin 16) ≠ 0) := by
  decide +kernel

/-- FlowCommandsAct: results that are and are not one, an empty table with a quota used up and not, an entry at the last index, and indices at the table's end. -/
theorem test_meets_FlowCommandsAct :
    own.flt.fwLog.length < 255 ∧ resultOk ((fix own [(⟨Reg.FLT_STAGE_RES, 31, 30⟩, 3)]).rd Reg.FLT_STAGE_RES) = false ∧ resultOk (own.rd Reg.FLT_STAGE_RES) = true ∧
    ((let q := fix own [(Reg.FLT_PART_QUOTA 15, 0)]
   q.flag (Reg.PRS_PROF_CFG_WIDE 15) = false ∧ resultBeyond q (q.rd Reg.FLT_STAGE_RES) = false ∧ findKey q 15 false (stagedKey Who.host q false) = none ∧
   q.get (Reg.FLT_PART_QUOTA 15) < q.profileUsed 15 + 1 ∧ q.profileUsed 15 + 2 ≤ (fix own [(Reg.FLT_PART_QUOTA 15, 2)]).get (Reg.FLT_PART_QUOTA 15) ∧
   (fix q [(Reg.PRS_PROF_CFG_WIDE 15, 1)]).flag (Reg.PRS_PROF_CFG_WIDE 15) = true)) ∧
    ((let q := fix { own with flt := { own.flt with entries := [(tableEnd - 1, { noEntry with valid := true })] } } [(Reg.FLT_STAGE_INDEX_INDEX, tableEnd - 1)]
   let i := q.get Reg.FLT_STAGE_INDEX_INDEX
   let c := { q with flt := { q.flt with copies := q.flt.entries } }
   c.entryBad i = false ∧ (q.entry i).valid = true ∧ (q.entry i).wide = 0 ∧ i < tableEnd ∧ (own.entry i).valid = false)) ∧
    ((let q := { own with flt := { own.flt with entries := [(0, { noEntry with valid := true, wide := 1 }), (131072, { noEntry with valid := true, wide := 2 })] } }
   q.entryBad 0 = false ∧ (q.entry 0).wide.toNat = 1 ∧ (q.entry 131072).valid = true ∧ (q.entry 131072).wide.toNat = 2)) ∧
    tableEnd ≤ (fix own [(Reg.FLT_STAGE_INDEX_INDEX, tableEnd)]).get Reg.FLT_STAGE_INDEX_INDEX ∧ (fix own [(Reg.FLT_STAGE_INDEX_INDEX, 32767)]).get Reg.FLT_STAGE_INDEX_INDEX % 65536 < 32776 ∧ 32776 ≤ (fix own [(Reg.FLT_STAGE_INDEX_INDEX, 32776)]).get Reg.FLT_STAGE_INDEX_INDEX % 65536 := by
  decide +kernel

/-- An entry of profile 0 under the key of zeros. -/
def keyZero : Entry := { noEntry with valid := true }

/-- FlowCommandsAct and LookupActs: a free candidate place, narrow and wide, a key that the table holds, and the index that a key matches, whatever
the hash is. -/
theorem test_meets_FlowCommandsAct_find :
    (∃ i, (candidates own 0 (List.replicate 16 0)).find? (fun j => (own.entry j).valid = false) = some i) ∧
    (∃ i, (pairPlaces own 0 (List.replicate 32 0)).find? (fun j => decide ((own.entry j).valid = false) && decide ((own.entry (pairOf j)).valid = false)) = some i) ∧
    (∃ s : State, (findKey s 0 false (List.replicate 16 0)).isSome = true ∧ s.regs = own.regs) ∧
    (∃ s : State, ∃ i, findKey s 0 false (List.replicate 16 0) = some i ∧ s.entryBad i = false ∧ (s.ccGroup (i / 64)).quarantined = false ∧ s.regs = own.regs) ∧
    (∃ s : State, ∃ i, findKey s 0 false (List.replicate 16 0) = some i ∧ s.entryBad i = true ∧ s.regs = own.regs) := by
  have at0 (e : Entry) (h : holdsKey { own with flt := { own.flt with entries := [(0, e)] } } 0 false (List.replicate 16 0) 0 = true) :
      ∃ i, findKey { own with flt := { own.flt with entries := [(slotIn (bucket own 0 (List.replicate 16 0) 0) 0, e)] } } 0 false
        (List.replicate 16 0) = some i ∧ i = slotIn (bucket own 0 (List.replicate 16 0) 0) 0 := by
    refine ⟨_, List.find?_cons_of_pos (a := slotIn (bucket own 0 (List.replicate 16 0) 0) 0) (l := _) ?_, rfl⟩
    simpa [holdsKey, State.entry, mlook, mget] using h
  have low : ¬ stashBase ≤ slotIn (bucket own 0 (List.replicate 16 0) 0) 0 := by
    have := Nat.mod_lt (Config.flowHash own.flt.secret (4 * 0 + 0) (keyNum (List.replicate 16 0))) (show 0 < 131072 by decide)
    simp only [slotIn, bucket, stashBase]; omega
  have ok (s : State) (j : Nat) (hj : ¬ stashBase ≤ j) (hs : s.entry j = keyZero) : s.entryBad j = false := by
    simp [State.entryBad, State.halfWith, State.copiesDiffer, hj, hs, keyZero, noEntry]
  refine ⟨⟨_, List.find?_cons_of_pos (l := _) (by rfl)⟩, ⟨_, List.find?_cons_of_pos (l := _) (by rfl)⟩, ⟨{ own with flt := { own.flt with entries := [(stashBase, keyZero)] } }, ?_, rfl⟩, ?_, ?_⟩
  · rw [findKey, List.find?_isSome]
    refine ⟨stashBase, List.mem_append_right _ (List.mem_map.2 ⟨0, List.mem_range.2 (by omega), rfl⟩), by decide +kernel⟩
  · obtain ⟨i, h, rfl⟩ := at0 keyZero (by decide +kernel)
    exact ⟨_, _, h, ok _ _ low (by simp [State.entry, mlook, mget]), rfl, rfl⟩
  · obtain ⟨i, h, rfl⟩ := at0 { keyZero with ue := true } (by decide +kernel)
    exact ⟨_, _, h, by simp [State.entryBad, State.halfWith, State.entry, mlook, mget, keyZero, noEntry], rfl⟩

/-- ContinuityChecked: a group whose contents give its stored signature, and one whose contents do not. -/
theorem test_meets_ContinuityChecked_sig (rep : Bool) :
    let g := fun (w : Word) => ({ own with flt := { own.flt with groups := [(0x7FFF, { armed := true, sig := w, quarantined := false, reported := rep })] } } : State)
    (∃ w, groupCrc (g w) 0x7FFF = ((g w).ccGroup 0x7FFF).sig) ∧ (∃ w, groupCrc (g w) 0x7FFF ≠ ((g w).ccGroup 0x7FFF).sig) := by
  refine ⟨⟨groupCrc own 0x7FFF, rfl⟩, groupCrc own 0x7FFF + 1, fun h => ?_⟩
  have h : groupCrc own 0x7FFF = groupCrc own 0x7FFF + 1 := h
  exact absurd (BitVec.add_right_eq_self.1 h.symm) (by decide)

/-- TurnstilesPolice: a turnstile that is free, one that pays and one that cannot, and its command busy. -/
theorem test_meets_TurnstilesPolice :
    served own Who.host = true ∧ mlook 0 Reg.FLT_TS_CMD own.locks = 0 ∧ own.flag Reg.FLT_TS_CMD_BUSY = false ∧ (fix own [(Reg.FLT_TS_CMD_BUSY, 1)]).flag Reg.FLT_TS_CMD_BUSY = true ∧ (own.turnstile 0xFFFF).rate < 2 ^ 20 ∧ (own.turnstile 0xFFFF).burst < 2 ^ 24 ∧ (own.turnstile 0).rate = 0 ∧
    ((let x : Turnstile := { noTurnstile with rate := 1, burst := 64, tokens := 64 * tokenUnit }
   x.rate ≠ 0 ∧ x.frames = false ∧ 64 * tokenUnit ≤ (x.refilled 0).tokens ∧ (x.refilled 0).tokens < 65 * tokenUnit)) := by
  decide +kernel

/-- ContinuityChecked: a group in each state of the check, and an entry whose signed bytes change. -/
theorem test_meets_ContinuityChecked :
    ((let g := fun (armed rep : Bool) (en qu : Nat) (sig : Word) =>
     (fix { own with flt := { own.flt with groups := [(0x7FFF, { armed := armed, sig := sig, quarantined := false, reported := rep })] } } [(Reg.FLT_CC_CFG_EN, en), (Reg.FLT_CC_CFG_QUARANTINE, qu)] : State)
   (g true false 0 1 0).flag Reg.FLT_CC_CFG_EN = false ∧ ((g false false 1 1 0).ccGroup 0x7FFF).armed = false ∧ (g true false 1 1 0).flag Reg.FLT_CC_CFG_EN = true ∧ ((g true false 1 1 0).ccGroup 0x7FFF).armed = true ∧
   ((g true false 1 1 0).ccGroup 0x7FFF).reported = false ∧
   (g true false 1 1 0).flag Reg.FLT_CC_CFG_QUARANTINE = true ∧ own.flt.mismatch.length < 16 ∧ ((g true true 1 0 0).ccGroup 0x7FFF).reported = true ∧ (g true true 1 0 0).flag Reg.FLT_CC_CFG_QUARANTINE = false)) ∧
    served own Who.host = true ∧ mlook 0 Reg.FLT_CC_GROUP own.locks = 0 ∧ 0 < stashBase ∧ stashBase - 1 < stashBase ∧ entryImage (own.entry 0) ≠ entryImage keyZero := by
  decide +kernel

/-- LookupActs: nothing waiting, a frame whose key cannot be formed and one whose key no entry matches; the default actions and results; LogsPop's. -/
theorem test_meets_LookupActs :
    up.running = true ∧ (up.sch.frames.find? (fun f => decide (f.stage = .lookup) && decide (f.n = 0))) = none ∧
    ((let f := newFrame up .data .enc 0 32 (List.replicate 64 0)
   let t := up.addFrame f
   t.sch.frames.find? (fun f => decide (f.stage = .lookup) && decide (f.n = 0)) = some f ∧ (frameKey t f).isSome = true ∧ frameKey (fix t [(Reg.PRS_PROF_CFG_TYPE 0, 2)]) f = none ∧
   (frameKey t f).all (fun k => decide (findKey t 0 false k = none)) = true ∧ (profileOf t f).1 = 0 ∧ frameKey t f = some (List.replicate 16 0))) ∧
    up.get (Reg.FLT_PORT_CFG_DEFAULT 0) = 0 ∧ (up.inc (Reg.FLT_MISSES 0)).get (Reg.FLT_PORT_CFG_DEFAULT 0) = 0 ∧ bits 0 31 30 = 0 ∧ bits 0x40000000 31 30 = 1 ∧
    (profileOf up (newFrame up .data .dec 32 0 (List.replicate 64 0))).2 = true ∧
   bits 0x80000000 31 30 = 2 ∧ (fix up [(Reg.LN_CFG_MODE (lnBase .lnl 0), 2)]).isKorone (0 % 32) = true ∧
    up.evt.log = [] ∧ (raise0 up 0x0603 0).evt.log.length = 1 := by
  decide +kernel

/-- A record of an association in a state. -/
def recIn (st : AState) : Rec := { freeRec with state := st }

/-- The ringmaster's device with these records. -/
def withRecs (l : SMap Rec) : State := { own with asc := { own.asc with recs := l } }

/-- A resident slot of an association. -/
def slotFor (a : Nat) : Slot :=
  { assoc := a, key := { a := 0, b := 0 }, ref := false, pinned := false, dissolvePin := false, dirty := false, verdictDue := false, powers := [] }

/-- AssociationCommandsStart: no command in progress, one in progress, one that waits for its end and one that waits for a persist. -/
theorem test_meets_AssociationCommandsStart :
    mlook 0 Reg.ASC_CMD own.locks = 0 ∧ own.flag (ifcField Who.host Reg.ASC_CMD_BUSY) = false ∧ own.flag (ifcField Who.fw Reg.ASC_CMD_BUSY) = false ∧ (fix own [(Reg.ASC_CMD_BUSY, 1)]).flag (ifcField Who.host Reg.ASC_CMD_BUSY) = true ∧
    (own.asc.op = none ∧ own.ascWaits Who.host = false ∧ own.asc.installing = none ∧ ({ own with asc := { own.asc with installing := some (0, false), persists := [(0, { value := 0, localDone := false, acked := true, advance := none })] } } : State).ascWaits Who.host = true) := by
  decide +kernel

/-- AssociationInstalls: an index beyond the store, one firmware serves, a store not ready, a record in use, a descriptor against the rules, a far successor, a key that opens and one that does not. -/
theorem test_meets_AssociationInstalls :
    (({ own with asc := { own.asc with size := 0 } } : State).asc.size ≤ own.stageIndex Who.host ∧ own.stageIndex Who.host < own.asc.size ∧ own.hostDelegated Who.host (own.stageIndex Who.host) = false) ∧
    (({ own with ctl := { own.ctl with delegations := [{ handle := 1, port := 0, tx := 0, rx := 4, peers := 1, suite := 0, offset := 0, live := true }] } } : State).hostDelegated Who.host (own.stageIndex Who.host) = true) ∧
    own.flag Reg.ASC_STS_STORE_READY = false ∧ (own.asRec 0).state = .free ∧ ((withRecs [(0, recIn .live)]).asRec 0).state ≠ .free ∧ installBad own Who.host = true ∧
    ((let k : Shares 256 := { a := 7, b := 0 }
   let t := fix { own with vlt := { own.vlt with wrapKey := some k } } [(Reg.ASC_STS_STORE_READY, 1), (⟨Reg.ASC_STAGE 9, 31, 0⟩, 1), (⟨Reg.ASC_STAGE 0, 30, 30⟩, 1), (Reg.ASC_CFG_RAW_KEY_EN, 1)]
   t.flag Reg.ASC_STS_STORE_READY = true ∧ installBad t Who.host = false ∧ (t.stage? Who.host 11).getLsbD 31 = false ∧ (installKey Who.host t).isSome = true ∧ t.vlt.wrapKey = some k ∧
   installKey Who.host (fix t [(Reg.ASC_CFG_RAW_KEY_EN, 0)]) = none)) ∧
    ((let t := { fix own [(⟨Reg.ASC_STAGE 11, 31, 31⟩, 1), (⟨Reg.ASC_STAGE 11, 19, 0⟩, 0xFFFFF)] with asc := { own.asc with size := 0xFFFFF } }
   (t.stage? Who.host 11).getLsbD 31 = true ∧ t.asc.size ≤ bits (t.stage? Who.host 11) 19 0)) := by
  decide +kernel

/-- AssociationCommandsAct: an association in each state that a command asks for, one resident, one in a troupe, and entries of the table in each phase. -/
theorem test_meets_AssociationCommandsAct :
    ((withRecs [(0, recIn .ready)]).asRec 0).state = .ready ∧ ((withRecs [(0, recIn .retiring)]).asRec 0).state = .retiring ∧ (own.stage? Who.host 0).getLsbD 29 = false ∧
    ((let t := withRecs [(0, { recIn .live with reel := 2 ^ 20 })]
   (t.asRec 0).state = .live ∧ t.parked 0 = [] ∧ t.inFlight 0 = 0 ∧ (t.asRec 0).rx = false ∧ (t.asRec 0).pn ≤ 0 ∧ 0 ≤ (t.asRec 0).top ∧ 0 < (t.asRec 0).reel ∧ (t.asRec 0).reel ≤ 2 ^ 20 ∧ mget 0 t.asc.persists = none ∧
   (t.asRec 0).session = t.session ∧ t.pinnedSlots + t.newPin 0 false ≤ pinLimit ∧ t.slotOf 0 = none ∧ ((withRecs [(0, { recIn .live with session := 99 })]).asRec 0).session ≠ t.session ∧
   (t.asRec 0).troupe = none ∧ ((withRecs [(0, { recIn .live with mode := 0x80 })]).asRec 0).rx = true ∧ (t.asRec 0).top < 2 ^ 64 - 1)) ∧
    ((let t := { withRecs [(0, recIn .live)] with asc := { (withRecs [(0, recIn .live)]).asc with slots := [(9, { slotFor 0 with pinned := true })] } }
   t.slotOf 0 = some (9, { slotFor 0 with pinned := true }) ∧ (t.asRec 0).session = t.session ∧ t.ready 0 = true ∧ bringIn t 0 = t)) ∧
    ((let t := fix { own with asc := { own.asc with recs := [(0, { recIn .live with troupe := some 4095 })], troupes := [(4095, none)] } } [(⟨Reg.ASC_STAGE 1, 31, 0⟩, 2 ^ 31 + 4095)]
   (t.stage? Who.host 1).getLsbD 31 = true ∧ bits (t.stage? Who.host 1) 19 0 < t.asc.size ∧ t.troupe (bits (t.stage? Who.host 1) 11 0) = true ∧ t.memberCovered 0 = false ∧ t.covered (bits (t.stage? Who.host 1) 11 0) = false ∧ (t.asRec 0).troupe ≠ none ∧
   t.troupe (bits (t.stage? Who.host 0) 11 0) = false ∧ ({ t with asc := { t.asc with dissolves := [(0, { noDissolve with phase := .waiting, troupe := true, target := 4095 })] } } : State).memberCovered 0 = true)) ∧
    ((let t := fix { own with asc := { own.asc with recs := [(0, { recIn .live with troupe := some 0 })], troupes := [(0, none)] } } [(⟨Reg.ASC_STAGE 1, 31, 31⟩, 1)]
   t.troupe (bits (t.stage? Who.host 0) 11 0) = true ∧ t.asc.recs.any (fun p => decide (p.2.troupe = some (bits (t.stage? Who.host 0) 11 0))) = true ∧ t.under (bits (t.stage? Who.host 1) 11 0) (bits (t.stage? Who.host 0) 11 0) = true ∧ (own.stage? Who.host 1).getLsbD 31 = false)) ∧
    (scheduleRefusal Who.host own (stagedDissolve Who.host own)).isSome = true ∧ stagedParent Who.host own = some none ∧ (own.dissolve 0).phase = .free ∧
    ((let d := fun (p : Phase) => ({ own with asc := { own.asc with dissolves := [(0, { noDissolve with phase := p })] } } : State)
   ((d .waiting).dissolve 0).phase = .waiting ∧ ((d .done).dissolve 0).phase = .done ∧ ((d .opened).dissolve 0).phase = .opened ∧ ((d .switched).dissolve 0).phase = .switched)) := by
  decide +kernel

/-- AssociationCommandsAct: more slots pinned than the limit allows. -/
theorem test_meets_PinLimit : ∃ s : State, (s.asRec 0).state ≠ .free ∧ pinLimit < s.pinnedSlots + s.newPin 0 false := by
  have with' (n : Nat) : ({ own with asc := { own.asc with recs := [(0, recIn .live)], slots := List.replicate n (1, { slotFor 1 with pinned := true }) } } : State).pinnedSlots = n := by
    simp [State.pinnedSlots, slotFor]
  refine ⟨{ own with asc := { own.asc with recs := [(0, recIn .live)], slots := List.replicate pinLimit (1, { slotFor 1 with pinned := true }) } },
    by decide, ?_⟩
  rw [with' pinLimit, show State.newPin _ 0 false = 1 from ?_]
  · omega
  · have : ∀ n, List.find? (fun p : Nat × Slot => decide (p.2.assoc = 0)) (List.replicate n (1, { slotFor 1 with pinned := true })) = none := by
      intro n; simp [slotFor]
    simp only [State.newPin, State.slotOf, this]

/-- ReelsGranted: persistence on and off, a persist in progress and none, and numbers left, exhausted and stalled. -/
theorem test_meets_ReelsGranted :
    up.running = true ∧ (fix up [(Reg.ASC_CFG_PERSIST_EN, 0)]).persistEn = false ∧ (fix up [(Reg.ASC_CFG_PERSIST_EN, 1)]).persistEn = true ∧ up.replicating = false ∧ up.resyncing = false ∧ (up.asRec 0xFFFFF).rx = false ∧ up.ctr Reg.ASC_REEL_GRANTS + 1 < 2 ^ 48 ∧
    (mget 0 up.asc.persists = none ∧ mget 0 [(0, ({ value := 0, localDone := false, acked := false, advance := none } : Persist))] = some { value := 0, localDone := false, acked := false, advance := none }) ∧
    ((let t := { up with asc := { up.asc with recs := [(0, { recIn .live with pn := 2 ^ 32 }), (1, recIn .live)], exhausted := [0], stalled := [1] } }
   t.forwarding = true ∧ (t.asRec 0).top < (t.asRec 0).pn ∧ 0 ∈ t.asc.exhausted ∧ (t.asRec 1).pn ≤ (t.asRec 1).top ∧ (t.asRec 1).reel ≤ (t.asRec 1).pn ∧ 1 ∈ t.asc.stalled)) ∧
    (({ up with fab := { up.fab with role := .standIn } } : State).forwarding = false) := by
  decide +kernel

/-- PageInsEnd: a page-in that nobody waits for and one, a record resident and not, a key that does not open, and a store served and not. -/
theorem test_meets_PageInsEnd :
    ((slotDoms ++ memDoms).all (fun d => decide (mlook .on d up.gaf.doms = .on)) = true ∧ (slotDoms ++ memDoms).all (fun d => decide (mlook .on d ({ up with gaf := { up.gaf with doms := [(92, .off)] } } : State).gaf.doms = .on)) = false) ∧
    (up.slotOf 0).isSome = false ∧ up.victimExists = true ∧ (takeSlot (dealUnwrap up)).1 = some 0 ∧
    (0 ∉ up.asc.paging ∧ 0 ∈ ({ up with asc := { up.asc with paging := [0] } } : State).asc.paging ∧ (dealUnwrap up).unwrap 0 = none ∧ up.storeServed = false ∧ up.ctl.stage7Done = false) ∧
    (guarded.storeServed = true ∧ ({ guarded with ctl := { guarded.ctl with stage7Done := true } } : State).ctl.stage7Done = true ∧ guarded.storedHeader = none) := by
  decide +kernel

/-- DissolvesRun: an entry in each phase, a member gone, one without a fit successor, one with one of each direction, and one passed over. -/
theorem test_meets_DissolvesRun :
    ((let d := fun (p : Phase) (by' : Bool) => ({ up with asc := { up.asc with dissolves := [(255, { noDissolve with phase := p, byPn := by', passed := [7] })] } } : State)
   ((d .waiting false).dissolve 255).phase = .waiting ∧ ((d .waiting false).dissolve 255).byPn = false ∧ ((d .opened false).dissolve 255).phase = .opened ∧ ((d .opened true).dissolve 255).byPn = true ∧
   ((d .switched false).dissolve 255).phase = .switched ∧ 7 ∈ ((d .opened false).dissolve 255).passed ∧ 0 ∉ ((d .opened false).dissolve 255).passed ∧ (up.dissolve 0).phase ≠ .waiting)) ∧
    up.gone 0 = true ∧ (withRecs [(0, recIn .live)]).gone 0 = false ∧ (withRecs [(0, recIn .live)]).fitSuccessor 0 = none ∧
    ((let t := fun (m : Byte) => withRecs [(0, { recIn .live with mode := m, succ := some 1 }), (1, { recIn .ready with mode := m })]
   (t 0x80).fitSuccessor 0 = some 1 ∧ ((t 0x80).asRec 0).rx = true ∧ (t 0).fitSuccessor 0 = some 1 ∧ ((t 0).asRec 0).rx = false ∧ ((t 0).asRec 0).state = .live ∧ (t 0).gone 0 = false)) := by
  decide +kernel

/-- A frame of association 0 that stands at a stage. -/
def frameAt (st : Stage) (d : Dir) : Frame := { newFrame own .data d (match d with | .enc => 0 | .dec => 32) 0 [] with id := 5, stage := st, assoc := some 0 }

/-- The ringmaster's device with these frames. -/
def withFrames (l : List Frame) : State := { own with sch := { own.sch with frames := l, nextId := 6 } }

/-- The ringmaster's device with these rings and cores. -/
def withFarm (rings : SMap RingPower) (cores : SMap Core) : State :=
  { own with frm := { own.frm with rings := rings, cores := cores }, vlt := { own.vlt with drbgRun := true } }

/-- A core in service that works on slice 0 of frame 5. -/
def busyCore : Core := { noCore with inService := true, queue := [(5, 0)], seeded := true }

/-- CoresServe: a core in service, one that starved, one in a test, and a direction that is served and one that is not. -/
theorem test_meets_CoresServe :
    ((let t := fix (withFarm [(31, .awake)] [(511, busyCore)]) [(Reg.FRM_UNWRAP_CFG_EXCLUSIVE, 0)]
   t.running = true ∧ t.vlt.drbgRun = true ∧ t.ring 31 ≠ .asleep ∧ (t.core 511).inService = true ∧ t.vlt.requests + 1 < 2 ^ 20 ∧ (t.core 510).inService = false ∧ (t.core 510).seeded = false ∧ t.ring 0 = .asleep ∧ own.vlt.drbgRun = false ∧
   t.ctr Reg.FRM_REDEALT + (t.core 511).queue.length < 2 ^ 48 ∧ t.inTest 511 = false ∧ t.coresServe .enc = true ∧ t.coresServe .dec = true ∧ own.coresServe .enc = false ∧ own.coresServe .dec = false ∧
   ({ t with frm := { t.frm with kat := [511] } } : State).inTest 511 = true)) := by
  decide +kernel

/-- RingsServe: each power of a ring, cores to test and to restore, a load above WAKE_TH and a low one, and a key with its verdict due. -/
theorem test_meets_RingsServe :
    ((let t := fix (withFarm [(31, .awake)] [(511, busyCore)]) [(Reg.FRM_UNWRAP_CFG_EXCLUSIVE, 0)]
   served t Who.host = true ∧ mlook 0 (Reg.FRM_RING_CMD 31) t.locks = 0 ∧ t.ring 31 ≠ .waking ∧ t.ring 31 ≠ .draining ∧ t.ring 31 = .awake ∧ (fix t [(Reg.FRM_RING_CMD_BUSY 31, 1)]).flag (Reg.FRM_RING_CMD_BUSY 31) = true ∧ t.flag (Reg.FRM_RING_CMD_BUSY 31) = false ∧
   (ringCores 31).filter (fun c => nbit 0x8000 (c % 16) && (t.core c).inService) ≠ [])) ∧
    (withFarm [(31, .waking)] []).ring 31 = .waking ∧ (withFarm [] []).vlt.drbgRun = true ∧ (withFarm [] []).vlt.requests + 16 < 2 ^ 20 ∧ (withFarm [(0, .draining)] []).ring 0 = .draining ∧ (ringCores 0).all (fun c => decide ((own.core c).queue = [])) = true ∧ own.ring 0 = .asleep ∧
    ((ringCores 0).filter (fun c => nbit 1 (c % 16) && (!((withFarm [] [(0, { noCore with seeded := true })]).core c).inService && ((withFarm [] [(0, { noCore with seeded := true })]).core c).seeded)) ≠ []) ∧
    ((let t := withFarm [(1, .awake)] [(16, busyCore)]
   t.wakeTh * 1 < 1 * 100 ∧ t.sleepTh * 1 ≤ 1 * 100 ∧ t.frm.wakeAsked = none ∧ t.load .dec ≤ t.load .enc ∧ (List.range 32).find? (fun q => decide (t.ring q = .asleep) && t.ringServes q .enc) = some 0 ∧
   (t.frm.cores.filter (fun p => p.2.inService && decide (t.ring (p.1 / 16) = .awake) && t.dataRing (p.1 / 16))).length = 1)) ∧
    ((let t := fix (withFarm [(1, .awake)] [(16, { busyCore with queue := [] })]) [(Reg.FRM_RING_CFG_KEEP_AWAKE 1, 0), (Reg.GAF_STS_STATE, 1)]
   ¬ t.wakeTh * 1 < 0 * 100 ∧ t.get Reg.GAF_STS_STATE ≠ 0 ∧ (List.range 32).reverse.find? (fun q => decide (t.ring q = .awake) && t.dataRing q && !t.flag (Reg.FRM_RING_CFG_KEEP_AWAKE q) && t.ringMaySleep q) = some 1)) ∧
    ((let x := { slotFor 3 with verdictDue := true }
   mget 0xFFFF [(0xFFFF, x)] = some x ∧ x.verdictDue = true ∧ (slotFor 3).verdictDue = false ∧ mget 0xFFFF own.asc.slots = none)) := by
  decide +kernel

/-- SlicesReturn: a slice with a core and none; a frame sampled, held back and released; all slices returned, its tag right and wrong. -/
theorem test_meets_SlicesReturn :
    ((let t := { withFrames [frameAt .farm .enc] with frm := { own.frm with cores := [(0, busyCore)] } }
   t.running = true ∧ own.sliceCore 5 0 = none ∧ t.sliceCore 5 0 = some 0 ∧ t.frame? 5 = some (frameAt .farm .enc) ∧ (frameAt .farm .enc).assoc = some 0 ∧ (frameAt .farm .enc).dir = .enc ∧ t.frame? 4 = none ∧
   (frameAt .farm .enc).sampled = 0 ∧ t.releasable (frameAt .farm .enc) = false ∧ (frameAt .farm .enc).kind ≠ .extra)) ∧
    ((let f := fun (d : Dir) => { frameAt .farm d with tagOk := some true }
   (withFrames [f .dec]).releasable (f .dec) = true ∧ (withFrames [f .enc]).releasable (f .enc) = true ∧ (withFrames [f .dec]).earlier 0 5 = [] ∧ (withFrames [{ f .dec with id := 4 }, f .dec]).earlier 0 5 ≠ [] ∧ ({ f .dec with sampled := 1 } : Frame).sampled ≠ 0)) ∧
    ((let f := fun (b : Byte) => { frameAt .farm .dec with slices := 0, bytes := List.replicate 31 0 ++ [b] }
   let t := fun (b : Byte) => ({ withFrames [f b] with asc := { own.asc with recs := [(0, { recIn .live with mode := 0x20 })] } } : State)
   (f 0).returned.length = (f 0).slices ∧ (f 0).tagOk = none ∧ (f 0).cut = false ∧ (openFrame (t 0) (f 0)).2 ≠ (openFrame (t 1) (f 1)).2)) := by
  decide +kernel

/-- CutThrough: a frame that qualifies, each bar to it, and one under way with and without its slices. -/
theorem test_meets_CutThrough :
    ((let f := { frameAt .farm .dec with bytes := List.replicate 1057 0, pn := 1 }
   let t := fix { withFrames [f] with asc := { own.asc with recs := [(0, { recIn .live with mode := 0xA0 })] } } [(Reg.FRM_PORT_CFG_CUT_THROUGH 0, 1)]
   t.running = true ∧ t.frame? 5 = some f ∧ f.assoc = some 0 ∧ t.cutOk f 0 = true ∧ t.cutOk { f with gated := true } 0 = false ∧ clientLength (t.asRec 0) { f with bytes := List.replicate 1056 0 } ≤ 1024 ∧
   own.flag (Reg.FRM_PORT_CFG_CUT_THROUGH 0) = false ∧ { f with picked := true }.picked = true)) ∧
    ((let f := { frameAt .sending .dec with cut := true, slices := 2, returned := [0] }
   f.cut = true ∧ f.stage = .sending ∧ f.returned.length < f.slices ∧ (frameAt .farm .dec).cut = false)) := by
  decide +kernel

/-- CapsuleOpensToItself: whatever the right tag is, some 16 bytes differ from it. -/
theorem test_meets_CapsuleOpensToItself (l : List Byte) : ∃ t : List Byte, t.length = 16 ∧ t ≠ l := by
  by_cases h : l = List.replicate 16 0
  · exact ⟨List.replicate 16 1, rfl, h ▸ by decide⟩
  · exact ⟨List.replicate 16 0, rfl, fun e => h e.symm⟩

/-- BuffersTaken: buffers held and not, a configuration that is right and wrong, a frame against each bar to admission, cells, and a number in use and not. -/
theorem test_meets_BuffersTaken :
    (served own Who.host = true ∧ own.anyHeld = false ∧ (withFrames [{ frameAt .queued .enc with pool := some 0 }]).anyHeld = true ∧ own.poolsValid = true ∧ own.flag Reg.BPM_STS_CFG_ERR = false) ∧
    (fix own [(Reg.BPM_STS_CFG_ERR, 1)]).poolsValid = true ∧ (fix own [(Reg.BPM_STS_CFG_ERR, 1)]).flag Reg.BPM_STS_CFG_ERR = true ∧ (fix own [(⟨poolOff 0, 17, 0⟩, 2 ^ 18 - 1), (⟨poolOff 1, 17, 0⟩, 2 ^ 18 - 1)]).poolsValid = false ∧
    (raise0 (own.inc Reg.BPM_UE) 0x4002 0).frame? 5 = none ∧ (raise0 ((withFrames [frameAt .sending .enc]).inc Reg.BPM_UE) 0x4002 0).frame? 5 = some (frameAt .sending .enc) ∧ (frameAt .queued .enc).stage = .queued ∧ (frameAt .farm .enc).stage ≠ .queued ∧
    ((let t := withFrames [frameAt .farm .enc]
   t.frame? 5 = some (frameAt .farm .enc) ∧ (fix t [(⟨Reg.EVT_QUIESCE_PORTS, 0, 0⟩, 1)]).quiesced 0 = true ∧ t.quiesced 0 = false ∧ ({ t with fab := { t.fab with role := .fenced } } : State).forwarding = false ∧ t.forwarding = true ∧
   t.admissionOpen = true ∧ ({ t with gaf := { t.gaf with admission := false } } : State).admissionOpen = false ∧ t.idxUp 0 = false ∧ (fix t [(Reg.PORT_STS_LINK_UP (portBase .client 0), 1)]).idxUp 0 = true ∧
   t.flag Reg.BPM_STS_CFG_ERR = false ∧ t.pickPool 0 64 ≠ none ∧ t.pickPool 0 1000000 = none ∧ 64 ≤ 2048 ∧ clsCue ≠ clsMgmt ∧ t.cellsTake clsCue 1 = true ∧
   (fix t [(Reg.BPM_CELL_CLASS_MAX clsCue, 0), (Reg.BPM_CELL_CLASS_RESERVE clsCue, 0)]).cellsTake clsCue 1 = false)) ∧
    3 ∈ mlook [] 0 [(0, [3])] ∧ 3 ∉ mlook [] 0 own.sch.inUse := by
  decide +kernel

/-- EgressServed: a port down, one that sends, one with a slot due and a queue to serve, and frames that end in each way. -/
theorem test_meets_EgressServed :
    ((let up0 := fix own [(Reg.PORT_STS_LINK_UP (portBase .client 0), 1)]
   own.running = true ∧ own.idxUp 63 = false ∧ up0.idxUp 0 = true ∧ mget 0 up0.sch.sending = none ∧ mget 0 ({ up0.sch with sending := [(0, 5)] } : Sch).sending ≠ none ∧ own.slotsOf 63 = [] ∧
   (up0.slotsOf 0).find? (fun d => decide (d.start ≤ up0.tim.frc.toNat) && (up0.frame? d.frame).any (fun f => decide (f.stage = .slotted))) = none ∧ (drrPick up0 0).1 = none)) ∧
    ((let up0 := fix (withFrames [frameAt .queued .enc]) [(Reg.PORT_STS_LINK_UP (portBase .client 0), 1)]
   up0.idxUp 0 = true ∧ ((drrPick up0 0).1).isSome = true)) ∧
    ((let d : DepSlot := { frame := 5, start := 0, length := 64 }
   let t := fun (st : Stage) => fix { withFrames [frameAt st .enc] with sch := { (withFrames [frameAt st .enc]).sch with slots := [(0, [d])] } } [(Reg.PORT_STS_LINK_UP (portBase .client 0), 1)]
   ((t .slotted).slotsOf 0).find? (fun d => decide (d.start ≤ (t .slotted).tim.frc.toNat) && ((t .slotted).frame? d.frame).any (fun f => decide (f.stage = .slotted))) = some d ∧ (t .slotted).frame? 5 = some (frameAt .slotted .enc) ∧
   ((t .slotted).slotsOf 0).find? (fun d => decide (some d.start = (t .slotted).nextSlot 0)) = some d ∧ ((t .farm).slotsOf 0).find? (fun d => decide (some d.start = (t .farm).nextSlot 0)) = some d ∧ (frameAt .farm .enc).stage ≠ .slotted)) ∧
    ((let t := fun (f : Frame) => { withFrames [f] with sch := { (withFrames [f]).sch with sending := [(0, 5)] } }
   let f := frameAt .sending .enc
   ((mget 0 (t f).sch.sending).bind (t f).frame?) = some f ∧ f.cut = false ∧ f.kind = .data ∧ f.memBad = false ∧ f.failed = false ∧
   (countHist (countSent (t f) 0 f.sent.length) 0 f).korEgress 0 = false ∧ ({ f with cut := true } : Frame).cut = true ∧ f.tagOk = none)) ∧
    (fix own [(Reg.LN_CFG_MODE (lnBase .lnl 0), 2)]).korEgress 32 = true := by
  decide +kernel

/-- ShapersServe: a shaper that a refill changes, one that keeps its setting, one that EN starts, and commands busy. -/
theorem test_meets_ShapersServe :
    served own Who.host = true ∧ mlook 0 Reg.SCH_SHP_CMD own.locks = 0 ∧ mlook 0 Reg.SCH_MAP_CMD own.locks = 0 ∧ mlook 0 Reg.SCH_HIST_CMD own.locks = 0 ∧ own.flag Reg.SCH_SHP_CMD_BUSY = false ∧ own.flag Reg.SCH_MAP_CMD_BUSY = false ∧ own.flag Reg.SCH_HIST_CMD_BUSY = false ∧
    ((let t := fix own [(Reg.SCH_SHP_CMD_BUSY, 1), (Reg.SCH_MAP_CMD_BUSY, 1), (Reg.SCH_HIST_CMD_BUSY, 1)]
   t.flag Reg.SCH_SHP_CMD_BUSY = true ∧ t.flag Reg.SCH_MAP_CMD_BUSY = true ∧ t.flag Reg.SCH_HIST_CMD_BUSY = true)) ∧
    ((let x : Shaper := { data0 := 0x80000001, data1 := 0xFFFF, next0 := 0x80000001, next1 := 0xFFFF, tokens := 0 }
   mget 0xFFFF [(0xFFFF, x)] = some x ∧ x.refill ≠ noShaper ∧ x.next0 = x.data0 ∧ x.next1 = x.data1)) ∧
    ((let x : Shaper := { noShaper with next0 := 0x80000001, next1 := 0xFFFF }
   x.en = false ∧ x.refill.en = true)) := by
  decide +kernel

/-- TimeDisciplined: time free, and in HOLDOVER; NS at its last value and one past it; a step on, and one out of range; a command busy. -/
theorem test_meets_TimeDisciplined :
    served own Who.host = true ∧ mlook 0 Reg.TIM_RATE own.locks = 0 ∧ mlook 0 Reg.TIM_ADJ_CMD own.locks = 0 ∧ own.get Reg.TIM_STS_STATE ≠ 2 ∧ own.flag Reg.TIM_ADJ_CMD_BUSY = false ∧ (fix own [(Reg.TIM_ADJ_CMD_BUSY, 1)]).flag Reg.TIM_ADJ_CMD_BUSY = true ∧
    (fix own [(Reg.TIM_STS_STATE, 2)]).get Reg.TIM_STS_STATE = 2 ∧ (fix own [(Reg.TIM_STS_STATE, 2)]).get Reg.TIM_STS_REASON ≠ 2 ∧
    ((fix own [(⟨Reg.TIM_ADJ_NS, 31, 0⟩, 999999999)]).rd Reg.TIM_ADJ_NS).toNat < 1000000000 ∧ 1000000000 ≤ ((fix own [(⟨Reg.TIM_ADJ_NS, 31, 0⟩, 1000000000)]).rd Reg.TIM_ADJ_NS).toNat ∧
    own.flag Reg.TIM_ADJ_SEC_HI_NEG = false ∧ 0 ≤ own.nowUnits + 999999999 * 2 ^ 42 ∧ own.nowUnits + 999999999 * 2 ^ 42 < 2 ^ 48 * 1000000000 * 2 ^ 42 ∧ own.nowUnits - (1000000000 * 2 ^ 42 : Int) < 0 := by
  decide +kernel

/-- TimeHeld: LOCKED and not, with and without a limit and PPS_REF, short and long pulses, channels empty and full, PPS_OUT running and not. -/
theorem test_meets_TimeHeld :
    ((let t := fix up [(Reg.TIM_STS_STATE, 1), (Reg.TIM_CFG_HOLD_TIMEOUT_MS, 1), (Reg.TIM_CFG_PPS_REF, 1)]
   t.running = true ∧ t.dormant = false ∧ t.get Reg.TIM_STS_STATE = 1 ∧ t.get Reg.TIM_CFG_HOLD_TIMEOUT_MS ≠ 0 ∧ t.tim.lastDisc ≠ some t.clk ∧ t.flag Reg.TIM_CFG_PPS_REF = true ∧ up.get Reg.TIM_STS_STATE ≠ 1 ∧ up.flag Reg.TIM_CFG_PPS_REF = false)) ∧
    (99 < 100 ∧ 100 ≤ 100 ∧ up.tim.cap0.length < 16 ∧ up.tim.cap1.length < 16 ∧ 16 ≤ (List.replicate 16 ({ ns := 0, sec := 0 } : Capture)).length ∧ up.tim.cap1 = []) ∧
    (({ up with tim := { up.tim with cap0 := [{ ns := 7, sec := 0 }] } } : State).tim.cap0 = [{ ns := 7, sec := 0 }] ∧ (fix up [(Reg.TIM_STS_VALID, 1), (Reg.TIM_PPS_OUT_EN, 1)]).ppsRuns = true ∧ up.ppsRuns = false ∧ up.tim.ppsOut = false) := by
  decide +kernel

/-- FollowUpsAndDailies: a Follow_Up held and a frame that is none, an entry fixed and none, seconds past and to come, and a dormant device. -/
theorem test_meets_FollowUpsAndDailies :
    up.frame? 5 = none ∧ (withFrames [frameAt .farm .enc]).frame? 5 = some (frameAt .farm .enc) ∧ (frameAt .farm .enc).stage ≠ .follow ∧ up.sch.follows.find? (fun x => x.err.isSome) = none ∧
    ((let f := frameAt .follow .enc
   let x : Follow := { domain := (ptpKey f.plain).1, source := (ptpKey f.plain).2.1, seq := (ptpKey f.plain).2.2, egress := 0, ingress := 0, err := some 3, order := 0 }
   (withFrames [f]).frame? 5 = some f ∧ f.stage = .follow ∧ [x].find? (fun x => x.has (ptpKey f.plain) f.m) = some x ∧ [x].find? (fun x => x.err.isSome) = some x)) ∧
    (({ up with tim := { up.tim with dailySec := some 5 } } : State).tim.dailySec = some 5 ∧ (5#48) ≤ 5 ∧ (5#48) < 6 ∧ (fix up [(Reg.GAF_STS_STATE, 3)]).dormant = true ∧ up.dormant = false ∧ up.tim.dailySec = none) := by
  decide +kernel

/-- MemoryGuarded: the first line of a served region and one of none, one unreadable, the pager's reads ahead; an association with a slot and one without; the last event number. -/
theorem test_meets_MemoryGuarded :
    (guarded.running = true ∧ memDoms.all (fun d => decide (mlook .on d guarded.gaf.doms = .on)) = true ∧ guarded.reachable 1048576 = true ∧ guarded.reachable (2 ^ 30) = false ∧ 1048576 ∉ guarded.mgd.badLines ∧
   1048576 ∈ ({ guarded with mgd := { guarded.mgd with badLines := [1048576] } } : State).mgd.badLines ∧ guarded.mgd.lastCe = none) ∧
    MemClient.vault ≠ .pager ∧ (fix guarded [(Reg.MGD_CFG_SPEC_EN, 1)]).flag Reg.MGD_CFG_SPEC_EN = true ∧ guarded.ctr Reg.MGD_SPEC_READS + 1 < 2 ^ 48 ∧ 1048576 * 64 / 64 = 1048576 ∧
    (guarded.slotOf 0 = none ∧ ({ guarded with asc := { guarded.asc with slots := [(9, slotFor 0)] } } : State).slotOf (0#20).toNat = some (9, slotFor 0) ∧ 0xFFFF < 2 ^ 16) := by
  decide +kernel

/-- RegionsChangeOver: region 7 in service, at the end of its generations, free, and beside a changeover; a page to convert and none; a seal that can end and one that cannot. -/
theorem test_meets_RegionsChangeOver :
    (served guarded Who.host = true ∧ mlook 0 Reg.MGD_CHG_CMD guarded.locks = 0 ∧ guarded.flag Reg.MGD_CHG_CMD_BUSY = false ∧ (fix guarded [(Reg.MGD_CHG_CMD_BUSY, 1)]).flag Reg.MGD_CHG_CMD_BUSY = true ∧ 7 ∉ guarded.mgd.chgQueue ∧
   7 ∈ ({ guarded with mgd := { guarded.mgd with chgQueue := [7] } } : State).mgd.chgQueue ∧ (0#3).toNat = 0 ∧ (7#3).toNat = 7 ∧ guarded.rgnState 7 = 2 ∧ guarded.rgnState 1 ≠ 2 ∧ guarded.mgd.keysGone = false) ∧
    guarded.get (Reg.MGD_RGN_STS_GEN 7) < 65535 ∧ (fix guarded [(Reg.MGD_RGN_STS_GEN 7, 65535)]).get (Reg.MGD_RGN_STS_GEN 7) = 65535 ∧ guarded.flag Reg.MGD_STS_CHG_ACTIVE = false ∧
    ((let t := fix guarded [(Reg.MGD_STS_CHG_ACTIVE, 1), (Reg.MGD_CHG_STS_REGION, 7)]
   let b : CtrBlock := { major := 0, minors := [] }
   let first := t.rgnBase 7 * 512
   let next := fun (l : SMap CtrBlock) => l.find? (fun e => decide (first + t.get Reg.MGD_CHG_STS_BOUNDARY ≤ e.1) && decide (e.1 < first + t.rgnSize 7 * 512))
   t.flag Reg.MGD_STS_CHG_ACTIVE = true ∧ t.mgd.keysGone = false ∧ t.get Reg.MGD_CHG_STS_REGION = 7 ∧ next [] = none ∧ next [(first, b)] = some (first, b) ∧ t.ctr Reg.MGD_CHG_PAGES + 1 < 2 ^ 48 ∧ t.running = true ∧
   (List.range 64).all (fun q => decide (b.minor q ≠ 127)) = true)) ∧
    ((let t := fun (c : Cond) => ({ up with ctl := { up.ctl with cond := c }, mgd := { up.mgd with ret := { up.mgd.ret with crcOk := true, isSealed := false, poison := false } } } : State)
   (t .halted).ctl.cond = .halted ∧ (t .reset).ctl.cond = .reset ∧ (t .reset).mgd.ret.isSealed = false ∧ (t .reset).mgd.ret.poison = false ∧ (t .reset).mgd.ret.crcOk = true ∧ (t .reset).mgd.dirty = [] ∧ up.ctl.cond ≠ .halted ∧ up.ctl.cond ≠ .reset)) ∧
    (({ up with mgd := { up.mgd with ret := { up.mgd.ret with poison := true } } } : State).mgd.ret.poison = true) := by
  decide +kernel

/-- VaultCommands: a vault with its keys and without, idle and busy; a blob in the window and one outside it. -/
theorem test_meets_VaultCommands :
    served own Who.host = true ∧ mlook 0 Reg.VLT_CMD own.locks = 0 ∧ own.flag Reg.VLT_CMD_BUSY = false ∧ (fix own [(Reg.VLT_CMD_BUSY, 1)]).flag Reg.VLT_CMD_BUSY = true ∧ own.vlt.op = none ∧
    ((let ws : List Word := List.replicate 90 5
   let p : PendOp := { result := (7 : Fin 8), writes := ws.zipIdx.map (fun p => (Reg.VLT_IO p.2, p.1)), who := Who.host }
   ws.length ≤ 90 ∧ ({ own with vlt := { own.vlt with op := some p } } : State).vlt.op = some p)) ∧
    own.vaultServes 2 = false ∧ (List.replicate 128 (0 : Byte)).length = 128 ∧ own.ctr Reg.MGD_MINOR_OVF + 2 < 2 ^ 48 ∧
    ((let t := fix guarded [(Reg.VLT_STS_KEYS_READY, 1), (Reg.VLT_STS_ENTROPY_OK, 1), (Reg.VLT_OFFSET_OFFSET, 16382)]
   t.vaultServes 2 = true ∧ importEn t.vlt = false ∧ t.vaultServes 3 = true ∧ t.vaultServes 4 = true ∧ t.blobInside (t.get Reg.VLT_OFFSET_OFFSET) = true)) ∧
    ((let t := fix guarded [(Reg.VLT_STS_KEYS_READY, 1), (Reg.VLT_OFFSET_OFFSET, 16383)]
   t.vaultServes 3 = true ∧ t.blobInside (t.get Reg.VLT_OFFSET_OFFSET) = false)) := by
  decide +kernel

/-- EntropyServes: entropy in service, with a GENERATE that would succeed, and out of service with the DRBG running. -/
theorem test_meets_EntropyServes :
    ((let t := fix own [(Reg.VLT_STS_ENTROPY_OK, 1), (Reg.VLT_CMD_OP, 1)]
   let p : PendOp := { result := 0, writes := [], who := Who.host }
   t.flag Reg.VLT_STS_ENTROPY_OK = true ∧ t.vlt.op = none ∧ t.get Reg.VLT_CMD_OP ∈ [1, 2, 5] ∧ p.result = 0 ∧ own.running = true ∧ own.dormant = false ∧ own.flag Reg.VLT_STS_ENTROPY_OK = false ∧
   ({ t with vlt := { t.vlt with op := some p } } : State).vlt.op = some p ∧ ({ t with vlt := { t.vlt with drbgRun := true } } : State).vlt.drbgRun = true)) := by
  decide +kernel

/-- UpdatesApply: an update idle, open and applying, a message of the wrong form, a freeze and a zeroise; BankCommitted: a bank of the fuses' epoch, and each type's fuse. -/
theorem test_meets_UpdatesApply :
    served own Who.host = true ∧ own.updState = 0 ∧ (fix own [(Reg.VLT_UPD_STS_STATE, 1)]).updState = 1 ∧ (fix own [(Reg.VLT_UPD_STS_STATE, 2)]).updState = 2 ∧ own.frozenRails = false ∧ own.zeroised = false ∧
    (({ own with gaf := { own.gaf with dips := [(0, 0)] } } : State).frozenRails = true ∧ updFormatOk own.vlt (updMessage own.vlt) = false ∧ ({ own with evt := { own.evt with zeroise := 4 } } : State).zeroised = true) ∧
    ((let b : Bank := { count := 0, epoch := 0, slot := 0xFF, crc := 0, commit := commitMark, record := [] }
   let c := { b with crc := bankCrc b }
   currentBank { own.vlt with bank0 := c } = some (false, c) ∧ c.count < 2 ^ 40 - 1 ∧ c.epoch ≤ 128 ∧ c.epoch ≤ own.vlt.otp.epoch ∧ (List.replicate 504 (0 : Byte)).length = 504)) ∧
    ((let m := fun (t : Byte) => List.replicate 5 (0 : Byte) ++ [t]
   byteAt (m 1) 5 = 1 ∧ byteAt (m 16) 5 = 16 ∧ byteAt (m 2) 5 = 2 ∧ freeSlot own.vlt.otp = some 0 ∧ byteAt (m 3) 5 = 3 ∧ liveSlot { own.vlt.otp with valid := 1 } = some 0 ∧ byteAt (m 4) 5 = 4 ∧ byteAt (m 5) 5 = 5)) := by
  decide +kernel

/-! An UPDATE and a CLAIM message of the device's own identity whose checks of R447 pass (UpdatesApply). Its identity is a digest, so its words
are variables here. -/

/-- The second word of the message: version 1, its type, and its length. -/
def updHead (claim : Bool) : Word := if claim then 0x010202F8 else 0x010102F8

/-- A state with the message staged, its signature taken twice, and its signer the live slot's owner. -/
def updating (claim : Bool) (ws : List Word) (second : Bool) : State :=
  let s := fix own [(Reg.VLT_UPD_STS_STATE, 2)]
  { s with
    ctl := { s.ctl with doubled := [{ decision := .update, first := true, second := some second }] },
    vlt := { s.vlt with
      otp := { s.vlt.otp with valid := if claim then 0 else 1, blank := true, ownerHash := if claim then [] else [(0, sha384 (List.replicate 96 0))] },
      updLen := 760, upd := [(0, 0x55504431), (1, updHead claim)] ++ ws.zipIdx.map (fun p => (p.2 + 2, p.1)) ++ [(40, 0x00010000)] } }

theorem toBe_word (n h : Nat) : toBe (n + 4) h = toBe 4 (w32 (h / 256 ^ n)).toNat ++ toBe n h := by
  have d (k : Nat) : h / 256 ^ (n + k) = h / 256 ^ n / 256 ^ k := by rw [Nat.pow_add, Nat.div_div_eq_div_mul]
  have b (x k : Nat) (hk : k < 4) : BitVec.ofNat 8 (x % 2 ^ 32 / 256 ^ k) = BitVec.ofNat 8 (x / 256 ^ k) := by
    apply BitVec.eq_of_toNat_eq
    simp only [BitVec.toNat_ofNat]
    have : k = 0 ∨ k = 1 ∨ k = 2 ∨ k = 3 := by omega
    rcases this with rfl | rfl | rfl | rfl <;> omega
  rw [show toBe (n + 4) h = BitVec.ofNat 8 (h / 256 ^ (n + 3)) :: BitVec.ofNat 8 (h / 256 ^ (n + 2)) :: BitVec.ofNat 8 (h / 256 ^ (n + 1)) ::
    BitVec.ofNat 8 (h / 256 ^ (n + 0)) :: toBe n h from rfl, show ∀ v, toBe 4 v = [BitVec.ofNat 8 (v / 256 ^ 3), BitVec.ofNat 8 (v / 256 ^ 2),
    BitVec.ofNat 8 (v / 256 ^ 1), BitVec.ofNat 8 (v / 256 ^ 0)] from fun _ => rfl, d, d, d, d]
  simp only [w32, BitVec.toNat_ofNat, b _ 3 (by decide), b _ 2 (by decide), b _ 1 (by decide), b _ 0 (by decide)]
  rfl

theorem words_of_digest (h : Nat) : ∃ a b c d e f g i j k l m : Word, wordBytes [a, b, c, d, e, f, g, i, j, k, l, m] = toBe 48 h := by
  have e : toBe 48 h = wordBytes ((List.range 12).map (fun i => w32 (h / 256 ^ (44 - 4 * i)))) := by
    rw [toBe_word 44, toBe_word 40, toBe_word 36, toBe_word 32, toBe_word 28, toBe_word 24, toBe_word 20, toBe_word 16, toBe_word 12,
      toBe_word 8, toBe_word 4, toBe_word 0 h]
    simp [wordBytes, List.range_succ, show toBe 0 h = [] from rfl]
  exact ⟨_, _, _, _, _, _, _, _, _, _, _, _, e.symm⟩
theorem updating_words (cl : Bool) (a b c d e f g i j k l m : Word) (v : Bool) :
    (List.range 190).map (fun n => mlook 0 n (updating cl [a, b, c, d, e, f, g, i, j, k, l, m] v).vlt.upd) =
      [0x55504431, updHead cl] ++ ([a, b, c, d, e, f, g, i, j, k, l, m] ++ (List.replicate 26 0 ++ [0x00010000] ++ List.replicate 149 0)) := by
  rw [show 190 = 41 + 149 from rfl, List.range_add, List.map_append]
  have t : List.map (fun n => mlook (0 : Word) n (updating cl [a, b, c, d, e, f, g, i, j, k, l, m] v).vlt.upd) (List.map (fun x => 41 + x) (List.range 149)) =
      List.replicate 149 0 := by
    refine List.eq_replicate_iff.mpr ⟨by simp, fun x hx => ?_⟩
    simp only [List.mem_map, List.mem_range] at hx
    obtain ⟨n, ⟨y, -, rfl⟩, rfl⟩ := hx
    simp [updating, mlook, mget]
    have h (n : Nat) (hn : n < 41) : ¬ n = 41 + y := by omega
    simp [h]
  rw [t]
  simp only [List.append_assoc]
  rfl

theorem sub_tail (p w q : List Byte) (hp : p.length = 8) (hw : w.length = 48) (x n : Nat) : sub (p ++ (w ++ q)) (56 + x) n = sub q x n := by
  unfold sub
  rw [show 56 + x = p.length + (w.length + x) by omega, List.drop_append, List.drop_append]
  simp [List.drop_eq_nil_of_le]

theorem byteAt_tail (p w q : List Byte) (hp : p.length = 8) (hw : w.length = 48) (x : Nat) : byteAt (p ++ (w ++ q)) (56 + x) = byteAt q x := by
  unfold byteAt
  rw [List.getD_append_right _ _ _ _ (by omega), List.getD_append_right _ _ _ _ (by omega)]
  congr 2; omega

theorem byteAt_head (p r : List Byte) (x : Nat) (h : x < p.length) : byteAt (p ++ r) x = byteAt p x := by
  unfold byteAt; rw [List.getD_append _ _ _ _ h]

theorem sub_head (p r : List Byte) (x n : Nat) (h : x + n ≤ p.length) : sub (p ++ r) x n = sub p x n := by
  unfold sub
  rw [List.drop_append_of_le_length (by omega), List.take_append_of_le_length (by simp; omega)]

/-- UpdatesApply: messages of type UPDATE and CLAIM for every identity, whose checks all pass, and ones whose two verdicts differ. -/
theorem test_meets_UpdatesApply_checks : ∃ ws : List Word, ∀ cl v : Bool,
    let s := updating cl ws v
    let m := updMessage s.vlt
    updCheck s m = (if v then 0 else 6) ∧ byteAt m 5 = (if cl then 2 else 1) ∧ (cl = true → freeSlot s.vlt.otp = some 0) ∧ s.updState = 2 ∧ s.frozenRails = false ∧ s.zeroised = false ∧ served s Who.host = true := by
  obtain ⟨a, b, c, d, e, f, g, i, j, k, l, m, hw⟩ := words_of_digest (sha384 (idPub own)).toNat
  refine ⟨[a, b, c, d, e, f, g, i, j, k, l, m], fun cl v => ?_⟩
  have hp : (wordBytes [0x55504431, updHead cl]).length = 8 := rfl
  have hl : (wordBytes [a, b, c, d, e, f, g, i, j, k, l, m]).length = 48 := rfl
  generalize hq : wordBytes (List.replicate 26 0 ++ [0x00010000] ++ List.replicate 149 0) = q
  have hm : updMessage (updating cl [a, b, c, d, e, f, g, i, j, k, l, m] v).vlt =
      wordBytes [0x55504431, updHead cl] ++ (wordBytes [a, b, c, d, e, f, g, i, j, k, l, m] ++ q) := by
    rw [← hq]
    unfold updMessage
    rw [show (updating cl [a, b, c, d, e, f, g, i, j, k, l, m] v).vlt.updLen = 760 from rfl, show 760 / 4 = 190 from rfl, updating_words]
    simp only [wordBytes, List.flatMap_append]
  have tail := fun x n => sub_tail _ _ q hp hl x n
  have tb := fun x => byteAt_tail _ _ q hp hl x
  have hd : deviceId (updating cl [a, b, c, d, e, f, g, i, j, k, l, m] v) = wordBytes [a, b, c, d, e, f, g, i, j, k, l, m] := hw.symm
  dsimp only
  rw [hm]
  generalize hW : wordBytes [a, b, c, d, e, f, g, i, j, k, l, m] = w at *
  generalize hs : updating cl [a, b, c, d, e, f, g, i, j, k, l, m] v = s at *
  have head := fun x n h => sub_head (wordBytes [0x55504431, updHead cl]) (w ++ q) x n h
  have hb := fun x h => byteAt_head (wordBytes [0x55504431, updHead cl]) (w ++ q) x h
  have hid : sub (wordBytes [0x55504431, updHead cl] ++ (w ++ q)) 8 48 = w := by
    unfold sub
    rw [List.drop_append_of_le_length (by omega), List.drop_eq_nil_of_le (by omega), List.nil_append, List.take_append_of_le_length (by omega),
      List.take_of_length_le (by omega)]
  have b5 : byteAt (wordBytes [0x55504431, updHead cl] ++ (w ++ q)) 5 = (if cl then 2 else 1) := by rw [hb 5 (by omega)]; cases cl <;> decide
  have h59 : sub (wordBytes [0x55504431, updHead cl] ++ (w ++ q)) 59 5 = sub q 3 5 := tail 3 5
  have h57 : sub (wordBytes [0x55504431, updHead cl] ++ (w ++ q)) 57 2 = sub q 1 2 := tail 1 2
  have h64 : sub (wordBytes [0x55504431, updHead cl] ++ (w ++ q)) 64 96 = sub q 8 96 := tail 8 96
  have h160 : sub (wordBytes [0x55504431, updHead cl] ++ (w ++ q)) 160 504 = sub q 104 504 := tail 104 504
  have h56 : byteAt (wordBytes [0x55504431, updHead cl] ++ (w ++ q)) 56 = byteAt q 0 := tb 0
  have c0 : counterOf s.vlt = (0, 0) := by subst hs; rfl
  have lv : liveSlot s.vlt.otp = if cl then none else some 0 := by
    subst hs
    exact (rfl : _ = liveSlot { own.vlt.otp with valid := if cl then 0 else 1, blank := true }).trans (by cases cl <;> decide +kernel)
  have l3 : lcCode s.vlt.otp = if cl then 2 else 3 := by
    subst hs
    exact (rfl : _ = lcCode { own.vlt.otp with valid := if cl then 0 else 1, blank := true }).trans (by cases cl <;> decide +kernel)
  have fs : cl = true → freeSlot s.vlt.otp = some 0 := by
    rintro rfl
    subst hs
    exact (rfl : _ = freeSlot { own.vlt.otp with valid := 0, blank := true, ownerHash := [] }).trans
      (show freeSlot { own.vlt.otp with valid := 0, blank := true, ownerHash := [] } = some 0 by decide +kernel)
  have sg : signerDigest s.vlt (if cl then 2 else 1) = if cl then none else some (sha384 (List.replicate 96 0)) := by
    cases cl
    · simp only [signerDigest, l3, lv]
      subst hs; rfl
    · rfl
  have q8 : sub q 8 96 = List.replicate 96 0 := by subst hq; decide +kernel
  have fm : updFormatOk s.vlt (wordBytes [0x55504431, updHead cl] ++ (w ++ q)) = true := by
    unfold updFormatOk
    rw [b5, h57, h160, head 0 4 (by omega), head 6 2 (by omega), hb 4 (by omega), show s.vlt.updLen = 760 by subst hs; rfl]
    subst hq; cases cl <;> decide +kernel
  have bt : bothTakings s .update = some (true, v) := by subst hs; rfl
  have ex : s.flag Reg.VLT_STS_COUNTER_EXHAUSTED = false := by subst hs; show own.flag Reg.VLT_STS_COUNTER_EXHAUSTED = false; decide +kernel
  refine ⟨?_, b5, fs, by subst hs; show (fix own [(Reg.VLT_UPD_STS_STATE, 2)]).updState = 2; decide +kernel,
    by subst hs; rfl, by subst hs; rfl, by subst hs; show served (fix own [(Reg.VLT_UPD_STS_STATE, 2)]) Who.host = true; decide +kernel⟩
  unfold updCheck
  have q0 : byteAt q 0 = 0 := by subst hq; decide +kernel
  have q3 : be (sub q 3 5) = 0 := by subst hq; decide +kernel
  simp only [fm, hid, hd, b5, l3, sg, bt, h64, q8, h56, h59, c0, ex, q0, q3, Option.getD_some]
  generalize sha384 (List.replicate 96 0) = x
  cases cl <;> cases v <;> simp [typeAllowed]
  simp [fs rfl]

/-- CipherChannels: the channel of either party; a START refused and one accepted, with a key and without; FEED of a hash's first and last bytes, too long and while running; ends with a slot gone and with a segment that succeeds; ABORT open and late. -/
theorem test_meets_CipherChannels :
    partyOf Who.host = 0 ∧ partyOf Who.fw = 1 ∧ [103].all (fun d => decide (mlook .on d own.gaf.doms = .on)) = true ∧
    ((let ok : Vlt := { own.vlt with c0 := { own.vlt.c0 with coreOk := true, mode := 8, total := 8192 } }
   let t := fun (st mode total : Nat) => ({ fix own [(Reg.UCE_STS_STATE 0, st), (Reg.UCE_MODE_MODE 0, mode), (⟨Reg.UCE_TOTAL 0, 31, 0⟩, total)] with vlt := ok } : State)
   startErr (t 1 8 0) 0 = 4 ∧ startErr (t 0 15 0) 0 = 1 ∧ startErr (t 0 8 8192) 0 = 0 ∧ (t 0 8 0).get (Reg.UCE_MODE_MODE 0) = 8 ∧ (t 0 8 0).ctr (Reg.UCE_OPS 0) + 1 < 2 ^ 48 ∧ (t 0 8 0).ctr (Reg.UCE_FAILS 0) + 1 < 2 ^ 48 ∧ (t 2 8 0).uceState 0 = 2 ∧ ((t 2 8 0).chan 0).mode = 8 ∧
   (8192#14).toNat ≤ 8192 ∧ (8192#14).toNat % 16 = 0 ∧ ((t 2 8 0).chan 0).fed.length + (8192#14).toNat = ((t 2 8 0).chan 0).total ∧ ((t 2 8 0).chan 0).total < ((t 2 8 0).chan 0).fed.length + (8193#14).toNat ∧
   (t 1 8 0).uceState 0 = 1 ∧ (t 0 8 0).uceOpen 0 = false ∧ (t 2 8 0).uceOpen 0 = true ∧ (t 3 8 0).uceState 0 = 3)) ∧
    (({ own with vlt := { own.vlt with c0 := { own.vlt.c0 with doneAt := some own.clk } } } : State).vlt.c0.doneAt = some own.clk ∧ ({ own.vlt.c0 with mode := 6, fed := [1] } : UceChan).fed ≠ []) ∧
    ((let k : KeySlot := { key := { a := 1, b := 2 }, size256 := false, origin := 0 }
   let ch : UceChan := { own.vlt.c0 with mode := 6, decrypt := true, last := true }
   let d : UceChan := { own.vlt.c0 with mode := 0 }
   let t := ({ own with vlt := { own.vlt with slots := [(0, k)], c0 := { own.vlt.c0 with coreOk := true } } } : State)
   keyedMode ch.mode = true ∧ keyedMode d.mode = true ∧ keyedMode 8 = false ∧ own.keySlot ch.slot = none ∧ t.keySlot ch.slot = some k ∧ startErr t 0 = 0 ∧ keyedMode (t.get (Reg.UCE_MODE_MODE 0)) = true ∧
   (feedEnd own 0 ch k).st ≠ 3 ∧ (feedEnd own 0 d k).st = 3 ∧ (feedEnd own 0 { d with mode := 8, last := false } noKeySlot).st = 3)) := by
  decide +kernel

/-- KeySlots: the last slot of each channel, in use and not, the slot command busy and not, and blob loads in and out of the window. -/
theorem test_meets_KeySlots :
    mlook 0 Reg.UCE_SLOT_CMD guarded.locks = 0 ∧ guarded.flag Reg.UCE_SLOT_CMD_BUSY = false ∧ (fix guarded [(Reg.UCE_SLOT_CMD_BUSY, 1)]).flag Reg.UCE_SLOT_CMD_BUSY = true ∧
    slotChan (7 : Fin 16) = partyOf Who.host ∧ slotChan (8 : Fin 16) ≠ partyOf Who.host ∧ guarded.flag (Reg.UCE_SLOT_STS_IN_USE 7) = false ∧ (fix guarded [(Reg.UCE_SLOT_STS_IN_USE 7, 1)]).flag (Reg.UCE_SLOT_STS_IN_USE 7) = true ∧ guarded.vlt.blobOp = none ∧
   guarded.uceState (slotChan (7 : Fin 16)) ≠ 4 ∧ (fix guarded [(Reg.UCE_SLOT_STS_IN_USE 7, 1), (Reg.UCE_STS_STATE 0, 2)]).uceOpen (slotChan (7 : Fin 16)) = true ∧
    (({ guarded with vlt := { guarded.vlt with blobOp := some (7, 16382) } } : State).vlt.blobOp = some ((7 : Fin 16).val, 16382) ∧ guarded.blobInside 16382 = true ∧ guarded.blobInside 16383 = false ∧ guarded.openAt 16382 = none ∧ guarded.zeroised = false) := by
  decide +kernel

/-- Device 1 of a fabric; link 3 has lane 0 in MISSION, codeword lock and SYNC. -/
def linked : State :=
  let s := fix own [(Reg.FAB_CFG_EN, 1), (Reg.FAB_CFG_ADDR, 1), (Reg.LN_STS_STATE (lnBase .lnf 12), 6)]
  (State.modKorLane { s with fab := { s.fab with linkUp := [3], cellSync := [(12, 3)] } } 44 (fun l => { l with locked := true }))

/-- The same with a neighbour on link 3 that is address 9, from which every address but 62 is d hops away. -/
def beside (d : Byte) : State :=
  { linked with fab := { linked.fab with neighbours := [(3, { addr := 9, group := 0, vector := List.replicate 62 d ++ [255, d], valid := true, conflict := false })] } }

theorem be_toBe4 (w : Word) : be (toBe 4 w.toNat) = w.toNat := by
  have h := w.isLt
  simp only [toBe, be, List.foldl, BitVec.toNat_ofNat]
  omega

/-- CellsMove: a received cell that descrambles to one with a good trailer, and one whose trailer is another. -/
theorem test_meets_CellsMove_crc (b : List Byte) (h : b.length = 252) (l : Nat) :
    (∃ raw, let c := cellScramble l raw
     c.length = 256 ∧ be (sub c 252 4) = (crc32 (c.take 252)).toNat) ∧
    (∃ raw, let c := cellScramble l raw
     c.length = 256 ∧ be (sub c 252 4) ≠ (crc32 (c.take 252)).toNat) := by
  have n4 (n : Nat) : (toBe 4 n).length = 4 := rfl
  have t (w : Word) : be (sub (b ++ toBe 4 w.toNat) 252 4) = w.toNat := by
    rw [sub, ← h, List.drop_left, List.take_of_length_le (by rw [n4])]; exact be_toBe4 w
  have u (w : Word) : cellScramble l (cellScramble l (b ++ toBe 4 w.toNat)) = b ++ toBe 4 w.toNat :=
    cellScramble_cellScramble l _ (by simp [h]; omega)
  refine ⟨⟨cellScramble l (b ++ toBe 4 (crc32 b).toNat), ?_⟩, cellScramble l (b ++ toBe 4 (crc32 b + 1).toNat), ?_⟩ <;>
    dsimp only <;> rw [u] <;> refine ⟨by simp [h, n4], ?_⟩
  · rw [t, ← h, List.take_left]
  · rw [t, ← h, List.take_left]
    intro e
    exact absurd (BitVec.add_right_eq_self.1 (BitVec.eq_of_toNat_eq e)) (by decide)

/-- CellsMove: a lane in and out of MISSION and codeword lock, in each state of its hunt; cells of each fate, classes and addresses at the ends of their ranges. -/
theorem test_meets_CellsMove :
    linked.running = true ∧ up.laneSt .lnf 0 ≠ 6 ∧ linked.laneSt .lnf (4 * 3 + 0) = 6 ∧ (linked.korLane (32 + 4 * 3 + 0)).locked = true ∧ (up.korLane 32).locked = false ∧ linked.cellState 3 0 = 3 ∧
    ((let t := fun (n m : Nat) => ({ linked with fab := { linked.fab with cellSync := [(12, n)], cellMiss := [(12, m)] } } : State)
   (t 1 0).cellState 3 0 = 1 ∧ (t 2 0).cellState 3 0 = 2 ∧ (t 3 2).cellState 3 0 = 3 ∧ mlook 0 (cellKey 3 0) (t 3 2).fab.cellMiss = 2 ∧ mlook 0 (cellKey 3 0) (t 3 1).fab.cellMiss < 2 ∧ ({ linked with fab := { linked.fab with cellSync := [] } } : State).cellState 3 0 = 0)) ∧
    linked.flag Reg.FAB_CFG_EN = true ∧ up.flag Reg.FAB_CFG_EN = false ∧ 3 ∈ linked.fab.linkUp ∧ mget 3 linked.fab.neighbours = none ∧ ((beside 13).fab.neighbours.any (fun p => p.2.conflict)) = false ∧
    ((let c := cellBytes 7 63 9 2 0 [1, 2, 3]
   cellHeadOk c = true ∧ c.length = 256 ∧
   2 ≤ byteAt c 0 ∧ byteAt c 0 ≤ 7 ∧ byteAt c 1 / 4 = 63 ∧ 1 < byteAt c 3 ∧ 63 ≠ linked.fabAddr ∧ linked.route 63 = none ∧ (beside 13).route 63 = some (14, 3) ∧ byteAt (cellBytes 2 1 9 1 0 []) 3 ≤ 1 ∧ byteAt (cellBytes 2 1 9 1 0 []) 1 / 4 = linked.fabAddr ∧
   byteAt (cellBytes 0 0 0 0 0 []) 0 = 0 ∧ byteAt (cellBytes 1 0 0 0 0 []) 0 = 1 ∧ 7 < byteAt (cellBytes 8 0 0 0 0 []) 0)) ∧
    ((let t := fix up ((List.range 4).map (fun l => (Reg.LN_STS_STATE (lnBase .lnf (12 + l)), 6)))
   let r := ({ t with fab := { t.fab with cellSync := [(12, 3), (13, 3), (14, 3), (15, 3)] } } : State)
   r.linkReady 3 = true ∧ 3 ∉ r.fab.linkUp ∧ r.linkReady 0 = false)) := by
  decide +kernel

/-- RoutesFollow: one link up with a neighbour, the fabric off, HELLOs of another address and of the device's own, and addresses with a route and without. -/
theorem test_meets_RoutesFollow :
    (beside 13).running = true ∧ (beside 13).flag Reg.FAB_CFG_EN = true ∧ up.flag Reg.FAB_CFG_EN = false ∧ (beside 13).fab.linkUp = [(3 : Fin 4).val] ∧ (mget 3 (beside 13).fab.neighbours).isSome = true ∧
   (beside 13).route 63 = some (14, 3) ∧ (beside 13).route 62 = none ∧ (beside 14).route 63 = none ∧ 0 ≠ (beside 13).fabAddr ∧
    (List.replicate 76 (0 : Byte)).length = 76 ∧ 9 ≠ linked.fabAddr ∧ 1 = linked.fabAddr ∧ mget 3 linked.fab.neighbours = none := by
  decide +kernel

/-- A paired device, partner address 2, pair 5, in a role. -/
def paired (r : Role) : State :=
  let s := fix own [(Reg.FAB_PAIR_CFG_PAIRED, 1), (Reg.FAB_PAIR_CFG_PARTNER, 2), (Reg.FAB_PAIR_CFG_PAIR_ID, 5), (Reg.FAB_CFG_ADDR, 1), (Reg.FAB_CFG_EMITTER, 1)]
  { s with fab := { s.fab with role := r, fabTick := { got := false, misses := 0, goodRun := 0, lost := false }, lvdsTick := { got := false, misses := 2, goodRun := 0, lost := false } } }

/-- A paired device that has lost its partner on both paths. -/
def alone (r : Role) : State :=
  let l : PathTick := { got := false, misses := 4, goodRun := 0, lost := true }
  { paired r with fab := { (paired r).fab with fabTick := l, lvdsTick := l } }

/-- A heartbeat from address 2 of pair p in state st. -/
def beat (p : Nat) (st : Byte) : List Byte :=
  let b := [0xB7, 8] ++ toBe 2 p ++ [st, 2] ++ toBe 4 9 ++ toBe 2 0 ++ toBe 4 0
  b ++ toBe 2 (crc16 b).toNat

/-- RolesMove and RoleTable: each role, heartbeats that are not valid, that dispute and that do not, ticks at the fourth miss and the fourth good one, a partner lost, fencing, and a switchover in each state. -/
theorem test_meets_RolesMove :
    served (paired .none) Who.host = true ∧ (paired .none).fab.role = .none ∧ (paired .init).fab.role = .init ∧ (paired .active).fab.role = .active ∧ (paired .standIn).fab.role = .standIn ∧ (paired .fenced).fab.role = .fenced ∧
    heartbeatOk (paired .init) [] = false ∧ heartbeatOk (paired .init) (beat 6 0x50) = true ∧ disputes (paired .init) (beat 6 0x50) = true ∧ disputes (paired .init) (beat 5 0x50) = false ∧
    (paired .init).fab.fabTick.got = false ∧ (paired .init).fab.fabTick.misses < 3 ∧ (paired .init).fab.fabTick.lost = false ∧ (paired .init).fab.lvdsTick.got = false ∧ (paired .init).fab.lvdsTick.misses < 3 ∧ (paired .init).fab.lvdsTick.lost = false ∧
    (alone .active).partnerLost = true ∧ (alone .active).flag Reg.FAB_PAIR_CFG_LOSS_POLICY = false ∧ (alone .active).flag Reg.FAB_STS_PARTNER_DOWN = false ∧ (alone .active).fab.fencing = false ∧ (alone .active).fab.switching = false ∧
    (paired .active).partnerLost = false ∧ (fix (paired .init) [(Reg.FAB_PAIR_CFG_LOSS_POLICY, 1)]).flag Reg.FAB_PAIR_CFG_LOSS_POLICY = true ∧ (fix (paired .active) [(Reg.FAB_STS_PARTNER_DOWN, 1)]).flag Reg.FAB_STS_PARTNER_DOWN = true ∧
    ((let t := { paired .active with fab := { (paired .active).fab with fencing := true } }
   t.fab.fencing = true ∧ t.framesWhere Frame.unreleased = [] ∧ t.selfTest = false)) ∧
    (paired .active).flag Reg.FAB_PAIR_CMD_BUSY = false ∧ (fix (paired .active) [(Reg.FAB_PAIR_CMD_BUSY, 1)]).flag Reg.FAB_PAIR_CMD_BUSY = true ∧ mlook 0 Reg.FAB_PAIR_CMD (paired .active).locks = 0 ∧ (paired .active).mayYield = false ∧ (paired .active).fab.switching = false ∧
    ((let t := fix (paired .active) [(Reg.FAB_STS_PARTNER_ROLE, 3), (⟨Reg.FAB_PEER_HEALTH, 27, 27⟩, 1)]
   let y := { t with fab := { t.fab with switching := true } }
   t.mayYield = true ∧ t.fab.role = .active ∧ y.fab.switching = true ∧ y.mayYield = true ∧ y.fab.marks = [] ∧ y.sch.frames = [] ∧ (frameAt .farm .enc).unreleased = true ∧ (frameAt .farm .enc).flying = true ∧ y.selfTest = false)) ∧
    (paired .standIn).flag Reg.FAB_STS_YIELD = false ∧ (paired .fenced).heldFenced = false ∧ (fix (paired .fenced) [(Reg.EVT_STS_QDEV, 1)]).heldFenced = true ∧ (paired .init).flag Reg.ASC_CFG_REPL_EN = false ∧ (paired .active).flag Reg.FAB_PAIR_CFG_TWIN = false ∧ (fix (paired .active) [(Reg.FAB_PAIR_CFG_TWIN, 1)]).flag Reg.FAB_PAIR_CFG_TWIN = true ∧
    (0 : Nat) = ((paired .active).rd Reg.FAB_EPOCH).toNat ∧ ((paired .active).rd Reg.FAB_EPOCH).toNat < 1 ∧ 0 < ((fix (paired .active) [(⟨Reg.FAB_EPOCH, 31, 0⟩, 1)]).rd Reg.FAB_EPOCH).toNat := by
  decide +kernel

/-- PairsReplicate: a MARK that waits, a resync at its first and last entry and at its end, and SELF_TEST in each role. -/
theorem test_meets_PairsReplicate :
    ((let m : MarkCell := { seq := 65535, resync := true, assocs := [], bytes := [] }
   (paired .active).running = true ∧ (paired .active).fab.marks = [] ∧ ({ paired .active with fab := { (paired .active).fab with marks := [m] } } : State).fab.marks = [m] ∧ m.seq = (65535#16).toNat)) ∧
    ((let t := fun (i : Nat) => ({ paired .active with fab := { (paired .active).fab with resync := some i } } : State)
   (t 6).fab.resync = some 6 ∧ (t 6).fab.role = .active ∧ 6 < (t 6).asc.size ∧ (t 6).marksFrom 6 = [] ∧
   (t (t 0).asc.size).fab.resync = some (t (t 0).asc.size).asc.size ∧ (t 0).fab.marks = [])) ∧
    ((let e : Mark := { mark := 7, keyGen := 1, index := 5, sec := 0, ns := 0 }
   let t := writeMark guarded 5 e
   let g := { t with fab := { t.fab with resync := some 5, role := .active } }
   g.fab.resync = some 5 ∧ g.fab.role = .active ∧ 5 < g.asc.size ∧ (((g.marksFrom 5).take 7).getLast?).map (fun m => m.index) = some 5)) ∧
    (paired .active).fab.resync = none ∧ (paired .init).fab.role ≠ .active ∧ (paired .init).fab.role ≠ .standIn ∧ (paired .standIn).fab.role = .standIn ∧ (paired .standIn).selfTest = false ∧
    ((let t := fix (paired .standIn) [(Reg.FAB_PAIR_CFG_SELF_TEST, 1)]
   let a := fix (paired .active) [(Reg.FAB_PAIR_CFG_SELF_TEST, 1)]
   t.fab.role = .standIn ∧ t.selfTest = true ∧ t.fab.selfRing = 0 ∧ a.fab.role = .active ∧ a.selfTest = true ∧ a.fab.crcBlock < a.stateBlocks)) := by
  decide +kernel

/-- A transition under way in a step. -/
def moving (st : Nat) (waiting : List Nat) : Transition :=
  { target := 2, source := 0, step := st, kind := 0, waiting := waiting, taken := [], abandon := false, ending := none }

/-- The device in the middle of it. -/
def inMove (st : Nat) (waiting : List Nat) : State := { own with gaf := { own.gaf with trans := some (moving st waiting) } }

/-- PowerRequests: requests that are for the present state, refused, paired, to TRIM and a wake; while a wake, an entry and its last step run, with the pending slot empty and taken. -/
theorem test_meets_PowerRequests :
    served own Who.host = true ∧ mlook 0 Reg.GAF_REQ own.locks = 0 ∧ own.gaf.trans = none ∧ own.power = 0 ∧ (0#2).toNat = own.power ∧
    ((let n := fix own [(Reg.GAF_POLICY_ALLOW_DORMANT, 0), (Reg.GAF_POLICY_ALLOW_STANDBY, 1), (Reg.GAF_POLICY_ALLOW_TRIM, 1)]
   let a := fix n [(Reg.GAF_POLICY_ALLOW_DORMANT, 1), (Reg.FAB_PAIR_CFG_PAIRED, 1)]
   let p := { a with fab := { a.fab with role := .active } }
   n.power < (3#2).toNat ∧ n.allows 3 = false ∧ n.allows 1 = true ∧ p.allows 2 = true ∧ p.allows 3 = true ∧ p.fab.role = .active ∧ p.flag Reg.FAB_PAIR_CFG_PAIRED = true)) ∧
    ((let w := fix own [(Reg.GAF_STS_STATE, 2)]
   (0#2).toNat < w.power ∧ w.allows 0 = true ∧ w.gaf.trans = none ∧ served w Who.host = true)) ∧
    (inMove 4 []).gaf.trans = some (moving 4 []) ∧ (moving 4 []).step = 4 ∧ (moving 4 []).ending = none ∧ (moving 0 []).step = 0 ∧ (moving 0 []).target = 2 ∧ (moving 3 []).step ∈ [1, 2, 3] ∧ (inMove 4 []).gaf.pend = none ∧ (inMove 4 []).ctr Reg.GAF_SUPERSEDED + 1 < 2 ^ 48 ∧
    (({ (inMove 4 []) with gaf := { (inMove 4 []).gaf with pend := some 3 } } : State).gaf.pend = some 3 ∧ (fix (inMove 3 []) [(Reg.GAF_STS_STATE, 2)]).power = 2 ∧ (0#2).toNat < 2) := by
  decide +kernel

/-- TransitionsRun: no transition; answers that a domain may give and may not, with and without a reason to refuse, of a domain asked and one not; the drain; the end, with the pending slot empty and taken. -/
theorem test_meets_TransitionsRun :
    own.running = true ∧ own.gaf.trans = none ∧ own.gaf.sleepAsk = [] ∧
    ((let t := inMove 3 [76, 95]
   t.gaf.trans = some (moving 3 [76, 95]) ∧ (moving 3 [76, 95]).step = 3 ∧ (moving 3 [76, 95]).ending = none ∧ 76 ∈ (moving 3 [76, 95]).waiting ∧ 76 ∉ t.gaf.sleepAsk ∧ domKind 76 = 3 ∧ domKind 95 = 4 ∧ t.mayAck 76 = true ∧ t.refusal 76 = none ∧
   (moving 3 [76, 95]).abandon = false ∧ t.rung < 3 ∧ (∃ e ∈ (moving 3 [76, 95]).waiting, e ≠ 76) ∧ 103 ∉ (moving 3 [76, 95]).waiting)) ∧
    ((let f := withFrames [{ frameAt .queued .enc with cells := 1 }]
   let t := { f with gaf := { f.gaf with trans := some (moving 3 [52, 75]) } }
   52 ∈ (moving 3 [52, 75]).waiting ∧ 52 ∉ t.gaf.sleepAsk ∧ domKind 52 = 2 ∧ t.bufferHeld = true ∧ t.refusal 52 = some 5 ∧ t.mayAck 52 = false)) ∧
    (moving 2 []).step = 2 ∧ (inMove 2 []).gaf.trans = some (moving 2 []) ∧ ((List.range 32).all (fun k => decide (((inMove 2 []).korPort k).cueRx = []) && decide (((inMove 2 []).korPort k).cueSpots = []))) = true ∧
    ((let x : Transition := { moving 4 [] with target := 1 }
   x.target = 1 ∧ x.source = 0 ∧ own.fab.takeoverDue = false ∧ (reached (inMove 4 []) (moving 4 []) 0).gaf.pend = none)) ∧
    ((let t := { (inMove 4 []) with gaf := { (inMove 4 []).gaf with pend := some 0 } }
   (reached t (moving 4 []) 0).gaf.pend = some 0)) := by
  decide +kernel

/-- DomainsAndSupplies: a domain of each kind, on and off; a ring asleep and waking; an idle domain that may sleep and one that may not; the comparator with EN and without; rails in warning and not. -/
theorem test_meets_DomainsAndSupplies :
    own.running = true ∧ own.dormant = false ∧ domKind 32 = 1 ∧ domKind 51 = 1 ∧ domKind 52 = 2 ∧ domKind 97 = 6 ∧ own.dom 76 = .on ∧ own.ctr Reg.GAF_ACCESS_STALLS + 1 < 2 ^ 48 ∧ (own.path .pcie).held = [] ∧
    ((let o := { own with gaf := { own.gaf with doms := [(91, .off), (103, .retain)] } }
   o.dom 91 ≠ .on ∧ domKind 91 = 3 ∧ o.dom 103 ≠ .on ∧ domKind 103 = 8 ∧ domKind 95 = 4 ∧ o.dormant = false)) ∧
    domKind 0 = 0 ∧ domKind 31 = 0 ∧ own.ring 31 = .asleep ∧ (withFarm [(31, .waking)] []).ring 31 = .waking ∧ own.power = 0 ∧
    ((let w := fix own [(Reg.GAF_STS_STATE, 2)]
   w.power = 2 ∧ w.gaf.trans = none ∧ domKind 101 = 7 ∧ w.dom 101 = .on ∧ w.dom 103 = .on ∧ 101 ∉ w.gaf.sleepAsk ∧ (fix (withFarm [(0, .awake)] []) [(Reg.GAF_STS_STATE, 1)]).dom 0 = .on)) ∧
    own.flag Reg.AON_WAKE_CFG_EN = false ∧ (fix own [(Reg.AON_WAKE_CFG_EN, 1)]).flag Reg.AON_WAKE_CFG_EN = true ∧
    (own.gaf.dips = [] ∧ ({ own with gaf := { own.gaf with dips := [(railNum .ddr, own.clk)] } } : State).gaf.dips = [(railNum .ddr, own.clk)] ∧ 2 ^ 29 - 1 < 2 ^ 29) := by
  decide +kernel

/-- EventsRespond: an event at each rung, with a port pair and without; a log with room, full and frozen. -/
theorem test_meets_EventsRespond :
    0xFFFF < 65536 ∧ up.evt.frozen = false ∧ up.evt.log.length < 1024 ∧ (∀ r ∈ [0, 1, 2, 3, 4, 5, 6], rungOf (fix up [(Reg.EVT_MAP_RUNG 1 5, r)]) 0x0105 = r) ∧ (some 31 = some 31 ∧ 31 < 32) ∧
    (({ up with evt := { up.evt with log := List.replicate 1024 (logRec up 0 0x0105 0 0) } } : State).evt.log.length = 1024 ∧ ({ up with evt := { up.evt with frozen := true } } : State).evt.frozen = true) := by
  decide +kernel

/-- AlarmsLift: a device quiesce that can be lifted and one that a zeroise holds, of a FENCED device too; a vector with a held message and without. -/
theorem test_meets_AlarmsLift :
    served own Who.host = true ∧ own.zeroised = false ∧ (fix own [(Reg.EVT_STS_QDEV, 1)]).flag Reg.EVT_STS_QDEV = true ∧ own.flag Reg.EVT_STS_QDEV = false ∧ (paired .fenced).fab.role = .fenced ∧
    (({ own with evt := { own.evt with zeroise := 4 } } : State).zeroised = true ∧ (7 : Fin 8).val ∈ ({ own with evt := { own.evt with msixHeld := [7] } } : State).evt.msixHeld ∧ (7 : Fin 8).val ∉ own.evt.msixHeld ∧ own.evt.msixHeld = []) := by
  decide +kernel

/-- CountersServe: a counter before its last value and at it, the window busy and not, the clear busy and not. -/
theorem test_meets_CountersServe :
    ((let t := { own with cnt := { own.cnt with vals := [(Reg.FAB_MARK_RETRIES, 2 ^ 48 - 1)] } }
   2 ^ 48 ≤ t.ctr Reg.FAB_MARK_RETRIES + 1 ∧ t.ctr Reg.FAB_MARK_RETRIES < 2 ^ 48 ∧ own.ctr Reg.FAB_MARK_RETRIES + (2 ^ 48 - 1) < 2 ^ 48 ∧ own.evt.log.length < 1024)) ∧
    (served own Who.host = true ∧ own.winBusy .pcie = false ∧ (own.modPath .pcie (fun y => { y with cntWin := 0x80000000 })).winBusy .pcie = true ∧ own.flag Reg.CNT_CLEAR_BUSY = false ∧ (fix own [(Reg.CNT_CLEAR_BUSY, 1)]).flag Reg.CNT_CLEAR_BUSY = true ∧ mlook 0 Reg.CNT_CLEAR own.locks = 0 ∧ mlook 0 Reg.SPT_TAIL own.locks = 0) := by
  decide +kernel

/-- HaltHolds: a halted device with a command in front that is no reset. -/
theorem test_meets_HaltHolds :
    ((let h : State := { own with pending := [.helloTx], ctl := { own.ctl with cond := .halted }, evt := { own.evt with frozen := true } }
   h.halted = true ∧ h.evt.frozen = true ∧ h.pending.head? = some .helloTx ∧ Instr.helloTx ≠ .powerOnReset ∧ Instr.helloTx ≠ .railBelowReset .core ∧ Instr.helloTx ≠ .railBelowReset .aux)) := by
  decide +kernel

/-- OnlyRingmasterCommands: a path that is not ringmaster. -/
theorem test_meets_OnlyRingmasterCommands :
    own.running = true ∧ own.dormant = false ∧ own.isOwner Who.service = false ∧ Who.service.path ≠ .firmware ∧ up.isOwner Who.host = false ∧ own.isOwner Who.fw = false := by
  decide +kernel

/-! ### Well-formedness: each check refuses an ill-formed command -/

/-- LNF has lanes 0 to 15 and quads 0 to 3 (R97, R98). -/
theorem test_wf_lanes :
    (Instr.laneRestart Who.host ⟨.lnf, 15⟩).wf = true ∧ (Instr.laneCfgWrite Who.host ⟨.lnf, 16⟩ 0).wf = false ∧ (Instr.laneRestart Who.host ⟨.lnf, 16⟩).wf = false ∧ (Instr.lanePrbsCfgWrite Who.host ⟨.lnf, 16⟩ 0).wf = false ∧
    (Instr.cdrLock ⟨.lnf, 16⟩).wf = false ∧ (Instr.cdrUnlock ⟨.lnf, 16⟩).wf = false ∧ (Instr.los ⟨.lnf, 16⟩).wf = false ∧ (Instr.signalStable ⟨.lnf, 16⟩).wf = false ∧ (Instr.stepResume ⟨.lnf, 16⟩).wf = false ∧ (Instr.rungTimeout ⟨.lnf, 16⟩).wf = false ∧ (Instr.failRetry ⟨.lnf, 16⟩).wf = false ∧
    (Instr.anPageReceived ⟨.lnf, 16⟩ .base).wf = false ∧ (Instr.anTimerExpiry ⟨.lnf, 16⟩).wf = false ∧ (Instr.ieeeTrainDone ⟨.lnf, 16⟩).wf = false ∧ (Instr.ieeeTrainTimeout ⟨.lnf, 16⟩).wf = false ∧ (Instr.prbsLock ⟨⟨.lnf, 16⟩, []⟩).wf = false ∧
    (Instr.injOnce Who.host ⟨.lnf, 16⟩).wf = false ∧ (Instr.injBurst ⟨.lnf, 16⟩).wf = false ∧ (Instr.ktfTx ⟨.lnf, 16⟩).wf = false ∧
    (Instr.quadPowered .lnf 3).wf = true ∧ (Instr.quadPowered .lnf 4).wf = false := by
  decide +kernel

/-- A training frame has 64 bytes, the head and overhead of a lane frame 64, a cell 256, a heartbeat 18, a line of memory 64. -/
theorem test_wf_frames :
    (Instr.ktfReceived ⟨.lnl, 0⟩ [] (List.replicate 64 0) 512 512).wf = true ∧ (Instr.ktfReceived ⟨.lnl, 0⟩ [] (List.replicate 63 0) 512 0).wf = false ∧ (Instr.ktfReceived ⟨.lnl, 0⟩ [] (List.replicate 64 0) 512 513).wf = false ∧ (Instr.ktfReceived ⟨.lnf, 16⟩ [] (List.replicate 64 0) 512 0).wf = false ∧
    (Instr.fabCellRx 0 0 true (List.replicate 256 0)).wf = true ∧ (Instr.fabCellRx 0 0 true (List.replicate 255 0)).wf = false ∧ (Instr.lvdsHeartbeatRx (List.replicate 18 0)).wf = true ∧ (Instr.lvdsHeartbeatRx []).wf = false ∧
    (Instr.mgdWriteComplete .vault 0 (List.replicate 64 0)).wf = true ∧ (Instr.mgdWriteComplete .vault 0 []).wf = false ∧ (Instr.prbsLockLost ⟨.lnl, 0⟩ 8 8).wf = true ∧ (Instr.prbsLockLost ⟨.lnl, 0⟩ 8 9).wf = false ∧
    (Instr.mbxDone 0 (List.replicate 16 0)).wf = true ∧ (Instr.mbxDone 0 (List.replicate 17 0)).wf = false ∧ (Instr.fwFrameTx 0 (List.replicate 14 0)).wf = true ∧ (Instr.fwFrameTx 0 (List.replicate 13 0)).wf = false ∧
    (Instr.korCodeword ⟨.lnf, 0⟩ ⟨0, List.replicate 5440 false⟩).wf = true ∧ (Instr.korCodeword ⟨.lnc, 0⟩ ⟨0, List.replicate 5440 false⟩).wf = false ∧ (Instr.korCodeword ⟨.lnl, 0⟩ ⟨0, []⟩).wf = false ∧ (Instr.korLaneFrameRx 0 0 (List.replicate 8 0) (List.replicate 56 0) 0).wf = true ∧ (Instr.korLaneFrameRx 0 0 [] [] 0).wf = false ∧
    (Instr.memVerdict 0 true true ⟨0, List.replicate 64 0, List.replicate 8 0⟩ 0).wf = true ∧ (Instr.memVerdict 0 true true ⟨0, [], []⟩ 0).wf = false ∧ (Instr.fecInterval .client 0 0 0 [1]).wf = true ∧ (Instr.fecInterval .client 0 0 0 (List.replicate 17 0)).wf = false ∧
    (Instr.cueRxFrame 0 [1]).wf = true ∧ (Instr.cueRxFrame 0 []).wf = false ∧ (Instr.cueRxFrame 0 (List.replicate 261 0)).wf = false := by
  decide +kernel

/-! ### Worked examples of the spec, and single steps -/

/-- The state that a command leaves. -/
def after (c : Instr) (s : State) : State := match exec c s with
  | .next t => t
  | .fault _ => s
  | .refused _ => s

/-- 02's example after R65: KOR[5] of the call sheet starts at 0x1080. -/
theorem test_sheet_example :
    own.sheetWord 0x1080 = 0x001A0005 ∧ own.sheetWord 0x1088 = 0x001A5000 ∧ own.sheetWord 0x1090 = 0x1000 ∧ own.sheetWord 0x1098 >>> 16 = 125 ∧ winOf 0x1A5000 = .kor := by
  decide +kernel

/-- 05's example after R183: the base counts of the first four frame periods. -/
theorem test_stream_example :
    [0, 1, 2, 3].map baseSlots = [1926, 1927, 1927, 1926] := by
  decide +kernel

/-- 06's example after R215: the result of a PROTECT entry for association 0x01A2B with TS_SEL 5. -/
theorem test_result_example :
    resultOk 0x4068AC05 = true ∧ bits (0x4068AC05 : Word) 31 30 = 1 ∧ bits (0x4068AC05 : Word) 29 10 = 0x1A2B ∧ bits (0x4068AC05 : Word) 9 0 = 5 := by
  decide +kernel

/-- 12's example after R450: after (3, 0xFF_FFFF_FFFF) comes (4, 0). -/
theorem test_counter_example :
    nextCounter (3, 0xFFFFFFFFFF) = (4, 0) := by
  decide +kernel

/-- 10's example after R378: an hour of DORMANT with a crystal 30 ppm slow. -/
theorem test_sleep_example :
    sleepTicks 117964800 (BitVec.ofInt 32 (-30000)) = 2880086400000 ∧ sleepBound 117964800 (BitVec.ofInt 32 (-30000)) = 72003160 := by
  decide +kernel

/-- 10's example after R383: IN_LAT 2.5 ns, OUT_LAT 1.0 ns, in at 40,000 ns and out at 41,600 ns. -/
theorem test_residence_example :
    (fix up [(Reg.TIM_PORT_LAT_IN_LAT 5, 20), (Reg.TIM_PORT_LAT_OUT_LAT 37, 8)]).residence 5 37 32000 33280 = 0x06438000 := by
  decide +kernel

/-- 15's example after R544: FRM_SAFETY_NET on pair 3 and DEGRADE on pair 7 quiesce 0x88; a release of 0x08 leaves 0x80. -/
theorem test_events_example :
    ((let m := fix own [(Reg.EVT_MAP_RUNG 0x30 5, 2), (Reg.EVT_MAP_RUNG 0x1A 9, 2)]
   let t := raise (raise m 0x3005 3 0 (some 3)) 0x1A09 7 0 (some 7)
   t.rd Reg.EVT_QUIESCE_PORTS = 0x88 ∧ t.evt.log.length = 2 ∧ (after (.releasePorts Who.host 8) t).rd Reg.EVT_QUIESCE_PORTS = 0x80)) := by
  decide +kernel

/-- 14's example after R534: a DORMANT request never replaces a pending wake; it is counted in GAF_SUPERSEDED (R511). -/
theorem test_superseded_example :
    ((let s := fix own [(Reg.GAF_STS_STATE, 1), (Reg.GAF_POLICY_ALLOW_DORMANT, 1)]
   let t := after (.gafRequest Who.host 3) { s with gaf := { s.gaf with trans := some (moving 4 []), pend := some 0 } }
   t.gaf.pend = some 0 ∧ t.ctr Reg.GAF_SUPERSEDED = 1)) := by
  decide +kernel

/-- 13's example after R500: at the loss of the second path a STAND_IN at epoch 7 becomes ACTIVE at epoch 8. -/
theorem test_takeover_example :
    ((let l : PathTick := { got := false, misses := 4, goodRun := 0, lost := true }
   let s := fix (paired .standIn) [(⟨Reg.FAB_EPOCH, 31, 0⟩, 7)]
   let t := after (.hbTick .lvds) { s with fab := { s.fab with partnerEpoch := 7, fabTick := l, lvdsTick := { got := false, misses := 3, goodRun := 0, lost := false } } }
   t.fab.role = .active ∧ t.rd Reg.FAB_EPOCH = 8)) := by
  decide +kernel

/-- R55: CLAIM makes the path ringmaster of an unowned device and changes nothing of an owned one's ownership. -/
theorem test_claim :
    (after (.claim Who.host.alone) up).get Reg.CTL_OWNER_STATE = 1 ∧ (after (.claim Who.host.alone) up).get Reg.CTL_OWNER_OWNER_PATH = 1 ∧ (after (.claim Who.service.alone) own).get Reg.CTL_OWNER_OWNER_PATH = 1 := by
  decide +kernel

/-- R50: a write that is not aligned does nothing and is counted in CTL_FAULT_ALIGN. -/
theorem test_misaligned :
    (after (.regWrite Who.host 0x200002 7) own).ctr Reg.CTL_FAULT_ALIGN = 1 ∧ (after (.regWrite Who.host 0x200002 7) own).regs = own.regs := by
  decide +kernel

/-- The command at the front of the queue runs, and the rest waits. -/
theorem test_front :
    ((match step { up with pending := [.claim Who.host.alone, .helloTx] } with
   | .next t => decide (t.pending = [.helloTx]) && decide (t.get Reg.CTL_OWNER_STATE = 1)
   | _ => false) = true) := by
  decide +kernel

/-- The CRC-16 of R160 and the CRC-32 of IEEE 802.3 over the nine digits: the published check values of both. -/
theorem test_crc_check :
    crc16 [0x31, 0x32, 0x33, 0x34, 0x35, 0x36, 0x37, 0x38, 0x39] = 0x29B1 ∧ crc32 [0x31, 0x32, 0x33, 0x34, 0x35, 0x36, 0x37, 0x38, 0x39] = 0xCBF43926 := by
  decide +kernel

/-- R104: the Gray code of PAM4, and its decoding; R113: a swapped pair inverts the first bit of each pair. -/
theorem test_gray_levels :
    symbolsOf 4 [false, false, false, true, true, true, true, false] = [.pam4 (-3), .pam4 (-1), .pam4 1, .pam4 3] ∧ symbolBits (symbolsOf 3 [true, false, false, true]) = [true, false, false, true] ∧
    bitsOf [0x81] = [true, false, false, false, false, false, false, true] ∧ symbolBits ((symbolsOf 3 (bitsOf [0x1B])).map swapSymbol) = flipBits 3 (bitsOf [0x1B]) := by
  decide +kernel

/-- R563, R564: 1,764 balls, and the exact count of each supply group. -/
theorem test_ball_counts :
    allBalls.length = 1764 ∧ (allBalls.filter (fun b => decide (ballAt b.1 b.2 = .vss))).length = 693 ∧ (allBalls.filter (fun b => decide (ballAt b.1 b.2 = .vddCore))).length = 230 ∧
    (allBalls.filter (fun b => decide (ballAt b.1 b.2 = .vddaSd))).length = 84 ∧ (allBalls.filter (fun b => decide (ballAt b.1 b.2 = .vddhSd))).length = 46 ∧ (allBalls.filter (fun b => decide (ballAt b.1 b.2 = .vddqDdr))).length = 40 ∧ (allBalls.filter (fun b => decide (ballAt b.1 b.2 = .vddAux))).length = 12 := by
  decide +kernel

/-- R12 and R568: ball names, and the signals of three of them. -/
theorem test_ball_names :
    ballName 1 12 = "A12" ∧ ballName 33 12 = "AP12" ∧ ballName 42 42 = "BD42" ∧ ballAt 5 1 = .laneTx .lnc 0 false := by
  decide +kernel

end Sys2Proof.Tests
end

section
/-! SUPPORT. The canonical form of registers, locks and counters (00 R5, R8; 02 R71): every register write, count, event and reset
keeps it. -/

namespace Sys2Proof.Machine

/-! ### What keeps the canonical form -/

theorem Tidy.wr {s : State} (h : Tidy s) (off : Nat) (v : Word) : Tidy (s.wr off v) :=
  ⟨mcanon_mstore regReset off v h.1, h.2.1, h.2.2⟩

/-- What stands beside the registers, the locks and the counters is no part of the form. -/
theorem Tidy.beside {s t : State} (h : Tidy s) (r : t.regs = s.regs) (l : t.locks = s.locks) (c : t.cnt = s.cnt) : Tidy t := by
  unfold Tidy
  rw [r, l, c]
  exact h

theorem Tidy.set {s : State} (h : Tidy s) (f : Field) (n : Nat) : Tidy (s.set f n) := h.wr _ _

theorem Tidy.setFlag {s : State} (h : Tidy s) (f : Field) (b : Bool) : Tidy (s.setFlag f b) := h.set _ _

theorem Tidy.wrs (ws : List Word) : ∀ {s : State}, Tidy s → ∀ off, Tidy (s.wrs off ws) := by
  induction ws with
  | nil => exact fun h _ => h
  | cons w ws ih => exact fun h off => ih (h.wr off w) (off + 4)

theorem Tidy.ite {s t : State} {p : Prop} [Decidable p] (h : Tidy s) (k : Tidy t) : Tidy (if p then s else t) := by
  split
  exacts [h, k]

theorem Tidy.foldl {α : Type} {f : State → α → State} (hf : ∀ s x, Tidy s → Tidy (f s x)) (l : List α) :
    ∀ {s : State}, Tidy s → Tidy (l.foldl f s) := by
  induction l with
  | nil => exact fun h => h
  | cons x l ih => exact fun h => ih (hf _ x h)

/-- A counter's new value keeps the counters' form; nothing else of the counting unit is part of it. -/
theorem Tidy.bumpRaw {s : State} (h : Tidy s) (off n : Nat) : Tidy (s.bumpRaw off n) := by
  have store (v : Nat) : mcanon (fun _ => (0 : Nat)) (mstore 0 off v s.cnt.vals) = true := mcanon_mstore (fun _ => 0) off v h.2.2
  unfold State.bumpRaw
  exact Tidy.ite ⟨h.1, h.2.1, store _⟩ ⟨h.1, h.2.1, store _⟩

/-! ### Events (R539 to R548) -/

theorem Tidy.sendMsix {s : State} (h : Tidy s) (v : Nat) : Tidy (sendMsix s v) := by
  unfold Machine.sendMsix
  exact Tidy.ite (h.beside rfl rfl rfl) (h.beside rfl rfl rfl)

theorem Tidy.setPend {s : State} (h : Tidy s) (id : Nat) : Tidy (setPend s id) := by
  unfold Machine.setPend
  exact Tidy.ite h (Tidy.ite ((h.wr _ _).sendMsix _) (h.wr _ _))

theorem Tidy.quiesceDevice {s : State} (h : Tidy s) : Tidy (quiesceDevice s) := by
  have quiesced := h.setFlag Reg.EVT_STS_QDEV true
  have yields := quiesced.setFlag Reg.FAB_STS_YIELD true
  unfold Machine.quiesceDevice fenceOnAlarm
  exact Tidy.ite (Tidy.ite (yields.beside rfl rfl rfl) yields) quiesced

theorem Tidy.zeroSlotSts {s : State} (h : Tidy s) : Tidy (zeroSlotSts s) := by
  unfold Machine.zeroSlotSts
  exact Tidy.foldl (fun _ _ k => k.wr _ _) _ h

theorem Tidy.zeroStaging {s : State} (h : Tidy s) : Tidy (zeroStaging s) := by
  unfold Machine.zeroStaging
  exact ((h.wrs _ _).wrs _ _).wrs _ _

theorem Tidy.keysGone {s : State} (h : Tidy s) : Tidy (keysGone s) := h.beside rfl rfl rfl

theorem Tidy.zeroiseWorking {s : State} (h : Tidy s) : Tidy (zeroiseWorking s) := by
  rw [zeroiseWorking_eq]
  exact (h.zeroStaging.zeroSlotSts.setFlag _ _).keysGone

theorem Tidy.zeroiseVault {s : State} (h : Tidy s) : Tidy (zeroiseVault s) := h.beside rfl rfl rfl

theorem Tidy.lanesOff {s : State} (h : Tidy s) : Tidy (lanesOff s) := by
  unfold Machine.lanesOff
  exact Tidy.foldl (fun _ _ k => (k.set _ _).set _ _) _ h

theorem Tidy.haltNow {s : State} (h : Tidy s) (r : LogRec) : Tidy (haltNow s r) := by
  have off := (h.setFlag Reg.CTL_BOOT_HEALTHY false).lanesOff
  unfold Machine.haltNow
  dsimp only
  generalize Machine.lanesOff _ = t at off ⊢
  exact off.beside rfl rfl rfl

theorem Tidy.pushLog {s : State} (h : Tidy s) (r : LogRec) : Tidy (pushLog s r) := by
  unfold Machine.pushLog
  exact Tidy.ite (h.beside rfl rfl rfl) (h.bumpRaw _ _)

theorem Tidy.respond {s : State} (h : Tidy s) (rung id : Nat) (pair : Option Nat) (r : LogRec) : Tidy (respond s rung id pair r) := by
  have pended : Tidy (if 1 ≤ rung then Machine.setPend s id else s) := Tidy.ite (h.setPend id) h
  have quiesced : Tidy (if 2 ≤ rung then
      (match pair with
        | some k => quiescePort (if 1 ≤ rung then Machine.setPend s id else s) k
        | none => if 1 ≤ rung then Machine.setPend s id else s)
      else if 1 ≤ rung then Machine.setPend s id else s) := by
    cases pair with
    | none => exact Tidy.ite pended pended
    | some k => exact Tidy.ite (pended.wr _ _) pended
  have device := Tidy.ite (p := 3 ≤ rung ∨ (rung = 2 ∧ pair = none)) quiesced.quiesceDevice quiesced
  have working := Tidy.ite (p := rung = 4 ∨ rung = 5) device.zeroiseWorking device
  have zeroised := Tidy.ite (p := rung = 5) working.zeroiseVault working
  unfold Machine.respond
  dsimp only
  exact Tidy.ite (zeroised.haltNow r) zeroised

theorem Tidy.raiseOne {s : State} (h : Tidy s) (rung id a0 a1 : Nat) (pair : Option Nat) : Tidy (raiseOne s rung id a0 a1 pair) := by
  unfold Machine.raiseOne
  exact Tidy.ite h ((h.pushLog _).respond _ _ _ _)

theorem Tidy.raise {s : State} (h : Tidy s) (id a0 a1 : Nat) (pair : Option Nat) : Tidy (raise s id a0 a1 pair) := by
  have one := h.raiseOne (rungOf s id) id a0 a1 pair
  unfold Machine.raise raiseAt
  dsimp only
  generalize Machine.raiseOne s (rungOf s id) id a0 a1 pair = t at one ⊢
  exact Tidy.ite ((one.beside (t := { t with evt := { t.evt with ovfRaised := true } }) rfl rfl rfl).raiseOne _ _ _ _ _) one

/-- Counting keeps the form, with the wrap's event and without (R8, R551). -/
theorem Tidy.bump {s : State} (h : Tidy s) (off n : Nat) : Tidy (s.bump off n) := by
  have raw := h.bumpRaw off n
  have wrapped : Tidy { s.bumpRaw off n with cnt := { (s.bumpRaw off n).cnt with lastWrap := some s.clk } } := raw
  unfold State.bump
  exact Tidy.ite (Tidy.ite (wrapped.raise _ _ _ _) wrapped) raw

theorem Tidy.inc {s : State} (h : Tidy s) (off : Nat) : Tidy (s.inc off) := h.bump off 1

/-! ### Register writes, and what a path's write passes -/

theorem Tidy.storeReg {s : State} (h : Tidy s) (off : Nat) (v : Word) : Tidy (storeReg off v s) := by
  unfold Machine.storeReg storeAt
  split
  · exact h
  · exact Tidy.wr (Tidy.ite (h.inc _) h) _ _

/-- A write keeps the form where its effect does: what it passes only counts (R53, R54, R520). -/
theorem Tidy.gate {s : State} {op : State → State} (h : Tidy s) (k : Tidy (op s)) (who : Who) (c : WriteClass) (off : Nat) :
    Tidy (gate who c off op s) := by
  rcases gate_cases who c off op s with ⟨-, e⟩ | ⟨-, -, -, e⟩ | ⟨-, -, -, e⟩ | ⟨-, -, -, e⟩
  · rw [e]; exact h
  · rw [e]; exact h.inc _
  · rw [e]; exact h.inc _
  · rw [e]; exact k

/-! ### Resets (R92, R449, R575) -/

theorem Tidy.drbg {s : State} (h : Tidy s) : Tidy s.drbg.2 := by
  have counted : Tidy { s.draw.2 with vlt := { s.draw.2.vlt with requests := 0 } } := h
  unfold State.drbg
  dsimp only
  split
  · exact h
  · exact counted.inc _

theorem Tidy.newBbs {s : State} (h : Tidy s) : Tidy (newBbs s) := h.drbg

theorem Tidy.modBank {s : State} (h : Tidy s) (one : Bool) (f : Bank → Bank) : Tidy (s.modBank one f) := h

theorem Tidy.burnEpoch {s : State} (h : Tidy s) : Tidy (burnEpoch s) :=
  Tidy.raise (Tidy.setFlag (s := s.modVlt (fun v => { v with otp := { v.otp with epoch := v.otp.epoch + 1 } })) h _ _) _ _ _ _

/-- Every step of an update keeps the form, so however many of them a cut leaves done do (R449). -/
theorem updSteps_tidy (v : Vlt) (m : List Byte) : ∀ f ∈ updSteps v m, ∀ s, Tidy s → Tidy (f s) := by
  have burns : ∀ f ∈ burnSteps v m, ∀ s, Tidy s → Tidy (f s) := by
    unfold burnSteps
    dsimp only
    intro f hf s h
    repeat' split at hf
    all_goals simp only [List.mem_cons, List.not_mem_nil, or_false] at hf
    all_goals rcases hf with rfl | rfl <;> exact h
  have commits : ∀ f ∈ commitSteps v (newRecord m), ∀ s, Tidy s → Tidy (f s) := by
    unfold commitSteps
    dsimp only
    intro f hf s h
    split at hf
    · simp at hf
    · simp only [List.mem_cons, List.not_mem_nil, or_false] at hf
      rcases hf with rfl | rfl | rfl | rfl
      · exact h.modBank _ _
      · exact h.modBank _ _
      · exact Tidy.ite h.burnEpoch h
      · exact h.modBank _ _
  intro f hf s h
  unfold updSteps at hf
  rcases List.mem_append.1 hf with hf | hf
  · split at hf
    · simp at hf
    · rcases List.mem_append.1 hf with hf | hf
      · exact burns f hf s h
      · rw [List.mem_singleton.1 hf]
        exact h.newBbs
  · exact commits f hf s h

theorem runSteps_tidy (fs : List (State → State)) (hf : ∀ f ∈ fs, ∀ s, Tidy s → Tidy (f s)) : ∀ {s : State}, Tidy s → Tidy (runSteps fs s) := by
  induction fs with
  | nil => exact fun h => h
  | cons f fs ih => exact fun h => ih (fun g hg => hf g (List.mem_cons_of_mem _ hg)) (hf f List.mem_cons_self _ h)

theorem Tidy.updCut {s : State} (h : Tidy s) : Tidy (updCut s) := by
  have drawn : Tidy s.draw.2 := h
  unfold Machine.updCut
  split
  · exact h
  · exact runSteps_tidy _ (fun f hf => updSteps_tidy _ _ f (List.mem_of_mem_take hf)) drawn

/-- A reset leaves some of the registers, no lock and no count. -/
theorem Tidy.enterReset {s : State} (h : Tidy s) (lost : Bool) : Tidy (enterReset s lost) :=
  ⟨mcanon_filter regReset _ h.updCut.1, rfl, rfl⟩

/-! ### Completion -/

/-- Each command's meaning is a next state by its definition: none has an arm that stops. -/
theorem exec_next (c : Instr) (s : State) : ∃ t, exec c s = .next t := by
  cases c <;> exact ⟨_, rfl⟩

end Sys2Proof.Machine

namespace Sys2Proof.Proofs
open Sys2Proof.Machine

/-- Settles O60: each operation's own lemma, from the canonical form of the sparse data that it stores into. -/
theorem tidyKept : Obligations.TidyKept := by
  intro s who cls off n v f ws op h
  refine ⟨h.wr off v, h.set f n, h.wrs ws off, h.bump off n, h.storeReg off v, fun id a0 a1 pair => h.raise id a0 a1 pair,
    fun b => h.enterReset b, fun hop => ⟨h.gate (hop s h) who cls off, ?_⟩⟩
  exact Tidy.ite (hop s h) h

/-- Settles O59: a step is one tick, or the command at the front of the queue. -/
theorem everyCommandCompletes : Obligations.EveryCommandCompletes := by
  refine ⟨exec_next, fun s => ?_⟩
  unfold step
  split
  · exact ⟨_, rfl⟩
  · exact exec_next _ _

end Sys2Proof.Proofs
end

section
/-! SUPPORT. An access that finds none of its path's waiting, and the write and the read that it makes (00 R3 to R7; 02 R52 to R54;
14 R518, R520). -/

namespace Sys2Proof.Machine

/-! ### When an access is served at once -/

/-- With none of its path's accesses waiting, one that does not stall is served at once. -/
theorem arrive_now {a : Held} {s : State} (h : NoneWaits s a.who.path) (k : s.stallsAt a.off = false) : arrive a s = serveAccess a s := by
  unfold arrive
  rw [if_pos ⟨h, k⟩]

/-- A write below the remote aperture has its effect at once. -/
theorem regWrite_now {s : State} {who : Who} {off : BitVec 28} (val : Word) (h : NoneWaits s who.path) (k : s.stallsAt off.toNat = false)
    (l : off.toNat % 4 ≠ 0 ∨ off.toNat < 0x1000000) : exec (.regWrite who off val) s = .next (pathWrite who off.toNat val s) := by
  have below : ¬ (0x1000000 ≤ off.toNat ∧ off.toNat < 0x2000000 ∧ off.toNat % 4 = 0) := by omega
  have served := arrive_now (a := { who := who, form := .bar, off := off.toNat, write := some val }) h k
  show Host.Outcome.next (regWriteOp who off.toNat val s) = _
  rw [regWriteOp, if_neg below, served]
  rfl

/-- What a read below the remote aperture leaves: its path's answer and the read's own effects. -/
def readNow (who : Who) (off : Nat) (s : State) : State := (pathRead who off s).2.emit (.readData who.path (pathRead who off s).1)

theorem regReadOp_now {s : State} {who : Who} {off : Nat} (a : s.answers = true) (h : NoneWaits s who.path)
    (k : s.stallsAt off = false) (l : off % 4 ≠ 0 ∨ off < 0x1000000) : regReadOp who off s = readNow who off s := by
  have below : ¬ (0x1000000 ≤ off ∧ off < 0x2000000 ∧ off % 4 = 0) := by omega
  have served := arrive_now (a := { who := who, form := .bar, off := off, write := none }) h k
  rw [regReadOp, if_neg below, if_pos a, served]
  rfl

theorem stallsAt_unaligned (s : State) {off : Nat} (h : off % 4 ≠ 0) : s.stallsAt off = false := by simp [State.stallsAt, h]

theorem stallsAt_dormant {s : State} (h : s.dormant = true) (off : Nat) : s.stallsAt off = false := by simp [State.stallsAt, h]

/-- Registers beyond the utility cipher engine do not stall. -/
theorem stallsAt_window (s : State) {off : Nat} (h : winOf off ≠ .uce) : s.stallsAt off = false := by simp [State.stallsAt, h]

theorem answers_running {s : State} (h : s.running = true) : s.answers = true := by simp [State.answers, h]

theorem not_halted_of_running {s : State} (h : s.running = true) : s.halted = false := by
  simp only [State.running, decide_eq_true_eq] at h
  simp [State.halted, h]

/-! ### Writes -/

theorem pathWrite_unaligned {who : Who} {off : Nat} (h : off % 4 ≠ 0) (val : Word) {s : State} (a : s.answers = true) :
    pathWrite who off val s = s.inc Reg.CTL_FAULT_ALIGN := by
  simp [pathWrite, h, misaligned, a]

theorem pathWrite_aligned {who : Who} {off : Nat} (h : off % 4 = 0) (val : Word) (s : State) :
    pathWrite who off val s = busWrite who off val s := by simp [pathWrite, h]

/-- A path that is not ringmaster may write neither a plain register nor, unless it is the firmware, what the firmware has an interface
of its own for (R53, R54). -/
theorem mayWrite_none {s : State} {who : Who} (h : s.isOwner who = false) {c : WriteClass}
    (k : c = .other ∨ (c = .fwOwn ∧ who.path ≠ .firmware)) : s.mayWrite who c = false := by
  rcases k with rfl | ⟨rfl, f⟩
  · simp [State.mayWrite, h]
  · simp [State.mayWrite, h, f]

/-- Outside its four windows a dormant device counts a write (R520). -/
theorem gate_dormant {s : State} (r : s.running = true) (h : s.dormant = true) {off : Nat} (k : dormantOpen off = false) (who : Who)
    (c : WriteClass) (op : State → State) : gate who c off op s = s.inc Reg.GAF_DORMANT_ACCESS := by
  simp [gate, r, h, k]

/-! ### Reads -/

theorem readNow_unaligned {who : Who} {off : Nat} (h : off % 4 ≠ 0) {s : State} (a : s.answers = true) :
    readNow who off s = (s.inc Reg.CTL_FAULT_ALIGN).emit (.readData who.path 0) := by
  simp [readNow, pathRead, h, misaligned, a]

theorem measureAt_dormant {s : State} (h : s.dormant = true) (off : Nat) : measureAt off s = s := by
  unfold measureAt
  simp only [h, Bool.not_true, Bool.and_false, Bool.false_and, Bool.false_eq_true, if_false]
  split <;> rfl

/-- Outside its four windows a dormant device answers 0 and counts (R520). -/
theorem readNow_dormant {s : State} (r : s.running = true) (h : s.dormant = true) {off : Nat} (al : off % 4 = 0)
    (k : dormantOpen off = false) (who : Who) :
    readNow who off s = (s.inc Reg.GAF_DORMANT_ACCESS).emit (.readData who.path 0) := by
  simp [readNow, pathRead, al, measureAt_dormant h, localRead, not_halted_of_running r, r, h, k]

/-- An aligned read of a device that serves it is its unit's. -/
theorem readNow_served {s : State} (h : Awake s) {off : Nat} (al : off % 4 = 0) (m : measureAt off s = s) (who : Who) :
    readNow who off s = (unitRead who off s).2.emit (.readData who.path (unitRead who off s).1) := by
  simp [readNow, pathRead, al, m, localRead, not_halted_of_running h.1, h.1, h.2]

/-- The low word of a 64-bit register is shown, and its high word latched (R7). -/
theorem unitRead_low {who : Who} {off : Nat} (h : isLow off = true) (p : off ≠ Reg.SPT_PORTS) (k : specialRead who off = none) (s : State) :
    unitRead who off s =
      (s.shows who off, s.modPath who.path (fun x => { x with latch := { off := some off, high := s.shows who (off + 4) } })) := by
  simp [unitRead, k, h, State.highShows, p]

/-- The high word of a 64-bit register comes from the path's latch, and is 0 where that is another register's (R7). -/
theorem unitRead_high {who : Who} {off : Nat} (h : isLow off = true) (p : off ≠ Reg.SPT_PORTS) (l : isLow (off + 4) = false)
    (k : specialRead who (off + 4) = none) (s : State) : unitRead who (off + 4) s =
      (if (s.path who.path).latch.off = some off then (s.path who.path).latch.high else 0, s) := by
  have head : ¬ off + 4 = Reg.SPT_PORTS_HI := fun e => p (by simp only [Reg.SPT_PORTS_HI, Reg.SPT_PORTS] at e ⊢; omega)
  simp [unitRead, k, l, isHigh, h, head]

/-- A BAR2 read of an awake device, by the place it names (R553). -/
theorem bar2ReadOp_awake {s : State} (h : Awake s) {x : Nat} (al : x % 4 = 0) : bar2ReadOp x s =
    if bar2Wide x then
      if x % 8 = 0 then
        (s.modCtl (fun c => { c with bar2 := { off := some x, high := s.bar2Word (x + 4) } })).emit (.bar2Data (s.bar2Word x))
      else s.emit (.bar2Data (if s.ctl.bar2.off = some (x - 4) then s.ctl.bar2.high else 0))
    else s.emit (.bar2Data (s.bar2Word x)) := by
  simp [bar2ReadOp, answers_running h.1, al, not_halted_of_running h.1, h.2]

/-! ### The parser's window (R48) -/

theorem ite_ne {α : Type} {p : Prop} [Decidable p] {a b c : α} (h : a ≠ c) (k : b ≠ c) : (if p then a else b) ≠ c := by
  split
  exacts [h, k]

theorem winOf_ne_prs {off : Nat} (h : off < 0x200000 ∨ 0x240000 ≤ off) : winOf off ≠ .prs := by
  unfold winOf
  refine ite_ne (by split <;> nofun) ?_
  rcases h with low | high
  · rw [if_pos low]
    split
    case h_3 => exact ite_ne nofun nofun
    all_goals exact nofun
  · rw [if_neg (by omega), if_neg (by omega)]
    repeat' refine ite_ne nofun ?_
    exact nofun

theorem winOf_prs {off : Nat} (h : winOf off = .prs) : 0x200000 ≤ off ∧ off < 0x240000 := by
  by_contra out
  exact winOf_ne_prs (by omega) h

/-- A write of the parser's window by the ringmaster is the register's own. -/
theorem regWrite_prs {s : State} {who : Who} {off : BitVec 28} (h : Serves s who) (w : NoneWaits s who.path) (k : winOf off.toNat = .prs)
    (al : off.toNat % 4 = 0) (val : Word) : exec (.regWrite who off val) s = .next (storeReg off.toNat val s) := by
  obtain ⟨low, high⟩ := winOf_prs k
  have loader : ¬ off.toNat = Reg.CTL_LOAD_CTRL := by simp only [Reg.CTL_LOAD_CTRL]; omega
  rw [regWrite_now val w (stallsAt_window s (by rw [k]; decide)) (by omega), pathWrite_aligned al, busWrite,
    gate_acts _ _ h.1 (h.mayWrite _), if_neg loader]
  simp [unitWrite, k]

/-! ### A write that meets a locked bit (R5, R71) -/

/-- Bits outside the mask of a masked write stay. -/
theorem masked_write_keeps (old val rw locked : Word) :
    ((old &&& ~~~ (rw &&& ~~~ locked)) ||| (val &&& (rw &&& ~~~ locked))) &&& locked = old &&& locked := by
  ext i
  simp only [BitVec.getElem_and, BitVec.getElem_or, BitVec.getElem_not]
  cases old[i] <;> cases val[i] <;> cases rw[i] <;> cases locked[i] <;> rfl

/-- Without W1C bits a write clears nothing. -/
theorem clearing_none (w val : Word) : w &&& ~~~ (val &&& 0) = w := by
  rw [show val &&& 0 = 0#32 from BitVec.and_zero, BitVec.not_zero, BitVec.and_allOnes]

/-- A write that would change a locked bit is counted and writes its register alone. -/
theorem storeReg_locked {off : Nat} {r : RegRow} (h : rowOf off = some r) {s : State} {val : Word} (w : w32 r.w1c = 0)
    (k : (s.rd off ^^^ val) &&& (mlook 0 off s.locks &&& w32 r.rwl) ≠ 0) :
    storeReg off val s = (s.inc Reg.CTL_FAULT_LOCK).wr off
      ((s.rd off &&& ~~~ (w32 r.rw &&& ~~~ (mlook 0 off s.locks &&& w32 r.rwl))) |||
        (val &&& (w32 r.rw &&& ~~~ (mlook 0 off s.locks &&& w32 r.rwl)))) := by
  simp only [storeReg, storeAt, h, w]
  rw [if_pos k, clearing_none]

end Sys2Proof.Machine

namespace Sys2Proof.Proofs
open Sys2Proof.Machine

/-- Settles O5: each access is served at once, and then refused by its alignment, by its path, or by the dormant device. -/
theorem accessesRefused : Obligations.AccessesRefused := by
  refine ⟨fun s who a w => ⟨?_, ?_, fun off val un => ⟨?_, ?_⟩⟩, fun s who off val aw own w al low st c => ?_,
    fun s who off data run dor w al low k => ⟨?_, ?_⟩⟩
  · simp [exec, execMisalignedAccess, misalignedOp, misaligned, a]
  · simp [exec, execMisalignedAccess, misalignedOp, misaligned, a]
  · rw [regWrite_now val w (stallsAt_unaligned s un) (.inl un), pathWrite_unaligned un val a]
  · show Host.Outcome.next (regReadOp who off.toNat s) = _
    rw [regReadOp_now a w (stallsAt_unaligned s un) (.inl un), readNow_unaligned un a]
  · rw [regWrite_now val w st (.inr low), pathWrite_aligned al, busWrite, gate_refuses _ _ aw (mayWrite_none own c)]
  · show exec (.regWrite who off data) s = _
    rw [regWrite_now data w (stallsAt_dormant dor _) (.inr low), pathWrite_aligned al, busWrite, gate_dormant run dor k]
  · show Host.Outcome.next (regReadOp who off.toNat s) = _
    rw [regReadOp_now (answers_running run) w (stallsAt_dormant dor _) (.inr low), readNow_dormant run dor al k]

/-- Settles O6: a read that is served is its unit's, and the units latch the low word's partner. -/
theorem wideReads : Obligations.WideReads := by
  refine ⟨fun s who off aw w lo p al top lo' sp sp' st st' m m' => ⟨?_, ?_⟩, fun s off aw al => ⟨fun wide al8 => ?_, fun wide al8 => ?_,
    fun narrow => ?_, fun hidden => ?_⟩⟩
  · show Host.Outcome.next (regReadOp who off.toNat s) = _
    rw [regReadOp_now (answers_running aw.1) w st (by omega), readNow_served aw al m, unitRead_low lo p sp]
  · have next : (off + 4).toNat = off.toNat + 4 := by
      rw [BitVec.toNat_add]
      exact Nat.mod_eq_of_lt (by show off.toNat + 4 < 2 ^ 28; omega)
    show Host.Outcome.next (regReadOp who (off + 4).toNat s) = _
    rw [next, regReadOp_now (answers_running aw.1) w st' (by omega), readNow_served aw (by omega) m', unitRead_high lo p lo' sp']
  · exact congrArg Host.Outcome.next ((bar2ReadOp_awake aw al).trans ((if_pos wide).trans (if_pos al8)))
  · exact congrArg Host.Outcome.next ((bar2ReadOp_awake aw al).trans ((if_pos wide).trans (if_neg al8)))
  · refine congrArg Host.Outcome.next ((bar2ReadOp_awake aw al).trans ?_)
    simp [narrow]
  · rw [State.bar2Word, if_pos hidden]

/-- Settles O4: a write of the parser's window is its register's own, whose locked bits lie outside the mask of what is stored. -/
theorem registerWrites : Obligations.RegisterWrites := by
  refine ⟨fun s who off val r h w k al row unlocked => ?_, fun s who off val r h w k al row room plain locked => ?_⟩
  · rw [regWrite_prs h w k al, storeReg_unlocked row unlocked]
  · refine ⟨_, regWrite_prs h w k al val, ?_, ?_, fun a ha => ?_⟩
    · rw [storeReg_locked row plain locked, State.wr_ctr, State.inc_eq s _ room]
      simp [State.ctr]
    · rw [storeReg_locked row plain locked, State.rd_wr, masked_write_keeps]
    · rw [storeReg_locked row plain locked, State.rd_wr_ne _ _ ha, State.inc_eq s _ room]
      rfl

end Sys2Proof.Proofs
end

section
/-! SUPPORT. Rules of the state that the commands' proofs share: which registers may differ, what a field holds, what a register keeps
of a write, the fields of a written word, and commands that BUSY refuses (00 R4, R5, R584). -/

namespace Sys2Proof.Machine

/-! ### Nothing but the named registers -/

theorem OnlyRegs.refl (offs : List Nat) (s : State) : OnlyRegs offs s s := ⟨rfl, fun _ _ => rfl⟩

theorem OnlyRegs.trans {offs : List Nat} {s t u : State} (h : OnlyRegs offs s t) (k : OnlyRegs offs t u) : OnlyRegs offs s u := by
  refine ⟨?_, fun a ha => (k.2 a ha).trans (h.2 a ha)⟩
  have regs := congrArg (fun x => State.mk x.pending x.clk x.draws x.out u.regs x.locks x.ctl x.lanes x.korLanes x.kor x.flt x.asc x.frm
    x.sch x.tim x.mgd x.vlt x.fab x.gaf x.aon x.evt x.cnt) h.1
  exact k.1.trans regs

theorem OnlyRegs.mono {offs offs' : List Nat} {s t : State} (h : OnlyRegs offs s t) (k : ∀ a ∈ offs, a ∈ offs') : OnlyRegs offs' s t :=
  ⟨h.1, fun a ha => h.2 a (fun m => ha (k a m))⟩

theorem onlyRegs_wr {offs : List Nat} {off : Nat} (m : off ∈ offs) (s : State) (v : Word) : OnlyRegs offs s (s.wr off v) :=
  ⟨rfl, fun _ ha => s.rd_wr_ne v (fun e => ha (e ▸ m))⟩

theorem OnlyRegs.wr {offs : List Nat} {s t : State} (h : OnlyRegs offs s t) {off : Nat} (m : off ∈ offs) (v : Word) :
    OnlyRegs offs s (t.wr off v) := h.trans (onlyRegs_wr m t v)

theorem OnlyRegs.set {offs : List Nat} {s t : State} (h : OnlyRegs offs s t) {f : Field} (m : f.off ∈ offs) (v : Nat) :
    OnlyRegs offs s (t.set f v) := h.wr m _

theorem OnlyRegs.setFlag {offs : List Nat} {s t : State} (h : OnlyRegs offs s t) {f : Field} (m : f.off ∈ offs) (b : Bool) :
    OnlyRegs offs s (t.setFlag f b) := h.set m _

theorem OnlyRegs.ite {offs : List Nat} {s t u : State} {p : Prop} [Decidable p] (h : OnlyRegs offs s t) (k : OnlyRegs offs s u) :
    OnlyRegs offs s (if p then t else u) := by
  split
  exacts [h, k]

/-- A register that no lock covers keeps of a write what its row lets it, and nothing else changes (R4, R5). -/
theorem onlyRegs_storeReg {offs : List Nat} {off : Nat} (m : off ∈ offs) {s : State} (k : mlook 0 off s.locks = 0) (v : Word) :
    OnlyRegs offs s (storeReg off v s) := by
  cases row : rowOf off with
  | none => rw [storeReg_none row]; exact OnlyRegs.refl _ _
  | some r => rw [storeReg_unlocked row k]; exact onlyRegs_wr m _ _

theorem OnlyRegs.get {offs : List Nat} {s t : State} (h : OnlyRegs offs s t) (f : Field) (k : f.off ∉ offs) : t.get f = s.get f := by
  simp only [State.get, h.2 _ k]

theorem OnlyRegs.flag {offs : List Nat} {s t : State} (h : OnlyRegs offs s t) (f : Field) (k : f.off ∉ offs) : t.flag f = s.flag f := by
  simp only [State.flag, h.get f k]

/-- Beside its registers the state is the one it comes from. -/
theorem OnlyRegs.eq {offs : List Nat} {s t : State} (h : OnlyRegs offs s t) : t = { s with regs := t.regs } := h.1

theorem OnlyRegs.clk_eq {offs : List Nat} {s t : State} (h : OnlyRegs offs s t) : t.clk = s.clk := (congrArg State.clk h.1).trans rfl
theorem OnlyRegs.flt_eq {offs : List Nat} {s t : State} (h : OnlyRegs offs s t) : t.flt = s.flt := (congrArg State.flt h.1).trans rfl
theorem OnlyRegs.sch_eq {offs : List Nat} {s t : State} (h : OnlyRegs offs s t) : t.sch = s.sch := (congrArg State.sch h.1).trans rfl
theorem OnlyRegs.tim_eq {offs : List Nat} {s t : State} (h : OnlyRegs offs s t) : t.tim = s.tim := (congrArg State.tim h.1).trans rfl
theorem OnlyRegs.mgd_eq {offs : List Nat} {s t : State} (h : OnlyRegs offs s t) : t.mgd = s.mgd := (congrArg State.mgd h.1).trans rfl
theorem OnlyRegs.vlt_eq {offs : List Nat} {s t : State} (h : OnlyRegs offs s t) : t.vlt = s.vlt := (congrArg State.vlt h.1).trans rfl
theorem OnlyRegs.evt_eq {offs : List Nat} {s t : State} (h : OnlyRegs offs s t) : t.evt = s.evt := (congrArg State.evt h.1).trans rfl
theorem OnlyRegs.cnt_eq {offs : List Nat} {s t : State} (h : OnlyRegs offs s t) : t.cnt = s.cnt := (congrArg State.cnt h.1).trans rfl

/-! ### Fields of a bit -/

theorem State.flag_setFlag (s : State) (f : Field) (b : Bool) (h : f.lo = f.hi) (hh : f.hi < 32) : (s.setFlag f b).flag f = b := by
  simp only [State.flag, State.setFlag, State.get_set s f (by omega) hh, h, show f.hi + 1 - f.hi = 1 by omega]
  cases b <;> rfl

theorem State.flag_set_apart (s : State) (g f : Field) (v : Nat) (h : g.lo ≤ g.hi) (hh : g.hi < 32) (o : f.off = g.off)
    (d : g.hi < f.lo ∨ f.hi < g.lo) : (s.set g v).flag f = s.flag f := by
  simp only [State.flag, State.get_set_apart s g f v h hh o d]

theorem State.flag_set_off (s : State) (g f : Field) (v : Nat) (h : f.off ≠ g.off) : (s.set g v).flag f = s.flag f := by
  simp only [State.flag, State.get_set_off s g f v h]

/-! ### What a register keeps of a write -/

/-- A field of writable bits, none of which a written 1 clears, takes the value written. -/
theorem bits_stored (old val rw w1c : Word) {hi lo : Nat} (hh : hi < 32)
    (h : ∀ i < 32, lo ≤ i → i ≤ hi → rw.getLsbD i = true ∧ w1c.getLsbD i = false) :
    bits (((old &&& ~~~ rw) ||| (val &&& rw)) &&& ~~~ (val &&& w1c)) hi lo = bits val hi lo := by
  apply Nat.eq_of_testBit_eq
  intro i
  simp only [bits, Nat.testBit_mod_two_pow, Nat.testBit_div_two_pow]
  by_cases inside : i < hi + 1 - lo
  · obtain ⟨hr, hw⟩ := h (i + lo) (by omega) (by omega) (by omega)
    simp only [inside, decide_true, Bool.true_and, BitVec.testBit_toNat, BitVec.getLsbD_and, BitVec.getLsbD_or, BitVec.getLsbD_not, hr, hw]
    simp [show i + lo < 32 by omega]
  · simp [inside]

/-- The field of an unlocked register that a write stores. -/
theorem get_storeReg {f : Field} {r : RegRow} (row : rowOf f.off = some r) {s : State} (k : mlook 0 f.off s.locks = 0) (val : Word)
    (hh : f.hi < 32) (h : ∀ i < 32, f.lo ≤ i → i ≤ f.hi → (w32 r.rw).getLsbD i = true ∧ (w32 r.w1c).getLsbD i = false) :
    (storeReg f.off val s).get f = fieldOf f val := by
  rw [storeReg_unlocked row k, State.get_wr, bits_stored _ _ _ _ hh h]
  rfl

/-! ### The fields of a written word -/

theorem bits_lt (w : Word) (hi lo : Nat) : bits w hi lo < 2 ^ (hi + 1 - lo) := Nat.mod_lt _ (Nat.two_pow_pos _)

/-- The last field put into a word reads as its value. -/
theorem fieldOf_setBits (w : Word) (f : Field) (h : f.lo ≤ f.hi) (hh : f.hi < 32) {v : Nat} (hv : v < 2 ^ (f.hi + 1 - f.lo)) :
    fieldOf f (setBits w f.hi f.lo v) = v := by
  rw [fieldOf, bits_setBits w h hh, Nat.mod_eq_of_lt hv]

/-- A field apart from the last one reads as it did. -/
theorem fieldOf_setBits_apart (w : Word) (f g : Field) (h : g.lo ≤ g.hi) (hh : g.hi < 32) (v : Nat) (d : g.hi < f.lo ∨ f.hi < g.lo) :
    fieldOf f (setBits w g.hi g.lo v) = fieldOf f w := bits_setBits_apart w h hh v d

/-- The first of two fields of a word. -/
theorem fieldOf_word_fst (f g : Field) {v : Nat} (w : Nat) (h : f.lo ≤ f.hi ∧ f.hi < 32) (k : g.lo ≤ g.hi ∧ g.hi < 32)
    (d : g.hi < f.lo ∨ f.hi < g.lo) (hv : v < 2 ^ (f.hi + 1 - f.lo)) : fieldOf f (word [(f, v), (g, w)]) = v :=
  (fieldOf_setBits_apart _ f g k.1 k.2 w d).trans (fieldOf_setBits 0 f h.1 h.2 hv)

/-- The second of two fields of a word. -/
theorem fieldOf_word_snd (f g : Field) (v : Nat) {w : Nat} (k : g.lo ≤ g.hi ∧ g.hi < 32) (hw : w < 2 ^ (g.hi + 1 - g.lo)) :
    fieldOf g (word [(f, v), (g, w)]) = w := fieldOf_setBits _ g k.1 k.2 hw

/-! ### Commands that BUSY refuses (R584) -/

theorem startUnlessBusy_refuses {busy : Field} {go : Bool} {op : State → State} {s : State} (g : go = true) (h : s.flag busy = true) :
    startUnlessBusy busy go op s = s.inc Reg.CTL_FAULT_BUSY := by simp [startUnlessBusy, unlessBusy, g, h]

theorem startUnlessBusy_acts {busy : Field} {op : State → State} {s : State} (h : s.flag busy = false) (go : Bool) :
    startUnlessBusy busy go op s = op s := by simp [startUnlessBusy, unlessBusy, h]

/-! ### Sparse data under a test of its keys -/

theorem mget_filter_key {α : Type} (q : Nat → Bool) (k : Nat) (m : SMap α) :
    mget k (m.filter (fun p => q p.1)) = if q k then mget k m else none := by
  induction m with
  | nil => simp [mget]
  | cons p m ih =>
    obtain ⟨j, w⟩ := p
    by_cases e : j = k
    · subst e
      by_cases hq : q j = true <;> simp [hq, mget, ih]
    · by_cases hq : q j = true <;> simp [hq, mget, ih, e]

/-- Numbers listed but for the zeros read as before. -/
theorem mlook_listed (f : Nat → Nat) {i : Nat} {l : List Nat} (h : i ∈ l) :
    mlook 0 i ((l.map (fun i => (i, f i))).filter (fun e => decide (e.2 ≠ 0))) = f i := by
  have listed : ∀ l : List Nat, mget i ((l.map (fun i => (i, f i))).filter (fun e => decide (e.2 ≠ 0))) =
      if i ∈ l ∧ f i ≠ 0 then some (f i) else none := by
    intro l
    induction l with
    | nil => simp [mget]
    | cons j l ih =>
      by_cases e : j = i
      · subst e
        by_cases z : f j = 0
        · simpa [z] using ih
        · simp [z, mget]
      · by_cases z : f j = 0
        · simpa [z, Ne.symm e] using ih
        · simpa [z, mget, e, Ne.symm e] using ih
  rw [mlook, listed l]
  by_cases z : f i = 0 <;> simp [h, z]

/-! ### A path's copies -/

@[simp] theorem State.path_modPath (s : State) (p : Path) (f : PathState → PathState) : (s.modPath p f).path p = f (s.path p) := by
  cases p <;> rfl

theorem State.path_modPath_ne (s : State) {p q : Path} (h : q ≠ p) (f : PathState → PathState) : (s.modPath p f).path q = s.path q := by
  cases p <;> cases q <;> first | rfl | exact absurd rfl h

@[simp] theorem State.modPath_regs (s : State) (p : Path) (f : PathState → PathState) : (s.modPath p f).regs = s.regs := by cases p <;> rfl

@[simp] theorem State.modPath_cnt (s : State) (p : Path) (f : PathState → PathState) : (s.modPath p f).cnt = s.cnt := by cases p <;> rfl

@[simp] theorem State.modPath_evt (s : State) (p : Path) (f : PathState → PathState) : (s.modPath p f).evt = s.evt := by cases p <;> rfl

theorem State.modPath_ctr (s : State) (p : Path) (f : PathState → PathState) (a : Nat) : (s.modPath p f).ctr a = s.ctr a := by
  cases p <;> rfl

end Sys2Proof.Machine
end

section
/-! SUPPORT. An event that finds room in the log, and the wrap of a counter (15 R545, R551). -/

namespace Sys2Proof.Machine

/-! ### What an event leaves of the counters -/

theorem cnt_ite {s t u : State} {p : Prop} [Decidable p] (h : t.cnt = s.cnt) (k : u.cnt = s.cnt) : (if p then t else u).cnt = s.cnt := by
  split
  exacts [h, k]

theorem cnt_foldl {α : Type} {f : State → α → State} (hf : ∀ s x, (f s x).cnt = s.cnt) (l : List α) (s : State) : (l.foldl f s).cnt = s.cnt := by
  induction l generalizing s with
  | nil => rfl
  | cons x l ih => rw [List.foldl_cons, ih, hf]

@[simp] theorem State.wrs_cnt (ws : List Word) : ∀ (s : State) (off : Nat), (s.wrs off ws).cnt = s.cnt := by
  induction ws with
  | nil => exact fun _ _ => rfl
  | cons w ws ih => exact fun s off => ih (s.wr off w) (off + 4)

theorem sendMsix_cnt (s : State) (v : Nat) : (sendMsix s v).cnt = s.cnt := by
  unfold sendMsix
  exact cnt_ite rfl rfl

theorem setPend_cnt (s : State) (id : Nat) : (setPend s id).cnt = s.cnt := by
  unfold setPend
  exact cnt_ite rfl (cnt_ite ((sendMsix_cnt _ _).trans (s.wr_cnt _ _)) (s.wr_cnt _ _))

theorem fenceOnAlarm_cnt (s : State) : (fenceOnAlarm s).cnt = s.cnt := by
  unfold fenceOnAlarm
  dsimp only
  split
  · split <;> exact s.setFlag_cnt Reg.FAB_STS_YIELD true
  · rfl

theorem quiesceDevice_cnt (s : State) : (quiesceDevice s).cnt = s.cnt := (fenceOnAlarm_cnt _).trans (s.setFlag_cnt _ _)

theorem zeroSlotSts_cnt (s : State) : (zeroSlotSts s).cnt = s.cnt := by
  unfold zeroSlotSts
  exact cnt_foldl (fun s i => s.wr_cnt _ _) _ s

theorem zeroStaging_cnt (s : State) : (zeroStaging s).cnt = s.cnt := by
  unfold zeroStaging
  simp only [State.wrs_cnt]

theorem keysGone_cnt (s : State) : (keysGone s).cnt = s.cnt := rfl

theorem zeroiseWorking_cnt (s : State) : (zeroiseWorking s).cnt = s.cnt := by
  rw [zeroiseWorking_eq, keysGone_cnt, State.setFlag_cnt, zeroSlotSts_cnt, zeroStaging_cnt]

theorem haltNow_cnt (s : State) (r : LogRec) : (haltNow s r).cnt = s.cnt := by
  have off : (lanesOff (s.setFlag Reg.CTL_BOOT_HEALTHY false)).cnt = s.cnt := by
    rw [lanesOff, cnt_foldl (fun s b => (State.set_cnt _ _ _).trans (s.set_cnt _ _)), State.setFlag_cnt]
  unfold haltNow
  dsimp only
  exact off

theorem respond_cnt (s : State) (rung id : Nat) (pair : Option Nat) (r : LogRec) : (respond s rung id pair r).cnt = s.cnt := by
  have last : ∀ u : State, u.cnt = s.cnt →
      (let v := if rung = 4 ∨ rung = 5 then zeroiseWorking u else u
       let w := if rung = 5 then zeroiseVault v else v
       if rung = 6 then haltNow w r else w).cnt = s.cnt := fun u hu =>
    have hv := cnt_ite (p := rung = 4 ∨ rung = 5) ((zeroiseWorking_cnt u).trans hu) hu
    have vault : ∀ v : State, (zeroiseVault v).cnt = v.cnt := fun _ => rfl
    have hw := cnt_ite (p := rung = 5) ((vault _).trans hv) hv
    cnt_ite ((haltNow_cnt _ _).trans hw) hw
  have pended : (if 1 ≤ rung then setPend s id else s).cnt = s.cnt := cnt_ite (setPend_cnt s id) rfl
  unfold respond
  cases pair with
  | none =>
    have quiesced := cnt_ite (p := 2 ≤ rung) pended pended
    exact last _ (cnt_ite ((quiesceDevice_cnt _).trans quiesced) quiesced)
  | some k =>
    have quiesced := cnt_ite (t := quiescePort (if 1 ≤ rung then setPend s id else s) k) (p := 2 ≤ rung) pended pended
    exact last _ (cnt_ite ((quiesceDevice_cnt _).trans quiesced) quiesced)

/-- An event that finds the log frozen or with room counts nothing: EVT_LOG_LOST alone counts, of a full log (R545). -/
theorem raise_cnt {s : State} (h : s.evt.frozen = true ∨ s.evt.log.length < 1024) (id a0 a1 : Nat) (pair : Option Nat) :
    (raise s id a0 a1 pair).cnt = s.cnt := by
  by_cases f : s.evt.frozen = true
  · rw [raise_frozen f]
  · have room : s.evt.log.length < 1024 := h.resolve_left f
    simp only [raise, raiseAt, raiseOne, f, pushLog, room, show ¬ 1024 ≤ s.evt.log.length by omega, Bool.false_eq_true, if_true, if_false,
      decide_false, false_and]
    exact respond_cnt _ _ _ _ _

/-! ### Counting (R8, R551) -/

theorem bump_below {s : State} {off n : Nat} (h : s.ctr off + n < 2 ^ 48) : s.bump off n = s.bumpRaw off n := by
  have w : s.wouldWrap off n = false := by simp [State.wouldWrap]; omega
  simp [State.bump, w]

theorem bumpRaw_below {s : State} {off n : Nat} (h : s.ctr off + n < 2 ^ 48) :
    s.bumpRaw off n = { s with cnt := { s.cnt with vals := mstore 0 off (s.ctr off + n) s.cnt.vals } } := by
  simp only [State.bumpRaw, h, if_true]

theorem bumpRaw_wraps {s : State} {off n : Nat} (h : 2 ^ 48 ≤ s.ctr off + n) :
    s.bumpRaw off n = { s with cnt := { s.cnt with
      vals := mstore 0 off ((s.ctr off + n) % 2 ^ 48) s.cnt.vals, wraps := ladd (ctrNumber off) s.cnt.wraps } } := by
  simp only [State.bumpRaw, show ¬ s.ctr off + n < 2 ^ 48 by omega, if_false]

theorem mem_ladd (x : Nat) (l : List Nat) : x ∈ ladd x l := by
  unfold ladd
  split
  · next h => simpa using h
  · simp

/-- Past its last value a counter begins again, sets its wrap bit and notes the time. -/
theorem bump_wraps_cnt {s : State} {off n : Nat} (h : 2 ^ 48 ≤ s.ctr off + n) (k : s.evt.frozen = true ∨ s.evt.log.length < 1024) :
    (s.bump off n).cnt = { s.cnt with
      vals := mstore 0 off ((s.ctr off + n) % 2 ^ 48) s.cnt.vals, wraps := ladd (ctrNumber off) s.cnt.wraps, lastWrap := some s.clk } := by
  have w : s.wouldWrap off n = true := decide_eq_true h
  have room : (s.bumpRaw off n).evt.frozen = true ∨ (s.bumpRaw off n).evt.log.length < 1024 := by rw [bumpRaw_wraps h]; exact k
  have raw := congrArg State.cnt (bumpRaw_wraps h)
  unfold State.bump
  rw [if_pos w]
  dsimp only at raw ⊢
  generalize s.bumpRaw off n = t at room raw
  have event (id a0 : Nat) := raise_cnt (s := { t with cnt := { t.cnt with lastWrap := some s.clk } }) room id a0 0 none
  refine (cnt_ite (event _ _) rfl).trans ?_
  dsimp only
  rw [raw]

end Sys2Proof.Machine
end

section
/-! SUPPORT. The alarm unit, the counters and the spotlight as they are commanded (15 R544, R548, R551, R552, R558). -/

namespace Sys2Proof.Machine

/-! ### The alarm unit -/

theorem liftQdev_idle {s : State} (h : s.zeroised = true ∨ s.flag Reg.EVT_STS_QDEV = false) : liftQdev s = s := by
  unfold liftQdev
  rw [if_pos h]

/-- No field is part of the role. -/
theorem ite_role_setFlag (s : State) (f : Field) (b : Bool) (r : Role) (t u : State) :
    (if (s.setFlag f b).fab.role = r then t else u) = if s.fab.role = r then t else u := rfl

/-- The device quiesce falls, and a FENCED device no longer yields. -/
theorem liftQdev_lifts {s : State} (h : s.zeroised = false) (k : s.flag Reg.EVT_STS_QDEV = true) : liftQdev s =
    if s.fab.role = .fenced then (s.setFlag Reg.EVT_STS_QDEV false).setFlag Reg.FAB_STS_YIELD false else s.setFlag Reg.EVT_STS_QDEV false := by
  unfold liftQdev
  rw [if_neg (by simp [h, k])]
  exact ite_role_setFlag _ _ _ _ _ _

theorem vectorMasked_wr (s : State) (v : Nat) (w : Word) : vectorMasked (s.wr (Reg.MSIX_TABLE v 3) w) v = w.getLsbD 0 := by
  simp [vectorMasked]

theorem unmasked_bit (w : Word) : (w &&& ~~~ 1#32).getLsbD 0 = false := by simp

/-- A vector that is unmasked sends the message it holds. -/
theorem sendHeld_sends {s : State} {v : Nat} (h : v ∈ s.evt.msixHeld) (k : vectorMasked s v = false) :
    sendHeld s v = (s.modEvt (fun e => { e with msixHeld := ldel v e.msixHeld })).emit (.msix v) := by
  simp [sendHeld, h, k]

/-- A vector that holds no message sends none. -/
theorem sendHeld_idle {s : State} {v : Nat} (h : v ∉ s.evt.msixHeld) : sendHeld s v = s := by simp [sendHeld, h]

theorem sendHeld_none {s : State} (h : s.evt.msixHeld = []) (l : List Nat) : l.foldl sendHeld s = s := by
  induction l with
  | nil => rfl
  | cons v l ih => rw [List.foldl_cons, sendHeld_idle (by simp [h]), ih]

theorem not_mem_ldel (v : Nat) (l : List Nat) : v ∉ ldel v l := by simp [ldel]

/-! ### The counters -/

/-- SNAP holds a group's counters as they stand (R552). -/
theorem snap_counter (s : State) (offs : List Nat) {i : Nat} (h : i < offs.length) :
    mlook 0 i (((List.range offs.length).map (fun i => (i, s.ctr (offs.getD i 0)))).filter (fun e => decide (e.2 ≠ 0))) =
      s.ctr (offs.getD i 0) :=
  mlook_listed (fun i => s.ctr (offs.getD i 0)) (List.mem_range.2 h)

/-- CLEAR of a group leaves its counters at 0 and every other as it was (R551). -/
theorem clearGroup_ctr (g : Nat) (s : State) (a : Nat) : (clearGroup g s).ctr a = if a ∈ groupOffs g then 0 else s.ctr a := by
  have vals : (clearGroup g s).cnt.vals = s.cnt.vals.filter (fun p => !(groupOffs g).contains p.1) := rfl
  rw [State.ctr, mlook, vals, mget_filter_key (fun k => !(groupOffs g).contains k)]
  by_cases h : a ∈ groupOffs g
  · simp [h]
  · simp [h, State.ctr, mlook]

theorem clearGroup_rd (g : Nat) (s : State) (a : Nat) : (clearGroup g s).rd a = s.rd a := rfl

theorem clearGroup_evt (g : Nat) (s : State) : (clearGroup g s).evt = s.evt := rfl

/-- The word that starts a command of a group, of CNT_WIN_CMD or CNT_CLEAR. -/
theorem groupWord_fields (g : BitVec 11) (off : Nat) :
    fieldOf ⟨off, 30, 30⟩ (word [(⟨off, 30, 30⟩, 1), (⟨off, 10, 0⟩, g.toNat)]) = 1 ∧
    fieldOf ⟨off, 10, 0⟩ (word [(⟨off, 30, 30⟩, 1), (⟨off, 10, 0⟩, g.toNat)]) = g.toNat :=
  ⟨fieldOf_word_fst _ _ _ (by simp) (by simp) (by simp) (by simp), fieldOf_word_snd _ _ _ (by simp) g.isLt⟩

theorem cntSnap_eq {s : State} (h : Awake s) (who : Who) (g : BitVec 11) : exec (.cntSnap who g) s = .next
    (if s.winBusy who.path then s.inc Reg.CTL_FAULT_BUSY
     else snapOp who.path g.toNat (s.modPath who.path (fun x => { x with
       cntWin := word [(Reg.CNT_WIN_CMD_GO, 1), (Reg.CNT_WIN_CMD_GROUP, g.toNat)] &&& 0x7FF#32 }))) := by
  obtain ⟨go, group⟩ := groupWord_fields g Reg.CNT_WIN_CMD
  show Host.Outcome.next (gate who .cntWin Reg.CNT_WIN_CMD _ s) = _
  rw [gate_acts _ _ h (by simp [State.mayWrite])]
  unfold winCmdWrite
  rw [show fieldOf Reg.CNT_WIN_CMD_GO (word [(Reg.CNT_WIN_CMD_GO, 1), (Reg.CNT_WIN_CMD_GROUP, g.toNat)]) = 1 from go,
    show fieldOf Reg.CNT_WIN_CMD_GROUP (word [(Reg.CNT_WIN_CMD_GO, 1), (Reg.CNT_WIN_CMD_GROUP, g.toNat)]) = g.toNat from group]
  simp

theorem cntClear_eq {s : State} {who : Who} (h : Serves s who) (g : BitVec 11) : exec (.cntClear who g) s = .next
    (if s.flag Reg.CNT_CLEAR_BUSY then s.inc Reg.CTL_FAULT_BUSY
     else clearGroup g.toNat (storeReg Reg.CNT_CLEAR (word [(Reg.CNT_CLEAR_GO, 1), (Reg.CNT_CLEAR_GROUP, g.toNat)]) s)) := by
  obtain ⟨go, group⟩ := groupWord_fields g Reg.CNT_CLEAR
  show Host.Outcome.next (gateOwner who Reg.CNT_CLEAR _ s) = _
  rw [gateOwner_acts _ _ h]
  unfold clearWrite
  rw [show fieldOf Reg.CNT_CLEAR_GO (word [(Reg.CNT_CLEAR_GO, 1), (Reg.CNT_CLEAR_GROUP, g.toNat)]) = 1 from go,
    show fieldOf Reg.CNT_CLEAR_GROUP (word [(Reg.CNT_CLEAR_GO, 1), (Reg.CNT_CLEAR_GROUP, g.toNat)]) = g.toNat from group]
  dsimp only
  cases b : s.flag Reg.CNT_CLEAR_BUSY with
  | true => rw [startUnlessBusy_refuses (by simp) b, if_pos rfl]
  | false => rw [startUnlessBusy_acts b]; simp

/-! ### The spotlight -/

/-- SPT_TAIL takes the index written (R558). -/
theorem sptTail_index {s : State} (k : mlook 0 Reg.SPT_TAIL s.locks = 0) (index : BitVec 12) :
    (storeReg Reg.SPT_TAIL (w32 index.toNat) s).get Reg.SPT_TAIL_INDEX = index.toNat := by
  have row : rowOf Reg.SPT_TAIL_INDEX.off = some ⟨0xC00010, 1, 4, 1, 4, 0, 0xFFF, 0, 0, 0⟩ := by decide +kernel
  have small := index.isLt
  refine (get_storeReg row k _ (by decide) (by decide)).trans ?_
  simp only [fieldOf, bits, w32, Reg.SPT_TAIL_INDEX, BitVec.toNat_ofNat]
  omega

end Sys2Proof.Machine

namespace Sys2Proof.Proofs
open Sys2Proof.Machine

/-- Settles O56: each command's own equation, and what a count at a counter's last value leaves. -/
theorem alarmsAndCounters : Obligations.AlarmsAndCounters := by
  refine ⟨fun s who ports v h => ⟨?_, fun z q => ?_, fun idle => ?_, fun held => ?_, fun free => ?_, fun none => ?_⟩,
    fun s who off n g index aw => ⟨fun below => ?_, fun past small room top => ?_, fun busy => ?_, fun idle => ?_, fun h busy => ?_,
      fun h idle unlocked => ?_, fun h unlocked => ?_⟩⟩
  · refine ⟨releasePorts ports s, congrArg Host.Outcome.next (gateOwner_acts _ _ h), s.rd_wr _ _, onlyRegs_wr (List.mem_singleton_self _) _ _⟩
  · have lifted := (OnlyRegs.refl [Reg.EVT_STS, Reg.FAB_STS] s).setFlag (f := Reg.EVT_STS_QDEV) (by decide) false
    have off : (s.setFlag Reg.EVT_STS_QDEV false).flag Reg.EVT_STS_QDEV = false := s.flag_setFlag _ _ rfl (by decide)
    refine ⟨_, congrArg Host.Outcome.next ((gateOwner_acts _ _ h).trans (liftQdev_lifts z q)), ?_, fun fenced => ?_,
      (lifted.setFlag (by decide) false).ite lifted⟩
    · split
      · exact (State.flag_set_off _ Reg.FAB_STS_YIELD Reg.EVT_STS_QDEV _ (by decide)).trans off
      · exact off
    · rw [if_pos fenced]
      exact State.flag_setFlag _ _ _ rfl (by decide)
  · exact congrArg Host.Outcome.next ((gateOwner_acts _ _ h).trans (liftQdev_idle idle))
  · have open_ : vectorMasked (s.wr (Reg.MSIX_TABLE v 3) (s.rd (Reg.MSIX_TABLE v 3) &&& ~~~ 1#32)) v = false :=
      (vectorMasked_wr _ _ _).trans (unmasked_bit _)
    refine ⟨_, congrArg Host.Outcome.next ((live_acts _ h.1.1).trans (sendHeld_sends held open_)), rfl, not_mem_ldel _ _, open_,
      fun a ha => s.rd_wr_ne _ ha⟩
  · exact ⟨_, congrArg Host.Outcome.next ((live_acts _ h.1.1).trans (sendHeld_idle (s := s.wr _ _) free)),
      onlyRegs_wr (List.mem_singleton_self _) _ _⟩
  · exact congrArg Host.Outcome.next ((live_acts _ h.1.1).trans (sendHeld_none none _))
  · rw [bump_below below]
    refine ⟨s.ctr_bumpRaw _ _ below, fun a ha => s.ctr_bumpRaw_ne n ha, ?_, ?_, ?_⟩ <;> rw [bumpRaw_below below]
  · have cnt := bump_wraps_cnt past room
    refine ⟨?_, ?_, ?_⟩
    · rw [State.ctr, cnt, mlook_mstore_same]
      omega
    · rw [cnt]
      exact mem_ladd _ _
    · rw [cnt]
  · rw [cntSnap_eq aw, if_pos busy]
  · rw [cntSnap_eq aw, if_neg (by simp [idle])]
    refine ⟨_, rfl, by simp [snapOp], fun i hi => ?_, by simp [snapOp], by simp [snapOp], by simp [snapOp], fun p hp => ?_⟩
    · rw [snapOp, State.path_modPath]
      exact (snap_counter _ _ hi).trans (s.modPath_ctr _ _ _)
    · rw [snapOp, State.path_modPath_ne _ hp, State.path_modPath_ne _ hp]
  · rw [cntClear_eq h, if_pos busy]
  · rw [cntClear_eq h, if_neg (by simp [idle])]
    generalize word _ = w
    have stored := onlyRegs_storeReg (List.mem_singleton_self Reg.CNT_CLEAR) unlocked w
    have ctr (a : Nat) : (storeReg Reg.CNT_CLEAR w s).ctr a = s.ctr a := by rw [stored.eq]; rfl
    refine ⟨_, rfl, fun a ha => ?_, fun a ha => ?_, ?_, fun a ha => ?_⟩
    · rw [clearGroup_ctr, if_pos ha]
    · rw [clearGroup_ctr, if_neg ha, ctr]
    · rw [clearGroup_evt, stored.eq]
    · rw [clearGroup_rd, stored.2 a (by simpa using ha)]
  · have stored := onlyRegs_storeReg (List.mem_singleton_self Reg.SPT_TAIL) unlocked (w32 index.toNat)
    refine ⟨_, congrArg Host.Outcome.next (gateOwner_acts _ _ h), sptTail_index unlocked index, ?_, fun a ha => stored.2 a (by simpa using ha)⟩
    exact congrArg (fun c : Cnt => { c with sptFullRaised := false }) (congrArg State.cnt stored.eq)

end Sys2Proof.Proofs
end

section
/-! SUPPORT. Turnstiles and the continuity check (06 R228, R230, R238 to R240). -/

namespace Sys2Proof.Machine

/-! ### Turnstiles -/

@[simp] theorem turnstile_putTurnstile (s : State) (t : Nat) (x : Turnstile) : (s.putTurnstile t x).turnstile t = x :=
  mlook_mstore_same _ _ _ _

theorem turnstile_putTurnstile_ne (s : State) {t j : Nat} (x : Turnstile) (h : j ≠ t) : (s.putTurnstile t x).turnstile j = s.turnstile j :=
  mlook_mstore_ne _ _ _ _ h

theorem tsWord_op {op : Nat} (h : op < 4) (idx : BitVec 16) : fieldOf Reg.FLT_TS_CMD_OP (tsWord op idx.toNat) = op :=
  fieldOf_word_fst _ _ _ (by decide) (by decide) (by decide) h

theorem tsWord_index (op : Nat) (idx : BitVec 16) : fieldOf Reg.FLT_TS_CMD_INDEX (tsWord op idx.toNat) = idx.toNat :=
  fieldOf_word_snd _ _ _ (by decide) idx.isLt

theorem tsCmdWrite_refuses {s : State} (b : s.flag Reg.FLT_TS_CMD_BUSY = true) {op : Nat} (h : op < 4) (z : op ≠ 0) (idx : BitVec 16) :
    tsCmdWrite (tsWord op idx.toNat) s = s.inc Reg.CTL_FAULT_BUSY := by
  unfold tsCmdWrite
  rw [tsWord_op h, if_pos b, if_neg z]

/-- The staged setting with a full bucket, of a turnstile that keeps its counts (R230). -/
def tsStaged (s : State) (x : Turnstile) : Turnstile :=
  { x with frames := s.flag Reg.FLT_TS_CFG0_FRAMES, rate := s.get Reg.FLT_TS_CFG0_RATE, burst := s.get Reg.FLT_TS_CFG1_BURST,
           tokens := s.get Reg.FLT_TS_CFG1_BURST * tokenUnit, stamp := s.clk }

/-- A turnstile's setting in the staging registers. -/
def tsShown (s : State) (x : Turnstile) : State :=
  ((s.setFlag Reg.FLT_TS_CFG0_FRAMES x.frames).set Reg.FLT_TS_CFG0_RATE x.rate).set Reg.FLT_TS_CFG1_BURST x.burst

/-- A turnstile's counts in the counters that show them. -/
def tsCounts (s : State) (x : Turnstile) : State :=
  s.modCnt (fun c => { c with vals := mstore 0 Reg.FLT_TS_PASSED x.passed (mstore 0 Reg.FLT_TS_DROPPED x.dropped c.vals) })

/-- An idle FLT_TS_CMD keeps the command, and the turnstile that it names is written, shown or cleared. -/
theorem tsCmdWrite_acts {s : State} (k : mlook 0 Reg.FLT_TS_CMD s.locks = 0) (b : s.flag Reg.FLT_TS_CMD_BUSY = false) (idx : BitVec 16)
    {op : Nat} (h : op < 4) : ∃ u, OnlyRegs [Reg.FLT_TS_CMD] s u ∧ tsCmdWrite (tsWord op idx.toNat) s =
      if op = 1 then u.putTurnstile idx.toNat (tsStaged u (u.turnstile idx.toNat))
      else if op = 2 then tsCounts (tsShown u (u.turnstile idx.toNat)) (u.turnstile idx.toNat)
      else if op = 3 then u.putTurnstile idx.toNat { u.turnstile idx.toNat with passed := 0, dropped := 0 } else u := by
  refine ⟨_, onlyRegs_storeReg (List.mem_singleton_self _) k (tsWord op idx.toNat), ?_⟩
  unfold tsCmdWrite
  rw [tsWord_op h, tsWord_index, b]
  rfl

theorem tsShown_onlyRegs (s : State) (x : Turnstile) : OnlyRegs [Reg.FLT_TS_CFG0, Reg.FLT_TS_CFG1] s (tsShown s x) :=
  (((OnlyRegs.refl _ s).setFlag (f := Reg.FLT_TS_CFG0_FRAMES) (by decide) _).set (f := Reg.FLT_TS_CFG0_RATE) (by decide) _).set
    (f := Reg.FLT_TS_CFG1_BURST) (by decide) _

theorem tsShown_fields (s : State) {x : Turnstile} (r : x.rate < 2 ^ 20) (b : x.burst < 2 ^ 24) :
    (tsShown s x).flag Reg.FLT_TS_CFG0_FRAMES = x.frames ∧ (tsShown s x).get Reg.FLT_TS_CFG0_RATE = x.rate ∧
    (tsShown s x).get Reg.FLT_TS_CFG1_BURST = x.burst := by
  unfold tsShown
  refine ⟨?_, ?_, ?_⟩
  · rw [State.flag_set_off _ _ _ _ (by decide), State.flag_set_apart _ Reg.FLT_TS_CFG0_RATE Reg.FLT_TS_CFG0_FRAMES _ (by decide) (by decide) rfl (by decide),
      State.flag_setFlag _ _ _ rfl (by decide)]
  · rw [State.get_set_off _ _ _ _ (by decide), State.get_set _ _ (by decide) (by decide)]
    exact Nat.mod_eq_of_lt r
  · rw [State.get_set _ _ (by decide) (by decide)]
    exact Nat.mod_eq_of_lt b

theorem tsCounts_passed (s : State) (x : Turnstile) : (tsCounts s x).ctr Reg.FLT_TS_PASSED = x.passed := mlook_mstore_same _ _ _ _

theorem tsCounts_dropped (s : State) (x : Turnstile) : (tsCounts s x).ctr Reg.FLT_TS_DROPPED = x.dropped :=
  (mlook_mstore_ne _ _ _ _ (by decide)).trans (mlook_mstore_same _ _ _ _)

/-- The flow table of a state put in place of another's. -/
theorem OnlyRegs.withFlt {offs : List Nat} {s t : State} (h : OnlyRegs offs s t) (f : Flt) :
    OnlyRegs offs { s with flt := f } { t with flt := f } := ⟨congrArg (fun x : State => { x with flt := f }) h.1, h.2⟩

theorem OnlyRegs.modCnt {offs : List Nat} {s t : State} (h : OnlyRegs offs s t) (f : Cnt → Cnt) :
    OnlyRegs offs { s with cnt := (t.modCnt f).cnt } (t.modCnt f) := ⟨congrArg (fun x : State => { x with cnt := f t.cnt }) h.1, h.2⟩

theorem OnlyRegs.turnstile_eq {offs : List Nat} {s t : State} (h : OnlyRegs offs s t) (j : Nat) : t.turnstile j = s.turnstile j := by
  rw [State.turnstile, State.turnstile, h.flt_eq]

theorem OnlyRegs.tsStaged_eq {s t : State} (h : OnlyRegs [Reg.FLT_TS_CMD] s t) (x : Turnstile) : tsStaged t x = tsStaged s x := by
  rw [tsStaged, tsStaged, h.flag Reg.FLT_TS_CFG0_FRAMES (by decide), h.get Reg.FLT_TS_CFG0_RATE (by decide),
    h.get Reg.FLT_TS_CFG1_BURST (by decide), h.clk_eq]

/-- What a storing of one turnstile leaves, from a state with another command word (R230). -/
theorem putTurnstile_frame {s u : State} (h : OnlyRegs [Reg.FLT_TS_CMD] s u) (i : Nat) (x : Turnstile) :
    (u.putTurnstile i x).turnstile i = x ∧ (∀ j, j ≠ i → (u.putTurnstile i x).turnstile j = s.turnstile j) ∧
    OnlyRegs [Reg.FLT_TS_CMD] { s with flt := (u.putTurnstile i x).flt } (u.putTurnstile i x) :=
  ⟨turnstile_putTurnstile _ _ _, fun j hj => (turnstile_putTurnstile_ne _ _ hj).trans (h.turnstile_eq j), h.withFlt _⟩

/-- A refill changes the bucket and its time alone. -/
theorem refilled_eq (x : Turnstile) (clk : Nat) : ∃ n, x.refilled clk = { x with tokens := n, stamp := clk } := ⟨_, rfl⟩

@[simp] theorem refilled_frames (x : Turnstile) (clk : Nat) : (x.refilled clk).frames = x.frames := by
  obtain ⟨n, e⟩ := refilled_eq x clk
  rw [e]

@[simp] theorem refilled_rate (x : Turnstile) (clk : Nat) : (x.refilled clk).rate = x.rate := by
  obtain ⟨n, e⟩ := refilled_eq x clk
  rw [e]

@[simp] theorem refilled_passed (x : Turnstile) (clk : Nat) : (x.refilled clk).passed = x.passed := by
  obtain ⟨n, e⟩ := refilled_eq x clk
  rw [e]

@[simp] theorem refilled_dropped (x : Turnstile) (clk : Nat) : (x.refilled clk).dropped = x.dropped := by
  obtain ⟨n, e⟩ := refilled_eq x clk
  rw [e]

/-- A frame passes a turnstile with RATE 0 (R228). -/
theorem police_free {s : State} {i : Nat} (r : (s.turnstile i).rate = 0) (len : Nat) : (police s i len).1 = true := by
  unfold police
  simp only [refilled_rate, r, if_true]

/-- A frame passes and is paid for where the bucket holds its cost (R228). -/
theorem police_paid {s : State} {i len : Nat} {x : Turnstile} (hx : (s.turnstile i).refilled s.clk = x) (r : x.rate ≠ 0)
    (k : (if x.frames then 1 else len) * tokenUnit ≤ x.tokens) : police s i len =
      (true, s.putTurnstile i { x with tokens := x.tokens - (if x.frames then 1 else len) * tokenUnit, passed := (x.passed + 1) % 2 ^ 48 }) := by
  unfold police
  rw [hx, if_neg r, if_pos k]

/-- A frame is dropped and counted where the bucket does not hold its cost (R228). -/
theorem police_short {s : State} {i len : Nat} {x : Turnstile} (hx : (s.turnstile i).refilled s.clk = x) (r : x.rate ≠ 0)
    (k : x.tokens < (if x.frames then 1 else len) * tokenUnit) : police s i len =
      (false, s.putTurnstile i { x with dropped := (x.dropped + 1) % 2 ^ 48 }) := by
  unfold police
  rw [hx, if_neg r, if_neg (Nat.not_le.2 k)]

/-! ### The continuity check -/

@[simp] theorem ccGroup_modGroup (s : State) (g : Nat) (f : CcGroup → CcGroup) : (s.modGroup g f).ccGroup g = f (s.ccGroup g) :=
  mlook_mstore_same _ _ _ _

theorem ccGroup_modGroup_ne (s : State) {g j : Nat} (f : CcGroup → CcGroup) (h : j ≠ g) : (s.modGroup g f).ccGroup j = s.ccGroup j :=
  mlook_mstore_ne _ _ _ _ h

theorem OnlyRegs.ccGroup_eq {offs : List Nat} {s t : State} (h : OnlyRegs offs s t) (j : Nat) : t.ccGroup j = s.ccGroup j := by
  rw [State.ccGroup, State.ccGroup, h.flt_eq]

/-- LIFT names its group and lifts its quarantine (R240). -/
theorem ccLift_eq {s : State} {who : Who} (h : Serves s who) (k : mlook 0 Reg.FLT_CC_GROUP s.locks = 0) (g : BitVec 15) :
    ∃ u, OnlyRegs [Reg.FLT_CC_GROUP] s u ∧
      exec (.ccLift who g) s = .next (u.modGroup g.toNat (fun x => { x with quarantined := false })) := by
  refine ⟨_, onlyRegs_storeReg (List.mem_singleton_self _) k (word [(Reg.FLT_CC_GROUP_LIFT, 1), (Reg.FLT_CC_GROUP_GROUP, g.toNat)]), ?_⟩
  show Host.Outcome.next (gateOwner who Reg.FLT_CC_GROUP (ccGroupWrite _) s) = _
  rw [gateOwner_acts _ _ h]
  unfold ccGroupWrite
  rw [fieldOf_word_fst Reg.FLT_CC_GROUP_LIFT _ _ (by decide) (by decide) (by decide) (by decide),
    fieldOf_word_snd _ Reg.FLT_CC_GROUP_GROUP _ (by decide) g.isLt, if_pos rfl]

/-- Two states whose flow tables differ in one group alone. -/
def OnlyGroup (g : Nat) (y : CcGroup) (s t : State) : Prop :=
  t.ccGroup g = y ∧ (∀ j, j ≠ g → t.ccGroup j = s.ccGroup j) ∧ t = { s with flt := { s.flt with groups := t.flt.groups } }

theorem modGroup_onlyGroup (s : State) (g : Nat) (f : CcGroup → CcGroup) : OnlyGroup g (f (s.ccGroup g)) s (s.modGroup g f) :=
  ⟨ccGroup_modGroup _ _ _, fun _ hj => ccGroup_modGroup_ne _ _ hj, rfl⟩

theorem OnlyGroup.trans {g : Nat} {y z : CcGroup} {s t u : State} (h : OnlyGroup g y s t) (k : OnlyGroup g z t u) : OnlyGroup g z s u := by
  obtain ⟨-, h2, h3⟩ := h
  obtain ⟨k1, k2, k3⟩ := k
  have table := congrArg (fun x : State => { x with flt := { x.flt with groups := u.flt.groups } }) h3
  exact ⟨k1, fun j hj => (k2 j hj).trans (h2 j hj), k3.trans table⟩

/-- A mismatch enters FLT_CC_MISMATCH, or sets its OVF where that is full (R240). -/
def ccLogged (s : State) (g : Nat) : State :=
  if s.flt.mismatch.length < 16 then s.modFlt (fun t => { t with mismatch := t.mismatch ++ [g] })
  else s.modFlt (fun t => { t with mismatchOvf := true })

theorem ccLogged_eq (s : State) (g : Nat) : ccLogged s g = { s with flt := { s.flt with
    mismatch := if s.flt.mismatch.length < 16 then s.flt.mismatch ++ [g] else s.flt.mismatch
    mismatchOvf := s.flt.mismatchOvf || decide (16 ≤ s.flt.mismatch.length) } } := by
  unfold ccLogged
  by_cases room : s.flt.mismatch.length < 16
  · simp [room, show ¬ 16 ≤ s.flt.mismatch.length by omega, State.modFlt]
  · simp [room, show 16 ≤ s.flt.mismatch.length by omega, State.modFlt]

/-- A group that is not compared is passed over (R239). -/
theorem ccCompareOp_passes {s : State} {g : Nat} (h : ¬ (s.flag Reg.FLT_CC_CFG_EN = true ∧ (s.ccGroup g).armed = true)) :
    ccCompareOp g s = s := by
  unfold ccCompareOp
  dsimp only
  rw [if_pos]
  simpa [Classical.or_iff_not_imp_left] using h

/-- A group that matches loses its quarantine and may report afresh (R240). -/
theorem ccCompareOp_match {s : State} {g : Nat} (en : s.flag Reg.FLT_CC_CFG_EN = true) (armed : (s.ccGroup g).armed = true)
    (same : groupCrc s g = (s.ccGroup g).sig) :
    ccCompareOp g s = s.modGroup g (fun y => { y with quarantined := false, reported := false }) := by
  unfold ccCompareOp
  dsimp only
  rw [if_neg (by simp [en, armed]), if_pos same]

/-- A group that does not match: quarantined where QUARANTINE is set, and reported once (R240). -/
theorem ccCompareOp_mismatch {s : State} {g : Nat} (en : s.flag Reg.FLT_CC_CFG_EN = true) (armed : (s.ccGroup g).armed = true)
    (ne : groupCrc s g ≠ (s.ccGroup g).sig) : ∃ u,
    OnlyGroup g { s.ccGroup g with quarantined := (s.ccGroup g).quarantined || s.flag Reg.FLT_CC_CFG_QUARANTINE, reported := true } s u ∧
    ccCompareOp g s = if (s.ccGroup g).reported then u else raise0 (ccLogged u g) 0x2401 g := by
  have quarantined : ∃ u, OnlyGroup g
      { s.ccGroup g with quarantined := (s.ccGroup g).quarantined || s.flag Reg.FLT_CC_CFG_QUARANTINE } s u ∧
      (if s.flag Reg.FLT_CC_CFG_QUARANTINE then s.modGroup g (fun y => { y with quarantined := true }) else s) = u := by
    cases q : s.flag Reg.FLT_CC_CFG_QUARANTINE with
    | true => exact ⟨_, by simpa using modGroup_onlyGroup s g (fun y => { y with quarantined := true }), if_pos rfl⟩
    | false => exact ⟨s, ⟨by simp, fun _ _ => rfl, rfl⟩, if_neg Bool.false_ne_true⟩
  obtain ⟨u, hu, e⟩ := quarantined
  unfold ccCompareOp
  dsimp only
  rw [if_neg (by simp [en, armed]), if_neg ne, e]
  cases r : (s.ccGroup g).reported with
  | true => exact ⟨u, r ▸ hu, rfl⟩
  | false =>
    have reported := hu.trans (modGroup_onlyGroup u g (fun y => { y with reported := true }))
    rw [hu.1] at reported
    exact ⟨_, reported, rfl⟩

/-- A change of an entry's signed bytes disarms its group (R239). -/
theorem putEntry_disarms {s : State} {i : Nat} {e : Entry} (h : i < stashBase) (k : entryImage (s.entry i) ≠ entryImage e) :
    ((s.putEntry i e).ccGroup (i / 64)).armed = false := by
  unfold State.putEntry
  dsimp only
  rw [if_pos h, if_pos (decide_eq_true k), ccGroup_modGroup]

end Sys2Proof.Machine

namespace Sys2Proof.Proofs
open Sys2Proof.Machine

/-- Settles O29: the commands by what an idle FLT_TS_CMD serves, a frame by what its bucket holds, and a comparison by its group's change
alone. -/
theorem turnstilesAndContinuity : Obligations.TurnstilesAndContinuity := by
  refine ⟨fun s who idx len h unlocked => ⟨fun busy => ⟨?_, ?_, ?_⟩, fun idle => ⟨?_, fun rate burst => ?_, ?_⟩, ?_⟩,
    fun s who sig g e i h unlocked => ⟨?_, ?_, fun off => ?_, fun on same => ?_, fun on differs => ?_, putEntry_disarms⟩⟩
  · exact congrArg Host.Outcome.next ((gateOwner_acts _ _ h).trans (tsCmdWrite_refuses busy (by decide) (by decide) idx))
  · exact congrArg Host.Outcome.next ((gateOwner_acts _ _ h).trans (tsCmdWrite_refuses busy (by decide) (by decide) idx))
  · exact congrArg Host.Outcome.next ((gateOwner_acts _ _ h).trans (tsCmdWrite_refuses busy (by decide) (by decide) idx))
  · obtain ⟨u, hu, acts⟩ := tsCmdWrite_acts unlocked idle idx (op := 1) (by decide)
    have frame := putTurnstile_frame hu idx.toNat (tsStaged u (u.turnstile idx.toNat))
    rw [hu.tsStaged_eq, hu.turnstile_eq] at frame
    refine ⟨_, congrArg Host.Outcome.next ((gateOwner_acts _ _ h).trans acts), ?_⟩
    rw [if_pos rfl, hu.tsStaged_eq, hu.turnstile_eq]
    exact frame
  · obtain ⟨u, hu, acts⟩ := tsCmdWrite_acts unlocked idle idx (op := 2) (by decide)
    rw [hu.turnstile_eq, if_neg (by decide), if_pos rfl] at acts
    obtain ⟨frames, rates, bursts⟩ := tsShown_fields u rate burst
    have regs := (hu.mono (offs' := [Reg.FLT_TS_CMD, Reg.FLT_TS_CFG0, Reg.FLT_TS_CFG1]) (by simp)).trans
      ((tsShown_onlyRegs u (s.turnstile idx.toNat)).mono (by simp))
    generalize tsShown u (s.turnstile idx.toNat) = v at acts frames rates bursts regs
    refine ⟨_, congrArg Host.Outcome.next ((gateOwner_acts _ _ h).trans acts), ?_, ?_, ?_, tsCounts_passed _ _, tsCounts_dropped _ _,
      regs.modCnt _⟩
    · rw [tsCounts, State.modCnt_flag, frames]
    · rw [tsCounts, State.modCnt_get, rates]
    · rw [tsCounts, State.modCnt_get, bursts]
  · obtain ⟨u, hu, acts⟩ := tsCmdWrite_acts unlocked idle idx (op := 3) (by decide)
    rw [hu.turnstile_eq, if_neg (by decide), if_neg (by decide), if_pos rfl] at acts
    exact ⟨_, congrArg Host.Outcome.next ((gateOwner_acts _ _ h).trans acts), putTurnstile_frame hu idx.toNat _⟩
  · refine ⟨fun r => police_free r len, fun r enough => ?_, fun r lacks => ?_⟩
    · rw [police_paid rfl (by rwa [refilled_rate]) (by rwa [refilled_frames])]
      simp only [turnstile_putTurnstile, refilled_frames, refilled_passed, refilled_dropped, and_self]
    · rw [police_short rfl (by rwa [refilled_rate]) (by rwa [refilled_frames])]
      simp only [turnstile_putTurnstile, refilled_passed, refilled_dropped, and_self]
  · exact ⟨_, congrArg Host.Outcome.next (gateOwner_acts _ _ h), modGroup_onlyGroup _ _ _⟩
  · obtain ⟨u, hu, acts⟩ := ccLift_eq h unlocked g
    have group := ccGroup_modGroup u g.toNat (fun x => { x with quarantined := false })
    rw [hu.ccGroup_eq] at group
    refine ⟨_, acts, group, fun j hj => (ccGroup_modGroup_ne _ _ hj).trans (hu.ccGroup_eq j), ?_⟩
    have regs := hu.withFlt (u.modGroup g.toNat (fun x => { x with quarantined := false })).flt
    have table : (u.modGroup g.toNat (fun x => { x with quarantined := false })).flt =
        { s.flt with groups := (u.modGroup g.toNat (fun x => { x with quarantined := false })).flt.groups } := by
      rw [← hu.flt_eq]
      rfl
    rw [← table]
    exact regs
  · refine congrArg Host.Outcome.next ((live_acts _ h.1.1).trans ?_)
    exact ccCompareOp_passes off
  · obtain ⟨en, armed⟩ := on
    refine ⟨_, congrArg Host.Outcome.next ((live_acts _ h.1.1).trans (ccCompareOp_match en armed same)),
      modGroup_onlyGroup s g.toNat (fun y => { y with quarantined := false, reported := false })⟩
  · obtain ⟨en, armed⟩ := on
    obtain ⟨u, ⟨hg, hj, hu⟩, acts⟩ := ccCompareOp_mismatch en armed differs
    cases r : (s.ccGroup g.toNat).reported with
    | true =>
      rw [r, if_pos rfl] at acts
      refine ⟨u, congrArg Host.Outcome.next ((live_acts _ h.1.1).trans acts), hg, hj, ?_⟩
      simpa using hu
    | false =>
      rw [r, if_neg Bool.false_ne_true, ccLogged_eq] at acts
      refine ⟨_, congrArg Host.Outcome.next ((live_acts _ h.1.1).trans acts), hg, hj, ?_⟩
      rw [hu]
      simp

end Sys2Proof.Proofs
end

section
/-! SUPPORT. Shapers, the association map and histograms (09 R343, R345, R347, R359). -/

namespace Sys2Proof.Machine

/-! ### The scheduler put in place of another's -/

theorem OnlyRegs.withSch {offs : List Nat} {s t : State} (h : OnlyRegs offs s t) (f : Sch) :
    OnlyRegs offs { s with sch := f } { t with sch := f } := ⟨congrArg (fun x : State => { x with sch := f }) h.1, h.2⟩

theorem OnlyRegs.withSchCnt {offs : List Nat} {s t : State} (h : OnlyRegs offs s t) (f : Sch) (c : Cnt) :
    OnlyRegs offs { s with sch := f, cnt := c } { t with sch := f, cnt := c } :=
  ⟨congrArg (fun x : State => { x with sch := f, cnt := c }) h.1, h.2⟩

theorem OnlyRegs.shaper_eq {offs : List Nat} {s t : State} (h : OnlyRegs offs s t) (j : Nat) : t.shaper j = s.shaper j := by
  rw [State.shaper, State.shaper, h.sch_eq]

/-! ### Words of commands -/

theorem shpWord_op {op : Nat} (h : op < 4) (i : BitVec 16) :
    fieldOf Reg.SCH_SHP_CMD_OP (word [(Reg.SCH_SHP_CMD_OP, op), (Reg.SCH_SHP_CMD_INDEX, i.toNat)]) = op :=
  fieldOf_word_fst _ _ _ (by decide) (by decide) (by decide) h

theorem shpWord_index (op : Nat) (i : BitVec 16) :
    fieldOf Reg.SCH_SHP_CMD_INDEX (word [(Reg.SCH_SHP_CMD_OP, op), (Reg.SCH_SHP_CMD_INDEX, i.toNat)]) % 65536 = i.toNat := by
  have small := i.isLt
  rw [fieldOf_word_snd Reg.SCH_SHP_CMD_OP Reg.SCH_SHP_CMD_INDEX op (by decide)
    (show i.toNat < 2 ^ (Reg.SCH_SHP_CMD_INDEX.hi + 1 - Reg.SCH_SHP_CMD_INDEX.lo) by simp [Reg.SCH_SHP_CMD_INDEX]; omega)]
  exact Nat.mod_eq_of_lt small

/-- The fields of the word that MAP_WRITE writes. -/
theorem mapWriteWord_fields (v : Bool) (a : BitVec 20) :
    let w := word [(Reg.SCH_MAP_CMD_OP, 1), (Reg.SCH_MAP_CMD_VALID, b2n v), (Reg.SCH_MAP_CMD_INDEX, a.toNat)]
    fieldOf Reg.SCH_MAP_CMD_OP w = 1 ∧ fieldOf Reg.SCH_MAP_CMD_VALID w = b2n v ∧ fieldOf Reg.SCH_MAP_CMD_INDEX w = a.toNat := by
  refine ⟨?_, ?_, fieldOf_setBits _ Reg.SCH_MAP_CMD_INDEX (by decide) (by decide) a.isLt⟩
  · refine (fieldOf_setBits_apart _ Reg.SCH_MAP_CMD_OP Reg.SCH_MAP_CMD_INDEX (by decide) (by decide) _ (by decide)).trans ?_
    exact fieldOf_word_fst Reg.SCH_MAP_CMD_OP Reg.SCH_MAP_CMD_VALID _ (by decide) (by decide) (by decide) (by decide)
  · refine (fieldOf_setBits_apart _ Reg.SCH_MAP_CMD_VALID Reg.SCH_MAP_CMD_INDEX (by decide) (by decide) _ (by decide)).trans ?_
    exact fieldOf_word_snd Reg.SCH_MAP_CMD_OP Reg.SCH_MAP_CMD_VALID 1 (by decide) (by cases v <;> decide)

theorem mapReadWord_op (a : BitVec 20) :
    fieldOf Reg.SCH_MAP_CMD_OP (word [(Reg.SCH_MAP_CMD_OP, 2), (Reg.SCH_MAP_CMD_INDEX, a.toNat)]) = 2 :=
  fieldOf_word_fst _ _ _ (by decide) (by decide) (by decide) (by decide)

theorem mapReadWord_index (a : BitVec 20) :
    fieldOf Reg.SCH_MAP_CMD_INDEX (word [(Reg.SCH_MAP_CMD_OP, 2), (Reg.SCH_MAP_CMD_INDEX, a.toNat)]) = a.toNat :=
  fieldOf_word_snd _ _ _ (by decide) a.isLt

theorem histWord_snap (m : Fin 64) :
    fieldOf Reg.SCH_HIST_CMD_SNAP (word [(Reg.SCH_HIST_CMD_SNAP, 1), (Reg.SCH_HIST_CMD_PORT, m.val)]) = 1 :=
  fieldOf_word_fst _ _ _ (by decide) (by decide) (by decide) (by decide)

theorem histWord_port (m : Fin 64) :
    fieldOf Reg.SCH_HIST_CMD_PORT (word [(Reg.SCH_HIST_CMD_SNAP, 1), (Reg.SCH_HIST_CMD_PORT, m.val)]) = m.val :=
  fieldOf_word_snd _ _ _ (by decide) m.isLt

/-! ### Shapers -/

/-- The setting that is staged becomes the shaper's next one (R345). -/
def shpStaged (s : State) (x : Shaper) : Shaper := { x with next0 := s.rd Reg.SCH_SHP_DATA0, next1 := s.rd Reg.SCH_SHP_DATA1 }

/-- A shaper's next setting and tokens in the registers that show them. -/
def shpShown (s : State) (x : Shaper) : State :=
  ((s.wr Reg.SCH_SHP_DATA0 x.next0).wr Reg.SCH_SHP_DATA1 x.next1).wr Reg.SCH_SHP_TOKENS (BitVec.ofInt 32 x.tokens)

theorem shpCmdWrite_refuses {s : State} (b : s.flag Reg.SCH_SHP_CMD_BUSY = true) {op : Nat} (h : op = 1 ∨ op = 2) (i : BitVec 16) :
    shpCmdWrite (word [(Reg.SCH_SHP_CMD_OP, op), (Reg.SCH_SHP_CMD_INDEX, i.toNat)]) s = s.inc Reg.CTL_FAULT_BUSY := by
  unfold shpCmdWrite
  rw [shpWord_op (by omega)]
  exact startUnlessBusy_refuses (by simpa using h) b

/-- SHP_WRITE stores the staged setting as its shaper's next one (R345). -/
theorem shpCmdWrite_writes {s : State} (k : mlook 0 Reg.SCH_SHP_CMD s.locks = 0) (b : s.flag Reg.SCH_SHP_CMD_BUSY = false) (i : BitVec 16) :
    ∃ u, OnlyRegs [Reg.SCH_SHP_CMD] s u ∧ shpCmdWrite (word [(Reg.SCH_SHP_CMD_OP, 1), (Reg.SCH_SHP_CMD_INDEX, i.toNat)]) s =
      u.putShaper i.toNat (shpStaged s (s.shaper i.toNat)) := by
  have op := shpWord_op (show 1 < 4 by decide) i
  have index := shpWord_index 1 i
  generalize word _ = w at op index
  have stored := onlyRegs_storeReg (List.mem_singleton_self Reg.SCH_SHP_CMD) k w
  refine ⟨_, stored, ?_⟩
  unfold shpCmdWrite
  dsimp only
  rw [startUnlessBusy_acts b, op, index, stored.shaper_eq, stored.2 Reg.SCH_SHP_DATA0 (by decide), stored.2 Reg.SCH_SHP_DATA1 (by decide)]
  rfl

/-- SHP_READ shows its shaper's next setting and tokens (R345). -/
theorem shpCmdWrite_reads {s : State} (k : mlook 0 Reg.SCH_SHP_CMD s.locks = 0) (b : s.flag Reg.SCH_SHP_CMD_BUSY = false) (i : BitVec 16) :
    ∃ u, OnlyRegs [Reg.SCH_SHP_CMD] s u ∧ shpCmdWrite (word [(Reg.SCH_SHP_CMD_OP, 2), (Reg.SCH_SHP_CMD_INDEX, i.toNat)]) s =
      shpShown u (s.shaper i.toNat) := by
  have op := shpWord_op (show 2 < 4 by decide) i
  have index := shpWord_index 2 i
  generalize word _ = w at op index
  have stored := onlyRegs_storeReg (List.mem_singleton_self Reg.SCH_SHP_CMD) k w
  refine ⟨_, stored, ?_⟩
  unfold shpCmdWrite
  dsimp only
  generalize storeReg Reg.SCH_SHP_CMD w = store at stored ⊢
  have shaper := stored.shaper_eq i.toNat
  rw [startUnlessBusy_acts b, op, index]
  generalize store s = u at shaper ⊢
  rw [← shaper]
  rfl

theorem shaper_putShaper (s : State) (i : Nat) (x : Shaper) : (s.putShaper i x).shaper i = x := mlook_mstore_same _ _ _ _

theorem shaper_putShaper_ne (s : State) {i j : Nat} (x : Shaper) (h : j ≠ i) : (s.putShaper i x).shaper j = s.shaper j :=
  mlook_mstore_ne _ _ _ _ h

theorem OnlyRegs.putShaper {offs : List Nat} {s u : State} (h : OnlyRegs offs s u) (i : Nat) (x : Shaper) :
    OnlyRegs offs { s with sch := { s.sch with shapers := (u.putShaper i x).sch.shapers } } (u.putShaper i x) := by
  rw [← h.sch_eq]
  exact h.withSch _

theorem shpShown_onlyRegs (s : State) (x : Shaper) :
    OnlyRegs [Reg.SCH_SHP_CMD, Reg.SCH_SHP_DATA0, Reg.SCH_SHP_DATA1, Reg.SCH_SHP_TOKENS] s (shpShown s x) :=
  (((OnlyRegs.refl _ s).wr (by decide) _).wr (by decide) _).wr (by decide) _

theorem shpShown_words (s : State) (x : Shaper) : (shpShown s x).rd Reg.SCH_SHP_DATA0 = x.next0 ∧
    (shpShown s x).rd Reg.SCH_SHP_DATA1 = x.next1 ∧ (shpShown s x).rd Reg.SCH_SHP_TOKENS = BitVec.ofInt 32 x.tokens := by
  unfold shpShown
  refine ⟨?_, ?_, State.rd_wr _ _ _⟩
  · rw [State.rd_wr_ne _ _ (by decide), State.rd_wr_ne _ _ (by decide), State.rd_wr]
  · rw [State.rd_wr_ne _ _ (by decide), State.rd_wr]

/-! ### The refill -/

/-- The refilled shapers, those unlisted that come to read as an unwritten one. -/
def refilledShapers (m : SMap Shaper) : SMap Shaper := (m.map (fun p => (p.1, p.2.refill))).filter (fun p => p.2 ≠ noShaper)

/-- A shaper that its refill leaves with something to keep is listed refilled. -/
theorem mget_refilledShapers {i : Nat} {x : Shaper} (h : x.refill ≠ noShaper) (m : SMap Shaper) (k : mget i m = some x) :
    mget i (refilledShapers m) = some x.refill := by
  induction m with
  | nil => simp [mget] at k
  | cons p m ih =>
    obtain ⟨j, w⟩ := p
    unfold refilledShapers at ih ⊢
    by_cases e : j = i
    · obtain rfl : w = x := by simpa [mget, e] using k
      simp [h, mget, e]
    · have rest := ih (by simpa [mget, e] using k)
      by_cases z : w.refill = noShaper
      · simpa [z] using rest
      · simpa [z, mget, e] using rest

/-- A refill changes the shapers, the port shapers and the profiles alone (R343, R345). -/
theorem refillOp_eq (s : State) : ∃ ports profiles, refillOp s = { s with sch := { s.sch with
    shapers := refilledShapers s.sch.shapers, portShapers := ports, profiles := profiles } } := by
  have ports : ∀ (f : State → Nat → State), (∀ t m, ∃ p, f t m = { t with sch := { t.sch with portShapers := p } }) →
      ∀ (l : List Nat) (t : State), ∃ p, l.foldl f t = { t with sch := { t.sch with portShapers := p } } := by
    intro f hf l
    induction l with
    | nil => exact fun t => ⟨_, rfl⟩
    | cons m l ih =>
      intro t
      obtain ⟨p, e⟩ := hf t m
      obtain ⟨q, e'⟩ := ih (f t m)
      refine ⟨q, ?_⟩
      rw [List.foldl_cons, e', e]
  unfold refillOp
  dsimp only
  obtain ⟨p, e⟩ := ports (fun s m => if s.rd (Reg.SCH_PORT_SHP0 m) = 0 ∧ s.rd (Reg.SCH_PORT_SHP1 m) = 0 ∧ s.portShaper m = noShaper then s
      else s.putPortShaper m
        ({ s.portShaper m with next0 := s.rd (Reg.SCH_PORT_SHP0 m), next1 := s.rd (Reg.SCH_PORT_SHP1 m) } : Shaper).refill)
    (fun t m => by dsimp only; split; exacts [⟨t.sch.portShapers, rfl⟩, ⟨_, rfl⟩]) (List.range 64)
    (s.modSch (fun c => { c with shapers := refilledShapers c.shapers }))
  refine ⟨p, _, (congrArg (fun s : State => s.modSch (fun c => { c with
    profiles := (List.range 16).foldl (fun m j => mstore 0 j (s.rd (Reg.SCH_PROFILE j)) m) c.profiles })) e).trans rfl⟩

/-- A refill under an unchanged setting adds RATE and clips at the burst (R343). -/
theorem refill_tokens_same {x : Shaper} (h : x.next0 = x.data0) (k : x.next1 = x.data1) :
    x.refill.tokens = min (x.cap : Int) (x.tokens + x.rate) := by
  obtain ⟨d0, d1, n0, n1, t⟩ := x
  obtain rfl : n0 = d0 := h
  obtain rfl : n1 = d1 := k
  simp [Shaper.refill, Shaper.en, Shaper.cap, Shaper.rate]

/-- A refill that raises EN fills the bucket (R345). -/
theorem refill_tokens_full {x : Shaper} (h : x.en = false) (k : x.refill.en = true) : x.refill.tokens = x.refill.cap := by
  have rises : ({ x with data0 := x.next0, data1 := x.next1 } : Shaper).en = true := k
  unfold Shaper.refill
  dsimp only
  rw [if_pos (by rw [h, rises]; rfl)]
  rfl

/-! ### The association map -/

theorem mapCmdWrite_refuses {s : State} (b : s.flag Reg.SCH_MAP_CMD_BUSY = true) {w : Word}
    (h : fieldOf Reg.SCH_MAP_CMD_OP w = 1 ∨ fieldOf Reg.SCH_MAP_CMD_OP w = 2) : mapCmdWrite w s = s.inc Reg.CTL_FAULT_BUSY := by
  unfold mapCmdWrite
  exact startUnlessBusy_refuses (by simpa using h) b

/-- MAP_WRITE binds its association to the staged shaper, or unbinds it (R347). -/
theorem mapCmdWrite_writes {s : State} (k : mlook 0 Reg.SCH_MAP_CMD s.locks = 0) (b : s.flag Reg.SCH_MAP_CMD_BUSY = false) (v : Bool)
    (a : BitVec 20) : ∃ u, OnlyRegs [Reg.SCH_MAP_CMD] s u ∧
      mapCmdWrite (word [(Reg.SCH_MAP_CMD_OP, 1), (Reg.SCH_MAP_CMD_VALID, b2n v), (Reg.SCH_MAP_CMD_INDEX, a.toNat)]) s =
        { u with sch := { s.sch with
          map := if v then mput a.toNat (s.get Reg.SCH_MAP_DATA_SHAPER) s.sch.map else mdel a.toNat s.sch.map } } := by
  obtain ⟨op, valid, index⟩ := mapWriteWord_fields v a
  generalize word _ = w at op valid index
  have stored := onlyRegs_storeReg (List.mem_singleton_self Reg.SCH_MAP_CMD) k w
  refine ⟨_, stored, ?_⟩
  unfold mapCmdWrite
  rw [startUnlessBusy_acts b, op, valid, index]
  dsimp only
  rw [stored.get Reg.SCH_MAP_DATA_SHAPER (by decide), State.modSch, stored.sch_eq]
  cases v <;> rfl

/-- An association's binding in the registers that show it. -/
def mapShown (s : State) (o : Option Nat) : State :=
  (s.setFlag Reg.SCH_MAP_CMD_VALID o.isSome).set Reg.SCH_MAP_DATA_SHAPER (o.getD 0)

theorem mapCmdWrite_reads {s : State} (k : mlook 0 Reg.SCH_MAP_CMD s.locks = 0) (b : s.flag Reg.SCH_MAP_CMD_BUSY = false) (a : BitVec 20) :
    ∃ u, OnlyRegs [Reg.SCH_MAP_CMD] s u ∧
      mapCmdWrite (word [(Reg.SCH_MAP_CMD_OP, 2), (Reg.SCH_MAP_CMD_INDEX, a.toNat)]) s = mapShown u (mget a.toNat s.sch.map) := by
  have op := mapReadWord_op a
  have index := mapReadWord_index a
  generalize word _ = w at op index
  have stored := onlyRegs_storeReg (List.mem_singleton_self Reg.SCH_MAP_CMD) k w
  refine ⟨_, stored, ?_⟩
  unfold mapCmdWrite
  dsimp only
  rw [startUnlessBusy_acts b, op, index]
  rw [stored.sch_eq]
  cases mget a.toNat s.sch.map <;> rfl

theorem mapShown_onlyRegs (s : State) (o : Option Nat) : OnlyRegs [Reg.SCH_MAP_CMD, Reg.SCH_MAP_DATA] s (mapShown s o) :=
  ((OnlyRegs.refl _ s).setFlag (f := Reg.SCH_MAP_CMD_VALID) (by decide) _).set (f := Reg.SCH_MAP_DATA_SHAPER) (by decide) _

theorem mapShown_fields (s : State) (o : Option Nat) : (mapShown s o).flag Reg.SCH_MAP_CMD_VALID = o.isSome ∧
    (mapShown s o).get Reg.SCH_MAP_DATA_SHAPER = o.getD 0 % 65536 := by
  unfold mapShown
  refine ⟨?_, State.get_set _ _ (by decide) (by decide) _⟩
  rw [State.flag_set_off _ _ _ _ (by decide), State.flag_setFlag _ _ _ rfl (by decide)]

/-! ### Histograms -/

/-- The counters that show a histogram's bins (R359). -/
def binsShown (m : Nat) (h : Hist) (is : List Nat) (vals : SMap Nat) : SMap Nat :=
  is.foldl (fun v i => mstore 0 (Reg.SCH_HIST_BIN m i) (mlook 0 i h.bins % 2 ^ 48) v) vals

theorem binsShown_other (m : Nat) (h : Hist) {c : Nat} (is : List Nat) (vals : SMap Nat) (ne : ∀ b ∈ is, c ≠ Reg.SCH_HIST_BIN m b) :
    mlook 0 c (binsShown m h is vals) = mlook 0 c vals := by
  induction is generalizing vals with
  | nil => rfl
  | cons i is ih =>
    exact (ih _ (fun b hb => ne b (List.mem_cons_of_mem _ hb))).trans (mlook_mstore_ne _ _ _ _ (ne i List.mem_cons_self))

theorem binsShown_bin (m : Nat) (h : Hist) {b : Nat} (is : List Nat) (vals : SMap Nat) (mem : b ∈ is) :
    mlook 0 (Reg.SCH_HIST_BIN m b) (binsShown m h is vals) = mlook 0 b h.bins % 2 ^ 48 := by
  induction is generalizing vals with
  | nil => simp at mem
  | cons i is ih =>
    by_cases later : b ∈ is
    · exact ih _ later
    · obtain rfl : b = i := by simpa [later] using mem
      refine (binsShown_other m h is _ fun c hc => ?_).trans (mlook_mstore_same _ _ _ _)
      have ne : c ≠ b := fun e => later (e ▸ hc)
      simp only [Reg.SCH_HIST_BIN]
      omega

/-- SNAP shows the live histogram in the read bank and clears it (R359). -/
theorem histSnapOp_eq (m : Nat) (s : State) : histSnapOp m s =
    { (s.wr (Reg.SCH_HIST_MIN m) (w32 (min (mlook noHist m s.sch.hist).least 0xFFFFFFFF))).wr (Reg.SCH_HIST_MAX m)
        (w32 (min (mlook noHist m s.sch.hist).most 0xFFFFFFFF)) with
      sch := { s.sch with hist := mdel m s.sch.hist }
      cnt := { s.cnt with vals := binsShown m (mlook noHist m s.sch.hist) (List.range 32) s.cnt.vals } } := by
  have fold (h : Hist) (is : List Nat) (t : State) : is.foldl (fun s i =>
      { s with cnt := { s.cnt with vals := mstore 0 (Reg.SCH_HIST_BIN m i) (mlook 0 i h.bins % 2 ^ 48) s.cnt.vals } }) t =
      { t with cnt := { t.cnt with vals := binsShown m h is t.cnt.vals } } := by
    induction is generalizing t with
    | nil => rfl
    | cons i is ih => rw [List.foldl_cons, ih]; rfl
  unfold histSnapOp
  dsimp only
  rw [fold]
  rfl

theorem histCmdWrite_refuses {s : State} (b : s.flag Reg.SCH_HIST_CMD_BUSY = true) (m : Fin 64) :
    histCmdWrite (word [(Reg.SCH_HIST_CMD_SNAP, 1), (Reg.SCH_HIST_CMD_PORT, m.val)]) s = s.inc Reg.CTL_FAULT_BUSY := by
  unfold histCmdWrite
  rw [histWord_snap]
  exact startUnlessBusy_refuses rfl b

theorem histCmdWrite_snaps {s : State} (k : mlook 0 Reg.SCH_HIST_CMD s.locks = 0) (b : s.flag Reg.SCH_HIST_CMD_BUSY = false) (m : Fin 64) :
    ∃ u, OnlyRegs [Reg.SCH_HIST_CMD] s u ∧
      histCmdWrite (word [(Reg.SCH_HIST_CMD_SNAP, 1), (Reg.SCH_HIST_CMD_PORT, m.val)]) s = histSnapOp m.val u := by
  refine ⟨_, onlyRegs_storeReg (List.mem_singleton_self _) k (word [(Reg.SCH_HIST_CMD_SNAP, 1), (Reg.SCH_HIST_CMD_PORT, m.val)]), ?_⟩
  unfold histCmdWrite
  rw [histWord_snap, histWord_port]
  dsimp only
  rw [startUnlessBusy_acts b]
  rfl

end Sys2Proof.Machine

namespace Sys2Proof.Proofs
open Sys2Proof.Machine

/-- Settles O40: the commands by what an idle register serves, the refill by what it changes and by each shaper's own refill. -/
theorem shapersServe : Obligations.ShapersServe := by
  intro s who i a m x h shpFree mapFree histFree
  refine ⟨fun busy => ⟨?_, ?_⟩, fun busy => ⟨?_, ?_, ?_⟩, fun busy => ?_, fun idle => ⟨?_, ?_⟩, ?_, refill_tokens_same, ⟨rfl, rfl⟩,
    refill_tokens_full, fun idle => ⟨?_, ?_, ?_⟩, fun idle => ?_⟩
  · exact congrArg Host.Outcome.next ((gateOwner_acts _ _ h).trans (shpCmdWrite_refuses busy (Or.inl rfl) i))
  · exact congrArg Host.Outcome.next ((gateOwner_acts _ _ h).trans (shpCmdWrite_refuses busy (Or.inr rfl) i))
  · exact congrArg Host.Outcome.next ((gateOwner_acts _ _ h).trans (mapCmdWrite_refuses busy (Or.inl (mapWriteWord_fields true a).1)))
  · exact congrArg Host.Outcome.next ((gateOwner_acts _ _ h).trans (mapCmdWrite_refuses busy (Or.inl (mapWriteWord_fields false a).1)))
  · exact congrArg Host.Outcome.next ((gateOwner_acts _ _ h).trans (mapCmdWrite_refuses busy (Or.inr (mapReadWord_op a))))
  · exact congrArg Host.Outcome.next ((gateOwner_acts _ _ h).trans (histCmdWrite_refuses busy m))
  · obtain ⟨u, hu, acts⟩ := shpCmdWrite_writes shpFree idle i
    exact ⟨_, congrArg Host.Outcome.next ((gateOwner_acts _ _ h).trans acts), shaper_putShaper _ _ _,
      fun j hj => (shaper_putShaper_ne _ _ hj).trans (hu.shaper_eq j), hu.putShaper _ _⟩
  · obtain ⟨u, hu, acts⟩ := shpCmdWrite_reads shpFree idle i
    obtain ⟨first, second, tokens⟩ := shpShown_words u (s.shaper i.toNat)
    exact ⟨_, congrArg Host.Outcome.next ((gateOwner_acts _ _ h).trans acts), first, second, tokens,
      (hu.mono (by simp)).trans (shpShown_onlyRegs _ _)⟩
  · obtain ⟨ports, profiles, e⟩ := refillOp_eq s
    refine ⟨_, congrArg Host.Outcome.next ((live_acts _ h.1.1).trans e), rfl, fun listed keeps => ?_⟩
    show (mget i.toNat (refilledShapers s.sch.shapers)).getD noShaper = x.refill
    rw [mget_refilledShapers keeps _ listed, Option.getD_some]
  · obtain ⟨u, hu, acts⟩ := mapCmdWrite_writes mapFree idle true a
    rw [if_pos rfl] at acts
    exact ⟨_, congrArg Host.Outcome.next ((gateOwner_acts _ _ h).trans acts), mget_mput_same _ _ _, fun b hb => mget_mput_ne _ _ hb,
      hu.withSch _⟩
  · obtain ⟨u, hu, acts⟩ := mapCmdWrite_writes mapFree idle false a
    rw [if_neg Bool.false_ne_true] at acts
    exact ⟨_, congrArg Host.Outcome.next ((gateOwner_acts _ _ h).trans acts), mget_mdel_same _ _, fun b hb => mget_mdel_ne _ hb,
      hu.withSch _⟩
  · obtain ⟨u, hu, acts⟩ := mapCmdWrite_reads mapFree idle a
    obtain ⟨valid, shaper⟩ := mapShown_fields u (mget a.toNat s.sch.map)
    exact ⟨_, congrArg Host.Outcome.next ((gateOwner_acts _ _ h).trans acts), valid, shaper,
      (hu.mono (by simp)).trans (mapShown_onlyRegs _ _)⟩
  · obtain ⟨u, hu, acts⟩ := histCmdWrite_snaps histFree idle m
    rw [histSnapOp_eq, hu.sch_eq, hu.cnt_eq] at acts
    have regs := ((hu.mono (offs' := [Reg.SCH_HIST_CMD, Reg.SCH_HIST_MIN m, Reg.SCH_HIST_MAX m]) (by simp)).wr
      (off := Reg.SCH_HIST_MIN m) (by simp) (w32 (min (mlook noHist m.val s.sch.hist).least 0xFFFFFFFF))).wr
      (off := Reg.SCH_HIST_MAX m) (by simp) (w32 (min (mlook noHist m.val s.sch.hist).most 0xFFFFFFFF))
    have least := (State.rd_wr_ne _ (w32 (min (mlook noHist m.val s.sch.hist).most 0xFFFFFFFF))
      (show Reg.SCH_HIST_MIN m ≠ Reg.SCH_HIST_MAX m by simp only [Reg.SCH_HIST_MIN, Reg.SCH_HIST_MAX]; omega)).trans
      (u.rd_wr (Reg.SCH_HIST_MIN m) (w32 (min (mlook noHist m.val s.sch.hist).least 0xFFFFFFFF)))
    have most := (u.wr (Reg.SCH_HIST_MIN m) (w32 (min (mlook noHist m.val s.sch.hist).least 0xFFFFFFFF))).rd_wr
      (Reg.SCH_HIST_MAX m) (w32 (min (mlook noHist m.val s.sch.hist).most 0xFFFFFFFF))
    generalize State.wr _ (Reg.SCH_HIST_MAX m) _ = v at acts regs least most
    exact ⟨_, congrArg Host.Outcome.next ((gateOwner_acts _ _ h).trans acts), mget_mdel_same _ _,
      fun b hb => binsShown_bin _ _ _ _ (List.mem_range.2 hb), fun c hc => binsShown_other _ _ _ _ (fun b hb => hc b (List.mem_range.1 hb)),
      least, most, fun j hj => mget_mdel_ne _ hj, regs.withSchCnt _ _⟩

end Sys2Proof.Proofs
end

section
/-! SUPPORT. The discipline and the adjustment of time (10 R365 to R368, R371, R389). -/

namespace Sys2Proof.Machine

/-- The time unit put in place of another's. -/
theorem OnlyRegs.withTim {offs : List Nat} {s t : State} (h : OnlyRegs offs s t) (f : Tim) :
    OnlyRegs offs { s with tim := f } { t with tim := f } := ⟨congrArg (fun x : State => { x with tim := f }) h.1, h.2⟩

theorem OnlyRegs.nowUnits_eq {offs : List Nat} {s t : State} (h : OnlyRegs offs s t) : t.nowUnits = s.nowUnits := by
  rw [State.nowUnits, State.nowUnits, h.tim_eq]

theorem OnlyRegs.adjSec_eq {offs : List Nat} {s t : State} (h : OnlyRegs offs s t) (k : Reg.TIM_ADJ_SEC_HI ∉ offs)
    (l : Reg.TIM_ADJ_SEC_LO ∉ offs) : t.adjSec = s.adjSec := by
  rw [State.adjSec, State.adjSec, h.get Reg.TIM_ADJ_SEC_HI_SEC_HI k, h.2 _ l]

/-! ### T and its rate (R365, R367) -/

/-- Where FRC stands at its base, T is the base, whatever the rate. -/
theorem timeAt_base {t : Tim} (h : t.frcBase = t.frc) : timeAt t t.frc = t.base := by simp [timeAt, h]

theorem rebase_nowUnits (s : State) (t : Int) : (rebase s t).nowUnits = t := timeAt_base rfl

theorem rateOf_range (w : Word) : -1099511628 ≤ rateOf w ∧ rateOf w ≤ 1099511628 := by
  simp only [rateOf, rateMax]
  omega

/-- A word whose every bit is writable takes the value written. -/
theorem full_write (old val : Word) : ((old &&& ~~~ w32 0xFFFFFFFF) ||| (val &&& w32 0xFFFFFFFF)) &&& ~~~ (val &&& w32 0) = val := by
  rw [show w32 0xFFFFFFFF = BitVec.allOnes 32 from rfl, show w32 0 = 0#32 from rfl, BitVec.not_allOnes, BitVec.and_zero, BitVec.zero_or,
    BitVec.and_zero, BitVec.not_zero, BitVec.and_allOnes, BitVec.and_allOnes]

theorem rd_storeRate {s : State} (k : mlook 0 Reg.TIM_RATE s.locks = 0) (rate : Word) :
    (storeReg Reg.TIM_RATE rate s).rd Reg.TIM_RATE = rate := by
  have row : rowOf Reg.TIM_RATE = some ⟨0x50030, 1, 4, 1, 4, 0, 0xFFFFFFFF, 0, 0, 0⟩ := by decide +kernel
  rw [storeReg_unlocked row k, State.rd_wr]
  exact full_write _ _

/-! ### Discipline writes and HOLDOVER (R371, R389) -/

/-- A discipline write ends the HOLDOVER: it may, but for PPS_LOST before an edge. -/
def endsHold (s : State) : Prop := s.get Reg.TIM_STS_STATE = 2 ∧ (s.get Reg.TIM_STS_REASON ≠ 2 ∨ s.tim.ppsSinceHold = true)

/-- A discipline write that ends no HOLDOVER is noted. -/
theorem discipline_noted {s : State} (h : ¬ endsHold s) : discipline s = s.modTim (fun x => { x with lastDisc := some s.clk }) := by
  unfold discipline
  dsimp only
  rw [if_neg]
  exact h

/-- The registers of a device that becomes LOCKED. -/
def lockedRegs (s : State) : State := ((s.set Reg.TIM_STS_STATE 1).set Reg.TIM_STS_REASON 0).wr Reg.TIM_ERR_BOUND 0

theorem lockedRegs_onlyRegs (s : State) : OnlyRegs [Reg.TIM_STS, Reg.TIM_ERR_BOUND] s (lockedRegs s) :=
  (((OnlyRegs.refl _ s).set (f := Reg.TIM_STS_STATE) (by decide) 1).set (f := Reg.TIM_STS_REASON) (by decide) 0).wr (by decide) 0

theorem lockedRegs_fields (s : State) : (lockedRegs s).get Reg.TIM_STS_STATE = 1 ∧ (lockedRegs s).get Reg.TIM_STS_REASON = 0 ∧
    (lockedRegs s).rd Reg.TIM_ERR_BOUND = 0 := by
  unfold lockedRegs
  refine ⟨?_, ?_, State.rd_wr _ _ _⟩
  · rw [State.get_wr_ne _ _ _ (by decide), State.get_set_apart _ Reg.TIM_STS_REASON Reg.TIM_STS_STATE _ (by decide) (by decide) rfl (by decide),
      State.get_set _ _ (by decide) (by decide)]
    rfl
  · rw [State.get_wr_ne _ _ _ (by decide), State.get_set _ _ (by decide) (by decide), Nat.zero_mod]

theorem OnlyRegs.modTim {offs : List Nat} {s t : State} (h : OnlyRegs offs s t) (f : Tim → Tim) : OnlyRegs offs (s.modTim f) (t.modTim f) := by
  rw [State.modTim, State.modTim, h.tim_eq]
  exact h.withTim _

/-- A device that leaves HOLDOVER: LOCKED without reason or bound, and the event. -/
theorem lock_leaves {s : State} (h : s.get Reg.TIM_STS_STATE = 2) : lock s =
    raise0 ((lockedRegs s).modTim (fun x => { x with holdStart := none, holdSec := s.holdSeconds })) 0x0502 0 := by
  unfold lock
  dsimp only
  rw [if_pos (decide_eq_true h)]
  rfl

/-- A HOLDOVER that ends: LOCKED without reason or bound, and the event. -/
theorem discipline_ends {s : State} (h : endsHold s) : ∃ u, discipline s = raise0 u 0x0502 0 ∧ u.get Reg.TIM_STS_STATE = 1 ∧
    u.get Reg.TIM_STS_REASON = 0 ∧ u.rd Reg.TIM_ERR_BOUND = 0 ∧ OnlyRegs [Reg.TIM_STS, Reg.TIM_ERR_BOUND]
      ((s.modTim (fun x => { x with lastDisc := some s.clk })).modTim (fun x => { x with holdStart := none, holdSec := s.holdSeconds })) u := by
  have leaves : discipline s = lock (s.modTim (fun x => { x with lastDisc := some s.clk })) := by
    unfold discipline
    dsimp only
    rw [if_pos]
    exact h
  have hold : (s.modTim (fun x => { x with lastDisc := some s.clk })).get Reg.TIM_STS_STATE = 2 := h.1
  have seconds : (s.modTim (fun x => { x with lastDisc := some s.clk })).holdSeconds = s.holdSeconds := rfl
  rw [leaves]
  generalize s.modTim _ = v at hold seconds ⊢
  rw [lock_leaves hold, seconds]
  obtain ⟨state, reason, bound⟩ := lockedRegs_fields v
  have regs := lockedRegs_onlyRegs v
  generalize lockedRegs v = u at state reason bound regs ⊢
  refine ⟨_, rfl, ?_, ?_, ?_, regs.modTim _⟩
  · rw [State.modTim_get, state]
  · rw [State.modTim_get, reason]
  · rw [State.modTim_rd, bound]

/-! ### SET and ADD (R366, R368) -/

theorem adjWord_op {op : Nat} (h : op < 4) : fieldOf Reg.TIM_ADJ_CMD_OP (word [(Reg.TIM_ADJ_CMD_OP, op)]) = op :=
  fieldOf_setBits 0 Reg.TIM_ADJ_CMD_OP (by decide) (by decide) h

theorem adjWrite_refuses {s : State} (b : s.flag Reg.TIM_ADJ_CMD_BUSY = true) {op : Nat} (h : op = 1 ∨ op = 2) :
    adjWrite (word [(Reg.TIM_ADJ_CMD_OP, op)]) s = s.inc Reg.CTL_FAULT_BUSY := by
  unfold adjWrite
  rw [adjWord_op (by omega)]
  exact startUnlessBusy_refuses (by simpa using h) b

theorem adjWrite_sets {s : State} (k : mlook 0 Reg.TIM_ADJ_CMD s.locks = 0) (b : s.flag Reg.TIM_ADJ_CMD_BUSY = false) :
    ∃ u, OnlyRegs [Reg.TIM_ADJ_CMD] s u ∧ adjWrite (word [(Reg.TIM_ADJ_CMD_OP, 1)]) s = timSetOp u := by
  refine ⟨_, onlyRegs_storeReg (List.mem_singleton_self _) k (word [(Reg.TIM_ADJ_CMD_OP, 1)]), ?_⟩
  unfold adjWrite
  dsimp only
  rw [startUnlessBusy_acts b, adjWord_op (by decide)]
  generalize storeReg Reg.TIM_ADJ_CMD _ s = u
  rfl

theorem adjWrite_adds {s : State} (k : mlook 0 Reg.TIM_ADJ_CMD s.locks = 0) (b : s.flag Reg.TIM_ADJ_CMD_BUSY = false) :
    ∃ u, OnlyRegs [Reg.TIM_ADJ_CMD] s u ∧ adjWrite (word [(Reg.TIM_ADJ_CMD_OP, 2)]) s = timAddOp u := by
  refine ⟨_, onlyRegs_storeReg (List.mem_singleton_self _) k (word [(Reg.TIM_ADJ_CMD_OP, 2)]), ?_⟩
  unfold adjWrite
  dsimp only
  rw [startUnlessBusy_acts b, adjWord_op (by decide)]
  generalize storeReg Reg.TIM_ADJ_CMD _ s = u
  rfl

/-- The value that the adjust registers stage, in units of T. -/
def adjValue (s : State) : Int := ((s.adjSec * 1000000000 + (s.rd Reg.TIM_ADJ_NS).toNat : Nat) : Int) * 2 ^ 42

/-- T moved by the staged value, either way. -/
def adjSum (s : State) : Int := if s.flag Reg.TIM_ADJ_SEC_HI_NEG then s.nowUnits - adjValue s else s.nowUnits + adjValue s

theorem OnlyRegs.adjValue_eq {s t : State} {offs : List Nat} (h : OnlyRegs offs s t) (k : Reg.TIM_ADJ_SEC_HI ∉ offs)
    (l : Reg.TIM_ADJ_SEC_LO ∉ offs) (n : Reg.TIM_ADJ_NS ∉ offs) : adjValue t = adjValue s := by
  rw [adjValue, adjValue, h.adjSec_eq k l, h.2 _ n]

theorem OnlyRegs.adjSum_eq {s t : State} {offs : List Nat} (h : OnlyRegs offs s t) (k : Reg.TIM_ADJ_SEC_HI ∉ offs)
    (l : Reg.TIM_ADJ_SEC_LO ∉ offs) (n : Reg.TIM_ADJ_NS ∉ offs) : adjSum t = adjSum s := by
  rw [adjSum, adjSum, h.adjValue_eq k l n, h.nowUnits_eq, h.flag Reg.TIM_ADJ_SEC_HI_NEG k]

/-- A SET whose NS is a second or more does nothing. -/
theorem timSetOp_ignored {s : State} (h : 1000000000 ≤ (s.rd Reg.TIM_ADJ_NS).toNat) : timSetOp s = s := if_pos h

/-- SET gives T the staged value, VALID, and from FREE the state LOCKED. -/
theorem timSetOp_steps {s : State} (h : (s.rd Reg.TIM_ADJ_NS).toNat < 1000000000) : ∃ u, OnlyRegs [Reg.TIM_STS] s u ∧
    timSetOp s = stepTime u (adjValue s) ∧ u.flag Reg.TIM_STS_VALID = true ∧
    u.get Reg.TIM_STS_STATE = if s.get Reg.TIM_STS_STATE = 0 then 1 else s.get Reg.TIM_STS_STATE := by
  have valid := s.flag_setFlag Reg.TIM_STS_VALID true rfl (by decide)
  have kept : (s.setFlag Reg.TIM_STS_VALID true).get Reg.TIM_STS_STATE = s.get Reg.TIM_STS_STATE :=
    s.get_set_apart Reg.TIM_STS_VALID Reg.TIM_STS_STATE _ (by decide) (by decide) rfl (by decide)
  have regs := (OnlyRegs.refl [Reg.TIM_STS] s).setFlag (f := Reg.TIM_STS_VALID) (by decide) true
  have op : timSetOp s = (let v := s.setFlag Reg.TIM_STS_VALID true
      let u := if v.get Reg.TIM_STS_STATE = 0 then v.set Reg.TIM_STS_STATE 1 else v
      stepTime u ((u.adjSec * 1000000000 + (s.rd Reg.TIM_ADJ_NS).toNat : Nat) * nsUnit)) := if_neg (by omega)
  rw [op]
  dsimp only
  generalize s.setFlag Reg.TIM_STS_VALID true = v at valid kept regs
  rw [kept]
  by_cases free : s.get Reg.TIM_STS_STATE = 0
  · have state := v.get_set Reg.TIM_STS_STATE (by decide) (by decide) 1
    have regs := regs.set (f := Reg.TIM_STS_STATE) (by decide) 1
    have valid := (v.flag_set_apart Reg.TIM_STS_STATE Reg.TIM_STS_VALID 1 (by decide) (by decide) rfl (by decide)).trans valid
    rw [if_pos free, if_pos free]
    generalize v.set Reg.TIM_STS_STATE 1 = u at state regs valid
    refine ⟨u, regs, ?_, valid, state⟩
    rw [regs.adjSec_eq (by decide) (by decide)]
    rfl
  · rw [if_neg free, if_neg free]
    refine ⟨v, regs, ?_, valid, kept⟩
    rw [regs.adjSec_eq (by decide) (by decide)]
    rfl

/-- An ADD with an NS out of range, or out of T's range, does nothing. -/
theorem timAddOp_ignored {s : State}
    (h : 1000000000 ≤ (s.rd Reg.TIM_ADJ_NS).toNat ∨ adjSum s < 0 ∨ 2 ^ 48 * 1000000000 * 2 ^ 42 ≤ adjSum s) : timAddOp s = s := if_pos h

/-- ADD moves T by the staged value. -/
theorem timAddOp_steps {s : State}
    (h : ¬ (1000000000 ≤ (s.rd Reg.TIM_ADJ_NS).toNat ∨ adjSum s < 0 ∨ 2 ^ 48 * 1000000000 * 2 ^ 42 ≤ adjSum s)) :
    timAddOp s = stepTime s (adjSum s) := if_neg h

end Sys2Proof.Machine

namespace Sys2Proof.Proofs
open Sys2Proof.Machine

/-- Settles O41: the rate by a rebase, a discipline write by whether it ends the HOLDOVER, SET and ADD by their ranges. -/
theorem timeDisciplined : Obligations.TimeDisciplined := by
  intro s who rate t0 h rateFree adjFree
  refine ⟨?_, rateOf_range rate, discipline_noted, discipline_ends, fun busy => ⟨?_, ?_⟩,
    fun idle => ⟨fun small => ?_, fun large => ?_, fun small low high => ?_, fun out => ?_⟩, rebase_nowUnits s t0, ?_⟩
  · have stored := onlyRegs_storeReg (List.mem_singleton_self Reg.TIM_RATE) (s := rebase s s.nowUnits) rateFree rate
    have rd := rd_storeRate (s := rebase s s.nowUnits) rateFree rate
    refine ⟨_, congrArg Host.Outcome.next (gateOwner_acts _ _ h), ?_, rfl, rd, stored.withTim _⟩
    generalize storeReg Reg.TIM_RATE rate _ = u at stored ⊢
    refine (timeAt_base ?_).trans ?_
    · rw [State.modTim, stored.tim_eq]; rfl
    · rw [State.modTim, stored.tim_eq]; rfl
  · exact congrArg Host.Outcome.next ((gateOwner_acts _ _ h).trans (adjWrite_refuses busy (Or.inl rfl)))
  · exact congrArg Host.Outcome.next ((gateOwner_acts _ _ h).trans (adjWrite_refuses busy (Or.inr rfl)))
  · obtain ⟨v, hv, acts⟩ := adjWrite_sets adjFree idle
    obtain ⟨u, hu, steps, valid, state⟩ := timSetOp_steps (s := v) (by rwa [hv.2 _ (by decide)])
    rw [hv.adjValue_eq (by decide) (by decide) (by decide)] at steps
    rw [hv.get Reg.TIM_STS_STATE (by decide)] at state
    exact ⟨u, congrArg Host.Outcome.next ((gateOwner_acts _ _ h).trans (acts.trans steps)), valid, state,
      (hv.mono (by simp)).trans (hu.mono (by simp))⟩
  · obtain ⟨v, hv, acts⟩ := adjWrite_sets adjFree idle
    have ignored := timSetOp_ignored (s := v) (by rwa [hv.2 _ (by decide)])
    exact ⟨v, congrArg Host.Outcome.next ((gateOwner_acts _ _ h).trans (acts.trans ignored)), hv⟩
  · obtain ⟨v, hv, acts⟩ := adjWrite_adds adjFree idle
    have sum := hv.adjSum_eq (by decide) (by decide) (by decide)
    have steps := timAddOp_steps (s := v) (by
      rw [hv.2 Reg.TIM_ADJ_NS (by decide), sum]
      exact fun no => no.elim (fun n => absurd n (Nat.not_le.2 small)) (fun n => n.elim (fun n => absurd n (Int.not_lt.2 low))
        (fun n => absurd n (Int.not_le.2 high))))
    rw [sum] at steps
    exact ⟨v, congrArg Host.Outcome.next ((gateOwner_acts _ _ h).trans (acts.trans steps)), hv⟩
  · obtain ⟨v, hv, acts⟩ := adjWrite_adds adjFree idle
    have ignored := timAddOp_ignored (s := v) (by
      rw [hv.2 Reg.TIM_ADJ_NS (by decide), hv.adjSum_eq (by decide) (by decide) (by decide)]
      exact out)
    exact ⟨v, congrArg Host.Outcome.next ((gateOwner_acts _ _ h).trans (acts.trans ignored)), hv⟩
  · unfold stepTime
    simp only [decide_eq_true_eq]

end Sys2Proof.Proofs
end

section
/-! SUPPORT. The changeover of a region, the conversion of a page, and the seal (11 R401, R406, R420, R422 to R424). -/

namespace Sys2Proof.Machine

/-! ### START in MGD_CHG_CMD (R423, R426) -/

theorem chgWord_fields (r : BitVec 3) :
    fieldOf Reg.MGD_CHG_CMD_START (word [(Reg.MGD_CHG_CMD_START, 1), (Reg.MGD_CHG_CMD_REGION, r.toNat)]) = 1 ∧
    fieldOf Reg.MGD_CHG_CMD_REGION (word [(Reg.MGD_CHG_CMD_START, 1), (Reg.MGD_CHG_CMD_REGION, r.toNat)]) = r.toNat :=
  ⟨fieldOf_word_fst _ _ _ (by decide) (by decide) (by decide) (by decide), fieldOf_word_snd _ _ _ (by decide) r.isLt⟩

theorem chgCmdWrite_refuses {s : State} (b : s.flag Reg.MGD_CHG_CMD_BUSY = true) (r : BitVec 3) :
    chgCmdWrite (word [(Reg.MGD_CHG_CMD_START, 1), (Reg.MGD_CHG_CMD_REGION, r.toNat)]) s = s.inc Reg.CTL_FAULT_BUSY := by
  unfold chgCmdWrite
  rw [(chgWord_fields r).1]
  exact startUnlessBusy_refuses rfl b

/-- An idle MGD_CHG_CMD keeps the command, and the named region's START is judged. -/
theorem chgStart_eq {s : State} {who : Who} (h : Serves s who) (k : mlook 0 Reg.MGD_CHG_CMD s.locks = 0) (b : s.flag Reg.MGD_CHG_CMD_BUSY = false) (r : BitVec 3) :
    ∃ u, OnlyRegs [Reg.MGD_CHG_CMD] s u ∧ exec (.chgStart who r) s = .next (chgStartOp r.toNat u) := by
  obtain ⟨start, region⟩ := chgWord_fields r
  refine ⟨_, onlyRegs_storeReg (List.mem_singleton_self _) k (word [(Reg.MGD_CHG_CMD_START, 1), (Reg.MGD_CHG_CMD_REGION, r.toNat)]),
    congrArg Host.Outcome.next ((gateOwner_acts Reg.MGD_CHG_CMD _ h).trans ?_)⟩
  generalize word _ = w at start region
  unfold chgCmdWrite
  dsimp only
  rw [startUnlessBusy_acts b, start, region]
  exact if_pos rfl

theorem chgStartOp_queued {s : State} {r : Nat} (h : r ∈ s.mgd.chgQueue) : chgStartOp r s = s := by
  unfold chgStartOp
  rw [if_pos (by simpa using h)]

theorem chgStartOp_region0 {s : State} (h : 0 ∉ s.mgd.chgQueue) : chgStartOp 0 s = s.set Reg.MGD_CHG_STS_RESULT 1 := by
  unfold chgStartOp
  rw [if_neg (by simpa using h), if_pos rfl]

section Judged
variable {s : State} {r : Nat} (free : r ∉ s.mgd.chgQueue) (zero : r ≠ 0)
include free zero

theorem chgStartOp_notServed (h : s.rgnState r ≠ 2 ∨ s.mgd.keysGone = true) : chgStartOp r s = s.set Reg.MGD_CHG_STS_RESULT 2 := by
  unfold chgStartOp
  rw [if_neg (by simpa using free), if_neg zero, if_pos h]

theorem chgStartOp_genEnd (h : s.rgnState r = 2 ∧ s.mgd.keysGone = false) (g : s.get (Reg.MGD_RGN_STS_GEN r) = 65535) :
    chgStartOp r s = s.set Reg.MGD_CHG_STS_RESULT 3 := by
  unfold chgStartOp
  rw [if_neg (by simpa using free), if_neg zero, if_neg (by simp [h]), if_pos g]

theorem chgStartOp_waits (h : s.rgnState r = 2 ∧ s.mgd.keysGone = false) (g : s.get (Reg.MGD_RGN_STS_GEN r) < 65535)
    (a : s.flag Reg.MGD_STS_CHG_ACTIVE = true) : chgStartOp r s =
      ((s.set (Reg.MGD_RGN_STS_QUEUED r) 1).set Reg.MGD_CHG_STS_RESULT 4).modMgd (fun m => { m with chgQueue := m.chgQueue ++ [r] }) := by
  unfold chgStartOp
  rw [if_neg (by simpa using free), if_neg zero, if_neg (by simp [h]), if_neg (Nat.ne_of_lt g), if_pos a]

theorem chgStartOp_begins (h : s.rgnState r = 2 ∧ s.mgd.keysGone = false) (g : s.get (Reg.MGD_RGN_STS_GEN r) < 65535)
    (a : s.flag Reg.MGD_STS_CHG_ACTIVE = false) : chgStartOp r s = startChg (s.set Reg.MGD_CHG_STS_RESULT 0) r := by
  unfold chgStartOp
  rw [if_neg (by simpa using free), if_neg zero, if_neg (by simp [h]), if_neg (Nat.ne_of_lt g), if_neg (by simp [a])]

end Judged

theorem set_result (s : State) {v : Nat} (h : v < 16) : (s.set Reg.MGD_CHG_STS_RESULT v).get Reg.MGD_CHG_STS_RESULT = v :=
  (s.get_set _ (by decide) (by decide) v).trans (Nat.mod_eq_of_lt h)

/-- The registers of a region do not meet those of the command. -/
theorem rgnSts_apart {r : Nat} : Reg.MGD_RGN_STS r ≠ Reg.MGD_CHG_CMD ∧ Reg.MGD_RGN_STS r ≠ Reg.MGD_CHG_STS ∧
    Reg.MGD_RGN_STS r ≠ Reg.MGD_STS := by
  simp only [Reg.MGD_RGN_STS, Reg.MGD_CHG_CMD, Reg.MGD_CHG_STS, Reg.MGD_STS]
  omega

/-- A field of MGD_RGN_STS[r] under a change of another register. -/
theorem rgnField_off (s : State) {r : Nat} {f g : Field} (hf : f.off = Reg.MGD_RGN_STS r) (hg : Reg.MGD_RGN_STS r ≠ g.off) (v : Nat) :
    (s.set g v).get f = s.get f := s.get_set_off g f v (by rwa [hf])

theorem waits_fields (s : State) (r : Nat) (u : State)
    (h : u = (s.set (Reg.MGD_RGN_STS_QUEUED r) 1).set Reg.MGD_CHG_STS_RESULT 4) : u.get Reg.MGD_CHG_STS_RESULT = 4 ∧
    u.flag (Reg.MGD_RGN_STS_QUEUED r) = true ∧ u.get (Reg.MGD_RGN_STS_STATE r) = s.get (Reg.MGD_RGN_STS_STATE r) := by
  subst h
  refine ⟨set_result _ (by decide), ?_, ?_⟩
  · rw [State.flag, rgnField_off _ rfl rgnSts_apart.2.1, State.get_set _ _ (Nat.le_refl 26) (by simp [Reg.MGD_RGN_STS_QUEUED])]
    rfl
  · rw [rgnField_off _ rfl rgnSts_apart.2.1, State.get_set_apart _ (Reg.MGD_RGN_STS_QUEUED r) (Reg.MGD_RGN_STS_STATE r) _
      (Nat.le_refl 26) (by simp [Reg.MGD_RGN_STS_QUEUED]) rfl (by simp [Reg.MGD_RGN_STS_QUEUED, Reg.MGD_RGN_STS_STATE])]

/-- The registers of a region whose changeover begins: CHANGEOVER, not queued, GEN one higher. -/
def begunRegion (s : State) (r : Nat) : State :=
  let t := (s.set (Reg.MGD_RGN_STS_STATE r) 3).set (Reg.MGD_RGN_STS_QUEUED r) 0
  t.set (Reg.MGD_RGN_STS_GEN r) (t.get (Reg.MGD_RGN_STS_GEN r) + 1)

/-- The registers of the guard when a changeover begins. -/
def begunGuard (s : State) (r : Nat) : State :=
  let t := s.setFlag Reg.MGD_STS_CHG_ACTIVE true
  t.wr Reg.MGD_CHG_STS (word [(Reg.MGD_CHG_STS_RESULT, t.get Reg.MGD_CHG_STS_RESULT), (Reg.MGD_CHG_STS_REGION, r)])

/-- The descriptor that the retention store holds of a region whose changeover begins. -/
def begunRet (r : Nat) (t : Retention) : Retention :=
  match mget r t.regions with
  | some x => { t with regions := mput r { x with gen := x.gen + 1, changing := true, boundary := 0 } t.regions }
  | none => t

theorem startChg_eq (s : State) (r : Nat) : startChg s r = (begunGuard (begunRegion s r) r).modRet (begunRet r) := by
  unfold startChg begunGuard begunRegion
  rfl

theorem begunRegion_state (s : State) (r : Nat) : (begunRegion s r).get (Reg.MGD_RGN_STS_STATE r) = 3 := by
  unfold begunRegion
  dsimp only
  rw [State.get_set_apart _ (Reg.MGD_RGN_STS_GEN r) (Reg.MGD_RGN_STS_STATE r) _ (by simp [Reg.MGD_RGN_STS_GEN]) (by simp [Reg.MGD_RGN_STS_GEN])
      rfl (by simp [Reg.MGD_RGN_STS_GEN, Reg.MGD_RGN_STS_STATE]),
    State.get_set_apart _ (Reg.MGD_RGN_STS_QUEUED r) (Reg.MGD_RGN_STS_STATE r) _ (by simp [Reg.MGD_RGN_STS_QUEUED])
      (by simp [Reg.MGD_RGN_STS_QUEUED]) rfl (by simp [Reg.MGD_RGN_STS_QUEUED, Reg.MGD_RGN_STS_STATE]),
    State.get_set _ _ (by simp [Reg.MGD_RGN_STS_STATE]) (by simp [Reg.MGD_RGN_STS_STATE])]
  rfl

theorem begunRegion_gen {s : State} {r : Nat} (h : s.get (Reg.MGD_RGN_STS_GEN r) < 65535) :
    (begunRegion s r).get (Reg.MGD_RGN_STS_GEN r) = s.get (Reg.MGD_RGN_STS_GEN r) + 1 := by
  unfold begunRegion
  dsimp only
  rw [State.get_set _ _ (by simp [Reg.MGD_RGN_STS_GEN]) (by simp [Reg.MGD_RGN_STS_GEN]),
    State.get_set_apart _ (Reg.MGD_RGN_STS_QUEUED r) (Reg.MGD_RGN_STS_GEN r) _ (by simp [Reg.MGD_RGN_STS_QUEUED])
      (by simp [Reg.MGD_RGN_STS_QUEUED]) rfl (by simp [Reg.MGD_RGN_STS_QUEUED, Reg.MGD_RGN_STS_GEN]),
    State.get_set_apart _ (Reg.MGD_RGN_STS_STATE r) (Reg.MGD_RGN_STS_GEN r) _ (by simp [Reg.MGD_RGN_STS_STATE])
      (by simp [Reg.MGD_RGN_STS_STATE]) rfl (by simp [Reg.MGD_RGN_STS_STATE, Reg.MGD_RGN_STS_GEN])]
  generalize s.get (Reg.MGD_RGN_STS_GEN r) = g at h ⊢
  have size : 2 ^ ((Reg.MGD_RGN_STS_GEN r).hi + 1 - (Reg.MGD_RGN_STS_GEN r).lo) = 65536 := by simp [Reg.MGD_RGN_STS_GEN]
  rw [size]
  omega

theorem begunRegion_onlyRegs (s : State) (r : Nat) : OnlyRegs [Reg.MGD_RGN_STS r] s (begunRegion s r) :=
  (((OnlyRegs.refl _ s).set (f := Reg.MGD_RGN_STS_STATE r) (List.mem_singleton_self _) 3).set (f := Reg.MGD_RGN_STS_QUEUED r)
    (List.mem_singleton_self _) 0).set (f := Reg.MGD_RGN_STS_GEN r) (List.mem_singleton_self _) _

theorem begunGuard_onlyRegs (s : State) (r : Nat) : OnlyRegs [Reg.MGD_STS, Reg.MGD_CHG_STS] s (begunGuard s r) :=
  ((OnlyRegs.refl _ s).setFlag (f := Reg.MGD_STS_CHG_ACTIVE) (by decide) true).wr (by decide) _

theorem begunGuard_fields (s : State) {r : Nat} (h : r < 8) : (begunGuard s r).get Reg.MGD_CHG_STS_RESULT = s.get Reg.MGD_CHG_STS_RESULT ∧
    (begunGuard s r).get Reg.MGD_CHG_STS_REGION = r ∧ (begunGuard s r).flag Reg.MGD_STS_CHG_ACTIVE = true := by
  unfold begunGuard
  dsimp only
  have active := s.flag_setFlag Reg.MGD_STS_CHG_ACTIVE true rfl (by decide)
  have kept : (s.setFlag Reg.MGD_STS_CHG_ACTIVE true).get Reg.MGD_CHG_STS_RESULT = s.get Reg.MGD_CHG_STS_RESULT :=
    s.get_set_off _ _ _ (by decide)
  generalize s.setFlag Reg.MGD_STS_CHG_ACTIVE true = t at active kept ⊢
  rw [kept]
  refine ⟨(t.get_wr _ _).trans ?_, (t.get_wr _ _).trans ?_, ?_⟩
  · exact fieldOf_word_fst _ Reg.MGD_CHG_STS_REGION _ (by decide) (by decide) (by decide) (bits_lt _ _ _)
  · exact fieldOf_word_snd Reg.MGD_CHG_STS_RESULT _ _ (by decide) h
  · rw [State.flag, State.get_wr_ne _ _ _ (by decide)]
    exact active

/-- A changeover that begins (R422, R423). -/
theorem startChg_begins {s : State} {r : Nat} (h : r < 8) (g : s.get (Reg.MGD_RGN_STS_GEN r) < 65535) {t : State} (e : t = startChg s r) :
    t.get Reg.MGD_CHG_STS_RESULT = s.get Reg.MGD_CHG_STS_RESULT ∧ t.get Reg.MGD_CHG_STS_REGION = r ∧
    t.flag Reg.MGD_STS_CHG_ACTIVE = true ∧ t.rgnState r = 3 ∧
    t.get (Reg.MGD_RGN_STS_GEN r) = s.get (Reg.MGD_RGN_STS_GEN r) + 1 ∧ t.mgd.lines = s.mgd.lines := by
  have region := begunRegion_onlyRegs s r
  have state := begunRegion_state s r
  have gen := begunRegion_gen g
  rw [startChg_eq] at e
  generalize begunRegion s r = v at region state gen e
  have guard := begunGuard_onlyRegs v r
  obtain ⟨result, named, active⟩ := begunGuard_fields v h
  generalize begunGuard v r = w at guard result named active e
  have result' : v.get Reg.MGD_CHG_STS_RESULT = s.get Reg.MGD_CHG_STS_RESULT :=
    region.get _ (fun m => rgnSts_apart.2.1 (List.mem_singleton.1 m).symm)
  have out (x : Field) (hx : x.off = Reg.MGD_RGN_STS r) : w.get x = v.get x :=
    guard.get x (by rw [hx]; simp [rgnSts_apart.2.1, rgnSts_apart.2.2])
  subst e
  refine ⟨?_, ?_, ?_, ?_, ?_, ?_⟩
  · rw [State.modRet, State.modMgd_get, result, result']
  · rw [State.modRet, State.modMgd_get, named]
  · rw [State.modRet, State.modMgd_flag, active]
  · rw [State.rgnState, State.modRet, State.modMgd_get, out _ rfl, state]
  · rw [State.modRet, State.modMgd_get, out _ rfl, gen]
  · show w.mgd.lines = s.mgd.lines
    rw [guard.mgd_eq, region.mgd_eq]

/-! ### The conversion of a page (R422) -/

theorem storePage_out (s : State) (p : Nat) : ∃ out, storePage s p = { s with out := out } := by
  have fold (f : State → Nat → List Byte) (o : State → Nat → Nat) (l : List Nat) :
      ∀ s : State, ∃ out, l.foldl (fun s x => s.store (o s x) (f s x)) s = { s with out := out } := by
    induction l with
    | nil => exact fun s => ⟨s.out, rfl⟩
    | cons x l ih =>
      intro s
      obtain ⟨out, e⟩ := ih (s.store (o s x) (f s x))
      exact ⟨out, e⟩
  unfold storePage
  obtain ⟨first, e⟩ := fold (fun s l => s.cipherLine (64 * p + l)) (fun s l => s.pathOffset 0 (64 * p + l)) (List.range 64) s
  obtain ⟨second, e'⟩ := fold (fun s i => s.macLine (64 * p + 8 * i)) (fun s i => s.pathOffset 1 (64 * p + 8 * i)) (List.range 8)
    { s with out := first }
  exact ⟨second, (congrArg (fun s : State => (List.range 8).foldl (fun s i => s.store (s.pathOffset 1 (64 * p + 8 * i))
    (s.macLine (64 * p + 8 * i))) s) e).trans e'⟩

theorem chgPageOp_idle {s : State} (h : s.flag Reg.MGD_STS_CHG_ACTIVE = false ∨ s.mgd.keysGone = true) : chgPageOp s = s := by
  unfold chgPageOp
  rw [if_pos h]

/-- The next written page behind the boundary of region r's changeover. -/
def nextPage (s : State) (r : Nat) : Option (Nat × CtrBlock) :=
  s.mgd.ctrs.find? (fun e => decide (s.rgnBase r * 512 + s.get Reg.MGD_CHG_STS_BOUNDARY ≤ e.1) &&
    decide (e.1 < s.rgnBase r * 512 + s.rgnSize r * 512))

theorem chgPageOp_ends {s : State} (a : s.flag Reg.MGD_STS_CHG_ACTIVE = true) (k : s.mgd.keysGone = false)
    (h : nextPage s (s.get Reg.MGD_CHG_STS_REGION) = none) : chgPageOp s =
      chgDone (s.set Reg.MGD_CHG_STS_BOUNDARY (s.rgnSize (s.get Reg.MGD_CHG_STS_REGION) * 512)) (s.get Reg.MGD_CHG_STS_REGION) := by
  unfold chgPageOp
  rw [if_neg (by simp [a, k])]
  dsimp only
  unfold nextPage at h
  rw [h]

/-- A page converted: its counters, counted, and the boundary behind it. -/
def convertedPage (s : State) (p : Nat) (blk : CtrBlock) (b : Nat) : State :=
  ((s.modMgd (fun m => { m with ctrs := mput p (convertBlock blk) m.ctrs, dirty := ladd p m.dirty })).inc Reg.MGD_CHG_PAGES).set
    Reg.MGD_CHG_STS_BOUNDARY b

/-- The boundary that the retention store holds of a region. -/
def placedRet (r b : Nat) (t : Retention) : Retention :=
  match mget r t.regions with
  | some x => { t with regions := mput r { x with boundary := b } t.regions }
  | none => t

theorem chgPageOp_converts {s : State} (a : s.flag Reg.MGD_STS_CHG_ACTIVE = true) (k : s.mgd.keysGone = false) {p : Nat} {blk : CtrBlock}
    (h : nextPage s (s.get Reg.MGD_CHG_STS_REGION) = some (p, blk)) :
    let c := s.get Reg.MGD_CHG_STS_REGION
    let f := placedRet c (p - s.rgnBase c * 512 + 1)
    chgPageOp s = if p - s.rgnBase c * 512 + 1 = s.rgnSize c * 512
      then chgDone ((storePage (convertedPage s p blk (p - s.rgnBase c * 512 + 1)) p).modRet f) c
      else (storePage (convertedPage s p blk (p - s.rgnBase c * 512 + 1)) p).modRet f := by
  intro c f
  unfold chgPageOp
  rw [if_neg (by simp [a, k])]
  dsimp only
  unfold nextPage at h
  rw [h]
  rfl

/-- What a page's conversion leaves: the page's counters converted and dirty, its lines as they were. -/
theorem convertedPage_shown {s : State} (room : Room s Reg.MGD_CHG_PAGES) (p : Nat) (blk : CtrBlock) (b : Nat) (f : Retention → Retention)
    {u : State} (e : u = (storePage (convertedPage s p blk b) p).modRet f) :
    mget p u.mgd.ctrs = some (convertBlock blk) ∧ p ∈ u.mgd.dirty ∧ u.mgd.lines = s.mgd.lines ∧
    u.ctr Reg.MGD_CHG_PAGES = s.ctr Reg.MGD_CHG_PAGES + 1 ∧ u.regs = (s.set Reg.MGD_CHG_STS_BOUNDARY b).regs := by
  obtain ⟨out, shown⟩ := storePage_out (convertedPage s p blk b) p
  have count := State.inc_eq (s.modMgd (fun m => { m with ctrs := mput p (convertBlock blk) m.ctrs, dirty := ladd p m.dirty }))
    Reg.MGD_CHG_PAGES room
  rw [shown, convertedPage, count] at e
  generalize Reg.MGD_CHG_PAGES = c at e ⊢
  generalize Reg.MGD_CHG_STS_BOUNDARY = g at e ⊢
  subst e
  exact ⟨mget_mput_same _ _ _, mem_ladd _ _, rfl, (mlook_mstore_same 0 c (s.ctr c + 1) s.cnt.vals), rfl⟩

theorem mlook_listed_all (f : Nat → Nat) {l : List Nat} {i : Nat} (h : i ∈ l) : mlook 0 i (l.map (fun i => (i, f i))) = f i := by
  induction l with
  | nil => simp at h
  | cons j l ih =>
    by_cases e : j = i
    · simp [mlook, mget, e]
    · have rest := ih (by simpa [Ne.symm e] using h)
      simpa [mlook, mget, e] using rest

theorem convertBlock_major (b : CtrBlock) : (convertBlock b).major = b.major + 1 := by
  unfold convertBlock
  split <;> rfl

/-- Each line of a page without a minor at its end is counted as written once more. -/
theorem convertBlock_minor {b : CtrBlock} (h : ∀ q < 64, b.minor q ≠ 127) {l : Nat} (k : l < 64) : (convertBlock b).minor l = b.minor l + 1 := by
  have none : (List.range 64).any (fun l => decide (b.minor l = 127)) = false := by
    rw [List.any_eq_false]
    exact fun q hq => by simpa using h q (List.mem_range.1 hq)
  unfold convertBlock
  rw [none]
  exact mlook_listed_all (fun l => b.minor l + 1) (List.mem_range.2 k)

/-! ### The seal (R406, R420, R426) -/

theorem sealOp_idle {s : State} (ok : Bool) (h : (s.ctl.cond ≠ .halted ∧ s.ctl.cond ≠ .reset) ∨ s.mgd.ret.isSealed = true ∨
    s.mgd.ret.poison = true ∨ s.mgd.ret.crcOk = false) : sealOp ok s = s := by
  unfold sealOp
  rw [if_pos h]

theorem sealOp_acts {s : State} (ok : Bool) (c : s.ctl.cond = .halted ∨ s.ctl.cond = .reset) (i : s.mgd.ret.isSealed = false)
    (p : s.mgd.ret.poison = false) (k : s.mgd.ret.crcOk = true) : sealOp ok s =
      if ok then (writeBackAll s).modRet (fun t => { t with isSealed := true })
      else raise0 (s.modRet (fun t => { t with poison := true })) 0x600B 0 := by
  unfold sealOp
  rw [if_neg]
  rintro (⟨h, h'⟩ | h | h | h)
  · exact c.elim h h'
  · simp [i] at h
  · simp [p] at h
  · simp [k] at h

/-- Nothing dirty, nothing written back. -/
theorem writeBackAll_clean {s : State} (h : s.mgd.dirty = []) : writeBackAll s = s := by
  unfold writeBackAll
  rw [h]
  have keys : (List.flatMap s.pathKeys []).eraseDups = [] := rfl
  have nodes (t : State) : (List.range t.levels.length).flatMap (fun k =>
      ((([] : List Nat).map (fun p => p / 8 ^ (k + 1))).eraseDups).map (fun i => (k + 1, i))) = [] :=
    List.flatMap_eq_nil_iff.2 (fun _ _ => rfl)
  simp only [keys, List.foldl_nil, nodes]
  have clean : { s.mgd with dirty := [] } = s.mgd := by rw [← h]
  rw [State.modMgd, clean]

end Sys2Proof.Machine

namespace Sys2Proof.Proofs
open Sys2Proof.Machine

/-- Settles O44: START by the region's own state, a page by what stands behind the boundary, the seal by what the store keeps. -/
theorem regionsChangeOver : Obligations.RegionsChangeOver := by
  intro s who r ok p blk
  refine ⟨fun h unlocked => ⟨fun busy => ?_, fun idle => ?_⟩, fun run => ⟨fun none => ?_, fun active keys => ⟨fun last => ?_, fun next room => ?_⟩⟩,
    ⟨convertBlock_major blk, fun l hl small => convertBlock_minor small hl⟩, fun halted reset => ?_, fun cond isSealed poison crc => ⟨?_, ?_⟩,
    writeBackAll_clean, rfl, fun kept => ?_⟩
  · exact congrArg Host.Outcome.next ((gateOwner_acts _ _ h).trans (chgCmdWrite_refuses busy r))
  · obtain ⟨u, hu, acts⟩ := chgStart_eq h unlocked idle r
    have rgn (f : Field) (hf : f.off = Reg.MGD_RGN_STS r.toNat) : u.get f = s.get f := hu.get f (by simpa [hf] using rgnSts_apart.1)
    have refused (v : Nat) (hv : v < 16) : OnlyRegs [Reg.MGD_CHG_CMD, Reg.MGD_CHG_STS] s (u.set Reg.MGD_CHG_STS_RESULT v) :=
      (hu.mono (by simp)).set (f := Reg.MGD_CHG_STS_RESULT) (by decide) v
    refine ⟨fun queued => ?_, fun free => ⟨fun zero => ?_, fun zero notServed => ?_, fun zero served keys => ⟨fun last => ?_,
      fun gen active => ?_, fun gen idle => ?_⟩⟩⟩
    · rw [chgStartOp_queued (by rwa [hu.mgd_eq])] at acts
      exact ⟨u, acts, hu⟩
    · rw [zero, chgStartOp_region0 (by rwa [hu.mgd_eq, ← zero])] at acts
      exact ⟨_, acts, set_result _ (by decide), refused 1 (by decide)⟩
    · rw [chgStartOp_notServed (by rwa [hu.mgd_eq]) zero (by rwa [State.rgnState, rgn _ rfl, hu.mgd_eq])] at acts
      exact ⟨_, acts, set_result _ (by decide), refused 2 (by decide)⟩
    · rw [chgStartOp_genEnd (by rwa [hu.mgd_eq]) zero ⟨(rgn _ rfl).trans served, by rwa [hu.mgd_eq]⟩ ((rgn _ rfl).trans last)] at acts
      exact ⟨_, acts, set_result _ (by decide), refused 3 (by decide)⟩
    · rw [chgStartOp_waits (by rwa [hu.mgd_eq]) zero ⟨(rgn _ rfl).trans served, by rwa [hu.mgd_eq]⟩ (by rwa [rgn _ rfl])
        (by rwa [hu.flag Reg.MGD_STS_CHG_ACTIVE (by decide)])] at acts
      have queue : ((u.set (Reg.MGD_RGN_STS_QUEUED r.toNat) 1).set Reg.MGD_CHG_STS_RESULT 4).mgd.chgQueue = s.mgd.chgQueue := by
        rw [State.set_mgd, State.set_mgd, hu.mgd_eq]
      obtain ⟨result, flag, state⟩ := waits_fields u r.toNat _ rfl
      generalize (u.set (Reg.MGD_RGN_STS_QUEUED r.toNat) 1).set Reg.MGD_CHG_STS_RESULT 4 = v at acts queue result flag state
      refine ⟨_, acts, ?_, ?_, ?_, ?_⟩
      · rw [State.modMgd_get, result]
      · rw [State.modMgd_mgd, queue]
      · rw [State.modMgd_flag, flag]
      · rw [State.rgnState, State.modMgd_get, state, rgn _ rfl]
        exact served
    · rw [chgStartOp_begins (by rwa [hu.mgd_eq]) zero ⟨(rgn _ rfl).trans served, by rwa [hu.mgd_eq]⟩ (by rwa [rgn _ rfl])
        (by rwa [hu.flag Reg.MGD_STS_CHG_ACTIVE (by decide)])] at acts
      have result := set_result u (v := 0) (by decide)
      have gen' : (u.set Reg.MGD_CHG_STS_RESULT 0).get (Reg.MGD_RGN_STS_GEN r.toNat) = s.get (Reg.MGD_RGN_STS_GEN r.toNat) :=
        (rgnField_off u rfl rgnSts_apart.2.1 0).trans (rgn _ rfl)
      have lines : (u.set Reg.MGD_CHG_STS_RESULT 0).mgd.lines = s.mgd.lines := by rw [State.set_mgd, hu.mgd_eq]
      generalize u.set Reg.MGD_CHG_STS_RESULT 0 = v at acts result gen' lines
      have begins := startChg_begins (s := v) r.isLt (by rwa [gen']) rfl
      rw [result, gen', lines] at begins
      exact ⟨_, acts, begins⟩
  · exact congrArg Host.Outcome.next ((live_acts _ run).trans (chgPageOp_idle none))
  · exact congrArg Host.Outcome.next ((live_acts _ run).trans (chgPageOp_ends active keys last))
  · exact ⟨_, congrArg Host.Outcome.next ((live_acts _ run).trans (chgPageOp_converts active keys next)),
      convertedPage_shown room p blk _ _ rfl⟩
  · exact congrArg Host.Outcome.next (sealOp_idle ok (Or.inl ⟨halted, reset⟩))
  · exact congrArg Host.Outcome.next (sealOp_acts true cond isSealed poison crc)
  · exact congrArg Host.Outcome.next (sealOp_acts false cond isSealed poison crc)
  · exact congrArg Host.Outcome.next (sealOp_idle ok (Or.inr kept))

end Sys2Proof.Proofs
end

section
/-! SUPPORT. The vault's commands and the blob window (11 R413; 12 R458, R468, R471). -/

namespace Sys2Proof.Machine

/-! ### Registers loaded in a row -/

/-- A state that differs from another in its registers alone. -/
def RegsOnly (s t : State) : Prop := t = { s with regs := t.regs }

theorem RegsOnly.refl (s : State) : RegsOnly s s := rfl

theorem RegsOnly.trans {s t u : State} (h : RegsOnly s t) (k : RegsOnly t u) : RegsOnly s u := by
  have before : t = { s with regs := t.regs } := h
  exact Eq.trans k (congrArg (fun x : State => { x with regs := u.regs }) before)

theorem RegsOnly.wr {s t : State} (h : RegsOnly s t) (off : Nat) (v : Word) : RegsOnly s (t.wr off v) :=
  h.trans (u := t.wr off v) rfl

theorem RegsOnly.set {s t : State} (h : RegsOnly s t) (f : Field) (v : Nat) : RegsOnly s (t.set f v) := h.wr f.off _

theorem RegsOnly.setFlag {s t : State} (h : RegsOnly s t) (f : Field) (b : Bool) : RegsOnly s (t.setFlag f b) := h.set f _

theorem wrs_regsOnly (ws : List Word) : ∀ (s : State) (off : Nat), RegsOnly s (s.wrs off ws) := by
  induction ws with
  | nil => exact fun s _ => RegsOnly.refl s
  | cons w ws ih => exact fun s off => ((RegsOnly.refl s).wr off w).trans (ih (s.wr off w) (off + 4))

theorem wrAll_regsOnly (l : List (Nat × Word)) : ∀ s : State, RegsOnly s (s.wrAll l) := by
  induction l with
  | nil => exact RegsOnly.refl
  | cons p l ih => exact fun s => ((RegsOnly.refl s).wr p.1 p.2).trans (ih (s.wr p.1 p.2))

/-- A row of words of one value reads as that value. -/
theorem rd_wrs_replicate (v : Word) (n : Nat) {i : Nat} (h : i < n) : ∀ (s : State) (off : Nat),
    (s.wrs off (List.replicate n v)).rd (off + 4 * i) = v := by
  induction n generalizing i with
  | zero => exact absurd h (Nat.not_lt_zero i)
  | succ n ih =>
    intro s off
    match i with
    | 0 => exact (rd_wrs_ne (off + 4) _ (fun j _ => by omega)).trans (s.rd_wr off v)
    | i + 1 =>
      rw [show off + 4 * (i + 1) = off + 4 + 4 * i by omega]
      exact ih (Nat.lt_of_succ_lt_succ h) (s.wr off v) (off + 4)

/-- VLT_IO as the words from place n on are loaded. -/
theorem rd_wrAll_io (ws : List Word) : ∀ (n i : Nat) (s : State),
    (s.wrAll ((ws.zipIdx n).map (fun p => (Reg.VLT_IO p.2, p.1)))).rd (Reg.VLT_IO i) =
      if n ≤ i then ws.getD (i - n) (s.rd (Reg.VLT_IO i)) else s.rd (Reg.VLT_IO i) := by
  induction ws with
  | nil => intro n i s; simp [State.wrAll]
  | cons w ws ih =>
    intro n i s
    refine (ih (n + 1) i (s.wr (Reg.VLT_IO n) w)).trans ?_
    by_cases here : i = n
    · subst here
      simp
    · have ne : Reg.VLT_IO i ≠ Reg.VLT_IO n := by simp only [Reg.VLT_IO]; omega
      rw [State.rd_wr_ne _ _ ne]
      by_cases later : n ≤ i
      · rw [if_pos (by omega), if_pos later, show i - n = i - (n + 1) + 1 by omega, List.getD_cons_succ]
      · rw [if_neg (by omega), if_neg later]

/-! ### A vault command begins (R458, R584) -/

theorem vltWord_op {op : Nat} (h : op < 16) : fieldOf Reg.VLT_CMD_OP (vltWord op) = op :=
  fieldOf_setBits 0 Reg.VLT_CMD_OP (by decide) (by decide) h

theorem vltCmdWrite_refuses {s : State} (b : s.flag Reg.VLT_CMD_BUSY = true) {op : Nat} (h : op < 16) (z : op ≠ 0) (who : Who) :
    vltCmdWrite who (vltWord op) s = s.inc Reg.CTL_FAULT_BUSY := by
  unfold vltCmdWrite
  rw [vltWord_op h, if_neg z, if_pos b]

/-- The operation in progress, its answer not shown yet. -/
def pendAnswer (who : Who) (a : (Nat × List Word) × State) : State :=
  a.2.modVlt (fun v => { v with op := some { result := a.1.1, writes := a.1.2.zipIdx.map (fun p => (Reg.VLT_IO p.2, p.1)), who := who } })

theorem vltCmdWrite_starts {s : State} (k : mlook 0 Reg.VLT_CMD s.locks = 0) (b : s.flag Reg.VLT_CMD_BUSY = false) {op : Nat} (h : op < 16)
    (z : op ≠ 0) (who : Who) : ∃ u, OnlyRegs [Reg.VLT_CMD] s u ∧ u.flag Reg.VLT_CMD_BUSY = true ∧ u.get Reg.VLT_CMD_OP = op ∧
      vltCmdWrite who (vltWord op) s = pendAnswer who (vaultAnswer u op) := by
  have row : rowOf Reg.VLT_CMD_OP.off = some ⟨0x60000, 1, 4, 1, 4, 0, 0x78000000, 0, 0, 0⟩ := by decide +kernel
  have stored := (get_storeReg row k (vltWord op) (by decide) (by decide)).trans (vltWord_op h)
  have regs := onlyRegs_storeReg (List.mem_singleton_self Reg.VLT_CMD) k (vltWord op)
  have acts : vltCmdWrite who (vltWord op) s =
      pendAnswer who (vaultAnswer ((storeReg Reg.VLT_CMD (vltWord op) s).setFlag Reg.VLT_CMD_BUSY true) op) := by
    unfold vltCmdWrite
    rw [vltWord_op h]
    refine (if_neg z).trans ((if_neg (by rw [b]; exact Bool.false_ne_true)).trans ?_)
    extract_lets t
    generalize vaultAnswer t op = a
    obtain ⟨⟨r, ws⟩, u⟩ := a
    rfl
  have stored : (storeReg Reg.VLT_CMD (vltWord op) s).get Reg.VLT_CMD_OP = op := stored
  generalize storeReg Reg.VLT_CMD (vltWord op) s = t at acts stored regs
  refine ⟨t.setFlag Reg.VLT_CMD_BUSY true, regs.setFlag (f := Reg.VLT_CMD_BUSY) (by decide) true, t.flag_setFlag _ _ rfl (by decide), ?_, acts⟩
  rw [State.setFlag, State.get_set_apart _ Reg.VLT_CMD_BUSY Reg.VLT_CMD_OP _ (by decide) (by decide) rfl (by decide), stored]

/-! ### A vault command ends (R458, R468) -/

/-- The registers at the end of a vault command: the key staging zeroed, BUSY 0 and the result. -/
def vltEnd (s : State) (r : Nat) : State :=
  ((s.wrs (Reg.VLT_KEY_STAGE 0) (List.replicate 17 0)).setFlag Reg.VLT_CMD_BUSY false).set Reg.VLT_CMD_RESULT r

theorem vltEnd_regsOnly (s : State) (r : Nat) : RegsOnly s (vltEnd s r) :=
  ((wrs_regsOnly _ s _).setFlag Reg.VLT_CMD_BUSY false).set Reg.VLT_CMD_RESULT r

theorem vltEnd_busy (s : State) (r : Nat) : (vltEnd s r).flag Reg.VLT_CMD_BUSY = false := by
  unfold vltEnd
  rw [State.flag_set_apart _ Reg.VLT_CMD_RESULT Reg.VLT_CMD_BUSY _ (by decide) (by decide) rfl (by decide)]
  exact State.flag_setFlag _ _ _ rfl (by decide)

theorem vltEnd_result (s : State) {r : Nat} (h : r < 256) : (vltEnd s r).get Reg.VLT_CMD_RESULT = r :=
  (State.get_set _ _ (by decide) (by decide) r).trans (Nat.mod_eq_of_lt h)

/-- A register but VLT_CMD is what the zeroing of the key staging leaves. -/
theorem vltEnd_rd (s : State) (r : Nat) {a : Nat} (h : a ≠ Reg.VLT_CMD) :
    (vltEnd s r).rd a = (s.wrs (Reg.VLT_KEY_STAGE 0) (List.replicate 17 0)).rd a := by
  unfold vltEnd
  rw [State.rd_set_ne _ _ _ (by exact h), State.setFlag, State.rd_set_ne _ _ _ (by exact h)]

theorem vltEnd_io (s : State) (r i : Nat) : (vltEnd s r).rd (Reg.VLT_IO i) = s.rd (Reg.VLT_IO i) := by
  rw [vltEnd_rd _ _ (by simp only [Reg.VLT_IO, Reg.VLT_CMD]; omega)]
  refine rd_wrs_ne _ _ (fun j hj => ?_)
  simp only [List.length_replicate] at hj
  simp only [Reg.VLT_IO, Reg.VLT_KEY_STAGE]
  omega

theorem vltEnd_stage (s : State) (r : Nat) {i : Nat} (h : i < 17) : (vltEnd s r).rd (Reg.VLT_KEY_STAGE i) = 0 := by
  rw [vltEnd_rd _ _ (by simp only [Reg.VLT_KEY_STAGE, Reg.VLT_CMD]; omega),
    show Reg.VLT_KEY_STAGE i = Reg.VLT_KEY_STAGE 0 + 4 * i by simp only [Reg.VLT_KEY_STAGE]]
  exact rd_wrs_replicate 0 17 h s _

/-- VLT_IO and the rest when the operation p ends: its words are loaded unless a zeroise has acted. -/
def vltLoaded (s : State) (p : PendOp) : State :=
  if s.flag Reg.VLT_STS_ZEROISED then s.modVlt (fun v => { v with op := none }) else (s.modVlt (fun v => { v with op := none })).wrAll p.writes

theorem vltDoneOp_idle {s : State} (h : s.vlt.op = none) : vltDoneOp s = s := by
  unfold vltDoneOp
  rw [h]

theorem vltDoneOp_ends {s : State} {p : PendOp} (h : s.vlt.op = some p) :
    vltDoneOp s = vltEnd (vltLoaded s p) (if s.flag Reg.VLT_STS_ZEROISED then 6 else p.result) := by
  unfold vltDoneOp
  rw [h]
  rfl

theorem vltLoaded_regsOnly (s : State) (p : PendOp) : RegsOnly (s.modVlt (fun v => { v with op := none })) (vltLoaded s p) := by
  unfold vltLoaded
  split
  · exact RegsOnly.refl _
  · exact wrAll_regsOnly _ _

theorem vltLoaded_io (s : State) (r : Nat) (ws : List Word) (who : Who) (i : Nat) :
    (vltLoaded s { result := r, writes := ws.zipIdx.map (fun p => (Reg.VLT_IO p.2, p.1)), who := who }).rd (Reg.VLT_IO i) =
      if s.flag Reg.VLT_STS_ZEROISED then s.rd (Reg.VLT_IO i) else ws.getD i (s.rd (Reg.VLT_IO i)) := by
  unfold vltLoaded
  cases s.flag Reg.VLT_STS_ZEROISED with
  | true => rfl
  | false =>
    rw [if_neg Bool.false_ne_true, if_neg Bool.false_ne_true]
    exact (rd_wrAll_io ws 0 i _).trans (if_pos (Nat.zero_le i))

/-! ### What refuses a vault command (R458, R471) -/

theorem vaultAnswer_noKeys {s : State} {op : Nat} (h : s.vaultServes op = false) : vaultAnswer s op = ((6, []), s) := by
  unfold vaultAnswer
  exact if_pos h

theorem vaultAnswer_import_refused {s : State} (h : s.vaultServes 2 = true) (k : importEn s.vlt = false) :
    vaultAnswer s 2 = ((3, []), s) := by
  unfold vaultAnswer
  dsimp only
  rw [if_neg (by simp [h])]
  exact if_pos k

theorem vaultAnswer_store_outside {s : State} (h : s.vaultServes 3 = true) (k : s.blobInside (s.get Reg.VLT_OFFSET_OFFSET) = false) :
    vaultAnswer s 3 = ((2, []), s) := by
  unfold vaultAnswer
  dsimp only
  rw [if_neg (by simp [h])]
  exact if_pos k

theorem vaultAnswer_fetch {s : State} (h : s.vaultServes 4 = true) : vaultAnswer s 4 =
    if s.blobInside (s.get Reg.VLT_OFFSET_OFFSET) then ((0, bytesWords 32 (s.blobAt (s.get Reg.VLT_OFFSET_OFFSET))), s)
    else ((2, []), s) := by
  unfold vaultAnswer
  dsimp only
  rw [if_neg (by simp [h])]
  rfl

/-- STORE and FETCH are served alike. -/
theorem vaultServes_fetch (s : State) : s.vaultServes 4 = s.vaultServes 3 := rfl

/-! ### A blob reads as it was written (R413) -/

theorem storePage_regs (s : State) (p : Nat) : (storePage s p).regs = s.regs := by
  obtain ⟨out, e⟩ := storePage_out s p
  rw [e]

theorem storePage_cnt (s : State) (p : Nat) : (storePage s p).cnt = s.cnt := by
  obtain ⟨out, e⟩ := storePage_out s p
  rw [e]

/-- The count of a minor overflow leaves every register, and counts at most one. -/
theorem countWrite_regs {s : State} (room : Room s Reg.MGD_MINOR_OVF) (line : Nat) : (countWrite s line).2.regs = s.regs ∧
    (countWrite s line).2.ctr Reg.MGD_MINOR_OVF ≤ s.ctr Reg.MGD_MINOR_OVF + 1 := by
  unfold countWrite
  dsimp only
  split
  · exact ⟨rfl, Nat.le_succ _⟩
  · next b _ =>
    generalize bumpLine b (line % 64) = r
    obtain ⟨b, ovf⟩ := r
    cases ovf with
    | false => exact ⟨rfl, Nat.le_succ _⟩
    | true =>
      have count := State.inc_eq (s.modMgd (fun m => { m with ctrs := mput (line / 64) b m.ctrs })) Reg.MGD_MINOR_OVF room
      generalize Reg.MGD_MINOR_OVF = c at count ⊢
      dsimp only
      rw [if_pos rfl, count]
      exact ⟨rfl, Nat.le_of_eq (mlook_mstore_same 0 c (s.ctr c + 1) s.cnt.vals)⟩

/-- A guarded write with room in MGD_MINOR_OVF leaves every register, and counts there at most one. -/
theorem writeLine_regs {s : State} (room : Room s Reg.MGD_MINOR_OVF) (line : Nat) (data : List Byte) :
    (writeLine s line data).regs = s.regs ∧ (writeLine s line data).ctr Reg.MGD_MINOR_OVF ≤ s.ctr Reg.MGD_MINOR_OVF + 1 := by
  have shown (b : Bool) (t : State) (p : Nat) : (if b then storePage t p else storeLine t line).regs = t.regs ∧
      (if b then storePage t p else storeLine t line).cnt = t.cnt := by
    cases b
    · exact ⟨rfl, rfl⟩
    · exact ⟨storePage_regs t p, storePage_cnt t p⟩
  rw [writeLine_eq]
  have counted := countWrite_regs room line
  generalize countWrite s line = r at counted ⊢
  dsimp only
  generalize h : r.2.modMgd _ = t
  have regs : t.regs = r.2.regs := by rw [← h]; rfl
  have cnt : t.cnt = r.2.cnt := by rw [← h]; rfl
  generalize Reg.MGD_MINOR_OVF = c at counted ⊢
  rw [(shown _ _ _).1, regs, State.ctr, (shown _ _ _).2, cnt]
  exact counted

theorem rd_of_regs {s t : State} (h : t.regs = s.regs) (off : Nat) : t.rd off = s.rd off := by rw [State.rd, State.rd, h]

theorem blobLine_of_regs {s t : State} (h : t.regs = s.regs) (off : Nat) : t.blobLine off = s.blobLine off := by
  have fields : t.get = s.get := funext fun f => by rw [State.get, State.get, rd_of_regs h]
  unfold State.blobLine State.blobRegion State.roleRegion State.rgnBase State.rgnSize
  rw [fields]

/-- Two lines of 64 bytes that are written one after the other. -/
theorem putBlob_eq (s : State) (off : Nat) (b : List Byte) : putBlob s off b =
    writeLine (writeLine s (s.blobLine off) (sub b 0 64)) (s.blobLine off + 1) (sub b 64 64) := by
  simp [putBlob, writeLines, List.range_succ]

theorem padTo_full {n : Nat} {bs : List Byte} (h : bs.length = n) : padTo n (bs.take n) = bs := by
  simp [padTo, ← h]

/-- A blob put into the window reads as it was written. -/
theorem blobAt_putBlob {s : State} (off : Nat) {b : List Byte} (h : b.length = 128) (room : s.ctr Reg.MGD_MINOR_OVF + 2 < 2 ^ 48) :
    (putBlob s off b).blobAt off = b := by
  have first := writeLine_regs (s := s) (show Room s Reg.MGD_MINOR_OVF from by unfold Room; omega) (s.blobLine off) (sub b 0 64)
  have line := writeLine_same s (s.blobLine off) (sub b 0 64)
  rw [putBlob_eq]
  generalize hl : s.blobLine off = l at first line ⊢
  generalize writeLine s l (sub b 0 64) = t at first line ⊢
  obtain ⟨regs, count⟩ := first
  have second := (writeLine_regs (s := t) (show Room t Reg.MGD_MINOR_OVF from by unfold Room; omega) (l + 1) (sub b 64 64)).1.trans regs
  have kept := (writeLine_other t (l + 1) (sub b 64 64) (Nat.ne_of_lt (Nat.lt_succ_self l))).trans line
  have next := writeLine_same t (l + 1) (sub b 64 64)
  generalize writeLine t (l + 1) (sub b 64 64) = u at second kept next ⊢
  have lines : u.linesAt l 2 = u.lineAt l ++ u.lineAt (l + 1) := by simp [State.linesAt, List.range_succ]
  rw [State.blobAt, blobLine_of_regs second, hl, lines, State.lineAt, State.lineAt, kept, next,
    padTo_full (by simp [sub, h]), padTo_full (by simp [sub, h])]
  simp [sub, h, List.take_of_length_le]

end Sys2Proof.Machine

namespace Sys2Proof.Proofs
open Sys2Proof.Machine

/-- Settles O45: the five commands begin alike, an end shows what was pending, and the answers are read off branch by branch. -/
theorem vaultCommands : Obligations.VaultCommands := by
  intro s who h unlocked
  dsimp only
  refine ⟨⟨fun busy => ?_, fun idle => ?_⟩, ⟨fun busy => ?_, fun idle => ?_⟩, ⟨fun busy => ?_, fun idle => ?_⟩,
    ⟨fun busy => ?_, fun idle => ?_⟩, ⟨fun busy => ?_, fun idle => ?_⟩, fun idle => ?_, fun r ws _ pending => ?_,
    fun op => vaultAnswer_noKeys, vaultAnswer_import_refused, fun serves outside => ⟨vaultAnswer_store_outside serves outside, ?_⟩,
    fun serves inside => ?_, fun off b => blobAt_putBlob off⟩
  · exact congrArg Host.Outcome.next ((gateOwner_acts _ _ h).trans (vltCmdWrite_refuses busy (by decide) (by decide) who))
  · obtain ⟨u, regs, busy, op, acts⟩ := vltCmdWrite_starts unlocked idle (op := 1) (by decide) (by decide) who
    exact ⟨u, regs, busy, op, congrArg Host.Outcome.next ((gateOwner_acts _ _ h).trans acts)⟩
  · exact congrArg Host.Outcome.next ((gateOwner_acts _ _ h).trans (vltCmdWrite_refuses busy (by decide) (by decide) who))
  · obtain ⟨u, regs, busy, op, acts⟩ := vltCmdWrite_starts unlocked idle (op := 2) (by decide) (by decide) who
    exact ⟨u, regs, busy, op, congrArg Host.Outcome.next ((gateOwner_acts _ _ h).trans acts)⟩
  · exact congrArg Host.Outcome.next ((gateOwner_acts _ _ h).trans (vltCmdWrite_refuses busy (by decide) (by decide) who))
  · obtain ⟨u, regs, busy, op, acts⟩ := vltCmdWrite_starts unlocked idle (op := 3) (by decide) (by decide) who
    exact ⟨u, regs, busy, op, congrArg Host.Outcome.next ((gateOwner_acts _ _ h).trans acts)⟩
  · exact congrArg Host.Outcome.next ((gateOwner_acts _ _ h).trans (vltCmdWrite_refuses busy (by decide) (by decide) who))
  · obtain ⟨u, regs, busy, op, acts⟩ := vltCmdWrite_starts unlocked idle (op := 4) (by decide) (by decide) who
    exact ⟨u, regs, busy, op, congrArg Host.Outcome.next ((gateOwner_acts _ _ h).trans acts)⟩
  · exact congrArg Host.Outcome.next ((gateOwner_acts _ _ h).trans (vltCmdWrite_refuses busy (by decide) (by decide) who))
  · obtain ⟨u, regs, busy, op, acts⟩ := vltCmdWrite_starts unlocked idle (op := 5) (by decide) (by decide) who
    exact ⟨u, regs, busy, op, congrArg Host.Outcome.next ((gateOwner_acts _ _ h).trans acts)⟩
  · exact congrArg Host.Outcome.next ((live_acts _ h.1.1).trans (vltDoneOp_idle idle))
  · refine ⟨_, congrArg Host.Outcome.next ((live_acts _ h.1.1).trans (vltDoneOp_ends pending)), vltEnd_busy _ _, ?_, fun i _ => ?_,
      fun i hi => vltEnd_stage _ _ hi, ?_⟩
    · have small := r.isLt
      refine vltEnd_result _ (show (if s.flag Reg.VLT_STS_ZEROISED then 6 else r.val) < 256 from ?_)
      split <;> omega
    · rw [vltEnd_io, vltLoaded_io]
    · exact (vltLoaded_regsOnly s _).trans (vltEnd_regsOnly _ _)
  · rw [vaultAnswer_fetch (by rw [vaultServes_fetch, serves]), if_neg (by simp [outside])]
  · rw [vaultAnswer_fetch serves, if_pos inside]

end Sys2Proof.Proofs
end

section
/-! SUPPORT. The key slots of the utility cipher engine (12 R457, R463, R464, R472). -/

namespace Sys2Proof.Machine

/-- The vault put in place of another's. -/
theorem OnlyRegs.withVlt {offs : List Nat} {s t : State} (h : OnlyRegs offs s t) (f : Vlt) :
    OnlyRegs offs { s with vlt := f } { t with vlt := f } := ⟨congrArg (fun x : State => { x with vlt := f }) h.1, h.2⟩

theorem OnlyRegs.modVlt {offs : List Nat} {s t : State} (h : OnlyRegs offs s t) (f : Vlt → Vlt) : OnlyRegs offs (s.modVlt f) (t.modVlt f) := by
  rw [State.modVlt, State.modVlt, h.vlt_eq]
  exact h.withVlt _

theorem OnlyRegs.keySlot_eq {offs : List Nat} {s t : State} (h : OnlyRegs offs s t) (j : Nat) : t.keySlot j = s.keySlot j := by
  rw [State.keySlot, State.keySlot, h.vlt_eq]

theorem OnlyRegs.chan_eq {offs : List Nat} {s t : State} (h : OnlyRegs offs s t) (c : Nat) : t.chan c = s.chan c := by
  rw [State.chan, State.chan, h.vlt_eq]

/-! ### Words of slot commands -/

theorem slotWord_fields {op : Nat} (h : op < 4) (wide : Bool) (i : Fin 16) :
    fieldOf Reg.UCE_SLOT_CMD_OP (slotWord op wide i) = op ∧ fieldOf Reg.UCE_SLOT_CMD_SIZE256 (slotWord op wide i) = b2n wide ∧
    fieldOf Reg.UCE_SLOT_CMD_SLOT (slotWord op wide i) = i := by
  refine ⟨?_, ?_, fieldOf_setBits _ Reg.UCE_SLOT_CMD_SLOT (by decide) (by decide) i.isLt⟩
  · refine (fieldOf_setBits_apart _ Reg.UCE_SLOT_CMD_OP Reg.UCE_SLOT_CMD_SLOT (by decide) (by decide) _ (by decide)).trans ?_
    exact fieldOf_word_fst Reg.UCE_SLOT_CMD_OP Reg.UCE_SLOT_CMD_SIZE256 _ (by decide) (by decide) (by decide) h
  · refine (fieldOf_setBits_apart _ Reg.UCE_SLOT_CMD_SIZE256 Reg.UCE_SLOT_CMD_SLOT (by decide) (by decide) _ (by decide)).trans ?_
    exact fieldOf_word_snd Reg.UCE_SLOT_CMD_OP Reg.UCE_SLOT_CMD_SIZE256 op (by decide) (by cases wide <;> decide)

/-! ### What UCE_SLOT_STS shows (R472) -/

theorem slotSts_apart {i : Nat} (h : i < 16) : Reg.UCE_SLOT_STS i ≠ Reg.UCE_SLOT_CMD ∧ Reg.UCE_SLOT_STS i ≠ Reg.UCE_SLOT_OFFSET ∧
    ∀ j, Reg.UCE_SLOT_STS i ≠ Reg.UCE_SLOT_KEY j := by
  simp only [Reg.UCE_SLOT_STS, Reg.UCE_SLOT_CMD, Reg.UCE_SLOT_OFFSET, Reg.UCE_SLOT_KEY]
  exact ⟨by omega, by omega, fun j => by omega⟩

/-- STATE of the status word of a loaded slot. -/
theorem loadedWord_state {v : Nat} (h : v < 4) (used size origin : Nat) : bits (word [(Reg.UCE_SLOT_STS_STATE 0, v),
    (Reg.UCE_SLOT_STS_IN_USE 0, used), (Reg.UCE_SLOT_STS_SIZE256 0, size), (Reg.UCE_SLOT_STS_ORIGIN 0, origin)]) 31 30 = v := by
  refine (fieldOf_setBits_apart _ (Reg.UCE_SLOT_STS_STATE 0) (Reg.UCE_SLOT_STS_ORIGIN 0) (by decide) (by decide) _ (by decide)).trans ?_
  refine (fieldOf_setBits_apart _ (Reg.UCE_SLOT_STS_STATE 0) (Reg.UCE_SLOT_STS_SIZE256 0) (by decide) (by decide) _ (by decide)).trans ?_
  exact fieldOf_word_fst (Reg.UCE_SLOT_STS_STATE 0) (Reg.UCE_SLOT_STS_IN_USE 0) _ (by decide) (by decide) (by decide) h

/-- STATE of the status word of an empty slot. -/
theorem emptyWord_state (used : Nat) : bits (word [(Reg.UCE_SLOT_STS_IN_USE 0, used)]) 31 30 = 0 :=
  fieldOf_setBits_apart 0 (Reg.UCE_SLOT_STS_STATE 0) (Reg.UCE_SLOT_STS_IN_USE 0) (by decide) (by decide) _ (by decide)

theorem showSlot_wr (s : State) (i : Nat) : ∃ w, showSlot s i = s.wr (Reg.UCE_SLOT_STS i) w := by
  unfold showSlot
  dsimp only
  cases s.keySlot i with
  | none => exact ⟨_, rfl⟩
  | some k => exact ⟨_, rfl⟩

theorem showSlot_regsOnly (s : State) (i : Nat) : RegsOnly s (showSlot s i) := by
  obtain ⟨w, e⟩ := showSlot_wr s i
  rw [e]
  exact (RegsOnly.refl s).wr _ w

theorem showSlot_rd (s : State) {i a : Nat} (h : a ≠ Reg.UCE_SLOT_STS i) : (showSlot s i).rd a = s.rd a := by
  obtain ⟨w, e⟩ := showSlot_wr s i
  rw [e, s.rd_wr_ne w h]

theorem showSlot_empty {s : State} {i : Nat} (h : s.keySlot i = none) : (showSlot s i).get (Reg.UCE_SLOT_STS_STATE i) = 0 := by
  unfold showSlot
  dsimp only
  rw [h]
  exact (State.get_wr s _ (Reg.UCE_SLOT_STS_STATE i)).trans (emptyWord_state _)

theorem showSlot_loaded {s : State} {i : Nat} {k : KeySlot} (h : s.keySlot i = some k) (l : mget i s.vlt.later = none) :
    (showSlot s i).get (Reg.UCE_SLOT_STS_STATE i) = 1 := by
  unfold showSlot
  dsimp only
  rw [h, l]
  exact (State.get_wr s _ (Reg.UCE_SLOT_STS_STATE i)).trans (loadedWord_state (by decide) _ _ _)

theorem RegsOnly.vlt_eq {s t : State} (h : RegsOnly s t) : t.vlt = s.vlt := (congrArg State.vlt h).trans rfl

/-! ### A key is put into a slot, or waits (R463, R464) -/

theorem putKey_deferred {s : State} {i : Nat} (h : s.flag (Reg.UCE_SLOT_STS_IN_USE i) = true) (k : KeySlot) :
    putKey s i k = (showSlot (s.modVlt (fun v => { v with later := mput i k v.later })) i, 4) := by
  unfold putKey
  rw [if_pos h]

theorem putKey_loads {s : State} {i : Nat} (h : s.flag (Reg.UCE_SLOT_STS_IN_USE i) = false) (k : KeySlot) :
    putKey s i k = (loadSlot s i k, 0) := by
  unfold putKey
  rw [if_neg (by rw [h]; exact Bool.false_ne_true)]

theorem loadSlot_vlt (s : State) (i : Nat) (k : KeySlot) :
    (loadSlot s i k).vlt = { s.vlt with slots := mput i k s.vlt.slots, later := mdel i s.vlt.later } :=
  (showSlot_regsOnly _ i).vlt_eq

theorem loadSlot_rd (s : State) {i a : Nat} (k : KeySlot) (h : a ≠ Reg.UCE_SLOT_STS i) : (loadSlot s i k).rd a = s.rd a :=
  (showSlot_rd (s.modVlt _) h).trans (s.modVlt_rd _ a)

theorem loadSlot_state (s : State) (i : Nat) (k : KeySlot) : (loadSlot s i k).get (Reg.UCE_SLOT_STS_STATE i) = 1 :=
  showSlot_loaded (s := s.modVlt _) (mget_mput_same i k s.vlt.slots) (mget_mdel_same i s.vlt.later)

/-- The RESULT of a slot command beside what it leaves. -/
def withResult (a : State × Nat) : State := a.1.set Reg.UCE_SLOT_CMD_RESULT a.2

theorem withResult_result (s : State) {r : Nat} (h : r < 256) : (withResult (s, r)).get Reg.UCE_SLOT_CMD_RESULT = r :=
  (s.get_set _ (by decide) (by decide) r).trans (Nat.mod_eq_of_lt h)

theorem withResult_rd (s : State) (r : Nat) {a : Nat} (h : a ≠ Reg.UCE_SLOT_CMD) : (withResult (s, r)).rd a = s.rd a := s.rd_set_ne _ r h

theorem withResult_get (s : State) (r : Nat) {f : Field} (h : f.off ≠ Reg.UCE_SLOT_CMD) : (withResult (s, r)).get f = s.get f :=
  s.get_set_off _ f r h

theorem withResult_vlt (s : State) (r : Nat) : (withResult (s, r)).vlt = s.vlt := s.set_vlt _ r

theorem withResult_busy (s : State) (r : Nat) : (withResult (s, r)).flag Reg.UCE_SLOT_CMD_BUSY = s.flag Reg.UCE_SLOT_CMD_BUSY :=
  s.flag_set_apart Reg.UCE_SLOT_CMD_RESULT Reg.UCE_SLOT_CMD_BUSY r (by decide) (by decide) rfl (by decide)

theorem withResult_onlyRegs {s u : State} (h : OnlyRegs [Reg.UCE_SLOT_CMD] s u) (r : Nat) :
    OnlyRegs [Reg.UCE_SLOT_CMD] s (withResult (u, r)) := h.set (f := Reg.UCE_SLOT_CMD_RESULT) (by decide) r

/-- What a slot command leaves that loads a key at once. -/
theorem withResult_loads {s : State} {i : Nat} (hi : i < 16) (h : s.flag (Reg.UCE_SLOT_STS_IN_USE i) = false) (k : KeySlot) {t : State}
    (e : t = withResult (putKey s i k)) : t.keySlot i = some k ∧ (∀ j, j ≠ i → t.keySlot j = s.keySlot j) ∧
    t.get Reg.UCE_SLOT_CMD_RESULT = 0 ∧ t.get (Reg.UCE_SLOT_STS_STATE i) = 1 ∧ t.flag Reg.UCE_SLOT_CMD_BUSY = s.flag Reg.UCE_SLOT_CMD_BUSY ∧
    (∀ a, a ≠ Reg.UCE_SLOT_CMD → a ≠ Reg.UCE_SLOT_STS i → t.rd a = s.rd a) := by
  obtain ⟨cmd, -, -⟩ := slotSts_apart hi
  have vlt := loadSlot_vlt s i k
  have state := loadSlot_state s i k
  have rd (a : Nat) (ha : a ≠ Reg.UCE_SLOT_STS i) := loadSlot_rd s k ha
  rw [putKey_loads h] at e
  generalize loadSlot s i k = u at e vlt state rd
  have slots (j : Nat) : t.keySlot j = mget j (mput i k s.vlt.slots) := by rw [State.keySlot, e, withResult_vlt, vlt]
  refine ⟨(slots i).trans (mget_mput_same i k _), fun j hj => (slots j).trans (mget_mput_ne k _ hj), ?_, ?_, ?_, fun a ha hs => ?_⟩
  · rw [e, withResult_result _ (by decide)]
  · rw [e, withResult_get _ _ (by exact cmd), state]
  · rw [e, withResult_busy, State.flag, State.flag, State.get, State.get, rd _ (by exact cmd.symm)]
  · rw [e, withResult_rd _ _ ha, rd _ hs]

/-- What a slot command leaves whose key waits for the slot. -/
theorem withResult_deferred {s : State} {i : Nat} (h : s.flag (Reg.UCE_SLOT_STS_IN_USE i) = true) (k : KeySlot) {t : State}
    (e : t = withResult (putKey s i k)) : t.vlt.slots = s.vlt.slots ∧ mget i t.vlt.later = some k ∧ t.get Reg.UCE_SLOT_CMD_RESULT = 4 ∧
    (∀ a, a ≠ Reg.UCE_SLOT_CMD → a ≠ Reg.UCE_SLOT_STS i → t.rd a = s.rd a) := by
  have vlt := (showSlot_regsOnly (s.modVlt (fun v => { v with later := mput i k v.later })) i).vlt_eq.trans (s.modVlt_vlt _)
  have rd (a : Nat) (ha : a ≠ Reg.UCE_SLOT_STS i) := (showSlot_rd (s.modVlt (fun v => { v with later := mput i k v.later })) ha).trans (s.modVlt_rd _ a)
  rw [putKey_deferred h] at e
  generalize showSlot _ i = u at e vlt rd
  refine ⟨?_, ?_, ?_, fun a ha hs => ?_⟩
  · rw [e, withResult_vlt, vlt]
  · rw [e, withResult_vlt, vlt]
    exact mget_mput_same i k _
  · rw [e, withResult_result _ (by decide)]
  · rw [e, withResult_rd _ _ ha, rd _ hs]

/-! ### A slot's key in two shares, and its staging (R459, R463) -/

/-- A key under a fresh mask. -/
def maskedSlot (s : State) (key : BitVec 256) (wide : Bool) (origin : BitVec 2) : KeySlot :=
  { key := shared key (s.draw.1.truncate 256), size256 := wide, origin := origin }

theorem shared_value {n : Nat} (x m : BitVec n) : (shared x m).value = x := by
  rw [Shares.value, shared, BitVec.xor_assoc, BitVec.xor_self, BitVec.xor_zero]

/-- The key that UCE_SLOT_KEY stages (R463). -/
def slotStaged (s : State) (wide : Bool) : BitVec 256 := keyBits ((wordBytes (s.rds (Reg.UCE_SLOT_KEY 0) 8)).take (if wide then 32 else 16))

/-- The staging zeroed. -/
def unstaged (s : State) : State := s.wrs (Reg.UCE_SLOT_KEY 0) (List.replicate 8 0)

theorem unstaged_vlt (s : State) : (unstaged s).vlt = s.vlt := (wrs_regsOnly _ s _).vlt_eq

theorem unstaged_key (s : State) {j : Nat} (h : j < 8) : (unstaged s).rd (Reg.UCE_SLOT_KEY j) = 0 := by
  rw [show Reg.UCE_SLOT_KEY j = Reg.UCE_SLOT_KEY 0 + 4 * j by simp only [Reg.UCE_SLOT_KEY]]
  exact rd_wrs_replicate 0 8 h s _

theorem unstaged_rd (s : State) {a : Nat} (h : ∀ j, a ≠ Reg.UCE_SLOT_KEY j) : (unstaged s).rd a = s.rd a := by
  refine rd_wrs_ne _ _ (fun j _ e => h j ?_)
  rw [e]
  simp only [Reg.UCE_SLOT_KEY]

theorem OnlyRegs.slotStaged_eq {offs : List Nat} {s t : State} (h : OnlyRegs offs s t) (k : ∀ j, Reg.UCE_SLOT_KEY 0 + 4 * j ∉ offs) (wide : Bool) :
    slotStaged t wide = slotStaged s wide := by
  have words : t.rds (Reg.UCE_SLOT_KEY 0) 8 = s.rds (Reg.UCE_SLOT_KEY 0) 8 := List.map_congr_left (fun j _ => h.2 _ (k j))
  rw [slotStaged, slotStaged, words]

/-! ### Slot commands (R463, R472) -/

theorem slotCmdWrite_refuses {s : State} (b : s.flag Reg.UCE_SLOT_CMD_BUSY = true) (who : Who) {w : Word}
    (z : fieldOf Reg.UCE_SLOT_CMD_OP w ≠ 0) : slotCmdWrite who w s = s.inc Reg.CTL_FAULT_BUSY := by
  unfold slotCmdWrite
  exact (if_pos b).trans (if_neg z)

section Served
variable {s : State} (b : s.flag Reg.UCE_SLOT_CMD_BUSY = false) {who : Who} {w : Word} {i : Nat} (slot : fieldOf Reg.UCE_SLOT_CMD_SLOT w = i)
include b slot

theorem slotCmdWrite_foreign (z : fieldOf Reg.UCE_SLOT_CMD_OP w ≠ 0) (p : slotChan i ≠ partyOf who) :
    slotCmdWrite who w s = withResult (storeReg Reg.UCE_SLOT_CMD w s, 1) := by
  unfold slotCmdWrite
  rw [slot]
  exact (if_neg (by rw [b]; exact Bool.false_ne_true)).trans ((if_neg z).trans (if_pos p))

theorem slotCmdWrite_writes (op : fieldOf Reg.UCE_SLOT_CMD_OP w = 1) (p : slotChan i = partyOf who) {wide : Bool}
    (size : fieldOf Reg.UCE_SLOT_CMD_SIZE256 w = b2n wide) : slotCmdWrite who w s =
      let u := storeReg Reg.UCE_SLOT_CMD w s
      withResult (putKey (unstaged u).draw.2 i (maskedSlot (unstaged u) (slotStaged u wide) wide 0)) := by
  have one : decide (b2n wide = 1) = wide := by cases wide <;> rfl
  unfold slotCmdWrite
  rw [op, slot, size]
  refine (if_neg (by rw [b]; exact Bool.false_ne_true)).trans ((if_neg (by decide)).trans ((if_neg (not_not.2 p)).trans ?_))
  generalize storeReg Reg.UCE_SLOT_CMD w s = u
  generalize putKey = put
  dsimp only
  rw [one]
  rfl

theorem slotCmdWrite_loadsBlob (op : fieldOf Reg.UCE_SLOT_CMD_OP w = 2) (p : slotChan i = partyOf who) : slotCmdWrite who w s =
    let u := storeReg Reg.UCE_SLOT_CMD w s
    (u.modVlt (fun v => { v with blobOp := some (i, u.get Reg.UCE_SLOT_OFFSET_OFFSET) })).setFlag Reg.UCE_SLOT_CMD_BUSY true := by
  unfold slotCmdWrite
  rw [op, slot]
  refine (if_neg (by rw [b]; exact Bool.false_ne_true)).trans ((if_neg (by decide)).trans ((if_neg (not_not.2 p)).trans ?_))
  generalize storeReg Reg.UCE_SLOT_CMD w s = u
  rfl

theorem slotCmdWrite_erases (op : fieldOf Reg.UCE_SLOT_CMD_OP w = 3) (p : slotChan i = partyOf who) :
    slotCmdWrite who w s = withResult (eraseSlot (storeReg Reg.UCE_SLOT_CMD w s) i, 0) := by
  unfold slotCmdWrite
  rw [op, slot]
  refine (if_neg (by rw [b]; exact Bool.false_ne_true)).trans ((if_neg (by decide)).trans ((if_neg (not_not.2 p)).trans ?_))
  generalize storeReg Reg.UCE_SLOT_CMD w s = u
  rfl

end Served

/-! ### ERASE (R464, R469) -/

theorem uceSts_apart {c : Nat} (h : c < 2) : Reg.UCE_STS c ≠ Reg.UCE_SLOT_CMD := by
  simp only [Reg.UCE_STS, Reg.UCE_SLOT_CMD]
  omega

/-- The slot without its key and without a deferred one. -/
def slotDropped (s : State) (i : Nat) : State := s.modVlt (fun v => { v with slots := mdel i v.slots, later := mdel i v.later })

theorem slotDropped_chan (s : State) (i c : Nat) : (slotDropped s i).chan c = s.chan c := rfl

theorem slotDropped_uceState (s : State) (i c : Nat) : (slotDropped s i).uceState c = s.uceState c := s.modVlt_get _ _

theorem slotDropped_uceOpen (s : State) (i c : Nat) : (slotDropped s i).uceOpen c = s.uceOpen c := by
  rw [State.uceOpen, State.uceOpen, slotDropped_uceState]

theorem slotDropped_used (s : State) (i j : Nat) : (slotDropped s i).flag (Reg.UCE_SLOT_STS_IN_USE j) = s.flag (Reg.UCE_SLOT_STS_IN_USE j) :=
  s.modVlt_flag _ _

/-- A slot that no operation uses, nor one that an ABORT has just ended, is empty at once. -/
theorem eraseSlot_empties {s : State} {i : Nat} (h : s.flag (Reg.UCE_SLOT_STS_IN_USE i) = false)
    (a : s.uceState (slotChan i) ≠ 4 ∨ (s.chan (slotChan i)).doneAt ≠ some s.clk) : eraseSlot s i = showSlot (slotDropped s i) i := by
  unfold eraseSlot
  have kept := slotDropped_used s i i
  have state := slotDropped_uceState s i (slotChan i)
  have chan := slotDropped_chan s i (slotChan i)
  have clk : (slotDropped s i).clk = s.clk := s.modVlt_clk _
  have fold : s.modVlt (fun v => { v with slots := mdel i v.slots, later := mdel i v.later }) = slotDropped s i := rfl
  rw [fold]
  generalize slotDropped s i = t at kept state chan clk ⊢
  dsimp only
  rw [if_neg (by rw [kept, h]; simp), if_neg]
  rw [state, chan, clk]
  rintro ⟨aborted, now, -, -⟩
  exact a.elim (absurd aborted) (absurd now)

/-- An operation that uses the slot ends with KEY_GONE. -/
theorem eraseSlot_ends {s : State} {i : Nat} (h : s.flag (Reg.UCE_SLOT_STS_IN_USE i) = true) (o : s.uceOpen (slotChan i) = true) :
    eraseSlot s i = raise0 (endOp (slotDropped s i) (slotChan i) 5 0) 0x0702 0 := by
  unfold eraseSlot
  have kept := slotDropped_used s i i
  have opened := slotDropped_uceOpen s i (slotChan i)
  have fold : s.modVlt (fun v => { v with slots := mdel i v.slots, later := mdel i v.later }) = slotDropped s i := rfl
  rw [fold]
  generalize slotDropped s i = t at kept opened ⊢
  dsimp only
  rw [if_pos ⟨kept.trans h, opened.trans o⟩]

theorem slotDropped_keySlot (s : State) (i : Nat) : (slotDropped s i).keySlot i = none := mget_mdel_same i s.vlt.slots

theorem slotDropped_keySlot_ne (s : State) {i j : Nat} (h : j ≠ i) : (slotDropped s i).keySlot j = s.keySlot j := mget_mdel_ne s.vlt.slots h

/-- What an erasure of a free slot leaves. -/
theorem withResult_erased {s : State} {i : Nat} (hi : i < 16) {t : State} (e : t = withResult (showSlot (slotDropped s i) i, 0)) :
    t.keySlot i = none ∧ t.get (Reg.UCE_SLOT_STS_STATE i) = 0 ∧ t.get Reg.UCE_SLOT_CMD_RESULT = 0 ∧
    (∀ j, j ≠ i → t.keySlot j = s.keySlot j) := by
  obtain ⟨cmd, -, -⟩ := slotSts_apart hi
  have empty := showSlot_empty (slotDropped_keySlot s i)
  have vlt := (showSlot_regsOnly (slotDropped s i) i).vlt_eq
  generalize showSlot (slotDropped s i) i = u at e empty vlt
  have slots (j : Nat) : t.keySlot j = (slotDropped s i).keySlot j := by rw [State.keySlot, e, withResult_vlt, vlt]; rfl
  refine ⟨(slots i).trans (slotDropped_keySlot s i), ?_, ?_, fun j hj => (slots j).trans (slotDropped_keySlot_ne s hj)⟩
  · rw [e, withResult_get _ _ (by exact cmd), empty]
  · rw [e, withResult_result _ (by decide)]

/-! ### A blob load completes (R457, R463, R464) -/

/-- A blob opens by the vault's blob key and its fuses alone. -/
theorem openBlob_of_vlt {s t : State} (k : t.vlt.blobKey = s.vlt.blobKey) (o : t.vlt.otp = s.vlt.otp) (bs : List Byte) :
    openBlob t bs = openBlob s bs := by
  unfold openBlob
  rw [k, o]

/-- The load no longer in progress, BUSY 0. -/
def blobEnded (s : State) : State := (s.modVlt (fun v => { v with blobOp := none })).setFlag Reg.UCE_SLOT_CMD_BUSY false

theorem blobEnded_onlyRegs (s : State) : OnlyRegs [Reg.UCE_SLOT_CMD] { s with vlt := { s.vlt with blobOp := none } } (blobEnded s) :=
  (OnlyRegs.refl _ (s.modVlt (fun v => { v with blobOp := none }))).setFlag (f := Reg.UCE_SLOT_CMD_BUSY) (by decide) false

theorem blobEnded_busy (s : State) : (blobEnded s).flag Reg.UCE_SLOT_CMD_BUSY = false := State.flag_setFlag _ _ _ rfl (by decide)

theorem blobEnded_rd (s : State) {a : Nat} (h : a ≠ Reg.UCE_SLOT_CMD) : (blobEnded s).rd a = s.rd a := (blobEnded_onlyRegs s).2 a (by simpa using h)

theorem blobEnded_get (s : State) {f : Field} (h : f.off ≠ Reg.UCE_SLOT_CMD) : (blobEnded s).get f = s.get f := by
  rw [State.get, State.get, blobEnded_rd s h]

theorem blobEnded_vlt (s : State) : (blobEnded s).vlt = { s.vlt with blobOp := none } := (blobEnded_onlyRegs s).vlt_eq

theorem blobEnded_mgd (s : State) : (blobEnded s).mgd = s.mgd := (blobEnded_onlyRegs s).mgd_eq

theorem blobEnded_evt (s : State) : (blobEnded s).evt = s.evt := (blobEnded_onlyRegs s).evt_eq

theorem mgdRgn_apart (r : Nat) : Reg.MGD_RGN_BASE r ≠ Reg.UCE_SLOT_CMD ∧ Reg.MGD_RGN_SIZE r ≠ Reg.UCE_SLOT_CMD ∧
    Reg.MGD_RGN_STS r ≠ Reg.UCE_SLOT_CMD := by
  simp only [Reg.MGD_RGN_BASE, Reg.MGD_RGN_SIZE, Reg.MGD_RGN_STS, Reg.UCE_SLOT_CMD]
  omega

theorem blobEnded_rgnSize (s : State) : (blobEnded s).rgnSize = s.rgnSize :=
  funext fun r => blobEnded_get s (by exact (mgdRgn_apart r).2.1)

theorem blobEnded_rgnBase (s : State) (r : Nat) : (blobEnded s).rgnBase r = s.rgnBase r := blobEnded_get s (by exact (mgdRgn_apart r).1)

theorem blobEnded_rgnState (s : State) (r : Nat) : (blobEnded s).rgnState r = s.rgnState r := blobEnded_get s (by exact (mgdRgn_apart r).2.2)

theorem roleRegion_congr {s t : State} {valid region : Field} (v : t.get valid = s.get valid) (r : t.get region = s.get region)
    (z : t.rgnSize = s.rgnSize) : t.roleRegion valid region = s.roleRegion valid region := by
  unfold State.roleRegion
  rw [v, r, z]

theorem blobRegion_congr {s t : State} (v : t.get Reg.MGD_ROLE_BLOB_VALID = s.get Reg.MGD_ROLE_BLOB_VALID)
    (r : t.get Reg.MGD_ROLE_BLOB_REGION = s.get Reg.MGD_ROLE_BLOB_REGION) (z : t.rgnSize = s.rgnSize) : t.blobRegion = s.blobRegion :=
  roleRegion_congr v r z

theorem blobEnded_blobRegion (s : State) : (blobEnded s).blobRegion = s.blobRegion :=
  blobRegion_congr (blobEnded_get s (by decide)) (blobEnded_get s (by decide)) (blobEnded_rgnSize s)

theorem blobUnits_congr {s t : State} (r : t.blobRegion = s.blobRegion)
    (size : t.get Reg.MGD_ROLE_BLOB_SIZE = s.get Reg.MGD_ROLE_BLOB_SIZE) (served : t.served = s.served) : t.blobUnits = s.blobUnits := by
  unfold State.blobUnits
  rw [r, size, served]

theorem blobInside_congr {s t : State} (h : t.blobUnits = s.blobUnits) (off : Nat) : t.blobInside off = s.blobInside off := by
  unfold State.blobInside
  rw [h]

theorem blobEnded_blobInside (s : State) (off : Nat) : (blobEnded s).blobInside off = s.blobInside off := by
  have size := blobEnded_get s (f := Reg.MGD_ROLE_BLOB_SIZE) (by decide)
  have served : (blobEnded s).served = s.served := funext fun r => by rw [State.served, State.served, blobEnded_rgnState, blobEnded_mgd]
  exact blobInside_congr (blobUnits_congr (blobEnded_blobRegion s) size served) off

theorem blobEnded_blobAt (s : State) (off : Nat) : (blobEnded s).blobAt off = s.blobAt off := by
  have base := blobEnded_get s (f := Reg.MGD_ROLE_BLOB_BASE) (by decide)
  have line : (blobEnded s).lineAt = s.lineAt := funext fun l => by rw [State.lineAt, State.lineAt, blobEnded_mgd]
  rw [State.blobAt, State.blobAt, State.blobLine, State.blobLine, blobEnded_blobRegion, blobEnded_rgnBase, base, State.linesAt, State.linesAt,
    line]

theorem blobEnded_openAt (s : State) (off : Nat) : (blobEnded s).openAt off = s.openAt off := by
  rw [State.openAt, State.openAt, blobEnded_blobInside, blobEnded_blobAt,
    openBlob_of_vlt (s := s) (t := blobEnded s) (by rw [blobEnded_vlt]) (by rw [blobEnded_vlt])]

theorem loadBlobDoneOp_idle {s : State} (h : s.vlt.blobOp = none) : loadBlobDoneOp s = s := by
  unfold loadBlobDoneOp
  rw [h]

section Pending
variable {s : State} {i off : Nat} (h : s.vlt.blobOp = some (i, off))
include h

theorem loadBlobDoneOp_outside (o : s.blobInside off = false) : loadBlobDoneOp s = withResult (blobEnded s, 3) := by
  have outside := (blobEnded_blobInside s off).trans o
  unfold loadBlobDoneOp
  rw [h]
  exact if_pos outside

theorem loadBlobDoneOp_closed (o : s.blobInside off = true) (n : s.openAt off = none) : loadBlobDoneOp s = withResult (blobEnded s, 2) := by
  have inside := (blobEnded_blobInside s off).trans o
  have closed := (blobEnded_openAt s off).trans n
  unfold blobEnded at inside closed ⊢
  unfold loadBlobDoneOp
  rw [h]
  refine (if_neg (by rw [inside]; simp)).trans ?_
  generalize State.setFlag _ _ _ = t at closed ⊢
  rw [closed]
  rfl

theorem loadBlobDoneOp_opens (o : s.blobInside off = true) {b : Opened} (n : s.openAt off = some b) (use : b.usage / 2 % 2 = 1)
    (kind : b.kind = 1 ∨ b.kind = 2) (z : s.zeroised = false) : loadBlobDoneOp s =
      withResult (putKey (blobEnded s).draw.2 i
        (maskedSlot (blobEnded s) (keyBits b.material) (decide (b.kind = 2)) (BitVec.ofNat 2 b.origin))) := by
  have inside := (blobEnded_blobInside s off).trans o
  have opened := (blobEnded_openAt s off).trans n
  have zeroised : (blobEnded s).zeroised = false := by rw [State.zeroised, blobEnded_evt]; exact z
  unfold blobEnded at inside opened zeroised ⊢
  unfold loadBlobDoneOp
  rw [h]
  refine (if_neg (by rw [inside]; simp)).trans ?_
  obtain ⟨t, ht⟩ : ∃ t, t = (s.modVlt (fun v => { v with blobOp := none })).setFlag Reg.UCE_SLOT_CMD_BUSY false := ⟨_, rfl⟩
  obtain ⟨put, hput⟩ : ∃ p, p = putKey := ⟨_, rfl⟩
  rw [← ht] at opened zeroised ⊢
  rw [← hput, opened]
  exact if_pos ⟨use, kind, zeroised⟩

end Pending

end Sys2Proof.Machine

namespace Sys2Proof.Proofs
open Sys2Proof.Machine

/-- Settles O49: each slot command by the register that it leaves stored, a key by whether its slot is in use, a blob by whether it opens. -/
theorem keySlots : Obligations.KeySlots := by
  intro s who i wide off b h unlocked
  have own : firmwareOwn Reg.UCE_SLOT_CMD = true := by decide +kernel
  have acts (op : State → State) := gateOwner_own op h own
  obtain ⟨op1, size1, slot1⟩ := slotWord_fields (op := 1) (by decide) wide i
  obtain ⟨op2, -, slot2⟩ := slotWord_fields (op := 2) (by decide) false i
  obtain ⟨op3, -, slot3⟩ := slotWord_fields (op := 3) (by decide) false i
  have stored (w : Word) := onlyRegs_storeReg (List.mem_singleton_self Reg.UCE_SLOT_CMD) unlocked w
  obtain ⟨cmd, offset, key⟩ := slotSts_apart i.isLt
  have small : slotChan i.val < 2 := Nat.div_lt_of_lt_mul i.isLt
  refine ⟨fun busy => ⟨?_, ?_, ?_⟩, fun idle => ⟨fun foreign => ?_, fun mine => ⟨fun free => ?_, fun used => ?_, ?_, fun free calm => ?_,
    fun used opened => ?_⟩⟩, fun none => ?_, fun pending => ⟨fun outside => ?_, fun inside closed => ?_,
      fun inside opened use kind zeroised free origin => ?_⟩⟩
  · exact congrArg Host.Outcome.next ((acts _).trans (slotCmdWrite_refuses busy who (by rw [op1]; decide)))
  · exact congrArg Host.Outcome.next ((acts _).trans (slotCmdWrite_refuses busy who (by rw [op2]; decide)))
  · exact congrArg Host.Outcome.next ((acts _).trans (slotCmdWrite_refuses busy who (by rw [op3]; decide)))
  · have refused (w : Word) : OnlyRegs [Reg.UCE_SLOT_CMD] s (withResult (storeReg Reg.UCE_SLOT_CMD w s, 1)) :=
      withResult_onlyRegs (stored w) 1
    simp only [List.mem_cons, List.not_mem_nil, or_false, forall_eq_or_imp, forall_eq]
    exact ⟨⟨_, congrArg Host.Outcome.next ((acts _).trans (slotCmdWrite_foreign idle slot1 (by rw [op1]; decide) foreign)),
        withResult_result _ (by decide), refused _⟩,
      ⟨_, congrArg Host.Outcome.next ((acts _).trans (slotCmdWrite_foreign idle slot2 (by rw [op2]; decide) foreign)),
        withResult_result _ (by decide), refused _⟩,
      ⟨_, congrArg Host.Outcome.next ((acts _).trans (slotCmdWrite_foreign idle slot3 (by rw [op3]; decide) foreign)),
        withResult_result _ (by decide), refused _⟩⟩
  · have acted := (acts _).trans (slotCmdWrite_writes idle slot1 op1 mine size1)
    have regs := stored (slotWord 1 wide i)
    dsimp only at acted
    generalize storeReg Reg.UCE_SLOT_CMD _ s = u at acted regs
    have stage := regs.slotStaged_eq (fun j => by simp only [Reg.UCE_SLOT_KEY, Reg.UCE_SLOT_CMD, List.mem_singleton]; omega) wide
    have idleSlot : (unstaged u).draw.2.flag (Reg.UCE_SLOT_STS_IN_USE i) = false := by
      rw [State.draw_flag, State.flag, State.get, unstaged_rd u (by exact key), regs.2 _ (mt List.mem_singleton.1 (by exact cmd))]
      exact free
    have zero (j : Nat) (hj : j < 8) : (unstaged u).draw.2.rd (Reg.UCE_SLOT_KEY j) = 0 := (State.draw_rd _ _).trans (unstaged_key u hj)
    have kept (j : Nat) : (unstaged u).draw.2.keySlot j = s.keySlot j := by
      rw [State.keySlot, State.draw_vlt, unstaged_vlt, regs.vlt_eq]; rfl
    obtain ⟨loaded, others, result, state, -, rd⟩ := withResult_loads i.isLt idleSlot (maskedSlot (unstaged u) (slotStaged u wide) wide 0) rfl
    refine ⟨_, _, congrArg Host.Outcome.next acted, loaded, (shared_value _ _).trans stage, rfl, rfl, fun j hj => (others j hj).trans (kept j),
      fun j hj => (rd _ ?_ (key j).symm).trans (zero j hj), result, state⟩
    simp only [Reg.UCE_SLOT_KEY, Reg.UCE_SLOT_CMD]
    omega
  · have acted := (acts _).trans (slotCmdWrite_writes idle slot1 op1 mine size1)
    have regs := stored (slotWord 1 wide i)
    dsimp only at acted
    generalize storeReg Reg.UCE_SLOT_CMD _ s = u at acted regs
    have stage := regs.slotStaged_eq (fun j => by simp only [Reg.UCE_SLOT_KEY, Reg.UCE_SLOT_CMD, List.mem_singleton]; omega) wide
    have busySlot : (unstaged u).draw.2.flag (Reg.UCE_SLOT_STS_IN_USE i) = true := by
      rw [State.draw_flag, State.flag, State.get, unstaged_rd u (by exact key), regs.2 _ (mt List.mem_singleton.1 (by exact cmd))]
      exact used
    have zero (j : Nat) (hj : j < 8) : (unstaged u).draw.2.rd (Reg.UCE_SLOT_KEY j) = 0 := (State.draw_rd _ _).trans (unstaged_key u hj)
    have kept : (unstaged u).draw.2.vlt = s.vlt := by rw [State.draw_vlt, unstaged_vlt, regs.vlt_eq]
    obtain ⟨slots, later, result, rd⟩ := withResult_deferred busySlot (maskedSlot (unstaged u) (slotStaged u wide) wide 0) rfl
    refine ⟨_, _, congrArg Host.Outcome.next acted, slots.trans (by rw [kept]), later, (shared_value _ _).trans stage, rfl,
      fun j hj => (rd _ ?_ (key j).symm).trans (zero j hj), result⟩
    simp only [Reg.UCE_SLOT_KEY, Reg.UCE_SLOT_CMD]
    omega
  · have acted := (acts _).trans (slotCmdWrite_loadsBlob idle slot2 op2 mine)
    have regs := stored (slotWord 2 false i)
    dsimp only at acted
    generalize storeReg Reg.UCE_SLOT_CMD _ s = u at acted regs
    rw [regs.get Reg.UCE_SLOT_OFFSET_OFFSET (by decide)] at acted
    refine ⟨_, congrArg Host.Outcome.next acted, ?_, State.flag_setFlag _ _ _ rfl (by decide), ?_⟩
    · rw [State.setFlag_vlt, State.modVlt_vlt]
    · rw [State.setFlag_vlt, State.modVlt_vlt, regs.vlt_eq]
      exact (regs.modVlt (fun v => { v with blobOp := some (i.val, s.get Reg.UCE_SLOT_OFFSET_OFFSET) })).setFlag (f := Reg.UCE_SLOT_CMD_BUSY)
        (by decide) true
  · have acted := (acts _).trans (slotCmdWrite_erases idle slot3 op3 mine)
    have regs := stored (slotWord 3 false i)
    generalize storeReg Reg.UCE_SLOT_CMD _ s = u at acted regs
    have free' : u.flag (Reg.UCE_SLOT_STS_IN_USE i) = false := (regs.flag _ (mt List.mem_singleton.1 (by exact cmd))).trans free
    have calm' : u.uceState (slotChan i) ≠ 4 ∨ (u.chan (slotChan i)).doneAt ≠ some u.clk := by
      rw [State.uceState, regs.get (Reg.UCE_STS_STATE (slotChan i)) (mt List.mem_singleton.1 (by exact uceSts_apart small)), regs.chan_eq, regs.clk_eq]
      exact calm
    rw [eraseSlot_empties free' calm'] at acted
    obtain ⟨gone, state, result, others⟩ := withResult_erased (s := u) i.isLt rfl
    exact ⟨_, congrArg Host.Outcome.next acted, gone, state, result, fun j hj => (others j hj).trans (regs.keySlot_eq j)⟩
  · have acted := (acts _).trans (slotCmdWrite_erases idle slot3 op3 mine)
    have regs := stored (slotWord 3 false i)
    generalize storeReg Reg.UCE_SLOT_CMD _ s = u at acted regs
    have used' : u.flag (Reg.UCE_SLOT_STS_IN_USE i) = true := (regs.flag _ (mt List.mem_singleton.1 (by exact cmd))).trans used
    have opened' : u.uceOpen (slotChan i) = true := by
      rw [State.uceOpen, State.uceState, regs.get (Reg.UCE_STS_STATE (slotChan i)) (mt List.mem_singleton.1 (by exact uceSts_apart small))]
      exact opened
    rw [eraseSlot_ends used' opened'] at acted
    exact ⟨u, regs, congrArg Host.Outcome.next acted⟩
  · exact congrArg Host.Outcome.next ((live_acts _ h.1.1).trans (loadBlobDoneOp_idle none))
  · exact ⟨_, congrArg Host.Outcome.next ((live_acts _ h.1.1).trans (loadBlobDoneOp_outside pending outside)), withResult_result _ (by decide),
      (withResult_busy _ _).trans (blobEnded_busy s), withResult_onlyRegs (blobEnded_onlyRegs s) 3⟩
  · exact ⟨_, congrArg Host.Outcome.next ((live_acts _ h.1.1).trans (loadBlobDoneOp_closed pending inside closed)),
      withResult_result _ (by decide), (withResult_busy _ _).trans (blobEnded_busy s), withResult_onlyRegs (blobEnded_onlyRegs s) 2⟩
  · have acted := loadBlobDoneOp_opens pending inside opened use kind zeroised
    have idleSlot : (blobEnded s).draw.2.flag (Reg.UCE_SLOT_STS_IN_USE i) = false := by
      rw [State.draw_flag, State.flag, blobEnded_get s (by exact cmd)]
      exact free
    obtain ⟨loaded, -, result, -, busy, -⟩ := withResult_loads i.isLt idleSlot
      (maskedSlot (blobEnded s) (keyBits b.material) (decide (b.kind = 2)) (BitVec.ofNat 2 b.origin)) rfl
    exact ⟨_, _, congrArg Host.Outcome.next ((live_acts _ h.1.1).trans acted), loaded, shared_value _ _, rfl, Nat.mod_eq_of_lt origin, result,
      busy.trans ((State.draw_flag _ _).trans (blobEnded_busy s))⟩

end Sys2Proof.Proofs
end

section
/-! SUPPORT. The Korone ports: what counting, an event and a frame's way through the device leave of them, and how a change of a port
reads back. -/

namespace Sys2Proof.Machine

/-! ### What leaves the Korone ports -/

@[simp] theorem SameWork.kor_eq {s t : State} (h : SameWork s t) : t.kor = s.kor := by
  rw [show t = workOf s t from h]; rfl

@[simp] theorem inc_kor (s : State) (off : Nat) : (s.inc off).kor = s.kor := (inc_work s off).kor_eq
@[simp] theorem bump_kor (s : State) (off n : Nat) : (s.bump off n).kor = s.kor := (bump_work s off n).kor_eq
@[simp] theorem raise_kor (s : State) (id a0 a1 : Nat) (pair : Option Nat) : (raise s id a0 a1 pair).kor = s.kor :=
  (raise_work s id a0 a1 pair).kor_eq
@[simp] theorem raise0_kor (s : State) (id a0 : Nat) : (raise0 s id a0).kor = s.kor := (raise0_work s id a0).kor_eq

theorem kor_ite {s t u : State} {p : Prop} [Decidable p] (h : t.kor = s.kor) (k : u.kor = s.kor) : (if p then t else u).kor = s.kor := by
  split
  exacts [h, k]

theorem burst_kor (s : State) (last : SMap Nat) (key id : Nat) (pair : Option Nat) : (burst s last key id pair).2.kor = s.kor :=
  kor_ite (raise_kor _ _ _ _ _) rfl

theorem freeSpot_kor (s : State) (p i : Nat) : (freeSpot s p i).kor = s.kor :=
  kor_ite rfl ((raise0_kor _ _ _).trans (inc_kor _ _))

theorem kor_foldl {α : Type} {f : State → α → State} (hf : ∀ s x, (f s x).kor = s.kor) (l : List α) (s : State) :
    (l.foldl f s).kor = s.kor := by
  induction l generalizing s with
  | nil => rfl
  | cons x l ih => exact (ih _).trans (hf s x)

theorem freeSpots_kor (s : State) (p : Nat) (is : List Nat) : (freeSpots s p is).kor = s.kor := kor_foldl (fun s i => freeSpot_kor s p i) is s

theorem takeSpots_kor (n p : Nat) : ∀ s : State, (takeSpots n s p).2.kor = s.kor := by
  induction n with
  | zero => exact fun _ => rfl
  | succ n ih => exact fun s => ih _

theorem putTrace_kor (s : State) (f : Frame) (outcome : Nat) : (putTrace s f outcome).kor = s.kor := by
  unfold putTrace
  split
  · rfl
  · extract_lets words head tail full c s1 s2 d s3
    have h2 : s2.kor = s.kor := kor_ite (inc_kor _ _) rfl
    have h3 : s3.kor = s.kor := kor_ite ((raise0_kor _ _ _).trans h2) h2
    exact kor_ite h3 (kor_ite h3 h3)

theorem countWrite_kor (s : State) (line : Nat) : (countWrite s line).2.kor = s.kor := by
  unfold countWrite
  dsimp only
  split
  · rfl
  · exact kor_ite (inc_kor _ _) rfl

theorem storePage_kor (s : State) (p : Nat) : (storePage s p).kor = s.kor := by
  obtain ⟨out, h⟩ := storePage_out s p
  rw [h]

theorem writeLine_kor (s : State) (line : Nat) (data : List Byte) : (writeLine s line data).kor = s.kor := by
  rw [writeLine_eq]
  exact kor_ite ((storePage_kor _ _).trans (countWrite_kor s line)) (countWrite_kor s line)

theorem writeLines_kor (s : State) (line n : Nat) (bytes : List Byte) : (writeLines s line n bytes).kor = s.kor :=
  kor_foldl (fun s i => writeLine_kor s (line + i) (sub bytes (64 * i) 64)) _ s

theorem putRec_kor (s : State) (a : Nat) (r : Rec) : (s.putRec a r).kor = s.kor := by
  unfold State.putRec writeRec
  dsimp only
  split
  · exact writeLines_kor _ _ _ _
  · rfl

theorem settleRetire_kor (s : State) (a : Nat) : (settleRetire s a).kor = s.kor := kor_ite (putRec_kor _ _ _) rfl

theorem forgetFrame_kor (s : State) (id : Nat) : (forgetFrame s id).kor = s.kor := by
  unfold forgetFrame
  split
  · rfl
  · dsimp only
    split
    · exact settleRetire_kor _ _
    · rfl

theorem releaseFrame_kor (s : State) (id outcome : Nat) : (releaseFrame s id outcome).kor = s.kor := by
  unfold releaseFrame
  split
  · rfl
  · next f _ =>
    have freed : (freeFrame (putTrace s f outcome) f).kor = s.kor := (freeSpots_kor _ _ _).trans (putTrace_kor _ _ _)
    exact kor_ite freed ((forgetFrame_kor _ _).trans freed)

theorem dropFrame_kor (s : State) (id ctr : Nat) : (dropFrame s id ctr).kor = s.kor := (releaseFrame_kor _ _ _).trans (inc_kor _ _)

theorem tagFrame_kor (s : State) (f : Frame) : (tagFrame s f).2.kor = s.kor := by
  unfold tagFrame
  split
  · dsimp only
    split
    · exact inc_kor _ _
    · rfl
  · rfl

/-- A frame that enters leaves the Korone ports as they are. -/
theorem enterFrame_kor (s : State) (f : Frame) : (enterFrame s f).kor = s.kor :=
  kor_ite ((burst_kor _ _ _ _ _).trans ((dropFrame_kor _ _ _).trans (tagFrame_kor s f))) (tagFrame_kor s f)

theorem mark_kor (s : State) (id stage : Nat) : (s.mark id stage).kor = s.kor := kor_ite rfl rfl

theorem admitDrop_kor (s : State) (id o : Nat) : (admitDrop s id o).kor = s.kor := (burst_kor _ _ _ _ _).trans (dropFrame_kor _ _ _)

theorem cellDrop_kor (s : State) (id c : Nat) : (cellDrop s id c).kor = s.kor := (burst_kor _ _ _ _ _).trans (dropFrame_kor _ _ _)

theorem takeBuffer_kor (s : State) (id size : Nat) (cls : Option Nat) : (takeBuffer s id size cls).2.kor = s.kor := by
  have stored : ∀ (n p : Nat) (g : List Nat → Frame → Frame),
      (((takeSpots n s p).2.modFrame id (g (takeSpots n s p).1)).mark id 3).kor = s.kor := fun n p g =>
    (mark_kor _ _ _).trans (takeSpots_kor n p s)
  unfold takeBuffer
  split
  · rfl
  · dsimp only
    split
    · exact dropFrame_kor _ _ _
    · split
      · exact admitDrop_kor _ _ _
      · split
        · split
          · split
            · exact stored _ _ (fun l f => { f with owner := _, cls := _, cells := _, spots := l })
            · exact cellDrop_kor _ _ _
          · split
            · exact stored _ _ (fun l f => { f with owner := _, pool := some _, spots := l })
            · exact admitDrop_kor _ _ _
        · split
          · exact stored _ _ (fun l f => { f with owner := _, pool := some _, spots := l })
          · exact admitDrop_kor _ _ _

/-- A punted frame leaves the Korone ports as they are. -/
theorem puntFrame_kor (s : State) (id reason : Nat) (entry : Option Nat) (bytes : List Byte) (isHeld : Bool) :
    (puntFrame s id reason entry bytes isHeld).kor = s.kor := by
  unfold puntFrame
  split
  · rfl
  · next f _ =>
    have paid : (puntToken s f.n).2.kor = s.kor := rfl
    generalize puntToken s f.n = r at paid ⊢
    obtain ⟨ok, t⟩ := r
    dsimp only at paid ⊢
    split
    · exact ((burst_kor _ _ _ _ _).trans (dropFrame_kor _ _ _)).trans paid
    · have taken : (if isHeld then (true, t.inc (Reg.FLT_PUNTED f.n)) else
          takeBuffer (t.inc (Reg.FLT_PUNTED f.n)) id f.bytes.length (some clsPunt)).2.kor = s.kor := by
        split
        · exact (inc_kor _ _).trans paid
        · exact (takeBuffer_kor _ _ _ _).trans ((inc_kor _ _).trans paid)
      generalize (if isHeld then (true, t.inc (Reg.FLT_PUNTED f.n)) else
          takeBuffer (t.inc (Reg.FLT_PUNTED f.n)) id f.bytes.length (some clsPunt)) = r at taken ⊢
      obtain ⟨ok, u⟩ := r
      exact kor_ite taken ((releaseFrame_kor _ _ _).trans taken)

/-- A capsule counted, with its octets (R181). -/
def capCounted (s : State) (k : Nat) (cap : List Byte) : State :=
  (s.inc (Reg.KOR_RX_CAPSULES k)).bump (Reg.KOR_RX_OCTETS k) (headLength cap + 4)

/-- A capsule counted by its type too (R181). -/
def capTyped (s : State) (k : Nat) (cap : List Byte) : State :=
  if headType cap = 1 then (capCounted s k cap).inc (Reg.KOR_RX_EXTRA k)
  else if headType cap = 2 then (capCounted s k cap).inc (Reg.KOR_RX_CONTROL k) else capCounted s k cap

/-- A capsule in range is taken by its type (R173, R178): DATA enters, CONTROL is punted, the others end here. -/
def capTaken (s : State) (k : Nat) (cap : List Byte) : State :=
  match headType cap with
  | 0 => enterFrame s (newFrame s .data .dec (32 + k) k cap)
  | 2 =>
    if fcsOk (cap.drop 4) then
      puntFrame (s.addFrame (newFrame s .control .dec (32 + k) k (cap.drop 4))) s.sch.nextId 4 none (cap.drop 4) false
    else s.inc (Reg.KOR_RX_MALFORMED k)
  | _ => s

theorem capDeliver_eq (s : State) (k : Nat) (cap : List Byte) (void : Bool) : capDeliver s k cap void =
    if headLength cap = 0 ∧ headType cap = 3 then s
    else if headLength cap = 0 ∧ headType cap = 1 then s.inc (Reg.KOR_RX_EXTRA k)
    else if void then (capTyped s k cap).inc (Reg.KOR_RX_ABORTED k)
    else if capInRange (capTyped s k cap) k cap = false then (capTyped s k cap).inc (Reg.KOR_RX_MALFORMED k)
    else capTaken (capTyped s k cap) k cap := rfl

theorem capTyped_kor (s : State) (k : Nat) (cap : List Byte) : (capTyped s k cap).kor = s.kor :=
  have counted : (capCounted s k cap).kor = s.kor := (bump_kor _ _ _).trans (inc_kor _ _)
  kor_ite ((inc_kor _ _).trans counted) (kor_ite ((inc_kor _ _).trans counted) counted)

theorem capTaken_kor (s : State) (k : Nat) (cap : List Byte) : (capTaken s k cap).kor = s.kor := by
  unfold capTaken
  split
  · exact enterFrame_kor _ _
  · exact kor_ite (puntFrame_kor _ _ _ _ _ _) (inc_kor _ _)
  · rfl

/-- A capsule's delivery leaves the Korone ports as they are. -/
theorem capDeliver_kor (s : State) (k : Nat) (cap : List Byte) (void : Bool) : (capDeliver s k cap void).kor = s.kor := by
  rw [capDeliver_eq]
  exact kor_ite rfl (kor_ite (inc_kor _ _) (kor_ite ((inc_kor _ _).trans (capTyped_kor s k cap))
    (kor_ite ((inc_kor _ _).trans (capTyped_kor s k cap)) ((capTaken_kor _ _ _).trans (capTyped_kor s k cap)))))

/-! ### A Korone port that is changed -/

theorem mput_mput {α : Type} (k : Nat) (v w : α) (m : SMap α) : mput k v (mput k w m) = mput k v m := by
  induction m with
  | nil => simp [mput]
  | cons p m ih =>
    obtain ⟨j, x⟩ := p
    simp only [mput]
    split
    · simp [mput]
    · split
      · simp [mput]
      · next below other => simp [mput, below, other, ih]

@[simp] theorem State.korPort_modKor (s : State) (k : Nat) (f : KorPort → KorPort) : (s.modKor k f).korPort k = f (s.korPort k) :=
  mlook_mstore_same _ _ _ _

theorem State.modKor_congr {s : State} {k : Nat} {f g : KorPort → KorPort} (h : f (s.korPort k) = g (s.korPort k)) :
    s.modKor k f = s.modKor k g := by rw [State.modKor, State.modKor, h]

/-- A second change takes the place of the first, where the first left the port something to keep. -/
theorem State.modKor_modKor {s : State} {k : Nat} {f g : KorPort → KorPort} (h : f (s.korPort k) ≠ noKorPort)
    (l : g (f (s.korPort k)) ≠ noKorPort) : (s.modKor k f).modKor k g = s.modKor k (fun p => g (f p)) := by
  have e : (s.modKor k f).kor = mput k (f (s.korPort k)) s.kor := if_neg h
  have a : ((s.modKor k f).modKor k g).kor = (s.modKor k (fun p => g (f p))).kor := by
    rw [State.modKor_kor, State.korPort_modKor, e, State.modKor_kor, mstore, mstore, if_neg l, if_neg l, mput_mput]
  exact congrArg (fun m => { s with kor := m }) a

end Sys2Proof.Machine
end

section
/-! SUPPORT. Delineation of capsules and their delivery (05 R173, R175 to R181). -/

namespace Sys2Proof.Machine

/-! ### The pairs of a port (R128) -/

/-- A port whose lanes are not looped hears its pairs. -/
theorem portNear_unlooped {s : State} {k : Nat}
    (loop : ∀ j ∈ s.portLanes .lnl k, s.get (Reg.LN_CFG_LOOP (lnBase .lnl j)) = 0) : s.portNear .lnl k = false := by
  have lane : k ∈ s.portLanes .lnl k :=
    List.mem_map.2 ⟨0, List.mem_range.2 (Nat.two_pow_pos _), rfl⟩
  refine List.all_eq_false.2 ⟨k, lane, ?_⟩
  rw [State.nearLoop, loop k lane]
  decide

theorem fromPairs_acts {s : State} {k : Nat} (h : s.portNear .lnl k = false) (op : State → State) : fromPairs k op s = op s := by
  rw [fromPairs, h]
  rfl

/-! ### Heads (R173, R179) -/

theorem toBe_length (n v : Nat) : (toBe n v).length = n := by
  induction n with
  | zero => rfl
  | succ n ih => simp [toBe, ih]

theorem capValid_take (h : List Byte) : capValid (h.take 4) = capValid h := by
  have crc : sub (h.take 4) 2 2 = sub h 2 2 := by rw [sub, sub, List.drop_take, List.take_take]; rfl
  have fields : (h.take 4).take 2 = h.take 2 := by rw [List.take_take]; rfl
  rw [capValid, capValid, crc, fields]

theorem headLength_take (h : List Byte) : headLength (h.take 4) = headLength h := by simp [headLength, List.take_take]

theorem headType_take (h : List Byte) : headType (h.take 4) = headType h := by simp [headType, List.take_take]

theorem capInRange_congr {s t : State} {k : Nat} (c : t.clientLimit k = s.clientLimit k) (h : List Byte) :
    capInRange t k h = capInRange s k h := by
  rw [capInRange, capInRange, c]

theorem plausible_congr {s t : State} {k : Nat} (c : t.clientLimit k = s.clientLimit k) (h : List Byte) :
    plausible t k h = plausible s k h := by
  rw [plausible, plausible, capInRange_congr c]

theorem plausible_take (s : State) (k : Nat) (h : List Byte) : plausible s k (h.take 4) = plausible s k h := by
  rw [plausible, plausible, capValid_take, capInRange, capInRange, headLength_take, headType_take]

theorem takeHead_valid (s : State) (k : Nat) {h : List Byte} (v : capValid h = true) : takeHead s k h = some (h.take 4, false) := if_pos v

/-! ### The byte hunt (R179) -/

theorem huntSkip_found {ok : List Byte → Bool} {l : List Byte} (n : 4 ≤ l.length) (h : ok (l.take 4) = true) : huntSkip ok l = 0 := by
  match l, n with
  | a :: b :: c :: d :: r, _ => exact if_pos h

theorem huntSkip_none {ok : List Byte → Bool} : ∀ {l : List Byte}, (∀ d, d + 4 ≤ l.length → ok (sub l d 4) = false) →
    huntSkip ok l = l.length - 3
  | [], _ => rfl
  | [_], _ => rfl
  | [_, _], _ => rfl
  | [_, _, _], _ => rfl
  | a :: b :: c :: d :: r, h => by
    have here : ok [a, b, c, d] = false := h 0 (by simp)
    have rest : huntSkip ok (b :: c :: d :: r) = (b :: c :: d :: r).length - 3 :=
      huntSkip_none (fun i n => h (i + 1) (by simpa using n))
    rw [huntSkip, here, if_neg Bool.false_ne_true, rest]
    simp

/-! ### The moves of delineation (R179) -/

theorem delineate_stops {k : Nat} {s : State} (h : delinStep k s = none) (n : Nat) : delineate k n s = s := by
  cases n with
  | zero => rfl
  | succ n => rw [delineate, h]

theorem delineate_moves {k : Nat} {s t : State} (h : delinStep k s = some t) (n : Nat) : delineate k (n + 1) s = delineate k n t := by
  rw [delineate, h]

theorem korPort_of_kor {s t : State} (h : t.kor = s.kor) (k : Nat) : t.korPort k = s.korPort k := by
  rw [State.korPort, State.korPort, h]

theorem passBytes_port (k d : Nat) (s : State) : (passBytes k d s).korPort k = { s.korPort k with
    rx := (s.korPort k).rx.drop d, ptr := (s.korPort k).ptr.bind (fun q => if d ≤ q then some (q - d) else none) } :=
  s.korPort_modKor k _

theorem setCap_port (k : Nat) (c : CapState) (s : State) : (setCap k c s).korPort k = { s.korPort k with cap := c } :=
  (korPort_of_kor (State.setFlag_kor _ _ _) k).trans (s.korPort_modKor k (fun p => { p with cap := c }))

theorem inc_limit {s : State} {off : Nat} (room : Room s off) (k : Nat) : (s.inc off).clientLimit k = s.clientLimit k := by
  rw [State.inc_eq s off room]
  rfl

theorem setCap_cnt (k : Nat) (c : CapState) (s : State) : (setCap k c s).cnt = s.cnt := State.setFlag_cnt _ _ _

theorem setCap_sch (k : Nat) (c : CapState) (s : State) : (setCap k c s).sch = s.sch := State.setFlag_sch _ _ _

theorem setCap_limit (k : Fin 32) (c : CapState) (s : State) : (setCap k c s).clientLimit k = s.clientLimit k := by
  have apart : (Reg.PORT_MAC_CFG_MAX_FRAME (portBase .client k)).off ≠ Reg.KOR_STS k := by
    show 0x180000 + 0x1000 * k.val + 8 ≠ 0x1A0004 + 0x1000 * k.val
    omega
  rw [State.clientLimit, State.clientLimit, setCap, State.setFlag, State.get_set_off _ _ _ _ (by exact apart), State.modKor_get]

/-- HUNT with a plausible head in front and no pointer: it is the candidate. -/
theorem delinStep_finds {k : Nat} {s : State} (c : (s.korPort k).cap = .hunt) (n : 4 ≤ (s.korPort k).rx.length)
    (p : (s.korPort k).ptr = none) (h : plausible s k (s.korPort k).rx = true) :
    delinStep k s = some (setCap k (.presync false) (passBytes k 0 s)) := by
  have skip : huntSkip (plausible s k) (s.korPort k).rx = 0 := huntSkip_found n ((plausible_take s k _).trans h)
  rw [delinStep, c]
  simp only [huntStep, skip, p]
  rw [if_neg (by omega)]
  rfl

/-- HUNT among bytes that hold no plausible head passes all but three. -/
theorem delinStep_passes {k : Nat} {s : State} (c : (s.korPort k).cap = .hunt)
    (h : ∀ d, d + 4 ≤ (s.korPort k).rx.length → plausible s k (sub (s.korPort k).rx d 4) = false) :
    delinStep k s = if (s.korPort k).rx.length ≤ 3 then none else some (passBytes k ((s.korPort k).rx.length - 3) s) := by
  have skip : huntSkip (plausible s k) (s.korPort k).rx = (s.korPort k).rx.length - 3 := huntSkip_none h
  rw [delinStep, c]
  simp only [huntStep, skip]
  rw [if_pos (by omega)]
  exact if_congr (by omega) rfl rfl

/-- PRESYNC with a plausible head behind the candidate's capsule: SYNC, and the capsule is skipped. -/
theorem delinStep_confirms {k : Nat} {s : State} (c : (s.korPort k).cap = .presync false) (p : (s.korPort k).ptr = none)
    (n : headLength (s.korPort k).rx + 4 + 4 ≤ (s.korPort k).rx.length)
    (h : plausible (s.inc (Reg.KOR_RX_SKIPPED k)) k (sub (s.korPort k).rx (headLength (s.korPort k).rx + 4) 4) = true) :
    delinStep k s = some (setCap k .sync (passBytes k (headLength (s.korPort k).rx + 4) (s.inc (Reg.KOR_RX_SKIPPED k)))) := by
  rw [delinStep, c]
  simp only [presyncStep, p, presyncStep.presyncHead]
  rw [if_neg (by omega), if_pos h]

/-- SYNC with nothing behind a valid head waits. -/
theorem delinStep_waits {k : Nat} {s : State} (c : (s.korPort k).cap = .sync) (n : (s.korPort k).rx.length = 4)
    (h : capValid (s.korPort k).rx = true) : delinStep k s = none := by
  rw [delinStep, c]
  simp only [syncStep, takeHead_valid s k ((capValid_take _).trans h)]
  rw [if_neg (by omega), if_pos (by omega)]

/-- SYNC with a whole capsule in front and a valid head behind it delivers the capsule. -/
theorem delinStep_delivers {k : Nat} {s : State} (c : (s.korPort k).cap = .sync) {cap next : List Byte}
    (rx : (s.korPort k).rx = cap ++ next) (whole : cap.length = headLength cap + 4) (n : next.length = 4) (h : capValid cap = true)
    (g : capValid next = true) : delinStep k s = some (capDeliver ((passBytes k cap.length s).modKor k (fun p => { p with
      rx := next ++ p.rx.drop 4 })) k cap (decide (headType next = 3))) := by
  have front : (cap ++ next).take 4 = cap.take 4 := List.take_append_of_le_length (by omega)
  have behind : sub (cap ++ next) (headLength cap + 4) 4 = next := by
    rw [sub, ← whole, List.drop_left, List.take_of_length_le n.le]
  have first : takeHead s k (cap.take 4) = some (cap.take 4, false) := by
    rw [takeHead_valid s k ((capValid_take _).trans h), List.take_take, min_self]
  have second : takeHead s k next = some (next, false) := by rw [takeHead_valid s k g, List.take_of_length_le n.le]
  have all : cap.take 4 ++ sub (cap ++ next) 4 (headLength cap + 4 - 4) = cap := by
    rw [sub, List.drop_append_of_le_length (by omega), List.take_left' (by rw [List.length_drop]; omega), List.take_append_drop]
  rw [delinStep, c]
  simp only [syncStep, rx, front, first, headLength_take, behind, second, all]
  rw [if_neg (by rw [List.length_append]; omega), if_neg (by rw [List.length_append]; omega), ← whole]
  rfl

/-! ### A capsule arrives (R179) -/

/-- The bytes of a capsule and of the head behind it, in a port where none waited. -/
def fed (s : State) (k : Nat) (bytes : List Byte) (a : Option Nat) : State := s.modKor k (fun p => { p with rx := bytes, ptr := a })

@[simp] theorem fed_port (s : State) (k : Nat) (bytes : List Byte) (a : Option Nat) :
    (fed s k bytes a).korPort k = { s.korPort k with rx := bytes, ptr := a } := s.korPort_modKor k _

/-- What delineation has not taken is kept, but for the head that comes again. -/
def rested (k : Nat) (s : State) : State := s.modKor k (fun p => { p with rx := p.rx.take (p.rx.length - 4) })

theorem capsuleRxOp_idle {s : State} {k : Nat} (h : s.flag (Reg.KOR_STS_ALIGNED k) = false) (cap : List Byte) (via : Bool) (next : Word) :
    capsuleRxOp k cap via next s = s := if_pos (Or.inr (Or.inr h))

/-- The place of the pointer counts from the first byte: none came with it, or it stands at 0. -/
def arrived (s : State) (k : Nat) (via : Bool) : Option Nat := if via && s.flag (Reg.KOR_HUNT_CFG_PTR_EN k) then some 0 else none

theorem capsuleRxOp_feeds {s : State} {k : Nat} (acts : s.korActs k = true) (frames : s.isStream k = false)
    (aligned : s.flag (Reg.KOR_STS_ALIGNED k) = true) (empty : (s.korPort k).rx = []) (ptr : (s.korPort k).ptr = none)
    (cap : List Byte) (via : Bool) (next : Word) : ∃ n, capsuleRxOp k cap via next s =
      rested k (delineate k (n + 3) (fed s k (cap ++ toBe 4 next.toNat) (arrived s k via))) := by
  refine ⟨3 * (cap ++ toBe 4 next.toNat).length, ?_⟩
  have place : ((arrived s k via).map (fun i => i)).orElse (fun _ => none) = arrived s k via := by
    unfold arrived
    split <;> rfl
  have feed : feedStream s k (cap ++ toBe 4 next.toNat) (arrived s k via) =
      delineate k (3 * (cap ++ toBe 4 next.toNat).length + 3) (fed s k (cap ++ toBe 4 next.toNat) (arrived s k via)) := by
    unfold feedStream
    simp only [empty, ptr, List.length_nil, Nat.zero_add]
    exact congrArg (delineate k _) (State.modKor_congr (by rw [empty, place, List.nil_append]))
  unfold capsuleRxOp
  rw [if_neg (by rw [acts, frames, aligned]; decide)]
  exact congrArg (rested k) feed

theorem rested_port (k : Nat) (s : State) : (rested k s).korPort k = { s.korPort k with
    rx := (s.korPort k).rx.take ((s.korPort k).rx.length - 4) } := s.korPort_modKor k _

/-- Bytes without a plausible head are passed over in HUNT. -/
theorem hunt_passes {s : State} {k : Nat} {bytes : List Byte} (a : Option Nat) (c : (s.korPort k).cap = .hunt) (n : 4 ≤ bytes.length)
    (h : ∀ d, d + 4 ≤ bytes.length → plausible s k (sub bytes d 4) = false) (m : Nat) :
    delineate k (m + 3) (fed s k bytes a) = passBytes k (bytes.length - 3) (fed s k bytes a) := by
  have port := fed_port s k bytes a
  have first : delinStep k (fed s k bytes a) = some (passBytes k (bytes.length - 3) (fed s k bytes a)) := by
    rw [delinStep_passes (by rw [port]; exact c) (by rw [port]; exact h), port, if_neg (by show ¬ bytes.length ≤ 3; omega)]
  have left : ((passBytes k (bytes.length - 3) (fed s k bytes a)).korPort k).rx = bytes.drop (bytes.length - 3) := by
    rw [passBytes_port, port]
  have three : (bytes.drop (bytes.length - 3)).length = 3 := by rw [List.length_drop]; omega
  have second : delinStep k (passBytes k (bytes.length - 3) (fed s k bytes a)) = none := by
    rw [delinStep_passes (by rw [passBytes_port, port]; exact c) (by rw [left]; intro d hd; omega), left, if_pos three.le]
  rw [delineate_moves first, delineate_stops second]

section
variable {k : Fin 32} {cap next : List Byte}

/-- A candidate with its whole capsule and a plausible head behind it brings SYNC; the capsule is skipped. -/
theorem presync_syncs {u : State} {p : KorPort} (port : u.korPort k = { p with rx := cap ++ next, ptr := none, cap := .presync false })
    (whole : cap.length = headLength cap + 4) (n : next.length = 4)
    (g : plausible (u.inc (Reg.KOR_RX_SKIPPED k)) k next = true) (m : Nat) :
    delineate k (m + 2) u = setCap k .sync (passBytes k cap.length (u.inc (Reg.KOR_RX_SKIPPED k))) := by
  have length : (cap ++ next).length = cap.length + 4 := by rw [List.length_append, n]
  have size : headLength (cap ++ next) + 4 = cap.length := by
    rw [whole, ← headLength_take, List.take_append_of_le_length (by omega), headLength_take]
  have behind : sub (cap ++ next) cap.length 4 = next := by rw [sub, List.drop_left, List.take_of_length_le n.le]
  have rx : (u.korPort k).rx = cap ++ next := by rw [port]
  have first := delinStep_confirms (s := u) (k := k) (by rw [port]) (by rw [port]) (by rw [rx, size]; exact length.ge)
    (by rw [rx, size, behind]; exact g)
  rw [rx, size] at first
  have left : (setCap k .sync (passBytes k cap.length (u.inc (Reg.KOR_RX_SKIPPED k)))).korPort k =
      { p with rx := next, ptr := none, cap := .sync } := by
    rw [setCap_port, passBytes_port, korPort_of_kor (inc_kor _ _), port]
    simp only [List.drop_left, Option.bind_none]
  rw [plausible, Bool.and_eq_true] at g
  rw [delineate_moves first, delineate_stops]
  exact delinStep_waits (by rw [left]) (by rw [left]; exact n) (by rw [left]; exact g.1)

/-- The state in which the first plausible head is the candidate. -/
def candidate (s : State) (k : Nat) (bytes : List Byte) : State := setCap k (.presync false) (passBytes k 0 (fed s k bytes none))

theorem candidate_port (s : State) (k : Nat) (bytes : List Byte) :
    (candidate s k bytes).korPort k = { s.korPort k with rx := bytes, ptr := none, cap := .presync false } := by
  rw [candidate, setCap_port, passBytes_port, fed_port]
  rfl

theorem candidate_cnt (s : State) (k : Nat) (bytes : List Byte) : (candidate s k bytes).cnt = s.cnt :=
  setCap_cnt k (.presync false) (passBytes k 0 (fed s k bytes none))

theorem candidate_sch (s : State) (k : Nat) (bytes : List Byte) : (candidate s k bytes).sch = s.sch :=
  setCap_sch k (.presync false) (passBytes k 0 (fed s k bytes none))

theorem candidate_limit (s : State) (bytes : List Byte) : (candidate s k bytes).clientLimit k = s.clientLimit k := setCap_limit k _ _

/-- A plausible head with a whole capsule and a plausible head behind it: SYNC, and the capsule is skipped. -/
theorem hunt_syncs {s : State} (c : (s.korPort k).cap = .hunt) (whole : cap.length = headLength cap + 4)
    (n : next.length = 4) (h : plausible s k cap = true) (g : plausible s k next = true) (room : Room s (Reg.KOR_RX_SKIPPED k)) (m : Nat) :
    delineate k (m + 3) (fed s k (cap ++ next) none) =
      setCap k .sync (passBytes k cap.length ((candidate s k (cap ++ next)).inc (Reg.KOR_RX_SKIPPED k))) := by
  have port := fed_port s k (cap ++ next) none
  have head : plausible s k (cap ++ next) = true := by
    rw [← plausible_take, List.take_append_of_le_length (by omega), plausible_take]
    exact h
  have found : delinStep k (fed s k (cap ++ next) none) = some (candidate s k (cap ++ next)) :=
    delinStep_finds (by rw [port]; exact c) (by rw [port]; show 4 ≤ (cap ++ next).length; rw [List.length_append]; omega) (by rw [port])
      (by rw [port]; exact head)
  have limit : ((candidate s k (cap ++ next)).inc (Reg.KOR_RX_SKIPPED k)).clientLimit k = s.clientLimit k :=
    (inc_limit (by rw [Room, State.ctr, candidate_cnt]; exact room) k).trans (candidate_limit s _)
  rw [delineate_moves found, presync_syncs (candidate_port s k _) whole n ((plausible_congr limit next).trans g)]

end

/-! ### A capsule is delivered (R173, R181) -/

theorem ne_noKorPort {p : KorPort} (h : p.rx.length ≠ 0) : p ≠ noKorPort := fun e => h (congrArg (fun x => x.rx.length) e)

section
variable {s : State} {k : Nat} {cap next : List Byte}

/-- The bytes of a capsule that has been taken are gone, and the head behind it stands first. -/
theorem fed_passed (whole : cap.length = headLength cap + 4) (n : next.length = 4) (ptr : (s.korPort k).ptr = none) (via : Bool) :
    (passBytes k cap.length (fed s k (cap ++ next) (arrived s k via))).modKor k (fun p => { p with rx := next ++ p.rx.drop 4 }) =
      s.modKor k (fun p => { p with rx := next }) := by
  have passed : (arrived s k via).bind (fun q => if cap.length ≤ q then some (q - cap.length) else none) = none := by
    unfold arrived
    split
    · exact if_neg (by omega)
    · rfl
  have tail : next ++ next.drop 4 = next := by rw [List.drop_of_length_le n.le, List.append_nil]
  have rest : (cap ++ next).drop cap.length = next := List.drop_left
  have fedSome : (cap ++ next).length ≠ 0 := by rw [List.length_append]; omega
  have nextSome : next.length ≠ 0 := by omega
  have first : passBytes k cap.length (fed s k (cap ++ next) (arrived s k via)) = s.modKor k (fun p => { p with rx := next, ptr := none }) := by
    unfold passBytes fed
    refine (State.modKor_modKor (ne_noKorPort fedSome) (ne_noKorPort ?_)).trans (State.modKor_congr ?_)
    · show ((cap ++ next).drop cap.length).length ≠ 0
      rw [rest]
      exact nextSome
    · simp only [rest, passed]
  rw [first]
  refine (State.modKor_modKor (ne_noKorPort nextSome) (ne_noKorPort ?_)).trans (State.modKor_congr ?_)
  · show (next ++ next.drop 4).length ≠ 0
    rw [tail]
    exact nextSome
  · simp only [tail, ptr]

/-- SYNC with a capsule and a valid head behind it: it is delivered, and delineation waits behind it. -/
theorem sync_delivers (c : (s.korPort k).cap = .sync) (ptr : (s.korPort k).ptr = none) (whole : cap.length = headLength cap + 4)
    (n : next.length = 4) (h : capValid cap = true) (g : capValid next = true) (via : Bool) (m : Nat) :
    delineate k (m + 1) (fed s k (cap ++ next) (arrived s k via)) =
      capDeliver (s.modKor k (fun p => { p with rx := next })) k cap (decide (headType next = 3)) := by
  have port := fed_port s k (cap ++ next) (arrived s k via)
  have first := delinStep_delivers (s := fed s k (cap ++ next) (arrived s k via)) (by rw [port]; exact c) (by rw [port]) whole n h g
  rw [fed_passed whole n ptr] at first
  have left := korPort_of_kor (capDeliver_kor (s.modKor k (fun p => { p with rx := next })) k cap (decide (headType next = 3))) k
  rw [State.korPort_modKor] at left
  rw [delineate_moves first, delineate_stops]
  exact delinStep_waits (by rw [left]; exact c) (by rw [left]; exact n) (by rw [left]; exact g)

/-- The head that comes again is not kept. -/
theorem rested_head {t : State} (h : (t.korPort k).rx.length ≤ 4) : rested k t = t.modKor k (fun p => { p with rx := [] }) :=
  State.modKor_congr (by rw [Nat.sub_eq_zero_of_le h, List.take_zero])

theorem delivered_rests (h : next.length = 4) (void : Bool) :
    rested k (capDeliver (s.modKor k (fun p => { p with rx := next })) k cap void) =
      (capDeliver (s.modKor k (fun p => { p with rx := next })) k cap void).modKor k (fun p => { p with rx := [] }) := by
  have left := korPort_of_kor (capDeliver_kor (s.modKor k (fun p => { p with rx := next })) k cap void) k
  rw [State.korPort_modKor] at left
  exact rested_head (by rw [left]; exact h.le)

end

section
variable (s : State) (k : Nat) {cap : List Byte}

theorem capDeliver_idle (l : headLength cap = 0) (t : headType cap = 1) (void : Bool) :
    capDeliver s k cap void = s.inc (Reg.KOR_RX_EXTRA k) := by
  rw [capDeliver_eq, if_neg (by omega), if_pos ⟨l, t⟩]

theorem capTaken_data (t : headType cap = 0) : capTaken s k cap = enterFrame s (newFrame s .data .dec (32 + k) k cap) := by
  unfold capTaken
  rw [t]
  rfl

theorem capTaken_extra (t : headType cap = 1) : capTaken s k cap = s := by
  unfold capTaken
  rw [t]
  rfl

theorem capTaken_spoiled (t : headType cap = 2) (f : fcsOk (cap.drop 4) = false) :
    capTaken s k cap = s.inc (Reg.KOR_RX_MALFORMED k) := by
  unfold capTaken
  rw [t, f]
  exact if_neg Bool.false_ne_true

theorem capDeliver_extra (l : headLength cap ≠ 0) (t : headType cap = 1) :
    capDeliver s k cap false = (capCounted s k cap).inc (Reg.KOR_RX_EXTRA k) := by
  have range : ∀ u : State, capInRange u k cap = true := fun u => by
    unfold capInRange
    rw [t]
    rfl
  rw [capDeliver_eq, if_neg (by omega), if_neg (by omega), if_neg Bool.false_ne_true, range, if_neg (by simp), capTaken_extra _ k t,
    capTyped, if_pos t]

theorem capTyped_data (t : headType cap = 0) : capTyped s k cap = capCounted s k cap := by
  rw [capTyped, if_neg (by omega), if_neg (by omega)]

theorem capTyped_control (t : headType cap = 2) : capTyped s k cap = (capCounted s k cap).inc (Reg.KOR_RX_CONTROL k) := by
  rw [capTyped, if_neg (by omega), if_pos t]

theorem capDeliver_aborted (t : headType cap = 0) : capDeliver s k cap true = (capCounted s k cap).inc (Reg.KOR_RX_ABORTED k) := by
  rw [capDeliver_eq, if_neg (by omega), if_neg (by omega), if_pos rfl, capTyped_data s k t]

theorem capDeliver_malformed (t : headType cap = 0) (r : capInRange (capCounted s k cap) k cap = false) :
    capDeliver s k cap false = (capCounted s k cap).inc (Reg.KOR_RX_MALFORMED k) := by
  rw [capDeliver_eq, if_neg (by omega), if_neg (by omega), if_neg Bool.false_ne_true, capTyped_data s k t, if_pos r]

theorem capDeliver_data (t : headType cap = 0) (r : capInRange (capCounted s k cap) k cap = true) :
    capDeliver s k cap false = enterFrame (capCounted s k cap) (newFrame (capCounted s k cap) .data .dec (32 + k) k cap) := by
  rw [capDeliver_eq, if_neg (by omega), if_neg (by omega), if_neg Bool.false_ne_true, capTyped_data s k t, if_neg (by simp [r]),
    capTaken_data _ k t]

theorem capDeliver_control (t : headType cap = 2) (r : capInRange ((capCounted s k cap).inc (Reg.KOR_RX_CONTROL k)) k cap = true)
    (f : fcsOk (cap.drop 4) = false) :
    capDeliver s k cap false = ((capCounted s k cap).inc (Reg.KOR_RX_CONTROL k)).inc (Reg.KOR_RX_MALFORMED k) := by
  rw [capDeliver_eq, if_neg (by omega), if_neg (by omega), if_neg Bool.false_ne_true, capTyped_control s k t, if_neg (by simp [r]),
    capTaken_spoiled _ k t f]

end

section
variable {k : Fin 32} {cap next : List Byte}

/-- What a port shows once a candidate's capsule has been skipped and SYNC stands. -/
theorem synced_shows {s u : State} {p : KorPort} (port : u.korPort k = { p with rx := cap ++ next, ptr := none, cap := .presync false })
    (n : next.length = 4) (cnt : u.cnt = s.cnt) (sch : u.sch = s.sch) (room : Room s (Reg.KOR_RX_SKIPPED k)) {t : State}
    (e : t = rested k (setCap k .sync (passBytes k cap.length (u.inc (Reg.KOR_RX_SKIPPED k))))) :
    (t.korPort k).cap = .sync ∧ (t.korPort k).rx = [] ∧ t.flag (Reg.KOR_STS_CAP_SYNC k) = true ∧
      t.ctr (Reg.KOR_RX_SKIPPED k) = s.ctr (Reg.KOR_RX_SKIPPED k) + 1 ∧ t.sch = s.sch := by
  have ctr : u.ctr (Reg.KOR_RX_SKIPPED k) = s.ctr (Reg.KOR_RX_SKIPPED k) := by rw [State.ctr, State.ctr, cnt]
  have counted := State.inc_eq u (Reg.KOR_RX_SKIPPED k) (by rw [ctr]; exact room)
  have tport : (rested k (setCap k .sync (passBytes k cap.length (u.inc (Reg.KOR_RX_SKIPPED k))))).korPort k =
      { p with rx := [], ptr := none, cap := .sync } := by
    rw [rested_port, setCap_port, passBytes_port, korPort_of_kor (inc_kor _ _), port]
    simp only [List.drop_left, Option.bind_none, n, Nat.sub_self, List.take_zero]
  have tcnt : t.cnt = (u.inc (Reg.KOR_RX_SKIPPED k)).cnt := by
    rw [e]
    exact (State.modKor_cnt _ _ _).trans (setCap_cnt _ _ _)
  have tsch : t.sch = (u.inc (Reg.KOR_RX_SKIPPED k)).sch := by
    rw [e]
    exact (State.modKor_sch _ _ _).trans (setCap_sch _ _ _)
  refine ⟨by rw [e, tport], by rw [e, tport], ?_, ?_, ?_⟩
  · rw [e]
    exact (State.modKor_flag _ _ _ _).trans (State.flag_setFlag _ _ _ rfl (show 29 < 32 by decide))
  · rw [State.ctr, tcnt, counted, ← ctr]
    exact mlook_mstore_same 0 (Reg.KOR_RX_SKIPPED k) (u.ctr (Reg.KOR_RX_SKIPPED k) + 1) u.cnt.vals
  · rw [tsch, counted, sch]

/-- What a port shows once bytes without a plausible head have been passed over. -/
theorem passed_shows {s : State} {k : Nat} {bytes : List Byte} (c : (s.korPort k).cap = .hunt) (a : Option Nat) (d : Nat) {t : State}
    (e : t = rested k (passBytes k d (fed s k bytes a))) : (t.korPort k).cap = .hunt ∧ t.cnt = s.cnt ∧ t.sch = s.sch ∧ t.regs = s.regs := by
  refine ⟨?_, ?_, ?_, ?_⟩
  · rw [e, rested_port, passBytes_port, fed_port]
    exact c
  · rw [e]
    rfl
  · rw [e]
    rfl
  · rw [e]
    rfl

end

/-- SYNC is lost on a head that cannot be taken, and nothing is passed over. -/
theorem delinStep_loses {k : Nat} {s : State} (c : (s.korPort k).cap = .sync) (n : 4 ≤ (s.korPort k).rx.length)
    (h : capValid ((s.korPort k).rx.take 4) = false) (fix : s.flag (Reg.KOR_HUNT_CFG_HEAD_FIX k) = false) :
    delinStep k s = some (capLost k 0 s) := by
  have bad : takeHead s k ((s.korPort k).rx.take 4) = none := by
    rw [takeHead, h, fix]
    rfl
  rw [delinStep, c]
  simp only [syncStep, bad]
  exact if_neg (by omega)

end Sys2Proof.Machine
end

section
/-! SUPPORT. The cue channel (05 R196, R197). -/

namespace Sys2Proof.Machine

theorem OnlyRegs.withKor {offs : List Nat} {s t : State} (h : OnlyRegs offs s t) (m : SMap KorPort) :
    OnlyRegs offs { s with kor := m } { t with kor := m } := ⟨congrArg (fun x : State => { x with kor := m }) h.1, h.2⟩

theorem OnlyRegs.korPort_eq {offs : List Nat} {s t : State} (h : OnlyRegs offs s t) (k : Nat) : t.korPort k = s.korPort k :=
  korPort_of_kor ((congrArg State.kor h.1).trans rfl) k

theorem inKor_acts {s : State} {k : Nat} (h : s.korActs k = true) (op : State → State) : inKor k op s = op s := if_pos h

/-! ### Sending (R196, R197) -/

section
variable {k : Nat} {s : State} {len : Nat}

/-- SEND of a length, as the register takes it. -/
def cueWord (len : Nat) : Word := word [(Reg.KOR_CUE_TX_CTRL_SEND 0, 1), (Reg.KOR_CUE_TX_CTRL_LEN 0, len)]

theorem cueWord_send (len : Nat) : fieldOf (Reg.KOR_CUE_TX_CTRL_SEND 0) (cueWord len) = 1 :=
  fieldOf_word_fst _ _ _ (by decide) (by decide) (by decide) (by decide)

theorem cueWord_len (h : len < 512) : fieldOf (Reg.KOR_CUE_TX_CTRL_LEN 0) (cueWord len) = len :=
  fieldOf_word_snd _ _ _ (by decide) h

theorem cueTxWrite_refuses (b : s.flag (Reg.KOR_CUE_TX_CTRL_BUSY k) = true) (len : Nat) :
    cueTxWrite k (cueWord len) s = s.inc Reg.CTL_FAULT_BUSY := by
  rw [cueTxWrite, if_pos (cueWord_send len), if_pos b]

/-- The bytes of the message staged, of a length. -/
def cueStaged (s : State) (k len : Nat) : List Byte := (wordBytes (s.rds (Reg.KOR_CUE_TX_DATA k 0) 64)).take len

theorem OnlyRegs.cueStaged_eq {t : State} (h : OnlyRegs [Reg.KOR_CUE_TX_CTRL k] s t) (len : Nat) : cueStaged t k len = cueStaged s k len := by
  have data : t.rds (Reg.KOR_CUE_TX_DATA k 0) 64 = s.rds (Reg.KOR_CUE_TX_DATA k 0) 64 := by
    refine List.map_congr_left (fun i _ => h.2 _ (mt List.mem_singleton.1 ?_))
    simp only [Reg.KOR_CUE_TX_DATA, Reg.KOR_CUE_TX_CTRL]
    omega
  rw [cueStaged, cueStaged, data]

/-- A port with a cue frame to be sent from its first byte. -/
def withCue (m : List Byte) (p : KorPort) : KorPort := { p with cueTx := m ++ toBe 4 (crc32 m).toNat, cueFirst := true }

theorem cueTxWrite_sends (free : mlook 0 (Reg.KOR_CUE_TX_CTRL k) s.locks = 0) (b : s.flag (Reg.KOR_CUE_TX_CTRL_BUSY k) = false)
    (lo : 1 ≤ len) (hi : len ≤ 256) : ∃ u, OnlyRegs [Reg.KOR_CUE_TX_CTRL k] s u ∧
      cueTxWrite k (cueWord len) s = (u.modKor k (withCue (cueStaged u k len))).setFlag (Reg.KOR_CUE_TX_CTRL_BUSY k) true := by
  refine ⟨_, onlyRegs_storeReg (List.mem_singleton_self _) free (cueWord len), ?_⟩
  rw [cueTxWrite, if_pos (cueWord_send len), if_neg (by rw [b]; exact Bool.false_ne_true), cueWord_len (by omega)]
  exact if_neg (by omega)

/-- A message that is sent waits in the port with BUSY set, and only the register and the port change. -/
theorem cueWaits {u : State} (h : OnlyRegs [Reg.KOR_CUE_TX_CTRL k] s u) {t : State}
    (e : t = (u.modKor k (withCue (cueStaged u k len))).setFlag (Reg.KOR_CUE_TX_CTRL_BUSY k) true) :
    t.flag (Reg.KOR_CUE_TX_CTRL_BUSY k) = true ∧ OnlyRegs [Reg.KOR_CUE_TX_CTRL k] { s with kor := t.kor } t ∧
      t.korPort k = withCue (cueStaged s k len) (s.korPort k) := by
  have kor : t.kor = (u.modKor k (withCue (cueStaged u k len))).kor := by rw [e, State.setFlag_kor]
  refine ⟨?_, ?_, ?_⟩
  · rw [e]
    exact State.flag_setFlag _ _ _ rfl (show 31 < 32 by decide)
  · rw [kor, e]
    exact (h.withKor _).setFlag (f := Reg.KOR_CUE_TX_CTRL_BUSY k) (List.mem_singleton_self _) true
  · rw [korPort_of_kor kor, State.korPort_modKor, h.cueStaged_eq, h.korPort_eq]

end

/-! ### Receiving (R197) -/

section
variable {k : Nat} {s : State} {msg : List Byte} (acts : s.korActs k = true) (aligned : s.flag (Reg.KOR_STS_ALIGNED k) = true)

/-- A cue frame of a right length, its CRC-32 right (R196). -/
def cueRight (msg : List Byte) : Prop :=
  5 ≤ msg.length ∧ msg.length ≤ 260 ∧ msg.drop (msg.length - 4) = toBe 4 (crc32 (noFcs msg)).toNat

theorem cueRight_iff (msg : List Byte) : (decide (5 ≤ msg.length) && decide (msg.length ≤ 260) &&
    decide (msg.drop (msg.length - 4) = toBe 4 (crc32 (noFcs msg)).toNat)) = true ↔ cueRight msg := by
  simp only [cueRight, Bool.and_eq_true, decide_eq_true_eq, and_assoc]

theorem cueRxOp_idle (h : s.flag (Reg.KOR_STS_ALIGNED k) = false) : cueRxOp k msg s = s := if_pos (Or.inr h)

include acts aligned

theorem cueRxOp_drops (h : ¬ cueRight msg ∨ 4 ≤ (s.korPort k).cueRx.length) : cueRxOp k msg s = s.inc (Reg.KOR_CUE_RX_DROP k) := by
  unfold cueRxOp
  rw [if_neg (by rw [acts, aligned]; decide)]
  refine if_pos (h.imp (fun w => ?_) id)
  rw [← Bool.not_eq_true, cueRight_iff]
  exact w

/-- A cue frame kept behind those that wait, in the cells taken for it. -/
def cueKept (s : State) (k : Nat) (body : List Byte) : State :=
  let r := takeSpots ((body.length + 63) / 64) s cellPool
  showCue (r.2.modKor k (fun p => { p with cueRx := p.cueRx ++ [body], cueSpots := p.cueSpots ++ [r.1] })) k

theorem cueRxOp_keeps (right : cueRight msg) (few : (s.korPort k).cueRx.length < 4) (cfg : s.flag Reg.BPM_STS_CFG_ERR = false)
    (cells : s.cellsTake clsCue (((noFcs msg).length + 63) / 64) = true) : cueRxOp k msg s =
      if (s.korPort k).cueRx = [] then raise (cueKept s k (noFcs msg)) 0x1A0D k 0 (some k) else cueKept s k (noFcs msg) := by
  unfold cueRxOp
  rw [if_neg (by rw [acts, aligned]; decide)]
  have ok := (cueRight_iff msg).2 right
  refine (if_neg ?_).trans ((if_neg (by rw [cfg]; exact Bool.false_ne_true)).trans (if_neg (by rw [cells]; exact Bool.noConfusion)))
  rintro (w | w)
  · rw [ok] at w
    exact Bool.noConfusion w
  · omega

end

/-- The head cue frame gone, and its cells freed. -/
def cuePopped (s : State) (k : Nat) (rest : List (List Byte)) : State :=
  showCue ((freeSpots s cellPool ((s.korPort k).cueSpots.headD [])).modKor k (fun p => { p with
    cueRx := rest, cueSpots := p.cueSpots.drop 1 })) k

theorem cuePopOp_next {s : State} {k : Nat} {msg : List Byte} {rest : List (List Byte)} (h : (s.korPort k).cueRx = msg :: rest) :
    cuePopOp k s = if rest = [] then cuePopped s k rest else raise (cuePopped s k rest) 0x1A0D k 0 (some k) := by
  unfold cuePopOp
  rw [h]
  rfl

theorem cuePopOp_none {s : State} {k : Nat} (h : (s.korPort k).cueRx = []) : cuePopOp k s = s := by
  unfold cuePopOp
  rw [h]

end Sys2Proof.Machine
end

section
/-! THEOREM. Capsules and the cue channel (05 R171 to R181, R196, R197). -/

namespace Sys2Proof.Proofs
open Sys2Proof.Machine

section
variable {s : State} {k : Fin 32} (run : s.running = true) (acts : s.korActs k = true) (frames : s.isStream k = false)
  (loop : ∀ j ∈ s.portLanes .lnl k, s.get (Reg.LN_CFG_LOOP (lnBase .lnl j)) = 0)

include run loop in
theorem korCapsuleRx_eq (cap : List Byte) (via : Bool) (next : Word) :
    exec (.korCapsuleRx k cap via next) s = .next (capsuleRxOp k cap via next s) :=
  congrArg Host.Outcome.next ((live_acts _ run).trans (fromPairs_acts (portNear_unlooped loop) _))

include run acts frames in
theorem korCapsuleTx_idle (mission : s.inMission .lnl k = true) (none : mget (32 + k.val) s.sch.sending = none) :
    exec (.korCapsuleTx k) s = .next (s.emit (.capsule k (capHead 0 1))) := by
  refine congrArg Host.Outcome.next ((live_acts _ run).trans ?_)
  unfold capsuleTxOp
  rw [if_neg (by rw [acts, frames, mission]; decide), none]
  rfl

include run in
theorem korCapsuleTx_dark (mission : s.inMission .lnl k = false) : exec (.korCapsuleTx k) s = .next s :=
  congrArg Host.Outcome.next ((live_acts _ run).trans (if_pos (Or.inr (Or.inr mission))))

variable {cap : List Byte} {next : Word} (aligned : s.flag (Reg.KOR_STS_ALIGNED k) = true) (empty : (s.korPort k).rx = [])
  (ptr : (s.korPort k).ptr = none)

include run loop acts frames aligned empty ptr

theorem korCapsuleRx_syncs (hunt : (s.korPort k).cap = .hunt) (whole : cap.length = headLength cap + 4) (h : plausible s k cap = true)
    (g : plausible s k (toBe 4 next.toNat) = true) (room : Room s (Reg.KOR_RX_SKIPPED k)) :
    ∃ t, exec (.korCapsuleRx k cap false next) s = .next t ∧ (t.korPort k).cap = .sync ∧ (t.korPort k).rx = [] ∧
      t.flag (Reg.KOR_STS_CAP_SYNC k) = true ∧ t.ctr (Reg.KOR_RX_SKIPPED k) = s.ctr (Reg.KOR_RX_SKIPPED k) + 1 ∧ t.sch = s.sch := by
  obtain ⟨n, op⟩ := capsuleRxOp_feeds acts frames aligned empty ptr cap false next
  have synced := hunt_syncs hunt whole (toBe_length 4 next.toNat) h g room n
  exact ⟨_, korCapsuleRx_eq run loop cap false next, synced_shows (candidate_port s k _) (toBe_length 4 _) (candidate_cnt s k _)
    (candidate_sch s k _) room (op.trans (congrArg (rested k) synced))⟩

theorem korCapsuleRx_passes (hunt : (s.korPort k).cap = .hunt) (via : Bool)
    (h : ∀ d, d < cap.length + 1 → plausible s k (sub (cap ++ toBe 4 next.toNat) d 4) = false) :
    ∃ t, exec (.korCapsuleRx k cap via next) s = .next t ∧ (t.korPort k).cap = .hunt ∧ t.cnt = s.cnt ∧ t.sch = s.sch ∧ t.regs = s.regs := by
  obtain ⟨n, op⟩ := capsuleRxOp_feeds acts frames aligned empty ptr cap via next
  have length : (cap ++ toBe 4 next.toNat).length = cap.length + 4 := by rw [List.length_append, toBe_length]
  have passed := hunt_passes (arrived s k via) hunt (by omega) (fun d hd => h d (by omega)) n
  exact ⟨_, korCapsuleRx_eq run loop cap via next, passed_shows hunt _ _ (op.trans (congrArg (rested k) passed))⟩

theorem korCapsuleRx_delivers (sync : (s.korPort k).cap = .sync) (whole : cap.length = headLength cap + 4) (h : capValid cap = true)
    (g : capValid (toBe 4 next.toNat) = true) (via : Bool) : exec (.korCapsuleRx k cap via next) s = .next
      ((capDeliver (s.modKor k (fun p => { p with rx := toBe 4 next.toNat })) k cap (decide (headType (toBe 4 next.toNat) = 3))).modKor k
        (fun p => { p with rx := [] })) := by
  obtain ⟨n, op⟩ := capsuleRxOp_feeds acts frames aligned empty ptr cap via next
  rw [korCapsuleRx_eq run loop, op, sync_delivers sync ptr whole (toBe_length 4 _) h g via, delivered_rests (toBe_length 4 _)]

end

/-- Settles O26: delineation's moves for the capsules received, the branches of a capsule's delivery, and the cue channel's
commands. -/
theorem capsulesAndCues : Obligations.CapsulesAndCues := by
  unfold Obligations.CapsulesAndCues
  refine ⟨fun s k cap via next run acts frames loop => ?_, fun s who k msg serves acts free loop => ?_⟩
  · refine ⟨fun ⟨al, empty, ptr⟩ hunt => ⟨fun whole h g room => ?_, fun h => ?_⟩, fun ⟨al, empty, ptr⟩ sync whole h g => ?_, fun void => ?_,
      fun sync n h fix => ?_, fun al => ?_, fun mission idle => ?_, fun mission => ?_⟩
    · exact korCapsuleRx_syncs run acts frames loop al empty ptr hunt whole h g room
    · exact korCapsuleRx_passes run acts frames loop al empty ptr hunt via h
    · exact korCapsuleRx_delivers run acts frames loop al empty ptr sync whole h g via
    · exact ⟨fun l t => capDeliver_idle s k l t void, fun l t => capDeliver_extra s k l t, capDeliver_aborted s k, capDeliver_malformed s k,
        capDeliver_data s k, capDeliver_control s k⟩
    · exact delinStep_loses sync n h fix
    · exact (korCapsuleRx_eq run loop cap via next).trans (congrArg Host.Outcome.next (capsuleRxOp_idle al cap via next))
    · exact korCapsuleTx_idle run acts frames mission idle
    · exact korCapsuleTx_dark run mission
  · have run := serves.1.1
    have near := fromPairs_acts (portNear_unlooped loop)
    have send : ∀ op, gateOwner who (Reg.KOR_CUE_TX_CTRL k) (inKor k op) s = op s := fun op =>
      (gateOwner_acts _ _ serves).trans (inKor_acts acts op)
    have pop : gateOwner who (Reg.KOR_CUE_RX_STS k) (inKor k (cuePopOp k)) s = cuePopOp k s :=
      (gateOwner_acts _ _ serves).trans (inKor_acts acts _)
    have receive : exec (.cueRxFrame k msg) s = .next (cueRxOp k msg s) :=
      congrArg Host.Outcome.next ((live_acts _ run).trans (near _))
    refine ⟨fun b => ?_, fun b lo hi => ?_, ?_, fun al h => ?_, fun al right few cfg cells => ?_, fun al => ?_, fun rest q => ?_, fun q => ?_⟩
    · exact congrArg Host.Outcome.next ((send _).trans (cueTxWrite_refuses b _))
    · obtain ⟨u, regs, op⟩ := cueTxWrite_sends free b lo hi
      exact ⟨_, congrArg Host.Outcome.next (send _), cueWaits regs op⟩
    · exact congrArg Host.Outcome.next (live_acts _ run)
    · rw [receive, cueRxOp_drops acts al h]
    · rw [receive, cueRxOp_keeps acts al right few cfg cells]
      rfl
    · rw [receive, cueRxOp_idle al]
    · exact congrArg Host.Outcome.next (pop.trans (cuePopOp_next q))
    · exact congrArg Host.Outcome.next (pop.trans (cuePopOp_none q))

end Sys2Proof.Proofs
end

section
/-! SUPPORT. What a device that has halted keeps until a reset: every part of the state but what accesses, reads of the log, time and
the seal touch (01 R32; 11 R420; 15 R546). -/

namespace Sys2Proof.Machine

/-! ### Counts and events of a frozen log (R546, R551) -/

theorem raise0_frozen {s : State} (h : s.evt.frozen = true) (id a0 : Nat) : raise0 s id a0 = s := raise_frozen h id a0 0 none

/-- A count whose wrap finds the log frozen changes the counters and nothing else. -/
theorem bump_frozen {s : State} (h : s.evt.frozen = true) (off n : Nat) : s.bump off n = { s with cnt := (s.bump off n).cnt } := by
  by_cases fits : s.ctr off + n < 2 ^ 48
  · rw [bump_below fits, bumpRaw_below fits]
  · have wraps : s.wouldWrap off n = true := decide_eq_true (Nat.le_of_not_lt fits)
    simp only [State.bump, wraps, bumpRaw_wraps (Nat.le_of_not_lt fits), raise0_frozen, h, ite_self, if_true]

theorem bump_frozen_ctr {s : State} (h : s.evt.frozen = true) {off a : Nat} (n : Nat) (k : a ≠ off) : (s.bump off n).ctr a = s.ctr a := by
  by_cases fits : s.ctr off + n < 2 ^ 48
  · rw [bump_below fits, State.ctr_bumpRaw_ne s n k]
  · rw [State.ctr, bump_wraps_cnt (Nat.le_of_not_lt fits) (Or.inl h)]
    exact mlook_mstore_ne _ _ _ _ k

/-! ### Halted, and what it keeps -/

/-- The device is halted and its log frozen (R32, R546). -/
structure Halted (s : State) : Prop where
  cond : s.ctl.cond = .halted
  frozen : s.evt.frozen = true

theorem Halted.stopped {s : State} (h : Halted s) : s.running = false := by simp [State.running, h.cond]

theorem Halted.halted {s : State} (h : Halted s) : s.halted = true := by simp [State.halted, h.cond]

theorem Halted.answers {s : State} (h : Halted s) : s.answers = true := by simp [State.answers, h.halted]

theorem Halted.not_reset {s : State} (h : Halted s) : s.ctl.cond ≠ .reset := by simp [h.cond]

theorem Halted.not_battery {s : State} (h : Halted s) : s.ctl.cond ≠ .battery := by simp [h.cond]

/-- A state t with every part of s that a halted device keeps: only its clock, registers, counters and outputs, its time, what each path
has a copy of, the log and the numbers of the cells it sent are t's. -/
def haltPart (s t : State) : State :=
  { s with
    clk := t.clk, out := t.out, regs := t.regs, cnt := t.cnt, tim := t.tim,
    ctl := { t.ctl with cond := s.ctl.cond },
    evt := { t.evt with frozen := s.evt.frozen, lastHalt := s.evt.lastHalt },
    fab := { s.fab with seqs := t.fab.seqs } }

/-- From the halted state s the device comes to t without losing anything of its halt: it has written the always-on registers alone, and
counted misaligned accesses and timeouts of the service port alone. -/
structure HaltKept (s t : State) : Prop where
  halted : Halted t
  rest : t = haltPart s t
  regs : ∀ a, winOf a ≠ .aon → t.rd a = s.rd a
  ctrs : ∀ c, c ≠ Reg.CTL_FAULT_ALIGN → c ≠ Reg.CTL_FAULT_SVC → t.ctr c = s.ctr c

namespace HaltKept
variable {s t u : State}

theorem refl (h : Halted s) : HaltKept s s := ⟨h, rfl, fun _ _ => rfl, fun _ _ _ => rfl⟩

theorem trans (h : HaltKept s t) (k : HaltKept t u) : HaltKept s u where
  halted := k.halted
  rest := k.rest.trans ((congrArg (fun x => haltPart x u) h.rest).trans rfl)
  regs a w := (k.regs a w).trans (h.regs a w)
  ctrs c al svc := (k.ctrs c al svc).trans (h.ctrs c al svc)

/-- A change that leaves registers and counters alone keeps the halt where the parts of `haltPart` stay. -/
theorem beside (h : HaltKept s t) (e : u = haltPart t u) (r : u.regs = t.regs) (c : u.cnt = t.cnt) : HaltKept s u :=
  h.trans ⟨⟨(congrArg (fun x => x.ctl.cond) e).trans h.halted.cond, (congrArg (fun x => x.evt.frozen) e).trans h.halted.frozen⟩, e,
    fun a _ => congrArg (mlook (regReset a) a) r, fun a _ _ => congrArg (fun x : Cnt => mlook 0 a x.vals) c⟩

theorem ite {p : Prop} [Decidable p] (h : HaltKept s t) (k : HaltKept s u) : HaltKept s (if p then t else u) := by
  split
  exacts [h, k]

/-! ### The operations of a halted device -/

theorem emit (h : HaltKept s t) (o : Output) : HaltKept s (t.emit o) := h.beside rfl rfl rfl

theorem modPath (h : HaltKept s t) (p : Path) (f : PathState → PathState) : HaltKept s (t.modPath p f) := by
  cases p <;> exact h.beside rfl rfl rfl

theorem setFlag (h : HaltKept s t) {g : Field} (w : winOf g.off = .aon) (b : Bool) : HaltKept s (t.setFlag g b) :=
  h.trans ⟨⟨h.halted.cond, h.halted.frozen⟩, rfl, fun _ k => rd_setFlag_ne t g b (fun e => k (e ▸ w)), fun _ _ _ => rfl⟩

/-- A read of the log takes a record and leaves the freeze and the record of the halt (R545, R546). -/
theorem popLog (h : HaltKept s t) : HaltKept s (popLog t) := ite h (h.beside rfl rfl rfl)

/-- The two faults of access that a halted device counts (R3, R50, R51, R581). -/
theorem inc (h : HaltKept s t) {off : Nat} (k : off = Reg.CTL_FAULT_ALIGN ∨ off = Reg.CTL_FAULT_SVC) : HaltKept s (t.inc off) := by
  have counts : t.inc off = { t with cnt := (t.inc off).cnt } := bump_frozen h.halted.frozen off 1
  refine h.trans ⟨?_, ?_, fun a _ => ?_, fun c al svc => bump_frozen_ctr h.halted.frozen 1 ?_⟩
  · rw [counts]
    exact ⟨h.halted.cond, h.halted.frozen⟩
  · rw [counts]
    rfl
  · rw [counts]
    rfl
  · rintro rfl
    exact k.elim al svc

theorem misaligned (h : HaltKept s t) : HaltKept s (misaligned t) := ite (h.inc (Or.inl rfl)) h

/-- A cell that a halted device would answer with takes its number, and no lane sends it (R131, R474). -/
theorem sendCell (h : HaltKept s t) (cls dst : Nat) (payload : List Byte) : HaltKept s (sendCell t cls dst payload) := by
  have idle (u : State) (k : u.running = false) (link l : Nat) (c : List Byte) : emitCell u link l c = u := by
    simp [emitCell, State.txIdle, k]
  have numbered (link : Nat) : HaltKept s (sendOn t link cls dst payload) := by
    unfold sendOn
    dsimp only
    rw [idle _ (show State.running (t.modFab _) = false from h.halted.stopped)]
    exact h.beside rfl rfl rfl
  unfold Machine.sendCell
  refine ite h ?_
  cases t.route dst with
  | none => exact h
  | some r => exact numbered r.2

end HaltKept

/-! ### Reads (R546) -/

/-- Among the reads with an effect of their own, a halted device serves that of the log (R546). -/
theorem specialRead_haltedOpen {off : Nat} (h : haltedOpen off = true) (who : Who) :
    specialRead who off = if off = Reg.EVT_LOG 3 then some (fun s => (s.logWordAt 3, popLog s)) else none := by
  have shut {x : Nat} (k : haltedOpen x = false) : off ≠ x := fun e => by rw [e, k] at h; cases h
  simp only [specialRead, shut (x := Reg.FLT_CC_MISMATCH) rfl, shut (x := Reg.FLT_FW_LOG) rfl, shut (x := Reg.ASC_REKEY_LOG) rfl,
    shut (x := Reg.ASC_FAULT_LOG) rfl, shut (x := Reg.FAB_DIVERGE_LOG) rfl, shut (x := Reg.AON_LATCH) rfl, shut (x := Reg.AON_TEMP) rfl,
    shut (x := Reg.TIM_NOW_NS) rfl, shut (x := Reg.TIM_CAP_NS 0) rfl, shut (x := Reg.TIM_CAP_NS 1) rfl,
    shut (x := Reg.TIM_CAP_SEC_HI 0) rfl, shut (x := Reg.TIM_CAP_SEC_HI 1) rfl, shut (x := Reg.VLT_RANDOM) rfl, if_false]

/-- A halted device adapts no receiver, so a read measures nothing (R32, R131). -/
theorem measureAt_stopped {t : State} (h : t.running = false) (off : Nat) : measureAt off t = t := by
  unfold measureAt
  simp only [h, Bool.false_and, Bool.false_eq_true, if_false]
  split <;> rfl

namespace HaltKept
variable {s t : State}

theorem unitRead (h : HaltKept s t) (who : Who) {off : Nat} (k : haltedOpen off = true) : HaltKept s (unitRead who off t).2 := by
  unfold Machine.unitRead
  rw [specialRead_haltedOpen k who]
  split
  · next f e =>
    split at e
    · cases e
      exact h.popLog
    · cases e
  · split
    · dsimp only
      exact h.modPath _ _
    · split <;> exact h

theorem localRead (h : HaltKept s t) (who : Who) (off : Nat) : HaltKept s (localRead who off t).2 := by
  unfold Machine.localRead
  rw [if_pos h.halted.halted]
  split
  · next k => exact h.unitRead who k
  · exact h

theorem readOp (h : HaltKept s t) (who : Who) (off : Nat) : HaltKept s (readOp who off t) := ite ((h.localRead who off).emit _) h

theorem pathRead (h : HaltKept s t) (who : Who) (off : Nat) : HaltKept s (pathRead who off t).2 := by
  unfold Machine.pathRead
  rw [measureAt_stopped h.halted.stopped]
  split
  · exact h.misaligned
  · exact h.localRead who off

/-! ### Writes (R546) -/

/-- What the device does only while it runs. -/
theorem live (h : HaltKept s t) (op : State → State) : HaltKept s (live op t) := by
  rw [live_idle op h.halted.stopped]
  exact h

/-- A path's write has no effect. -/
theorem gate (h : HaltKept s t) (who : Who) (c : WriteClass) (off : Nat) (op : State → State) : HaltKept s (gate who c off op t) := by
  rw [Machine.gate, if_pos h.halted.stopped]
  exact h

theorem pathWrite (h : HaltKept s t) (who : Who) (off : Nat) (val : Word) : HaltKept s (pathWrite who off val t) :=
  ite h.misaligned (h.gate _ _ _ _)

/-! ### Accesses in their order (R50 to R52, R518) -/

theorem answer (h : HaltKept s t) (a : Held) (v : Word) : HaltKept s (answer a v t) := by
  unfold Machine.answer
  cases a.form with
  | bar => exact ite h (h.emit _)
  | spi => exact ite h (h.emit _)
  | i2c => exact ite h (h.emit _)
  | fab tag => exact h.sendCell _ _ _

theorem serveAccess (h : HaltKept s t) (a : Held) : HaltKept s (serveAccess a t) := by
  unfold Machine.serveAccess
  cases a.write with
  | none => exact (h.pathRead _ _).answer _ _
  | some v => exact (h.pathWrite _ _ _).answer _ _

theorem serveSome (p : Path) (n : Nat) : ∀ {t : State}, HaltKept s t → HaltKept s (serveSome p n t) := by
  induction n with
  | zero => exact fun h => h
  | succ n ih =>
    intro t h
    unfold Machine.serveSome
    split
    · exact h
    · exact ite h (ih ((h.modPath _ _).serveAccess _))

theorem serveHeld (h : HaltKept s t) (p : Path) : HaltKept s (serveHeld p t) := h.serveSome p _

theorem arrive (h : HaltKept s t) (a : Held) : HaltKept s (arrive a t) :=
  have served := (h.modPath a.who.path (fun x => { x with held := x.held ++ [a] })).serveHeld a.who.path
  ite (h.serveAccess a) (ite (served.emit _) served)

theorem dropHeld (h : HaltKept s t) (form : Form) : HaltKept s (dropHeld form t) := by
  unfold Machine.dropHeld
  split
  · exact h
  · exact (h.modPath _ _).serveHeld _

/-! ### The commands that a halted device meets with more than silence -/

theorem apertureOp (h : HaltKept s t) (who : Who) (x : Nat) (write : Bool) (data : Word) : HaltKept s (apertureOp who x write data t) := by
  rw [Machine.apertureOp, if_pos (Or.inl h.halted.stopped)]
  exact ite (h.gate _ _ _ _) (h.readOp _ _)

theorem regWriteOp (h : HaltKept s t) (who : Who) (off : Nat) (val : Word) : HaltKept s (regWriteOp who off val t) :=
  ite (h.apertureOp _ _ _ _) (h.arrive _)

theorem regReadOp (h : HaltKept s t) (who : Who) (off : Nat) : HaltKept s (regReadOp who off t) :=
  ite (h.apertureOp _ _ _ _) (ite (h.arrive _) h)

theorem dormantOp (h : HaltKept s t) (who : Who) (off : Nat) (write : Bool) (data : Word) : HaltKept s (dormantOp who off write data t) :=
  ite (h.regWriteOp _ _ _) (h.regReadOp _ _)

theorem misalignedOp (h : HaltKept s t) (who : Who) (write : Bool) : HaltKept s (misalignedOp who write t) :=
  ite (ite h.misaligned (h.misaligned.emit _)) h

/-- BAR2 shows nothing of a halted device (R546, R553). -/
theorem bar2ReadOp (h : HaltKept s t) (x : Nat) : HaltKept s (bar2ReadOp x t) := by
  unfold Machine.bar2ReadOp
  rw [if_pos h.halted.halted]
  exact ite h (ite (h.misaligned.emit _) (h.emit _))

theorem spiOp (h : HaltKept s t) (opcode : Byte) (off data : Word) : HaltKept s (spiOp opcode off data t) :=
  ite h (ite (h.arrive _) (ite (ite (h.emit _) (h.arrive _)) h))

theorem i2cOp (h : HaltKept s t) (write : Bool) (off data : Word) : HaltKept s (i2cOp write off data t) :=
  ite h (ite (h.arrive _) (ite (h.emit _) (h.arrive _)))

theorem svcTimeoutOp (h : HaltKept s t) (spi : Bool) : HaltKept s (svcTimeoutOp spi t) :=
  ite (((h.inc (Or.inr rfl)).emit _).dropHeld _) h

theorem sdaStuckOp (h : HaltKept s t) (stillLow : Bool) : HaltKept s (sdaStuckOp stillLow t) :=
  ite h (ite (((h.dropHeld _).inc (Or.inr rfl)).emit _) (h.dropHeld _))

theorem sclStuckOp (h : HaltKept s t) (reading : Bool) : HaltKept s (sclStuckOp reading t) :=
  ite h (ite ((h.dropHeld _).emit _) (h.dropHeld _))

/-- A battery that runs low sets a flag of the always-on domain, whose event a halted device does not raise (R526, R546). -/
theorem vbatLowOp (h : HaltKept s t) : HaltKept s (vbatLowOp t) := by
  have low := h.setFlag (g := Reg.AON_STS_VBAT_LOW) rfl true
  unfold Machine.vbatLowOp
  dsimp only
  rw [raise0_frozen low.halted.frozen, ite_self]
  exact ite h low

/-- Of a halted device, the free-running counter runs on and no frame waits (R315, R364). -/
theorem tick (h : HaltKept s t) : HaltKept s (tick t) := by
  have ticked : HaltKept s { t with clk := t.clk + 1 } := h.beside rfl rfl rfl
  have ran := ite (p := State.frcRuns { t with clk := t.clk + 1 } = true) (ticked.beside (u := { t with
    clk := t.clk + 1, tim := { t.tim with frc := t.tim.frc + 1 } }) rfl rfl rfl) ticked
  unfold Machine.tick
  dsimp only
  simp only [ran.halted.stopped, Bool.false_and, Bool.false_eq_true, if_false]
  exact ran

end HaltKept

/-- Of a halted device no rail's loss acts but the core's and the auxiliary supply's (R523). -/
theorem railBelowOp_halted {s : State} (h : Halted s) {r : Rail} (core : r ≠ .core) (aux : r ≠ .aux) : railBelowOp r s = s := by
  unfold railBelowOp
  rw [if_neg h.not_battery]
  cases r with
  | core => exact absurd rfl core
  | aux => exact absurd rfl aux
  | sdA | sdH | ddr => exact live_idle _ h.stopped

/-- Monitors and doubled decisions act on no later event (R534, R546). -/
theorem monitorOp_halted {s : State} (h : Halted s) (m : Fin 9) (event : Bool) (ms : Nat) : monitorOp m event ms s = s := by
  simp [monitorOp, h.cond]

theorem secondTakingOp_halted {s : State} (h : Halted s) (d : Decision) (upset : Bool) : secondTakingOp d upset s = s := by
  simp [secondTakingOp, h.cond]

/-- A halted device is not in reset, which alone is released and checked (R89, R570). -/
theorem resetReleaseOp_halted {s : State} (h : Halted s) (boot : BitVec 2) (ddr : BitVec 4) : resetReleaseOp boot ddr s = s :=
  if_pos (Or.inl h.not_reset)

theorem aonCheckOp_halted {s : State} (h : Halted s) (burnOk : Bool) : aonCheckOp burnOk s = s := if_pos (Or.inl h.not_reset)

end Sys2Proof.Machine
end

section
/-! SUPPORT. A seal of a halted device touches the memory guard alone (11 R404, R406, R407, R420). -/

namespace Sys2Proof.Machine

/-- Only the guard and what is given to the outside may differ. -/
def Sealing (s t : State) : Prop := t = { s with mgd := t.mgd, out := t.out }

namespace Sealing
variable {s t u : State}

theorem refl (s : State) : Sealing s s := rfl

theorem modMgd (h : Sealing s t) (f : Mgd → Mgd) : Sealing s (t.modMgd f) :=
  (congrArg (fun x : State => x.modMgd f) h).trans rfl

theorem store (h : Sealing s t) (off : Nat) (bytes : List Byte) : Sealing s (t.store off bytes) :=
  (congrArg (fun x : State => x.store off bytes) h).trans rfl

theorem frozen (h : Sealing s t) (f : s.evt.frozen = true) : t.evt.frozen = true := (congrArg (fun x => x.evt.frozen) h).trans f

theorem foldl {α : Type} {f : State → α → State} (hf : ∀ t x, Sealing s t → Sealing s (f t x)) (l : List α) :
    ∀ {t : State}, Sealing s t → Sealing s (l.foldl f t) := by
  induction l with
  | nil => exact fun h => h
  | cons x l ih => exact fun h => ih (hf _ x h)

/-- A COUNT that ages or ends raises its event, which a frozen log does not take. -/
theorem countUp (h : Sealing s t) (f : s.evt.frozen = true) (k : Nat) : Sealing s (countUp t k) := by
  have counted (e : TreeEntry) := h.modMgd (fun m => { m with tree := mstore zeroEntry k e m.tree })
  unfold Machine.countUp
  dsimp only
  rw [raise0_frozen (h.frozen f), raise0_frozen ((counted _).frozen f), ite_self]
  split
  exacts [h, counted _]

theorem writeBackAll (f : s.evt.frozen = true) : Sealing s (writeBackAll s) := by
  unfold Machine.writeBackAll
  exact modMgd (foldl (fun _ _ h => h.store _ _) _ (foldl (fun _ _ h => (h.store _ _).store _ _) _
    (foldl (fun _ k h => h.countUp f k) _ (refl s)))) _

theorem sealOp (f : s.evt.frozen = true) (ok : Bool) : Sealing s (sealOp ok s) := by
  unfold Machine.sealOp
  split
  · exact rfl
  · split
    · exact (writeBackAll f).modMgd _
    · have poisoned : Sealing s (s.modRet (fun t => { t with poison := true })) := rfl
      rw [raise0_frozen (poisoned.frozen f)]
      exact poisoned

/-- But for the guard, a seal keeps what a halted device keeps. -/
theorem kept (h : Sealing s t) (halted : Halted s) : HaltKept { s with mgd := t.mgd } t := by
  rw [show t = { s with mgd := t.mgd, out := t.out } from h]
  exact ⟨⟨halted.cond, halted.frozen⟩, rfl, fun _ _ => rfl, fun _ _ _ => rfl⟩

end Sealing

/-! ### The commands of a halted device -/

/-- The command is none of the resets of R92 and R523. -/
def NoReset (c : Instr) : Prop :=
  c ≠ .powerOnReset ∧ (∀ b, c ≠ .resetAssert b) ∧ c ≠ .railBelowReset .core ∧ c ≠ .railBelowReset .aux

/-- A halted device keeps its halt under every command but a reset and the seal: what acts only while the device runs and what a path
writes do nothing, accesses are answered, and the always-on domain waits (R32, R131, R546). -/
theorem exec_haltKept {s : State} (h : Halted s) (c : Instr) (noReset : NoReset c) (noSeal : ∀ ok, c ≠ .seal ok) :
    ∃ t, exec c s = .next t ∧ HaltKept s t := by
  have kept := HaltKept.refl h
  obtain ⟨noPower, noAssert, noCore, noAux⟩ := noReset
  cases c with
  | remoteAccessTimeout | regReqRetry | offerExpiry | verifyDone | applyDone | loaderIdleTimeout | mbxDone | mbxTimeout | fwWatchdogReset
  | fwDelegationResume | fwRun | fwFrameTx | vaultStageDone | entropyStartupTimeout | memoryInitDone | ddrTrainTimeout | portsEnable
  | quadPowered | cdrLock | cdrUnlock | los | signalStable | ktfReceived | stepResume | rungTimeout | failRetry | anPageReceived
  | anTimerExpiry | ieeeTrainDone | ieeeTrainTimeout | prbsLock | prbsLockLost | injBurst | refclkLost | refclkRestored | macRxFrame
  | pcsAligned | pcsAlignLost | deskewFail | rsFaultRx | linkUp | faultMirrorStart | faultMirrorStop | fecInterval | korCodeword
  | korLaneFrameRx | korLinkUp | korFramePeriodTx | streamPeriodRx | streamTagVerify | korCapsuleRx | korCapsuleTx | csfStart | csfStop
  | korDegradeInterval | cueTxDone | cueRxFrame | dailiesLatch | fltLookup | fltCmdDone | ccCompare | ascCmdDone | storeReady
  | pageInDone | markPersisted | dissolveOpen | dissolveSwitch | dissolveClose | sliceDone | splicerRelease | cutRelease | maskSeed
  | maskStarved | katDone | carouselLoadTick | ringWakeDone | ringSleepAck | gateTimeout | dupCheckDone | noCores | bpmUe | egressStart
  | txFrameDone | shaperRefill | ptpSlotDue | holdoverTimeout | ppsLost | ppsInEdge | timeEventEdge | ppsOutEdge | xtalCalDone
  | fuWaitTimeout | mgdReadComplete | memVerdict | mgdWriteComplete | chgPage | vltCmdDone | drbgReseed | entropyFail | entropyRetest
  | bbsRemask | updApplyDone | lcSelfReset | uceFeedDone | loadBlobDone | fabCellRx | fabLinkUp | helloTx | neighbourLost | heartbeatTx
  | lvdsHeartbeatRx | hbTick | initWaitExpiry | fenceTimer | fenceDone | markRetry | resyncDone | switchoverDone | selfTestRing
  | stateCrcTx | domainAnswer | domainAnswerTimeout | admissionDrainTimeout | gafTransitionDone | accessWake | domainIdleSleep
  | wakeSense | railWarning | railWarningClear | evidenceBurn | msixUnmask | cutUnderrun | resyncSweep | ktfTx =>
    exact ⟨_, rfl, kept.live _⟩
  | claim | confirm | release | handoverOffer | handoverWithdraw | loadOpen | loadData | loadVerify | loadApply | loadClose | mbxGetInfo
  | mbxMkaDelegate | mbxMkaRelease | mbxMkaStatus | mbxPtpHandle | mbxLogRead | mbxSelfTest | laneCfgWrite | laneRestart
  | lanePrbsCfgWrite | injOnce | cueSend | cuePop | fltInsert | fltDelete | fltRead | fltModify | fltSearch | harvestHits | tsWrite
  | tsRead | tsClear | ccSigWrite | ccLift | install | activate | retire | ascRead | readCounters | pin | unpin | advancePn
  | setSuccessor | join | leave | troupeCreate | troupeDelete | troupeParent | schedule | cancel | dissolveStatus | ringKat | ringRestore
  | poolCfgWrite | shpWrite | shpRead | mapWrite | mapRead | histSnap | timRateWrite | timSet | timAdd | chgStart | vltGenerate
  | vltImport | vltStore | vltFetch | vltAttest | updOpen | updData | updApply | updClose | uceStart | uceFeed | uceAbort | slotWrite
  | loadBlob | slotErase | switchover | gafRequest | releasePorts | qdevLift | cntSnap | cntClear | sptTailWrite =>
    exact ⟨_, rfl, kept.gate _ _ _ _⟩
  | fltCcMismatchRead | fltFwLogRead | ascRekeyLogRead | ascFaultLogRead | timNowRead | timCapPop | vltRandomRead | fabDivergeLogRead
  | aonLatchRead | evtLogPop =>
    exact ⟨_, rfl, kept.readOp _ _⟩
  | regWrite => exact ⟨_, rfl, kept.regWriteOp _ _ _⟩
  | readLowWord | readHighWord => exact ⟨_, rfl, kept.regReadOp _ _⟩
  | misalignedAccess => exact ⟨_, rfl, kept.misalignedOp _ _⟩
  | dormantAccess => exact ⟨_, rfl, kept.dormantOp _ _ _ _⟩
  | remoteApertureAccess => exact ⟨_, rfl, kept.apertureOp _ _ _ _⟩
  | bar2Read => exact ⟨_, rfl, kept.bar2ReadOp _⟩
  | spiTransaction => exact ⟨_, rfl, kept.spiOp _ _ _⟩
  | i2cTransaction => exact ⟨_, rfl, kept.i2cOp _ _ _⟩
  | svcReadTimeout => exact ⟨_, rfl, kept.svcTimeoutOp _⟩
  | i2cSdaStuck => exact ⟨_, rfl, kept.sdaStuckOp _⟩
  | i2cSclStuck => exact ⟨_, rfl, kept.sclStuckOp _⟩
  | vbatLow => exact ⟨_, rfl, kept.vbatLowOp⟩
  | monitorSample => exact ⟨s, congrArg Host.Outcome.next (monitorOp_halted h _ _ _), kept⟩
  | verdictSecondTaking => exact ⟨s, congrArg Host.Outcome.next (secondTakingOp_halted h _ _), kept⟩
  | resetRelease => exact ⟨s, congrArg Host.Outcome.next (resetReleaseOp_halted h _ _), kept⟩
  | aonCheckDone => exact ⟨s, congrArg Host.Outcome.next (aonCheckOp_halted h _), kept⟩
  | railBelowReset r =>
    have idle := railBelowOp_halted h (fun e => noCore (congrArg Instr.railBelowReset e)) (fun e => noAux (congrArg Instr.railBelowReset e))
    exact ⟨s, congrArg Host.Outcome.next idle, kept⟩
  | powerOnReset => exact absurd rfl noPower
  | resetAssert b => exact absurd rfl (noAssert b)
  | _ ok => exact absurd rfl (noSeal ok)

/-- A seal keeps all but the guard. -/
theorem exec_seal_haltKept {s : State} (h : Halted s) (ok : Bool) : ∃ t, exec (.seal ok) s = .next t ∧ HaltKept { s with mgd := t.mgd } t :=
  ⟨_, rfl, (Sealing.sealOp h.frozen ok).kept h⟩

/-- A step of a halted device that meets no reset: it keeps all but the guard, which a seal alone changes. -/
theorem step_haltKept {s : State} (h : Halted s) (noReset : ∀ c, s.pending.head? = some c → NoReset c) :
    ∃ t, step s = .next t ∧ HaltKept { s with pending := t.pending, mgd := t.mgd } t ∧
      ((∀ ok, s.pending.head? ≠ some (.seal ok)) → t.mgd = s.mgd) := by
  have kept {u t : State} (k : HaltKept u t) : t.pending = u.pending ∧ t.mgd = u.mgd :=
    ⟨(congrArg State.pending k.rest).trans rfl, (congrArg State.mgd k.rest).trans rfl⟩
  unfold step
  cases queue : s.pending with
  | nil =>
    have ticked := (HaltKept.refl h).tick
    obtain ⟨pending, mgd⟩ := kept ticked
    refine ⟨_, rfl, ?_, fun _ => mgd⟩
    rw [pending, mgd]
    exact ticked
  | cons c cs =>
    rw [queue] at noReset
    have rest : Halted { s with pending := cs } := ⟨h.cond, h.frozen⟩
    by_cases isSeal : ∃ ok, c = .seal ok
    · obtain ⟨ok, rfl⟩ := isSeal
      obtain ⟨t, run, k⟩ := exec_seal_haltKept rest ok
      refine ⟨t, run, ?_, fun none => absurd rfl (none ok)⟩
      rw [show t.pending = cs from (kept k).1]
      exact k
    · obtain ⟨t, run, k⟩ := exec_haltKept rest c (noReset c rfl) (fun ok e => isSeal ⟨ok, e⟩)
      obtain ⟨pending, mgd⟩ := kept k
      refine ⟨t, run, ?_, fun _ => mgd⟩
      rw [pending, mgd]
      exact k

end Sys2Proof.Machine

namespace Sys2Proof.Proofs
open Sys2Proof.Machine

/-- Settles O57: every command's own lemma says what it leaves of a halted device. -/
theorem haltHolds : Obligations.HaltHolds := by
  intro s halted frozen noReset
  have h : Halted s := ⟨of_decide_eq_true halted, frozen⟩
  obtain ⟨t, run, k, guard⟩ := step_haltKept h noReset
  have part {α : Type} (f : State → α) : f t = f (haltPart _ t) := congrArg f k.rest
  exact ⟨t, run, k.halted.halted, k.halted.frozen, part (fun u => u.evt.lastHalt), k.regs, part State.locks, k.ctrs, part State.lanes,
    part State.korLanes, part State.kor, part State.flt, part State.asc, part State.frm, part State.sch, part State.fab, part State.gaf,
    part State.vlt, guard⟩

end Sys2Proof.Proofs
end

section
/-! SUPPORT. Frames that the firmware submits (01 R23; 05 R175; 06 R202, R203): one equation for each way they go. -/

namespace Sys2Proof.Machine

section
variable {s : State} {n : Nat} {fr : List Byte}

theorem fwFrameOp_idle (h : s.ctl.fwRun = false ∨ s.portExists (if n < 32 then .client else .line) (n % 32) = false) :
    fwFrameOp n fr s = s := if_pos h

variable (run : s.ctl.fwRun = true) (exist : s.portExists (if n < 32 then .client else .line) (n % 32) = true)
include run exist

/-- What firmware gives for a port that exists has its FCS appended, and goes by its EtherType and its port's side. -/
theorem fwFrameOp_sends : fwFrameOp n fr s =
    (let whole := fr ++ fcsBytes fr
     if isMka n fr then
       let bytes := if s.isKorone (n - 32) then capHead whole.length 2 ++ whole else whole
       let f : Frame := { newFrame s .mka .enc n n bytes with owner := 64, stage := .farm }
       let b := takeBuffer (s.addFrame f) f.id bytes.length (some clsMgmt)
       if b.1 then depart b.2 f.id else b.2
     else if n < 32 then enterFrame s { newFrame s .data .enc n (32 + n) whole with owner := 64 }
     else enterFrame s { newFrame s .data .dec n (n - 32) whole with owner := 64 }) := if_neg (by simp [run, exist])

theorem fwFrameOp_client (plain : isMka n fr = false) (client : n < 32) : fwFrameOp n fr s =
    enterFrame s { newFrame s .data .enc n (32 + n) (fr ++ fcsBytes fr) with owner := 64 } := by
  rw [fwFrameOp_sends run exist, plain]
  exact if_pos client

theorem fwFrameOp_line (plain : isMka n fr = false) (line : 32 ≤ n) : fwFrameOp n fr s =
    enterFrame s { newFrame s .data .dec n (n - 32) (fr ++ fcsBytes fr) with owner := 64 } := by
  rw [fwFrameOp_sends run exist, plain]
  exact if_neg (Nat.not_lt.2 line)

theorem fwFrameOp_mka (mka : isMka n fr = true) : fwFrameOp n fr s =
    (let whole := fr ++ fcsBytes fr
     let bytes := if s.isKorone (n - 32) then capHead whole.length 2 ++ whole else whole
     let f : Frame := { newFrame s .mka .enc n n bytes with owner := 64, stage := .farm }
     let b := takeBuffer (s.addFrame f) f.id bytes.length (some clsMgmt)
     if b.1 then depart b.2 f.id else b.2) := by
  rw [fwFrameOp_sends run exist, mka]
  exact if_pos rfl

end

end Sys2Proof.Machine

namespace Sys2Proof.Proofs
open Sys2Proof.Machine

/-- Settles O14: by the port that the firmware names and the EtherType of its frame. -/
theorem firmwareFrames : Obligations.FirmwareFrames := by
  intro s n fr running exist whole
  have acts : exec (.fwFrameTx n fr) s = .next (fwFrameOp n fr s) := congrArg Host.Outcome.next (live_acts _ running)
  refine ⟨fun none => ?_, fun run port plain client => ?_, fun run port plain line => ?_, fun run port mka => ?_⟩
  · rw [acts, fwFrameOp_idle none]
  · rw [acts, fwFrameOp_client run port plain client]
  · rw [acts, fwFrameOp_line run port plain line]
  · exact acts.trans (congrArg Host.Outcome.next (fwFrameOp_mka run port mka))

end Sys2Proof.Proofs
end

section
/-! SUPPORT. Slices that return, the splicer's release and cut-through (01 R41; 08 R295, R302, R303, R312 to R314, R319 to R322, R324):
one equation for each branch of their operations. -/

namespace Sys2Proof.Machine

section
variable {s : State} {id i a c x y : Nat} {f : Frame}

/-! ### A slice is done (R295, R303, R312) -/

theorem sliceDoneOp_none (h : s.sliceCore id i = none) : sliceDoneOp id i s = s := by simp [sliceDoneOp, h]

theorem sliceDoneOp_some (h : s.sliceCore id i = some c) (held : s.frame? id = some f) : sliceDoneOp id i s =
    dealAll (finishFrame (settleCore ((takeSlice s f c i).modCore c (fun x => { x with queue := x.queue.drop 1 })) c) id) := by
  simp only [sliceDoneOp, h, held]

/-! ### The tag is formed or checked (R312, R313) -/

theorem not_unfinished (all : f.returned.length = f.slices) (alone : f.sampled = 0) (untagged : f.tagOk = none) :
    ¬ (f.returned.length < f.slices ∨ f.sampled ≠ 0 ∨ f.tagOk.isSome = true) := by simp [all, alone, untagged]

section
variable (held : s.frame? id = some f) (assoc : f.assoc = some a)
  (due : ¬ (f.returned.length < f.slices ∨ f.sampled ≠ 0 ∨ f.tagOk.isSome = true))
include held assoc due

theorem finishFrame_enc (enc : f.dir = .enc) : finishFrame s id = ((s.mark id 7).mark id 8).modFrame id (fun g => { g with
    plain := noFcs f.bytes, bytes := protectFrame ((s.mark id 7).mark id 8) f, crc := crc32 (protectFrame ((s.mark id 7).mark id 8) f),
    tagOk := some true }) := by
  simp only [finishFrame, held, assoc, due, if_false, enc]

theorem finishFrame_fails (dec : f.dir = .dec) (whole : f.cut = false) (bad : (openFrame ((s.mark id 7).mark id 8) f).2 = false) :
    finishFrame s id = dropFrame (countTagFail ((s.mark id 7).mark id 8) a) id (Reg.FRM_TAG_FAIL (f.n % 32)) := by
  simp only [finishFrame, held, assoc, due, if_false, dec, whole, bad, Bool.false_eq_true]

theorem finishFrame_verifies (dec : f.dir = .dec) (whole : f.cut = false) (good : (openFrame ((s.mark id 7).mark id 8) f).2 = true) :
    finishFrame s id = ((s.mark id 7).mark id 8).modFrame id (fun g => { g with
      plain := (openFrame ((s.mark id 7).mark id 8) f).1, crc := crc32 (openFrame ((s.mark id 7).mark id 8) f).1, tagOk := some true }) := by
  simp only [finishFrame, held, assoc, due, if_false, dec, whole, good, Bool.false_eq_true, if_true]

end

/-! ### The comparison of a sampled slice (R324) -/

theorem dupCheckOp_idle (same : Bool) (h : s.frame? id = none ∨ ∃ f, s.frame? id = some f ∧ f.sampled = 0) :
    dupCheckOp id same x y s = s := by
  rcases h with none | ⟨f, held, zero⟩
  · simp [dupCheckOp, none]
  · simp [dupCheckOp, held, zero]

theorem dupCheckOp_equal (held : s.frame? id = some f) (sampled : f.sampled ≠ 0) : dupCheckOp id true x y s =
    finishFrame (s.modFrame id (fun f => { f with sampled := f.sampled - 1 })) id := by
  simp only [dupCheckOp, held, sampled, if_false, if_true]

theorem dupCheckOp_differs (held : s.frame? id = some f) (sampled : f.sampled ≠ 0) : dupCheckOp id false x y s =
    dealAll (raise ((coreOut (coreOut (dropFrame (s.inc Reg.FRM_CHECK_MISMATCH) id (Reg.FRM_CHECK_DROP (f.n % 32))) x) y).modFrm
      (fun z => { z with kat := ladd y (ladd x z.kat) })) 0x3001 x y none) := by
  simp only [dupCheckOp, held, sampled, Bool.false_eq_true, if_false]

/-! ### The splicer releases (R314) -/

theorem releaseOne_none (none : s.frame? id = none) : releaseOne s id = s := by simp [releaseOne, none]

section
variable (held : s.frame? id = some f) (assoc : f.assoc = some a)
include held assoc

theorem releaseOne_waits (h : (s.releasable f = false ∧ f.stage ≠ .lease) ∨ s.earlier a id ≠ []) : releaseOne s id = s := by
  have stays : ((s.releasable f || decide (f.stage = .lease)) && decide (s.earlier a id = [])) = false := by
    rcases h with ⟨no, lease⟩ | before
    · simp [no, lease]
    · simp [before]
  simp only [releaseOne, held, assoc, stays, Bool.false_eq_true, if_false]

variable (may : s.releasable f = true) (first : s.earlier a id = [])
include may first

theorem releaseOne_dec (dec : f.dir = .dec) : releaseOne s id = finalCheck (s.mark id 9) f a := by
  simp [releaseOne, held, assoc, may, first, dec]

theorem releaseOne_enc (enc : f.dir = .enc) (client : f.kind ≠ .extra) :
    releaseOne s id = depart ((countFrame (s.mark id 9) a (f.plain.length + 4)).mark id 10) id := by
  simp [releaseOne, held, assoc, may, first, enc, client]

end

/-! ### Cut-through (R319 to R322) -/

theorem cutReleaseOp_none (none : s.frame? id = none) : cutReleaseOp id s = s := by simp [cutReleaseOp, none]

theorem cutReleaseOp_stays (held : s.frame? id = some f) (assoc : f.assoc = some a) (no : s.cutOk f a = false) : cutReleaseOp id s = s := by
  simp [cutReleaseOp, held, assoc, no]

theorem cutReleaseOp_leaves (held : s.frame? id = some f) (assoc : f.assoc = some a) (ok : s.cutOk f a = true) :
    cutReleaseOp id s = joinQueue ((((s.inc (Reg.FRM_CUT_RELEASED (f.n % 32))).mark id 10).modAsc
      (fun x => { x with claims := x.claims ++ [(a, f.pn)] })).modFrame id
        (fun g => { g with cut := true, plain := (openWith s f (foretold s f)).1 })) id := by
  simp only [cutReleaseOp, held, assoc, ok, Bool.true_eq_false, if_false]

/-- What keeps a frame from being released before its verdict (R319). -/
theorem cutOk_never (h : f.gated = true ∨ s.pendingKey f = true ∨ clientLength (s.asRec a) f ≤ 1024 ∨
    s.flag (Reg.FRM_PORT_CFG_CUT_THROUGH (f.n % 32)) = false ∨ f.dir = .enc ∨ f.picked = true) : s.cutOk f a = false := by
  unfold State.cutOk
  rcases h with gated | pending | short | off | enc | picked
  · simp [gated]
  · simp [pending]
  · simp [Nat.not_lt.2 short]
  · simp [off]
  · simp [enc]
  · simp [picked]

theorem cutUnderrunOp_none (none : s.frame? id = none) : cutUnderrunOp id s = s := by simp [cutUnderrunOp, none]

theorem cutUnderrunOp_idle (held : s.frame? id = some f) (h : f.cut = false ∨ f.stage ≠ .sending ∨ f.slices ≤ f.returned.length) :
    cutUnderrunOp id s = s := by
  have kept : ¬ (f.cut = true ∧ f.stage = .sending ∧ f.returned.length < f.slices) := by
    rintro ⟨cut, sending, late⟩
    rcases h with whole | other | done
    · exact absurd cut (by simp [whole])
    · exact other sending
    · omega
  simp only [cutUnderrunOp, held, kept, if_false]

theorem cutUnderrunOp_fails (held : s.frame? id = some f) (cut : f.cut = true) (sending : f.stage = .sending)
    (late : f.returned.length < f.slices) : cutUnderrunOp id s =
      (s.inc (Reg.FRM_CUT_UNDERRUN (f.n % 32))).modFrame id (fun g => { g with failed := true }) := by
  simp only [cutUnderrunOp, held, cut, sending, late, and_self, if_true]

end

/-! ### The commands -/

section
variable {s : State} (run : s.running = true)
include run

theorem sliceDone_eq (id i : Nat) : exec (.sliceDone id i) s = .next (sliceDoneOp id i s) := congrArg Host.Outcome.next (live_acts _ run)

theorem dupCheckDone_eq (id : Nat) (same : Bool) (x y : Fin 512) : exec (.dupCheckDone id same x y) s = .next (dupCheckOp id same x y s) :=
  congrArg Host.Outcome.next (live_acts _ run)

theorem splicerRelease_eq (id : Nat) : exec (.splicerRelease id) s = .next (dealAll (releaseOne s id)) :=
  congrArg Host.Outcome.next (live_acts _ run)

theorem cutRelease_eq (id : Nat) : exec (.cutRelease id) s = .next (cutReleaseOp id s) := congrArg Host.Outcome.next (live_acts _ run)

theorem cutUnderrun_eq (id : Nat) : exec (.cutUnderrun id) s = .next (cutUnderrunOp id s) := congrArg Host.Outcome.next (live_acts _ run)

end

end Sys2Proof.Machine

namespace Sys2Proof.Proofs
open Sys2Proof.Machine

/-- Settles O36: each command by the branches of its operation. -/
theorem slicesReturn : Obligations.SlicesReturn := by
  refine ⟨fun s id i a c f x y run => ⟨fun none => ?_, fun core held => ?_, fun none => ⟨?_, ?_, ?_, ?_, ?_⟩, fun held zero => ⟨?_, ?_⟩,
    fun held sampled => ⟨?_, ?_⟩, fun held assoc => ⟨fun no lease => ?_, fun before => ?_, fun may first dec => ?_,
      fun may first enc client => ?_, fun all alone untagged => ⟨fun enc => ?_, fun dec whole bad => ?_, fun dec whole good => ?_⟩⟩⟩,
    fun s id a f run held assoc => ⟨fun ok => ?_, fun no => ?_, cutOk_never, fun cut sending late => ?_, fun h => ?_⟩⟩
  · rw [sliceDone_eq run, sliceDoneOp_none none]
  · rw [sliceDone_eq run, sliceDoneOp_some core held]
    rfl
  · rw [dupCheckDone_eq run, dupCheckOp_idle _ (Or.inl none)]
  · rw [dupCheckDone_eq run, dupCheckOp_idle _ (Or.inl none)]
  · rw [splicerRelease_eq run, releaseOne_none none]
  · rw [cutRelease_eq run, cutReleaseOp_none none]
  · rw [cutUnderrun_eq run, cutUnderrunOp_none none]
  · rw [dupCheckDone_eq run, dupCheckOp_idle _ (Or.inr ⟨f, held, zero⟩)]
  · rw [dupCheckDone_eq run, dupCheckOp_idle _ (Or.inr ⟨f, held, zero⟩)]
  · rw [dupCheckDone_eq run, dupCheckOp_equal held sampled]
  · rw [dupCheckDone_eq run, dupCheckOp_differs held sampled]
  · rw [splicerRelease_eq run, releaseOne_waits held assoc (Or.inl ⟨no, lease⟩)]
  · rw [splicerRelease_eq run, releaseOne_waits held assoc (Or.inr before)]
  · rw [splicerRelease_eq run, releaseOne_dec held assoc may first dec]
  · rw [splicerRelease_eq run, releaseOne_enc held assoc may first enc client]
  · exact finishFrame_enc held assoc (not_unfinished all alone untagged) enc
  · exact finishFrame_fails held assoc (not_unfinished all alone untagged) dec whole bad
  · exact finishFrame_verifies held assoc (not_unfinished all alone untagged) dec whole good
  · rw [cutRelease_eq run, cutReleaseOp_leaves held assoc ok]
  · rw [cutRelease_eq run, cutReleaseOp_stays held assoc no]
  · rw [cutUnderrun_eq run, cutUnderrunOp_fails held cut sending late]
  · rw [cutUnderrun_eq run, cutUnderrunOp_idle held h]

end Sys2Proof.Proofs
end

section
/-! SUPPORT. What reset leaves (02 R55, R63, R89; 10 R364; 14 R509; 15 R553, R560). -/

namespace Sys2Proof.Machine

/-- At reset every register reads as its map gives it. -/
theorem reset_rd (off : Nat) : State.reset.rd off = regReset off := rfl

theorem reset_exposes_none : ∀ i < 64, regReset (Reg.CNT_EXPOSE i) = 0 := by decide +kernel

/-- No response holds, as the register's reset value shows it (R560). -/
theorem reset_rung : State.reset.rung = 0 := by decide +kernel

end Sys2Proof.Machine

namespace Sys2Proof.Proofs
open Sys2Proof.Machine

/-- Settles O3: the registers by their maps' reset values, the units' own state by its reset value. -/
theorem resetLeaves : Obligations.ResetLeaves := by
  refine ⟨?_, ?_, ?_, ?_, ?_, fun i hi => (reset_rd _).trans (reset_exposes_none i hi), ?_, rfl, ?_, reset_rung, rfl, rfl⟩
  all_goals decide +kernel

end Sys2Proof.Proofs
end

section
/-! SUPPORT. The commands that are writes of the ringmaster, sent by another path (02 R53, R54). -/

namespace Sys2Proof.Machine

/-! ### Registers of no interface of the firmware's own (R231, R286, R459) -/

/-- The utility cipher engine's window (R48). -/
theorem winOf_ne_uce {off : Nat} (h : off < 0x70000 ∨ 0x80000 ≤ off) : winOf off ≠ .uce := by
  unfold winOf
  by_cases low : off < 0x100000
  · rw [if_pos low]
    split
    case h_8 seven => omega
    all_goals exact nofun
  rw [if_neg low]
  refine ite_ne ?_ ?_
  · split
    case h_3 => exact ite_ne nofun nofun
    all_goals exact nofun
  · repeat' refine ite_ne nofun ?_
    exact nofun

theorem firmwareOwn_outside {off : Nat} (h : off < 0x70000 ∨ (0x80000 ≤ off ∧ off < 0x240000) ∨ (0x240088 ≤ off ∧ off < 0x280000) ∨ 0x2800A0 ≤ off) :
    firmwareOwn off = false := by
  have uce : winOf off ≠ .uce := winOf_ne_uce (by omega)
  have banked : bankedReg off = false := by
    rw [Bool.eq_false_iff]
    simp only [bankedReg, ne_eq, Bool.or_eq_true, Bool.and_eq_true, decide_eq_true_eq]
    simp only [Reg.FLT_CMD, Reg.FLT_STAGE_KEY, Reg.FLT_HITS, Reg.ASC_CMD, Reg.ASC_STAGE, Reg.ASC_KEY_STAGE]
    omega
  simp [firmwareOwn, banked, uce]

theorem lnBase_bounds (l : Lane) : 0x100000 ≤ lnBase l.unit l.idx ∧ lnBase l.unit l.idx < 0x160000 := by
  have idx := l.idx.isLt
  unfold lnBase
  cases l.unit <;> simp only <;> omega

theorem lane_outside (l : Lane) : firmwareOwn (Reg.LN_CFG (lnBase l.unit l.idx)) = false ∧
    firmwareOwn (Reg.LN_TRAIN (lnBase l.unit l.idx)) = false ∧ firmwareOwn (Reg.LN_PRBS_CFG (lnBase l.unit l.idx)) = false ∧
    firmwareOwn (Reg.LN_INJ (lnBase l.unit l.idx)) = false := by
  have bounds := lnBase_bounds l
  simp only [Reg.LN_CFG, Reg.LN_TRAIN, Reg.LN_PRBS_CFG, Reg.LN_INJ]
  refine ⟨?_, ?_, ?_, ?_⟩ <;> exact firmwareOwn_outside (by omega)

theorem cue_outside (k : Fin 32) : firmwareOwn (Reg.KOR_CUE_TX_CTRL k) = false ∧ firmwareOwn (Reg.KOR_CUE_RX_STS k) = false := by
  simp only [Reg.KOR_CUE_TX_CTRL, Reg.KOR_CUE_RX_STS]
  constructor <;> exact firmwareOwn_outside (by omega)

theorem ring_outside (r : Fin 32) : firmwareOwn (Reg.FRM_RING_CMD r) = false :=
  firmwareOwn_outside (by simp only [Reg.FRM_RING_CMD]; omega)

theorem poolOff_outside (p : Nat) : firmwareOwn (poolOff p) = false := by
  refine firmwareOwn_outside ?_
  unfold poolOff
  split <;> simp only [Reg.BPM_POOL_CFG, Reg.BPM_CELL_CFG] <;> omega

/-! ### What the path's command comes to -/

/-- A ringmaster's command of another path is counted, unless the firmware sends it by an interface of its own. -/
theorem ownerCommand_refused {s : State} {who : Who} {cmd : Instr} (aw : Awake s) (own : s.isOwner who = false) (off : Nat)
    (op : State → State) (h : who.path ≠ .firmware ∨ firmwareOwn off = false) (e : exec cmd s = .next (gateOwner who off op s)) :
    exec cmd s = .next (s.inc Reg.CTL_FAULT_OWNER) := by
  rw [e, gateOwner, gate_refuses _ _ aw]
  refine mayWrite_none own ?_
  by_cases f : firmwareOwn off = true
  · exact Or.inr ⟨if_pos f, h.resolve_right (by simp [f])⟩
  · exact Or.inl (if_neg f)

end Sys2Proof.Machine

namespace Sys2Proof.Proofs
open Sys2Proof.Machine

/-- Settles O58: each command is a gated write of its register, and no register of the second list has an interface of the firmware's. -/
theorem onlyRingmasterCommands : Obligations.OnlyRingmasterCommands := by
  intro s who path lane k addr ms b16 sh tag val wide byIndex valid profile grp pool assoc m region len c seg slot target g index aw own
  have other {cmd : Instr} (off : Nat) (op : State → State) := ownerCommand_refused (cmd := cmd) aw own off op
  constructor
  · intro firm
    simp only [List.forall_mem_cons, List.not_mem_nil, IsEmpty.forall_iff, implies_true, and_true]
    repeat' apply And.intro
    all_goals exact other _ _ (.inl firm) rfl
  · simp only [List.forall_mem_cons, List.not_mem_nil, IsEmpty.forall_iff, implies_true, and_true]
    repeat' apply And.intro
    all_goals refine other _ _ (.inr ?_) rfl
    any_goals simp only [lane_outside, cue_outside, ring_outside, poolOff_outside]
    all_goals decide

end Sys2Proof.Proofs
end

section
/-! SUPPORT. What an event leaves of CTL_BOOT: every field but HEALTHY, which a halt clears (02 R63; 15 R546). -/

namespace Sys2Proof.Machine

/-- A field of CTL_BOOT apart from HEALTHY. -/
def BootField (f : Field) : Prop := f.off = Reg.CTL_BOOT ∧ (25 < f.lo ∨ f.hi < 25)

theorem BootField.of_rd {f : Field} (h : BootField f) {s t : State} (k : t.rd Reg.CTL_BOOT = s.rd Reg.CTL_BOOT) : t.get f = s.get f := by
  simp only [State.get, h.1, k]

theorem boot_not_lane : ∀ b ∈ laneBases, Reg.CTL_BOOT ≠ Reg.LN_STS b := by decide +kernel

theorem zeroiseWorking_boot (s : State) : (zeroiseWorking s).rd Reg.CTL_BOOT = s.rd Reg.CTL_BOOT := by
  have gone (t : State) : (keysGone t).rd Reg.CTL_BOOT = t.rd Reg.CTL_BOOT := rfl
  have staging (off : Nat) (n : Nat) (h : Reg.CTL_BOOT < off) (t : State) :
      (t.wrs off (List.replicate n 0)).rd Reg.CTL_BOOT = t.rd Reg.CTL_BOOT := rd_wrs_ne _ _ (fun i _ => by omega)
  rw [zeroiseWorking_eq, gone, rd_setFlag_ne _ _ _ (by decide), zeroSlotSts, rd_zeroSlots _ (fun i _ => by simp only [Reg.CTL_BOOT, Reg.UCE_SLOT_STS]; omega)]
  unfold zeroStaging
  dsimp only
  rw [staging _ _ (by decide), staging _ _ (by decide), staging _ _ (by decide)]

theorem haltNow_boot {f : Field} (h : BootField f) (s : State) (r : LogRec) : (haltNow s r).get f = s.get f := by
  have beside (u : State) (c : Ctl) (g : Gaf) (e : Evt) (m : Mgd) : ({ u with ctl := c, gaf := g, evt := e, mgd := m }).get f = u.get f := rfl
  have off := h.of_rd (rd_lanesOff boot_not_lane (s.setFlag Reg.CTL_BOOT_HEALTHY false))
  unfold haltNow
  dsimp only
  rw [beside, off]
  exact State.get_set_apart s _ _ _ (by decide) (by decide) h.1 (by simpa [Reg.CTL_BOOT_HEALTHY] using h.2)

theorem respond_boot {f : Field} (h : BootField f) (s : State) (rung id : Nat) (pair : Option Nat) (r : LogRec) :
    (respond s rung id pair r).get f = s.get f := by
  have ite {p : Prop} [Decidable p] {t u : State} (a : t.get f = s.get f) (b : u.get f = s.get f) : (if p then t else u).get f = s.get f := by
    split
    exacts [a, b]
  have working (u : State) : (zeroiseWorking u).get f = u.get f := h.of_rd (zeroiseWorking_boot u)
  have vault (u : State) : (zeroiseVault u).get f = u.get f := rfl
  have device (u : State) : (quiesceDevice u).get f = u.get f := h.of_rd (rd_quiesceDevice u (by decide) (by decide))
  have last (u : State) (hu : u.get f = s.get f) :
      (let v := if rung = 4 ∨ rung = 5 then zeroiseWorking u else u
       let w := if rung = 5 then zeroiseVault v else v
       if rung = 6 then haltNow w r else w).get f = s.get f :=
    have hv := ite (p := rung = 4 ∨ rung = 5) ((working u).trans hu) hu
    have hw := ite (p := rung = 5) ((vault _).trans hv) hv
    ite ((haltNow_boot h _ r).trans hw) hw
  have pended : (if 1 ≤ rung then setPend s id else s).get f = s.get f :=
    ite (h.of_rd (rd_setPend s id (by simp only [Reg.CTL_BOOT, Reg.EVT_PEND]; omega))) rfl
  unfold respond
  cases pair with
  | none =>
    have quiesced := ite (p := 2 ≤ rung) pended pended
    exact last _ (ite ((device _).trans quiesced) quiesced)
  | some k =>
    have port : (quiescePort (if 1 ≤ rung then setPend s id else s) k).get f = s.get f :=
      (h.of_rd (State.rd_wr_ne _ _ (by decide))).trans pended
    have quiesced := ite (p := 2 ≤ rung) port pended
    exact last _ (ite ((device _).trans quiesced) quiesced)

theorem raiseOne_boot {f : Field} (h : BootField f) (s : State) (rung id a0 a1 : Nat) (pair : Option Nat) :
    (raiseOne s rung id a0 a1 pair).get f = s.get f := by
  unfold raiseOne
  split
  · rfl
  · refine (respond_boot h _ _ _ _ _).trans ?_
    unfold pushLog
    split
    · rfl
    · exact h.of_rd (rd_bumpRaw _ _ _ _)

theorem raiseAt_boot {f : Field} (h : BootField f) (s : State) (rung id a0 a1 : Nat) (pair : Option Nat) :
    (raiseAt s rung id a0 a1 pair).get f = s.get f := by
  have one := raiseOne_boot h s rung id a0 a1 pair
  unfold raiseAt
  dsimp only
  generalize raiseOne s rung id a0 a1 pair = t at one ⊢
  split
  · exact (raiseOne_boot h _ _ _ _ _ _).trans one
  · exact one

theorem raise_boot {f : Field} (h : BootField f) (s : State) (id a0 a1 : Nat) (pair : Option Nat) : (raise s id a0 a1 pair).get f = s.get f :=
  raiseAt_boot h s _ id a0 a1 pair

theorem raise0_boot {f : Field} (h : BootField f) (s : State) (id a0 : Nat) : (raise0 s id a0).get f = s.get f := raise_boot h s id a0 0 none

theorem bootField_stage : BootField Reg.CTL_BOOT_STAGE := ⟨rfl, by decide⟩

theorem raise0_stage (s : State) (id a0 : Nat) : (raise0 s id a0).stage = s.stage := raise0_boot bootField_stage s id a0

end Sys2Proof.Machine
end

section
/-! SUPPORT. A field of a word that is put together of several (00 R2). -/

namespace Sys2Proof.Machine

/-- None of the values put into a word touches a field. -/
def apartFrom (f : Field) (fs : List (Field × Nat)) : Bool :=
  fs.all (fun p => decide (p.1.lo ≤ p.1.hi ∧ p.1.hi < 32 ∧ (p.1.hi < f.lo ∨ f.hi < p.1.lo)))

theorem fieldOf_foldl_apart {f : Field} : ∀ {fs : List (Field × Nat)} (w : Word), apartFrom f fs = true →
    fieldOf f (fs.foldl (fun w p => setBits w p.1.hi p.1.lo p.2) w) = fieldOf f w
  | [], _, _ => rfl
  | (g, v) :: fs, w, h => by
    simp only [apartFrom, List.all_cons, Bool.and_eq_true, decide_eq_true_eq] at h
    obtain ⟨⟨ordered, small, apart⟩, rest⟩ := h
    rw [List.foldl_cons, fieldOf_foldl_apart _ rest, fieldOf_setBits_apart _ _ _ ordered small _ apart]

/-- A field that no value is given to reads 0. -/
theorem fieldOf_word_zero {f : Field} {fs : List (Field × Nat)} (h : apartFrom f fs = true) : fieldOf f (word fs) = 0 := by
  rw [word, fieldOf_foldl_apart _ h]
  simp [fieldOf, bits]

/-- A field whose value no later one touches reads as that value, cut to its width. -/
theorem fieldOf_word_mod (fs : List (Field × Nat)) {f : Field} {v : Nat} {gs : List (Field × Nat)} (h : apartFrom f gs = true)
    (ordered : f.lo ≤ f.hi) (small : f.hi < 32) : fieldOf f (word (fs ++ (f, v) :: gs)) = v % 2 ^ (f.hi + 1 - f.lo) := by
  rw [word, List.foldl_append, List.foldl_cons, fieldOf_foldl_apart _ h, fieldOf, bits_setBits _ ordered small]

/-- A field reads as a value that fits it, once stored. -/
theorem State.get_set_lt (s : State) (f : Field) (ordered : f.lo ≤ f.hi) (small : f.hi < 32) {v : Nat} (hv : v < 2 ^ (f.hi + 1 - f.lo)) :
    (s.set f v).get f = v := by
  rw [State.get_set s f ordered small, Nat.mod_eq_of_lt hv]

theorem fieldOf_word_at (fs : List (Field × Nat)) {f : Field} {v : Nat} {gs : List (Field × Nat)} (h : apartFrom f gs = true)
    (ordered : f.lo ≤ f.hi) (small : f.hi < 32) (hv : v < 2 ^ (f.hi + 1 - f.lo)) : fieldOf f (word (fs ++ (f, v) :: gs)) = v := by
  rw [fieldOf_word_mod fs h ordered small, Nat.mod_eq_of_lt hv]

end Sys2Proof.Machine
end

section
/-! SUPPORT. Ownership: one write of CTL_OWNER, the claims of one clock, and hand-overs (02 R55, R56, R58, R63). -/

namespace Sys2Proof.Machine

/-! ### One write of CTL_OWNER -/

/-- The write names another path or address than CTL_OWNER does. -/
def ownerChanges (s : State) (code addr : Nat) : Bool :=
  decide (s.get Reg.CTL_OWNER_OWNER_PATH ≠ code) || decide (s.get Reg.CTL_OWNER_OWNER_ADDR ≠ addr)

/-- The word that one write of CTL_OWNER leaves there. -/
def ownerWord (s : State) (code addr : Nat) : Word :=
  word [(Reg.CTL_OWNER_STATE, if code = 0 then 0 else 1), (Reg.CTL_OWNER_OWNER_PATH, code), (Reg.CTL_OWNER_OWNER_ADDR, addr),
    (Reg.CTL_OWNER_SEQ, if ownerChanges s code addr then s.get Reg.CTL_OWNER_SEQ + 1 else s.get Reg.CTL_OWNER_SEQ)]

/-- The write with what a change of ringmaster closes, before start-up goes on. -/
def ownerWritten (s : State) (code addr : Nat) : State :=
  let t := s.wr Reg.CTL_OWNER (ownerWord s code addr)
  if ownerChanges s code addr then updOwnerChange (loaderOwnerChange (raise0 t 0x0102 0) code addr) else t

theorem setOwner_eq (s : State) (code addr : Nat) : setOwner s code addr = settleStages (ownerWritten s code addr) := rfl

theorem settleStages_idle {s : State} (h6 : s.stage ≠ 6) (h7 : s.stage ≠ 7) : settleStages s = s := by
  unfold settleStages
  have still : (if s.stage = 6 ∧ s.owned = true ∧ s.bootMode ≠ 1 then s.toStage 7 else s) = s := if_neg (fun h => h6 h.1)
  dsimp only
  rw [still]
  exact if_neg (fun h => h7 h.1)

theorem loaderOwnerChange_rd (s : State) (code addr : Nat) {a : Nat} (h : a ≠ Reg.CTL_LOAD_STATUS) :
    (loaderOwnerChange s code addr).rd a = s.rd a := by
  unfold loaderOwnerChange
  exact rd_ite ((State.modCtl_rd _ _ _).trans (s.rd_wr_ne _ h)) rfl

theorem updOwnerChange_rd (s : State) {a : Nat} (h : a ≠ Reg.VLT_UPD_STS) : (updOwnerChange s).rd a = s.rd a := by
  unfold updOwnerChange
  exact rd_ite (s.rd_wr_ne _ h) rfl

theorem ownerWritten_rd (s : State) (code addr : Nat) : (ownerWritten s code addr).rd Reg.CTL_OWNER = ownerWord s code addr := by
  have written := s.rd_wr Reg.CTL_OWNER (ownerWord s code addr)
  unfold ownerWritten
  dsimp only
  split
  · rw [updOwnerChange_rd _ (by decide), loaderOwnerChange_rd _ _ _ (by decide), raise0_rd _ _ _ (by decide +kernel), written]
  · exact written

theorem ownerWritten_stage (s : State) (code addr : Nat) : (ownerWritten s code addr).stage = s.stage := by
  have written : (s.wr Reg.CTL_OWNER (ownerWord s code addr)).stage = s.stage := s.get_wr_ne _ _ (by decide)
  unfold ownerWritten
  dsimp only
  split
  · refine (bootField_stage.of_rd ?_).trans ((raise0_stage _ 0x0102 0).trans written)
    rw [updOwnerChange_rd _ (by decide), loaderOwnerChange_rd _ _ _ (by decide)]
  · exact written

/-- Outside stages 6 and 7 the write is all that happens. -/
theorem setOwner_outside {s : State} (h6 : s.stage ≠ 6) (h7 : s.stage ≠ 7) (code addr : Nat) :
    setOwner s code addr = ownerWritten s code addr := by
  rw [setOwner_eq, settleStages_idle] <;> rwa [ownerWritten_stage]

/-- The fields of the word that one write of CTL_OWNER leaves. -/
theorem ownerWord_fields (s : State) {code addr : Nat} (hc : code < 4) (ha : addr < 64) :
    fieldOf Reg.CTL_OWNER_STATE (ownerWord s code addr) = (if code = 0 then 0 else 1) ∧
    fieldOf Reg.CTL_OWNER_OWNER_PATH (ownerWord s code addr) = code ∧ fieldOf Reg.CTL_OWNER_OWNER_ADDR (ownerWord s code addr) = addr ∧
    fieldOf Reg.CTL_OWNER_OFFER_PATH (ownerWord s code addr) = 0 ∧ fieldOf Reg.CTL_OWNER_OFFER_ADDR (ownerWord s code addr) = 0 ∧
    fieldOf Reg.CTL_OWNER_SEQ (ownerWord s code addr) =
      if ownerChanges s code addr then (s.get Reg.CTL_OWNER_SEQ + 1) % 4096 else s.get Reg.CTL_OWNER_SEQ := by
  refine ⟨fieldOf_word_at [] rfl (by decide) (by decide) (by split <;> decide), fieldOf_word_at [_] rfl (by decide) (by decide) hc,
    fieldOf_word_at [_, _] rfl (by decide) (by decide) ha, fieldOf_word_zero rfl, fieldOf_word_zero rfl, ?_⟩
  refine (fieldOf_word_mod [_, _, _] rfl (by decide) (by decide)).trans ?_
  have seq : s.get Reg.CTL_OWNER_SEQ < 4096 := bits_lt _ _ _
  split
  · rfl
  · exact Nat.mod_eq_of_lt seq

end Sys2Proof.Machine
end

section
/-! SUPPORT. Claims, confirmations and releases, and hand-overs (02 R55, R56, R58). -/

namespace Sys2Proof.Machine

/-! ### CLAIM, CONFIRM and RELEASE -/

theorem claim_eq {s : State} (h : Awake s) (c : ClaimSet) : exec (.claim c) s = .next (claimsOp c s) :=
  congrArg Host.Outcome.next (gate_acts _ _ h (by simp [State.mayWrite]))

theorem confirm_eq {s : State} (h : Awake s) (who : Who) : exec (.confirm who) s = .next (confirmOp who s) :=
  congrArg Host.Outcome.next (gate_acts _ _ h (by simp [State.mayWrite]))

theorem release_eq {s : State} (h : Awake s) (who : Who) : exec (.release who) s = .next (releaseOp who s) :=
  congrArg Host.Outcome.next (gate_acts _ _ h (by simp [State.mayWrite]))

theorem claimOp_path {who : Who} (h : pathCode who.path ≠ 0) (s : State) : claimOp who s =
    if s.get Reg.CTL_OWNER_STATE = 0 then setOwner s (pathCode who.path) (ownerAddr who) else s.inc Reg.CTL_CLAIM_REFUSED := if_neg h

theorem claimsOp_alone (who : Who) (s : State) : claimsOp who.alone s = claimOp who s := by
  simp [claimsOp, Who.alone, claimWinner]

/-- Of two claims in one clock the one of lower rank is served, and the other is counted (R58). -/
theorem claimsOp_two (who : Who) {rival : Who} (h : pathCode rival.path ≠ 0) (s : State) :
    claimsOp { who := who, rivals := [rival], decided := false } s =
      (claimOp (if claimRank rival < claimRank who then rival else who) s).inc Reg.CTL_CLAIM_REFUSED := by
  simp [claimsOp, h, claimWinner, State.inc]

/-- Where a class 1 decision is applied in the clock, every claim is counted (R95). -/
theorem claimsOp_decided {who rival : Who} (hw : pathCode who.path ≠ 0) (hr : pathCode rival.path ≠ 0) {s : State} (h : decisionNear s = true) :
    claimsOp { who := who, rivals := [rival], decided := true } s = s.bump Reg.CTL_CLAIM_REFUSED 2 := by
  simp [claimsOp, h, hw, hr, b2n]

/-! ### An offer in CTL_OWNER -/

/-- CTL_OWNER with another state and offer, its ringmaster kept. -/
def offered (s : State) (state path addr : Nat) : State :=
  ((s.set Reg.CTL_OWNER_STATE state).set Reg.CTL_OWNER_OFFER_PATH path).set Reg.CTL_OWNER_OFFER_ADDR addr

theorem offered_fields (s : State) {state path addr : Nat} (hs : state < 4) (hp : path < 4) (ha : addr < 64) :
    (offered s state path addr).get Reg.CTL_OWNER_STATE = state ∧ (offered s state path addr).get Reg.CTL_OWNER_OFFER_PATH = path ∧
    (offered s state path addr).get Reg.CTL_OWNER_OFFER_ADDR = addr := by
  have path' := State.get_set_apart ((s.set Reg.CTL_OWNER_STATE state).set Reg.CTL_OWNER_OFFER_PATH path) Reg.CTL_OWNER_OFFER_ADDR
  have state' := State.get_set_apart (s.set Reg.CTL_OWNER_STATE state) Reg.CTL_OWNER_OFFER_PATH
  refine ⟨?_, ?_, State.get_set_lt _ _ (by decide) (by decide) ha⟩
  · exact (path' Reg.CTL_OWNER_STATE _ (by decide) (by decide) rfl (by decide)).trans ((state' Reg.CTL_OWNER_STATE _ (by decide) (by decide) rfl (by decide)).trans
      (State.get_set_lt _ _ (by decide) (by decide) hs))
  · exact (path' Reg.CTL_OWNER_OFFER_PATH _ (by decide) (by decide) rfl (by decide)).trans (State.get_set_lt _ _ (by decide) (by decide) hp)

/-- The ringmaster is the one it was, and nothing but CTL_HANDOVER and CTL_OWNER may differ. -/
def OwnerStays (s t : State) : Prop :=
  t.get Reg.CTL_OWNER_OWNER_PATH = s.get Reg.CTL_OWNER_OWNER_PATH ∧ t.get Reg.CTL_OWNER_OWNER_ADDR = s.get Reg.CTL_OWNER_OWNER_ADDR ∧
    t.get Reg.CTL_OWNER_SEQ = s.get Reg.CTL_OWNER_SEQ ∧ OnlyRegs [Reg.CTL_HANDOVER, Reg.CTL_OWNER] s t

theorem ownerStays_of_handover {s t : State} (h : OnlyRegs [Reg.CTL_HANDOVER] s t) : OwnerStays s t :=
  ⟨h.get _ (by decide), h.get _ (by decide), h.get _ (by decide), h.mono (by simp)⟩

theorem OwnerStays.set {s t : State} (h : OwnerStays s t) {f : Field} (o : f.off = Reg.CTL_OWNER) (small : f.lo ≤ f.hi ∧ f.hi < 32)
    (path : f.hi < 28 ∨ 29 < f.lo) (addr : f.hi < 22 ∨ 27 < f.lo) (seq : 11 < f.lo) (v : Nat) : OwnerStays s (t.set f v) := by
  obtain ⟨hp, ha, hs, only⟩ := h
  exact ⟨(t.get_set_apart f _ v small.1 small.2 o.symm path).trans hp, (t.get_set_apart f _ v small.1 small.2 o.symm addr).trans ha,
    (t.get_set_apart f _ v small.1 small.2 o.symm (.inr seq)).trans hs, only.set (by simp [o]) v⟩

theorem OwnerStays.offered {s t : State} (h : OwnerStays s t) (state path addr : Nat) : OwnerStays s (offered t state path addr) := by
  have first := h.set (f := Reg.CTL_OWNER_STATE) rfl (by decide) (by decide) (by decide) (by decide) state
  have second := first.set (f := Reg.CTL_OWNER_OFFER_PATH) rfl (by decide) (by decide) (by decide) (by decide) path
  exact second.set (f := Reg.CTL_OWNER_OFFER_ADDR) rfl (by decide) (by decide) (by decide) (by decide) addr

theorem endOffer_open {s : State} (h : s.get Reg.CTL_OWNER_STATE = 2) : endOffer s = offered s 1 0 0 := if_pos h

theorem endOffer_none {s : State} (h : s.get Reg.CTL_OWNER_STATE ≠ 2) : endOffer s = s := if_neg h

theorem endOffer_stays {s t : State} (h : OwnerStays s t) : OwnerStays s (endOffer t) := by
  by_cases o : t.get Reg.CTL_OWNER_STATE = 2
  · rw [endOffer_open o]; exact h.offered _ _ _
  · rw [endOffer_none o]; exact h

/-! ### Hand-overs -/

theorem handoverWord_fields (target : Path) (addr : BitVec 6) (ms : BitVec 16) :
    fieldOf Reg.CTL_HANDOVER_TARGET_PATH (handoverWord target addr ms) = pathCode target ∧
    fieldOf Reg.CTL_HANDOVER_TARGET_ADDR (handoverWord target addr ms) = addr.toNat ∧
    fieldOf Reg.CTL_HANDOVER_TIMEOUT_MS (handoverWord target addr ms) = ms.toNat :=
  ⟨fieldOf_word_at [] rfl (by decide) (by decide) (by cases target <;> decide), fieldOf_word_at [_] rfl (by decide) (by decide) addr.isLt,
    fieldOf_word_at [_, _] rfl (by decide) (by decide) ms.isLt⟩

theorem Serves.owned {s : State} {who : Who} (h : Serves s who) : s.get Reg.CTL_OWNER_STATE ≠ 0 := by
  have own := h.2
  simp only [State.isOwner, State.owned, Bool.and_eq_true, decide_eq_true_eq] at own
  exact own.1

section
variable {s : State} {who : Who} (serves : Serves s who) (free : mlook 0 Reg.CTL_HANDOVER s.locks = 0)
include serves free

theorem handoverWrite_stored (val : Word) : OnlyRegs [Reg.CTL_HANDOVER] s (storeReg Reg.CTL_HANDOVER val s) ∧
    (storeReg Reg.CTL_HANDOVER val s).get Reg.CTL_OWNER_STATE ≠ 0 := by
  have only := onlyRegs_storeReg (offs := [Reg.CTL_HANDOVER]) (by simp) free val
  refine ⟨only, ?_⟩
  rw [only.get _ (by decide)]
  exact serves.owned

/-- With a time-out the ringmaster's word is an offer to its target. -/
theorem handoverOffer_eq (target : Path) (addr : BitVec 6) {ms : BitVec 16} (h : ms ≠ 0) : exec (.handoverOffer who target addr ms) s =
    .next (offered (storeReg Reg.CTL_HANDOVER (handoverWord target addr ms) s) 2 (pathCode target) (if target = .fabric then addr.toNat else 0)) := by
  obtain ⟨path, dest, time⟩ := handoverWord_fields target addr ms
  have timed : fieldOf Reg.CTL_HANDOVER_TIMEOUT_MS (handoverWord target addr ms) ≠ 0 := by
    rw [time]
    exact fun z => h (BitVec.eq_of_toNat_eq z)
  have code : (pathCode target = 3) = (target = .fabric) := by cases target <;> simp [pathCode]
  have stored := handoverWrite_stored serves free (handoverWord target addr ms)
  refine congrArg Host.Outcome.next ((gateOwner_acts _ _ serves).trans ?_)
  unfold handoverWrite
  dsimp only
  rw [if_neg stored.2, if_neg timed, path, dest]
  simp only [code]
  rfl

theorem handoverWithdraw_eq : exec (.handoverWithdraw who) s = .next (endOffer (storeReg Reg.CTL_HANDOVER 0 s)) := by
  refine congrArg Host.Outcome.next ((gateOwner_acts _ _ serves).trans ?_)
  unfold handoverWrite
  dsimp only
  rw [if_neg (handoverWrite_stored serves free 0).2, if_pos (by decide)]

end

/-- A time-out of 0 is a withdrawal (R55). -/
theorem handoverOffer_zero (who : Who) (s : State) : exec (.handoverOffer who .firmware 0 0) s = exec (.handoverWithdraw who) s := by
  have zero : handoverWord .firmware 0 0 = 0 := by decide
  show Host.Outcome.next (gateOwner who Reg.CTL_HANDOVER (handoverWrite (handoverWord .firmware 0 0)) s) = _
  rw [zero]
  rfl

theorem offerExpiry_eq {s : State} (h : s.running = true) : exec .offerExpiry s = .next (endOffer s) := congrArg Host.Outcome.next (live_acts _ h)

end Sys2Proof.Machine

namespace Sys2Proof.Proofs
open Sys2Proof.Machine

/-- Settles O9: claims by their ranks, one write of CTL_OWNER by its word, hand-overs by the offer that the write leaves. -/
theorem ownershipMoves : Obligations.OwnershipMoves := by
  refine ⟨fun s who rival aw hw hr => ⟨?_, ?_, fun near => ?_, ?_, ?_⟩, fun s code addr hc ha h6 h7 => ?_,
    fun s who target addr ms serves free => ⟨fun timed => ?_, ?_, fun o => ?_, fun none => ?_⟩⟩
  · rw [claim_eq aw, claimsOp_alone, claimOp_path hw]
  · rw [claim_eq aw, claimsOp_two who hr]
  · rw [claim_eq aw, claimsOp_decided hw hr near]
  · exact confirm_eq aw who
  · exact release_eq aw who
  · obtain ⟨state, path, at_, offerPath, offerAddr, seq⟩ := ownerWord_fields s hc ha
    have field {f : Field} (o : f.off = Reg.CTL_OWNER) : (setOwner s code addr).get f = fieldOf f (ownerWord s code addr) := by
      rw [setOwner_outside h6 h7, State.get, o, ownerWritten_rd, fieldOf]
    refine ⟨(field rfl).trans state, (field rfl).trans path, (field rfl).trans at_, (field rfl).trans offerPath, (field rfl).trans offerAddr,
      ((field rfl).trans seq).trans ?_, fun same => ?_⟩
    · by_cases same : s.get Reg.CTL_OWNER_OWNER_PATH = code ∧ s.get Reg.CTL_OWNER_OWNER_ADDR = addr
      · rw [if_neg (by simp [ownerChanges, same]), if_pos same]
      · rw [if_pos (by simp only [ownerChanges, Bool.or_eq_true, decide_eq_true_eq]; tauto), if_neg same]
    · rw [setOwner_outside h6 h7, ownerWritten, if_neg (by simp [ownerChanges, same])]
      exact onlyRegs_wr (by simp) s _
  · obtain ⟨only, -⟩ := handoverWrite_stored serves free (handoverWord target addr ms)
    obtain ⟨state, path, at_⟩ := offered_fields (storeReg Reg.CTL_HANDOVER (handoverWord target addr ms) s) (state := 2) (path := pathCode target)
      (addr := if target = .fabric then addr.toNat else 0) (by decide) (by cases target <;> decide) (by split; exacts [addr.isLt, by decide])
    exact ⟨_, handoverOffer_eq serves free target addr timed, state, path, at_, (ownerStays_of_handover only).offered _ _ _⟩
  · obtain ⟨only, -⟩ := handoverWrite_stored serves free 0
    have withdraw := handoverWithdraw_eq serves free
    have kept : (storeReg Reg.CTL_HANDOVER 0 s).get Reg.CTL_OWNER_STATE = s.get Reg.CTL_OWNER_STATE := only.get _ (by decide)
    refine ⟨_, withdraw, (handoverOffer_zero who s).trans withdraw, ?_, fun o => ?_, endOffer_stays (ownerStays_of_handover only)⟩
    · split
      · next o => rw [endOffer_open (kept.trans o)]; exact (offered_fields _ (by decide) (by decide) (by decide)).1
      · next o => rw [endOffer_none (by rwa [kept]), kept]
    · rw [endOffer_open (kept.trans o)]
      exact (offered_fields _ (by decide) (by decide) (by decide)).2
  · obtain ⟨state, path, at_⟩ := offered_fields s (state := 1) (path := 0) (addr := 0) (by decide) (by decide) (by decide)
    refine ⟨_, (offerExpiry_eq serves.1.1).trans (congrArg Host.Outcome.next (endOffer_open o)), state, path, at_,
      (ownerStays_of_handover (OnlyRegs.refl _ _)).offered _ _ _⟩
  · rw [offerExpiry_eq serves.1.1, endOffer_none none]

end Sys2Proof.Proofs
end

section
/-! SUPPORT. A reset: what it clears and what it keeps (02 R92; 11 R419; 14 R523, R525; 16 R575). -/

namespace Sys2Proof.Machine

/-! ### Registers -/

theorem winOf_ctl {off : Nat} (h : winOf off = .ctl) : 0x10000 ≤ off ∧ off < 0x20000 := by
  unfold winOf at h
  by_cases low : off < 0x100000
  · rw [if_pos low] at h
    split at h
    case h_2 one => omega
    all_goals exact absurd h nofun
  · refine absurd h ?_
    rw [if_neg low]
    refine ite_ne ?_ ?_
    · split
      case h_3 => exact ite_ne nofun nofun
      all_goals exact nofun
    · repeat' refine ite_ne nofun ?_
      exact nofun

theorem keepsReg_aon (lost : Bool) {off : Nat} (h : winOf off = .aon) : keepsReg lost off = true := by simp [keepsReg, h]

theorem keepsReg_ctl (lost : Bool) {off : Nat} (h : winOf off = .ctl) : keepsReg lost off = false := by
  obtain ⟨-, high⟩ := winOf_ctl h
  have halt : ¬ Reg.MGD_HALT_REC ≤ off := by simp only [Reg.MGD_HALT_REC]; omega
  have ddr : ¬ off = Reg.MGD_DDR_STS := by simp only [Reg.MGD_DDR_STS]; omega
  simp [keepsReg, h, halt, ddr]

/-! ### The device in reset -/

/-- A device that applies no update loses none of it (R449). -/
theorem updCut_none {s : State} (h : s.updState ≠ 2) : updCut s = s := if_pos (.inl h)

/-- A register reads as before where the reset keeps it, and else by its map. -/
theorem enterReset_rd {s : State} (h : s.updState ≠ 2) (lost : Bool) (a : Nat) :
    (enterReset s lost).rd a = if keepsReg lost a then s.rd a else regReset a := by
  have regs : (enterReset s lost).regs = s.regs.filter (fun p => keepsReg lost p.1) := by
    unfold enterReset
    rw [updCut_none h]
  rw [State.rd, regs, mlook, mget_filter_key]
  split <;> rfl

/-- What every reset keeps, and what it sets back. -/
def ResetKeeps (s t : State) : Prop :=
  t.pending = s.pending ∧ (∀ a, winOf a = .aon → t.rd a = s.rd a) ∧ (∀ a, winOf a = .ctl → t.rd a = regReset a) ∧ t.locks = [] ∧
    t.cnt = resetCnt ∧ t.vlt.otp = s.vlt.otp ∧ t.vlt.bbs = s.vlt.bbs ∧ t.vlt.bank0 = s.vlt.bank0 ∧ t.vlt.bank1 = s.vlt.bank1 ∧
    t.ctl.scriptActive = false ∧ t.stage = 1

theorem enterReset_keeps {s : State} (h : s.updState ≠ 2) (lost : Bool) : ResetKeeps s (enterReset s lost) := by
  have ctl (a : Nat) (w : winOf a = .ctl) : (enterReset s lost).rd a = regReset a := by
    rw [enterReset_rd h, keepsReg_ctl lost w]
    rfl
  have aon (a : Nat) (w : winOf a = .aon) : (enterReset s lost).rd a = s.rd a := by
    rw [enterReset_rd h, keepsReg_aon lost w]
    rfl
  have boot : regReset Reg.CTL_BOOT = 0x11000000 := by decide +kernel
  have stage : (enterReset s lost).stage = 1 := by
    rw [State.stage, State.get, ctl _ (by decide), show regReset Reg.CTL_BOOT_STAGE.off = 0x11000000 from boot]
    decide
  unfold enterReset at aon ctl stage ⊢
  rw [updCut_none h] at aon ctl stage ⊢
  exact ⟨rfl, aon, ctl, rfl, rfl, rfl, rfl, rfl, rfl, rfl, stage⟩

/-- What stands beside the reset's own parts is no part of what it keeps. -/
theorem ResetKeeps.beside {s t u : State} (h : ResetKeeps s t) (p : u.pending = t.pending) (r : u.regs = t.regs) (l : u.locks = t.locks)
    (c : u.cnt = t.cnt) (v : u.vlt = t.vlt) (a : u.ctl.scriptActive = t.ctl.scriptActive) : ResetKeeps s u := by
  have rd (off : Nat) : u.rd off = t.rd off := by rw [State.rd, State.rd, r]
  obtain ⟨hp, aon, ctl, hl, hc, otp, bbs, b0, b1, script, stage⟩ := h
  have stage' : u.stage = t.stage := by simp only [State.stage, State.get, rd]
  exact ⟨p.trans hp, fun x w => (rd x).trans (aon x w), fun x w => (rd x).trans (ctl x w), l.trans hl, c.trans hc, by rw [v, otp],
    by rw [v, bbs], by rw [v, b0], by rw [v, b1], a.trans script, stage'.trans stage⟩

theorem enterReset_mgd {s : State} (h : s.updState ≠ 2) (lost : Bool) : (enterReset s lost).mgd = keptMemory s.mgd lost := by
  unfold enterReset
  rw [updCut_none h]

theorem enterReset_aon {s : State} (h : s.updState ≠ 2) (lost : Bool) : (enterReset s lost).aon = s.aon := by
  unfold enterReset
  rw [updCut_none h]

/-! ### The commands that reset -/

theorem resetAssertOp_resets {s : State} (h : s.ctl.cond ≠ .battery) : resetAssertOp s = enterReset s false := if_neg h

theorem resetAssertOp_battery {s : State} (h : s.ctl.cond = .battery) : resetAssertOp s = s := if_pos h

theorem lcSelfReset_resets {s : State} (run : s.running = true) (h : s.vlt.lcReset = true) : exec .lcSelfReset s = .next (enterReset s false) :=
  congrArg Host.Outcome.next ((live_acts _ run).trans (if_pos h))

theorem lcSelfReset_idle {s : State} (h : s.vlt.lcReset = false) : exec .lcSelfReset s = .next s := by
  have idle : lcResetOp s = s := if_neg (by simp [h])
  show Host.Outcome.next (live lcResetOp s) = _
  rw [live, idle, ite_self]

theorem railBelowOp_core {s : State} (h : s.ctl.cond ≠ .battery) : railBelowOp .core s = enterReset s true := if_neg h

theorem railBelowOp_aux {s : State} (h : s.ctl.cond ≠ .battery) : railBelowOp .aux s = toBattery s := if_neg h

theorem railBelowOp_battery {s : State} (h : s.ctl.cond = .battery) (r : Rail) : railBelowOp r s = s := if_pos h

theorem railBelowOp_other {s : State} (run : s.running = true) {r : Rail} (core : r ≠ .core) (aux : r ≠ .aux) : railBelowOp r s = railLow s r := by
  have main : s.ctl.cond ≠ .battery := by
    have cond : s.ctl.cond = .running := of_decide_eq_true run
    simp [cond]
  unfold railBelowOp
  rw [if_neg main]
  cases r with
  | core => exact absurd rfl core
  | aux => exact absurd rfl aux
  | sdA => exact live_acts _ run
  | sdH => exact live_acts _ run
  | ddr => exact live_acts _ run

end Sys2Proof.Machine

namespace Sys2Proof.Proofs
open Sys2Proof.Machine

/-- Settles O15: every reset is the one device in reset, beside which the always-on domain and the condition may differ. -/
theorem resetsDevice : Obligations.ResetsDevice := by
  intro s ball r upd
  have keeps := enterReset_keeps upd
  refine ⟨fun main => ⟨_, congrArg Host.Outcome.next (resetAssertOp_resets main), keeps false, rfl, ?_, ?_⟩,
    fun run due => ⟨_, lcSelfReset_resets run due, keeps false, rfl, ?_, ?_⟩, lcSelfReset_idle,
    ⟨powerOnOp s, rfl, (keeps true).beside rfl rfl rfl rfl rfl rfl, rfl, enterReset_mgd upd true, ?_⟩,
    fun main => ⟨_, congrArg Host.Outcome.next (railBelowOp_core main), keeps true, rfl, enterReset_mgd upd true⟩,
    fun main => ⟨_, congrArg Host.Outcome.next (railBelowOp_aux main), (keeps true).beside rfl rfl rfl rfl rfl rfl, rfl, enterReset_mgd upd true, ?_⟩,
    fun run core aux => congrArg Host.Outcome.next (railBelowOp_other run core aux),
    fun bat => ⟨congrArg Host.Outcome.next (resetAssertOp_battery bat), congrArg Host.Outcome.next (railBelowOp_battery bat r)⟩⟩
  · rw [enterReset_mgd upd]; rfl
  · rw [enterReset_mgd upd]; rfl
  · rw [enterReset_mgd upd]; rfl
  · rw [enterReset_mgd upd]; rfl
  · show { (enterReset s true).aon with onBattery := false } = _
    rw [enterReset_aon upd]
  · show { (enterReset s true).aon with onBattery := true } = _
    rw [enterReset_aon upd]

end Sys2Proof.Proofs
end

section
/-! SUPPORT. Counting and raising an event beside what the service port holds, which neither reads (15 R539 to R551). -/

namespace Sys2Proof.Machine

/-- The state with another copy of the service port's. -/
def withSvc (x : PathState) (s : State) : State := { s with ctl := { s.ctl with svc := x } }

/-- The fence that an alarm begins where none is under way (R493). -/
def fenceBegun (s : State) : State := if s.fab.fencing = false then { s with fab := { s.fab with fencing := true, fenceTo := .fenced } } else s

theorem fenceOnAlarm_eq (s : State) : fenceOnAlarm s =
    if s.flag Reg.FAB_PAIR_CFG_PAIRED = true ∧ s.fab.role = .active then fenceBegun (s.setFlag Reg.FAB_STS_YIELD true) else s := rfl

/-- A halt beyond its registers (R546). -/
def haltMark (r : LogRec) (s : State) : State :=
  { s with
    ctl := { s.ctl with cond := .halted }
    gaf := { s.gaf with trans := none, pend := none, sleepAsk := [] }
    evt := { s.evt with frozen := true, lastHalt := some r }
    mgd := { s.mgd with ret := { s.mgd.ret with poison := s.mgd.ret.poison || poisonCause r.id.toNat } } }

theorem haltNow_eq (s : State) (r : LogRec) : haltNow s r = haltMark r (lanesOff (s.setFlag Reg.CTL_BOOT_HEALTHY false)) := rfl

section
variable (x : PathState) (s : State)

theorem withSvc_ite {p : Prop} [Decidable p] {a b a' b' : State} (ha : a' = withSvc x a) (hb : b' = withSvc x b) :
    (if p then a' else b') = withSvc x (if p then a else b) := by
  split
  exacts [ha, hb]

@[simp] theorem withSvc_rd (a : Nat) : (withSvc x s).rd a = s.rd a := rfl
@[simp] theorem withSvc_get (f : Field) : (withSvc x s).get f = s.get f := rfl
@[simp] theorem withSvc_flag (f : Field) : (withSvc x s).flag f = s.flag f := rfl
@[simp] theorem withSvc_fab : (withSvc x s).fab = s.fab := rfl
@[simp] theorem withSvc_evt : (withSvc x s).evt = s.evt := rfl
@[simp] theorem withSvc_cnt : (withSvc x s).cnt = s.cnt := rfl
@[simp] theorem withSvc_clk : (withSvc x s).clk = s.clk := rfl
@[simp] theorem withSvc_ctr (a : Nat) : (withSvc x s).ctr a = s.ctr a := rfl
@[simp] theorem withSvc_wr (a : Nat) (v : Word) : (withSvc x s).wr a v = withSvc x (s.wr a v) := rfl
@[simp] theorem withSvc_set (f : Field) (v : Nat) : (withSvc x s).set f v = withSvc x (s.set f v) := rfl
@[simp] theorem withSvc_setFlag (f : Field) (b : Bool) : (withSvc x s).setFlag f b = withSvc x (s.setFlag f b) := rfl
@[simp] theorem withSvc_emit (o : Output) : (withSvc x s).emit o = withSvc x (s.emit o) := rfl

theorem withSvc_withEvt (e : Evt) : { withSvc x s with evt := e } = withSvc x { s with evt := e } := rfl

@[simp] theorem withSvc_wrs (ws : List Word) : ∀ (s : State) (off : Nat), (withSvc x s).wrs off ws = withSvc x (s.wrs off ws) := by
  induction ws with
  | nil => exact fun _ _ => rfl
  | cons w ws ih => exact fun s off => ih (s.wr off w) (off + 4)

theorem withSvc_sendMsix (v : Nat) : sendMsix (withSvc x s) v = withSvc x (sendMsix s v) := withSvc_ite x rfl rfl

theorem withSvc_setPend (id : Nat) : setPend (withSvc x s) id = withSvc x (setPend s id) := by
  simp only [setPend, withSvc_rd, withSvc_wr, withSvc_flag, withSvc_get]
  exact withSvc_ite x rfl (withSvc_ite x (withSvc_sendMsix x _ _) rfl)

theorem withSvc_fenceBegun : fenceBegun (withSvc x s) = withSvc x (fenceBegun s) := withSvc_ite x rfl rfl

theorem withSvc_fenceOnAlarm : fenceOnAlarm (withSvc x s) = withSvc x (fenceOnAlarm s) := by
  rw [fenceOnAlarm_eq, fenceOnAlarm_eq, withSvc_setFlag, withSvc_flag, withSvc_fab, withSvc_fenceBegun]
  exact withSvc_ite x rfl rfl

theorem withSvc_quiesceDevice : quiesceDevice (withSvc x s) = withSvc x (quiesceDevice s) := by
  unfold quiesceDevice
  rw [withSvc_setFlag, withSvc_fenceOnAlarm]

theorem withSvc_keysGone : keysGone (withSvc x s) = withSvc x (keysGone s) := rfl

theorem withSvc_zeroiseWorking : zeroiseWorking (withSvc x s) = withSvc x (zeroiseWorking s) := by
  have slots (t : State) : zeroSlotSts (withSvc x t) = withSvc x (zeroSlotSts t) := List.foldl_hom (withSvc x) (fun _ _ => rfl)
  rw [zeroiseWorking_eq, zeroiseWorking_eq]
  simp only [zeroStaging, withSvc_wrs, slots, withSvc_setFlag, withSvc_keysGone]

theorem withSvc_zeroiseVault : zeroiseVault (withSvc x s) = withSvc x (zeroiseVault s) := rfl

theorem withSvc_haltMark (r : LogRec) : haltMark r (withSvc x s) = withSvc x (haltMark r s) := rfl

theorem withSvc_haltNow (r : LogRec) : haltNow (withSvc x s) r = withSvc x (haltNow s r) := by
  have lanes (t : State) : lanesOff (withSvc x t) = withSvc x (lanesOff t) :=
    List.foldl_hom (withSvc x) (fun u b => by rw [withSvc_set, withSvc_set])
  rw [haltNow_eq, haltNow_eq, withSvc_setFlag, lanes, withSvc_haltMark]

theorem withSvc_quiescePort (k : Nat) : quiescePort (withSvc x s) k = withSvc x (quiescePort s k) := rfl

theorem withSvc_respond (rung id : Nat) (pair : Option Nat) (r : LogRec) :
    respond (withSvc x s) rung id pair r = withSvc x (respond s rung id pair r) := by
  have under (p : Prop) [Decidable p] (t u : State) : (if p then withSvc x t else withSvc x u) = withSvc x (if p then t else u) :=
    withSvc_ite x rfl rfl
  unfold respond
  cases pair <;> simp only [withSvc_setPend, under, withSvc_quiescePort, withSvc_quiesceDevice, withSvc_zeroiseWorking, withSvc_zeroiseVault,
    withSvc_haltNow]

theorem withSvc_bumpRaw (off n : Nat) : (withSvc x s).bumpRaw off n = withSvc x (s.bumpRaw off n) := withSvc_ite x rfl rfl

theorem withSvc_raiseOne (rung id a0 a1 : Nat) (pair : Option Nat) :
    raiseOne (withSvc x s) rung id a0 a1 pair = withSvc x (raiseOne s rung id a0 a1 pair) := by
  have pushed (r : LogRec) : pushLog (withSvc x s) r = withSvc x (pushLog s r) := withSvc_ite x rfl (withSvc_bumpRaw x s _ _)
  have stamp : logRec (withSvc x s) rung id a0 a1 = logRec s rung id a0 a1 := rfl
  simp only [raiseOne, withSvc_evt, stamp, pushed, withSvc_respond]
  exact withSvc_ite x rfl rfl

theorem withSvc_raise (id a0 a1 : Nat) (pair : Option Nat) : raise (withSvc x s) id a0 a1 pair = withSvc x (raise s id a0 a1 pair) := by
  have rung (t : State) (id : Nat) : rungOf (withSvc x t) id = rungOf t id := rfl
  simp only [raise, raiseAt, rung, withSvc_evt, withSvc_raiseOne, withSvc_withEvt]
  exact withSvc_ite x rfl rfl

theorem withSvc_inc (off : Nat) : (withSvc x s).inc off = withSvc x (s.inc off) := by
  unfold State.inc State.bump
  rw [withSvc_bumpRaw]
  generalize s.bumpRaw off 1 = t
  exact withSvc_ite x (withSvc_ite x (withSvc_raise x { t with cnt := { t.cnt with lastWrap := some s.clk } } _ _ _ _) rfl) rfl

end

end Sys2Proof.Machine
end

section
/-! SUPPORT. The service port and its I2C bus (02 R50 to R52; 16 R581). -/

namespace Sys2Proof.Machine

/-! ### What the service port holds -/

theorem noneWaits_svc {s : State} (h : NoneWaits s .svc) : s.ctl.svc.held = [] := h

/-- With none of its accesses waiting the port drops none. -/
theorem dropHeld_none {s : State} (h : s.ctl.svc.held = []) (form : Form) : dropHeld form s = s := by
  simp [dropHeld, h]

theorem heldRead_none {s : State} (h : s.ctl.svc.held = []) (form : Form) : s.heldRead form = false := by
  simp [State.heldRead, h]

/-- The port's read of an offset in a form. -/
def svcRead (form : Form) (off : Nat) : Held := { who := Who.service, form := form, off := off, write := none }

/-- The state in which that read alone waits. -/
def svcWaits (s : State) (form : Form) (off : Nat) : State := s.modPath .svc (fun x => { x with held := [svcRead form off] })

theorem svcWaits_eq (s : State) (form : Form) (off : Nat) : svcWaits s form off = withSvc { s.ctl.svc with held := [svcRead form off] } s := rfl

/-- A form's only access that waits is dropped, and none is left to serve. -/
theorem dropHeld_only {s : State} {x : PathState} {form : Form} {off : Nat} (h : x.held = [svcRead form off]) :
    dropHeld form (withSvc x s) = withSvc { x with held := [] } s := by
  have held : (withSvc x s).ctl.svc.held = [svcRead form off] := h
  have found : [svcRead form off].find? (fun a => decide (a.form = form)) = some (svcRead form off) := by simp [svcRead]
  have left : ((withSvc x s).modPath .svc (fun x => { x with held := x.held.erase (svcRead form off) })) = withSvc { x with held := [] } s := by
    show withSvc { x with held := x.held.erase (svcRead form off) } s = _
    rw [h, List.erase_cons_head]
  rw [dropHeld, held, found]
  dsimp only
  rw [left]
  rfl

theorem withSvc_self {s : State} {x : PathState} (h : s.ctl.svc = x) : withSvc x s = s := by
  subst h
  rfl

theorem SameWork.svc_eq {s t : State} (h : SameWork s t) : t.ctl.svc = s.ctl.svc := (congrArg (fun x => x.ctl.svc) h).trans rfl

/-- The read that waited is gone and counted, and nothing else differs from the state in which none waits. -/
theorem dropHeld_counted {s : State} (h : s.ctl.svc.held = []) (form : Form) (off : Nat) (bytes : List Byte) :
    dropHeld form (((svcWaits s form off).inc Reg.CTL_FAULT_SVC).emit (.svcBytes bytes)) = (s.inc Reg.CTL_FAULT_SVC).emit (.svcBytes bytes) := by
  rw [svcWaits_eq, withSvc_inc, withSvc_emit, dropHeld_only rfl]
  refine withSvc_self ?_
  have same : ((s.inc Reg.CTL_FAULT_SVC).emit (.svcBytes bytes)).ctl.svc = s.ctl.svc := (inc_work s _).svc_eq
  rw [same, ← h]

theorem svcTimeoutOp_waits {s : State} (h : s.ctl.svc.held = []) (spi : Bool) (off : Nat) :
    svcTimeoutOp spi (svcWaits s (if spi then .spi else .i2c) off) = (s.inc Reg.CTL_FAULT_SVC).emit (.svcBytes (noData spi)) := by
  have held : (svcWaits s (if spi then .spi else .i2c) off).heldRead (if spi then .spi else .i2c) = true := by
    simp [State.heldRead, svcWaits, State.modPath, svcRead]
  unfold svcTimeoutOp
  rw [if_pos held, dropHeld_counted h]

theorem svcTimeoutOp_none {s : State} (h : s.ctl.svc.held = []) (spi : Bool) : svcTimeoutOp spi s = s :=
  if_neg (by simp [heldRead_none h])

/-! ### Transactions -/

/-- An access that stalls, with none before it, waits; an SPI read answers 0xFF meanwhile. -/
theorem arrive_waits {s : State} (h : s.ctl.svc.held = []) {form : Form} {off : Nat} (k : s.stallsAt off = true) :
    arrive (svcRead form off) s =
      if form = .spi then (svcWaits s form off).emit (.svcBytes [0xFF]) else svcWaits s form off := by
  have joined : s.modPath .svc (fun x => { x with held := x.held ++ [svcRead form off] }) = svcWaits s form off := by
    show withSvc { s.ctl.svc with held := s.ctl.svc.held ++ [svcRead form off] } s = _
    rw [h]
    rfl
  have stalls : (svcWaits s form off).stallsAt (svcRead form off).off = true := k
  have path : (svcWaits s form off).path .svc = { s.ctl.svc with held := [svcRead form off] } := rfl
  have stuck : serveHeld .svc (svcWaits s form off) = svcWaits s form off := by
    rw [serveHeld, path]
    show serveSome .svc 1 _ = _
    rw [serveSome, path]
    dsimp only
    rw [if_pos stalls]
  have now : ¬ ((s.path (svcRead form off).who.path).held = [] ∧ s.stallsAt (svcRead form off).off = false) := fun now => by
    have no : s.stallsAt off = false := now.2
    simp [k] at no
  rw [arrive, if_neg now]
  dsimp only
  rw [show (svcRead form off).who.path = Path.svc from rfl, joined, stuck, path]
  simp [svcRead]

section
variable {s : State} (run : s.running = true) {off : Word} (low : off.toNat < 0x1000000)
include run

theorem spiWrite_eq (data : Word) : exec (.spiTransaction 0x02 off data) s =
    .next (arrive { who := Who.service, form := .spi, off := off.toNat, write := some data } s) := by
  show Host.Outcome.next (spiOp 0x02 off data s) = _
  simp [spiOp, answers_running run]

theorem i2cWrite_eq (data : Word) : exec (.i2cTransaction true off data) s =
    .next (arrive { who := Who.service, form := .i2c, off := off.toNat, write := some data } s) := by
  show Host.Outcome.next (i2cOp true off data s) = _
  simp [i2cOp, answers_running run]

include low

theorem spiRead_eq (data : Word) : exec (.spiTransaction 0x0B off data) s = .next (arrive (svcRead .spi off.toNat) s) := by
  have own : ¬ (0x1000000 ≤ off.toNat ∧ off.toNat < 0x2000000 ∧ off.toNat % 4 = 0) := by omega
  show Host.Outcome.next (spiOp 0x0B off data s) = _
  simp only [spiOp, answers_running run, own, if_false]
  rfl

theorem i2cRead_eq (data : Word) : exec (.i2cTransaction false off data) s = .next (arrive (svcRead .i2c off.toNat) s) := by
  have own : ¬ (0x1000000 ≤ off.toNat ∧ off.toNat < 0x2000000 ∧ off.toNat % 4 = 0) := by omega
  show Host.Outcome.next (i2cOp false off data s) = _
  simp only [i2cOp, answers_running run, own, if_false]
  rfl

end

end Sys2Proof.Machine

namespace Sys2Proof.Proofs
open Sys2Proof.Machine

/-- Settles O7: an access is served at once, or is the one that waits; a timeout drops that one, and counting does not read it. -/
theorem servicePort : Obligations.ServicePort := by
  refine ⟨fun s off data run low al => ⟨fun w k => ?_, fun w k => ?_, fun w => ?_⟩, fun s run w => ?_⟩
  · have reach : (BitVec.ofNat 28 off.toNat).toNat = off.toNat := by
      rw [BitVec.toNat_ofNat]
      omega
    have write : exec (.regWrite Who.service (BitVec.ofNat 28 off.toNat) data) s = .next (pathWrite Who.service off.toNat data s) := by
      rw [regWrite_now data w (by rw [reach]; exact k) (.inr (by rw [reach]; exact low)), reach]
    refine ⟨?_, ?_, ?_, ?_⟩
    · rw [write, spiWrite_eq run, arrive_now w k]
      rfl
    · rw [write, i2cWrite_eq run, arrive_now w k]
      rfl
    · rw [spiRead_eq run low, arrive_now w k]
      rfl
    · rw [i2cRead_eq run low, arrive_now w k]
      rfl
  · have held := noneWaits_svc w
    constructor
    · rw [spiRead_eq run low, arrive_waits held k, if_pos rfl]
      rfl
    · rw [i2cRead_eq run low, arrive_waits held k, if_neg nofun]
      rfl
  · have held := noneWaits_svc w
    exact ⟨congrArg Host.Outcome.next (svcTimeoutOp_waits held true off.toNat), congrArg Host.Outcome.next (svcTimeoutOp_waits held false off.toNat),
      congrArg Host.Outcome.next (svcTimeoutOp_none held true), congrArg Host.Outcome.next (svcTimeoutOp_none held false)⟩
  · have held := noneWaits_svc w
    have ans := answers_running run
    have sda (still : Bool) : exec (.i2cSdaStuck still) s = .next (sdaStuckOp still s) := rfl
    have scl (reading : Bool) : exec (.i2cSclStuck reading) s = .next (sclStuckOp reading s) := rfl
    simp only [sda, scl, sdaStuckOp, sclStuckOp, ans, dropHeld_none held, noData]
    exact ⟨rfl, rfl, rfl, rfl⟩

end Sys2Proof.Proofs
end

section
/-! SUPPORT. The remote aperture of the PCIe host (02 R49; 13 R481, R482). -/

namespace Sys2Proof.Machine

/-- The host's read of the aperture under the next TAG, at the device that CTL_REMOTE_SEL names. -/
def hostRead (s : State) (x : Nat) : RemoteReq :=
  { dst := fieldOf Reg.CTL_REMOTE_SEL_ADDR s.ctl.pcie.remoteSel, tag := s.ctl.nextTag, off := x, write := false, data := 0 }

/-- The state in which that read alone is outstanding. -/
def hostReading (s : State) (x : Nat) : State :=
  (s.modCtl (fun c => { c with nextTag := (c.nextTag + 1) % 2 ^ 24 })).modPath .pcie (fun y => { y with remote := [hostRead s x] })

theorem hostReading_remote (s : State) (x : Nat) : ((hostReading s x).path .pcie).remote = [hostRead s x] := rfl

theorem sendRequest_first {s : State} {p : Path} {r : RemoteReq} {rest : List RemoteReq} (h : (s.path p).remote = r :: rest) :
    sendRequest s p = sendCell s cellRegReq r.dst (requestBytes r) := by rw [sendRequest, h]

theorem sendRequest_none {s : State} {p : Path} (h : (s.path p).remote = []) : sendRequest s p = s := by rw [sendRequest, h]

/-- With no other outstanding, the read joins as the first and is sent. -/
theorem addRequest_first {s : State} (h : s.ctl.pcie.remote = []) (x : Nat) :
    addRequest s .pcie x false 0 = sendCell (hostReading s x) cellRegReq (hostRead s x).dst (requestBytes (hostRead s x)) := by
  have remote : (s.path .pcie).remote = [] := h
  have joined : (s.modCtl (fun c => { c with nextTag := (c.nextTag + 1) % 2 ^ 24 })).modPath .pcie (fun y => { y with
      remote := y.remote ++ [hostRead s x] }) = hostReading s x := by
    simp only [State.modPath, State.modCtl, hostReading, h]
    rfl
  unfold addRequest
  rw [remote]
  show sendRequest ((s.modCtl _).modPath .pcie (fun y => { y with remote := y.remote ++ [hostRead s x] })) .pcie = _
  rw [joined, sendRequest_first (hostReading_remote s x)]

theorem apertureOp_read {s : State} (h : Awake s) {x : Nat} (al : x % 4 = 0) (data : Word) :
    apertureOp Who.host x false data s = addRequest s .pcie x false 0 := by
  have serves : ¬ (s.running = false ∨ s.dormant = true ∨ Who.host.path ≠ .pcie) := by
    rw [h.1, h.2]
    decide
  rw [apertureOp, if_neg serves, if_neg (by omega)]
  rfl

theorem SameWork.pcie_eq {s t : State} (h : SameWork s t) : t.ctl.pcie = s.ctl.pcie := (congrArg (fun x => x.ctl.pcie) h).trans rfl

/-- A request that has waited for 50 µs counts and sets ERR, and its read answers 0 (R482). -/
theorem remoteTimeoutOp_ends {s : State} {r : RemoteReq} (h : (s.path .pcie).remote = [r]) (read : r.write = false) :
    remoteTimeoutOp .pcie s = ((((s.inc Reg.FAB_REG_TIMEOUT).modPath .pcie (fun y => { y with
      remoteSel := y.remoteSel ||| 0x80000000#32 })).modPath .pcie (fun y => { y with remote := [] })).emit (.readData .pcie 0)) := by
  have counted : (((s.inc Reg.FAB_REG_TIMEOUT).modPath .pcie (fun y => { y with remoteSel := y.remoteSel ||| 0x80000000#32 })).path .pcie).remote = [r] := by
    rw [State.path_modPath]
    show (s.inc Reg.FAB_REG_TIMEOUT).ctl.pcie.remote = [r]
    rw [(inc_work s _).pcie_eq]
    exact h
  have waiting : (s.path .pcie).remote ≠ [] := by simp [h]
  rw [remoteTimeoutOp, if_neg waiting]
  dsimp only
  rw [endRequest, counted]
  dsimp only
  rw [read, if_neg nofun]
  exact sendRequest_none rfl

end Sys2Proof.Machine

namespace Sys2Proof.Proofs
open Sys2Proof.Machine

/-- Settles O8: the read joins an empty queue, whose first request is sent, sent again, or ended. -/
theorem remoteAperture : Obligations.RemoteAperture := by
  intro s x data aw al none
  have run : (hostReading s x.toNat).running = true := aw.1
  have first := hostReading_remote s x.toNat
  refine ⟨?_, ?_, ?_⟩
  · exact congrArg Host.Outcome.next ((apertureOp_read aw al data).trans (addRequest_first none x.toNat))
  · exact congrArg Host.Outcome.next ((live_acts _ run).trans (sendRequest_first first))
  · exact congrArg Host.Outcome.next ((live_acts _ run).trans (remoteTimeoutOp_ends first rfl))

end Sys2Proof.Proofs
end

section
/-! SUPPORT. The loader: staging, the end of VERIFY, APPLY and its end (02 R60 to R62, R71, R74 to R78). -/

namespace Sys2Proof.Machine

/-! ### Fields of CTL_LOAD_STATUS -/

/-- Another field of the register that is written. -/
theorem State.get_set_beside (s : State) {g f : Field} (h : g.lo ≤ g.hi ∧ g.hi < 32 ∧ f.off = g.off ∧ (g.hi < f.lo ∨ f.hi < g.lo)) (v : Nat) :
    (s.set g v).get f = s.get f := s.get_set_apart g f v h.1 h.2.1 h.2.2.1 h.2.2.2

/-- A field above all the bits of a small number reads 0. -/
theorem bits_w32_above {n hi lo : Nat} (h : n < 2 ^ lo) (small : lo < 32) : bits (w32 n) hi lo = 0 := by
  have whole : n < 2 ^ 32 := lt_of_lt_of_le h (Nat.pow_le_pow_right (by decide) (by omega))
  rw [bits, w32, BitVec.toNat_ofNat, Nat.mod_eq_of_lt whole, Nat.div_eq_of_lt h, Nat.zero_mod]

/-- A field at the foot of a word reads as a number that fits it. -/
theorem bits_w32_low {n hi : Nat} (h : n < 2 ^ (hi + 1)) (small : hi < 32) : bits (w32 n) hi 0 = n := by
  have whole : n < 2 ^ 32 := lt_of_lt_of_le h (Nat.pow_le_pow_right (by decide) (by omega))
  rw [bits, w32, BitVec.toNat_ofNat, Nat.mod_eq_of_lt whole, pow_zero, Nat.div_one, Nat.sub_zero, Nat.mod_eq_of_lt h]

theorem loadResult_lt (s : State) : s.get Reg.CTL_LOAD_STATUS_RESULT < 65536 := bits_lt _ _ _

/-- The loader in IDLE shows its result alone (R75 to R77). -/
theorem loaderIdle_fields (s : State) {result : Nat} (h : result < 65536) : (loaderIdle s result).loadState = 0 ∧
    (loaderIdle s result).get Reg.CTL_LOAD_STATUS_HOLDER = 0 ∧ (loaderIdle s result).get Reg.CTL_LOAD_STATUS_RESULT = result := by
  have word (f : Field) (o : f.off = Reg.CTL_LOAD_STATUS) : (loaderIdle s result).get f = bits (w32 result) f.hi f.lo := by
    rw [loaderIdle, State.modCtl_get, ← o, State.get_wr]
  refine ⟨(word _ rfl).trans (bits_w32_above ?_ (by decide)), (word _ rfl).trans (bits_w32_above ?_ (by decide)),
    (word _ rfl).trans (bits_w32_low h (by decide))⟩
  · exact lt_trans h (by decide)
  · exact lt_trans h (by decide)

theorem loaderIdle_onlyRegs (s : State) (result : Nat) :
    OnlyRegs [Reg.CTL_LOAD_STATUS] { s with ctl := (loaderIdle s result).ctl } (loaderIdle s result) :=
  ⟨rfl, fun _ ha => s.rd_wr_ne _ (mt List.mem_singleton.2 ha)⟩

/-- VERIFY or APPLY has ended with a state and a result (R75). -/
theorem loadEnd_fields (s : State) {st code : Nat} (hs : st < 8) (hc : code < 65536) : (loadEnd s st code).loadState = st ∧
    (loadEnd s st code).get Reg.CTL_LOAD_STATUS_RESULT = code ∧ (loadEnd s st code).get Reg.CTL_LOAD_STATUS_BUSY = 0 := by
  refine ⟨?_, State.get_set_lt _ _ (by decide) (by decide) hc, ?_⟩
  · rw [State.loadState, loadEnd, State.get_set_beside _ (by decide), State.get_set_beside _ (by decide), State.get_set_lt _ _ (by decide) (by decide) hs]
  · rw [loadEnd, State.get_set_beside _ (by decide), State.get_set_lt _ _ (by decide) (by decide) (by decide)]

theorem loadEnd_kind (s : State) (st code : Nat) : (loadEnd s st code).loadKind = s.loadKind := by
  rw [State.loadKind, loadEnd, State.get_set_beside _ (by decide), State.get_set_beside _ (by decide), State.get_set_beside _ (by decide), State.loadKind]

theorem loadEnd_onlyRegs (s : State) (st code : Nat) : OnlyRegs [Reg.CTL_LOAD_STATUS] s (loadEnd s st code) :=
  (((OnlyRegs.refl _ s).set (by decide) _).set (by decide) _).set (by decide) _

/-- A state of the loader with BUSY, its kind kept. -/
theorem loadBusy_fields (s : State) {st : Nat} (h : st < 8) :
    ((s.set Reg.CTL_LOAD_STATUS_STATE st).set Reg.CTL_LOAD_STATUS_BUSY 1).loadState = st ∧
    ((s.set Reg.CTL_LOAD_STATUS_STATE st).set Reg.CTL_LOAD_STATUS_BUSY 1).get Reg.CTL_LOAD_STATUS_BUSY = 1 ∧
    ((s.set Reg.CTL_LOAD_STATUS_STATE st).set Reg.CTL_LOAD_STATUS_BUSY 1).loadKind = s.loadKind := by
  refine ⟨?_, State.get_set_lt _ _ (by decide) (by decide) (by decide), ?_⟩
  · rw [State.loadState, State.get_set_beside _ (by decide), State.get_set_lt _ _ (by decide) (by decide) h]
  · rw [State.loadKind, State.get_set_beside _ (by decide), State.get_set_beside _ (by decide), State.loadKind]

/-! ### The loader's commands pass on an awake device (R53, R74) -/

theorem loader_acts {s : State} (h : Awake s) (who : Who) (off : Nat) (op : State → State) : gate who .loader off op s = op s :=
  gate_acts _ _ h (by simp [State.mayWrite])

theorem loadOpen_eq {s : State} (h : Awake s) (who : Who) (kind : BitVec 4) (len : BitVec 24) :
    exec (.loadOpen who kind len) s = .next (loadOpenOp who kind.toNat len.toNat s) := congrArg Host.Outcome.next (loader_acts h _ _ _)

theorem loadData_eq {s : State} (h : Awake s) (who : Who) (data : Word) : exec (.loadData who data) s = .next (loadDataOp who data s) :=
  congrArg Host.Outcome.next (loader_acts h _ _ _)

theorem loadVerify_eq {s : State} (h : Awake s) (who : Who) : exec (.loadVerify who) s = .next (loadVerifyOp who s) :=
  congrArg Host.Outcome.next (loader_acts h _ _ _)

theorem loadApply_eq {s : State} (h : Awake s) (who : Who) : exec (.loadApply who) s = .next (loadApplyOp who s) :=
  congrArg Host.Outcome.next (loader_acts h _ _ _)

theorem loadClose_eq {s : State} (h : Awake s) (who : Who) : exec (.loadClose who) s = .next (loadCloseOp who s) :=
  congrArg Host.Outcome.next (loader_acts h _ _ _)

/-! ### Staging (R74 to R77) -/

/-- The word that OPEN leaves in CTL_LOAD_STATUS. -/
def openWord (code kind result : Nat) : Word := word [(Reg.CTL_LOAD_STATUS_STATE, 1), (Reg.CTL_LOAD_STATUS_HOLDER, code),
  (Reg.CTL_LOAD_STATUS_KIND, kind), (Reg.CTL_LOAD_STATUS_RESULT, result)]

theorem openWord_fields {code kind result : Nat} (hc : code < 4) (hk : kind < 16) (hr : result < 65536) :
    fieldOf Reg.CTL_LOAD_STATUS_STATE (openWord code kind result) = 1 ∧ fieldOf Reg.CTL_LOAD_STATUS_BUSY (openWord code kind result) = 0 ∧
    fieldOf Reg.CTL_LOAD_STATUS_HOLDER (openWord code kind result) = code ∧
    fieldOf Reg.CTL_LOAD_STATUS_KIND (openWord code kind result) = kind ∧
    fieldOf Reg.CTL_LOAD_STATUS_RESULT (openWord code kind result) = result :=
  ⟨fieldOf_word_at [] rfl (by decide) (by decide) (by decide), fieldOf_word_zero rfl, fieldOf_word_at [_] rfl (by decide) (by decide) hc,
    fieldOf_word_at [_, _] rfl (by decide) (by decide) hk, fieldOf_word_at [_, _, _] rfl (by decide) (by decide) hr⟩

theorem pathCode_lt (p : Path) : pathCode p < 4 := by cases p <;> decide

/-- A register write and a change of the control unit's own record, in either order. -/
theorem State.wr_modCtl (s : State) (off : Nat) (v : Word) (f : Ctl → Ctl) :
    (s.wr off v).modCtl f = ({ s with ctl := f s.ctl } : State).wr off v := rfl

/-- OPEN as one word of CTL_LOAD_STATUS and the loader's own record (R74). -/
theorem loadOpenOp_eq {s : State} {who : Who} {kind len : Nat}
    (h : (s.loadState = 0 ∨ s.loadState = 5 ∨ s.loadState = 6) ∧ s.mayOpen who kind = true ∧ pathCode who.path ≠ 0 ∧ len % 4 = 0) :
    loadOpenOp who kind len s = ({ s with ctl := { s.ctl with holderAddr := who.addr, image := [], imageLen := len } } : State).wr
      Reg.CTL_LOAD_STATUS (openWord (pathCode who.path) kind (s.get Reg.CTL_LOAD_STATUS_RESULT)) := by
  exact (if_pos h).trans (State.wr_modCtl _ _ _ _)

theorem loadOpenOp_opens {s : State} {who : Who} {kind len : Nat} (hk : kind < 16)
    (h : (s.loadState = 0 ∨ s.loadState = 5 ∨ s.loadState = 6) ∧ s.mayOpen who kind = true ∧ pathCode who.path ≠ 0 ∧ len % 4 = 0)
    {t : State} (e : t = loadOpenOp who kind len s) : t.loadState = 1 ∧ t.get Reg.CTL_LOAD_STATUS_BUSY = 0 ∧
      t.get Reg.CTL_LOAD_STATUS_HOLDER = pathCode who.path ∧ t.loadKind = kind ∧
      t.get Reg.CTL_LOAD_STATUS_RESULT = s.get Reg.CTL_LOAD_STATUS_RESULT ∧
      OnlyRegs [Reg.CTL_LOAD_STATUS] { s with ctl := { s.ctl with holderAddr := who.addr, image := [], imageLen := len } } t := by
  obtain ⟨state, busy, holder, kindIs, result⟩ := openWord_fields (pathCode_lt who.path) hk (loadResult_lt s)
  rw [loadOpenOp_eq h] at e
  have field (f : Field) (o : f.off = Reg.CTL_LOAD_STATUS) :
      t.get f = fieldOf f (openWord (pathCode who.path) kind (s.get Reg.CTL_LOAD_STATUS_RESULT)) := by
    rw [e, ← o, State.get_wr, fieldOf]
  exact ⟨(field _ rfl).trans state, (field _ rfl).trans busy, (field _ rfl).trans holder, (field _ rfl).trans kindIs,
    (field _ rfl).trans result, e ▸ (OnlyRegs.refl _ _).wr (by decide) _⟩

theorem loadDataOp_stages {s : State} {who : Who} (h : s.loadState = 1) (k : s.holds who = true) (data : Word) : loadDataOp who data s =
    (if 4 * s.get Reg.CTL_LOAD_ADDR_WORD < s.ctl.imageLen then stageWord s (s.get Reg.CTL_LOAD_ADDR_WORD) data else s).set
      Reg.CTL_LOAD_ADDR_WORD (s.get Reg.CTL_LOAD_ADDR_WORD + 1) := if_pos ⟨h, k⟩

theorem stageWord_sram {s : State} (h : s.loadKind ≠ 1) (i : Nat) (data : Word) :
    stageWord s i data = s.modCtl (fun c => { c with image := mstore 0 i data c.image }) := if_neg h

theorem stageWord_memory {s : State} (h : s.loadKind = 1) (k : s.served 0 = true) (i : Nat) (data : Word) :
    stageWord s i data = writePart s (s.rgnBase 0 * unitLines + i / 16) (4 * (i % 16)) (wordBytes [data]) := (if_pos h).trans (if_pos k)

theorem stageWord_unserved {s : State} (h : s.loadKind = 1) (k : s.served 0 = false) (i : Nat) (data : Word) : stageWord s i data = s :=
  (if_pos h).trans (if_neg (by simp [k]))

theorem loadVerifyOp_verifies {s : State} {who : Who} (h : s.loadState = 1) (k : s.holds who = true) : loadVerifyOp who s =
    ((takeFirst s .signature (signatureVerdict s (imageBytes s))).set Reg.CTL_LOAD_STATUS_STATE 2).set Reg.CTL_LOAD_STATUS_BUSY 1 :=
  if_pos ⟨h, k⟩

theorem loadCloseOp_closes {s : State} {who : Who} (h : s.loadState ≠ 4) (k : s.holds who = true) : loadCloseOp who s =
    loaderIdle s (if s.loadState = 2 then 13 else s.get Reg.CTL_LOAD_STATUS_RESULT) := if_pos ⟨k, h⟩

/-! ### Commands that the loader refuses (R75) -/

section
variable {s : State} {who : Who} (data : Word)

theorem loadDataOp_refuses (h : s.loadState ≠ 1 ∨ s.holds who = false) : loadDataOp who data s = s.inc Reg.CTL_FAULT_OWNER :=
  if_neg (fun ⟨o, k⟩ => h.elim (· o) (by simp [k]))

theorem loadVerifyOp_refuses (h : s.loadState ≠ 1 ∨ s.holds who = false) : loadVerifyOp who s = s.inc Reg.CTL_FAULT_OWNER :=
  if_neg (fun ⟨o, k⟩ => h.elim (· o) (by simp [k]))

theorem loadApplyOp_refuses (h : s.loadState ≠ 3 ∨ s.holds who = false) : loadApplyOp who s = s.inc Reg.CTL_FAULT_OWNER :=
  if_neg (fun ⟨o, k⟩ => h.elim (· o) (by simp [k]))

theorem loadCloseOp_refuses (h : s.loadState = 4 ∨ s.holds who = false) : loadCloseOp who s = s.inc Reg.CTL_FAULT_OWNER :=
  if_neg (fun ⟨k, o⟩ => h.elim o (by simp [k]))

end

end Sys2Proof.Machine

namespace Sys2Proof.Proofs
open Sys2Proof.Machine

/-- Settles O10: each command by what the loader's state and its holder make of it. -/
theorem loaderStages : Obligations.LoaderStages := by
  intro s who kind len data aw
  refine ⟨fun opens => ⟨_, loadOpen_eq aw who kind len, loadOpenOp_opens kind.isLt opens rfl⟩, fun no => ?_,
    fun opened holds => ⟨fun room sram => ?_, fun room firm served => ?_, fun full => ?_, ?_⟩, fun idle holds => ?_,
    fun no => ⟨?_, ?_, ?_, ?_⟩, fun no => ⟨?_, ?_⟩, fun no => ?_, fun applying => ?_, fun waits => ?_, fun no no' => ?_⟩
  · exact (loadOpen_eq aw who kind len).trans (congrArg Host.Outcome.next (if_neg no))
  · rw [loadData_eq aw, loadDataOp_stages opened holds, if_pos room, stageWord_sram sram]
  · rw [loadData_eq aw, loadDataOp_stages opened holds, if_pos room, stageWord_memory firm served]
  · rw [loadData_eq aw, loadDataOp_stages opened holds]
    rcases full with beyond | ⟨firm, unserved⟩
    · rw [if_neg (by omega)]
    · rw [stageWord_unserved firm unserved, ite_self]
  · obtain ⟨state, busy, -⟩ := loadBusy_fields (takeFirst s .signature (signatureVerdict s (imageBytes s))) (st := 2) (by decide)
    exact ⟨_, (loadVerify_eq aw who).trans (congrArg Host.Outcome.next (loadVerifyOp_verifies opened holds)), state, busy,
      ((OnlyRegs.refl _ _).set (by decide) _).set (by decide) _⟩
  · obtain ⟨state, holder, result⟩ := loaderIdle_fields s (result := if s.loadState = 2 then 13 else s.get Reg.CTL_LOAD_STATUS_RESULT)
      (by split; exacts [by decide, loadResult_lt s])
    exact ⟨_, (loadClose_eq aw who).trans (congrArg Host.Outcome.next (loadCloseOp_closes idle holds)), state, holder, result,
      loaderIdle_onlyRegs s _, rfl⟩
  · exact (loadData_eq aw who data).trans (congrArg Host.Outcome.next (loadDataOp_refuses data (.inr no)))
  · exact (loadVerify_eq aw who).trans (congrArg Host.Outcome.next (loadVerifyOp_refuses (.inr no)))
  · exact (loadApply_eq aw who).trans (congrArg Host.Outcome.next (loadApplyOp_refuses (.inr no)))
  · exact (loadClose_eq aw who).trans (congrArg Host.Outcome.next (loadCloseOp_refuses (.inr no)))
  · exact (loadData_eq aw who data).trans (congrArg Host.Outcome.next (loadDataOp_refuses data (.inl no)))
  · exact (loadVerify_eq aw who).trans (congrArg Host.Outcome.next (loadVerifyOp_refuses (.inl no)))
  · exact (loadApply_eq aw who).trans (congrArg Host.Outcome.next (loadApplyOp_refuses (.inl no)))
  · exact (loadClose_eq aw who).trans (congrArg Host.Outcome.next (loadCloseOp_refuses (.inl applying)))
  · exact congrArg Host.Outcome.next ((live_acts _ aw.1).trans (if_pos waits))
  · exact congrArg Host.Outcome.next ((live_acts _ aw.1).trans (if_neg (not_or.2 ⟨no, no'⟩)))

end Sys2Proof.Proofs
end

section
/-! SUPPORT. The end of VERIFY, APPLY and its end (02 R60, R62, R71, R75 to R78). -/

namespace Sys2Proof.Machine

/-! ### What VERIFY_DONE keeps of CTL_LOAD_STATUS -/

theorem bump_rd (s : State) (off n : Nat) {a : Nat} (h : a ∉ eventRegs 0x8001) : (s.bump off n).rd a = s.rd a := by
  have marked (u : State) (m : Option Nat) : ({ u with cnt := { u.cnt with lastWrap := m } } : State).rd a = u.rd a := rfl
  have counted : ({ s.bumpRaw off n with cnt := { (s.bumpRaw off n).cnt with lastWrap := some s.clk } } : State).rd a = s.rd a :=
    (marked _ _).trans (rd_bumpRaw _ _ _ _)
  exact rd_ite (rd_ite ((raise0_rd _ _ _ h).trans counted) counted) (rd_bumpRaw _ _ _ _)

theorem inc_rd (s : State) (off : Nat) {a : Nat} (h : a ∉ eventRegs 0x8001) : (s.inc off).rd a = s.rd a := bump_rd s off 1 h

/-- A value of the DRBG is counted at most (R432). -/
theorem drbg_rd (s : State) {a : Nat} (h : a ∉ eventRegs 0x8001) : s.drbg.2.rd a = s.rd a := by
  have drawn (n : Nat) : ({ s.draw.2 with vlt := { s.vlt with requests := n } } : State).rd a = s.rd a := rfl
  have counted : s.drbg.2 = if s.vlt.requests + 1 < 2 ^ 20 then { s.draw.2 with vlt := { s.vlt with requests := s.vlt.requests + 1 } }
      else ({ s.draw.2 with vlt := { s.vlt with requests := 0 } } : State).inc Reg.VLT_DRBG_RESEEDS := apply_ite Prod.snd _ _ _
  rw [counted]
  exact rd_ite (drawn _) ((inc_rd _ _ h).trans (drawn _))

theorem newChallenge_rd (s : State) {a : Nat} (h : a ∉ eventRegs 0x8001) (k : ∀ i < 4, a ≠ Reg.CTL_ARB_CHALLENGE 0 + 4 * i) :
    (newChallenge s).rd a = s.rd a := by
  refine Eq.trans (rd_wrs_ne _ _ fun i hi => k i ?_) (drbg_rd s h)
  rwa [bytesWords, List.length_map, List.length_range] at hi

theorem newChallenge_loadKind (s : State) : (newChallenge s).loadKind = s.loadKind :=
  congrArg (fun w => bits w Reg.CTL_LOAD_STATUS_KIND.hi Reg.CTL_LOAD_STATUS_KIND.lo)
    (newChallenge_rd s (a := Reg.CTL_LOAD_STATUS) (by decide +kernel) (by decide))

theorem disagree_loadKind (s : State) : (raise0 s 0x0101 0).loadKind = s.loadKind :=
  congrArg (fun w => bits w Reg.CTL_LOAD_STATUS_KIND.hi Reg.CTL_LOAD_STATUS_KIND.lo) (raise0_rd s 0x0101 0 (by decide +kernel))

theorem dropTaking_loadKind (s : State) (d : Decision) : (dropTaking s d).loadKind = s.loadKind := rfl

/-! ### The end of VERIFY (R60, R78) -/

/-- A verified image: firmware may start from now on (R89). -/
def markVerified (s : State) (b : List Byte) : State :=
  if s.loadKind = 1 then s.modCtl (fun c => { c with fwVerified := true, fwDigest := sha384 b }) else s

theorem markVerified_eq (s : State) (b : List Byte) : markVerified s b = { s with ctl := (markVerified s b).ctl } := by
  unfold markVerified
  split <;> rfl

theorem markVerified_base (s : State) (b : List Byte) : markVerified (dropTaking s .signature) b =
    { s with ctl := (markVerified (dropTaking s .signature) b).ctl } := markVerified_eq _ b

theorem markVerified_other {s : State} (h : s.loadKind ≠ 1) (b : List Byte) : markVerified s b = s := if_neg h

/-- The verdict as VERIFY_DONE has raised and answered it: disputed takings and the fresh challenge of a decision. -/
def verdictNoted (s : State) (code : Nat) : State :=
  let s := dropTaking s .signature
  let s := if code = 6 then raise0 s 0x0101 0 else s
  if s.loadKind = 4 then newChallenge s else s

theorem verifyDoneOp_eq (s : State) : verifyDoneOp s = if s.loadState ≠ 2 then s
    else if verifyCode s ≠ 0 then loadFail (verdictNoted s (verifyCode s)) (verifyCode s)
    else loadEnd (markVerified (verdictNoted s (verifyCode s)) (imageBytes s)) 3 0 := rfl

theorem verifyDoneOp_passes {s : State} (h : s.loadState = 2) (k : verifyCode s = 0) :
    verifyDoneOp s = loadEnd (markVerified (verdictNoted s 0) (imageBytes s)) 3 0 := by
  rw [verifyDoneOp_eq, if_neg (not_not.2 h), if_neg (not_not.2 k), k]

theorem verifyDoneOp_fails {s : State} (h : s.loadState = 2) (k : verifyCode s ≠ 0) :
    verifyDoneOp s = loadFail (verdictNoted s (verifyCode s)) (verifyCode s) := by
  rw [verifyDoneOp_eq, if_neg (not_not.2 h), if_pos k]

theorem verdictNoted_image {s : State} {code : Nat} (h : code ≠ 6) (k : s.loadKind ≠ 4) : verdictNoted s code = dropTaking s .signature := by
  rw [verdictNoted, if_neg h, dropTaking_loadKind, if_neg k]

theorem verdictNoted_decision {s : State} {code : Nat} (h : code ≠ 6) (k : s.loadKind = 4) :
    verdictNoted s code = newChallenge (dropTaking s .signature) := by
  rw [verdictNoted, if_neg h, dropTaking_loadKind, if_pos k]

theorem verdictNoted_disputed {s : State} (k : s.loadKind ≠ 4) : verdictNoted s 6 = raise0 (dropTaking s .signature) 0x0101 0 := by
  rw [verdictNoted, if_pos rfl, disagree_loadKind, dropTaking_loadKind, if_neg k]

theorem loadFail_script {s : State} (h : s.loadKind = 2 ∨ s.loadKind = 3) (code : Nat) :
    loadFail s code = raise0 (loadEnd s 6 code) 0x0103 0 := if_pos (by rwa [loadEnd_kind])

theorem loadFail_other {s : State} (h : ¬ (s.loadKind = 2 ∨ s.loadKind = 3)) (code : Nat) : loadFail s code = loadEnd s 6 code :=
  if_neg (by rwa [loadEnd_kind])

theorem loadEnd_base {s u : State} (h : u = { s with ctl := u.ctl }) (st code : Nat) :
    OnlyRegs [Reg.CTL_LOAD_STATUS] { s with ctl := (loadEnd u st code).ctl } (loadEnd u st code) := by
  have ended := loadEnd_onlyRegs u st code
  have same : (loadEnd u st code).ctl = u.ctl := (congrArg State.ctl ended.1).trans rfl
  rw [same, ← h]
  exact ended

theorem verifyDone_eq {s : State} (h : s.running = true) : exec .verifyDone s = .next (verifyDoneOp s) :=
  congrArg Host.Outcome.next (live_acts _ h)

theorem applyDone_eq {s : State} (h : s.running = true) : exec .applyDone s = .next (applyDoneOp s) :=
  congrArg Host.Outcome.next (live_acts _ h)

/-! ### APPLY and its end (R62, R71, R75, R78) -/

/-- The loader in APPLYING. -/
def applying (s : State) : State := (s.set Reg.CTL_LOAD_STATUS_STATE 4).set Reg.CTL_LOAD_STATUS_BUSY 1

theorem applying_loadKind (s : State) : (applying s).loadKind = s.loadKind := (loadBusy_fields s (by decide)).2.2

section
variable {s : State} {who : Who}

theorem loadApplyOp_firmware (h : s.loadState = 3) (k : s.holds who = true) (kind : s.loadKind = 1) : loadApplyOp who s = applying s := by
  have shown := (applying_loadKind s).trans kind
  unfold applying at shown ⊢
  simp only [loadApplyOp, h, k, and_self, if_true, shown]

theorem loadApplyOp_script (h : s.loadState = 3) (k : s.holds who = true) (kind : s.loadKind = 2) :
    loadApplyOp who s = (writeRecords (imageBytes s)).foldl putRecord (applying s) := by
  have shown := (applying_loadKind s).trans kind
  unfold applying at shown ⊢
  simp only [loadApplyOp, h, k, and_self, if_true, shown]

theorem loadApplyOp_scene (h : s.loadState = 3) (k : s.holds who = true) (kind : s.loadKind = 3) : loadApplyOp who s =
    (writeRecords (imageBytes s)).foldl putRecord (unlockScope (stopScope (applying s) (scopeOf (imageBytes s))) (imageBytes s)) := by
  have shown := (applying_loadKind s).trans kind
  unfold applying at shown ⊢
  simp only [loadApplyOp, h, k, and_self, if_true, shown]

theorem loadApplyOp_decision (h : s.loadState = 3) (k : s.holds who = true) (kind : s.loadKind = 4) (class1 : byteAt (imageBytes s) 5 = 1) :
    loadApplyOp who s = setOwner (applying s) (byteAt (imageBytes s) 6) (byteAt (imageBytes s) 7) := by
  have shown := (applying_loadKind s).trans kind
  unfold applying at shown ⊢
  simp only [loadApplyOp, h, k, and_self, if_true, shown, applyDecision, class1]

end

section
variable {s : State} (h : s.loadState = 4)
include h

theorem applyDoneOp_firmware (kind : s.loadKind = 1) : applyDoneOp s = loadEnd s 5 0 := by
  simp only [applyDoneOp, h, kind, ne_eq, not_true_eq_false, if_false]

theorem applyDoneOp_script (kind : s.loadKind = 2) :
    applyDoneOp s = if laneMapOk s = true then scriptDone s (imageBytes s) else loadFail s 14 := by
  simp only [applyDoneOp, h, kind, ne_eq, not_true_eq_false, if_false]

theorem applyDoneOp_scene (kind : s.loadKind = 3) :
    applyDoneOp s = if laneMapOk s = true then sceneDone s (imageBytes s) else loadFail s 14 := by
  simp only [applyDoneOp, h, kind, ne_eq, not_true_eq_false, if_false]

theorem applyDoneOp_decision (kind : s.loadKind = 4) : applyDoneOp s = decisionDone s (imageBytes s) := by
  simp only [applyDoneOp, h, kind, ne_eq, not_true_eq_false, if_false]

end

end Sys2Proof.Machine

namespace Sys2Proof.Proofs
open Sys2Proof.Machine

/-- Settles O11: VERIFY_DONE by its code and the kind, APPLY and APPLY_DONE by the kind. -/
theorem loaderVerifies : Obligations.LoaderVerifies := by
  intro s who aw
  refine ⟨fun verifying passes image => ?_, fun verifying fails agreed => ⟨fun firm => ?_, fun script => ?_⟩,
    fun verifying agreed decision => ?_, fun verifying disputed firm => ?_, fun other => ?_,
    fun verified holds => ⟨fun firm => ?_, fun script => ?_, fun scene => ?_, fun decision class1 => ?_⟩,
    fun applied => ⟨fun firm => ?_, fun script bad => ?_, fun script good => ?_, fun scene good => ?_, fun decision => ?_⟩, fun other => ?_⟩
  · have ended : verifyDoneOp s = loadEnd (markVerified (dropTaking s .signature) (imageBytes s)) 3 0 := by
      rw [verifyDoneOp_passes verifying passes, verdictNoted_image (by decide) image]
    obtain ⟨state, result, busy⟩ := loadEnd_fields (markVerified (dropTaking s .signature) (imageBytes s)) (st := 3) (code := 0)
      (by decide) (by decide)
    exact ⟨_, (verifyDone_eq aw.1).trans (congrArg _ ended), state, result, busy,
      loadEnd_base (markVerified_base s _) 3 0⟩
  · rw [verifyDone_eq aw.1, verifyDoneOp_fails verifying fails, verdictNoted_image agreed (by omega),
      loadFail_other (by rw [dropTaking_loadKind]; omega)]
  · rw [verifyDone_eq aw.1, verifyDoneOp_fails verifying fails, verdictNoted_image agreed (by omega), loadFail_script ((dropTaking_loadKind s _).symm ▸ script)]
  · rw [verifyDone_eq aw.1]
    have kept : (newChallenge (dropTaking s .signature)).loadKind = 4 := (newChallenge_loadKind _).trans decision
    by_cases passes : verifyCode s = 0
    · rw [verifyDoneOp_passes verifying passes, verdictNoted_decision (by decide) decision, markVerified_other (by omega), if_pos passes, passes]
    · rw [verifyDoneOp_fails verifying passes, verdictNoted_decision agreed decision, loadFail_other (by omega), if_neg passes]
  · rw [verifyDone_eq aw.1, verifyDoneOp_fails verifying (by omega), disputed, verdictNoted_disputed (by omega),
      loadFail_other (by rw [disagree_loadKind, dropTaking_loadKind]; omega)]
  · rw [verifyDone_eq aw.1, verifyDoneOp, if_pos other]
  · exact (loadApply_eq aw who).trans (congrArg _ (loadApplyOp_firmware verified holds firm))
  · exact (loadApply_eq aw who).trans (congrArg _ (loadApplyOp_script verified holds script))
  · exact (loadApply_eq aw who).trans (congrArg _ (loadApplyOp_scene verified holds scene))
  · exact (loadApply_eq aw who).trans (congrArg _ (loadApplyOp_decision verified holds decision class1))
  · rw [applyDone_eq aw.1, applyDoneOp_firmware applied firm]
  · rw [applyDone_eq aw.1]
    rcases script with kind | kind
    · rw [applyDoneOp_script applied kind, bad, if_neg Bool.false_ne_true]
    · rw [applyDoneOp_scene applied kind, bad, if_neg Bool.false_ne_true]
  · rw [applyDone_eq aw.1, applyDoneOp_script applied script, if_pos good]
  · rw [applyDone_eq aw.1, applyDoneOp_scene applied scene, if_pos good]
  · rw [applyDone_eq aw.1, applyDoneOp_decision applied decision, decisionDone]
  · rw [applyDone_eq aw.1, applyDoneOp, if_pos other]

end Sys2Proof.Proofs
end

section
/-! SUPPORT. The start of a mailbox command (02 R84). -/

namespace Sys2Proof.Machine

/-- A command in the firmware's hands (R84). -/
def handedTo (t : State) (op : Nat) (args : List Word) : State :=
  (t.modCtl (fun c => { c with mbxOp := op, mbxArgs := args })).emit (.toFirmware op args)

theorem handedTo_get (t : State) (op : Nat) (args : List Word) (f : Field) : (handedTo t op args).get f = t.get f := rfl

theorem handedTo_flag (t : State) (op : Nat) (args : List Word) (f : Field) : (handedTo t op args).flag f = t.flag f := rfl

theorem OnlyRegs.handedTo {offs : List Nat} {s t : State} (h : OnlyRegs offs s t) (op : Nat) (args : List Word) :
    OnlyRegs offs { s with ctl := { s.ctl with mbxOp := op, mbxArgs := args }, out := .toFirmware op args :: s.out } (handedTo t op args) :=
  ⟨congrArg (fun x : State => Machine.handedTo x op args) h.1, h.2⟩

theorem mbxWord_op {op : Nat} (h : op < 256) (tag : Byte) : fieldOf Reg.CTL_MBX_CMD_OPCODE (mbxWord op tag) = op :=
  fieldOf_word_at [] rfl (by decide) (by decide) h

theorem mbxWord_tag (op : Nat) (tag : Byte) : fieldOf Reg.CTL_MBX_CMD_TAG (mbxWord op tag) = tag.toNat :=
  fieldOf_word_at [_] rfl (by decide) (by decide) tag.isLt

theorem row_mbxCmd : rowOf Reg.CTL_MBX_CMD = some ⟨0x10400, 1, 4, 1, 4, 0, 0xFFFF, 0, 0, 0⟩ := by decide +kernel

/-- What a started command leaves, before the firmware has it. -/
def mbxShown (val : Word) (s : State) : State := (storeReg Reg.CTL_MBX_CMD val s).setFlag Reg.CTL_MBX_STATUS_BUSY true

theorem mbxCmdWrite_starts {s : State} (h : s.flag Reg.CTL_MBX_STATUS_BUSY = false) (k : s.ctl.fwRun = true) (val : Word) :
    mbxCmdWrite val s = handedTo (mbxShown val s) (fieldOf Reg.CTL_MBX_CMD_OPCODE val) (s.rds (Reg.CTL_MBX_ARG 0) 16) :=
  if_neg (by simp [h, k])

theorem mbxShown_fields {s : State} (h : mlook 0 Reg.CTL_MBX_CMD s.locks = 0) (val : Word) :
    (mbxShown val s).flag Reg.CTL_MBX_STATUS_BUSY = true ∧
    (mbxShown val s).get Reg.CTL_MBX_CMD_OPCODE = fieldOf Reg.CTL_MBX_CMD_OPCODE val ∧
    (mbxShown val s).get Reg.CTL_MBX_CMD_TAG = fieldOf Reg.CTL_MBX_CMD_TAG val := by
  refine ⟨State.flag_setFlag _ _ _ rfl (by decide), ?_, ?_⟩
  · rw [mbxShown, State.setFlag, State.get_set_off _ _ _ _ (by decide)]
    exact get_storeReg (f := Reg.CTL_MBX_CMD_OPCODE) row_mbxCmd h val (by decide) (by decide)
  · rw [mbxShown, State.setFlag, State.get_set_off _ _ _ _ (by decide)]
    exact get_storeReg (f := Reg.CTL_MBX_CMD_TAG) row_mbxCmd h val (by decide) (by decide)

theorem mbxShown_onlyRegs {s : State} (h : mlook 0 Reg.CTL_MBX_CMD s.locks = 0) (val : Word) :
    OnlyRegs [Reg.CTL_MBX_CMD, Reg.CTL_MBX_STATUS] s (mbxShown val s) := (onlyRegs_storeReg (by decide) h val).setFlag (by decide) _

/-- A plain register's write by a path that is not ringmaster is counted (R53). -/
theorem regWrite_refused {s : State} {who : Who} {off : Nat} (aw : Awake s) (own : s.isOwner who = false) (held : NoneWaits s who.path)
    (aligned : off % 4 = 0) (below : off < 0x70000) (c : classOf off = .other) (val : Word) :
    exec (.regWrite who (BitVec.ofNat 28 off) val) s = .next (s.inc Reg.CTL_FAULT_OWNER) := by
  have place : (BitVec.ofNat 28 off).toNat = off := by rw [BitVec.toNat_ofNat, Nat.mod_eq_of_lt (by omega)]
  rw [regWrite_now val held (by rw [place]; exact stallsAt_window s (winOf_ne_uce (.inl below))) (.inr (by omega)), place,
    pathWrite_aligned aligned, busWrite, c, gate_refuses _ _ aw (mayWrite_none own (.inl rfl))]

theorem classOf_mbxArg {i : Nat} (h : i < 16) : classOf (Reg.CTL_MBX_ARG i) = .other := by
  have plain : firmwareOwn (Reg.CTL_MBX_ARG i) = false := firmwareOwn_outside (by simp only [Reg.CTL_MBX_ARG]; omega)
  have small : 0x10440 ≤ Reg.CTL_MBX_ARG i ∧ Reg.CTL_MBX_ARG i < 0x10480 := by simp only [Reg.CTL_MBX_ARG]; omega
  have apart {a : Nat} (k : a < 0x10440 ∨ 0x10480 ≤ a) : Reg.CTL_MBX_ARG i ≠ a := by omega
  rw [classOf, if_neg (apart (by decide)), if_neg (apart (by decide)), if_neg (apart (by decide)),
    if_neg (not_or.2 ⟨apart (by decide), not_or.2 ⟨apart (by decide), apart (by decide)⟩⟩), if_neg (apart (by decide)), plain,
    if_neg Bool.false_ne_true]

end Sys2Proof.Machine

namespace Sys2Proof.Proofs
open Sys2Proof.Machine

/-- Settles O12: the seven commands are one gated write of CTL_MBX_CMD, with their opcodes. -/
theorem mailboxStarts : Obligations.MailboxStarts := by
  intro s who tag serves unlocked
  have started (op : Nat) (small : op < 256) (c : Instr) (e : exec c s = .next (mbxCommand who op tag s)) :
      (s.flag Reg.CTL_MBX_STATUS_BUSY = false → s.ctl.fwRun = true → ∃ t, exec c s = .next t ∧
        t.flag Reg.CTL_MBX_STATUS_BUSY = true ∧ t.get Reg.CTL_MBX_CMD_OPCODE = op ∧ t.get Reg.CTL_MBX_CMD_TAG = tag.toNat ∧
        OnlyRegs [Reg.CTL_MBX_CMD, Reg.CTL_MBX_STATUS] { s with
          ctl := { s.ctl with mbxOp := op, mbxArgs := s.rds (Reg.CTL_MBX_ARG 0) 16 },
          out := .toFirmware op (s.rds (Reg.CTL_MBX_ARG 0) 16) :: s.out } t) ∧
      (s.flag Reg.CTL_MBX_STATUS_BUSY = true ∨ s.ctl.fwRun = false → exec c s = .next (s.inc Reg.CTL_MBX_REFUSED)) := by
    rw [e, mbxCommand, gateOwner_acts _ _ serves]
    refine ⟨fun free runs => ?_, fun refused => congrArg _ (if_pos refused)⟩
    obtain ⟨busy, opcode, tagged⟩ := mbxShown_fields unlocked (mbxWord op tag)
    rw [mbxCmdWrite_starts free runs, mbxWord_op small]
    exact ⟨_, rfl, (handedTo_flag _ _ _ _).trans busy, (handedTo_get _ _ _ _).trans (opcode.trans (mbxWord_op small tag)),
      (handedTo_get _ _ _ _).trans (tagged.trans (mbxWord_tag op tag)), (mbxShown_onlyRegs unlocked (mbxWord op tag)).handedTo op _⟩
  refine ⟨started 1 (by decide) _ rfl, started 2 (by decide) _ rfl, started 3 (by decide) _ rfl, started 4 (by decide) _ rfl,
    started 5 (by decide) _ rfl, started 6 (by decide) _ rfl, started 7 (by decide) _ rfl, fun p i val hi own held => ⟨?_, ?_⟩⟩
  · exact regWrite_refused serves.1 own held (by decide) (by decide) (by decide +kernel) val
  · exact regWrite_refused serves.1 own held (by simp only [Reg.CTL_MBX_ARG]; omega) (by simp only [Reg.CTL_MBX_ARG]; omega)
      (classOf_mbxArg hi) val

end Sys2Proof.Proofs
end

section
/-! SUPPORT. The end of a mailbox command and the firmware's cluster (02 R85, R86, R88, R89). -/

namespace Sys2Proof.Machine

/-! ### A row of words -/

/-- A row of words reads as it was written. -/
theorem rd_wrs (ws : List Word) {i : Nat} (h : i < ws.length) : ∀ (s : State) (off : Nat), (s.wrs off ws).rd (off + 4 * i) = ws.getD i 0 := by
  induction ws generalizing i with
  | nil => exact absurd h (Nat.not_lt_zero i)
  | cons w ws ih =>
    intro s off
    match i with
    | 0 => exact (rd_wrs_ne (off + 4) _ (fun j _ => by omega)).trans (s.rd_wr off w)
    | i + 1 =>
      rw [show off + 4 * (i + 1) = off + 4 + 4 * i by omega]
      exact ih (Nat.lt_of_succ_lt_succ h) (s.wr off w) (off + 4)

/-! ### What the end of a command leaves (R86) -/

/-- The response words, with zeros after them. -/
def rspWords (rsp : List Word) : List Word := (rsp ++ List.replicate 16 0).take 16

theorem rspWords_length (rsp : List Word) : (rspWords rsp).length = 16 := by simp [rspWords]

theorem rspWords_getD (rsp : List Word) {i : Nat} (h : i < 16) : (rspWords rsp).getD i 0 = rsp.getD i 0 := by
  rw [rspWords, List.getD_eq_getElem?_getD, List.getElem?_take, if_pos h]
  by_cases inside : i < rsp.length
  · rw [List.getElem?_append_left inside, List.getD_eq_getElem?_getD]
  · rw [List.getElem?_append_right (by omega), List.getElem?_replicate, List.getD_eq_getElem?_getD, List.getElem?_eq_none (by omega)]
    split <;> rfl

/-- The word that shows a command's end. -/
def mbxStatusWord (runs : Bool) (tag code : Nat) : Word := word [(Reg.CTL_MBX_STATUS_DONE, 1), (Reg.CTL_MBX_STATUS_FW_RUN, b2n runs),
  (Reg.CTL_MBX_STATUS_TAG, tag), (Reg.CTL_MBX_STATUS_RESULT, code)]

theorem mbxStatusWord_fields (runs : Bool) {tag code : Nat} (ht : tag < 256) (hc : code < 65536) :
    fieldOf Reg.CTL_MBX_STATUS_BUSY (mbxStatusWord runs tag code) = 0 ∧ fieldOf Reg.CTL_MBX_STATUS_DONE (mbxStatusWord runs tag code) = 1 ∧
    fieldOf Reg.CTL_MBX_STATUS_TAG (mbxStatusWord runs tag code) = tag ∧
    fieldOf Reg.CTL_MBX_STATUS_RESULT (mbxStatusWord runs tag code) = code :=
  ⟨fieldOf_word_zero rfl, fieldOf_word_at [] rfl (by decide) (by decide) (by decide), fieldOf_word_at [_, _] rfl (by decide) (by decide) ht,
    fieldOf_word_at [_, _, _] rfl (by decide) (by decide) hc⟩

/-- The response in its words, and the command gone. -/
def mbxIdle (s : State) (rsp : List Word) : State :=
  (s.wrs (Reg.CTL_MBX_RSP 0) (rspWords rsp)).modCtl (fun c => { c with mbxOp := 0, mbxArgs := [] })

/-- The end of a command as its registers show it. -/
def mbxAnswered (s : State) (code : Nat) (rsp : List Word) : State :=
  (mbxIdle s rsp).wr Reg.CTL_MBX_STATUS
    (mbxStatusWord (mbxIdle s rsp).ctl.fwRun ((mbxIdle s rsp).get Reg.CTL_MBX_CMD_TAG) code)

theorem mbxEnd_eq (s : State) (code : Nat) (rsp : List Word) : mbxEnd s code rsp = raise0 (mbxAnswered s code rsp) 0x0105 0 := rfl

theorem mbxIdle_rd (s : State) (rsp : List Word) {a : Nat} (h : a < 0x10480 ∨ 0x104C0 ≤ a) : (mbxIdle s rsp).rd a = s.rd a := by
  refine (State.modCtl_rd _ _ _).trans (rd_wrs_ne _ _ fun i hi => ?_)
  rw [rspWords_length] at hi
  simp only [Reg.CTL_MBX_RSP]
  omega

theorem mbxIdle_rsp (s : State) (rsp : List Word) {i : Nat} (h : i < 16) : (mbxIdle s rsp).rd (Reg.CTL_MBX_RSP i) = rsp.getD i 0 := by
  have place : Reg.CTL_MBX_RSP i = Reg.CTL_MBX_RSP 0 + 4 * i := by simp only [Reg.CTL_MBX_RSP]
  rw [mbxIdle, State.modCtl_rd, place, rd_wrs _ (by rwa [rspWords_length]), rspWords_getD rsp h]

theorem mbxAnswered_rd (s : State) (code : Nat) (rsp : List Word) {a : Nat} (h : a ≠ Reg.CTL_MBX_STATUS) :
    (mbxAnswered s code rsp).rd a = (mbxIdle s rsp).rd a := State.rd_wr_ne _ _ h

theorem mbxAnswered_get (s : State) (code : Nat) (rsp : List Word) {f : Field} (h : f.off = Reg.CTL_MBX_STATUS) :
    (mbxAnswered s code rsp).get f = fieldOf f (mbxStatusWord (mbxIdle s rsp).ctl.fwRun (s.get Reg.CTL_MBX_CMD_TAG) code) := by
  have tag : (mbxIdle s rsp).get Reg.CTL_MBX_CMD_TAG = s.get Reg.CTL_MBX_CMD_TAG :=
    congrArg (fun w => bits w Reg.CTL_MBX_CMD_TAG.hi Reg.CTL_MBX_CMD_TAG.lo) (mbxIdle_rd s rsp (.inl (by decide)))
  rw [mbxAnswered, tag, ← h, State.get_wr, fieldOf]

theorem mbxIdle_base (s : State) (rsp : List Word) :
    mbxIdle s rsp = { s with ctl := { s.ctl with mbxOp := 0, mbxArgs := [] }, regs := (mbxIdle s rsp).regs } :=
  congrArg (fun x : State => x.modCtl (fun c => { c with mbxOp := 0, mbxArgs := [] })) (wrs_regsOnly (rspWords rsp) s _)

theorem mbxAnswered_base (s : State) (code : Nat) (rsp : List Word) :
    mbxAnswered s code rsp = { s with ctl := { s.ctl with mbxOp := 0, mbxArgs := [] }, regs := (mbxAnswered s code rsp).regs } :=
  congrArg (fun x : State => { x with regs := (mbxAnswered s code rsp).regs }) (mbxIdle_base s rsp)

theorem mbxAnswered_op (s : State) (code : Nat) (rsp : List Word) : (mbxAnswered s code rsp).ctl.mbxOp = 0 :=
  (congrArg (fun x : State => x.ctl.mbxOp) (mbxAnswered_base s code rsp)).trans rfl

theorem mbxAnswered_cnt (s : State) (code : Nat) (rsp : List Word) : (mbxAnswered s code rsp).cnt = s.cnt :=
  (congrArg State.cnt (mbxAnswered_base s code rsp)).trans rfl

theorem mbxAnswered_evt (s : State) (code : Nat) (rsp : List Word) : (mbxAnswered s code rsp).evt = s.evt :=
  (congrArg State.evt (mbxAnswered_base s code rsp)).trans rfl

theorem mbxAnswered_stamp (s : State) (code : Nat) (rsp : List Word) : (mbxAnswered s code rsp).stamp = s.stamp := by
  have tim : (mbxAnswered s code rsp).tim = s.tim := (congrArg State.tim (mbxAnswered_base s code rsp)).trans rfl
  rw [State.stamp, State.nowNs, tim, ← State.nowNs, ← State.stamp]

/-- An event's rung rests on its own mapping register (R542). -/
theorem rungOf_of_rd {s t : State} {id : Nat} (h : t.rd (Reg.EVT_MAP (id / 256) (id % 256 % 32)) = s.rd (Reg.EVT_MAP (id / 256) (id % 256 % 32))) :
    rungOf t id = rungOf s id :=
  congrArg (fun w => max (if bits w 24 22 = 7 then 6 else bits w 24 22) (bits w 30 28)) h

theorem mbxAnswered_rung (s : State) (code : Nat) (rsp : List Word) : rungOf (mbxAnswered s code rsp) 0x0105 = rungOf s 0x0105 :=
  rungOf_of_rd ((mbxAnswered_rd s code rsp (by decide)).trans (mbxIdle_rd s rsp (.inr (by decide))))

/-- The record of CTL_MBX_DONE, in a log that has room for it (R549). -/
theorem mbxEnd_logged {s : State} (code : Nat) (rsp : List Word) (live : s.evt.frozen = false) (low : rungOf s 0x0105 = 0)
    (room : s.evt.log.length < 1024) : mbxEnd s code rsp =
      { mbxAnswered s code rsp with evt := { s.evt with log := s.evt.log ++ [logRec s 0 0x0105 0 0], seq := s.evt.seq + 1 } } := by
  have evt := mbxAnswered_evt s code rsp
  have record : logRec (mbxAnswered s code rsp) 0 0x0105 0 0 = logRec s 0 0x0105 0 0 := by
    rw [logRec, logRec, evt, mbxAnswered_stamp]
  rw [mbxEnd_eq, raise0, raise_logged (by rwa [evt]) (by rwa [evt]) ((mbxAnswered_rung s code rsp).trans low), record, evt]

theorem withEvt_get (s : State) (e : Evt) (f : Field) : ({ s with evt := e } : State).get f = s.get f := rfl

theorem withEvt_rd (s : State) (e : Evt) (a : Nat) : ({ s with evt := e } : State).rd a = s.rd a := rfl

/-! ### The cluster (R85, R88, R89) -/

/-- The cluster stopped, its delegations waiting. -/
def clusterStopped (s : State) : State :=
  (s.modCtl (fun c => { c with fwRun := false, delegations := c.delegations.map (fun d => { d with live := false }) })).setFlag
    Reg.CTL_MBX_STATUS_FW_RUN false

/-- The cluster serving the mailbox. -/
def clusterStarted (s : State) : State :=
  (s.modCtl (fun c => { c with fwRun := true, fwStart := if c.fwRun then c.fwStart else s.clk })).setFlag Reg.CTL_MBX_STATUS_FW_RUN true

theorem clusterStopped_busy (s : State) : (clusterStopped s).flag Reg.CTL_MBX_STATUS_BUSY = s.flag Reg.CTL_MBX_STATUS_BUSY := by
  rw [clusterStopped, State.setFlag, State.flag_set_apart _ Reg.CTL_MBX_STATUS_FW_RUN Reg.CTL_MBX_STATUS_BUSY _ (by decide) (by decide) rfl (by decide), State.modCtl_flag]

theorem clusterStarted_get (s : State) {f : Field} (h : f.off ≠ Reg.CTL_MBX_STATUS) : (clusterStarted s).get f = s.get f := by
  rw [clusterStarted, State.setFlag, State.get_set_off _ _ _ _ h, State.modCtl_get]

theorem watchdogOp_eq (s : State) :
    watchdogOp s = if (clusterStopped s).flag Reg.CTL_MBX_STATUS_BUSY then mbxEnd (clusterStopped s) 4 [] else clusterStopped s := rfl

theorem fwRunOp_eq (s : State) : fwRunOp s = if s.ctl.fwVerified = false then s
    else if (clusterStarted s).stage = 5 then settleStages ((clusterStarted s).toStage 6) else clusterStarted s := rfl

theorem toStage_stage (s : State) {n : Nat} (h : n < 16) : (s.toStage n).stage = n := State.get_set_lt _ _ (by decide) (by decide) h

/-- Stage 6 waits for a ringmaster (R89). -/
theorem settleStages_unowned {s : State} (h : s.stage = 6) (k : s.owned = false) : settleStages s = s := by
  have still : (if s.stage = 6 ∧ s.owned = true ∧ s.bootMode ≠ 1 then s.toStage 7 else s) = s := if_neg (by simp [k])
  rw [settleStages, still]
  exact if_neg (by simp [h])

theorem fwRunOp_starts {s : State} (v : s.ctl.fwVerified = true) (h : s.stage ≠ 5) : fwRunOp s = clusterStarted s := by
  rw [fwRunOp_eq, if_neg (by simp [v]), State.stage, clusterStarted_get s (by decide), ← State.stage, if_neg h]

theorem fwRunOp_completes {s : State} (v : s.ctl.fwVerified = true) (h : s.stage = 5) (k : s.owned = false) :
    fwRunOp s = (clusterStarted s).toStage 6 := by
  have stage : (clusterStarted s).stage = 5 := (clusterStarted_get s (by decide)).trans h
  have unowned : ((clusterStarted s).toStage 6).owned = false := by
    rw [State.owned, State.toStage, State.get_set_off _ _ _ _ (by decide), clusterStarted_get s (by decide), ← State.owned, k]
  rw [fwRunOp_eq, if_neg (by simp [v]), if_pos stage, settleStages_unowned (toStage_stage _ (by decide)) unowned]

/-! ### MBX_DONE (R86) -/

theorem mbxDoneOp_eq (result : Nat) (rsp : List Word) (s : State) : mbxDoneOp result rsp s =
    if s.flag Reg.CTL_MBX_STATUS_BUSY = false then s
    else if (if mbxCode s = 0 then result else mbxCode s) ≠ 0 then mbxEnd s (if mbxCode s = 0 then result else mbxCode s) []
    else mbxEnd (mbxEffect s).2 0 ((mbxEffect s).1 ++ mbxResponse s rsp) := rfl

section
variable {s : State}

theorem mbxDoneOp_idle (h : s.flag Reg.CTL_MBX_STATUS_BUSY = false) (result : Nat) (rsp : List Word) : mbxDoneOp result rsp s = s := if_pos h

variable (h : s.flag Reg.CTL_MBX_STATUS_BUSY = true) (rsp : List Word)
include h

theorem mbxDoneOp_forced (k : mbxCode s ≠ 0) (result : Nat) : mbxDoneOp result rsp s = mbxEnd s (mbxCode s) [] := by
  rw [mbxDoneOp_eq, if_neg (by simp [h]), if_neg k, if_pos k]

theorem mbxDoneOp_failed (k : mbxCode s = 0) {result : Nat} (f : result ≠ 0) : mbxDoneOp result rsp s = mbxEnd s result [] := by
  rw [mbxDoneOp_eq, if_neg (by simp [h]), if_pos k, if_pos f]

theorem mbxDoneOp_ok (k : mbxCode s = 0) :
    mbxDoneOp 0 rsp s = mbxEnd (mbxEffect s).2 0 ((mbxEffect s).1 ++ mbxResponse s rsp) := by
  rw [mbxDoneOp_eq, if_neg (by simp [h]), if_pos k, if_neg (not_not.2 rfl)]

end

theorem mbxEffect_none {s : State} (h2 : s.ctl.mbxOp ≠ 2) (h3 : s.ctl.mbxOp ≠ 3) (h5 : s.ctl.mbxOp ≠ 5) : mbxEffect s = ([], s) := by
  unfold mbxEffect
  split
  case h_1 e => exact absurd e h2
  case h_2 e => exact absurd e h3
  case h_3 e => exact absurd e h5
  case h_4 => rfl

end Sys2Proof.Machine

namespace Sys2Proof.Proofs
open Sys2Proof.Machine

/-- Settles O13: each end by BUSY and its code, and what the one write of CTL_MBX_STATUS shows. -/
theorem mailboxEnds : Obligations.MailboxEnds := by
  constructor
  · intro s code rsp h run
    have op {c : Instr} {f : State → State} {t : State} (e : exec c s = .next (live f s)) (k : f s = t) : exec c s = .next t :=
      e.trans (congrArg _ ((live_acts f run).trans k))
    refine ⟨fun busy => ⟨op rfl (if_pos busy), ?_, fun forced => op rfl (mbxDoneOp_forced busy rsp forced _),
        fun free failed => op rfl (mbxDoneOp_failed busy rsp free ?_), fun free => op rfl (mbxDoneOp_ok busy rsp free)⟩,
      fun o => ?_, fun o => ?_, fun o => ?_, mbxEffect_none, fun idle => ⟨op rfl (if_neg (by simp [idle])), op rfl (mbxDoneOp_idle idle _ _), ?_⟩,
      fun runs => op rfl (if_pos runs), fun stopped => op rfl (if_neg (by simp [stopped])), fun v st => op rfl (fwRunOp_starts v st),
      fun v st unowned => op rfl (fwRunOp_completes v st unowned), fun v => op rfl (if_pos v)⟩
    · exact op rfl ((watchdogOp_eq s).trans (if_pos ((clusterStopped_busy s).trans busy)))
    · exact fun e => failed (BitVec.eq_of_toNat_eq e)
    · simp only [mbxEffect, o]
    · simp only [mbxEffect, o]
    · simp only [mbxEffect, o]
    · exact op rfl ((watchdogOp_eq s).trans (if_neg (by rw [clusterStopped_busy, idle]; exact Bool.false_ne_true)))
  · intro s code rsp hc live low room
    have logged := mbxEnd_logged code rsp live low room
    obtain ⟨busy, done, tag, result⟩ := mbxStatusWord_fields (mbxIdle s rsp).ctl.fwRun (bits_lt _ _ _ : s.get Reg.CTL_MBX_CMD_TAG < 256) hc
    have shown {f : Field} (o : f.off = Reg.CTL_MBX_STATUS) :=
      (congrArg (fun x : State => x.get f) logged).trans ((withEvt_get _ _ f).trans (mbxAnswered_get s code rsp o))
    refine ⟨(shown rfl).trans busy, (shown rfl).trans done, (shown rfl).trans tag, (shown rfl).trans result, ?_, fun i hi => ?_, ?_, ?_⟩
    · exact (congrArg (fun x : State => x.ctl.mbxOp) logged).trans (mbxAnswered_op s code rsp)
    · have apart : Reg.CTL_MBX_RSP i ≠ Reg.CTL_MBX_STATUS := by simp only [Reg.CTL_MBX_RSP, Reg.CTL_MBX_STATUS]; omega
      rw [logged, withEvt_rd, mbxAnswered_rd s code rsp apart, mbxIdle_rsp s rsp hi]
    · exact congrArg (fun x : State => x.evt.log) logged
    · exact (congrArg State.cnt logged).trans (mbxAnswered_cnt s code rsp)

end Sys2Proof.Proofs
end

section
/-! SUPPORT. Start-up: what the release, the always-on check and a stage that stops leave (02 R89; 14 R533; 15 R546). -/

namespace Sys2Proof.Machine

/-! ### A stage that stops (R63, R89) -/

theorem stageFail_fields (s : State) {n ev : Nat} (hn : n < 16) (he : ev < 65536) : (stageFail s n ev).stage = 15 ∧
    (stageFail s n ev).get Reg.CTL_BOOT_FAIL_STAGE = n ∧ (stageFail s n ev).get Reg.CTL_BOOT_FAIL = ev := by
  refine ⟨?_, ?_, State.get_set_lt _ _ (by decide) (by decide) he⟩
  · rw [State.stage, stageFail, State.get_set_beside _ (by decide), State.get_set_beside _ (by decide),
      State.get_set_lt _ _ (by decide) (by decide) (by decide)]
  · rw [stageFail, State.get_set_beside _ (by decide), State.get_set_lt _ _ (by decide) (by decide) hn]

theorem stageFail_onlyRegs (s : State) (n ev : Nat) : OnlyRegs [Reg.CTL_BOOT] s (stageFail s n ev) :=
  (((OnlyRegs.refl _ s).set (by decide) _).set (by decide) _).set (by decide) _

theorem bootField_failStage : BootField Reg.CTL_BOOT_FAIL_STAGE := ⟨rfl, by decide⟩

theorem bootField_fail : BootField Reg.CTL_BOOT_FAIL := ⟨rfl, by decide⟩

theorem alarmLow_of_failStage {s : State} (h : s.get Reg.CTL_BOOT_FAIL_STAGE = 2 ∨ s.get Reg.CTL_BOOT_FAIL_STAGE = 4) : s.alarmLow = true := by
  simp only [State.alarmLow, Bool.or_eq_true, decide_eq_true_eq]
  omega

/-! ### A log that is frozen belongs to a halted device (R546) -/

/-- The log of a device that is not halted takes events. -/
def FrozenHalted (s : State) : Prop := s.evt.frozen = true → Halted s

/-- Neither halted nor frozen anew. -/
def SameHalt (s t : State) : Prop := t.evt.frozen = s.evt.frozen ∧ t.ctl.cond = s.ctl.cond

theorem SameHalt.refl (s : State) : SameHalt s s := ⟨rfl, rfl⟩

theorem SameHalt.trans {s t u : State} (h : SameHalt s t) (k : SameHalt t u) : SameHalt s u := ⟨k.1.trans h.1, k.2.trans h.2⟩

theorem SameHalt.ite {s t u : State} {p : Prop} [Decidable p] (h : SameHalt s t) (k : SameHalt s u) : SameHalt s (if p then t else u) := by
  split
  exacts [h, k]

theorem SameHalt.frozenHalted {s t : State} (h : SameHalt s t) (k : FrozenHalted s) : FrozenHalted t := fun frozen =>
  ⟨h.2.trans (k (h.1.symm.trans frozen)).cond, frozen⟩

theorem RegsOnly.sameHalt {s t : State} (h : RegsOnly s t) : SameHalt s t :=
  ⟨(congrArg (fun x : State => x.evt.frozen) h).trans rfl, (congrArg (fun x : State => x.ctl.cond) h).trans rfl⟩

theorem zeroiseWorking_sameHalt (s : State) : SameHalt s (zeroiseWorking s) := by
  have slots (l : List Nat) (t : State) : RegsOnly t (l.foldl (fun s i => s.wr (Reg.UCE_SLOT_STS i) 0) t) := by
    induction l generalizing t with
    | nil => exact RegsOnly.refl t
    | cons i l ih => exact ((RegsOnly.refl t).wr _ _).trans (ih _)
  have staging : RegsOnly s (zeroStaging s) := ((wrs_regsOnly _ _ _).trans (wrs_regsOnly _ _ _)).trans (wrs_regsOnly _ _ _)
  have gone (t : State) : SameHalt t (keysGone t) := ⟨rfl, rfl⟩
  rw [zeroiseWorking_eq]
  exact ((staging.trans (slots _ _)).setFlag _ _).sameHalt.trans (gone _)

theorem setPend_sameHalt (s : State) (id : Nat) : SameHalt s (setPend s id) := by
  have pended : SameHalt s (s.wr (Reg.EVT_PEND (id / 256)) (s.rd (Reg.EVT_PEND (id / 256)) ||| w32 (2 ^ (id % 256 % 32)))) :=
    ((RegsOnly.refl s).wr _ _).sameHalt
  have sent (t : State) (v : Nat) : SameHalt t (sendMsix t v) := SameHalt.ite ⟨rfl, rfl⟩ ⟨rfl, rfl⟩
  exact SameHalt.ite (.refl s) (SameHalt.ite (pended.trans (sent _ _)) pended)

theorem quiesceDevice_sameHalt (s : State) : SameHalt s (quiesceDevice s) := by
  have down : SameHalt s (s.setFlag Reg.EVT_STS_QDEV true) := ((RegsOnly.refl s).setFlag _ _).sameHalt
  have fenced (t : State) : SameHalt t { t with fab := { t.fab with fencing := true, fenceTo := .fenced } } := ⟨rfl, rfl⟩
  have yields := down.trans ((RegsOnly.refl (s.setFlag Reg.EVT_STS_QDEV true)).setFlag Reg.FAB_STS_YIELD true).sameHalt
  exact SameHalt.ite (SameHalt.ite (yields.trans (fenced _)) yields) down

theorem bumpRaw_sameHalt (s : State) (off n : Nat) : SameHalt s (s.bumpRaw off n) := by
  unfold State.bumpRaw
  dsimp only
  split
  · exact ⟨rfl, rfl⟩
  · exact ⟨rfl, rfl⟩

theorem pushLog_sameHalt (s : State) (r : LogRec) : SameHalt s (pushLog s r) := SameHalt.ite ⟨rfl, rfl⟩ (bumpRaw_sameHalt _ _ _)

theorem haltNow_halted (s : State) (r : LogRec) : Halted (haltNow s r) := ⟨rfl, rfl⟩

/-- A response halts at rung HALT and at no other. -/
theorem respond_halt (s : State) (rung id : Nat) (pair : Option Nat) (r : LogRec) :
    (rung = 6 → Halted (respond s rung id pair r)) ∧ (rung ≠ 6 → SameHalt s (respond s rung id pair r)) := by
  have last (u : State) (hu : SameHalt s u) :
      let t := (let v := if rung = 4 ∨ rung = 5 then zeroiseWorking u else u
        let w := if rung = 5 then zeroiseVault v else v
        if rung = 6 then haltNow w r else w)
      (rung = 6 → Halted t) ∧ (rung ≠ 6 → SameHalt s t) := by
    have vault (v : State) : SameHalt v (zeroiseVault v) := ⟨rfl, rfl⟩
    have hv := SameHalt.ite (p := rung = 4 ∨ rung = 5) (hu.trans (zeroiseWorking_sameHalt u)) hu
    have hw := SameHalt.ite (p := rung = 5) (hv.trans (vault _)) hv
    refine ⟨fun top => ?_, fun below => ?_⟩
    · rw [if_pos top]
      exact haltNow_halted _ _
    · rw [if_neg below]
      exact hw
  have pended := SameHalt.ite (p := 1 ≤ rung) (setPend_sameHalt s id) (.refl s)
  unfold respond
  cases pair with
  | none =>
    have quiesced := SameHalt.ite (p := 2 ≤ rung) pended pended
    exact last _ (SameHalt.ite (quiesced.trans (quiesceDevice_sameHalt _)) quiesced)
  | some k =>
    have port (u : State) : SameHalt u (quiescePort u k) := ((RegsOnly.refl u).wr _ _).sameHalt
    have quiesced := SameHalt.ite (p := 2 ≤ rung) (pended.trans (port _)) pended
    exact last _ (SameHalt.ite (quiesced.trans (quiesceDevice_sameHalt _)) quiesced)

theorem raiseOne_halts {s : State} (h : s.evt.frozen = false) (id a0 a1 : Nat) (pair : Option Nat) : Halted (raiseOne s 6 id a0 a1 pair) := by
  rw [raiseOne, h, if_neg Bool.false_ne_true]
  exact (respond_halt _ 6 id pair _).1 rfl

theorem raiseOne_frozenHalted {s : State} (h : FrozenHalted s) (rung id a0 a1 : Nat) (pair : Option Nat) :
    FrozenHalted (raiseOne s rung id a0 a1 pair) := by
  unfold raiseOne
  split
  · exact h
  · by_cases top : rung = 6
    · exact fun _ => (respond_halt _ rung id pair _).1 top
    · exact (((pushLog_sameHalt s _)).trans ((respond_halt _ rung id pair _).2 top)).frozenHalted h

theorem raiseAt_frozenHalted {s : State} (h : FrozenHalted s) (rung id a0 a1 : Nat) (pair : Option Nat) :
    FrozenHalted (raiseAt s rung id a0 a1 pair) := by
  have one := raiseOne_frozenHalted h rung id a0 a1 pair
  unfold raiseAt
  dsimp only
  generalize raiseOne s rung id a0 a1 pair = t at one ⊢
  have marked : FrozenHalted { t with evt := { t.evt with ovfRaised := true } } := SameHalt.frozenHalted (s := t) ⟨rfl, rfl⟩ one
  split
  · exact raiseOne_frozenHalted marked _ _ _ _ _
  · exact one

theorem inc_frozenHalted {s : State} (h : FrozenHalted s) (off : Nat) : FrozenHalted (s.inc off) := by
  have raw : FrozenHalted (s.bumpRaw off 1) := (bumpRaw_sameHalt s off 1).frozenHalted h
  have marked : FrozenHalted { s.bumpRaw off 1 with cnt := { (s.bumpRaw off 1).cnt with lastWrap := some s.clk } } :=
    SameHalt.frozenHalted (s := s.bumpRaw off 1) ⟨rfl, rfl⟩ raw
  have ite {p : Prop} [Decidable p] {t u : State} (a : FrozenHalted t) (b : FrozenHalted u) : FrozenHalted (if p then t else u) := by
    split
    exacts [a, b]
  exact ite (ite (raiseAt_frozenHalted marked _ _ _ _ _) marked) raw

/-- An event at rung HALT leaves a halted device, be it the event's doing or an earlier halt's. -/
theorem raiseAt_halted {s : State} (h : FrozenHalted s) (id a0 a1 : Nat) (pair : Option Nat) : (raiseAt s 6 id a0 a1 pair).halted = true := by
  by_cases frozen : s.evt.frozen = true
  · have still : raiseOne s 6 id a0 a1 pair = s := by rw [raiseOne, if_pos frozen]
    rw [raiseAt, still, if_neg (by simp [frozen])]
    exact (h frozen).halted
  · have halted := raiseOne_halts (Bool.eq_false_iff.2 frozen) id a0 a1 pair
    rw [raiseAt, if_neg (by simp [halted.frozen])]
    exact halted.halted

/-! ### The release of reset (R89, R391, R576) -/

theorem bootModeOf_lt (strap lc : Nat) : bootModeOf strap lc < 4 := by
  unfold bootModeOf
  split
  · decide
  · split <;> decide

/-- The memory straps as MGD_DDR_STS shows them. -/
def strapWord (ddr : Nat) : Word := word [(Reg.MGD_DDR_STS_SUBCH, ddr % 4), (Reg.MGD_DDR_STS_CAP, ddr / 4)]

/-- The release of reset, over a state with the straps sampled. -/
def released (s : State) (mode ddr : Nat) : State := ((s.set Reg.CTL_BOOT_MODE mode).wr Reg.MGD_DDR_STS (strapWord ddr)).toStage 2

theorem resetReleaseOp_releases {s : State} (h : s.ctl.cond = .reset) (k : s.stage = 1) (d : s.gaf.dips = []) (boot : BitVec 2) (ddr : BitVec 4) :
    resetReleaseOp boot ddr s = released { s with ctl := { s.ctl with bootStrap := boot, ddrStrap := ddr } }
      (bootModeOf boot.toNat (lcCode s.vlt.otp)) ddr.toNat := if_neg (by simp [h, k, d])

theorem resetReleaseOp_waits {s : State} (h : s.stage ≠ 1 ∨ s.gaf.dips ≠ []) (boot : BitVec 2) (ddr : BitVec 4) : resetReleaseOp boot ddr s = s :=
  if_pos (.inr h)

theorem released_onlyRegs (s : State) (mode ddr : Nat) : OnlyRegs [Reg.CTL_BOOT, Reg.MGD_DDR_STS] s (released s mode ddr) :=
  (((OnlyRegs.refl _ s).set (by decide) _).wr (by decide) _).set (by decide) _

theorem OnlyRegs.ctl_eq {offs : List Nat} {s t : State} (h : OnlyRegs offs s t) : t.ctl = s.ctl := (congrArg State.ctl h.1).trans rfl

theorem released_fields (s : State) {mode ddr : Nat} (hm : mode < 4) (hd : ddr < 16) : (released s mode ddr).stage = 2 ∧
    (released s mode ddr).bootMode = mode ∧ (released s mode ddr).get Reg.MGD_DDR_STS_SUBCH = ddr % 4 ∧
    (released s mode ddr).get Reg.MGD_DDR_STS_CAP = ddr / 4 := by
  have shown (f : Field) (o : f.off = Reg.MGD_DDR_STS) : (released s mode ddr).get f = fieldOf f (strapWord ddr) := by
    rw [released, State.toStage, State.get_set_off _ _ _ _ (by rw [o]; decide), ← o, State.get_wr, fieldOf]
  refine ⟨toStage_stage _ (by decide), ?_, (shown _ rfl).trans ?_, (shown _ rfl).trans ?_⟩
  · rw [State.bootMode, released, State.toStage, State.get_set_beside _ (by decide), State.get_wr_ne _ _ _ (by decide),
      State.get_set_lt _ _ (by decide) (by decide) hm]
  · exact fieldOf_word_at [] rfl (by decide) (by decide) (Nat.mod_lt _ (by decide))
  · exact fieldOf_word_at [_] rfl (by decide) (by decide) (by
      simp only [Reg.MGD_DDR_STS_CAP]
      omega)

/-! ### The always-on check (R533) -/

/-- The rings begin to wake. -/
def ringsWaking (l : List Nat) (m : SMap RingPower) : SMap RingPower := l.foldl (fun m r => mstore .asleep r .waking m) m

/-- The farm with its rings' power put in place. -/
def withRings (m : SMap RingPower) (s : State) : State := { s with frm := { s.frm with rings := m } }

theorem withRings_aon (m : SMap RingPower) (s : State) : (withRings m s).aon = s.aon := rfl

theorem setRings_eq (l : List Nat) (s : State) : l.foldl (fun s r => s.setRing r .waking) s = withRings (ringsWaking l s.frm.rings) s := by
  induction l generalizing s with
  | nil => rfl
  | cons r l ih => exact ih _

theorem ringsWaking_waking (l : List Nat) {r : Nat} (m : SMap RingPower) (h : r ∈ l ∨ mlook .asleep r m = .waking) :
    mlook .asleep r (ringsWaking l m) = .waking := by
  induction l generalizing m with
  | nil => exact h.resolve_left (by simp)
  | cons q l ih =>
    refine ih _ ?_
    by_cases e : r = q
    · exact .inr (e ▸ mlook_mstore_same _ _ _ _)
    · rw [mlook_mstore_ne _ _ _ _ e]
      exact h.imp_left fun k => (List.mem_cons.1 k).resolve_left e

theorem raiseBurnt_none (s : State) (before : Nat) : raiseBurnt s before 0 = s := if_neg (by omega)

/-- Reset is released to the rest of the die, at stage 3. -/
def dieReleased (s : State) : State := ({ s with ctl := { s.ctl with cond := .running } } : State).toStage 3

/-- Every ring wakes. -/
def ringsRoused (s : State) : State := withRings (ringsWaking (List.range 32) s.frm.rings) s

/-- The battery record is reported, where there is one. -/
def recordReported (s : State) : State :=
  if s.aon.latch = 0 then s else raise0 (s.setFlag Reg.AON_STS_BAT_TAMPER true) 0x040B s.aon.latch.toNat

theorem leaveReset_eq (s : State) (before burnt : Nat) : leaveReset s before burnt =
    recordReported (raiseBurnt ((List.range 32).foldl (fun s r => s.setRing r .waking) (dieReleased s)) before burnt) := rfl

theorem ringsRoused_aon (s : State) : (ringsRoused s).aon = s.aon := withRings_aon _ s

theorem dieReleased_base (s : State) : RegsOnly { s with ctl := { s.ctl with cond := .running } } (dieReleased s) := (RegsOnly.refl _).set _ _

theorem dieReleased_aon (s : State) : (dieReleased s).aon = s.aon := (congrArg State.aon (dieReleased_base s)).trans rfl

theorem setRings_roused (s : State) : (List.range 32).foldl (fun s r => s.setRing r .waking) s = ringsRoused s := setRings_eq _ s

/-- Stage 2 is complete, with nothing burnt and no battery record. -/
theorem leaveReset_clean {s : State} (h : s.aon.latch = 0) (before : Nat) : leaveReset s before 0 = ringsRoused (dieReleased s) := by
  have none : (ringsRoused (dieReleased s)).aon.latch = 0 := by rw [ringsRoused_aon, dieReleased_aon, h]
  rw [leaveReset_eq, setRings_roused, raiseBurnt_none, recordReported, if_pos none]

section
variable {s : State} (reset : s.ctl.cond = .reset) (two : s.stage = 2)
include reset two

theorem aonCheckOp_clean (none : s.aon.pendingBurn = 0) (ok : Bool) :
    aonCheckOp ok s = leaveReset (s.modAon (fun a => { a with pendingBurn := 0 })) s.evidence 0 := by
  rw [aonCheckOp, if_neg (by simp [reset, two])]
  exact if_pos (by rw [none, Nat.zero_min])

theorem aonCheckOp_fails (due : 0 < min s.aon.pendingBurn (64 - s.evidence)) (rails : s.frozenRails = false) :
    aonCheckOp false s = stageFail s 2 0x040E := by
  rw [aonCheckOp, if_neg (by simp [reset, two])]
  exact (if_neg (by omega)).trans ((if_neg (by simp [rails])).trans (if_neg Bool.false_ne_true))

end

theorem aonCheckOp_elsewhere {s : State} (h : s.stage ≠ 2) (ok : Bool) : aonCheckOp ok s = s := if_pos (.inr h)

end Sys2Proof.Machine
end

section
/-! SUPPORT. Stage 3 of start-up with nothing to burn, to renew or to report (12 R430 to R433, R436, R441, R459). -/

namespace Sys2Proof.Machine

/-! ### The steps of stage 3 by name -/

def weakNoted (s : State) (weak : Nat) : State :=
  let s := s.set Reg.VLT_STS_OTP_WEAK weak
  if weak = 0 then s else raise0 s 0x0609 0

def entropyPassed (s : State) : State :=
  (s.setFlag Reg.VLT_STS_ENTROPY_OK true).modVlt (fun v => { v with drbgRun := true, requests := 0 })

def testRootBurnt (s : State) : State :=
  if lcCode s.vlt.otp = 1 ∧ s.vlt.otp.root.isNone = true then
    (let (v, s) := s.drbg
     s.modVlt (fun x => { x with otp := { x.otp with root := some (v.truncate 256) } }))
  else s

def batteryAnswered (s : State) : State :=
  if s.aon.vbatLost then
    (if s.vlt.otp.epoch < 128 then { burnEpoch s with aon := { s.aon with vbatLost := false } } else exhaust s)
  else s

def bbsRenewed (s : State) : State :=
  if bbsStale s.vlt then raise0 ((newBbs s).setFlag Reg.VLT_STS_BBS_RENEWED true) 0x0608 0 else s

def counterEnded (s : State) : State := if counterEnd s.vlt then exhaust s else s

def rootMaterial (s : State) (weak : Nat) : State :=
  bbsRenewed (batteryAnswered (testRootBurnt (entropyPassed (weakNoted s weak))))

def identityShown (s : State) : State := s.wrs (Reg.VLT_ID_PUB 0) (bytesWords 24 (ecPublic (identityKey (identityOf s.vlt))))

def filterSecret (s : State) : State := { s with flt := { s.flt with secret := s.draws } }

def coresTested (s : State) (kat : BitVec 2) : State := uceKat (uceKat s 0 (kat.getLsbD 0)) 1 (kat.getLsbD 1)

def keysReady (s : State) : State := (s.setFlag Reg.VLT_STS_KEYS_READY true).toStage 4

theorem vaultStageOp_passes {s : State} (h : s.stage = 3) (rails : s.frozenRails = false) (weak : Nat) (kat : BitVec 2) :
    vaultStageOp true true weak kat s = keysReady (coresTested (newChallenge (filterSecret (identityShown
      (deriveKeys (readRoots (counterEnded (showRoot (rootMaterial s weak))))))).drbg.2) kat) := by
  rw [vaultStageOp, if_neg (by simp [h, rails])]
  extract_lets begun noted passed rooted burnt aon answered renewed shown ended derived identity flt secret drawn challenged tested
  have noteIs : noted = weakNoted s weak := rfl
  have passIs : passed = entropyPassed noted := rfl
  clear_value noted
  have rootIs : rooted = testRootBurnt passed := rfl
  clear_value passed
  have answerIs : answered = batteryAnswered rooted := rfl
  clear_value answered burnt aon rooted
  have renewIs : renewed = bbsRenewed answered := rfl
  have endIs : ended = counterEnded (showRoot renewed) := rfl
  clear_value ended shown renewed
  have deriveIs : derived = deriveKeys (readRoots ended) := rfl
  have identityIs : identity = identityShown derived := rfl
  clear_value derived
  have secretIs : secret = filterSecret identity := rfl
  clear_value secret flt identity
  have testIs : tested = coresTested (newChallenge secret.drbg.2) kat := rfl
  clear_value tested
  rw [keysReady, rootMaterial, if_neg (by decide), if_neg (by simp), testIs, secretIs, identityIs, deriveIs, endIs, renewIs, answerIs, rootIs, passIs, noteIs]

/-! ### The root material as it stands (R441) -/

/-- An owned part that needs no burn, no new secret and no report (R441). -/
structure RootsStand (s : State) : Prop where
  owned : lcCode s.vlt.otp = 3
  battery : s.aon.vbatLost = false
  fresh : bbsStale s.vlt = false
  counts : counterEnd s.vlt = false

/-- The device with its entropy found good. -/
def entropyGood (s : State) : State := entropyPassed (s.set Reg.VLT_STS_OTP_WEAK 0)

theorem entropyGood_base (s : State) :
    RegsOnly (s.modVlt (fun v => { v with drbgRun := true, requests := 0 })) (entropyGood s) :=
  congrArg (fun x : State => x.modVlt (fun v => { v with drbgRun := true, requests := 0 }))
    (((RegsOnly.refl s).set Reg.VLT_STS_OTP_WEAK 0).setFlag Reg.VLT_STS_ENTROPY_OK true)

theorem entropyGood_vlt (s : State) : (entropyGood s).vlt = { s.vlt with drbgRun := true, requests := 0 } := (entropyGood_base s).vlt_eq

theorem entropyGood_aon (s : State) : (entropyGood s).aon = s.aon := (congrArg State.aon (entropyGood_base s)).trans rfl

theorem entropyGood_ok (s : State) : (entropyGood s).flag Reg.VLT_STS_ENTROPY_OK = true := by
  rw [entropyGood, entropyPassed, State.modVlt_flag]
  exact State.flag_setFlag _ _ _ rfl (by decide)

theorem RootsStand.rootMaterial {s : State} (h : RootsStand s) : rootMaterial s 0 = entropyGood s := by
  have test : testRootBurnt (entropyGood s) = entropyGood s := if_neg (by simp [entropyGood_vlt, h.owned])
  have battery : batteryAnswered (entropyGood s) = entropyGood s := if_neg (by simp [entropyGood_aon, h.battery])
  have bbs : bbsStale (entropyGood s).vlt = false := by
    rw [entropyGood_vlt]
    exact h.fresh
  have weak : weakNoted s 0 = s.set Reg.VLT_STS_OTP_WEAK 0 := by rw [weakNoted, if_pos rfl]
  rw [Machine.rootMaterial, weak, ← entropyGood, test, battery, bbsRenewed, if_neg (by simp [bbs])]

theorem showRoot_regsOnly (s : State) : RegsOnly s (showRoot s) :=
  (((((RegsOnly.refl s).wr _ _).wr _ _).wr _ _).setFlag _ _).setFlag _ _

theorem showRoot_ok (s : State) : (showRoot s).flag Reg.VLT_STS_ENTROPY_OK = s.flag Reg.VLT_STS_ENTROPY_OK := by
  unfold showRoot
  dsimp only
  simp only [State.setFlag]
  rw [State.flag_set_apart _ Reg.VLT_STS_EVIDENCE_SATURATED Reg.VLT_STS_ENTROPY_OK _ (by decide) (by decide) rfl (by decide),
    State.flag_set_apart _ Reg.VLT_STS_OWNER_RECORD Reg.VLT_STS_ENTROPY_OK _ (by decide) (by decide) rfl (by decide),
    State.flag, State.get_wr_ne _ _ _ (by decide), State.get_wr_ne _ _ _ (by decide), State.get_wr_ne _ _ _ (by decide), ← State.flag]

theorem RootsStand.counterEnded {s : State} (h : RootsStand s) : counterEnded (showRoot (entropyGood s)) = showRoot (entropyGood s) := by
  have same : counterEnd (showRoot (entropyGood s)).vlt = false := by
    rw [(showRoot_regsOnly _).vlt_eq, entropyGood_vlt]
    exact h.counts
  exact if_neg (by simp [same])

/-! ### The keys (R430, R435, R436) -/

/-- The vault with its roots read into shares. -/
def rootsRead (v : Vlt) (b : Bbs) (m : BitVec 512) : Vlt :=
  { v with root := shared (v.otp.root.getD 0) (m.truncate 256), secret := shared b.value (m.extractLsb' 256 256) }

/-- The vault with the keys of a life that has not ended. -/
def keysMade (v : Vlt) (m : BitVec 512) : Vlt :=
  { v with
    idKey := some (identityOf v),
    wrapKey := some (shared (wrapKeyOf v) (m.truncate 256)),
    blobKey := some (shared (blobKeyOf v) (m.extractLsb' 256 256)) }

theorem readRoots_vlt {s : State} {b : Bbs} (h : s.vlt.bbs = some b) : (readRoots s).vlt = rootsRead s.vlt b s.draw.1 := by
  have read : (readRoots s).vlt = { s.vlt with
      root := shared (s.vlt.otp.root.getD 0) (s.draw.1.truncate 256),
      secret := match s.vlt.bbs with | some b => shared b.value (s.draw.1.extractLsb' 256 256) | none => s.vlt.secret } := rfl
  rw [read, h, rootsRead]

theorem deriveKeys_vlt {s : State} (h : lcCode s.vlt.otp ≠ 5) : (deriveKeys s).vlt = keysMade s.vlt s.draw.1 := by
  have made : (deriveKeys s).vlt = { s.vlt with
      idKey := some (identityOf s.vlt),
      wrapKey := if decide (lcCode s.vlt.otp = 5) = true then none else some (shared (wrapKeyOf s.vlt) (s.draw.1.truncate 256)),
      blobKey := if decide (lcCode s.vlt.otp = 5) = true then none else some (shared (blobKeyOf s.vlt) (s.draw.1.extractLsb' 256 256)) } := rfl
  rw [made, decide_eq_false h, if_neg Bool.false_ne_true, if_neg Bool.false_ne_true, keysMade]

/-- What stage 3 leaves in the vault of the roots v and the secret b. -/
structure KeysStand (v : Vlt) (b : Bbs) (w : Vlt) : Prop where
  drbg : w.drbgRun = true
  root : w.root.value = v.otp.root.getD 0
  secret : w.secret.value = b.value
  wrap : w.wrapKey.map Shares.value = some (wrapKeyOf w)
  blob : w.blobKey.map Shares.value = some (blobKeyOf w)
  identity : w.idKey = some (identityOf w)
  otp : w.otp = v.otp
  bbs : w.bbs = v.bbs

theorem keysMade_stand {v : Vlt} (b : Bbs) (h : v.drbgRun = true) (m n : BitVec 512) : KeysStand v b (keysMade (rootsRead v b m) n) where
  drbg := h
  root := shared_value _ _
  secret := shared_value _ _
  wrap := congrArg some (shared_value _ _)
  blob := congrArg some (shared_value _ _)
  identity := rfl
  otp := rfl
  bbs := rfl

/-! ### Values drawn for the challenge and the mask generators (R432, R459) -/

/-- One value drawn: the vault counts it and may seed a core, and VLT_STS stays. -/
structure DrawnOne (s t : State) : Prop where
  counted : t.vlt.requests = s.vlt.requests + 1
  vault : ∃ n a b, t.vlt = { s.vlt with requests := n, c0 := a, c1 := b }
  status : t.rd Reg.VLT_STS = s.rd Reg.VLT_STS

theorem KeysStand.drawn {v : Vlt} {b : Bbs} {s t : State} (h : KeysStand v b s.vlt) (k : DrawnOne s t) : KeysStand v b t.vlt := by
  obtain ⟨n, c0, c1, vault⟩ := k.vault
  rw [vault]
  exact ⟨h.drbg, h.root, h.secret, h.wrap, h.blob, h.identity, h.otp, h.bbs⟩

section
variable {s : State} (few : s.vlt.requests + 1 < 2 ^ 20)
include few

theorem drbg_counted : s.drbg.2 = { s.draw.2 with vlt := { s.vlt with requests := s.vlt.requests + 1 } } :=
  (apply_ite Prod.snd _ _ _).trans (if_pos few)

theorem drbg_drawn : DrawnOne s s.drbg.2 := by
  rw [drbg_counted few]
  exact ⟨rfl, ⟨_, _, _, rfl⟩, rfl⟩

theorem newChallenge_drawn : DrawnOne s (newChallenge s) := by
  have drawn := drbg_drawn few
  have vlt : (newChallenge s).vlt = s.drbg.2.vlt := (wrs_regsOnly _ s.drbg.2 _).vlt_eq
  have status : (newChallenge s).rd Reg.VLT_STS = s.drbg.2.rd Reg.VLT_STS := rd_wrs_ne _ _ fun i hi => by
    rw [bytesWords, List.length_map, List.length_range] at hi
    simp only [Reg.VLT_STS, Reg.CTL_ARB_CHALLENGE]
    omega
  refine ⟨?_, ?_, status.trans drawn.status⟩
  · rw [vlt, drawn.counted]
  · rw [vlt]
    exact drawn.vault

/-- The core of channel c, in service and seeded. -/
def testedChan (v : BitVec 512) : UceChan :=
  { idleChan with coreOk := true, core := { inService := true, queue := [], seeded := true, seed := v.truncate 256 } }

omit few in
theorem uceKat_passes (s : State) (c : Nat) : uceKat s c true =
    s.drbg.2.modVlt (fun v => if c = 0 then { v with c0 := testedChan s.drbg.1 } else { v with c1 := testedChan s.drbg.1 }) := rfl

theorem uceKat_drawn (c : Nat) : DrawnOne s (uceKat s c true) := by
  have drawn := drbg_drawn few
  obtain ⟨n, a, b, vault⟩ := drawn.vault
  have seeds (h : UceChan) : DrawnOne s (s.drbg.2.modVlt (fun v => if c = 0 then { v with c0 := h } else { v with c1 := h })) := by
    refine ⟨?_, ?_, (State.modVlt_rd _ _ _).trans drawn.status⟩
    · rw [State.modVlt_vlt, ← drawn.counted]
      split <;> rfl
    · rw [State.modVlt_vlt, vault]
      split
      · exact ⟨n, h, b, rfl⟩
      · exact ⟨n, a, h, rfl⟩
  rw [uceKat_passes]
  exact seeds _

end

/-! ### The end of stage 3 -/

/-- The vault's keys are derived, before the values drawn of its DRBG. -/
def keysDerived (s : State) : State := filterSecret (identityShown (deriveKeys (readRoots (showRoot (entropyGood s)))))

theorem identityShown_vlt (s : State) : (identityShown s).vlt = s.vlt := (wrs_regsOnly _ _ _).vlt_eq

theorem identityShown_status (s : State) : (identityShown s).rd Reg.VLT_STS = s.rd Reg.VLT_STS := rd_wrs_ne _ _ fun i hi => by
  rw [bytesWords, List.length_map, List.length_range] at hi
  simp only [Reg.VLT_STS, Reg.VLT_ID_PUB]
  omega

theorem filterSecret_vlt (s : State) : (filterSecret s).vlt = s.vlt := rfl

theorem filterSecret_rd (s : State) (a : Nat) : (filterSecret s).rd a = s.rd a := rfl

theorem deriveKeys_rd (s : State) (a : Nat) : (deriveKeys s).rd a = s.rd a := rfl

theorem readRoots_rd (s : State) (a : Nat) : (readRoots s).rd a = s.rd a := rfl

theorem keysDerived_status (s : State) : (keysDerived s).rd Reg.VLT_STS = (showRoot (entropyGood s)).rd Reg.VLT_STS := by
  rw [keysDerived, filterSecret_rd, identityShown_status, deriveKeys_rd, readRoots_rd]

theorem RootsStand.keysDerived {s : State} (h : RootsStand s) {b : Bbs} (secret : s.vlt.bbs = some b) :
    KeysStand s.vlt b (keysDerived s).vlt ∧ (keysDerived s).vlt.requests = 0 := by
  have base : (showRoot (entropyGood s)).vlt = { s.vlt with drbgRun := true, requests := 0 } :=
    (showRoot_regsOnly _).vlt_eq.trans (entropyGood_vlt s)
  have read : (readRoots (showRoot (entropyGood s))).vlt = rootsRead { s.vlt with drbgRun := true, requests := 0 } b (showRoot (entropyGood s)).draw.1 := by
    rw [readRoots_vlt (b := b) (by rw [base]; exact secret), base]
  have life : lcCode (readRoots (showRoot (entropyGood s))).vlt.otp ≠ 5 := by
    rw [read]
    exact fun e => absurd (h.owned.symm.trans e) (by decide)
  have made : (Machine.keysDerived s).vlt = keysMade (rootsRead { s.vlt with drbgRun := true, requests := 0 } b (showRoot (entropyGood s)).draw.1)
      (readRoots (showRoot (entropyGood s))).draw.1 := by
    rw [Machine.keysDerived, filterSecret_vlt, identityShown_vlt, deriveKeys_vlt life, read]
  have stand := keysMade_stand (v := { s.vlt with drbgRun := true, requests := 0 }) b rfl (showRoot (entropyGood s)).draw.1
    (readRoots (showRoot (entropyGood s))).draw.1
  rw [made]
  exact ⟨⟨stand.drbg, stand.root, stand.secret, stand.wrap, stand.blob, stand.identity, stand.otp, stand.bbs⟩, rfl⟩

/-- The vault's values are drawn: a fresh challenge and the seeds of both cores. -/
def valuesDrawn (s : State) : State := uceKat (uceKat (newChallenge s.drbg.2) 0 true) 1 true

theorem valuesDrawn_keeps {v : Vlt} {b : Bbs} {s : State} (h : KeysStand v b s.vlt) (zero : s.vlt.requests = 0) :
    KeysStand v b (valuesDrawn s).vlt ∧ (valuesDrawn s).rd Reg.VLT_STS = s.rd Reg.VLT_STS := by
  have first := drbg_drawn (s := s) (by omega)
  have one := first.counted
  have second := newChallenge_drawn (s := s.drbg.2) (by omega)
  have two := second.counted
  have third := uceKat_drawn (s := newChallenge s.drbg.2) (by omega) 0
  have three := third.counted
  have fourth := uceKat_drawn (s := uceKat (newChallenge s.drbg.2) 0 true) (by omega) 1
  exact ⟨(((h.drawn first).drawn second).drawn third).drawn fourth,
    fourth.status.trans (third.status.trans (second.status.trans first.status))⟩

theorem keysReady_vlt (s : State) : (keysReady s).vlt = s.vlt := (((RegsOnly.refl s).setFlag _ _).set _ _).vlt_eq

theorem keysReady_fields (s : State) : (keysReady s).stage = 4 ∧ (keysReady s).flag Reg.VLT_STS_KEYS_READY = true ∧
    (keysReady s).flag Reg.VLT_STS_ENTROPY_OK = s.flag Reg.VLT_STS_ENTROPY_OK := by
  refine ⟨toStage_stage _ (by decide), ?_, ?_⟩
  · rw [keysReady, State.toStage, State.flag_set_off _ _ _ _ (by decide)]
    exact State.flag_setFlag _ _ _ rfl (by decide)
  · rw [keysReady, State.toStage, State.flag_set_off _ _ _ _ (by decide), State.setFlag,
      State.flag_set_apart _ Reg.VLT_STS_KEYS_READY Reg.VLT_STS_ENTROPY_OK _ (by decide) (by decide) rfl (by decide)]

theorem RootsStand.vaultStageOp {s : State} (h : RootsStand s) (three : s.stage = 3) (rails : s.frozenRails = false) :
    vaultStageOp true true 0 3 s = keysReady (valuesDrawn (Machine.keysDerived s)) := by
  rw [vaultStageOp_passes three rails, h.rootMaterial, h.counterEnded]
  rfl

/-- Stage 3 of an owned part whose roots need nothing. -/
theorem RootsStand.ready {s : State} (h : RootsStand s) {b : Bbs} (secret : s.vlt.bbs = some b) :
    let t := keysReady (valuesDrawn (Machine.keysDerived s))
    t.stage = 4 ∧ t.flag Reg.VLT_STS_KEYS_READY = true ∧ t.flag Reg.VLT_STS_ENTROPY_OK = true ∧ KeysStand s.vlt b t.vlt := by
  obtain ⟨stand, zero⟩ := h.keysDerived secret
  obtain ⟨keys, status⟩ := valuesDrawn_keeps stand zero
  obtain ⟨stage, ready, entropy⟩ := keysReady_fields (valuesDrawn (Machine.keysDerived s))
  refine ⟨stage, ready, entropy.trans ?_, by rwa [keysReady_vlt]⟩
  have shown := congrArg (fun w => bits w Reg.VLT_STS_ENTROPY_OK.hi Reg.VLT_STS_ENTROPY_OK.lo != 0) (status.trans (keysDerived_status s))
  exact shown.trans ((showRoot_ok _).trans (entropyGood_ok s))

theorem vaultStageOp_elsewhere {s : State} (h : s.stage ≠ 3) (entropy burn : Bool) (weak : Nat) (kat : BitVec 2) :
    vaultStageOp entropy burn weak kat s = s := if_pos (.inl h)

end Sys2Proof.Machine
end

section
/-! SUPPORT. Stage 4 of start-up (11 R391, R392, R408, R421), and the obligation about start-up. -/

namespace Sys2Proof.Machine

/-! ### What draws and events leave of fuses, memory and records -/

/-- The fuses, what memory holds and the association records stay. -/
structure StoreKept (s t : State) : Prop where
  otp : t.vlt.otp = s.vlt.otp
  lines : t.mgd.lines = s.mgd.lines
  recs : t.asc.recs = s.asc.recs

theorem StoreKept.trans {s t u : State} (h : StoreKept s t) (k : StoreKept t u) : StoreKept s u :=
  ⟨k.otp.trans h.otp, k.lines.trans h.lines, k.recs.trans h.recs⟩

theorem SameWork.storeKept {s t : State} (h : SameWork s t) : StoreKept s t :=
  ⟨(congrArg (fun x : State => x.vlt.otp) h).trans rfl, h.lines, (congrArg (fun x : State => x.asc.recs) h).trans rfl⟩

theorem RegsOnly.storeKept {s t : State} (h : RegsOnly s t) : StoreKept s t :=
  ⟨(congrArg (fun x : State => x.vlt.otp) h).trans rfl, (congrArg (fun x : State => x.mgd.lines) h).trans rfl,
    (congrArg (fun x : State => x.asc.recs) h).trans rfl⟩

theorem drbg_storeKept (s : State) : StoreKept s s.drbg.2 := by
  have drawn (n : Nat) : StoreKept s { s.draw.2 with vlt := { s.vlt with requests := n } } := ⟨rfl, rfl, rfl⟩
  have counted : s.drbg.2 = if s.vlt.requests + 1 < 2 ^ 20 then { s.draw.2 with vlt := { s.vlt with requests := s.vlt.requests + 1 } }
      else ({ s.draw.2 with vlt := { s.vlt with requests := 0 } } : State).inc Reg.VLT_DRBG_RESEEDS := apply_ite Prod.snd _ _ _
  rw [counted]
  split
  · exact drawn _
  · exact (drawn 0).trans (inc_work _ _).storeKept

/-! ### Training (R391, R392) -/

/-- The rate and the capacity as training found them. -/
def rateFound (s : State) (rate : Nat) : State :=
  ((s.set Reg.MGD_DDR_STS_RATE rate).set Reg.MGD_DDR_STS_C_GIB
    (subchannels (s.get Reg.MGD_DDR_STS_SUBCH) * capGib (s.get Reg.MGD_DDR_STS_CAP))).setFlag Reg.MGD_STS_TRAINED true

/-- Memory trained at a rate, with the tree's depth shown. -/
def trained (s : State) (rate : Nat) : State := (rateFound s rate).set Reg.MGD_STS_DEPTH (rateFound s rate).levels.length

theorem trained_regsOnly (s : State) (rate : Nat) : RegsOnly s (trained s rate) :=
  ((((RegsOnly.refl s).set _ _).set _ _).setFlag _ _).set _ _

theorem trained_rate (s : State) {rate : Nat} (h : rate < 4) : (trained s rate).get Reg.MGD_DDR_STS_RATE = rate := by
  rw [trained, State.get_set_off _ _ _ _ (by decide), rateFound, State.setFlag, State.get_set_off _ _ _ _ (by decide),
    State.get_set_beside _ (by decide), State.get_set_lt _ _ (by decide) (by decide) h]

/-- A resume of what the retention store kept. -/
def resumed (s : State) : State :=
  let held := s.mgd.ret.regions.filter (fun e => e.2.keep)
  let s := s.modRet (fun t => { t with regions := held })
  stage4Done (held.foldl (fun s e => s.wr (Reg.MGD_RGN_STS e.1) (word [(Reg.MGD_RGN_STS_STATE 0, 1), (Reg.MGD_RGN_STS_GEN 0, e.2.gen)]))
    (resetOthers s))

/-- A resume whose pinned levels do not verify. -/
def resumeFailed (s : State) : State := stageFail ((haltRec s 0x6001 255 0).modRet (fun t => { t with poison := true })) 4 0x6001

theorem memoryInitOp_eq (rate : Nat) (ok : Bool) (s : State) : memoryInitOp rate ok s =
    if s.stage ≠ 4 then s
    else if s.get Reg.MGD_DDR_STS_SUBCH = 3 ∨ s.get Reg.MGD_DDR_STS_CAP = 3 ∨ rate = 0 then trainFail s
    else if (trained s rate).mayResume = true then (if ok = true then resumed (trained s rate) else resumeFailed (trained s rate))
    else stage4Done (freshStart (trained s rate)) := rfl

theorem memoryInitOp_fresh {s : State} (h : s.stage = 4) (sub : s.get Reg.MGD_DDR_STS_SUBCH ≠ 3) (cap : s.get Reg.MGD_DDR_STS_CAP ≠ 3)
    {rate : Nat} (found : rate ≠ 0) (unsealed : s.mgd.ret.isSealed = false) (ok : Bool) :
    memoryInitOp rate ok s = stage4Done (freshStart (trained s rate)) := by
  have ret : (trained s rate).mgd.ret.isSealed = false := by
    rw [(congrArg (fun x : State => x.mgd.ret.isSealed) (trained_regsOnly s rate)).trans rfl]
    exact unsealed
  have fresh : (trained s rate).mayResume = false := by simp [State.mayResume, ret]
  rw [memoryInitOp_eq, if_neg (not_not.2 h), if_neg (not_or.2 ⟨sub, not_or.2 ⟨cap, found⟩⟩), if_neg (by simp [fresh])]

theorem memoryInitOp_elsewhere {s : State} (h : s.stage ≠ 4) (rate : Nat) (ok : Bool) : memoryInitOp rate ok s = s := if_pos h

/-! ### A fresh start (R421) -/

/-- The data space unwritten under an epoch, before it is shown. -/
def spaceCleared (s : State) (epoch : BitVec 64) : State :=
  (s.modMgd (fun m => { m with
    ret := { clearRetention with epoch := epoch, crcOk := true }
    lines := [], ctrs := [], tree := [], dirty := [], badLines := [] })).modAsc (fun x => { x with recs := [] })

theorem spaceCleared_rd (s : State) (epoch : BitVec 64) (a : Nat) : (spaceCleared s epoch).rd a = s.rd a := rfl

theorem freshStart_eq (s : State) : freshStart s =
    raise0 ((spaceCleared s.drbg.2 (s.drbg.1.truncate 64)).setFlag Reg.MGD_STS_FRESH true) 0x600C 0 := rfl

theorem freshStart_store (s : State) :
    (freshStart s).vlt.otp = s.vlt.otp ∧ (freshStart s).mgd.lines = [] ∧ (freshStart s).asc.recs = [] := by
  have shown (t : State) : StoreKept t (raise0 (t.setFlag Reg.MGD_STS_FRESH true) 0x600C 0) :=
    (RegsOnly.storeKept ((RegsOnly.refl t).setFlag _ _)).trans (raise0_work _ _ _).storeKept
  have cleared (t : State) (epoch : BitVec 64) : (spaceCleared t epoch).vlt.otp = t.vlt.otp ∧ (spaceCleared t epoch).mgd.lines = [] ∧
      (spaceCleared t epoch).asc.recs = [] := ⟨rfl, rfl, rfl⟩
  obtain ⟨otp, lines, recs⟩ := cleared s.drbg.2 (s.drbg.1.truncate 64)
  have kept := shown (spaceCleared s.drbg.2 (s.drbg.1.truncate 64))
  rw [freshStart_eq]
  exact ⟨kept.otp.trans (otp.trans (drbg_storeKept s).otp), kept.lines.trans lines, kept.recs.trans recs⟩

theorem freshStart_rd (s : State) {a : Nat} (drawn : a ∉ eventRegs 0x8001) (raised : a ∉ eventRegs 0x600C) (h : a ≠ Reg.MGD_STS) :
    (freshStart s).rd a = s.rd a := by
  rw [freshStart_eq, raise0_rd _ _ _ raised, rd_setFlag_ne _ _ _ h, spaceCleared_rd, drbg_rd s drawn]

/-! ### The end of stage 4 (R408, R421) -/

/-- The guard's ephemeral pair in place, over memory that is no longer sealed. -/
def pairDrawn (s : State) (v n : BitVec 512) : State :=
  (s.modMgd (fun m => { m with
    keysGone := false, ephemeral := { enc := v.extractLsb' 256 256, mac := v.truncate 256 }, nonce0 := n.truncate 64 })).modRet
    (fun t => { t with isSealed := false, lc := BitVec.ofNat 8 (lcCode s.vlt.otp) })

theorem pairDrawn_storeKept (s : State) (v n : BitVec 512) : StoreKept s (pairDrawn s v n) := ⟨rfl, rfl, rfl⟩

theorem pairDrawn_rd (s : State) (v n : BitVec 512) (a : Nat) : (pairDrawn s v n).rd a = s.rd a := rfl

theorem pairDrawn_unsealed (s : State) (v n : BitVec 512) : (pairDrawn s v n).mgd.ret.isSealed = false := rfl

theorem stage4Done_eq (s : State) : stage4Done s =
    (pairDrawn (rgnService s 0 0 false true).drbg.2.drbg.2 (rgnService s 0 0 false true).drbg.1
      (rgnService s 0 0 false true).drbg.2.drbg.1).toStage 5 := rfl

theorem rgnService_regsOnly (s : State) (r gen : Nat) (resumed ephemeral : Bool) : RegsOnly s (rgnService s r gen resumed ephemeral) :=
  (RegsOnly.refl s).wr _ _

theorem toStage_regsOnly (s : State) (n : Nat) : RegsOnly s (s.toStage n) := (RegsOnly.refl s).set _ _

theorem stage4Done_storeKept (s : State) : StoreKept s (stage4Done s) := by
  rw [stage4Done_eq]
  exact (((((rgnService_regsOnly s 0 0 false true).storeKept.trans (drbg_storeKept _)).trans (drbg_storeKept _)).trans
    (pairDrawn_storeKept _ _ _)).trans (toStage_regsOnly _ _).storeKept)

theorem stage4Done_unsealed (s : State) : (stage4Done s).mgd.ret.isSealed = false := by
  rw [stage4Done_eq, (congrArg (fun x : State => x.mgd.ret.isSealed) (toStage_regsOnly _ 5)).trans rfl]
  exact pairDrawn_unsealed _ _ _

theorem stage4Done_stage (s : State) : (stage4Done s).stage = 5 := by
  rw [stage4Done_eq]
  exact toStage_stage _ (by decide)

theorem stage4Done_rd (s : State) {a : Nat} (h : a ∉ eventRegs 0x8001) (k : a ≠ Reg.CTL_BOOT) :
    (stage4Done s).rd a = (rgnService s 0 0 false true).rd a := by
  rw [stage4Done_eq, State.toStage, State.rd_set_ne _ _ _ k, pairDrawn_rd, drbg_rd _ h, drbg_rd _ h]

/-- Region 0 is served under its ephemeral pair. -/
theorem stage4Done_region (s : State) : (stage4Done s).rgnState 0 = 2 ∧ (stage4Done s).get (Reg.MGD_RGN_STS_EPHEMERAL 0) = 1 := by
  have word (f : Field) (o : f.off = Reg.MGD_RGN_STS 0) : (stage4Done s).get f = fieldOf f (word [(Reg.MGD_RGN_STS_STATE 0, 2),
      (Reg.MGD_RGN_STS_RESUMED 0, b2n false), (Reg.MGD_RGN_STS_EPHEMERAL 0, b2n true), (Reg.MGD_RGN_STS_GEN 0, 0)]) := by
    have read := stage4Done_rd s (a := Reg.MGD_RGN_STS 0) (by decide +kernel) (by decide)
    rw [State.get, o, read, rgnService, State.rd_wr, fieldOf]
  exact ⟨(word _ rfl).trans (fieldOf_word_at [] rfl (by decide) (by decide) (by decide)),
    (word _ rfl).trans (fieldOf_word_at [_, _] rfl (by decide) (by decide) (by decide))⟩

/-- Memory that starts afresh at a rate (R391, R408, R421). -/
theorem fresh_leaves (s : State) {rate : Nat} (h : rate < 4) : let t := stage4Done (freshStart (trained s rate))
    t.stage = 5 ∧ t.rgnState 0 = 2 ∧ t.get (Reg.MGD_RGN_STS_EPHEMERAL 0) = 1 ∧ t.mgd.lines = [] ∧ t.mgd.ret.isSealed = false ∧
    t.asc.recs = [] ∧ t.get Reg.MGD_DDR_STS_RATE = rate ∧ t.vlt.otp = s.vlt.otp := by
  obtain ⟨service, ephemeral⟩ := stage4Done_region (freshStart (trained s rate))
  obtain ⟨otp, lines, recs⟩ := freshStart_store (trained s rate)
  have kept := stage4Done_storeKept (freshStart (trained s rate))
  have shown : (stage4Done (freshStart (trained s rate))).rd Reg.MGD_DDR_STS = (trained s rate).rd Reg.MGD_DDR_STS := by
    rw [stage4Done_rd _ (by decide +kernel) (by decide), rgnService, State.rd_wr_ne _ _ (by decide),
      freshStart_rd _ (by decide +kernel) (by decide +kernel) (by decide)]
  have rateShown := congrArg (fun w => bits w Reg.MGD_DDR_STS_RATE.hi Reg.MGD_DDR_STS_RATE.lo) shown
  exact ⟨stage4Done_stage _, service, ephemeral, kept.lines.trans lines, stage4Done_unsealed _, kept.recs.trans recs,
    rateShown.trans (trained_rate s h), kept.otp.trans (otp.trans (trained_regsOnly s rate).storeKept.otp)⟩

/-! ### Stages that stop -/

theorem trainFail_fields (s : State) : (trainFail s).stage = 15 ∧ (trainFail s).get Reg.CTL_BOOT_FAIL_STAGE = 4 ∧
    (trainFail s).get Reg.CTL_BOOT_FAIL = 0x600A := by
  obtain ⟨stage, failStage, fail⟩ := stageFail_fields s (n := 4) (ev := 0x600A) (by decide) (by decide)
  exact ⟨(raise0_stage _ _ _).trans stage, (raise0_boot bootField_failStage _ _ _).trans failStage,
    (raise0_boot bootField_fail _ _ _).trans fail⟩

theorem stage3Halt_fields {s : State} (h : FrozenHalted s) {ev : Nat} (small : ev < 65536) : (stage3Halt s ev).halted = true ∧
    (stage3Halt s ev).get Reg.CTL_BOOT_FAIL_STAGE = 3 ∧ (stage3Halt s ev).get Reg.CTL_BOOT_FAIL = ev := by
  obtain ⟨-, failStage, fail⟩ := stageFail_fields s (n := 3) (by decide) small
  have stopped : RegsOnly s (stageFail s 3 ev) := (((RegsOnly.refl s).set _ _).set _ _).set _ _
  exact ⟨raiseAt_halted (stopped.sameHalt.frozenHalted h) _ _ _ _, (raiseAt_boot bootField_failStage _ _ _ _ _ _).trans failStage,
    (raiseAt_boot bootField_fail _ _ _ _ _ _).trans fail⟩

/-! ### The always-on check's end -/

theorem withRings_get (m : SMap RingPower) (s : State) (f : Field) : (withRings m s).get f = s.get f := rfl

theorem withRings_ctl (m : SMap RingPower) (s : State) : (withRings m s).ctl = s.ctl := rfl

theorem withRings_vlt (m : SMap RingPower) (s : State) : (withRings m s).vlt = s.vlt := rfl

theorem withRings_evt (m : SMap RingPower) (s : State) : (withRings m s).evt = s.evt := rfl

theorem withRings_rings (m : SMap RingPower) (s : State) : (withRings m s).frm.rings = m := rfl

theorem ringsRoused_get (s : State) (f : Field) : (ringsRoused s).get f = s.get f := withRings_get _ s f

theorem ringsRoused_ctl (s : State) : (ringsRoused s).ctl = s.ctl := withRings_ctl _ s

theorem ringsRoused_vlt (s : State) : (ringsRoused s).vlt = s.vlt := withRings_vlt _ s

theorem ringsRoused_evt (s : State) : (ringsRoused s).evt = s.evt := withRings_evt _ s

theorem ringsRoused_rings (s : State) : (ringsRoused s).frm.rings = ringsWaking (List.range 32) s.frm.rings :=
  withRings_rings _ s

/-- The die released, its rings waking. -/
theorem roused_leaves (s : State) : let t := ringsRoused (dieReleased s)
    t.stage = 3 ∧ t.running = true ∧ t.vlt = s.vlt ∧ t.evt = s.evt ∧ ∀ r < 32, mlook .asleep r t.frm.rings = .waking := by
  have base := dieReleased_base s
  refine ⟨?_, ?_, ?_, ?_, fun r hr => ?_⟩
  · rw [State.stage, ringsRoused_get]
    exact toStage_stage _ (by decide)
  · rw [State.running, ringsRoused_ctl, (congrArg State.ctl base).trans rfl]
    rfl
  · rw [ringsRoused_vlt, (congrArg State.vlt base).trans rfl]
  · rw [ringsRoused_evt, (congrArg State.evt base).trans rfl]
  · rw [ringsRoused_rings]
    exact ringsWaking_waking _ _ (.inl (List.mem_range.2 hr))

end Sys2Proof.Machine

namespace Sys2Proof.Proofs
open Sys2Proof.Machine

/-- Settles O16: each stage's end by the branch of its operation that its conditions select. -/
theorem startUpStages : Obligations.StartUpStages := by
  constructor
  · intro s boot ddr ok reset
    have op {c : Instr} {u t : State} (e : exec c s = .next u) (k : u = t) : exec c s = .next t := e.trans (congrArg _ k)
    refine ⟨fun one rails => ?_, fun waits => op rfl (resetReleaseOp_waits waits boot ddr), fun two due latch => ?_, fun two due rails => ?_,
      fun other => op rfl (aonCheckOp_elsewhere other ok)⟩
    · obtain ⟨stage, mode, sub, cap⟩ := released_fields { s with ctl := { s.ctl with bootStrap := boot, ddrStrap := ddr } }
        (bootModeOf_lt boot.toNat (lcCode s.vlt.otp)) ddr.isLt
      have only := released_onlyRegs { s with ctl := { s.ctl with bootStrap := boot, ddrStrap := ddr } }
        (bootModeOf boot.toNat (lcCode s.vlt.otp)) ddr.toNat
      have ctl := only.ctl_eq
      exact ⟨_, op rfl (resetReleaseOp_releases reset one rails boot ddr), stage, mode, ctl, sub, cap, by rw [ctl]; exact only⟩
    · have clean := (aonCheckOp_clean reset two due ok).trans
        (leaveReset_clean (s := s.modAon (fun a => { a with pendingBurn := 0 })) latch s.evidence)
      exact ⟨_, op rfl clean, roused_leaves _⟩
    · obtain ⟨stage, failStage, fail⟩ := stageFail_fields s (n := 2) (ev := 0x040E) (by decide) (by decide)
      have only := stageFail_onlyRegs s 2 0x040E
      exact ⟨_, op rfl (aonCheckOp_fails reset two due rails), stage, failStage, fail, by rw [only.ctl_eq, reset],
        alarmLow_of_failStage (.inl failStage), only⟩
  · intro s weak kat rate ok b run
    have op {c : Instr} {f : State → State} {t : State} (e : exec c s = .next (live f s)) (k : f s = t) : exec c s = .next t :=
      e.trans (congrArg _ ((live_acts f run).trans k))
    refine ⟨fun three rails owned battery secret fresh none pass counts => ?_, fun other => op rfl (vaultStageOp_elsewhere other _ _ _ _),
      fun three live => ?_, fun four sub cap found unsealed => ?_, fun other => op rfl (memoryInitOp_elsewhere other _ _), fun four untrained => ?_,
      fun other => op rfl (if_neg fun h => ?_), fun nine normal => op rfl (if_pos ⟨nine, normal⟩),
      fun other => op rfl (if_neg fun h => other.elim (· h.1) (· h.2))⟩
    · subst none pass
      have stands : RootsStand s := ⟨owned, battery, fresh, counts⟩
      obtain ⟨stage, ready, entropy, keys⟩ := stands.ready secret
      exact ⟨_, op rfl (stands.vaultStageOp three rails), stage, ready, entropy, keys.drbg, keys.root, keys.secret, keys.wrap, keys.blob,
        keys.identity, keys.otp, keys.bbs⟩
    · have sound : FrozenHalted (s.inc Reg.VLT_ENTROPY_FAILS) := inc_frozenHalted (fun frozen => absurd (live.symm.trans frozen) (by decide)) _
      exact ⟨_, op rfl (if_pos three), stage3Halt_fields sound (by decide)⟩
    · have nonzero : rate.toNat ≠ 0 := fun e => found (BitVec.eq_of_toNat_eq e)
      exact ⟨_, op rfl (memoryInitOp_fresh four sub cap nonzero unsealed ok), fresh_leaves s rate.isLt⟩
    · obtain ⟨stage, failStage, fail⟩ := trainFail_fields s
      exact ⟨_, op rfl (if_pos ⟨four, untrained⟩), stage, failStage, fail, alarmLow_of_failStage (.inr failStage)⟩
    · exact other.elim (· h.1) (fun shown => absurd (shown.symm.trans h.2) (by decide))

end Sys2Proof.Proofs
end

section
/-! SUPPORT. Lanes: their registers apart from each other, a change made one by one, what is known of a lane, the lane map under other
writes, and what taking a state, a reason and an adaptation leave (03 R97, R101, R119, R121, R134). -/

namespace Sys2Proof.Machine

/-! ### Commands of a running device -/

/-- A command that acts only while the device runs, on one that does. -/
theorem exec_of_live {s t : State} {c : Instr} {f : State → State} (run : s.running = true) (e : exec c s = .next (live f s)) (acts : f s = t) :
    exec c s = .next t := e.trans (congrArg _ ((live_acts f run).trans acts))

/-! ### Registers of lanes -/

/-- Different places of two lanes' windows are different registers, be the lanes the same or not (R97). -/
theorem lnBase_apart (u : LaneUnit) (i j : Nat) {a b : Nat} (ha : a < 0x1000) (hb : b < 0x1000) (h : a ≠ b) :
    lnBase u i + a ≠ lnBase u j + b := by
  unfold lnBase
  omega

/-- One place of two lanes' windows is two registers (R97). -/
theorem lnBase_other (u : LaneUnit) {i j : Nat} (h : i ≠ j) (a : Nat) : lnBase u i + a ≠ lnBase u j + a := by
  unfold lnBase
  omega

/-- A field lies within its word. -/
def Field.whole (g : Field) : Bool := decide (g.lo ≤ g.hi) && decide (g.hi < 32)

/-- A field lies within its word, and its bits are none of another's. -/
def Field.beside (g f : Field) : Bool := g.whole && (decide (g.hi < f.lo) || decide (f.hi < g.lo))

/-- A field is one bit of its word. -/
def Field.isBit (g : Field) : Bool := decide (g.lo = g.hi) && decide (g.hi < 32)

/-- A field beside the one stored keeps its value, be they in one register or in two. -/
theorem State.get_set_other {g f : Field} (h : g.beside f = true) (s : State) (v : Nat) : (s.set g v).get f = s.get f := by
  simp only [Field.beside, Field.whole, Bool.and_eq_true, Bool.or_eq_true, decide_eq_true_eq] at h
  obtain ⟨⟨ordered, small⟩, bits⟩ := h
  by_cases off : f.off = g.off
  · exact s.get_set_apart g f v ordered small off bits
  · exact s.get_set_off g f v off

theorem State.get_set_held {g : Field} (h : g.whole = true) (s : State) {v : Nat} (hv : v < 2 ^ (g.hi + 1 - g.lo)) : (s.set g v).get g = v := by
  simp only [Field.whole, Bool.and_eq_true, decide_eq_true_eq] at h
  exact s.get_set_lt g h.1 h.2 hv

theorem State.flag_of_get {s t : State} {f : Field} (h : t.get f = s.get f) : t.flag f = s.flag f := by
  rw [State.flag, State.flag, h]

theorem State.flag_setFlag_other {g f : Field} (h : g.beside f = true) (s : State) (b : Bool) : (s.setFlag g b).flag f = s.flag f :=
  State.flag_of_get (State.get_set_other h s _)

theorem State.flag_setFlag_held {g : Field} (h : g.isBit = true) (s : State) (b : Bool) : (s.setFlag g b).flag g = b := by
  simp only [Field.isBit, Bool.and_eq_true, decide_eq_true_eq] at h
  exact s.flag_setFlag g b h.1 h.2

/-! ### A change made one by one -/

/-- What no change of a row touches, the row leaves. -/
theorem foldl_keeps {α β : Type} {f : State → α → State} (obs : State → β) {l : List α}
    (keep : ∀ t, ∀ x ∈ l, obs (f t x) = obs t) (s : State) : obs (l.foldl f s) = obs s := by
  induction l generalizing s with
  | nil => rfl
  | cons x l ih =>
    rw [List.foldl_cons, ih fun t y m => keep t y (List.mem_cons_of_mem x m)]
    exact keep s x List.mem_cons_self

/-- What one member's change brings about and no other member's touches, the row brings about. -/
theorem foldl_reaches {α β : Type} {f : State → α → State} (obs : State → β) {v : β} {x : α} (hit : ∀ t, obs (f t x) = v)
    (keep : ∀ t y, y ≠ x → obs (f t y) = obs t) {l : List α} (m : x ∈ l) (s : State) : obs (l.foldl f s) = v := by
  induction l generalizing s with
  | nil => exact absurd m List.not_mem_nil
  | cons y l ih =>
    rw [List.foldl_cons]
    by_cases later : x ∈ l
    · exact ih later _
    · have here : x = y := (List.mem_cons.1 m).resolve_right later
      rw [foldl_keeps obs fun t z hz => keep t z fun e => later (e ▸ hz), ← here]
      exact hit s

theorem OnlyRegs.foldl {α : Type} {f : State → α → State} {offs : List Nat} {l : List α}
    (step : ∀ t, ∀ x ∈ l, OnlyRegs offs t (f t x)) (s : State) : OnlyRegs offs s (l.foldl f s) := by
  induction l generalizing s with
  | nil => exact OnlyRegs.refl _ _
  | cons x l ih => exact (step s x List.mem_cons_self).trans (ih (fun t y m => step t y (List.mem_cons_of_mem x m)) _)

/-! ### Nothing but the named registers -/

theorem OnlyRegs.withLanes {offs : List Nat} {s t : State} (h : OnlyRegs offs s t) (x : Lanes) :
    OnlyRegs offs { s with lanes := x } { t with lanes := x } := by
  refine ⟨?_, h.2⟩
  exact congrArg (fun v : State => { v with lanes := x }) h.1

theorem OnlyRegs.withDraws {offs : List Nat} {s t : State} (h : OnlyRegs offs s t) (n : Nat) :
    OnlyRegs offs { s with draws := n } { t with draws := n } := by
  refine ⟨?_, h.2⟩
  exact congrArg (fun v : State => { v with draws := n }) h.1

/-! ### What is known of a lane -/

theorem State.lane_of_lanes {s t : State} (h : t.lanes = s.lanes) (u : LaneUnit) (j : Nat) : t.lane u j = s.lane u j := by
  rw [State.lane, State.lane, h]

@[simp] theorem State.lane_modLane (s : State) (u : LaneUnit) (j : Nat) (f : LaneState → LaneState) :
    (s.modLane u j f).lane u j = f (s.lane u j) := mlook_mstore_same _ _ _ _

theorem State.lane_modLane_ne (s : State) (u : LaneUnit) {i j : Nat} (h : i ≠ j) (f : LaneState → LaneState) :
    (s.modLane u j f).lane u i = s.lane u i :=
  mlook_mstore_ne _ _ _ _ (by unfold laneKey; omega)

/-- Every lane of a row that is given one state has it. -/
theorem modLanes_lane {u : LaneUnit} {js : List Nat} {j : Nat} (m : j ∈ js) (s : State) (x : LaneState) :
    (modLanes s u js (fun _ => x)).lane u j = x :=
  foldl_reaches (fun t => t.lane u j) (fun t => t.lane_modLane u j _) (fun t _ ne => t.lane_modLane_ne u (Ne.symm ne) _) m s

theorem modLanes_regs (s : State) (u : LaneUnit) (js : List Nat) (f : LaneState → LaneState) : (modLanes s u js f).regs = s.regs :=
  foldl_keeps State.regs (fun t _ _ => t.modLane_regs u _ f) s

theorem modLanes_cnt (s : State) (u : LaneUnit) (js : List Nat) (f : LaneState → LaneState) : (modLanes s u js f).cnt = s.cnt :=
  foldl_keeps State.cnt (fun t _ _ => t.modLane_cnt u _ f) s

/-! ### The lane map -/

section Map
variable {s t : State} {u : LaneUnit} {j : Nat}

theorem State.get_of_rd {f : Field} (h : t.rd f.off = s.rd f.off) : t.get f = s.get f := by rw [State.get, State.get, h]

theorem State.portOf_of_cfg (h : t.rd (Reg.LN_CFG (lnBase u j)) = s.rd (Reg.LN_CFG (lnBase u j))) : t.portOf u j = s.portOf u j := by
  have mode : t.laneMode u j = s.laneMode u j := State.get_of_rd h
  have width : t.get (Reg.LN_CFG_WIDTH (lnBase u j)) = s.get (Reg.LN_CFG_WIDTH (lnBase u j)) := State.get_of_rd h
  simp only [State.portOf, State.laneWidth, mode, width]

theorem State.portLanes_of_cfg (h : t.rd (Reg.LN_CFG (lnBase u j)) = s.rd (Reg.LN_CFG (lnBase u j))) :
    t.portLanes u j = s.portLanes u j := by
  have width : t.get (Reg.LN_CFG_WIDTH (lnBase u j)) = s.get (Reg.LN_CFG_WIDTH (lnBase u j)) := State.get_of_rd h
  simp only [State.portLanes, State.laneWidth, width]

theorem State.policy_of_cfg (h : t.rd (Reg.LN_CFG (lnBase u j)) = s.rd (Reg.LN_CFG (lnBase u j))) : t.policy u j = s.policy u j :=
  State.get_of_rd h

theorem State.startState_of_setup (cfg : t.rd (Reg.LN_CFG (lnBase u j)) = s.rd (Reg.LN_CFG (lnBase u j)))
    (train : t.rd (Reg.LN_TRAIN (lnBase u j)) = s.rd (Reg.LN_TRAIN (lnBase u j))) : t.startState u j = s.startState u j := by
  have off : t.flag (Reg.LN_TRAIN_TRAIN_OFF (lnBase u j)) = s.flag (Reg.LN_TRAIN_TRAIN_OFF (lnBase u j)) :=
    State.flag_of_get (State.get_of_rd train)
  simp only [State.startState, State.policy_of_cfg cfg, off]

theorem State.startRung_of_setup (cfg : t.rd (Reg.LN_CFG (lnBase u j)) = s.rd (Reg.LN_CFG (lnBase u j)))
    (train : t.rd (Reg.LN_TRAIN (lnBase u j)) = s.rd (Reg.LN_TRAIN (lnBase u j))) : t.startRung u j = s.startRung u j := by
  simp only [State.startRung, State.policy_of_cfg cfg, State.startState_of_setup cfg train]

end Map

theorem State.mem_portLanes (s : State) (u : LaneUnit) (k : Nat) : k ∈ s.portLanes u k :=
  List.mem_map.2 ⟨0, List.mem_range.2 (Nat.two_pow_pos _), rfl⟩

theorem State.startState_lt (s : State) (u : LaneUnit) (k : Nat) : s.startState u k < 16 := by
  unfold State.startState
  split
  · decide
  · decide
  · split <;> decide

theorem State.startRung_lt (s : State) (u : LaneUnit) (k : Nat) : s.startRung u k < 8 := by
  unfold State.startRung
  split
  · decide
  · split <;> decide

/-! ### Taking a state, and a reason -/

/-- The status registers of lanes. -/
def statusRegs (u : LaneUnit) (js : List Nat) : List Nat := js.map (fun j => Reg.LN_STS (lnBase u j))

theorem mem_statusRegs {u : LaneUnit} {js : List Nat} {j : Nat} (m : j ∈ js) : Reg.LN_STS (lnBase u j) ∈ statusRegs u js :=
  List.mem_map_of_mem m

/-- A register of another place than the status is none of them. -/
theorem not_mem_statusRegs {u : LaneUnit} (js : List Nat) (j : Nat) {a : Nat} (ha : a < 0x1000) (h : a ≠ 4) :
    lnBase u j + a ∉ statusRegs u js := fun m => by
  obtain ⟨i, -, e⟩ := List.mem_map.1 m
  exact lnBase_apart u j i ha (by decide) h e.symm

theorem setLanes_onlyRegs (s : State) (u : LaneUnit) (js : List Nat) (st rung : Nat) :
    OnlyRegs (statusRegs u js) s (setLanes s u js st rung) :=
  OnlyRegs.ite (OnlyRegs.refl _ _) (OnlyRegs.foldl (fun t _ m =>
    ((OnlyRegs.refl _ t).set (f := Reg.LN_STS_STATE _) (mem_statusRegs m) st).set (f := Reg.LN_STS_RUNG _) (mem_statusRegs m) rung) s)

section States
variable {s : State} (u : LaneUnit) {js : List Nat} {st rung j : Nat}

theorem setLanes_live (live : s.halted = false) : setLanes s u js st rung =
    js.foldl (fun s j => (s.set (Reg.LN_STS_STATE (lnBase u j)) st).set (Reg.LN_STS_RUNG (lnBase u j)) rung) s := by
  simp only [setLanes, live, Bool.false_eq_true, if_false]

theorem setLanes_laneSt (live : s.halted = false) (m : j ∈ js) (h : st < 16) : (setLanes s u js st rung).laneSt u j = st := by
  rw [setLanes_live u live]
  refine foldl_reaches (fun t => t.laneSt u j) (fun t => ?_) (fun t i ne => ?_) m s
  · exact (State.get_set_other rfl _ rung).trans (State.get_set_held rfl t h)
  · have other : Reg.LN_STS (lnBase u j) ≠ Reg.LN_STS (lnBase u i) := lnBase_other u (Ne.symm ne) 4
    exact (State.get_set_off _ _ _ _ other).trans (State.get_set_off _ _ _ _ other)

theorem setLanes_rung (live : s.halted = false) (m : j ∈ js) (h : rung < 8) :
    (setLanes s u js st rung).get (Reg.LN_STS_RUNG (lnBase u j)) = rung := by
  rw [setLanes_live u live]
  refine foldl_reaches (fun t => t.get (Reg.LN_STS_RUNG (lnBase u j))) (fun t => ?_) (fun t i ne => ?_) m s
  · exact State.get_set_held rfl _ h
  · have other : Reg.LN_STS (lnBase u j) ≠ Reg.LN_STS (lnBase u i) := lnBase_other u (Ne.symm ne) 4
    exact (State.get_set_off _ _ _ _ other).trans (State.get_set_off _ _ _ _ other)

theorem setLanes_reason : (setLanes s u js st rung).get (Reg.LN_STS_FAIL_REASON (lnBase u j)) = s.get (Reg.LN_STS_FAIL_REASON (lnBase u j)) := by
  unfold setLanes
  split
  · rfl
  · exact foldl_keeps (fun t => t.get (Reg.LN_STS_FAIL_REASON (lnBase u j)))
      (fun t _ _ => (State.get_set_other rfl _ rung).trans (State.get_set_other rfl t st)) s

end States

section Reasons
variable (s : State) (u : LaneUnit) (k r : Nat)

theorem setReason_onlyRegs : OnlyRegs (statusRegs u (s.portLanes u k)) s (setReason s u k r) :=
  OnlyRegs.foldl (fun t _ m => (OnlyRegs.refl _ t).set (f := Reg.LN_STS_FAIL_REASON _) (mem_statusRegs m) r) s

theorem setReason_laneSt (j : Nat) : (setReason s u k r).laneSt u j = s.laneSt u j :=
  foldl_keeps (fun t => t.laneSt u j) (fun t _ _ => State.get_set_other rfl t r) s

variable {s r} {j : Nat}

theorem setReason_reason (m : j ∈ s.portLanes u k) (h : r < 256) : (setReason s u k r).get (Reg.LN_STS_FAIL_REASON (lnBase u j)) = r := by
  refine foldl_reaches (fun t => t.get (Reg.LN_STS_FAIL_REASON (lnBase u j))) (fun t => ?_) (fun t i ne => ?_) m s
  · exact State.get_set_held rfl t h
  · exact t.get_set_off _ _ r (lnBase_other u (Ne.symm ne) 4)

end Reasons

/-- A port that is not in MISSION takes nothing down with it. -/
theorem portSet_grounded {s : State} {u : LaneUnit} {k : Nat} (h : s.laneSt u k ≠ 6) (st rung : Nat) :
    portSet s u k st rung = setLanes s u (s.portLanes u k) st rung := if_neg fun was => h was.1

end Sys2Proof.Machine
end

section
/-! SUPPORT. Lanes configured and powered, and ports that restart and fail (03 R99, R100, R110, R111, R119, R124, R125, R129, R134). -/

namespace Sys2Proof.Machine

/-! ### LNx_PRBS_CFG (R124, R125) -/

/-- A write of LNx_PRBS_CFG as its register and BAD_CFG show it. -/
def prbsStored (u : LaneUnit) (j : Nat) (val : Word) (s : State) : State :=
  let t := storeReg (Reg.LN_PRBS_CFG (lnBase u j)) val s
  t.setFlag (Reg.LN_PRBS_STS_BAD_CFG (lnBase u j)) (t.prbsOn u j && !prbsValid (t.rd (Reg.LN_PRBS_CFG (lnBase u j))))

/-- A checker that is off is not locked. -/
def checkerSettled (u : LaneUnit) (j : Nat) (s : State) : State :=
  if s.flag (Reg.LN_PRBS_CFG_CHK_EN (lnBase u j)) then s else s.setFlag (Reg.LN_PRBS_STS_LOCKED (lnBase u j)) false

/-- A pattern in progress stops. -/
def generatorStopped (u : LaneUnit) (j : Nat) (s : State) : State :=
  if (s.lane u j).gen = none then s else s.modLane u j (fun x => { x with gen := none })

theorem prbsCfgOp_eq (u : LaneUnit) (j : Nat) (val : Word) (s : State) :
    prbsCfgOp u j val s = settleLanes (generatorStopped u j (checkerSettled u j (prbsStored u j val s))) u j := rfl

section Prbs
variable {s : State} {u : LaneUnit} {j : Nat}

theorem prbsOn_of_cfg {t : State} (h : t.rd (Reg.LN_PRBS_CFG (lnBase u j)) = s.rd (Reg.LN_PRBS_CFG (lnBase u j))) :
    t.prbsOn u j = s.prbsOn u j := by
  have gen : t.flag (Reg.LN_PRBS_CFG_GEN_EN (lnBase u j)) = s.flag (Reg.LN_PRBS_CFG_GEN_EN (lnBase u j)) :=
    State.flag_of_get (State.get_of_rd h)
  have chk : t.flag (Reg.LN_PRBS_CFG_CHK_EN (lnBase u j)) = s.flag (Reg.LN_PRBS_CFG_CHK_EN (lnBase u j)) :=
    State.flag_of_get (State.get_of_rd h)
  rw [State.prbsOn, State.prbsOn, gen, chk]

theorem prbsCfg_ne_sts : Reg.LN_PRBS_CFG (lnBase u j) ≠ Reg.LN_PRBS_STS (lnBase u j) :=
  lnBase_apart u j j (a := 0x40) (b := 0x44) (by decide) (by decide) (by decide)

theorem prbsStored_cfg (val : Word) : (prbsStored u j val s).rd (Reg.LN_PRBS_CFG (lnBase u j)) =
    (storeReg (Reg.LN_PRBS_CFG (lnBase u j)) val s).rd (Reg.LN_PRBS_CFG (lnBase u j)) := rd_setFlag_ne _ _ _ prbsCfg_ne_sts

theorem prbsStored_badCfg (val : Word) : (prbsStored u j val s).flag (Reg.LN_PRBS_STS_BAD_CFG (lnBase u j)) =
    ((prbsStored u j val s).prbsOn u j && !prbsValid ((prbsStored u j val s).rd (Reg.LN_PRBS_CFG (lnBase u j)))) := by
  rw [prbsOn_of_cfg (prbsStored_cfg val), prbsStored_cfg]
  exact State.flag_setFlag_held rfl _ _

theorem prbsStored_onlyRegs (k : mlook 0 (Reg.LN_PRBS_CFG (lnBase u j)) s.locks = 0) (val : Word) :
    OnlyRegs [Reg.LN_PRBS_CFG (lnBase u j), Reg.LN_PRBS_STS (lnBase u j)] s (prbsStored u j val s) :=
  (onlyRegs_storeReg List.mem_cons_self k val).setFlag (f := Reg.LN_PRBS_STS_BAD_CFG _) (List.mem_cons_of_mem _ List.mem_cons_self) _

theorem prbsStored_locked (k : mlook 0 (Reg.LN_PRBS_CFG (lnBase u j)) s.locks = 0) (val : Word) :
    (prbsStored u j val s).flag (Reg.LN_PRBS_STS_LOCKED (lnBase u j)) = s.flag (Reg.LN_PRBS_STS_LOCKED (lnBase u j)) :=
  (State.flag_setFlag_other rfl _ _).trans
    ((onlyRegs_storeReg (List.mem_singleton_self _) k val).flag (Reg.LN_PRBS_STS_LOCKED _) fun m => prbsCfg_ne_sts (List.mem_singleton.1 m).symm)

theorem checkerSettled_onlyRegs (s : State) (u : LaneUnit) (j : Nat) :
    OnlyRegs [Reg.LN_PRBS_CFG (lnBase u j), Reg.LN_PRBS_STS (lnBase u j)] s (checkerSettled u j s) :=
  OnlyRegs.ite (OnlyRegs.refl _ _)
    ((OnlyRegs.refl _ _).setFlag (f := Reg.LN_PRBS_STS_LOCKED _) (List.mem_cons_of_mem _ List.mem_cons_self) false)

theorem checkerSettled_cfg (s : State) (u : LaneUnit) (j : Nat) :
    (checkerSettled u j s).rd (Reg.LN_PRBS_CFG (lnBase u j)) = s.rd (Reg.LN_PRBS_CFG (lnBase u j)) :=
  rd_ite rfl (rd_setFlag_ne _ (Reg.LN_PRBS_STS_LOCKED _) _ prbsCfg_ne_sts)

theorem checkerSettled_badCfg (s : State) (u : LaneUnit) (j : Nat) :
    (checkerSettled u j s).flag (Reg.LN_PRBS_STS_BAD_CFG (lnBase u j)) = s.flag (Reg.LN_PRBS_STS_BAD_CFG (lnBase u j)) := by
  unfold checkerSettled
  split
  · rfl
  · exact State.flag_setFlag_other rfl s false

theorem checkerSettled_locked (s : State) (u : LaneUnit) (j : Nat) : (checkerSettled u j s).flag (Reg.LN_PRBS_STS_LOCKED (lnBase u j)) =
    (s.flag (Reg.LN_PRBS_STS_LOCKED (lnBase u j)) && s.flag (Reg.LN_PRBS_CFG_CHK_EN (lnBase u j))) := by
  unfold checkerSettled
  split
  · next on => rw [on, Bool.and_true]
  · next off => rw [Bool.eq_false_iff.2 off, Bool.and_false]; exact State.flag_setFlag_held rfl s false

theorem generatorStopped_eq (s : State) (u : LaneUnit) (j : Nat) :
    generatorStopped u j s = { s with lanes := (generatorStopped u j s).lanes } := by
  unfold generatorStopped
  split <;> rfl

theorem generatorStopped_regs (s : State) (u : LaneUnit) (j : Nat) : (generatorStopped u j s).regs = s.regs :=
  (congrArg State.regs (generatorStopped_eq s u j)).trans rfl

theorem generatorStopped_gen (s : State) (u : LaneUnit) (j : Nat) : ((generatorStopped u j s).lane u j).gen = none := by
  unfold generatorStopped
  split
  · next none => exact none
  · rw [State.lane_modLane]

/-- What a write of LNx_PRBS_CFG shows once it is stored, before the ports are settled. -/
theorem prbsCfgOp_stores (k : mlook 0 (Reg.LN_PRBS_CFG (lnBase u j)) s.locks = 0) (val : Word) : ∃ t, prbsCfgOp u j val s = settleLanes t u j ∧
    OnlyRegs [Reg.LN_PRBS_CFG (lnBase u j), Reg.LN_PRBS_STS (lnBase u j)] { s with lanes := t.lanes } t ∧
    t.rd (Reg.LN_PRBS_CFG (lnBase u j)) = (storeReg (Reg.LN_PRBS_CFG (lnBase u j)) val s).rd (Reg.LN_PRBS_CFG (lnBase u j)) ∧
    t.flag (Reg.LN_PRBS_STS_BAD_CFG (lnBase u j)) = (t.prbsOn u j && !prbsValid (t.rd (Reg.LN_PRBS_CFG (lnBase u j)))) ∧
    t.flag (Reg.LN_PRBS_STS_LOCKED (lnBase u j)) =
      (s.flag (Reg.LN_PRBS_STS_LOCKED (lnBase u j)) && t.flag (Reg.LN_PRBS_CFG_CHK_EN (lnBase u j))) ∧
    (t.lane u j).gen = none := by
  have only := ((prbsStored_onlyRegs k val).trans (checkerSettled_onlyRegs (prbsStored u j val s) u j)).withLanes
    (generatorStopped u j (checkerSettled u j (prbsStored u j val s))).lanes
  rw [← generatorStopped_eq] at only
  have held (a : Nat) := rd_of_regs (generatorStopped_regs (checkerSettled u j (prbsStored u j val s)) u j) a
  have kept (f : Field) := State.flag_of_get (State.get_of_rd (held f.off))
  have cfg := (held _).trans (checkerSettled_cfg (prbsStored u j val s) u j)
  refine ⟨_, prbsCfgOp_eq u j val s, only, cfg.trans (prbsStored_cfg val), ?_, ?_, generatorStopped_gen _ u j⟩
  · rw [prbsOn_of_cfg cfg, cfg, kept, checkerSettled_badCfg, prbsStored_badCfg]
  · rw [kept, checkerSettled_locked, prbsStored_locked k, State.flag_of_get (f := Reg.LN_PRBS_CFG_CHK_EN _) (State.get_of_rd cfg)]

end Prbs

/-! ### A quad's power (R100) -/

theorem quadPoweredOp_powers {s : State} {u : LaneUnit} {q : Nat} (lanes : 4 * q < laneCount u) (off : s.quadOn u (4 * q) = false)
    (wanted : (quadLanes (4 * q)).any (fun i => s.wantsPower u i) = true) : quadPoweredOp u q s =
      settleLanes ((quadLanes (4 * q)).foldl (fun s i => s.setFlag (Reg.LN_STS_POWERED (lnBase u i)) true)
        (bumpGen { s with lanes := { s.lanes with quads := ladd (laneKey u (4 * q) / 4) s.lanes.quads } })) u (4 * q) :=
  if_pos ⟨lanes, wanted, off⟩

theorem quadPoweredOp_idle {s : State} {u : LaneUnit} {q : Nat} (h : ¬ (4 * q < laneCount u ∧ s.quadOn u (4 * q) = false ∧
    (quadLanes (4 * q)).any (fun i => s.wantsPower u i) = true)) : quadPoweredOp u q s = s :=
  if_neg fun ⟨lanes, wanted, off⟩ => h ⟨lanes, off, wanted⟩

/-! ### A bring-up begins (R110, R111, R114, R119) -/

/-- Lanes that have heard nothing, with a fresh LINK_ID. -/
def unheard (s : State) (u : LaneUnit) (js : List Nat) (restart : Bool) : State :=
  modLanes s.draw.2 u js (fun _ => { noLane with
    ownLinkId := BitVec.ofNat 64 s.draw.1.toNat, waitSignal := restart, restarted := restart })

/-- Lanes of which neither the map nor the polarity is found. -/
def unmapped (s : State) (u : LaneUnit) (js : List Nat) : State :=
  js.foldl (fun s j => (s.setFlag (Reg.LN_STS_RX_POL_INV (lnBase u j)) false).setFlag (Reg.LN_STS_MAP_VALID (lnBase u j)) false) s

/-- A port whose bring-up has begun in the state that it has taken. -/
def begun (s : State) (u : LaneUnit) (k : Nat) (restart : Bool) : State :=
  (unmapped (unheard s u (s.portLanes u k) restart) u (s.portLanes u k)).wr (Reg.LN_TRAIN_STS (lnBase u k)) 0

/-- A bring-up takes its start state and begins; the pages of NEGOTIATE are all that is sent. -/
theorem startPort_begun (s : State) (u : LaneUnit) (k : Nat) (restart : Bool) :
    ∃ out, startPort s u k restart = { begun (portSet s u k (s.startState u k) (s.startRung u k)) u k restart with out := out } := by
  have eq : startPort s u k restart = let t := begun (portSet s u k (s.startState u k) (s.startRung u k)) u k restart
      if t.laneSt u k = 3 then sendPages t u k else t := rfl
  rw [eq]
  dsimp only
  split <;> exact ⟨_, rfl⟩

/-- A lane that waits for signal holds its port in DETECT (R129). -/
theorem tryDetect_waits {s : State} {u : LaneUnit} {k : Nat} (h : (s.lane u k).waitSignal = true) : tryDetect s u k = s := by
  refine if_neg fun ⟨_, _, heard⟩ => ?_
  have first : s.laneHeard u k = true := List.all_eq_true.1 heard k (s.mem_portLanes u k)
  simp [State.laneHeard, h] at first

section Begun
variable (s : State) (u : LaneUnit) (k : Nat) (restart : Bool) {j : Nat}

theorem unmapped_get (js : List Nat) {f : Field} (pol : (Reg.LN_STS_RX_POL_INV 0).beside f = true) (map : (Reg.LN_STS_MAP_VALID 0).beside f = true) :
    (unmapped s u js).get f = s.get f :=
  foldl_keeps (fun t => t.get f)
    (fun t i _ => (State.get_set_other (g := Reg.LN_STS_MAP_VALID (lnBase u i)) map _ _).trans
      (State.get_set_other (g := Reg.LN_STS_RX_POL_INV (lnBase u i)) pol t _)) s

theorem unmapped_lanes (js : List Nat) : (unmapped s u js).lanes = s.lanes :=
  foldl_keeps State.lanes (fun t _ _ => (State.setFlag_lanes _ _ false).trans (t.setFlag_lanes _ false)) s

theorem unmapped_cnt (js : List Nat) : (unmapped s u js).cnt = s.cnt :=
  foldl_keeps State.cnt (fun t _ _ => (State.setFlag_cnt _ _ false).trans (t.setFlag_cnt _ false)) s

variable {s k}

theorem unmapped_fields {js : List Nat} (m : j ∈ js) : (unmapped s u js).flag (Reg.LN_STS_MAP_VALID (lnBase u j)) = false ∧
    (unmapped s u js).flag (Reg.LN_STS_RX_POL_INV (lnBase u j)) = false := by
  have other {i : Nat} (ne : i ≠ j) : Reg.LN_STS (lnBase u j) ≠ Reg.LN_STS (lnBase u i) := lnBase_other u (Ne.symm ne) 4
  constructor
  · refine foldl_reaches (fun t => t.flag (Reg.LN_STS_MAP_VALID (lnBase u j))) (fun t => ?_) (fun t i ne => ?_) m s
    · exact State.flag_setFlag_held rfl _ false
    · exact (State.flag_set_off _ _ _ _ (other ne)).trans (State.flag_set_off _ _ _ _ (other ne))
  · refine foldl_reaches (fun t => t.flag (Reg.LN_STS_RX_POL_INV (lnBase u j))) (fun t => ?_) (fun t i ne => ?_) m s
    · exact (State.flag_setFlag_other rfl _ false).trans (State.flag_setFlag_held rfl t false)
    · exact (State.flag_set_off _ _ _ _ (other ne)).trans (State.flag_set_off _ _ _ _ (other ne))

/-- The fields of a lane's status but for its map and its polarity stay. -/
theorem begun_sts {f : Field} (off : f.off = Reg.LN_STS (lnBase u j)) (pol : (Reg.LN_STS_RX_POL_INV 0).beside f = true)
    (map : (Reg.LN_STS_MAP_VALID 0).beside f = true) : (begun s u k restart).get f = s.get f := by
  have train : f.off ≠ Reg.LN_TRAIN_STS (lnBase u k) := off ▸ lnBase_apart u j k (a := 4) (b := 0xC) (by decide) (by decide) (by decide)
  rw [begun, State.get_wr_ne _ _ _ train, unmapped_get _ u _ pol map]
  exact State.get_of_rd (rd_of_regs (modLanes_regs _ _ _ _) _)

theorem begun_found (m : j ∈ s.portLanes u k) : (begun s u k restart).flag (Reg.LN_STS_MAP_VALID (lnBase u j)) = false ∧
    (begun s u k restart).flag (Reg.LN_STS_RX_POL_INV (lnBase u j)) = false := by
  have train : Reg.LN_STS (lnBase u j) ≠ Reg.LN_TRAIN_STS (lnBase u k) :=
    lnBase_apart u j k (a := 4) (b := 0xC) (by decide) (by decide) (by decide)
  have kept (f : Field) (off : f.off = Reg.LN_STS (lnBase u j)) := State.flag_of_get
    (State.get_wr_ne (unmapped (unheard s u (s.portLanes u k) restart) u (s.portLanes u k)) 0 f (off ▸ train))
  obtain ⟨map, pol⟩ := unmapped_fields (s := unheard s u (s.portLanes u k) restart) u m
  exact ⟨(kept _ rfl).trans map, (kept _ rfl).trans pol⟩

theorem begun_waitSignal (m : j ∈ s.portLanes u k) : ((begun s u k restart).lane u j).waitSignal = restart := by
  have lanes : (begun s u k restart).lanes = (unheard s u (s.portLanes u k) restart).lanes := unmapped_lanes _ u _
  rw [State.lane_of_lanes lanes, unheard, modLanes_lane m]

theorem begun_cnt : (begun s u k restart).cnt = s.cnt :=
  (unmapped_cnt (unheard s u (s.portLanes u k) restart) u _).trans (modLanes_cnt s.draw.2 u _ _)

end Begun

/-- A restart of a port that is not in MISSION: its lanes take the start state, begin, and wait for their signal. -/
theorem beginPort_waits {s : State} {u : LaneUnit} {k : Nat} (ground : s.laneSt u k ≠ 6) : ∃ out, beginPort s u k true =
    { begun (setLanes s u (s.portLanes u k) (s.startState u k) (s.startRung u k)) u k true with out := out } := by
  obtain ⟨out, started⟩ := startPort_begun s u k true
  rw [portSet_grounded ground] at started
  refine ⟨out, ?_⟩
  rw [beginPort, started]
  exact tryDetect_waits (begun_waitSignal u true (State.mem_portLanes _ u k))

/-! ### Restart and failure (R110, R119, R129) -/

/-- The first lane's set-up under writes of lanes' status. -/
theorem OnlyRegs.setup {s t : State} {u : LaneUnit} {js : List Nat} (h : OnlyRegs (statusRegs u js) s t) (k : Nat) :
    t.portLanes u k = s.portLanes u k ∧ t.startState u k = s.startState u k ∧ t.startRung u k = s.startRung u k := by
  have cfg : t.rd (Reg.LN_CFG (lnBase u k)) = s.rd (Reg.LN_CFG (lnBase u k)) :=
    h.2 _ (not_mem_statusRegs js k (a := 0) (by decide) (by decide))
  have train : t.rd (Reg.LN_TRAIN (lnBase u k)) = s.rd (Reg.LN_TRAIN (lnBase u k)) :=
    h.2 _ (not_mem_statusRegs js k (a := 8) (by decide) (by decide))
  exact ⟨State.portLanes_of_cfg cfg, State.startState_of_setup cfg train, State.startRung_of_setup cfg train⟩

theorem OnlyRegs.halted_eq {offs : List Nat} {s t : State} (h : OnlyRegs offs s t) : t.halted = s.halted := by
  rw [State.halted, State.halted, h.ctl_eq]

section Down
variable {s : State} {u : LaneUnit} {k r : Nat}

/-- What every lane of a port shows once its bring-up has begun again. -/
theorem beginPort_shows (live : s.halted = false) (ground : s.laneSt u k ≠ 6) : (beginPort s u k true).cnt = s.cnt ∧
    ∀ j ∈ s.portLanes u k, (beginPort s u k true).laneSt u j = s.startState u k ∧
      (beginPort s u k true).get (Reg.LN_STS_RUNG (lnBase u j)) = s.startRung u k ∧
      (beginPort s u k true).get (Reg.LN_STS_FAIL_REASON (lnBase u j)) = s.get (Reg.LN_STS_FAIL_REASON (lnBase u j)) ∧
      (beginPort s u k true).flag (Reg.LN_STS_MAP_VALID (lnBase u j)) = false ∧
      (beginPort s u k true).flag (Reg.LN_STS_RX_POL_INV (lnBase u j)) = false ∧ ((beginPort s u k true).lane u j).waitSignal = true := by
  obtain ⟨out, eq⟩ := beginPort_waits ground
  have set := setLanes_onlyRegs s u (s.portLanes u k) (s.startState u k) (s.startRung u k)
  rw [eq]
  refine ⟨(begun_cnt u true).trans set.cnt_eq, fun j m => ?_⟩
  have m' : j ∈ (setLanes s u (s.portLanes u k) (s.startState u k) (s.startRung u k)).portLanes u k := by rw [(set.setup k).1]; exact m
  obtain ⟨map, pol⟩ := begun_found u true m'
  exact ⟨(begun_sts u true (f := Reg.LN_STS_STATE (lnBase u j)) rfl rfl rfl).trans (setLanes_laneSt u live m (s.startState_lt u k)),
    (begun_sts u true (f := Reg.LN_STS_RUNG (lnBase u j)) rfl rfl rfl).trans (setLanes_rung u live m (s.startRung_lt u k)),
    (begun_sts u true (f := Reg.LN_STS_FAIL_REASON (lnBase u j)) rfl rfl rfl).trans (setLanes_reason u),
    map, pol, begun_waitSignal u true m'⟩

theorem restartPort_shows (run : s.running = true) (ground : s.laneSt u k ≠ 6) (small : r < 256) (room : Room s (Reg.LN_RESTARTS (lnBase u k))) :
    ∃ t, restartPort s u k r = raiseLane t u k 4 ∧ t.ctr (Reg.LN_RESTARTS (lnBase u k)) = s.ctr (Reg.LN_RESTARTS (lnBase u k)) + 1 ∧
      ∀ j ∈ s.portLanes u k, t.laneSt u j = s.startState u k ∧ t.get (Reg.LN_STS_RUNG (lnBase u j)) = s.startRung u k ∧
        t.get (Reg.LN_STS_FAIL_REASON (lnBase u j)) = r ∧ t.flag (Reg.LN_STS_MAP_VALID (lnBase u j)) = false ∧
        t.flag (Reg.LN_STS_RX_POL_INV (lnBase u j)) = false ∧ (t.lane u j).waitSignal = true := by
  have inc : s.inc (Reg.LN_RESTARTS (lnBase u k)) = counted s (Reg.LN_RESTARTS (lnBase u k)) := s.inc_eq _ room
  have only := setReason_onlyRegs (counted s (Reg.LN_RESTARTS (lnBase u k))) u k r
  obtain ⟨lanes, state, rung⟩ := only.setup k
  have live := only.halted_eq.trans (not_halted_of_running run)
  obtain ⟨cnt, shows⟩ := beginPort_shows (u := u) (k := k) live (by rw [setReason_laneSt]; exact ground)
  refine ⟨_, by rw [restartPort, inc], ?_, fun j m => ?_⟩
  · rw [State.ctr, cnt, only.cnt_eq]
    exact mlook_mstore_same 0 _ (s.ctr (Reg.LN_RESTARTS (lnBase u k)) + 1) s.cnt.vals
  · obtain ⟨hstate, hrung, hreason, hrest⟩ := shows j (by rw [lanes]; exact m)
    exact ⟨hstate.trans state, hrung.trans rung, hreason.trans (setReason_reason u k m small), hrest⟩

theorem failPort_shows (run : s.running = true) (ground : s.laneSt u k ≠ 6) (small : r < 256) :
    ∃ t, failPort s u k r = raiseLane t u k 5 ∧ OnlyRegs (statusRegs u (s.portLanes u k)) s t ∧
      ∀ j ∈ s.portLanes u k, t.laneSt u j = 7 ∧ t.get (Reg.LN_STS_RUNG (lnBase u j)) = 0 ∧ t.get (Reg.LN_STS_FAIL_REASON (lnBase u j)) = r := by
  have only := setReason_onlyRegs s u k r
  have live := only.halted_eq.trans (not_halted_of_running run)
  have down : portSet (setReason s u k r) u k 7 0 = setLanes (setReason s u k r) u (s.portLanes u k) 7 0 := by
    rw [portSet_grounded (by rw [setReason_laneSt]; exact ground), (only.setup k).1]
  refine ⟨_, by rw [failPort, down], only.trans (setLanes_onlyRegs _ _ _ _ _), fun j m => ?_⟩
  exact ⟨setLanes_laneSt u live m (by decide), setLanes_rung u live m (by decide),
    (setLanes_reason u).trans (setReason_reason u k m small)⟩

end Down

end Sys2Proof.Machine

namespace Sys2Proof.Proofs
open Sys2Proof.Machine

/-- Settles O18: the register writes by what each stores, restart and failure by what each lane of the port shows before the event. -/
theorem lanesConfigured : Obligations.LanesConfigured := by
  refine ⟨fun s who l val u q serves _ => ?_, fun s u k r run ground small => ?_⟩
  · intro j b
    refine ⟨congrArg Host.Outcome.next (gateOwner_acts _ _ serves), fun unlocked => ?_, ⟨fun h => ?_, fun h => ?_⟩, ⟨fun h => ?_, fun h => ?_⟩⟩
    · obtain ⟨t, op, shown⟩ := prbsCfgOp_stores unlocked val
      exact ⟨t, congrArg Host.Outcome.next ((gateOwner_acts _ _ serves).trans op), shown⟩
    · exact congrArg Host.Outcome.next ((gateOwner_acts _ _ serves).trans (if_pos h))
    · exact congrArg Host.Outcome.next ((gateOwner_acts _ _ serves).trans (if_neg h))
    · obtain ⟨lanes, off, wanted⟩ := h
      exact exec_of_live serves.1.1 rfl (quadPoweredOp_powers lanes off wanted)
    · exact exec_of_live serves.1.1 rfl (quadPoweredOp_idle h)
  · exact ⟨restartPort_shows run ground small, failPort_shows run ground small⟩

end Sys2Proof.Proofs
end

section
/-! SUPPORT. A lane's signal, its lock and its group's reference clock (03 R109, R110, R121, R123, R129, R130, R132). -/

namespace Sys2Proof.Machine

/-! ### The lane map under writes of a lane's status and receiver -/

theorem sts_ne_cdr (u : LaneUnit) (j : Nat) : Reg.LN_STS (lnBase u j) ≠ Reg.LN_CDR (lnBase u j) :=
  lnBase_apart u j j (a := 4) (b := 0x30) (by decide) (by decide) (by decide)

theorem sts_mem (b : Nat) (l : List Nat) : Reg.LN_STS b ∈ Reg.LN_STS b :: Reg.LN_CDR b :: l := List.mem_cons_self

theorem cdr_mem (b : Nat) (l : List Nat) : Reg.LN_CDR b ∈ Reg.LN_STS b :: Reg.LN_CDR b :: l := List.mem_cons_of_mem _ List.mem_cons_self

/-- The registers of a lane that its signal, its lock and its adaptation write. -/
def receiverRegs (b : Nat) : List Nat :=
  [Reg.LN_STS b, Reg.LN_CDR b, Reg.LN_CTLE b, Reg.LN_DFE_VAL b 0, Reg.LN_DFE_VAL b 1, Reg.LN_DFE_VAL b 2]

theorem cfg_not_receiver (b : Nat) : Reg.LN_CFG b ∉ receiverRegs b := by
  simp [receiverRegs, Reg.LN_CFG, Reg.LN_STS, Reg.LN_CDR, Reg.LN_CTLE, Reg.LN_DFE_VAL]
  omega

theorem OnlyRegs.portOf_eq {s t : State} {u : LaneUnit} {j : Nat} (h : OnlyRegs (receiverRegs (lnBase u j)) s t) :
    t.portOf u j = s.portOf u j := State.portOf_of_cfg (h.2 _ (cfg_not_receiver _))

/-- A lane's status and its CDR are among them. -/
theorem OnlyRegs.receiver {s t : State} {b : Nat} (h : OnlyRegs [Reg.LN_STS b, Reg.LN_CDR b] s t) : OnlyRegs (receiverRegs b) s t :=
  h.mono fun _ m => List.mem_append_left [Reg.LN_CTLE b, Reg.LN_DFE_VAL b 0, Reg.LN_DFE_VAL b 1, Reg.LN_DFE_VAL b 2] m

theorem State.portOf_withLanes (s : State) (x : Lanes) {u : LaneUnit} {j : Nat} : ({ s with lanes := x } : State).portOf u j = s.portOf u j :=
  State.portOf_of_cfg rfl

theorem State.portOf_draw (s : State) {u : LaneUnit} {j : Nat} : s.draw.2.portOf u j = s.portOf u j := State.portOf_of_cfg rfl

@[simp] theorem State.portOf_modLane (s : State) (u : LaneUnit) (j : Nat) (f : LaneState → LaneState) {v : LaneUnit} {i : Nat} :
    (s.modLane u j f).portOf v i = s.portOf v i := State.portOf_of_cfg (s.modLane_rd u j f _)

theorem OnlyRegs.modLane {offs : List Nat} {s t : State} (h : OnlyRegs offs s t) (u : LaneUnit) (j : Nat) (f : LaneState → LaneState) :
    OnlyRegs offs { s with lanes := (t.modLane u j f).lanes } (t.modLane u j f) := h.withLanes _

/-! ### Loss of signal (R129) -/

/-- Neither signal nor lock is shown; a lock that was is shown as lost. -/
def dimmed (u : LaneUnit) (j : Nat) (s : State) : State :=
  let t := if s.flag (Reg.LN_STS_CDR_LOCK (lnBase u j)) then s.setFlag (Reg.LN_CDR_LOST (lnBase u j)) true else s
  ((t.setFlag (Reg.LN_STS_SIGNAL (lnBase u j)) false).setFlag (Reg.LN_STS_CDR_LOCK (lnBase u j)) false).setFlag
    (Reg.LN_CDR_LOCK (lnBase u j)) false

/-- The lane of port k that has lost its signal: not ready, and waiting anew while a restarted port is in its start state. -/
def silenced (u : LaneUnit) (j k : Nat) (s : State) : State :=
  (dimmed u j s).modLane u j (fun l => { l with
    rxReady := false, waitSignal := l.waitSignal || (l.restarted && decide ((dimmed u j s).laneSt u k = (dimmed u j s).startState u k)) })

section Loss
variable {s : State} {u : LaneUnit} {j k : Nat}

theorem losOp_active (port : s.portOf u j = some k) (active : s.portActive u k = true) {t : State}
    (ht : silenced u j k (raiseLane (s.inc (Reg.LN_LOS_COUNT (lnBase u j))) u j 1) = t) :
    losOp u j s = if (t.laneSt u j = 4 ∨ t.laneSt u j = 6) ∧ t.inGap u k = false then restartPort t u k 6 else t := by
  subst ht
  simp only [losOp, port]
  exact if_neg (by simp [active])

theorem losOp_portless (port : s.portOf u j = none) : losOp u j s = s := by simp only [losOp, port]

theorem losOp_inactive (port : s.portOf u j = some k) (idle : s.portActive u k = false) : losOp u j s = s := by
  simp only [losOp, port, idle, if_true]

theorem dimmed_onlyRegs (s : State) (u : LaneUnit) (j : Nat) :
    OnlyRegs [Reg.LN_STS (lnBase u j), Reg.LN_CDR (lnBase u j)] s (dimmed u j s) := by
  have lost : OnlyRegs [Reg.LN_STS (lnBase u j), Reg.LN_CDR (lnBase u j)] s
      (if s.flag (Reg.LN_STS_CDR_LOCK (lnBase u j)) then s.setFlag (Reg.LN_CDR_LOST (lnBase u j)) true else s) :=
    OnlyRegs.ite ((OnlyRegs.refl _ s).setFlag (f := Reg.LN_CDR_LOST _) (cdr_mem _ _) true) (OnlyRegs.refl _ s)
  exact ((lost.setFlag (f := Reg.LN_STS_SIGNAL _) (sts_mem _ _) false).setFlag (f := Reg.LN_STS_CDR_LOCK _) (sts_mem _ _) false).setFlag
    (f := Reg.LN_CDR_LOCK _) (cdr_mem _ _) false

theorem dimmed_fields (s : State) (u : LaneUnit) (j : Nat) : (dimmed u j s).flag (Reg.LN_STS_SIGNAL (lnBase u j)) = false ∧
    (dimmed u j s).flag (Reg.LN_STS_CDR_LOCK (lnBase u j)) = false ∧ (dimmed u j s).flag (Reg.LN_CDR_LOCK (lnBase u j)) = false ∧
    (dimmed u j s).laneSt u j = s.laneSt u j := by
  refine ⟨?_, ?_, State.flag_setFlag_held rfl _ _, ?_⟩
  · exact (State.flag_setFlag_other rfl _ _).trans ((State.flag_setFlag_other rfl _ _).trans (State.flag_setFlag_held rfl _ _))
  · exact (State.flag_setFlag_other rfl _ _).trans (State.flag_setFlag_held rfl _ _)
  · refine (State.get_set_off _ (Reg.LN_CDR_LOCK (lnBase u j)) (Reg.LN_STS_STATE (lnBase u j)) 0 (sts_ne_cdr u j)).trans ?_
    refine (State.get_set_other rfl _ _).trans ((State.get_set_other rfl _ _).trans ?_)
    exact State.get_of_rd (rd_ite (rd_setFlag_ne s (Reg.LN_CDR_LOST _) true (sts_ne_cdr u j)) rfl)

/-- What a lane that has lost its signal shows. -/
theorem silenced_shows (s : State) (u : LaneUnit) (j k : Nat) :
    OnlyRegs [Reg.LN_STS (lnBase u j), Reg.LN_CDR (lnBase u j)] { s with lanes := (silenced u j k s).lanes } (silenced u j k s) ∧
    (silenced u j k s).flag (Reg.LN_STS_SIGNAL (lnBase u j)) = false ∧ (silenced u j k s).flag (Reg.LN_STS_CDR_LOCK (lnBase u j)) = false ∧
    (silenced u j k s).flag (Reg.LN_CDR_LOCK (lnBase u j)) = false ∧ (silenced u j k s).laneSt u j = s.laneSt u j ∧
    ((silenced u j k s).lane u j).rxReady = false := by
  obtain ⟨signal, lock, cdr, state⟩ := dimmed_fields s u j
  refine ⟨(dimmed_onlyRegs s u j).modLane u j _, ?_, ?_, ?_, ?_, ?_⟩
  · rw [silenced, State.modLane_flag, signal]
  · rw [silenced, State.modLane_flag, lock]
  · rw [silenced, State.modLane_flag, cdr]
  · rw [silenced, State.laneSt, State.modLane_get]
    exact state
  · rw [silenced, State.lane_modLane]

end Loss

/-! ### Loss of lock (R123, R129) -/

/-- A lane that has lost its lock: not ready, and the loss latched. -/
def unlocked (u : LaneUnit) (j : Nat) (s : State) : State :=
  (((s.setFlag (Reg.LN_STS_CDR_LOCK (lnBase u j)) false).setFlag (Reg.LN_CDR_LOCK (lnBase u j)) false).setFlag
    (Reg.LN_CDR_LOST (lnBase u j)) true).modLane u j (fun l => { l with rxReady := false })

section Unlock
variable {s : State} {u : LaneUnit} {j : Nat}

theorem unlocked_onlyRegs (s : State) (u : LaneUnit) (j : Nat) :
    OnlyRegs [Reg.LN_STS (lnBase u j), Reg.LN_CDR (lnBase u j)] { s with lanes := (unlocked u j s).lanes } (unlocked u j s) := by
  exact ((((OnlyRegs.refl _ s).setFlag (f := Reg.LN_STS_CDR_LOCK _) (sts_mem _ _) false).setFlag (f := Reg.LN_CDR_LOCK _) (cdr_mem _ _) false).setFlag
    (f := Reg.LN_CDR_LOST _) (cdr_mem _ _) true).modLane u j _

theorem unlocked_fields (s : State) (u : LaneUnit) (j : Nat) : (unlocked u j s).flag (Reg.LN_STS_CDR_LOCK (lnBase u j)) = false ∧
    (unlocked u j s).flag (Reg.LN_CDR_LOCK (lnBase u j)) = false ∧ (unlocked u j s).flag (Reg.LN_CDR_LOST (lnBase u j)) = true := by
  rw [unlocked, State.modLane_flag, State.modLane_flag, State.modLane_flag]
  refine ⟨?_, ?_, State.flag_setFlag_held rfl _ true⟩
  · exact (State.flag_setFlag_other rfl _ true).trans ((State.flag_setFlag_other rfl _ false).trans (State.flag_setFlag_held rfl s false))
  · exact (State.flag_setFlag_other rfl _ true).trans (State.flag_setFlag_held rfl _ false)

theorem unlocked_portOf (s : State) (u : LaneUnit) (j : Nat) : (unlocked u j s).portOf u j = s.portOf u j :=
  (unlocked_onlyRegs s u j).receiver.portOf_eq.trans (s.portOf_withLanes _)

theorem cdrUnlockOp_portless (port : s.portOf u j = none) (lock : s.flag (Reg.LN_STS_CDR_LOCK (lnBase u j)) = true) :
    cdrUnlockOp u j s = unlocked u j s := by
  have none : (unlocked u j s).portOf u j = none := (unlocked_portOf s u j).trans port
  have on : ¬ s.flag (Reg.LN_STS_CDR_LOCK (lnBase u j)) = false := by rw [lock]; decide
  unfold unlocked at none ⊢
  simp only [cdrUnlockOp, if_neg on, none]

theorem cdrUnlockOp_unlocked (lock : s.flag (Reg.LN_STS_CDR_LOCK (lnBase u j)) = false) : cdrUnlockOp u j s = s := if_pos lock

end Unlock

/-! ### Adaptation (R121, R123) -/

/-- What a receiver measures, as LNx_CDR and LNx_STS show it. -/
def measured (b n : Nat) (s : State) : State :=
  (s.set (Reg.LN_CDR_FREQ_ERR b) (freqErr (nbits n 15 0))).set (Reg.LN_STS_EYE_FOM b) (nbits n 23 16)

/-- The CTLE that adapts shows its values. -/
def ctleAdapted (b n : Nat) (s : State) : State :=
  if s.get (Reg.LN_CTLE_MODE b) = 0 then
    (s.set (Reg.LN_CTLE_PEAK b) (nbits n 28 24)).set (Reg.LN_CTLE_LFG b) (nbits n 34 32) else s

/-- The DFE that adapts shows its taps. -/
def dfeAdapted (b n : Nat) (s : State) : State :=
  if s.get (Reg.LN_DFE_CTRL_MODE b) = 0 then
    s.wrs (Reg.LN_DFE_VAL b 0) [w32 (nbits n 95 64), w32 (nbits n 127 96), w32 (nbits n 159 128)] else s

theorem adapt_eq (s : State) (u : LaneUnit) (j : Nat) : adapt s u j =
    dfeAdapted (lnBase u j) s.draw.1.toNat (ctleAdapted (lnBase u j) s.draw.1.toNat (measured (lnBase u j) s.draw.1.toNat s.draw.2)) := rfl

theorem adapt_onlyRegs (s : State) (u : LaneUnit) (j : Nat) : OnlyRegs (receiverRegs (lnBase u j)) s.draw.2 (adapt s u j) := by
  rw [adapt_eq]
  generalize lnBase u j = b
  have shown : OnlyRegs (receiverRegs b) s.draw.2 (measured b s.draw.1.toNat s.draw.2) :=
    ((OnlyRegs.refl _ _).set (f := Reg.LN_CDR_FREQ_ERR b) (by simp [receiverRegs, Reg.LN_CDR_FREQ_ERR]) _).set
      (f := Reg.LN_STS_EYE_FOM b) (by simp [receiverRegs, Reg.LN_STS_EYE_FOM]) _
  have ctle : Reg.LN_CTLE b ∈ receiverRegs b := by simp [receiverRegs]
  have dfe (i : Nat) (h : i < 3) : Reg.LN_DFE_VAL b 0 + 4 * i ∈ receiverRegs b := by
    simp only [receiverRegs, Reg.LN_DFE_VAL, List.mem_cons]
    omega
  have peak : OnlyRegs (receiverRegs b) s.draw.2 (ctleAdapted b s.draw.1.toNat (measured b s.draw.1.toNat s.draw.2)) :=
    OnlyRegs.ite ((shown.set (f := Reg.LN_CTLE_PEAK b) ctle _).set (f := Reg.LN_CTLE_LFG b) ctle _) shown
  exact OnlyRegs.ite (((peak.wr (dfe 0 (by decide)) _).wr (dfe 1 (by decide)) _).wr (dfe 2 (by decide)) _) peak

section Measured
variable {s : State} {b n : Nat} {f : Field}

theorem State.get_set_below {g : Field} (h : g.whole = true) (below : g.hi < f.lo) (s : State) (v : Nat) : (s.set g v).get f = s.get f :=
  State.get_set_other (by simp [Field.beside, h, below]) s v

theorem measured_get (above : 15 < f.lo) : (measured b n s).get f = s.get f :=
  (State.get_set_below (g := Reg.LN_STS_EYE_FOM b) rfl (by simp only [Reg.LN_STS_EYE_FOM]; omega) _ _).trans
    (State.get_set_below (g := Reg.LN_CDR_FREQ_ERR b) rfl above s _)

theorem ctleAdapted_get (above : 20 < f.lo) : (ctleAdapted b n s).get f = s.get f := by
  unfold ctleAdapted
  split
  · exact (State.get_set_below (g := Reg.LN_CTLE_LFG b) rfl (by simp only [Reg.LN_CTLE_LFG]; omega) _ _).trans
      (State.get_set_below (g := Reg.LN_CTLE_PEAK b) rfl above s _)
  · rfl

theorem dfeAdapted_get (off : ∀ i < 3, f.off ≠ Reg.LN_DFE_VAL b 0 + 4 * i) : (dfeAdapted b n s).get f = s.get f :=
  State.get_of_rd (rd_ite (rd_wrs_ne _ _ off) rfl)

end Measured

/-- The upper bits of a lane's status and of its CDR are none of what adaptation shows. -/
theorem adapt_get (s : State) {u : LaneUnit} {j : Nat} {f : Field} (above : 20 < f.lo)
    (off : f.off = Reg.LN_STS (lnBase u j) ∨ f.off = Reg.LN_CDR (lnBase u j)) : (adapt s u j).get f = s.get f := by
  have dfe : ∀ i < 3, f.off ≠ Reg.LN_DFE_VAL (lnBase u j) 0 + 4 * i := fun i hi => by
    simp only [Reg.LN_STS, Reg.LN_CDR, Reg.LN_DFE_VAL] at off ⊢
    omega
  rw [adapt_eq, dfeAdapted_get dfe, ctleAdapted_get above, measured_get (by omega)]
  exact State.get_of_rd rfl

/-! ### Lock (R110, R123) -/

/-- A lane that has locked, and so has signal. -/
def lockedOn (u : LaneUnit) (j : Nat) (s : State) : State :=
  ((s.setFlag (Reg.LN_STS_CDR_LOCK (lnBase u j)) true).setFlag (Reg.LN_CDR_LOCK (lnBase u j)) true).setFlag
    (Reg.LN_STS_SIGNAL (lnBase u j)) true

section Lock
variable {s : State} {u : LaneUnit} {j k : Nat}

theorem lockedOn_onlyRegs (s : State) (u : LaneUnit) (j : Nat) : OnlyRegs (receiverRegs (lnBase u j)) s (lockedOn u j s) := by
  exact (((OnlyRegs.refl _ s).setFlag (f := Reg.LN_STS_CDR_LOCK _) (sts_mem _ _) true).setFlag (f := Reg.LN_CDR_LOCK _) (cdr_mem _ _) true).setFlag
    (f := Reg.LN_STS_SIGNAL _) (sts_mem _ _) true

theorem lockedOn_fields (s : State) (u : LaneUnit) (j : Nat) : (lockedOn u j s).flag (Reg.LN_STS_CDR_LOCK (lnBase u j)) = true ∧
    (lockedOn u j s).flag (Reg.LN_CDR_LOCK (lnBase u j)) = true ∧ (lockedOn u j s).flag (Reg.LN_STS_SIGNAL (lnBase u j)) = true := by
  refine ⟨?_, ?_, State.flag_setFlag_held rfl _ true⟩
  · exact (State.flag_setFlag_other rfl _ true).trans ((State.flag_setFlag_other rfl _ true).trans (State.flag_setFlag_held rfl s true))
  · exact (State.flag_setFlag_other rfl _ true).trans (State.flag_setFlag_held rfl _ true)

/-- What a lane that has locked and adapts shows. -/
theorem lockedOn_adapts (s : State) (u : LaneUnit) (j : Nat) : let t := adapt (lockedOn u j s) u j
    OnlyRegs (receiverRegs (lnBase u j)) { s with draws := t.draws } t ∧ t.flag (Reg.LN_STS_CDR_LOCK (lnBase u j)) = true ∧
    t.flag (Reg.LN_CDR_LOCK (lnBase u j)) = true ∧ t.flag (Reg.LN_STS_SIGNAL (lnBase u j)) = true := by
  obtain ⟨lock, cdr, signal⟩ := lockedOn_fields s u j
  have adapted := adapt_onlyRegs (lockedOn u j s) u j
  have draws : (adapt (lockedOn u j s) u j).draws = (lockedOn u j s).draws + 1 := (congrArg State.draws adapted.1).trans rfl
  refine ⟨?_, ?_, ?_, ?_⟩
  · rw [draws]
    exact ((lockedOn_onlyRegs s u j).withDraws _).trans adapted
  · exact (State.flag_of_get (adapt_get _ (by simp [Reg.LN_STS_CDR_LOCK]) (.inl rfl))).trans lock
  · exact (State.flag_of_get (adapt_get _ (by simp [Reg.LN_CDR_LOCK]) (.inr rfl))).trans cdr
  · exact (State.flag_of_get (adapt_get _ (by simp [Reg.LN_STS_SIGNAL]) (.inl rfl))).trans signal

theorem adapt_lockedOn_portOf (s : State) (u : LaneUnit) (j : Nat) : (adapt (lockedOn u j s) u j).portOf u j = s.portOf u j :=
  (adapt_onlyRegs _ u j).portOf_eq.trans ((State.portOf_draw _).trans (lockedOn_onlyRegs s u j).portOf_eq)

theorem cdrLockOp_idle (h : s.quadOn u j = false ∨ s.refclkOk u = false) : cdrLockOp u j s = s := if_pos h

theorem cdrLockOp_portless (on : s.quadOn u j = true) (clock : s.refclkOk u = true) (port : s.portOf u j = none) :
    cdrLockOp u j s = adapt (lockedOn u j s) u j := by
  have none := (adapt_lockedOn_portOf s u j).trans port
  have acts : ¬ (s.quadOn u j = false ∨ s.refclkOk u = false) := by simp [on, clock]
  unfold lockedOn at none ⊢
  simp only [cdrLockOp, if_neg acts, none]

theorem cdrLockOp_port (on : s.quadOn u j = true) (clock : s.refclkOk u = true) (port : s.portOf u j = some k) :
    cdrLockOp u j s = tryDetect (adapt (lockedOn u j s) u j) u k := by
  have some := (adapt_lockedOn_portOf s u j).trans port
  have acts : ¬ (s.quadOn u j = false ∨ s.refclkOk u = false) := by simp [on, clock]
  unfold lockedOn at some ⊢
  simp only [cdrLockOp, if_neg acts, some]

/-- A port in DETECT whose clock is good and whose lanes are all heard leaves it under an IEEE policy (R110). -/
theorem tryDetect_ieee (state : s.laneSt u k = 2) (clock : s.refclkOk u = true)
    (heard : (s.portLanes u k).all (fun i => s.laneHeard u i) = true) (policy : s.policy u k ≠ 2) :
    tryDetect s u k = portSet s u k 6 4 := (if_pos ⟨state, clock, heard⟩).trans (if_neg policy)

/-- On the ladder it leaves once every lane has received a valid frame as well (R119). -/
theorem tryDetect_ladder (state : s.laneSt u k = 2) (clock : s.refclkOk u = true)
    (heard : (s.portLanes u k).all (fun i => s.laneHeard u i) = true) (policy : s.policy u k = 2) :
    tryDetect s u k = if (s.portLanes u k).all (fun i => (s.lane u i).ktfSeen) then portSet s u k 4 1 else s :=
  (if_pos ⟨state, clock, heard⟩).trans (if_pos policy)

theorem signalStableOp_unpowered (off : s.quadOn u j = false) : signalStableOp u j s = s := if_pos off

theorem signalStableOp_portless (on : s.quadOn u j = true) (port : s.portOf u j = none) : signalStableOp u j s =
    (s.setFlag (Reg.LN_STS_SIGNAL (lnBase u j)) true).modLane u j (fun x => { x with waitSignal := false }) := by
  have signal : OnlyRegs (receiverRegs (lnBase u j)) s (s.setFlag (Reg.LN_STS_SIGNAL (lnBase u j)) true) :=
    (OnlyRegs.refl _ s).setFlag (f := Reg.LN_STS_SIGNAL _) List.mem_cons_self true
  have none : ((s.setFlag (Reg.LN_STS_SIGNAL (lnBase u j)) true).modLane u j (fun x => { x with waitSignal := false })).portOf u j = none :=
    (State.portOf_modLane _ u j _).trans (signal.portOf_eq.trans port)
  simp only [signalStableOp, on, Bool.true_eq_false, if_false, none]

end Lock

/-! ### The reference clock of a group (R130) -/

section Refclk
variable {s : State} {u : LaneUnit}

theorem refclkLostOp_again (h : u ∈ s.lanes.refclkBad) : refclkLostOp u s = s := if_pos (List.contains_iff_mem.2 h)

theorem refclkLostOp_first (h : u ∉ s.lanes.refclkBad) : refclkLostOp u s = (List.range (laneCount u)).foldl
    (fun s i => if s.portOf u i = some i ∧ s.laneSt u i ≠ 0 ∧ s.laneSt u i ≠ 8 then restartPort s u i 5 else s)
    ((List.range (laneCount u)).foldl (fun s i => raiseLane (s.setFlag (Reg.LN_STS_REFCLK_OK (lnBase u i)) false) u i 3)
      { s with lanes := { s.lanes with refclkBad := u :: s.lanes.refclkBad } }) :=
  if_neg fun again => h (List.contains_iff_mem.1 again)

/-- The clock of a group is noted as good. -/
def clockNoted (u : LaneUnit) (s : State) : State :=
  { s with lanes := { s.lanes with refclkBad := s.lanes.refclkBad.filter (fun x => x ≠ u) } }

theorem refclkRestoredOp_eq (u : LaneUnit) (s : State) : refclkRestoredOp u s =
    (List.range (laneCount u)).foldl (fun s j => s.setFlag (Reg.LN_STS_REFCLK_OK (lnBase u j)) true) (clockNoted u s) := rfl

theorem refclkRestoredOp_lanes (u : LaneUnit) (s : State) : (refclkRestoredOp u s).lanes = (clockNoted u s).lanes :=
  foldl_keeps State.lanes (fun t _ _ => t.setFlag_lanes _ true) _

theorem refclkRestoredOp_onlyRegs (u : LaneUnit) (s : State) :
    OnlyRegs (statusRegs u (List.range (laneCount u))) { s with lanes := (refclkRestoredOp u s).lanes } (refclkRestoredOp u s) := by
  rw [refclkRestoredOp_lanes, refclkRestoredOp_eq]
  exact OnlyRegs.foldl (fun t _ m => (OnlyRegs.refl _ t).setFlag (f := Reg.LN_STS_REFCLK_OK _) (mem_statusRegs m) true) (clockNoted u s)

theorem refclkRestoredOp_forgets (u : LaneUnit) (s : State) : u ∉ (refclkRestoredOp u s).lanes.refclkBad := by
  rw [refclkRestoredOp_lanes]
  simp [clockNoted]

theorem refclkRestoredOp_ok (s : State) {i : Nat} (h : i < laneCount u) : (refclkRestoredOp u s).flag (Reg.LN_STS_REFCLK_OK (lnBase u i)) = true := by
  rw [refclkRestoredOp_eq]
  refine foldl_reaches (fun t => t.flag (Reg.LN_STS_REFCLK_OK (lnBase u i))) (fun t => ?_) (fun t j ne => ?_) (List.mem_range.2 h) _
  · exact State.flag_setFlag_held rfl t true
  · exact t.flag_set_off _ _ _ (lnBase_other u (Ne.symm ne) 4)

end Refclk

end Sys2Proof.Machine

namespace Sys2Proof.Proofs
open Sys2Proof.Machine

/-- Settles O19: each command by what its operation leaves where the lane's port, its quad and its group's clock are as named. -/
theorem laneSignals : Obligations.LaneSignals := by
  intro s l k run u j b loss
  have op {t c f} := @exec_of_live s t c f run
  refine ⟨fun port active => ?_, fun idle => ?_, fun port lock => ?_, fun lock => op rfl (cdrUnlockOp_unlocked lock), fun on clock => ?_,
    fun off => op rfl (cdrLockOp_idle off), fun on port => op rfl (signalStableOp_portless on port),
    fun off => op rfl (signalStableOp_unpowered off), fun state clock heard => ?_, fun first => op rfl (refclkLostOp_first first),
    fun again => op rfl (refclkLostOp_again again), ?_⟩
  · exact ⟨silenced u j k loss, op rfl (losOp_active port active rfl), silenced_shows loss u j k⟩
  · obtain none | ⟨port, inactive⟩ := idle
    · exact op rfl (losOp_portless none)
    · exact op rfl (losOp_inactive port inactive)
  · exact ⟨unlocked u j s, op rfl (cdrUnlockOp_portless port lock), unlocked_onlyRegs s u j, unlocked_fields s u j⟩
  · refine ⟨adapt (lockedOn u j s) u j, ?_, lockedOn_adapts s u j⟩
    cases port : s.portOf u j with
    | none => exact op rfl (cdrLockOp_portless on clock port)
    | some k => exact op rfl (cdrLockOp_port on clock port)
  · exact ⟨tryDetect_ieee state clock heard, tryDetect_ladder state clock heard⟩
  · exact ⟨_, op rfl rfl, refclkRestoredOp_forgets u s, refclkRestoredOp_onlyRegs u s, fun i h => refclkRestoredOp_ok s h⟩

end Sys2Proof.Proofs
end

section
/-! SUPPORT. The timers of bring-up and the clauses of the IEEE policies, on a lane of a port (03 R107, R110, R118, R119). -/

namespace Sys2Proof.Machine

section Timers
variable {s : State} {u : LaneUnit} {j k : Nat}

theorem rungTimeoutOp_port (port : s.portOf u j = some k) : rungTimeoutOp u j s =
    if s.policy u k = 2 ∧ (s.laneSt u j = 2 ∨ s.laneSt u j = 4 ∨ s.laneSt u j = 5) then restartPort s u k 1 else s := by
  simp only [rungTimeoutOp, port]

theorem failRetryOp_port (port : s.portOf u j = some k) :
    failRetryOp u j s = if s.laneSt u j = 7 then beginPort s u k false else s := by
  simp only [failRetryOp, port]

/-! ### The end of the gap (R118, R119) -/

/-- The lanes of a port at a new rung, on which no frame has been sent or received. -/
def refreshed (s : State) (u : LaneUnit) (k : Nat) : State :=
  modLanes s u (s.portLanes u k) (fun x => { x with
    validRun := 0, ktfSeen := false, peerReady := false, peerStep := 0, rxReady := false, sentStep := 0, gap := false, known := 0, errs := 0 })

theorem stepResumeOp_mission (port : s.portOf u j = some k) (gap : s.inGap u k = true) :
    stepResumeOp u j s = portSet (refreshed s u k) u k 6 (s.topRung u k) := by
  simp only [stepResumeOp, port, gap, if_true, refreshed]

theorem stepResumeOp_next (port : s.portOf u j = some k) (gap : s.inGap u k = false) (step : s.laneSt u j = 5) {r : Nat}
    (next : s.nextRung u k = some r) : stepResumeOp u j s = portSet (refreshed s u k) u k 4 r := by
  simp only [stepResumeOp, port, gap, Bool.false_eq_true, if_false, step, ne_eq, not_true_eq_false, next, refreshed]

theorem stepResumeOp_top (port : s.portOf u j = some k) (gap : s.inGap u k = false) (step : s.laneSt u j = 5)
    (next : s.nextRung u k = none) : stepResumeOp u j s = failPort (refreshed s u k) u k 2 := by
  simp only [stepResumeOp, port, gap, Bool.false_eq_true, if_false, step, ne_eq, not_true_eq_false, next, refreshed]

theorem stepResumeOp_elsewhere (port : s.portOf u j = some k) (gap : s.inGap u k = false) (step : s.laneSt u j ≠ 5) :
    stepResumeOp u j s = s := by
  simp only [stepResumeOp, port, gap, Bool.false_eq_true, if_false, if_pos step]

/-! ### Training under an IEEE policy (R110, R129) -/

theorem ieeeTrainDoneOp_trains (port : s.portOf u j = some k) (policy : s.policy u k ≠ 2) (train : s.laneSt u j = 4) :
    ieeeTrainDoneOp u j s = if s.noWait u k then ieeeMission s u k
      else modLanes s u (s.portLanes u k) (fun x => { x with trained := true }) := by
  simp only [ieeeTrainDoneOp, port]
  exact if_neg fun h => h.elim policy (fun other => other train)

theorem ieeeTrainDoneOp_elsewhere (port : s.portOf u j = some k) (h : s.policy u k = 2 ∨ s.laneSt u j ≠ 4) :
    ieeeTrainDoneOp u j s = s := by
  simp only [ieeeTrainDoneOp, port]
  exact if_pos h

theorem ieeeTrainTimeoutOp_trains (port : s.portOf u j = some k) (policy : s.policy u k ≠ 2) (train : s.laneSt u j = 4) :
    ieeeTrainTimeoutOp u j s = failPort s u k 8 := by
  simp only [ieeeTrainTimeoutOp, port]
  exact if_pos ⟨policy, train⟩

theorem ieeeTrainTimeoutOp_elsewhere (port : s.portOf u j = some k) (h : s.policy u k = 2 ∨ s.laneSt u j ≠ 4) :
    ieeeTrainTimeoutOp u j s = s := by
  simp only [ieeeTrainTimeoutOp, port]
  exact if_neg fun ⟨policy, train⟩ => h.elim policy (fun other => other train)

/-! ### Negotiation (R107) -/

theorem anTimerOp_port (port : s.portOf u j = some k) : anTimerOp u j s =
    if k = j ∧ s.laneSt u j = 3 ∧ (s.lane u j).anBase = true then failPort s u j 7 else s := by
  simp only [anTimerOp, port, Option.some.injEq]

theorem anPageOp_elsewhere (port : s.portOf u j = some k) (h : k ≠ j ∨ s.laneSt u j ≠ 3) (page : AnPage) : anPageOp u j page s = s := by
  refine if_pos ?_
  rw [port]
  exact h.imp_left fun other same => other (Option.some.inj same)

/-- A lane that has received a base page, or a page after it. -/
def baseHeard (s : State) (u : LaneUnit) (j : Nat) : State := s.modLane u j (fun x => { x with anBase := true })

/-- A first lane whose pages have resolved to a code of AN_HCD. -/
def resolvedAs (s : State) (u : LaneUnit) (j code : Nat) : State := (baseHeard s u j).set (Reg.LN_TRAIN_STS_AN_HCD (lnBase u j)) code

/-- The page ends NEGOTIATE in TRAIN or, on another medium than the port's own, with AN_FAIL. -/
def resolvePage (s : State) (u : LaneUnit) (j code : Nat) (ok : Bool) : State :=
  if ok then (if (resolvedAs s u j code).noWait u j then portSet (resolvedAs s u j code) u j 4 4 else resolvedAs s u j code)
  else failPort (resolvedAs s u j code) u j 7

/-- What a page does to a port in NEGOTIATE, on its first lane. -/
theorem anPageOp_negotiates (port : s.portOf u j = some j) (state : s.laneSt u j = 3) :
    anPageOp u j .base s = sendPages (baseHeard s u j) u j ∧
    anPageOp u j .resolvedKr s = resolvePage s u j 1 (s.get (Reg.LN_CFG_MEDIUM (lnBase u j)) = 0) ∧
    anPageOp u j .resolvedCr s = resolvePage s u j 2 (s.get (Reg.LN_CFG_MEDIUM (lnBase u j)) = 1) ∧
    anPageOp u j .resolvedOther s = resolvePage s u j 3 false := by
  have acts : ¬ (s.portOf u j ≠ some j ∨ s.laneSt u j ≠ 3) := by simp [port, state]
  exact ⟨if_neg acts, if_neg acts, if_neg acts, if_neg acts⟩

/-- A page leaves the wait for signal as it is. -/
theorem resolvedAs_noWait (s : State) (u : LaneUnit) (j code : Nat) : (resolvedAs s u j code).noWait u j = s.noWait u j := by
  have cfg : (resolvedAs s u j code).rd (Reg.LN_CFG (lnBase u j)) = s.rd (Reg.LN_CFG (lnBase u j)) :=
    (State.rd_set_ne _ (Reg.LN_TRAIN_STS_AN_HCD (lnBase u j)) code
      (lnBase_apart u j j (a := 0) (b := 0xC) (by decide) (by decide) (by decide))).trans (s.modLane_rd _ _ _ _)
  have wait (i : Nat) : ((resolvedAs s u j code).lane u i).waitSignal = (s.lane u i).waitSignal := by
    rw [resolvedAs, State.lane_of_lanes (State.set_lanes (baseHeard s u j) _ code), baseHeard]
    by_cases same : i = j
    · rw [same, State.lane_modLane]
    · rw [State.lane_modLane_ne _ _ same]
  simp only [State.noWait, State.portLanes_of_cfg cfg, wait]

theorem resolvePage_passes (wait : s.noWait u j = true) (code : Nat) {ok : Bool} (h : ok = true) :
    resolvePage s u j code ok = portSet (resolvedAs s u j code) u j 4 4 := by
  rw [resolvePage, if_pos h, if_pos ((resolvedAs_noWait s u j code).trans wait)]

theorem resolvePage_fails (code : Nat) {ok : Bool} (h : ok = false) : resolvePage s u j code ok = failPort (resolvedAs s u j code) u j 7 :=
  if_neg (Bool.eq_false_iff.1 h)

end Timers

end Sys2Proof.Machine

namespace Sys2Proof.Proofs
open Sys2Proof.Machine

/-- Settles O20: each timer and each page by the branch of its operation that the port's state and policy select. -/
theorem bringUpMoves : Obligations.BringUpMoves := by
  intro s l k page run port u j st fresh heard resolved
  have op {t c f} := @exec_of_live s t c f run
  refine ⟨op rfl (rungTimeoutOp_port port), op rfl (failRetryOp_port port), fun gap => op rfl (stepResumeOp_mission port gap),
    fun gap step => ?_, fun gap other => op rfl (stepResumeOp_elsewhere port gap other),
    fun policy train => op rfl (ieeeTrainDoneOp_trains port policy train),
    fun policy train => op rfl (ieeeTrainTimeoutOp_trains port policy train),
    fun other => ⟨op rfl (ieeeTrainDoneOp_elsewhere port other), op rfl (ieeeTrainTimeoutOp_elsewhere port other)⟩,
    op rfl (anTimerOp_port port), fun other => op rfl (anPageOp_elsewhere port other page), fun first state => ?_⟩
  · cases next : s.nextRung u k with
    | none => exact op rfl (stepResumeOp_top port gap step next)
    | some r => exact op rfl (stepResumeOp_next port gap step next)
  · obtain ⟨base, kr, cr, other⟩ := anPageOp_negotiates (port.trans (congrArg some first)) state
    refine ⟨op rfl base, op rfl (other.trans (resolvePage_fails 3 rfl)), fun medium => ?_, fun medium => ?_, fun medium wait => ?_,
      fun medium wait => ?_⟩
    · exact op rfl (cr.trans (resolvePage_fails 2 (decide_eq_false (by rw [medium]; decide))))
    · exact op rfl (kr.trans (resolvePage_fails 1 (decide_eq_false medium)))
    · exact op rfl (kr.trans (resolvePage_passes wait 1 (decide_eq_true medium)))
    · exact op rfl (cr.trans (resolvePage_passes wait 2 (decide_eq_true medium)))

end Sys2Proof.Proofs
end

section
/-! SUPPORT. Training frames as a lane sends and hears them, and the test patterns and their injection on a lane that loops nothing back
(03 R111 to R115, R118, R124, R126, R127). -/

namespace Sys2Proof.Machine

/-! ### A frame behind its marker (R111, R113) -/

/-- The number that bits spell, from the number spelled before them. -/
theorem bitsNum_from (l : List Bool) : ∀ a, l.foldl (fun a b => 2 * a + b2n b) a = a * 2 ^ l.length + bitsNum l := by
  induction l with
  | nil => intro a; simp [bitsNum]
  | cons b l ih =>
    intro a
    have here : bitsNum (b :: l) = b2n b * 2 ^ l.length + bitsNum l := by simpa [bitsNum] using ih (b2n b)
    rw [List.foldl_cons, ih, here, List.length_cons]
    ring

theorem bitsOf_append (a b : List Byte) : bitsOf (a ++ b) = bitsOf a ++ bitsOf b := List.flatMap_append

/-- The bits of bytes spell the number that the bytes spell. -/
theorem bitsNum_bitsOf (bs : List Byte) : bitsNum (bitsOf bs) = be bs := by
  have one : ∀ b : Byte, bitsNum (bitsOf [b]) = b.toNat := by decide +kernel
  induction bs using List.reverseRecOn with
  | nil => rfl
  | append_singleton bs b ih =>
    calc bitsNum (bitsOf (bs ++ [b]))
      _ = (bitsOf [b]).foldl (fun a b => 2 * a + b2n b) (bitsNum (bitsOf bs)) := by rw [bitsOf_append, bitsNum, List.foldl_append]; rfl
      _ = be bs * 256 + b.toNat := by rw [bitsNum_from, one, ih, length_bitsOf]; rfl
      _ = be (bs ++ [b]) := by rw [be, be, List.foldl_append]; rfl

theorem take_bitsOf (n : Nat) (bs : List Byte) (h : n ≤ bs.length) : (bitsOf bs).take (8 * n) = bitsOf (bs.take n) := by
  have cut : bitsOf bs = bitsOf (bs.take n) ++ bitsOf (bs.drop n) := by rw [← bitsOf_append, List.take_append_drop]
  rw [cut, List.take_left' (by simp [h])]

/-- The search ends where it begins when the bits begin with the marker. -/
theorem findKtf_marker {l : List Bool} (len : l.length = 512) (first : bitsNum (l.take 32) = marker) (rung : Nat) :
    findKtf rung l = some (false, l) := by
  cases l with
  | nil => exact absurd len (by decide)
  | cons b r =>
    have whole : ¬ r.length < 511 := by
      rw [List.length_cons] at len
      omega
    simp only [findKtf, if_neg whole, first, if_true, List.take_of_length_le (Nat.le_of_eq len)]

theorem findKtf_frame {f : List Byte} (len : f.length = 64) (first : be (f.take 4) = 0x1D2B6E47) (rung : Nat) :
    findKtf rung (bitsOf f) = some (false, bitsOf f) := by
  refine findKtf_marker (by rw [length_bitsOf, len]) ?_ rung
  rw [take_bitsOf 4 f (by omega), bitsNum_bitsOf]
  exact first

/-! ### Hearing (R112, R113, R115, R118) -/

/-- A lane whose runs of valid frames and of STEP_REQ end, and which is not ready. -/
def runsEnded (s : State) (u : LaneUnit) (j : Nat) : State :=
  s.modLane u j (fun x => { x with validRun := 0, peerStep := 0, rxReady := false })

section Ktf
variable {s : State} {u : LaneUnit} {j k : Nat}

theorem nearLoop_unlooped (loop : s.get (Reg.LN_CFG_LOOP (lnBase u j)) = 0) : s.nearLoop u j = false := by
  rw [State.nearLoop, loop]
  rfl

theorem farLoop_unlooped (loop : s.get (Reg.LN_CFG_LOOP (lnBase u j)) = 0) : s.farLoop u j = false := by
  rw [State.farLoop, loop]
  rfl

theorem hearKtf_none {l : List Bool} (h : findKtf (s.get (Reg.LN_STS_RUNG (lnBase u j))) l = none) (known errs : Nat) :
    hearKtf s u k j l known errs = runsEnded s u j := by
  simp only [hearKtf, h, runsEnded]

/-- A frame on a pair that is not swapped, where the receiver has nothing to adapt to, counts if it is valid. -/
theorem hearKtf_frame {f : List Byte} (h : findKtf (s.get (Reg.LN_STS_RUNG (lnBase u j))) (bitsOf f) = some (false, bitsOf f))
    (plain : s.flag (Reg.LN_STS_RX_POL_INV (lnBase u j)) = false) (still : s.adapts u j = false) (known errs : Nat) :
    hearKtf s u k j (bitsOf f) known errs =
      if ktfValid s u j (ktfScramble f) then ktfTake s u k j (ktfScramble f) known errs else runsEnded s u j := by
  simp only [hearKtf, h, Bool.false_and, Bool.false_eq_true, if_false, plain, still, bytesOf_bitsOf, runsEnded]

theorem ladderLane_of {st : Nat} (policy : s.policy u k = 2) (state : s.laneSt u j = st) :
    s.ladderLane u k j = decide (st = 2 ∨ st = 4 ∨ st = 5) := by
  simp [State.ladderLane, policy, state, Bool.or_assoc]

theorem ktfReceivedOp_hears (port : s.portOf u j = some k) (policy : s.policy u k = 2)
    (loop : s.get (Reg.LN_CFG_LOOP (lnBase u j)) = 0) (state : s.laneSt u j = 2 ∨ s.laneSt u j = 4 ∨ s.laneSt u j = 5)
    (lead : List Bool) (f : List Byte) (known errs : Nat) :
    ktfReceivedOp u j lead f known errs s = hearKtf s u k j (lead ++ bitsOf f) known errs := by
  have takes : ¬ (s.ladderLane u k j = false ∨ s.nearLoop u j = true) := by
    simp [ladderLane_of policy rfl, state, nearLoop_unlooped loop]
  simp only [ktfReceivedOp, port, if_neg takes, farLoop_unlooped loop, Bool.false_and, Bool.false_eq_true, if_false]

theorem ktfReceivedOp_elsewhere (port : s.portOf u j = some k) (policy : s.policy u k = 2)
    (state : ¬ (s.laneSt u j = 2 ∨ s.laneSt u j = 4 ∨ s.laneSt u j = 5)) (lead : List Bool) (f : List Byte) (known errs : Nat) :
    ktfReceivedOp u j lead f known errs s = s := by
  simp only [ktfReceivedOp, port]
  exact if_pos (.inl (by rw [ladderLane_of policy rfl, decide_eq_false state]))

/-! ### Sending (R111, R112, R116, R118) -/

/-- A lane whose request the peer has not answered makes no other. -/
theorem newRequest_asked (asked : (s.lane u j).peerAck ≠ (s.lane u j).reqSeq) : newRequest s u j = s := if_neg asked

/-- Outside TRAIN a port does not show STEP_REQ. -/
theorem stepReq_untrained (state : s.laneSt u k ≠ 4) : s.stepReq u k = false := by
  simp [State.stepReq, state]

theorem tryStep_unasked (h : s.stepReq u k = false) : tryStep s u k = s := if_neg fun both => by simp [h] at both

theorem sendBits_stepReq (rung : Nat) (l : List Bool) : (sendBits s u j rung l).stepReq u k = s.stepReq u k := rfl

/-- In DETECT, while its request waits for an answer, a lane sends its frame and nothing else happens. -/
theorem ktfTxOp_detect (port : s.portOf u j = some k) (policy : s.policy u k = 2) (loop : s.get (Reg.LN_CFG_LOOP (lnBase u j)) = 0)
    (state : s.laneSt u j = 2) (first : s.laneSt u k = 2) (asked : (s.lane u j).peerAck ≠ (s.lane u j).reqSeq)
    (on : s.flag (Reg.LN_CFG_TX_DISABLE (lnBase u j)) = false) : ktfTxOp u j s =
      sendBits s u j (s.get (Reg.LN_STS_RUNG (lnBase u j))) (bitsOf (ktfScramble (ktfBytes s u k j false (s.ownHold u k)))) := by
  have gap : s.inGap u k = false := by simp [State.inGap, first]
  have quiet : s.stepReq u k = false := stepReq_untrained (by rw [first]; decide)
  have sends : ¬ (s.policy u k ≠ 2 ∨ (s.laneSt u j ≠ 2 ∧ s.laneSt u j ≠ 4) ∨ s.inGap u k = true) := by simp [policy, state, gap]
  have drives : ¬ (s.flag (Reg.LN_CFG_TX_DISABLE (lnBase u j)) = true ∨ s.farLoop u j = true) := by simp [on, farLoop_unlooped loop]
  have away (rung : Nat) (l : List Bool) : (sendBits s u j rung l).nearLoop u j = false := nearLoop_unlooped loop
  simp only [ktfTxOp, port, if_neg sends, if_neg drives, newRequest_asked asked, quiet, Bool.false_eq_true, if_false, away]
  exact tryStep_unasked ((sendBits_stepReq _ _).trans quiet)

theorem ktfTxOp_elsewhere (port : s.portOf u j = some k) (detect : s.laneSt u j ≠ 2) (train : s.laneSt u j ≠ 4) : ktfTxOp u j s = s := by
  simp only [ktfTxOp, port]
  exact if_pos (.inr (.inl ⟨detect, train⟩))

end Ktf

/-! ### Test patterns (R124, R126) -/

/-- The bits that a checker takes from symbols: Gray decoded, and with INV undone. -/
def checkedBits (s : State) (u : LaneUnit) (j : Nat) (heard : List Symbol) : List Bool :=
  if s.flag (Reg.LN_PRBS_CFG_INV (lnBase u j)) then (symbolBits heard).map not else symbolBits heard

/-- A checker that has compared bits and found errors on them, both counted. -/
def compared (s : State) (u : LaneUnit) (j bitsN errs : Nat) : State :=
  let t := (s.bump (Reg.LN_PRBS_BITS (lnBase u j)) bitsN).bump (Reg.LN_PRBS_ERR (lnBase u j)) errs
  if errs = 0 then t else t.modLane u j (fun x => { x with clean := some t.clk })

section Prbs
variable {s : State} {u : LaneUnit} {j : Nat}

/-- What makes a checker lock: it runs, and 1,024 bits or more are its pattern's. -/
def patternFound (s : State) (u : LaneUnit) (j : Nat) (heard : List Symbol) : Prop :=
  s.checks u j = true ∧ 1024 ≤ (checkedBits s u j heard).length ∧
    inPattern (s.get (Reg.LN_PRBS_CFG_PATTERN (lnBase u j))) (checkedBits s u j heard) = true

theorem prbsLockOp_finds (loop : s.get (Reg.LN_CFG_LOOP (lnBase u j)) = 0) {heard : List Symbol} (found : patternFound s u j heard) :
    prbsLockOp u j heard s = lockPrbs s u j := by
  obtain ⟨runs, long, fits⟩ := found
  exact if_pos ⟨runs, nearLoop_unlooped loop, long, fits⟩

theorem prbsLockOp_misses {heard : List Symbol} (h : ¬ patternFound s u j heard) : prbsLockOp u j heard s = s :=
  if_neg fun ⟨runs, _, long, fits⟩ => h ⟨runs, long, fits⟩

theorem lockPrbs_locks (free : s.flag (Reg.LN_PRBS_STS_LOCKED (lnBase u j)) = false) : lockPrbs s u j =
    (s.modLane u j (fun x => { x with clean := some s.clk })).setFlag (Reg.LN_PRBS_STS_LOCKED (lnBase u j)) true :=
  if_neg (by simp [free])

theorem lockPrbs_locked (h : s.flag (Reg.LN_PRBS_STS_LOCKED (lnBase u j)) = true) : lockPrbs s u j = s := if_pos h

theorem prbsLockLostOp_unlocked (free : s.flag (Reg.LN_PRBS_STS_LOCKED (lnBase u j)) = false) (n errs : Nat) :
    prbsLockLostOp u j n errs s = s := if_neg (by simp [free])

theorem prbsLockLostOp_few (locked : s.flag (Reg.LN_PRBS_STS_LOCKED (lnBase u j)) = true) {errs : Nat} (few : errs < 64) (n : Nat) :
    prbsLockLostOp u j n errs s = compared s u j n errs := (if_pos locked).trans (if_pos few)

theorem prbsLockLostOp_many (locked : s.flag (Reg.LN_PRBS_STS_LOCKED (lnBase u j)) = true) {errs : Nat} (many : 64 ≤ errs) (n : Nat) :
    prbsLockLostOp u j n errs s = raiseLane (((compared s u j n errs).setFlag (Reg.LN_PRBS_STS_LOCKED (lnBase u j)) false).setFlag
      (Reg.LN_PRBS_STS_LOCK_LOST (lnBase u j)) true) u j 8 := (if_pos locked).trans (if_neg (by omega))

/-! ### Injection (R127) -/

/-- A burst of the lane's next bits, inverted and counted. -/
def burstSent (s : State) (u : LaneUnit) (j : Nat) : State :=
  (s.inc (Reg.LN_INJ_COUNT (lnBase u j))).emit (.inverted (laneNamed u j) (s.burstLen u j))

/-- No event writes a lane's configuration: what it writes beyond the units' low windows stands at other places (R97). -/
theorem cfg_not_event (u : LaneUnit) (j : Nat) : Reg.LN_CFG (lnBase u j) ∉ eventRegs 0x8001 := fun m => by
  have places : ∀ a ∈ eventRegs 0x8001, a < 0x100000 ∨ a % 0x1000 ≠ 0 := by decide +kernel
  have here := places _ m
  revert here
  cases u <;> simp only [Reg.LN_CFG, lnBase] <;> omega

/-- A count leaves the loopback of a lane. -/
theorem inc_nearLoop (s : State) (u : LaneUnit) (j c : Nat) : (s.inc c).nearLoop u j = s.nearLoop u j := by
  rw [State.nearLoop, State.nearLoop, State.get_of_rd (inc_rd s c (cfg_not_event u j))]

theorem injectOp_unlooped (loop : s.get (Reg.LN_CFG_LOOP (lnBase u j)) = 0) :
    injectOp u j s = if s.injectable u j then burstSent s u j else s := by
  have away : (burstSent s u j).nearLoop u j = false := (inc_nearLoop s u j _).trans (nearLoop_unlooped loop)
  unfold burstSent at away
  simp only [injectOp, away, Bool.false_eq_true, false_and, if_false, burstSent]

theorem injBurstOp_unlooped (loop : s.get (Reg.LN_CFG_LOOP (lnBase u j)) = 0) : injBurstOp u j s =
    if 10 ≤ s.get (Reg.LN_INJ_RATE_EXP (lnBase u j)) ∧ s.get (Reg.LN_INJ_RATE_EXP (lnBase u j)) ≤ 40 ∧ s.injectable u j = true
      then burstSent s u j else s := by
  unfold injBurstOp
  rw [injectOp_unlooped loop]
  by_cases due : 10 ≤ s.get (Reg.LN_INJ_RATE_EXP (lnBase u j)) ∧ s.get (Reg.LN_INJ_RATE_EXP (lnBase u j)) ≤ 40
  · simp only [due, and_self, if_true, true_and]
  · rw [if_neg due, if_neg fun ⟨low, high, _⟩ => due ⟨low, high⟩]

end Prbs

end Sys2Proof.Machine

namespace Sys2Proof.Proofs
open Sys2Proof.Machine

/-- Settles O21: frames by where the search for their marker ends, patterns and bursts by the branch that the checker or the injector takes. -/
theorem laneTests : Obligations.LaneTests := by
  refine ⟨fun s l k known errs lead f run port policy loop => ?_, fun s who l syms n errs serves loop => ?_⟩
  · intro u j b st lost ready
    have op {t c f} := @exec_of_live s t c f run
    refine ⟨fun state first asked on => op rfl (ktfTxOp_detect port policy loop state first asked on), fun state => ⟨fun none => ?_,
      fun plain still len first => ?_⟩, fun detect train => op rfl (ktfTxOp_elsewhere port detect train), fun detect train step => ?_⟩
    · exact op rfl ((ktfReceivedOp_hears port policy loop state lead f known errs).trans (hearKtf_none none known errs))
    · exact op rfl ((ktfReceivedOp_hears port policy loop state [] f known errs).trans
        (hearKtf_frame (findKtf_frame len first _) plain still known errs))
    · exact op rfl (ktfReceivedOp_elsewhere port policy (fun state => state.elim detect (·.elim train step)) lead f known errs)
  · intro u j b bits found tallied noted burst e
    have op {t c f} := @exec_of_live s t c f serves.1.1
    refine ⟨fun h free => op rfl ((prbsLockOp_finds loop h).trans (lockPrbs_locks free)), fun h => op rfl ?_,
      fun locked few => op rfl (prbsLockLostOp_few locked few n), fun locked many => op rfl (prbsLockLostOp_many locked many n),
      fun free => op rfl (prbsLockLostOp_unlocked free n errs), ?_, op rfl (injBurstOp_unlooped loop)⟩
    · by_cases heard : patternFound s u j syms
      · exact (prbsLockOp_finds loop heard).trans (lockPrbs_locked (h.resolve_left (not_not_intro heard)))
      · exact prbsLockOp_misses heard
    · exact congrArg Host.Outcome.next ((gateOwner_acts _ _ serves).trans (injectOp_unlooped loop))

end Sys2Proof.Proofs
end

section
/-! SUPPORT. Ethernet ports: frames as the MAC receives them, and the state of a link, its faults and its FEC intervals (04 R138, R140, R141,
R145, R147 to R152). -/

namespace Sys2Proof.Machine

/-! ### Frames received (R140, R141, R202) -/

/-- A port has its first lane, whatever its width (R101). -/
theorem first_mem_portLanes (s : State) (u : LaneUnit) (k : Nat) : k ∈ s.portLanes u k :=
  List.mem_map.2 ⟨0, List.mem_range.2 (Nat.two_pow_pos _), rfl⟩

section Mac
variable {s : State} {side : Side} {k : Nat}

/-- On pairs that are not looped, the MAC alone meets the frame. A port has a lane, so that its far-end loopback does not hold for want of one. -/
theorem macPinsOp_unlooped (loop : ∀ j ∈ s.portLanes (sideUnit side) k, s.get (Reg.LN_CFG_LOOP (lnBase (sideUnit side) j)) = 0)
    (fr : List Byte) (e : Bool) : macPinsOp side k fr e s = macRxOp side k fr e s := by
  have near : ¬ (s.portLanes (sideUnit side) k).any (fun j => s.nearLoop (sideUnit side) j) = true := by
    rw [List.any_eq_true]
    rintro ⟨j, lane, looped⟩
    exact Bool.false_ne_true ((nearLoop_unlooped (loop j lane)).symm.trans looped)
  have far : s.portFar (sideUnit side) k = false :=
    List.all_eq_false.2 ⟨k, first_mem_portLanes s _ k, by simp [farLoop_unlooped (loop k (first_mem_portLanes s _ k))]⟩
  simp only [macPinsOp, if_neg near, far, Bool.and_false, Bool.false_eq_true, if_false]

/-- What keeps every frame from the MAC is that the window does not act, that the port carries a stream, or that a lane is not in MISSION. -/
theorem macDeaf_iff : (s.ethActs side k = false ∨ s.isStream k = true ∨ s.inMission (sideUnit side) k = false) ↔
    ¬ (s.ethActs side k = true ∧ s.isStream k = false ∧ s.inMission (sideUnit side) k = true) := by
  simp only [not_and_or, Bool.not_eq_true, Bool.not_eq_false]

theorem macRxOp_deaf (deaf : ¬ (s.ethActs side k = true ∧ s.isStream k = false ∧ s.inMission (sideUnit side) k = true))
    (fr : List Byte) (e : Bool) : macRxOp side k fr e s = s :=
  if_pos (macDeaf_iff.2 deaf)

theorem macRxOp_hears (fr : List Byte) (e : Bool) :
    s.ethActs side k = true ∧ s.isStream k = false ∧ s.inMission (sideUnit side) k = true → macRxOp side k fr e s =
      let b := portBase side k
      let c := (s.inc (Reg.PORT_RX_FRAMES b)).bump (Reg.PORT_RX_OCTETS b) fr.length
      if fr.length < 64 then c.inc (Reg.PORT_RX_RUNT b)
      else if c.rxLimit side k < fr.length then c.inc (Reg.PORT_RX_OVERSIZE b)
      else if e = true ∨ fcsOk fr = false then c.inc (Reg.PORT_RX_FCS_ERR b)
      else if be (sub fr 12 2) = 0x8808 then c.inc (Reg.PORT_RX_MACCTL b)
      else enterFrame c (newFrame c .data (match side with | .client => .enc | .line => .dec) (portIdx side k) (portIdx (otherSide side) k) fr) :=
  fun hears => if_neg fun deaf => macDeaf_iff.1 deaf hears

end Mac

/-! ### Link state and faults (R138, R145, R147 to R149, R151, R152) -/

section Idle
variable {s : State} {side : Side} {k : Nat} (idle : s.ethActs side k = false)
include idle

theorem pcsAlignedOp_idle : pcsAlignedOp side k s = s := if_neg (by simp [idle])

theorem pcsAlignLostOp_idle (cause : PcsCause) : pcsAlignLostOp side k cause s = s := if_pos idle

theorem deskewFailOp_idle : deskewFailOp side k s = s := if_neg (by simp [idle])

theorem rsFaultOp_idle (fault : RsFault) : rsFaultOp side k fault s = s := if_pos idle

theorem linkUpOp_idle : linkUpOp side k s = s := if_neg (by simp [idle])

theorem mirrorStartOp_idle : mirrorStartOp side k s = s := if_neg (by simp [idle])

theorem mirrorStopOp_idle : mirrorStopOp side k s = s := if_neg (by simp [idle])

theorem fecIntervalOp_idle (corr uncorr : Nat) (syms : List Nat) : fecIntervalOp side k corr uncorr syms s = s := if_pos idle

end Idle

section Acting
variable {s : State} {side : Side} {k : Nat} (acts : s.ethActs side k = true)
include acts

theorem ethActs_ne_false : ¬ s.ethActs side k = false := by simp [acts]

theorem pcsAlignedOp_mission (mission : s.inMission (sideUnit side) k = true) : pcsAlignedOp side k s =
    let b := portBase side k
    let u := sideUnit side
    let t := if s.policy u k = 1 && s.flag (Reg.LN_TRAIN_TRAIN_OFF (lnBase u k)) then (s.portLanes u k).foldl (fun s j => ieeePolarity s u j) s
      else s
    ((t.setFlag (Reg.PORT_STS_BLOCK_LOCK b) true).setFlag (Reg.PORT_STS_ALIGNED b) true).setFlag (Reg.PORT_STS_HI_SER b) false :=
  if_pos (by simp [acts, mission])

omit acts in
theorem pcsAlignedOp_early (early : s.inMission (sideUnit side) k = false) : pcsAlignedOp side k s = s := if_neg (by simp [early])

theorem pcsAlignLostOp_blockLock : pcsAlignLostOp side k .blockLock s =
    ethDown ((s.setFlag (Reg.PORT_STS_BLOCK_LOCK (portBase side k)) false).setFlag (Reg.PORT_STS_ALIGNED (portBase side k)) false) side k :=
  if_neg (ethActs_ne_false acts)

theorem pcsAlignLostOp_align :
    pcsAlignLostOp side k .align s = ethDown (s.setFlag (Reg.PORT_STS_ALIGNED (portBase side k)) false) side k :=
  if_neg (ethActs_ne_false acts)

theorem pcsAlignLostOp_hiSer :
    pcsAlignLostOp side k .hiSer s = ethDown (raiseEth (s.setFlag (Reg.PORT_STS_HI_SER (portBase side k)) true) side k 6) side k :=
  if_neg (ethActs_ne_false acts)

theorem deskewFailOp_acts :
    deskewFailOp side k s = ethDown (raiseEth (s.setFlag (Reg.PORT_STS_ALIGNED (portBase side k)) false) side k 5) side k :=
  if_pos acts

theorem rsFaultOp_none : rsFaultOp side k .none s = s.set (Reg.PORT_STS_FAULT_RX (portBase side k)) 0 := if_neg (ethActs_ne_false acts)

theorem rsFaultOp_local : rsFaultOp side k .localFault s =
    let t := s.set (Reg.PORT_STS_FAULT_RX (portBase side k)) 1
    ethDown (if s.get (Reg.PORT_STS_FAULT_RX (portBase side k)) = 1 then t else raiseEth t side k 3) side k :=
  if_neg (ethActs_ne_false acts)

theorem rsFaultOp_remote : rsFaultOp side k .remoteFault s =
    let t := stompCut (s.set (Reg.PORT_STS_FAULT_RX (portBase side k)) 2) (portIdx side k)
    ethDown (if s.get (Reg.PORT_STS_FAULT_RX (portBase side k)) = 2 then t else raiseEth t side k 4) side k :=
  if_neg (ethActs_ne_false acts)

theorem linkUpOp_acts : linkUpOp side k s =
    if s.ethReady side k = true ∧ s.flag (Reg.PORT_STS_LINK_UP (portBase side k)) = false
      then raiseEth (s.setFlag (Reg.PORT_STS_LINK_UP (portBase side k)) true) side k 1 else s :=
  if_congr (by simp [acts]) rfl rfl

theorem mirrorStartOp_acts : mirrorStartOp side k s =
    if s.get (Reg.PORT_CFG_FAULT_MIRROR (portBase side k)) = 1 ∧ s.pairDown side k = true
      then (if s.sendsFrame (portIdx side k) then { s with sch := { s.sch with mirrorDue := ladd (portIdx side k) s.sch.mirrorDue } }
        else s.setFlag (Reg.PORT_STS_MIRRORING (portBase side k)) true) else s :=
  if_congr (by simp [acts]) rfl rfl

theorem mirrorStopOp_acts : mirrorStopOp side k s =
    if s.pairDown side k then s
    else State.setFlag { s with sch := { s.sch with mirrorDue := ldel (portIdx side k) s.sch.mirrorDue } }
      (Reg.PORT_STS_MIRRORING (portBase side k)) false := by
  cases down : s.pairDown side k with
  | true => exact if_neg (by simp [down])
  | false => exact if_pos (by simp [acts, down])

/-! ### FEC intervals (R150) -/

theorem fecIntervalOp_acts (corr uncorr : Nat) (syms : List Nat) : fecIntervalOp side k corr uncorr syms s =
    let b := portBase side k
    let c := ((s.bump (Reg.PORT_FEC_CORR_CW b) corr).bump (Reg.PORT_FEC_UNCORR_CW b) uncorr).bump (Reg.PORT_FEC_CORR_SYM b) (syms.foldl (· + ·) 0)
    if syms.any (fun n => decide (c.get (Reg.PORT_FEC_CFG_SET_TH b) < n)) then
      (if c.flag (Reg.PORT_STS_DEGRADED b) then c else raiseEth (c.setFlag (Reg.PORT_STS_DEGRADED b) true) side k 7)
    else if syms.all (fun n => decide (n ≤ c.get (Reg.PORT_FEC_CFG_CLEAR_TH b))) then c.setFlag (Reg.PORT_STS_DEGRADED b) false else c :=
  if_neg (ethActs_ne_false acts)

end Acting

end Sys2Proof.Machine

namespace Sys2Proof.Proofs
open Sys2Proof.Machine

/-- Settles O22: the MAC alone meets a frame on pairs that are not looped, and it hears the frame or is deaf to it. -/
theorem ethernetReceives : Obligations.EthernetReceives := by
  intro s side k fr e run loop b c hears
  have op {t} (acts : macRxOp side k fr e s = t) : exec (.macRxFrame side k fr e) s = .next t :=
    exec_of_live run rfl ((macPinsOp_unlooped loop fr e).trans acts)
  exact ⟨fun deaf => op (macRxOp_deaf deaf fr e), fun heard => op (macRxOp_hears fr e heard)⟩

/-- Settles O23: each command by whether the port's window acts, and then by its cause, its fault or its thresholds. -/
theorem ethernetLinks : Obligations.EthernetLinks := by
  intro s side k corr uncorr syms cause fault run b u m event polar c above
  have op {t c f} := @exec_of_live s t c f run
  refine ⟨fun acts => ⟨fun mission => op rfl (pcsAlignedOp_mission acts mission), fun early => op rfl (pcsAlignedOp_early early),
    op rfl (pcsAlignLostOp_blockLock acts), op rfl (pcsAlignLostOp_align acts), op rfl (pcsAlignLostOp_hiSer acts),
    op rfl (deskewFailOp_acts acts), op rfl (rsFaultOp_none acts), op rfl (rsFaultOp_local acts), op rfl (rsFaultOp_remote acts),
    op rfl (linkUpOp_acts acts), op rfl (mirrorStartOp_acts acts), op rfl (mirrorStopOp_acts acts),
    op rfl (fecIntervalOp_acts acts corr uncorr syms)⟩, fun idle => ?_⟩
  exact ⟨op rfl (pcsAlignedOp_idle idle), op rfl (pcsAlignLostOp_idle idle cause), op rfl (deskewFailOp_idle idle),
    op rfl (rsFaultOp_idle idle fault), op rfl (linkUpOp_idle idle), op rfl (mirrorStartOp_idle idle), op rfl (mirrorStopOp_idle idle),
    op rfl (fecIntervalOp_idle idle corr uncorr syms)⟩

end Sys2Proof.Proofs
end

section
/-! SUPPORT. Packet memory: what keeps a frame from admission, the buffer or the cells that it takes, which of them are free, and the errors
of the memory (04 R146; 09 R331, R332, R334, R336 to R338; 13 R490; 14 R508; 15 R540). -/

namespace Sys2Proof.Machine

/-! ### Which buffers and cells are free (R337) -/

/-- Of one number more than a list has entries, one is not in the list. -/
theorem exists_free (l : List Nat) : ∃ i ∈ List.range (l.length + 1), (!l.contains i) = true := by
  have more : l.toFinset.card < (Finset.range (l.length + 1)).card := by
    rw [Finset.card_range]
    exact Nat.lt_succ_of_le l.toFinset_card_le
  obtain ⟨i, below, free⟩ := Finset.exists_mem_notMem_of_card_lt_card more
  refine ⟨i, List.mem_range.2 (Finset.mem_range.1 below), ?_⟩
  simpa using free

theorem lowestFree_free (l : List Nat) : lowestFree l ∉ l := by
  obtain ⟨i, found⟩ := Option.isSome_iff_exists.1 (List.find?_isSome.2 (exists_free l))
  have free := List.find?_some found
  rw [lowestFree, found, Option.getD_some]
  simpa using free

section Spots
variable (s : State) (p i : Nat)

theorem takeSpots_one : takeSpots 1 s p = ([lowestFree (mlook [] p s.sch.inUse)],
    { s with sch := { s.sch with inUse := mstore [] p (ladd (lowestFree (mlook [] p s.sch.inUse)) (mlook [] p s.sch.inUse)) s.sch.inUse } }) :=
  rfl

variable {s p i}

theorem freeSpot_taken (taken : i ∈ mlook [] p s.sch.inUse) : freeSpot s p i =
    { s with sch := { s.sch with inUse := mstore [] p (ldel i (mlook [] p s.sch.inUse)) s.sch.inUse } } :=
  if_pos (List.contains_iff_mem.2 taken)

theorem freeSpot_free (free : i ∉ mlook [] p s.sch.inUse) :
    freeSpot s p i = raise0 (s.inc Reg.BPM_DOUBLE_FREE) 0x4001 (p * 2 ^ 20 + i) :=
  if_neg fun taken => free (List.contains_iff_mem.1 taken)

end Spots

/-! ### The configuration of the pools (R331, R332) -/

section Pools
variable {s : State}

theorem poolCfgWrite_held (h : s.anyHeld = true) (off : Nat) (val : Word) : poolCfgWrite off val s = s.inc Reg.CTL_FAULT_LOCK := if_pos h

theorem poolCfgWrite_empty (h : s.anyHeld = false) (off : Nat) (val : Word) : poolCfgWrite off val s = settlePools (storeReg off val s) :=
  if_neg (by simp [h])

theorem settlePools_spoilt (bad : s.poolsValid = false) (was : s.flag Reg.BPM_STS_CFG_ERR = false) :
    settlePools s = raise0 (s.setFlag Reg.BPM_STS_CFG_ERR true) 0x4003 0 := by
  simp [settlePools, bad, was]

theorem settlePools_mended (good : s.poolsValid = true) (was : s.flag Reg.BPM_STS_CFG_ERR = true) :
    settlePools s = s.setFlag Reg.BPM_STS_CFG_ERR false := by
  simp [settlePools, good, was]

end Pools

/-! ### What keeps a frame from admission (R146, R490, R508, R540) -/

section Bars
variable {s : State} {n : Nat}

theorem admitBar_quiesced (quiet : s.quiesced (n % 32) = true) (m : Nat) (punt : Bool) :
    admitBar s n m punt = some (Reg.EVT_QDROP (n % 32)) := if_pos quiet

variable (loud : s.quiesced (n % 32) = false)
include loud

theorem admitBar_standby (keeps : s.forwarding = false) (m : Nat) (punt : Bool) : admitBar s n m punt = some Reg.FAB_STANDBY_DROP := by
  simp [admitBar, loud, keeps]

variable (role : s.forwarding = true)
include role

theorem admitBar_power (shut : s.admissionOpen = false) (m : Nat) (punt : Bool) : admitBar s n m punt = some Reg.GAF_STATE_DROP := by
  simp [admitBar, loud, role, shut]

variable (power : s.admissionOpen = true) {m : Nat}
include power

theorem admitBar_down (down : s.idxUp m = false) : admitBar s n m false = some (downCtr s m) := by
  simp [admitBar, loud, role, power, down]

theorem admitBar_none (up : s.idxUp m = true) (punt : Bool) : admitBar s n m punt = none := by
  simp [admitBar, loud, role, power, up]

end Bars

/-! ### Admission (R331, R334, R336) -/

section Taking
variable {s : State} {id : Nat} {f : Frame} (held : s.frame? id = some f)
include held

theorem takeBuffer_barred {cls : Option Nat} {ctr : Nat} (bar : admitBar s f.n f.m (decide (cls = some clsPunt)) = some ctr) (size : Nat) :
    takeBuffer s id size cls = (false, dropFrame s id ctr) := by
  simp only [takeBuffer, held, bar]

section Ordinary
variable (bar : admitBar s f.n f.m false = none) {size : Nat}
include bar

theorem takeBuffer_invalid (bad : s.flag Reg.BPM_STS_CFG_ERR = true) : takeBuffer s id size none = (false, admitDrop s id f.n) := by
  simp [takeBuffer, held, bar, bad]

variable (good : s.flag Reg.BPM_STS_CFG_ERR = false)
include good

theorem takeBuffer_full (full : s.pickPool f.n size = none) : takeBuffer s id size none = (false, admitDrop s id f.n) := by
  simp [takeBuffer, held, bar, good, full]

theorem takeBuffer_fits {p : Nat} (fits : s.pickPool f.n size = some p) : takeBuffer s id size none =
    (true, ((takeSpots 1 s p).2.modFrame id (fun g => { g with owner := f.n, pool := some p, spots := (takeSpots 1 s p).1 })).mark id 3) := by
  simp [takeBuffer, held, bar, good, fits]

end Ordinary

section Cells
variable {c size : Nat} (bar : admitBar s f.n f.m (decide (some c = some clsPunt)) = none) (good : s.flag Reg.BPM_STS_CFG_ERR = false)
  (small : size ≤ 2048)
include bar good small

theorem takeBuffer_noCells (short : s.cellsTake c ((size + 63) / 64) = false) : takeBuffer s id size (some c) = (false, cellDrop s id c) := by
  simp only [takeBuffer, held, bar, good, small, short, Bool.false_eq_true, if_false, if_true]

theorem takeBuffer_cells (other : c ≠ clsMgmt) (takes : s.cellsTake c ((size + 63) / 64) = true) : takeBuffer s id size (some c) =
    let n := (size + 63) / 64
    (true, ((takeSpots n s cellPool).2.modFrame id (fun g => { g with
      owner := f.n, cls := c, cells := n, spots := (takeSpots n s cellPool).1 })).mark id 3) := by
  have own : ¬ (some c = some clsMgmt ∨ (some c).isSome = true ∧ 2048 < size) := by
    simp [other, small]
  simp only [takeBuffer, held, bar, good, small, takes, own, Bool.false_eq_true, if_false, if_true]

end Cells

end Taking

/-! ### Errors of packet memory (R338) -/

/-- An uncorrectable error of packet memory, counted and raised before its frame is looked for. -/
def memErrorNoted (s : State) (addr : Nat) : State := raise0 (s.inc Reg.BPM_UE) 0x4002 addr

section Errors
variable {s : State} {id addr : Nat}

theorem bpmUeOp_none (gone : (memErrorNoted s addr).frame? id = none) : bpmUeOp id addr s = memErrorNoted s addr := by
  unfold memErrorNoted at gone ⊢
  simp only [bpmUeOp, gone]

variable {f : Frame} (held : (memErrorNoted s addr).frame? id = some f)
include held

theorem bpmUeOp_sending (leaving : f.stage = .sending) : bpmUeOp id addr s =
    let u := (memErrorNoted s addr).modFrame id (fun g => { g with memBad := true })
    if u.korEgress f.m then voidTail u f else u := by
  unfold memErrorNoted at held ⊢
  simp only [bpmUeOp, held, leaving, if_true]

theorem bpmUeOp_queued (queued : f.stage = .queued) : bpmUeOp id addr s =
    match f.queue with
    | some i => policeHead (releaseFrame (memErrorNoted s addr) id 1) i
    | none => releaseFrame (memErrorNoted s addr) id 1 := by
  unfold memErrorNoted at held ⊢
  cases queue : f.queue <;> simp [bpmUeOp, held, queued, queue]

theorem bpmUeOp_elsewhere (stays : f.stage ≠ .sending) (other : f.stage ≠ .queued) :
    bpmUeOp id addr s = releaseFrame (memErrorNoted s addr) id 1 := by
  unfold memErrorNoted at held ⊢
  cases queue : f.queue <;> simp [bpmUeOp, held, stays, other, queue]

end Errors

end Sys2Proof.Machine

namespace Sys2Proof.Proofs
open Sys2Proof.Machine

/-- Settles O38: a write by what is allocated, an error by its frame's stage, admission by its bars in their order, a free by the state bit. -/
theorem buffersTaken : Obligations.BuffersTaken := by
  intro s who pool val addr id size p c f serves
  have write {t} (acts : poolCfgWrite (poolOff pool) val s = t) : exec (.poolCfgWrite who pool val) s = .next t :=
    congrArg Host.Outcome.next ((gateOwner_acts _ _ serves).trans acts)
  have error {t} := @exec_of_live s t (.bpmUe id addr) _ serves.1.1 rfl
  refine ⟨fun held => write (poolCfgWrite_held held _ val), fun empty => write (poolCfgWrite_empty empty _ val), settlePools_spoilt,
    settlePools_mended, ⟨fun gone => error (bpmUeOp_none gone), fun held leaving => error (bpmUeOp_sending held leaving),
      fun held queued => error (bpmUeOp_queued held queued), fun held stays other => error (bpmUeOp_elsewhere held stays other)⟩,
    fun held => ⟨fun quiet => ?_, fun loud keeps => ?_, fun loud role shut => ?_, fun loud role power => ⟨fun down => ?_, fun up => ?_⟩⟩, ?_⟩
  · exact takeBuffer_barred (cls := none) held (admitBar_quiesced quiet _ _) size
  · exact takeBuffer_barred (cls := none) held (admitBar_standby loud keeps _ _) size
  · exact takeBuffer_barred (cls := none) held (admitBar_power loud role shut _ _) size
  · exact takeBuffer_barred (cls := none) held (admitBar_down loud role power down) size
  · have bar (punt : Bool) := admitBar_none loud role power up punt
    exact ⟨takeBuffer_invalid held (bar _), takeBuffer_full held (bar _), fun good => takeBuffer_fits held (bar _) good, fun good small other =>
      ⟨takeBuffer_noCells held (bar _) good small, takeBuffer_cells held (bar _) good small other⟩⟩
  · refine ⟨congrArg Prod.fst (takeSpots_one s p), lowestFree_free _, ?_, fun taken => ?_, freeSpot_free⟩
    · rw [takeSpots_one]
      exact mlook_mstore_same _ _ _ _
    · rw [freeSpot_taken taken]
      exact mlook_mstore_same _ _ _ _

end Sys2Proof.Proofs
end

section
/-! SUPPORT. What starts to leave a port, its departure slots, and the end of a frame (04 R143; 09 R342, R344, R346, R349 to R352). -/

namespace Sys2Proof.Machine

/-! ### A port that may start a frame (R342, R352) -/

/-- The departure slot of a port whose start has come and whose frame waits for it (R352). -/
def State.dueSlot (s : State) (m : Nat) : Option DepSlot :=
  (s.slotsOf m).find? (fun d => decide (d.start ≤ s.tim.frc.toNat) && (s.frame? d.frame).any (fun f => decide (f.stage = .slotted)))

section Starting
variable {s : State} {m : Nat}

theorem egressStartOp_idle (h : s.idxUp m = false ∨ mget m s.sch.sending ≠ none) : egressStartOp m s = s :=
  if_pos (h.imp_right Option.isSome_iff_ne_none.2)

variable (up : s.idxUp m = true) (free : mget m s.sch.sending = none)
include up free

theorem startable : ¬ (s.idxUp m = false ∨ (mget m s.sch.sending).isSome = true) := by simp [up, free]

theorem egressStartOp_slot {d : DepSlot} {f : Frame} (due : s.dueSlot m = some d) (held : s.frame? d.frame = some f) :
    egressStartOp m s = startFrame s m f := by
  unfold State.dueSlot at due
  simp only [egressStartOp, if_neg (startable up free), due, Option.bind_some, held]

variable (noSlot : s.dueSlot m = none)
include noSlot

theorem egressStartOp_queue {i : Nat} {f : Frame} (pick : (drrPick s m).1 = some (i, f)) :
    egressStartOp m s = clearDeficit (startFrame (drrPick s m).2 m f) m i := by
  unfold State.dueSlot at noSlot
  have picked : drrPick s m = (some (i, f), (drrPick s m).2) := Prod.ext pick rfl
  simp only [egressStartOp, if_neg (startable up free), noSlot, Option.bind_none]
  rw [picked]

theorem egressStartOp_extra (pick : (drrPick s m).1 = none) : egressStartOp m s = extraStep (drrPick s m).2 m := by
  unfold State.dueSlot at noSlot
  have picked : drrPick s m = (none, (drrPick s m).2) := Prod.ext pick rfl
  simp only [egressStartOp, if_neg (startable up free), noSlot, Option.bind_none]
  rw [picked]

end Starting

/-! ### A slot's time comes (R351) -/

section Slots
variable {s : State} {m : Nat}

theorem slotDueOp_none (h : s.slotsOf m = []) : slotDueOp m s = s := by simp only [slotDueOp, h, List.find?_nil]

variable {d : DepSlot} {f : Frame} (next : (s.slotsOf m).find? (fun d => some d.start = s.nextSlot m) = some d)
  (held : s.frame? d.frame = some f)
include next held

theorem slotDueOp_starts (ready : f.stage = .slotted) (up : s.idxUp m = true) (free : mget m s.sch.sending = none) :
    slotDueOp m s = startFrame s m f := by
  simp only [slotDueOp, next, held, ready, up, free, Option.isNone_none, and_self, if_true]

theorem slotDueOp_misses (late : f.stage ≠ .slotted) : slotDueOp m s = markMissed (countMiss (dropSlot s m f.id) m) f.id := by
  simp only [slotDueOp, next, held, late, if_false, missSlot]

end Slots

/-! ### A frame's end (R143, R178, R321) -/

section Ending
variable {s : State} {m : Nat} {crc : Bool}

theorem txDoneOp_idle (idle : mget m s.sch.sending = none) : txDoneOp m crc s = s := by
  simp only [txDoneOp, idle, Option.bind_none]

variable {f : Frame} (leaves : (mget m s.sch.sending).bind s.frame? = some f)
include leaves

theorem txDoneOp_waits (cut : f.cut = true) (unchecked : f.tagOk = none) (good : f.failed = false) : txDoneOp m crc s = s := by
  simp only [txDoneOp, leaves, cut, unchecked, good, and_self, if_true]

/-- A frame that has been counted as sent, on its port and in the port's histogram. -/
def frameCounted (s : State) (m : Nat) (f : Frame) : State := countHist (countSent s m f.sent.length) m f

variable (whole : f.cut = false) (data : f.kind = .data) (sound : f.memBad = false) (good : f.failed = false)
include whole data sound

theorem txDoneOp_capsule (kor : (frameCounted s m f).korEgress m = true) : txDoneOp m true s =
    frameLeft (dealAll (releaseFrame (endCapsule (frameCounted s m f) (m % 32) f false) f.id 0)) m := by
  unfold frameCounted at kor ⊢
  simp [txDoneOp, leaves, whole, data, sound, kor]

include good

theorem txDoneOp_frame (eth : (frameCounted s m f).korEgress m = false) : txDoneOp m true s =
    frameLeft (dealAll (releaseFrame (putFrame (frameCounted s m f) m f.sent false) f.id 0)) m := by
  unfold frameCounted at eth ⊢
  simp [txDoneOp, leaves, whole, data, sound, good, eth]

end Ending

end Sys2Proof.Machine

namespace Sys2Proof.Proofs
open Sys2Proof.Machine

/-- Settles O39: a start by what may leave first, a slot by whether its frame is ready, an end by the frame and its port. -/
theorem egressServed : Obligations.EgressServed := by
  intro s m crc f d i run due
  have op {t c f} := @exec_of_live s t c f run
  refine ⟨fun h => op rfl (egressStartOp_idle h), fun up free => ⟨fun slot held => op rfl (egressStartOp_slot up free slot held),
      fun noSlot pick => op rfl (egressStartOp_queue up free noSlot pick),
      fun noSlot pick => op rfl (egressStartOp_extra up free noSlot pick)⟩,
    fun empty => op rfl (slotDueOp_none empty), fun next held => ⟨fun ready up free => op rfl (slotDueOp_starts next held ready up free),
      fun late => op rfl (slotDueOp_misses next held late)⟩, fun idle => op rfl (txDoneOp_idle idle),
    fun leaves cut unchecked good => op rfl (txDoneOp_waits leaves cut unchecked good), fun leaves whole data sound good => ⟨?_, ?_⟩⟩
  · exact fun eth => op rfl (txDoneOp_frame leaves whole data sound good eth)
  · exact fun kor => op rfl (txDoneOp_capsule leaves whole data sound kor)

end Sys2Proof.Proofs
end

section
/-! SUPPORT. A capsule's construction and its opening (05 R174; 08 R305, R309, R313). -/

namespace Sys2Proof.Machine

/-! ### Counter mode undoes itself (R305) -/

theorem blockBytes_length (b : BitVec 128) : (blockBytes b).length = 16 := toBe_length 16 b.toNat

theorem xorBytes_length {a b : List Byte} (h : a.length ≤ b.length) : (xorBytes a b).length = a.length := by
  rw [xorBytes, List.length_zipWith, Nat.min_eq_left h]

theorem xorBytes_xorBytes : ∀ {a b : List Byte}, a.length ≤ b.length → xorBytes (xorBytes a b) b = a
  | [], _, _ => rfl
  | x :: a, y :: b, h => by
    have rest : xorBytes (xorBytes a b) b = a := xorBytes_xorBytes (Nat.le_of_succ_le_succ h)
    have byte : (x ^^^ y) ^^^ y = x := by rw [BitVec.xor_assoc, BitVec.xor_self, BitVec.xor_zero]
    exact congrArg₂ List.cons byte rest

theorem keyStream_length (is256 : Bool) (key : BitVec 256) (iv : List Byte) (c n : Nat) : (keyStream is256 key iv c n).length = 16 * n := by
  simp [keyStream, blockBytes_length, List.length_flatMap, Nat.mul_comm]

theorem length_le_keyStream (is256 : Bool) (key : BitVec 256) (iv bs : List Byte) (c : Nat) :
    bs.length ≤ (keyStream is256 key iv c ((bs.length + 15) / 16)).length := by
  rw [keyStream_length]
  omega

theorem ctrCrypt_length (is256 : Bool) (key : BitVec 256) (iv bs : List Byte) : (ctrCrypt is256 key iv bs).length = bs.length :=
  xorBytes_length (length_le_keyStream is256 key iv bs 2)

theorem ctrCrypt_ctrCrypt (is256 : Bool) (key : BitVec 256) (iv bs : List Byte) :
    ctrCrypt is256 key iv (ctrCrypt is256 key iv bs) = bs := by
  rw [ctrCrypt, ctrCrypt_length]
  exact xorBytes_xorBytes (length_le_keyStream is256 key iv bs 2)

/-- What a job decrypts is what its counterpart encrypted, and both form the tag over the same ciphertext. -/
theorem Job.whole_decrypt (j : Job) (h : j.decrypt = false) (is256 : Bool) (key : BitVec 256) :
    ({ j with src := (j.whole is256 key).1, decrypt := true } : Job).whole is256 key = (j.src, (j.whole is256 key).2) := by
  simp [Job.whole, h, ctrCrypt_ctrCrypt]

/-! ### A capsule in its parts (R172, R174) -/

theorem capsuleJob_aad_length (r : Rec) (pn type : Nat) (fr : List Byte) : (capsuleJob r pn type fr).aad.length = 16 := by
  simp [capsuleJob, capHead, toBe_length]

theorem capsuleJob_whole_length (r : Rec) (pn type : Nat) (fr : List Byte) (is256 : Bool) (key : BitVec 256) :
    ((capsuleJob r pn type fr).whole is256 key).1.length = fr.length := ctrCrypt_length is256 key _ fr

/-- A capsule's job as the receiver reads it off the AAD, the ciphertext and a tag of 16 bytes. -/
theorem capsuleRxJob_parts (r : Rec) {aad tag : List Byte} (ct : List Byte) (ha : aad.length = 16) (ht : tag.length = 16) :
    capsuleRxJob r (aad ++ ct ++ tag) = { iv := xorBytes (aad.drop 4) (toBe 12 r.salt.toNat), aad := aad, src := ct, decrypt := true } := by
  have nonce : sub (aad ++ ct ++ tag) 4 12 = aad.drop 4 := by
    rw [sub, List.append_assoc, List.drop_append_of_le_length (by omega), List.take_left' (by simp [ha])]
  have head : (aad ++ ct ++ tag).take 16 = aad := by rw [List.append_assoc, List.take_left' ha]
  have body : sub (aad ++ ct ++ tag) 16 ((aad ++ ct ++ tag).length - 32) = ct := by
    rw [sub, List.append_assoc, List.drop_left' ha, List.take_left' (by simp [ha, ht]; omega)]
  rw [capsuleRxJob, nonce, head, body]

/-- The receiver's construction gives the frame back whatever tag came behind it, and compares that tag with the one that belongs to
it. -/
theorem capsuleOpen_parts (r : Rec) (key : BitVec 256) (pn type : Nat) (fr : List Byte) {tag : List Byte} (ht : tag.length = 16) :
    let j := capsuleJob r pn type fr
    let o := j.whole r.key256 key
    capsuleOpen r key (j.aad ++ o.1 ++ tag) = (fr, decide (tag = blockBytes o.2)) := by
  intro j o
  have opened : (capsuleRxJob r (j.aad ++ o.1 ++ tag)).whole r.key256 key = (fr, o.2) := by
    rw [capsuleRxJob_parts r o.1 (capsuleJob_aad_length r pn type fr) ht]
    exact Job.whole_decrypt j rfl r.key256 key
  have last : (j.aad ++ o.1 ++ tag).drop ((j.aad ++ o.1 ++ tag).length - 16) = tag := List.drop_left' (by simp [ht, ← Nat.add_assoc])
  simp only [capsuleOpen, opened, last]

end Sys2Proof.Machine

namespace Sys2Proof.Proofs

open Machine

/-- Settles O37: a capsule is its AAD, its ciphertext and its tag, of which opening reads the first two and compares the third. -/
theorem capsuleOpensToItself : Obligations.CapsuleOpensToItself := by
  intro r key pn fr t
  let j := capsuleJob r pn 0 fr
  let o := j.whole r.key256 key
  have front : (j.aad ++ o.1).length = 16 + fr.length := by
    rw [List.length_append, capsuleJob_aad_length, capsuleJob_whole_length]
  have text : (capsuleProtect r key pn 0 fr).take (16 + fr.length) = j.aad ++ o.1 := List.take_left' front
  have tag : (capsuleProtect r key pn 0 fr).drop (16 + fr.length) = blockBytes o.2 := List.drop_left' front
  constructor
  · exact (capsuleOpen_parts r key pn 0 fr (blockBytes_length o.2)).trans (congrArg (Prod.mk fr) (decide_eq_true rfl))
  · intro ht ne
    rw [text, capsuleOpen_parts r key pn 0 fr ht]
    exact decide_eq_false (tag ▸ ne)

end Sys2Proof.Proofs
end

section
/-! SUPPORT. Codeword lock and lane frames of a Korone lane, and the defects of a Korone port (05 R157, R164 to R168, R193, R195). -/

namespace Sys2Proof.Machine

/-! ### A Korone lane that is changed, and what leaves it -/

@[simp] theorem State.korLane_modKorLane (s : State) (j : Nat) (f : KorLane → KorLane) : (s.modKorLane j f).korLane j = f (s.korLane j) :=
  mlook_mstore_same _ _ _ _

theorem State.modKorLane_congr {s : State} {j : Nat} {f g : KorLane → KorLane} (h : f (s.korLane j) = g (s.korLane j)) :
    s.modKorLane j f = s.modKorLane j g := by rw [State.modKorLane, State.modKorLane, h]

theorem SameWork.korLanes_eq {s t : State} (h : SameWork s t) : t.korLanes = s.korLanes := by
  rw [show t = workOf s t from h]; rfl

theorem korLane_of_korLanes {s t : State} (h : t.korLanes = s.korLanes) (j : Nat) : t.korLane j = s.korLane j := congrArg (mlook noKorLane j) h

theorem korLanes_ite {s t u : State} {p : Prop} [Decidable p] (h : t.korLanes = s.korLanes) (k : u.korLanes = s.korLanes) :
    (if p then t else u).korLanes = s.korLanes := by
  split
  exacts [h, k]

theorem raiseKor_korLanes (s : State) (k nn lane : Nat) : (raiseKor s k nn lane).korLanes = s.korLanes := (raise_work _ _ _ _ _).korLanes_eq

theorem follow_korLanes (s : State) (f : Field) (now : Bool) (k nn : Nat) : (follow s f now k nn).korLanes = s.korLanes :=
  korLanes_ite (raiseKor_korLanes (s.setFlag f now) k nn 0) rfl

/-- What a port learns from the heads of its lanes leaves the lanes as they are. -/
theorem portFlags_korLanes (s : State) (k skew : Nat) : (portFlags s k skew).korLanes = s.korLanes := by
  unfold portFlags settleMode
  extract_lets skewed s1 s2 s3 s4 s5 s6
  have h1 : s1.korLanes = s.korLanes := (State.set_korLanes _ _ _).trans (State.set_korLanes _ _ _)
  have h2 : s2.korLanes = s.korLanes := korLanes_ite ((raiseKor_korLanes s1 k 4 0).trans h1) h1
  have h3 : s3.korLanes = s.korLanes := (follow_korLanes _ _ _ _ _).trans h2
  have h4 : s4.korLanes = s.korLanes := (follow_korLanes _ _ _ _ _).trans h3
  have h5 : s5.korLanes = s.korLanes := (follow_korLanes _ _ _ _ _).trans h4
  exact (State.modKor_korLanes _ _ _).trans ((follow_korLanes _ _ _ _ _).trans h5)

/-- Reading a frame keeps the lane's SYNC, its place and its LANE_ID. -/
theorem readFrame_sync (s : State) (k j : Nat) (count : Word) (body : List Byte) :
    ((readFrame s k j count body).korLane j).inSync = (s.korLane j).inSync ∧
    ((readFrame s k j count body).korLane j).place = (s.korLane j).place ∧
    ((readFrame s k j count body).korLane j).laneId = (s.korLane j).laneId := by
  unfold readFrame
  extract_lets l b errs bip bad s1 s2
  have bumped : s1.korLane j = s.korLane j := korLane_of_korLanes (bump_work _ _ _).korLanes_eq j
  have kept : s2.korLane j = { s.korLane j with
      lastBip := bip, beiDue := errs, bipErrs := (s.korLane j).bipErrs + errs, ohBad := bad, rx := some (count, b) } :=
    (State.korLane_modKorLane _ _ _).trans (by rw [bumped])
  have counted : (if bad = true then s2.inc (Reg.KOR_OH_CRC_ERR k)
      else if byteAt b 49 ≤ 16 then s2.bump (Reg.KOR_BEI_RX k) (byteAt b 49) else s2).korLane j = s2.korLane j :=
    korLane_of_korLanes (korLanes_ite (inc_work _ _).korLanes_eq (korLanes_ite (bump_work _ _ _).korLanes_eq rfl)) j
  rw [counted, kept]
  exact ⟨rfl, rfl, rfl⟩

/-! ### Codewords (R157) -/

section Codewords
variable {s : State} {k j place : Nat}

/-- A Korone lane in MISSION that is not looped hears its pair's codewords, and sends none of them again. -/
theorem korCodewordOp_hears (port : s.portOf .lnl j = some k) (act : s.korActive k j = true)
    (loop : s.get (Reg.LN_CFG_LOOP (lnBase .lnl j)) = 0) (l : List Bool) :
    korCodewordOp j place l s = hearCodeword s k j place (rsReceive l).1 := by
  simp [korCodewordOp, port, act, nearLoop_unlooped loop, farLoop_unlooped loop]

theorem lockStep_unlocked {l : KorLane} (h : l.locked = false) (place : Nat) (c : Codeword) :
    lockStep l place c = (
      if c = .uncorrectable then { l with goods := mdel place l.goods }
      else if mlook 0 place l.goods = 2 then { l with locked := true, lockAt := place, goods := [], badRun := 0 }
      else if 32 ≤ l.goods.length ∧ mlook 0 place l.goods = 0 then l
      else { l with goods := mput place (mlook 0 place l.goods + 1) l.goods }, false) := by
  have decodes : lockStep l place .clean = (
      if mlook 0 place l.goods = 2 then { l with locked := true, lockAt := place, goods := [], badRun := 0 }
      else if 32 ≤ l.goods.length ∧ mlook 0 place l.goods = 0 then l
      else { l with goods := mput place (mlook 0 place l.goods + 1) l.goods }, false) := by
    simp only [lockStep, h, Bool.false_eq_true, if_false, Nat.add_eq_right, Nat.reduceEqDiff]
    split
    · rfl
    · split <;> rfl
  cases c with
  | clean => exact decodes
  | corrected => exact decodes
  | uncorrectable => simp [lockStep, h]

theorem hearCodeword_unlocked (h : (s.korLane j).locked = false) (place : Nat) (c : Codeword) :
    hearCodeword s k j place c = s.modKorLane j (fun x =>
      if c = .uncorrectable then { x with goods := mdel place x.goods }
      else if mlook 0 place (s.korLane j).goods = 2 then { x with locked := true, lockAt := place, goods := [], badRun := 0 }
      else if 32 ≤ x.goods.length ∧ mlook 0 place (s.korLane j).goods = 0 then x
      else { x with goods := mput place (mlook 0 place (s.korLane j).goods + 1) x.goods }) := by
  simp only [hearCodeword, lockStep_unlocked h, if_pos (Or.inl h), Bool.false_eq_true, if_false]
  exact State.modKorLane_congr rfl

/-- In lock, at the lane's own boundary: what a codeword counts, and when it loses the lock. -/
theorem hearCodeword_locked (h : (s.korLane j).locked = true) (c : Codeword) :
    hearCodeword s k j (s.korLane j).lockAt c = match c with
      | .clean => s.modKorLane j (fun x => { x with badRun := 0 })
      | .corrected => (s.inc (Reg.KOR_FEC_CORR_CW k)).modKorLane j (fun _ => { s.korLane j with badRun := 0 })
      | .uncorrectable => if (s.korLane j).badRun = 3 then loseLock (s.inc (Reg.KOR_FEC_UNCORR_CW k)) k j
          else (s.inc (Reg.KOR_FEC_UNCORR_CW k)).modKorLane j (fun _ => { s.korLane j with badRun := (s.korLane j).badRun + 1 }) := by
  cases c with
  | clean =>
    simp only [hearCodeword, lockStep, h, Bool.true_eq_false, ne_eq, not_true_eq_false, or_self, if_true, if_false, Bool.false_eq_true]
    exact State.modKorLane_congr (by rw [h])
  | corrected => simp [hearCodeword, lockStep, h]
  | uncorrectable => simp [hearCodeword, lockStep, h]

end Codewords

/-! ### Lane frames (R164 to R168) -/

/-- What a lane frame changed settles the port's alignment, or restarts the port when its lanes contradict their map (R166, R167). -/
def frameSettled (s : State) (k : Nat) : State :=
  if s.mapMismatch k then laneRestartOp .lnl k (raiseKor (settleAlign s k) k 5 0) else settleAlign s k

section LaneFrames
variable {s : State} {k j place : Nat} {head body : List Byte} {skew : Nat}

theorem korLaneFrameOp_hears (port : s.portOf .lnl j = some k) (loop : s.get (Reg.LN_CFG_LOOP (lnBase .lnl j)) = 0) :
    korLaneFrameOp j place head body skew s = takePeriod (hearLaneFrame j place head body skew s) k := by
  simp [korLaneFrameOp, port, nearLoop_unlooped loop, takeLaneFrame]

theorem takePeriod_none (h : s.periodIn k = none) : takePeriod s k = s := by
  simp only [takePeriod, h]

theorem hearLaneFrame_unlocked (port : s.portOf .lnl j = some k) (l : (s.korLane j).locked = false) :
    hearLaneFrame j place head body skew s = s := by
  simp [hearLaneFrame, port, l]

theorem hearLaneFrame_hunts (port : s.portOf .lnl j = some k) (act : s.korActive k j = true) (l : (s.korLane j).locked = true)
    (hunts : (s.korLane j).inSync = false) :
    hearLaneFrame j place head body skew s = frameSettled (huntHead s k j (s.laneWidth .lnl k) place head body skew) k := by
  simp only [hearLaneFrame, port, act, l, hunts, Bool.true_eq_false, Bool.false_eq_true, false_and, or_self, if_false]
  rfl

theorem hearLaneFrame_synced (port : s.portOf .lnl j = some k) (act : s.korActive k j = true) (l : (s.korLane j).locked = true)
    (sync : (s.korLane j).inSync = true) (here : place = (s.korLane j).place) :
    hearLaneFrame j place head body skew s = frameSettled (syncHead s k j (s.laneWidth .lnl k) head body skew) k := by
  simp only [hearLaneFrame, port, act, l, sync, here, Bool.true_eq_false, ne_eq, not_true_eq_false, and_false, or_self, if_false, if_true]
  rfl

/-- A valid head where no candidate stands is a new candidate, of at most eight. -/
theorem huntHead_new {w : Nat} (valid : headValid w head = true) (away : ∀ c ∈ (s.korLane j).cands, c.place ≠ place)
    (room : (s.korLane j).cands.length < 8) :
    huntHead s k j w place head body skew = s.modKorLane j (fun x => { x with
      cands := x.cands ++ [{ place := place, count := w32 (be (sub head 0 4)), laneId := head.getD 4 0, confirmed := 0 }] }) := by
  have rest : (s.korLane j).cands.filter (fun c => decide (c.place ≠ place)) = (s.korLane j).cands :=
    List.filter_eq_self.2 (fun c hc => decide_eq_true (away c hc))
  have here : (s.korLane j).cands.find? (fun c => decide (c.place = place) && true &&
      decide (w32 (be (sub head 0 4)) = c.count + 1) && decide (head.getD 4 0 = c.laneId)) = none :=
    List.find?_eq_none.2 (fun c hc => by simp [away c hc])
  simp only [huntHead, rest, here, valid, Bool.true_eq_false, if_false, if_neg (Nat.ne_of_lt room)]
  exact State.modKorLane_congr rfl

/-- A candidate's second confirmation brings SYNC at its place, under the LANE_ID of the head. -/
theorem huntHead_confirms {w : Nat} {count : Word} (valid : headValid w head = true) (next : w32 (be (sub head 0 4)) = count + 1)
    (cand : (s.korLane j).cands = [{ place := place, count := count, laneId := head.getD 4 0, confirmed := 1 }]) :
    let t := huntHead s k j w place head body skew
    (t.korLane j).inSync = true ∧ (t.korLane j).place = place ∧ (t.korLane j).laneId = head.getD 4 0 := by
  have here : (s.korLane j).cands.find? (fun c => decide (c.place = place) && headValid w head &&
      decide (w32 (be (sub head 0 4)) = c.count + 1) && decide (head.getD 4 0 = c.laneId)) =
      some { place := place, count := count, laneId := head.getD 4 0, confirmed := 1 } := by
    rw [cand]
    exact List.find?_cons_of_pos (by simp [valid, next])
  simp only [huntHead, here, if_true]
  rw [korLane_of_korLanes (portFlags_korLanes _ _ _) j]
  obtain ⟨sync, at', id⟩ := readFrame_sync (s.modKorLane j (fun l => { l with
    cands := [], inSync := true, place := place, misses := 0, expect := w32 (be (sub head 0 4)) + 1, laneId := head.getD 4 0,
    flags := head.getD 5 0, lastBip := none })) k j (w32 (be (sub head 0 4))) body
  rw [State.korLane_modKorLane] at sync at' id
  exact ⟨sync, at', id⟩

/-- The third miss in a row ends SYNC: LOF is raised and counted. -/
theorem syncHead_third_miss {w : Nat} (invalid : headValid w head = false) (misses : (s.korLane j).misses = 2) :
    syncHead s k j w head body skew = (raiseKor (leaveSync s k j) k 3 j).inc (Reg.KOR_LOF_COUNT k) := by
  simp [syncHead, invalid, misses]

end LaneFrames

/-! ### Client signal fail and degrade (R193, R195) -/

/-- The interval counts of BIP errors of a port's lanes, started again. -/
def bipRestarted (s : State) (k : Nat) : State :=
  (s.portLanes .lnl k).foldl (fun s j => s.modKorLane j (fun l => { l with bipErrs := 0 })) s

theorem korDegradeOp_korone {s : State} {k : Nat} (h : s.isKorone k = true) :
    korDegradeOp k s =
      if (s.portLanes .lnl k).any (fun j => decide (s.get (Reg.KOR_BIP_CFG_SET_TH k) < (s.korLane j).bipErrs)) then
        (if s.flag (Reg.KOR_STS_DEGRADED k) then bipRestarted s k
          else raiseKor ((bipRestarted s k).setFlag (Reg.KOR_STS_DEGRADED k) true) k 9 0)
      else if (s.portLanes .lnl k).all (fun j => decide ((s.korLane j).bipErrs ≤ s.get (Reg.KOR_BIP_CFG_CLEAR_TH k))) then
        (bipRestarted s k).setFlag (Reg.KOR_STS_DEGRADED k) false
      else bipRestarted s k := by
  simp only [korDegradeOp, h, Bool.true_eq_false, if_false]
  rfl

end Sys2Proof.Machine

namespace Sys2Proof.Proofs
open Sys2Proof.Machine

/-- Settles O24: a codeword by the lane's lock, a lane frame by its lock, its SYNC and the head, a defect by its port's registers. -/
theorem koroneLanes : Obligations.KoroneLanes := by
  constructor
  · intro s j k w place head body skew run port act loop empty l p n word frame width settled
    have op {t c f} := @exec_of_live s t c f run
    have heard {t} (h : hearCodeword s k j w.place (rsReceive w.bits).1 = t) : exec word s = .next t :=
      op rfl ((korCodewordOp_hears port act loop w.bits).trans h)
    have framed {t} (h : hearLaneFrame j place head body skew s = t) : exec frame s = .next (takePeriod t k) :=
      op rfl ((korLaneFrameOp_hears port loop).trans (congrArg (takePeriod · k.val) h))
    refine ⟨fun free => heard (hearCodeword_unlocked free _ _), fun locked here => ?_, op rfl rfl, fun free => ?_,
      fun locked hunts valid away room => ?_, fun locked hunts valid count next cand => ?_,
      fun locked sync here misses invalid => ?_, op rfl rfl⟩
    · refine heard ?_
      rw [show w.place.val = (s.korLane j).lockAt from here]
      generalize (rsReceive w.bits).1 = c
      cases c <;> exact hearCodeword_locked locked _
    · exact (framed (hearLaneFrame_unlocked port free)).trans (congrArg _ (takePeriod_none empty))
    · exact framed ((hearLaneFrame_hunts port act locked hunts).trans (congrArg (frameSettled · k.val) (huntHead_new valid away room)))
    · exact ⟨huntHead s k j width place head body skew, framed (hearLaneFrame_hunts port act locked hunts),
        huntHead_confirms valid next cand⟩
    · exact framed ((hearLaneFrame_synced port act locked sync here).trans
        (congrArg (frameSettled · k.val) (syncHead_third_miss invalid misses)))
  · intro s k run js t
    have op {t c f} := @exec_of_live s t c f run
    exact ⟨op rfl rfl, op rfl rfl, fun other => op rfl (if_pos other), fun korone => op rfl (korDegradeOp_korone korone)⟩

end Sys2Proof.Proofs
end

section
/-! SUPPORT. What the Korone ports' content leaves of the lanes' configuration and of the number of frame periods sent (03 R97; 05 R159,
R183). -/

namespace Sys2Proof.Machine

/-! ### The lanes' configuration and FRAME_COUNT kept -/

/-- The configuration of every line lane, and the number of periods that each port has sent, are what they were. -/
structure LinesKept (s t : State) : Prop where
  cfg : ∀ j, t.rd (Reg.LN_CFG (lnBase .lnl j)) = s.rd (Reg.LN_CFG (lnBase .lnl j))
  sent : ∀ k, (t.korPort k).txCount = (s.korPort k).txCount

namespace LinesKept

theorem refl (s : State) : LinesKept s s := ⟨fun _ => rfl, fun _ => rfl⟩

theorem trans {s t u : State} (h : LinesKept s t) (g : LinesKept t u) : LinesKept s u :=
  ⟨fun j => (g.cfg j).trans (h.cfg j), fun k => (g.sent k).trans (h.sent k)⟩

theorem ite {s t u : State} {p : Prop} [Decidable p] (h : LinesKept s t) (g : LinesKept s u) : LinesKept s (if p then t else u) := by
  split
  exacts [h, g]

theorem foldl {α : Type} {f : State → α → State} (hf : ∀ s x, LinesKept s (f s x)) (l : List α) (s : State) : LinesKept s (l.foldl f s) := by
  induction l generalizing s with
  | nil => exact refl s
  | cons x l ih => exact (hf s x).trans (ih _)

/-- What stands beside the registers and the Korone ports does not matter. -/
theorem beside {s t : State} (r : t.regs = s.regs := by rfl) (k : t.kor = s.kor := by rfl) : LinesKept s t :=
  ⟨fun _ => rd_of_regs r _, fun j => congrArg KorPort.txCount (korPort_of_kor k j)⟩

/-- A register beyond the lanes' configuration is written. -/
theorem wr {s : State} {off : Nat} (h : ∀ j, Reg.LN_CFG (lnBase .lnl j) ≠ off) (v : Word) : LinesKept s (s.wr off v) :=
  ⟨fun j => s.rd_wr_ne v (h j), fun _ => rfl⟩

theorem modKor {s t : State} (g : LinesKept s t) {k : Nat} {f : KorPort → KorPort}
    (h : ∀ p, (f p).txCount = p.txCount := by exact fun _ => rfl) : LinesKept s (t.modKor k f) := by
  refine g.trans ⟨fun _ => rfl, fun i => ?_⟩
  by_cases e : i = k
  · rw [e, State.korPort_modKor, h]
  · exact congrArg KorPort.txCount (mlook_mstore_ne _ _ _ _ e)

/-- No event writes a lane's configuration (R97): a pending register, the one thing in which its registers differ from another event's,
stands in the alarm unit's window. -/
theorem raise {s t : State} (g : LinesKept s t) {id : Nat} (h : id < 2 ^ 16) (a0 a1 : Nat) (pair : Option Nat) :
    LinesKept s (raise t id a0 a1 pair) := by
  refine g.trans ⟨fun j => raise_rd t id a0 a1 pair (fun m => ?_), fun k => congrArg KorPort.txCount (korPort_of_kor (raise_kor _ _ _ _ _) k)⟩
  have other := cfg_not_event .lnl j
  rw [eventRegs, List.cons_append, List.mem_cons, not_or] at other
  rw [eventRegs, List.cons_append, List.mem_cons] at m
  rcases m with pend | rest
  · simp only [Reg.LN_CFG, lnBase, Reg.EVT_PEND] at pend
    omega
  · exact other.2 rest

theorem raise0 {s t : State} (g : LinesKept s t) {id : Nat} (h : id < 2 ^ 16) (a0 : Nat) : LinesKept s (raise0 t id a0) :=
  g.raise h a0 0 none

theorem bump {s t : State} (g : LinesKept s t) (off n : Nat) : LinesKept s (t.bump off n) :=
  g.trans ⟨fun j => bump_rd t off n (cfg_not_event .lnl j), fun k => congrArg KorPort.txCount (korPort_of_kor (bump_kor t off n) k)⟩

theorem inc {s t : State} (g : LinesKept s t) (off : Nat) : LinesKept s (t.inc off) := g.bump off 1

theorem laneWidth {s t : State} (h : LinesKept s t) (k : Nat) : t.laneWidth .lnl k = s.laneWidth .lnl k :=
  congrArg (2 ^ ·) (State.get_of_rd (h.cfg k))

theorem loop {s t : State} (h : LinesKept s t) (j : Nat) :
    t.get (Reg.LN_CFG_LOOP (lnBase .lnl j)) = s.get (Reg.LN_CFG_LOOP (lnBase .lnl j)) := State.get_of_rd (h.cfg j)

end LinesKept

/-! ### Guarded memory and records -/

theorem countWrite_linesKept (s : State) (line : Nat) : LinesKept s (countWrite s line).2 := by
  unfold countWrite
  dsimp only
  split
  · exact .beside
  · refine .ite (.inc ?_ _) (.beside)
    exact .beside

theorem writeLine_linesKept (s : State) (line : Nat) (data : List Byte) : LinesKept s (writeLine s line data) := by
  have counted : LinesKept s ((countWrite s line).2.modMgd (fun m => { m with
      lines := mstore zeroLine line (padTo 64 (data.take 64)) m.lines, dirty := ladd (line / 64) m.dirty, badLines := ldel line m.badLines })) :=
    (countWrite_linesKept s line).trans (.beside)
  have stored : ∀ t p, LinesKept t (storePage t p) := fun t p => by
    obtain ⟨out, h⟩ := storePage_out t p
    rw [h]
    exact .beside
  rw [writeLine_eq]
  exact .ite (counted.trans (stored _ _)) (counted.trans (.beside))

theorem writeRec_linesKept (s : State) (a : Nat) (r : Rec) : LinesKept s (writeRec s a r) := by
  unfold writeRec
  split
  · exact .foldl (fun s i => writeLine_linesKept s _ _) _ s
  · exact .refl s

theorem modSlot_linesKept (s : State) (i : Nat) (f : Slot → Slot) : LinesKept s (s.modSlot i f) := by
  unfold State.modSlot
  split
  exacts [.beside, .refl s]

theorem modRec_linesKept (s : State) (a : Nat) (f : Rec → Rec) : LinesKept s (s.modRec a f) :=
  .trans (t := s.setRec a (f (s.asRec a))) (.beside) (writeRec_linesKept _ _ _)

theorem modLive_linesKept (s : State) (a : Nat) (f : Rec → Rec) : LinesKept s (s.modLive a f) := by
  have known : LinesKept s (s.setRec a (f (s.asRec a))) := .beside
  unfold State.modLive
  dsimp only
  split
  exacts [known.trans (modSlot_linesKept _ _ _), known.trans (writeRec_linesKept _ _ _)]

theorem touch_linesKept (s : State) (a : Nat) : LinesKept s (touch s a) := by
  unfold touch
  split
  exacts [modSlot_linesKept _ _ _, .refl s]

/-! ### The rekey check and the reels (R260 to R264) -/

theorem pushRekey_linesKept (s : State) (a : Nat) : LinesKept s (pushRekey s a) := by
  have full : LinesKept s (s.modAsc (fun x => { x with rekeyOvf := true })) := .beside
  exact .ite (.beside) (full.raise0 (by decide) _)

theorem rekeyCheck_linesKept (s : State) (a : Nat) : LinesKept s (rekeyCheck s a) := by
  have noted : LinesKept s (s.modAsc (fun x => { x with rekeyed := ladd a x.rekeyed })) := .beside
  exact .ite ((noted.trans (pushRekey_linesKept _ a)).raise0 (by decide) _) (.refl s)

theorem grant_linesKept (s : State) (a value : Nat) (advance : Option Nat) : LinesKept s (grant s a value advance) := by
  have granted : LinesKept s (s.modAsc (fun x => { x with stalled := ldel a x.stalled })) := .beside
  have moved (f : Rec → Rec) := granted.trans (modLive_linesKept _ a f)
  exact .ite (.ite ((moved _).inc _) (moved _)) (((moved _).inc _).trans (rekeyCheck_linesKept _ a))

theorem sendCell_linesKept (s : State) (cls dst : Nat) (payload : List Byte) : LinesKept s (sendCell s cls dst payload) := by
  have sent (t : State) (link l : Nat) (c : List Byte) : LinesKept t (emitCell t link l c) := .ite (.refl t) (.beside)
  have counted (n : Nat) : LinesKept s (s.modFab (fun f => { f with seqs := mstore 0 (64 * cls + dst) n f.seqs })) := .beside
  unfold sendCell
  refine .ite (.refl s) ?_
  split
  · exact (counted _).trans (sent _ _ _ _)
  · exact .refl s

theorem sendMark_linesKept (s : State) (resync : Bool) (as : List Nat) (entries : List Mark) : LinesKept s (sendMark s resync as entries) :=
  ((sendCell_linesKept s _ _ _).inc _).trans (.beside (State.modFab_regs _ _) (State.modFab_kor _ _))

theorem startPersist_linesKept (s : State) (a value : Nat) (advance : Option Nat) : LinesKept s (startPersist s a value advance) := by
  have asked (p : Persist) : LinesKept s (s.modAsc (fun x => { x with persists := mput a p x.persists })) := .beside
  exact .ite (grant_linesKept s a value advance) (.ite ((asked _).trans (sendMark_linesKept _ _ _ _)) (asked _))

theorem requestReel_linesKept (s : State) (a : Nat) : LinesKept s (requestReel s a) := .ite (startPersist_linesKept s a _ _) (.refl s)

/-! ### The switch of a PN trigger (R280, R281) -/

theorem modDissolve_linesKept (s : State) (e : Nat) (f : Dissolve → Dissolve) : LinesKept s (s.modDissolve e f) := .beside

theorem memberFault_linesKept (s : State) (e a : Nat) : LinesKept s (memberFault s e a) :=
  .ite ((modDissolve_linesKept s e _).raise (by decide) _ _ _) (modDissolve_linesKept s e _)

theorem switchMember_linesKept (s : State) (a b : Nat) : LinesKept s (switchMember s a b) := by
  have apart (r : Rec) (j : Nat) : Reg.LN_CFG (lnBase .lnl j) ≠ Reg.ASC_PORT_STREAM r.k := by
    simp only [Reg.LN_CFG, lnBase, Reg.ASC_PORT_STREAM, Rec.k]
    omega
  have switched := (modRec_linesKept s a (fun r => { r with state := .switched })).trans
    (modRec_linesKept _ b (fun r => { r with state := .live }))
  exact .ite (switched.trans (.wr (apart _) _)) switched

theorem atSwitch_linesKept (e : Nat) (s : State) (a : Nat) : LinesKept s (atSwitch e s a) := by
  unfold atSwitch
  refine .ite (.refl s) (.ite (.beside) ?_)
  split
  · exact .ite (switchMember_linesKept s a _) (memberFault_linesKept s e a)
  · exact memberFault_linesKept s e a

theorem dissolveDone_linesKept (s : State) (e : Nat) : LinesKept s (dissolveDone s e) := by
  have unpinned : ∀ t a, LinesKept t (setDissolvePin false t a) := fun t a => by
    unfold setDissolvePin
    split
    exacts [modSlot_linesKept _ _ _, .refl t]
  have released : ∀ t a, LinesKept t (dissolveUnpin e t a) := fun t a => by
    unfold dissolveUnpin
    exact (LinesKept.foldl unpinned _ t).trans (modDissolve_linesKept _ e _)
  exact ((LinesKept.foldl released _ s).trans (modDissolve_linesKept _ e _)).raise0 (by decide) _

theorem pnTrigger_linesKept (s : State) (a : Nat) : LinesKept s (pnTrigger s a) := by
  have switched (e : Nat) : LinesKept s (pnSwitch s e a) :=
    .ite ((atSwitch_linesKept e s a).trans (dissolveDone_linesKept _ e)) ((atSwitch_linesKept e s a).trans (modDissolve_linesKept _ e _))
  unfold pnTrigger
  split
  · exact .ite (switched _) (.refl s)
  · exact .refl s

end Sys2Proof.Machine
end

section
/-! SUPPORT. Stream-mode frame periods sent (05 R183 to R191). -/

namespace Sys2Proof.Machine

/-! ### What a period's content leaves -/

theorem onceFor_linesKept (s : State) (seen : List Nat) (a : Nat) {id : Nat} (h : id < 2 ^ 16) : LinesKept s (onceFor s seen a id) :=
  .ite (.refl s) (.raise0 (.refl s) h a)

theorem modAsc_linesKept (s : State) (f : Asc → Asc) : LinesKept s (s.modAsc f) := .beside

theorem periodPn_linesKept (s : State) (a : Nat) : LinesKept s (periodPn s a).2 := by
  unfold periodPn
  dsimp only
  split
  · dsimp only
    refine .trans ?_ (modLive_linesKept _ a _)
    exact (onceFor_linesKept s _ a (by decide)).trans (modAsc_linesKept _ _)
  · split
    · dsimp only
      refine .trans ?_ (modLive_linesKept _ a _)
      exact (onceFor_linesKept s _ a (by decide)).trans (modAsc_linesKept _ _)
    · dsimp only
      refine .trans ?_ (requestReel_linesKept _ a)
      refine .trans ?_ (rekeyCheck_linesKept _ a)
      exact (modLive_linesKept s a _).trans (touch_linesKept _ a)

theorem takeFifo_linesKept (s : State) (k m : Nat) : LinesKept s (takeFifo s k m).2 := by
  have drawn (l : List Nat) (x : List (BitVec 66) × State) : LinesKept x.2 (l.foldl (fun (x : List (BitVec 66) × State) _ =>
      let (v, t) := x.2.draw
      (x.1 ++ [v.setWidth 66], t)) x).2 := by
    induction l generalizing x with
    | nil => exact .refl _
    | cons i l ih =>
      have one : LinesKept x.2 x.2.draw.2 := .beside
      exact one.trans (ih (x.1 ++ [x.2.draw.1.setWidth 66], x.2.draw.2))
  have taken : LinesKept s (s.modKor k (fun p => { p with fifo := p.fifo.drop m })) := .modKor (.refl s)
  exact taken.trans (drawn (List.range (m - ((s.korPort k).fifo.take m).length)) ((s.korPort k).fifo.take m, _))

theorem idlePeriod_linesKept (s : State) (k : Nat) (count : Bool) : LinesKept s (idlePeriod s k count) := by
  unfold idlePeriod
  exact .modKor (.ite (.inc (.refl s) _) (.refl s))

/-- What a port with a key sends in a period of decision j and m blocks, once it has asked for a packet number (R183 to R191). -/
def formPeriod (k : Nat) (n : Word) (a : Nat) (key : BitVec 256) (j : Justify) (m : Nat) : Option Nat × State → Sent × State
  | (none, s) => (noContent, s.modKor k (fun p => { p with fifo := p.fifo.drop m }))
  | (some pn, s) =>
    let (bs, s) := takeFifo s k m
    let r := s.asRec a
    let skey := w32 (r.ident.toNat / 2 ^ 32)
    let ct := periodCrypt r key skey pn bs
    let s := s.bump Reg.FRM_OPS_ENC (periodOps m)
    ({ content := true, decision := j, skey := skey, spn := pn, cipher := ct, tag := periodTag r key skey pn n ct }, s)

theorem formPeriod_linesKept {s : State} {k : Nat} {n : Word} {a : Nat} {key : BitVec 256} {j : Justify} {m : Nat} {r : Option Nat × State}
    (h : LinesKept s r.2) : LinesKept s (formPeriod k n a key j m r).2 := by
  match r, h with
  | (none, u), h => exact h.modKor (k := k) (f := fun p => { p with fifo := p.fifo.drop m })
  | (some pn, u), h => exact (LinesKept.trans h (takeFifo_linesKept u k m)).bump Reg.FRM_OPS_ENC (periodOps m)

theorem streamContent_linesKept (s : State) (k : Nat) (n : Word) : LinesKept s (streamContent s k n).2 := by
  unfold streamContent
  extract_lets t
  have ready : LinesKept s t := by
    simp only [t]
    split
    · exact .ite (pnTrigger_linesKept s _) (modAsc_linesKept s _)
    · exact .refl s
  clear_value t
  split
  · exact ready.trans (idlePeriod_linesKept t k _)
  · next a _ =>
    split
    · exact ready.trans (.trans (modAsc_linesKept t _) (idlePeriod_linesKept (startPage t a) k true))
    · split
      · exact ready.trans (idlePeriod_linesKept t k true)
      · exact formPeriod_linesKept (ready.trans (periodPn_linesKept t a))

theorem lnCfg_ne_streamSts (i k : Nat) : Reg.LN_CFG (lnBase .lnl i) ≠ Reg.KOR_STREAM_STS k := by
  simp only [Reg.LN_CFG, lnBase, Reg.KOR_STREAM_STS]
  omega

theorem noteDecision_linesKept (s : State) (k : Nat) (j : Justify) (bad : Bool) : LinesKept s (noteDecision s k j bad) := by
  unfold noteDecision
  extract_lets t u
  have first : LinesKept s t := .ite (.inc (.refl s) _) (.refl s)
  have second : LinesKept s u := by
    cases j
    exacts [first, first.inc _, first.inc _]
  exact second.trans (.wr (fun i => lnCfg_ne_streamSts i k) _)

theorem cueField_linesKept (s : State) (k : Nat) : LinesKept s (cueField s k).2 := by
  unfold cueField
  dsimp only
  split
  · exact .refl s
  · dsimp only
    exact .modKor (.refl s)

theorem fillStream_linesKept (s : State) (k n : Nat) : LinesKept s (fillStream s k n).2 := by
  dsimp only [fillStream]
  exact .modKor (.refl s)

end Sys2Proof.Machine
end

section
/-! SUPPORT. A frame period of a port whose lanes are not looped: what it sends, and what it leaves (05 R158 to R163, R169, R183 to R191). -/

namespace Sys2Proof.Machine

/-! ### Sending leaves registers, ports, associations and counters -/

/-- Registers, Korone ports, associations and counters are what they were. -/
structure SentOnly (s t : State) : Prop where
  regs : t.regs = s.regs
  kor : t.kor = s.kor
  asc : t.asc = s.asc
  cnt : t.cnt = s.cnt

theorem SentOnly.refl (s : State) : SentOnly s s := ⟨rfl, rfl, rfl, rfl⟩

theorem SentOnly.trans {s t u : State} (h : SentOnly s t) (g : SentOnly t u) : SentOnly s u :=
  ⟨g.regs.trans h.regs, g.kor.trans h.kor, g.asc.trans h.asc, g.cnt.trans h.cnt⟩

theorem takeBei_sentOnly (s : State) (k i : Nat) : SentOnly s (takeBei s k i).2 := by
  unfold takeBei
  split
  exacts [⟨rfl, rfl, rfl, rfl⟩, .refl s]

theorem sendLane_sentOnly (k : Nat) (o : PeriodOut) (s : State) (i : Nat) : SentOnly s (sendLane k o s i).2 := by
  have formed : SentOnly s (formFrame s k o i).2 := (takeBei_sentOnly s k i).trans ⟨rfl, rfl, rfl, rfl⟩
  unfold sendLane
  generalize formFrame s k o i = r at formed ⊢
  obtain ⟨fr, t⟩ := r
  dsimp only at formed ⊢
  refine formed.trans ?_
  split <;> exact ⟨rfl, rfl, rfl, rfl⟩

/-- Every lane of a port sends its frame; each is known by its lane's number. -/
theorem sendLanes_sentOnly (k : Nat) (o : PeriodOut) (w : Nat) (l : List Nat) (hl : ∀ i ∈ l, i < w) (x : List (Nat × List Byte × Nat) × State)
    (hx : ∀ y ∈ x.1, y.1 < w) :
    let r := l.foldl (fun (x : List (Nat × List Byte × Nat) × State) i => let y := sendLane k o x.2 i; (x.1 ++ [(i, y.1)], y.2)) x
    SentOnly x.2 r.2 ∧ ∀ y ∈ r.1, y.1 < w := by
  induction l generalizing x with
  | nil => exact ⟨.refl _, hx⟩
  | cons i l ih =>
    obtain ⟨sent, named⟩ := ih (fun j hj => hl j (List.mem_cons_of_mem _ hj)) (x.1 ++ [(i, (sendLane k o x.2 i).1)], (sendLane k o x.2 i).2)
      (fun y hy => by
        rcases List.mem_append.1 hy with old | new
        · exact hx y old
        · rw [List.mem_singleton.1 new]
          exact hl i List.mem_cons_self)
    exact ⟨(sendLane_sentOnly k o x.2 i).trans sent, named⟩

/-- A lane that is not looped does not hear what it has sent (R128). -/
theorem hearOwn_unlooped {k : Nat} {s : State} {x : Nat × List Byte × Nat} (loop : s.get (Reg.LN_CFG_LOOP (lnBase .lnl (k + x.1))) = 0) :
    hearOwn k s x = s := by
  simp only [hearOwn, nearLoop_unlooped loop, Bool.false_eq_true, if_false]

theorem sendPeriod_sentOnly {s : State} {k : Nat} (loop : ∀ j ∈ s.portLanes .lnl k, s.get (Reg.LN_CFG_LOOP (lnBase .lnl j)) = 0)
    (o : PeriodOut) : SentOnly s (sendPeriod s k o) := by
  obtain ⟨sent, named⟩ := sendLanes_sentOnly k o (s.laneWidth .lnl k) (List.range (s.laneWidth .lnl k)) (fun i hi => List.mem_range.1 hi)
    ([], s) (fun y hy => absurd hy List.not_mem_nil)
  unfold sendPeriod
  generalize (List.range (s.laneWidth .lnl k)).foldl _ ([], s) = r at sent named ⊢
  obtain ⟨l, t⟩ := r
  have deaf (m : List (Nat × List Byte × Nat)) (hm : ∀ y ∈ m, y.1 < s.laneWidth .lnl k) : m.foldl (hearOwn k) t = t := by
    induction m with
    | nil => rfl
    | cons y m ih =>
      have lane : t.get (Reg.LN_CFG_LOOP (lnBase .lnl (k + y.1))) = 0 :=
        (State.get_of_rd (rd_of_regs sent.regs _)).trans
          (loop _ (List.mem_map.2 ⟨y.1, List.mem_range.2 (hm y List.mem_cons_self), rfl⟩))
      rw [List.foldl_cons, hearOwn_unlooped lane, ih (fun z hz => hm z (List.mem_cons_of_mem _ hz))]
  dsimp only
  rw [deaf l named]
  exact sent

/-! ### A frame period in its parts -/

section Period
variable (s : State) (k : Nat) (bs : List (BitVec 66))

/-- The port with the blocks that have arrived for it, in stream mode. -/
def blocksArrived : State := if s.isStream k then s.modKor k (fun p => { p with fifo := p.fifo ++ bs }) else s

/-- The stream content of the period, none in frame mode. -/
def periodContent : Sent × State :=
  if s.isStream k then streamContent (blocksArrived s k bs) k (s.korPort k).txCount else (noContent, blocksArrived s k bs)

/-- The port stream of the period, none in stream mode. -/
def periodBytes : List Byte × State :=
  if s.isStream k then ([], (periodContent s k bs).2) else fillStream (periodContent s k bs).2 k (32 * payloadWords * s.laneWidth .lnl k)

/-- The period counted, its tag kept for the next one. -/
def periodCounted : State :=
  (cueField (periodBytes s k bs).2 k).2.modKor k (fun p => { p with txCount := p.txCount + 1, lastTag := (periodContent s k bs).1.tag })

/-- The period as KOR_STREAM_STS shows it, and its content given out. -/
def periodShown : State :=
  if s.isStream k then
    let t := periodCounted s k bs
    let c := (periodContent s k bs).1
    let u := if c.content then t.emit (.periodSent k (s.korPort k).txCount c.cipher) else t
    (u.set (Reg.KOR_STREAM_STS_JC_TX k) c.decision.code).set (Reg.KOR_STREAM_STS_FILL k) (min 65535 (u.korPort k).fifo.length)
  else periodCounted s k bs

theorem framePeriodOp_eq : framePeriodOp k bs s =
    if s.korActs k = false ∨ s.inMission .lnl k = false then s
    else sendPeriod (periodShown s k bs) k {
      count := (s.korPort k).txCount, flags := sendFlags (periodShown s k bs) k (periodContent s k bs).1.content,
      ptr := if s.isStream k then 0 else capPtr (blocksArrived s k bs) k (32 * payloadWords * s.laneWidth .lnl k),
      sent := (periodContent s k bs).1, lastTag := (s.korPort k).lastTag, cue := (cueField (periodBytes s k bs).2 k).1,
      bytes := (periodBytes s k bs).1 } := rfl

variable {s k bs}

theorem period_linesKept : LinesKept s (cueField (periodBytes s k bs).2 k).2 := by
  have arrived : LinesKept s (blocksArrived s k bs) := .ite (.modKor (.refl s)) (.refl s)
  have content : LinesKept s (periodContent s k bs).2 := by
    unfold periodContent
    split
    · exact arrived.trans (streamContent_linesKept _ k _)
    · exact arrived
  have filled : LinesKept s (periodBytes s k bs).2 := by
    unfold periodBytes
    split
    · exact content
    · exact content.trans (fillStream_linesKept _ k _)
  exact filled.trans (cueField_linesKept _ k)

/-- Showing a period leaves every port as it was counted. -/
theorem periodShown_kor : (periodShown s k bs).kor = (periodCounted s k bs).kor := by
  unfold periodShown
  split
  · dsimp only
    split <;> rfl
  · rfl

theorem periodShown_counts : ((periodShown s k bs).korPort k).txCount = (s.korPort k).txCount + 1 := by
  rw [korPort_of_kor periodShown_kor, periodCounted, State.korPort_modKor, period_linesKept.sent]

theorem periodShown_cfg (j : Nat) : (periodShown s k bs).rd (Reg.LN_CFG (lnBase .lnl j)) = s.rd (Reg.LN_CFG (lnBase .lnl j)) := by
  have counted : (periodCounted s k bs).rd (Reg.LN_CFG (lnBase .lnl j)) = s.rd (Reg.LN_CFG (lnBase .lnl j)) := period_linesKept.cfg j
  unfold periodShown
  split
  · rw [State.rd_set_ne _ _ _ (by exact lnCfg_ne_streamSts j k), State.rd_set_ne _ _ _ (by exact lnCfg_ne_streamSts j k)]
    exact (rd_ite (State.emit_rd _ _ _) rfl).trans counted
  · exact counted

theorem periodShown_unlooped (loop : ∀ j ∈ s.portLanes .lnl k, s.get (Reg.LN_CFG_LOOP (lnBase .lnl j)) = 0) :
    ∀ j ∈ (periodShown s k bs).portLanes .lnl k, (periodShown s k bs).get (Reg.LN_CFG_LOOP (lnBase .lnl j)) = 0 := by
  have lanes : (periodShown s k bs).portLanes .lnl k = s.portLanes .lnl k := by
    rw [State.portLanes, State.portLanes, State.laneWidth, State.laneWidth, State.get_of_rd (periodShown_cfg k)]
  intro j hj
  rw [State.get_of_rd (periodShown_cfg j)]
  exact loop j (lanes ▸ hj)

/-- A frame period on a port in MISSION whose lanes are not looped: what its sending leaves. -/
theorem framePeriodOp_sends (acts : s.korActs k = true) (mission : s.inMission .lnl k = true)
    (loop : ∀ j ∈ s.portLanes .lnl k, s.get (Reg.LN_CFG_LOOP (lnBase .lnl j)) = 0) :
    SentOnly (periodShown s k bs) (framePeriodOp k bs s) := by
  rw [framePeriodOp_eq, if_neg (by simp [acts, mission])]
  exact sendPeriod_sentOnly (periodShown_unlooped loop) _

/-! ### A stream port with no association (R25, R190) -/

theorem streamContent_unassigned {t : State} (h : t.flag (Reg.ASC_PORT_STREAM_TX_VALID k) = false) (n : Word) :
    streamContent t k n = (noContent, idlePeriod t k true) := by
  have none' : t.streamAssoc k = none := by rw [State.streamAssoc, h]; rfl
  have idle : t.streamTx k = none := by rw [State.streamTx, none', ite_self]
  simp only [streamContent, idle, none', Option.isNone_none]

section Unassigned
variable (stream : s.isStream k = true) (unassigned : s.flag (Reg.ASC_PORT_STREAM_TX_VALID k) = false)
include stream unassigned

theorem periodContent_unassigned : periodContent s k bs = (noContent, idlePeriod (blocksArrived s k bs) k true) := by
  rw [periodContent, if_pos stream, streamContent_unassigned]
  rw [blocksArrived, if_pos stream]
  exact unassigned

theorem periodCounted_unassigned : periodCounted s k bs =
    (cueField (idlePeriod (s.modKor k (fun p => { p with fifo := p.fifo ++ bs })) k true) k).2.modKor k
      (fun p => { p with txCount := p.txCount + 1, lastTag := noContent.tag }) := by
  rw [periodCounted, periodBytes, if_pos stream, periodContent_unassigned stream unassigned, blocksArrived, if_pos stream]

end Unassigned

theorem cueField_fifo (t : State) (k : Nat) : ((cueField t k).2.korPort k).fifo = (t.korPort k).fifo := by
  unfold cueField
  dsimp only
  split
  · rfl
  · rw [State.korPort_modKor]

theorem cueField_keeps (t : State) (k : Nat) : (cueField t k).2.asc = t.asc ∧ (cueField t k).2.cnt = t.cnt := by
  unfold cueField
  dsimp only
  split <;> exact ⟨rfl, rfl⟩

/-- A stream port without an association loses the blocks that waited, shows no decision, and counts the period in KOR_NO_CONTENT. -/
theorem periodShown_unassigned (stream : s.isStream k = true) (unassigned : s.flag (Reg.ASC_PORT_STREAM_TX_VALID k) = false)
    (room : Room s (Reg.KOR_NO_CONTENT k)) :
    ((periodShown s k bs).korPort k).fifo = [] ∧ (periodShown s k bs).get (Reg.KOR_STREAM_STS_JC_TX k) = 0 ∧
    (periodShown s k bs).asc = s.asc ∧ (periodShown s k bs).ctr (Reg.KOR_NO_CONTENT k) = s.ctr (Reg.KOR_NO_CONTENT k) + 1 := by
  let u := s.modKor k (fun p => { p with fifo := p.fifo ++ bs })
  let v := idlePeriod u k true
  have counts : v = (counted u (Reg.KOR_NO_CONTENT k)).modKor k (fun p => { p with fifo := [] }) :=
    congrArg (fun x => State.modKor x k (fun p => { p with fifo := [] })) (State.inc_eq u _ room)
  obtain ⟨asc, cnt⟩ := cueField_keeps v k
  have shown : periodShown s k bs =
      ((periodCounted s k bs).set (Reg.KOR_STREAM_STS_JC_TX k) 0).set (Reg.KOR_STREAM_STS_FILL k)
        (min 65535 ((periodCounted s k bs).korPort k).fifo.length) := by
    rw [periodShown, if_pos stream, periodContent_unassigned stream unassigned]
    rfl
  refine ⟨?_, ?_, ?_, ?_⟩
  · rw [korPort_of_kor periodShown_kor, periodCounted_unassigned stream unassigned, State.korPort_modKor]
    exact (cueField_fifo v k).trans (by rw [counts, State.korPort_modKor])
  · rw [shown, State.get_set_apart _ (Reg.KOR_STREAM_STS_FILL k) (Reg.KOR_STREAM_STS_JC_TX k) _ (Nat.zero_le 15) (show 15 < 32 by decide) rfl
      (Or.inl (show 15 < 30 by decide)),
      State.get_set _ (Reg.KOR_STREAM_STS_JC_TX k) (show 30 ≤ 31 by decide) (show 31 < 32 by decide)]
    rfl
  · rw [shown, State.set_asc, State.set_asc, periodCounted_unassigned stream unassigned, State.modKor_asc]
    exact asc.trans (by rw [counts, State.modKor_asc]; rfl)
  · rw [shown, State.set_ctr, State.set_ctr, periodCounted_unassigned stream unassigned, State.modKor_ctr]
    rw [State.ctr, cnt, counts, State.modKor_cnt]
    exact mlook_mstore_same 0 (Reg.KOR_NO_CONTENT k) (u.ctr (Reg.KOR_NO_CONTENT k) + 1) u.cnt.vals

end Period

end Sys2Proof.Machine
end

section
/-! SUPPORT. Stream-mode periods received (05 R184, R188, R189, R192). -/

namespace Sys2Proof.Machine

/-! ### A period arrives (R184, R188) -/

section Arrives
variable {s : State} {k : Nat} {count skey : Word} {spn : BitVec 64} {jc : List Byte} {bs : List (BitVec 66)}

theorem periodRxOp_unfit (h : ¬ (s.korActs k = true ∧ s.isStream k = true ∧ s.flag (Reg.KOR_STS_ALIGNED k) = true)) (empty : Bool) :
    periodRxOp k count skey spn jc empty bs s = s := by
  refine if_pos ?_
  rwa [not_and_or, not_and_or, Bool.not_eq_true, Bool.not_eq_true, Bool.not_eq_true] at h

/-- Where every period held has its tag, none fails for want of one. -/
theorem failUntagged_tagged (h : ∀ q ∈ (s.korPort k).held, q.tag.isSome) : failUntagged s k = s := by
  have none' : (s.korPort k).held.filter (fun q => q.tag.isNone) = [] :=
    List.filter_eq_nil_iff.2 (fun q hq => by simp [Option.isSome_iff_ne_none.1 (h q hq)])
  simp only [failUntagged, none', if_true]

/-- The blocks of a period that its justification selects (R184, R185). -/
def selectedBlocks (w : Nat) (count : Word) (bs : List (BitVec 66)) (j : Justify) : List (BitVec 66) :=
  let base := (bs.drop w).take (w * baseSlots count.toNat)
  match j with
  | .none => base
  | .positive => base.take (base.length - w)
  | .negative => bs.take w ++ base

section Fits
variable (fits : s.korActs k = true ∧ s.isStream k = true ∧ s.flag (Reg.KOR_STS_ALIGNED k) = true)
  (tagged : ∀ q ∈ (s.korPort k).held, q.tag.isSome)
include fits tagged

/-- A period that fits its port is without content, arrives while the port is not up, or is held with the blocks selected. -/
theorem periodRxOp_fits (empty : Bool) : periodRxOp k count skey spn jc empty bs s =
    if empty then (s.inc (Reg.KOR_NO_CONTENT k)).emit (.localFault k)
    else if s.portUp .line k = false then s.emit (.localFault k)
    else (noteDecision s k (majority jc).1 (majority jc).2).modKor k (fun q => { q with held := q.held ++
      [{ frameCount := count, skey := skey, spn := spn, cipher := selectedBlocks (s.laneWidth .lnl k) count bs (majority jc).1, tag := none }] }) := by
  obtain ⟨acts, stream, aligned⟩ := fits
  simp only [periodRxOp, acts, stream, aligned, Bool.true_eq_false, or_self, if_false, failUntagged_tagged tagged]
  rfl

theorem periodRxOp_empty : periodRxOp k count skey spn jc true bs s = (s.inc (Reg.KOR_NO_CONTENT k)).emit (.localFault k) :=
  periodRxOp_fits fits tagged true

theorem periodRxOp_down (down : s.portUp .line k = false) : periodRxOp k count skey spn jc false bs s = s.emit (.localFault k) :=
  (periodRxOp_fits fits tagged false).trans (if_pos down)

theorem periodRxOp_held (up : s.portUp .line k = true) : periodRxOp k count skey spn jc false bs s =
    (noteDecision s k (majority jc).1 (majority jc).2).modKor k (fun q => { q with held := q.held ++
      [{ frameCount := count, skey := skey, spn := spn, cipher := selectedBlocks (s.laneWidth .lnl k) count bs (majority jc).1, tag := none }] }) :=
  (periodRxOp_fits fits tagged false).trans (if_neg (show ¬ s.portUp .line k = false by rw [up]; decide))

end Fits
end Arrives

/-! ### A tag decides the one period held (R189, R192) -/

section Decided
variable {s : State} {k : Nat} {p : Period} {tag : BitVec 128}

theorem tagVerifyOp_none (h : (s.korPort k).held = []) : tagVerifyOp k tag s = s := if_pos h

theorem tagVerifyOp_one (h : (s.korPort k).held = [p]) (fresh : p.tag = none) :
    tagVerifyOp k tag s = settleHeld k [{ p with tag := some tag }] s := by
  simp [tagVerifyOp, h, fresh]

theorem settleHeld_unassigned (h : s.streamRx k p.skey = none) : settleHeld k [{ p with tag := some tag }] s =
    (periodFails s k p.cipher.length).modKor k (fun q => { q with held := [] }) := by
  simp only [settleHeld, h]

theorem settleHeld_pages {a : Nat} (h : s.streamRx k p.skey = some a) (away : s.slotOf a = none) :
    settleHeld k [{ p with tag := some tag }] s = (startPage s a).modKor k (fun q => { q with held := [{ p with tag := some tag }] }) := by
  simp only [settleHeld, h, away]

theorem settleHeld_ready {a i : Nat} {x : Slot} (h : s.streamRx k p.skey = some a) (slot : s.slotOf a = some (i, x)) (ready : s.ready a = true) :
    let t := s.bump Reg.FRM_OPS_DEC (periodOps p.cipher.length)
    settleHeld k [{ p with tag := some tag }] s = State.modKor (
      if periodTag (t.asRec a) x.key.value p.skey p.spn.toNat p.frameCount p.cipher = tag then periodPasses t k a x.key.value p
      else periodFails (countTagFail t a) k p.cipher.length) k (fun q => { q with held := [] }) := by
  simp only [settleHeld, h, slot, ready, Bool.true_eq_false, if_false]
  split <;> rfl

end Decided

end Sys2Proof.Machine

namespace Sys2Proof.Proofs
open Sys2Proof.Machine

/-- Settles O25: a period received by whether it fits and the port is up, the one held by its association and its tag, a period sent by
what its content and its sending leave. -/
theorem streamPeriods : Obligations.StreamPeriods := by
  intro s k count skey spn jc bs tag p run loop fits fails decided
  have paired {t c f} (e : exec c s = .next (live (fromPairs k f) s)) (h : f s = t) : exec c s = .next t :=
    exec_of_live run e ((fromPairs_acts (portNear_unlooped loop) f).trans h)
  refine ⟨fun unfit empty => paired rfl (periodRxOp_unfit unfit empty), fun fit tagged => ⟨paired rfl (periodRxOp_empty fit tagged),
      fun down => paired rfl (periodRxOp_down fit tagged down), fun up => ?_⟩,
    fun held fresh => ?_, fun empty => paired rfl (tagVerifyOp_none empty), fun acts mission => ?_, fun idle => exec_of_live run rfl (if_pos idle)⟩
  · intro t w base cipher
    have width : w = s.laneWidth .lnl k := (noteDecision_linesKept s k _ _).laneWidth k
    have selected : cipher = selectedBlocks (s.laneWidth .lnl k) count bs (majority jc).1 := by
      rw [← width]
      simp only [cipher, selectedBlocks]
      cases (majority jc).1 <;> rfl
    rw [selected]
    exact paired rfl (periodRxOp_held fit tagged up)
  · have one {t} (h : settleHeld k [{ p with tag := some tag }] s = t) : exec (.streamTagVerify k tag) s = .next t :=
      paired rfl ((tagVerifyOp_one held fresh).trans h)
    exact ⟨fun none' => one (settleHeld_unassigned none'), fun a assigned => ⟨fun away => one (settleHeld_pages assigned away),
      fun i x slot ready => one (settleHeld_ready assigned slot ready)⟩⟩
  · have sent := framePeriodOp_sends (bs := bs) acts mission loop
    refine ⟨framePeriodOp k bs s, exec_of_live run rfl rfl, ?_, fun stream unassigned room => ?_⟩
    · rw [korPort_of_kor sent.kor]
      exact periodShown_counts
    · obtain ⟨fifo, shown, asc, counts⟩ := periodShown_unassigned (bs := bs) stream unassigned room
      exact ⟨by rw [korPort_of_kor sent.kor, fifo], (State.get_of_rd (rd_of_regs sent.regs _)).trans shown, sent.asc.trans asc,
        by rw [State.ctr, sent.cnt]; exact counts⟩

end Sys2Proof.Proofs
end

section
/-! SUPPORT. Holdover, PPS_IN and its captures, PPS_OUT, held Follow_Ups and the dailies (05 R198; 10 R369, R371 to R373, R377, R378, R385 to
R387, R389; 15 R554). -/

namespace Sys2Proof.Machine

/-- A change that the time unit does not feel is none. -/
theorem modTim_unchanged {s : State} {f : Tim → Tim} (h : f s.tim = s.tim) : s.modTim f = s := congrArg (fun x => { s with tim := x }) h

/-! ### HOLDOVER (R371, R387, R389) -/

section Holdover
variable {s : State}

/-- The discipline timeout acts: LOCKED, with a limit, and no discipline write in the same clock. -/
def timesOut (s : State) : Prop :=
  s.get Reg.TIM_STS_STATE = 1 ∧ s.get Reg.TIM_CFG_HOLD_TIMEOUT_MS ≠ 0 ∧ s.tim.lastDisc ≠ some s.clk

theorem holdoverTimeoutOp_enters (h : timesOut s) : holdoverTimeoutOp s = enterHoldover s 1 := by
  obtain ⟨locked, limit, quiet⟩ := h
  rw [holdoverTimeoutOp, if_neg quiet, if_pos ⟨locked, limit⟩]

theorem holdoverTimeoutOp_idle (h : ¬ timesOut s) : holdoverTimeoutOp s = s := by
  rw [holdoverTimeoutOp]
  split
  · rfl
  · next quiet => exact if_neg (fun ⟨locked, limit⟩ => h ⟨locked, limit, quiet⟩)

theorem ppsLostOp_enters (locked : s.get Reg.TIM_STS_STATE = 1) (ref : s.flag Reg.TIM_CFG_PPS_REF = true) :
    ppsLostOp s = enterHoldover (s.modTim (fun x => { x with lastPps := none })) 2 := if_pos ⟨locked, ref⟩

theorem ppsLostOp_idle (h : s.get Reg.TIM_STS_STATE ≠ 1 ∨ s.flag Reg.TIM_CFG_PPS_REF = false) :
    ppsLostOp s = s.modTim (fun x => { x with lastPps := none }) := by
  refine if_neg (fun ⟨locked, ref⟩ => ?_)
  rcases h with other | off
  · exact other locked
  · exact Bool.false_ne_true (off.symm.trans ref)

/-- The registers of a device that enters HOLDOVER. -/
def heldRegs (s : State) (why : Nat) : State := (s.set Reg.TIM_STS_STATE 2).set Reg.TIM_STS_REASON why

theorem heldRegs_onlyRegs (s : State) (why : Nat) : OnlyRegs [Reg.TIM_STS] s (heldRegs s why) :=
  ((OnlyRegs.refl _ s).set (f := Reg.TIM_STS_STATE) (by decide) 2).set (f := Reg.TIM_STS_REASON) (by decide) why

theorem heldRegs_fields (s : State) {why : Nat} (h : why < 4) :
    (heldRegs s why).get Reg.TIM_STS_STATE = 2 ∧ (heldRegs s why).get Reg.TIM_STS_REASON = why := by
  unfold heldRegs
  constructor
  · rw [State.get_set_apart _ Reg.TIM_STS_REASON Reg.TIM_STS_STATE _ (by decide) (by decide) rfl (by decide),
      State.get_set _ _ (by decide) (by decide)]
    rfl
  · rw [State.get_set _ _ (by decide) (by decide)]
    exact Nat.mod_eq_of_lt h

theorem enterHoldover_raises (locked : s.get Reg.TIM_STS_STATE = 1) (why : Nat) : enterHoldover s why =
    raise0 ((heldRegs s why).modTim (fun x => { x with
      holdStart := some (heldRegs s why).tim.frc.toNat, holdSec := 0, ppsSinceHold := false })) 0x0501 0 := by
  unfold enterHoldover
  dsimp only
  rw [if_pos (decide_eq_true locked)]
  rfl

/-- HOLDOVER entered from LOCKED: its state and reason are shown, its seconds begin at FRC, and the event is raised. -/
theorem enterHoldover_locked (locked : s.get Reg.TIM_STS_STATE = 1) {why : Nat} (h : why < 4) :
    ∃ u, enterHoldover s why = raise0 u 0x0501 0 ∧ u.get Reg.TIM_STS_STATE = 2 ∧ u.get Reg.TIM_STS_REASON = why ∧
      OnlyRegs [Reg.TIM_STS] (s.modTim (fun x => { x with holdStart := some s.tim.frc.toNat, holdSec := 0, ppsSinceHold := false })) u := by
  obtain ⟨state, reason⟩ := heldRegs_fields s h
  have regs := heldRegs_onlyRegs s why
  rw [enterHoldover_raises locked]
  generalize heldRegs s why = v at state reason regs ⊢
  refine ⟨_, rfl, ?_, ?_, ?_⟩
  · rw [State.modTim_get, state]
  · rw [State.modTim_get, reason]
  · rw [regs.tim_eq]
    exact regs.modTim _

end Holdover

/-! ### Edges and captures (R377, R378) -/

section Edges
variable {s : State} {ns : Nat}

theorem ppsEdgeOp_short (h : ns < 100) : ppsEdgeOp ns s = s := if_pos (Or.inl h)

theorem timeEventOp_short (h : ns < 100) : timeEventOp ns s = s := if_pos (Or.inl h)

theorem ppsEdgeOp_counts (h : 100 ≤ ns) (awake : s.dormant = false) : ppsEdgeOp ns s =
    let t := s.modTim (fun x => { x with lastPps := some s.clk, ppsSinceHold := true })
    if s.flag Reg.TIM_CFG_CAP_PPS_EN then capture t 0 else t :=
  if_neg (by simp [awake, h])

theorem timeEventOp_counts (h : 100 ≤ ns) (awake : s.dormant = false) :
    timeEventOp ns s = if s.flag Reg.TIM_CFG_CAP_EVT_EN then capture s 1 else s := if_neg (by simp [awake, h])

/-- The capture of this moment. -/
def capturedNow (s : State) : Capture := { ns := w32 s.nowSub, sec := BitVec.ofNat 48 s.nowSec }

theorem capture_pps (room : s.tim.cap0.length < 16) : capture s 0 = s.modTim (fun t => { t with cap0 := t.cap0 ++ [capturedNow s] }) :=
  if_pos room

theorem capture_event (room : s.tim.cap1.length < 16) : capture s 1 = s.modTim (fun t => { t with cap1 := t.cap1 ++ [capturedNow s] }) :=
  if_pos room

theorem capture_pps_full (full : 16 ≤ s.tim.cap0.length) : capture s 0 = raise0 (s.modTim (fun t => { t with ovf0 := true })) 0x0505 0 :=
  if_neg (Nat.not_lt.2 full)

theorem capture_event_full (full : 16 ≤ s.tim.cap1.length) : capture s 1 = raise0 (s.modTim (fun t => { t with ovf1 := true })) 0x0505 1 :=
  if_neg (Nat.not_lt.2 full)

end Edges

/-! ### Reads of time and of captures (R369, R378, R389) -/

section Reads
variable {s : State} (awake : Awake s) (who : Who)
include awake

theorem nowRead_read : readOp who Reg.TIM_NOW_NS s =
    (s.modPath who.path (fun y => { y with nowSec := BitVec.ofNat 48 s.nowSec })).emit (.readData who.path (w32 s.nowSub)) :=
  readOp_special awake (f := nowRead who.path) rfl

theorem capPop_pps {x : Capture} {xs : List Capture} (h : s.tim.cap0 = x :: xs) : readOp who (Reg.TIM_CAP_NS 0) s =
    (s.modTim (fun t => { t with cap0 := xs })).emit (.readData who.path x.ns) := by
  rw [readOp_special awake (f := capPop 0) rfl]
  simp [capPop, State.captures, State.modTim, h]

theorem capPop_event {x : Capture} {xs : List Capture} (h : s.tim.cap1 = x :: xs) : readOp who (Reg.TIM_CAP_NS 1) s =
    (s.modTim (fun t => { t with cap1 := xs })).emit (.readData who.path x.ns) := by
  rw [readOp_special awake (f := capPop 1) rfl]
  simp [capPop, State.captures, State.modTim, h]

theorem capPop_event_empty (h : s.tim.cap1 = []) : readOp who (Reg.TIM_CAP_NS 1) s = s.emit (.readData who.path 0) := by
  have kept : s.modTim (fun t => { t with cap1 := t.cap1.drop 1 }) = s :=
    modTim_unchanged (congrArg (fun l => { s.tim with cap1 := l }) (by rw [h, List.drop_nil] : s.tim.cap1.drop 1 = s.tim.cap1))
  have popped : capPop 1 s = (0, s) := Prod.ext (by simp [capPop, State.captures, h]) kept
  rw [readOp_special awake (f := capPop 1) rfl, popped]

end Reads

/-! ### PPS_OUT and the crystal (R373, R377) -/

section Outputs
variable {s : State}

theorem ppsOutOp_rises (runs : s.ppsRuns = true) (low : s.tim.ppsOut = false) :
    ppsOutOp true s = (s.modTim (fun t => { t with ppsOut := true })).emit (.ppsEdge true) := by
  simp [ppsOutOp, setPpsOut, runs, low]

theorem ppsOutOp_falls (high : s.tim.ppsOut = true) :
    ppsOutOp false s = (s.modTim (fun t => { t with ppsOut := false })).emit (.ppsEdge false) := by
  simp [ppsOutOp, setPpsOut, high]

theorem ppsOutOp_stopped (stopped : s.ppsRuns = false) (low : s.tim.ppsOut = false) : ppsOutOp true s = s := by
  simp [ppsOutOp, setPpsOut, stopped, low]

theorem xtalCalOp_keeps (awake : s.dormant = false) (off : Word) :
    xtalCalOp off s = (s.modTim (fun x => { x with xtalOffset := off })).wr Reg.TIM_XTAL_CAL off := by
  simp [xtalCalOp, awake]

end Outputs

/-! ### Held Follow_Ups (R385) -/

section FollowUps
variable {s : State} {id : Nat} {f : Frame} {x : Follow}

theorem fuTimeoutOp_unknown (h : s.frame? id = none) : fuTimeoutOp (some id) s = s := by
  simp only [fuTimeoutOp, h]

theorem fuTimeoutOp_other (h : s.frame? id = some f) (stage : f.stage ≠ .follow) : fuTimeoutOp (some id) s = s := by
  simp only [fuTimeoutOp, h, if_pos stage]

theorem fuTimeoutOp_held (h : s.frame? id = some f) (stage : f.stage = .follow)
    (entry : s.sch.follows.find? (fun x => x.has (ptpKey f.plain) f.m) = some x) :
    fuTimeoutOp (some id) s = resumeFollow (fuLost (dropFollow s x.order) f.m) id none := by
  simp only [fuTimeoutOp, h, stage, entry, ne_eq, not_true_eq_false, if_false]

theorem fuTimeoutOp_fixed (entry : s.sch.follows.find? (fun x => x.err.isSome) = some x) :
    fuTimeoutOp none s = fuLost (dropFollow s x.order) x.egress := by
  simp only [fuTimeoutOp, entry]

theorem fuTimeoutOp_none (entry : s.sch.follows.find? (fun x => x.err.isSome) = none) : fuTimeoutOp none s = s := by
  simp only [fuTimeoutOp, entry]

end FollowUps

/-! ### The dailies (R198, R386, R554) -/

section Latch
variable {s : State} {sec last : BitVec 48}

theorem dailiesOp_dormant (h : s.dormant = true) : dailiesOp sec s = s := by simp [dailiesOp, h]

theorem dailiesOp_latched (h : s.tim.dailySec = some last) (past : sec ≤ last) : dailiesOp sec s = s := by
  simp [dailiesOp, h, past]

theorem dailiesOp_first (awake : s.dormant = false) (h : s.tim.dailySec = none) : dailiesOp sec s =
    ((List.range 64).foldl (dailyPortLatch sec.toNat 0) s).modTim (fun t => { t with dailySec := some sec }) := by
  rw [dailiesOp, awake, h]
  rfl

theorem dailiesOp_later (awake : s.dormant = false) (h : s.tim.dailySec = some last) (later : last < sec) : dailiesOp sec s =
    ((List.range 64).foldl (dailyPortLatch sec.toNat (sec.toNat - last.toNat - 1)) s).modTim (fun t => { t with dailySec := some sec }) := by
  have new : ¬ (s.dormant || s.tim.dailySec.any (fun t => decide (sec ≤ t))) = true := by simp [awake, h, later]
  rw [dailiesOp, if_neg new, h]
  rfl

end Latch

end Sys2Proof.Machine

namespace Sys2Proof.Proofs
open Sys2Proof.Machine

/-- Settles O42: HOLDOVER by what enters it, edges and captures by their width and room, Follow_Ups by their entries, the dailies by the
last second latched. -/
theorem timeHeld : Obligations.TimeHeld := by
  constructor
  · intro s who ns off x xs run awake once
    have op {t c f} := @exec_of_live s t c f run
    have read {t c off} (e : exec c s = .next (readOp who off s)) (h : readOp who off s = t) : exec c s = .next t := e.trans (congrArg _ h)
    refine ⟨fun h => op rfl (holdoverTimeoutOp_enters h), fun h => op rfl (holdoverTimeoutOp_idle h),
      ⟨fun locked ref => op rfl (ppsLostOp_enters locked ref), fun h => op rfl (ppsLostOp_idle h)⟩,
      fun why locked => enterHoldover_locked locked why.isLt,
      fun short => ⟨op rfl (ppsEdgeOp_short short), op rfl (timeEventOp_short short)⟩,
      fun long => ⟨op rfl (ppsEdgeOp_counts long awake), op rfl (timeEventOp_counts long awake)⟩,
      ⟨capture_pps, capture_event, capture_pps_full, capture_event_full⟩,
      fun h => read rfl (capPop_pps ⟨run, awake⟩ who h), fun h => read rfl (capPop_event ⟨run, awake⟩ who h),
      fun h => read rfl (capPop_event_empty ⟨run, awake⟩ who h), read rfl (nowRead_read ⟨run, awake⟩ who),
      fun runs low => op rfl (ppsOutOp_rises runs low), fun high => op rfl (ppsOutOp_falls high),
      fun stopped low => op rfl (ppsOutOp_stopped stopped low),
      ⟨_, op rfl (xtalCalOp_keeps awake off), State.rd_wr _ _ _, (OnlyRegs.refl _ _).wr (List.mem_singleton_self _) off⟩⟩
  · intro s id f x sec run
    have op {t c f} := @exec_of_live s t c f run
    exact ⟨fun h => op rfl (fuTimeoutOp_unknown h), fun h stage => op rfl (fuTimeoutOp_other h stage),
      fun h stage entry => op rfl (fuTimeoutOp_held h stage entry), fun entry => op rfl (fuTimeoutOp_fixed entry),
      fun entry => op rfl (fuTimeoutOp_none entry), fun last h past => op rfl (dailiesOp_latched h past),
      fun h => op rfl (dailiesOp_dormant h), fun up h => op rfl (dailiesOp_first up h),
      fun last up h later => op rfl (dailiesOp_later up h later)⟩

end Sys2Proof.Proofs
end

section
/-! SUPPORT. The command register of the flow table: what a write of it starts or counts, and what the end of an operation shows (06
R231, R233). -/

namespace Sys2Proof.Machine

/-! ### The word of a command -/

section Words
variable {op p : Nat} (byIndex wide : Bool)

theorem fltWord_op (h : op < 16) : fieldOf Reg.FLT_CMD_OP (fltWord op byIndex wide p) = op :=
  fieldOf_word_at [] rfl (by decide) (by decide) h

theorem fltWord_byIndex : decide (fieldOf Reg.FLT_CMD_BY_INDEX (fltWord op byIndex wide p) = 1) = byIndex := by
  have field : fieldOf Reg.FLT_CMD_BY_INDEX (fltWord op byIndex wide p) = b2n byIndex :=
    fieldOf_word_at [(Reg.FLT_CMD_OP, op)] rfl (by decide) (by decide) (by cases byIndex <;> decide)
  rw [field]
  cases byIndex <;> rfl

theorem fltWord_wide : decide (fieldOf Reg.FLT_CMD_WIDE (fltWord op byIndex wide p) = 1) = wide := by
  have field : fieldOf Reg.FLT_CMD_WIDE (fltWord op byIndex wide p) = b2n wide :=
    fieldOf_word_at [(Reg.FLT_CMD_OP, op), (Reg.FLT_CMD_BY_INDEX, b2n byIndex)] rfl (by decide) (by decide)
      (by cases wide <;> decide)
  rw [field]
  cases wide <;> rfl

theorem fltWord_profile (h : p < 16) : fieldOf Reg.FLT_CMD_PROFILE (fltWord op byIndex wide p) = p :=
  fieldOf_word_at [(Reg.FLT_CMD_OP, op), (Reg.FLT_CMD_BY_INDEX, b2n byIndex), (Reg.FLT_CMD_WIDE, b2n wide)] (by decide) (by decide)
    (by decide) h

end Words

/-! ### A write of FLT_CMD (R233) -/

/-- A register's copy at any place keeps of a write what the register's row lets it, where no lock covers it (R5). -/
theorem storeAt_unlocked {off : Nat} {r : RegRow} (row : rowOf off = some r) {s : State} (k : mlook 0 off s.locks = 0) (place : Nat)
    (val : Word) :
    storeAt place off val s = s.wr place (((s.rd place &&& ~~~ w32 r.rw) ||| (val &&& w32 r.rw)) &&& ~~~ (val &&& w32 r.w1c)) := by
  simp only [storeAt, row, k]
  simp [show ∀ x : Word, x &&& 4294967295#32 = x from fun x => BitVec.and_allOnes]

/-- An operation served: what it does to the table, with its answer kept for its end (R233). -/
def fltServed (who : Who) (a : FltAnswer × State) : State :=
  a.2.modFlt (fun f => { f with op := some { result := a.1.1, writes := a.1.2, who := who } })

theorem fltStart_word {op p : Nat} (hop : op < 16) (hp : p < 16) (who : Who) (byIndex wide : Bool) (s : State) :
    fltStart who (fltWord op byIndex wide p) s = fltServed who (fltOperate who op byIndex wide p s) := by
  rw [fltStart, fltWord_op byIndex wide hop, fltWord_byIndex, fltWord_wide, fltWord_profile byIndex wide hp]
  rfl

/-- FLT_CMD of an interface that is not busy takes a command with BUSY; the command is served, or waits while another is (R233). -/
theorem fltCmdWrite_takes {who : Who} {s : State} {val : Word} (k : mlook 0 Reg.FLT_CMD s.locks = 0)
    (idle : s.flag (ifcField who Reg.FLT_CMD_BUSY) = false) (op : fieldOf Reg.FLT_CMD_OP val ≠ 0) :
    ∃ u, OnlyRegs [ifc who Reg.FLT_CMD] s u ∧ u.flag (ifcField who Reg.FLT_CMD_BUSY) = true ∧
      u.get (ifcField who Reg.FLT_CMD_OP) = fieldOf Reg.FLT_CMD_OP val ∧
      fltCmdWrite who val s =
        if s.flt.op.isSome then u.modFlt (fun f => { f with waiting := some (who, val) }) else fltStart who val u := by
  have stored := storeAt_unlocked (off := Reg.FLT_CMD) rfl k (ifc who Reg.FLT_CMD) val
  have only : OnlyRegs [ifc who Reg.FLT_CMD] s
      ((storeAt (ifc who Reg.FLT_CMD) Reg.FLT_CMD val s).setFlag (ifcField who Reg.FLT_CMD_BUSY) true) := by
    rw [stored]
    exact (onlyRegs_wr (List.mem_singleton_self _) _ _).setFlag (List.mem_singleton_self _) true
  refine ⟨_, only, State.flag_setFlag _ _ _ rfl (show 31 < 32 by decide), ?_, ?_⟩
  · have apart := State.get_set_apart (storeAt (ifc who Reg.FLT_CMD) Reg.FLT_CMD val s) (ifcField who Reg.FLT_CMD_BUSY)
      (ifcField who Reg.FLT_CMD_OP) (b2n true) (show 31 ≤ 31 by decide) (show 31 < 32 by decide) rfl (.inr (show 30 < 31 by decide))
    rw [State.setFlag, apart, stored]
    exact (State.get_wr _ _ (ifcField who Reg.FLT_CMD_OP)).trans (bits_stored _ _ _ _ (hi := 30) (lo := 27) (by decide) (by decide))
  · rw [fltCmdWrite, if_neg (by simp [idle])]
    dsimp only
    rw [if_neg op, only.flt_eq]

/-- A command of the flow table at an interface of its path, busy and not (R231, R233). -/
theorem fltCommand_starts {s : State} {who : Who} (h : ServesOwn s who) (k : mlook 0 Reg.FLT_CMD s.locks = 0) {c : Instr} {op p : Nat}
    {byIndex wide : Bool} (e : exec c s = .next (gateOwner who Reg.FLT_CMD (fltCmdWrite who (fltWord op byIndex wide p)) s))
    (zero : op ≠ 0) (hop : op < 16) (hp : p < 16) :
    (s.flag (ifcField who Reg.FLT_CMD_BUSY) = true → exec c s = .next (s.inc Reg.FLT_CMD_REFUSED)) ∧
    (s.flag (ifcField who Reg.FLT_CMD_BUSY) = false → ∃ u, OnlyRegs [ifc who Reg.FLT_CMD] s u ∧
      u.flag (ifcField who Reg.FLT_CMD_BUSY) = true ∧ u.get (ifcField who Reg.FLT_CMD_OP) = op ∧
      exec c s = .next (if s.flt.op.isSome then u.modFlt (fun f => { f with waiting := some (who, fltWord op byIndex wide p) })
        else fltServed who (fltOperate who op byIndex wide p u))) := by
  rw [gateOwner_own _ h rfl] at e
  refine ⟨fun busy => e.trans (congrArg _ (if_pos busy)), fun idle => ?_⟩
  obtain ⟨u, only, busy, shown, takes⟩ := fltCmdWrite_takes (val := fltWord op byIndex wide p) k idle
    (by rwa [fltWord_op byIndex wide hop])
  rw [fltWord_op byIndex wide hop] at shown
  rw [fltStart_word hop hp] at takes
  exact ⟨u, only, busy, shown, e.trans (congrArg _ takes)⟩

/-! ### The end of an operation (R233) -/

/-- The interface of an operation that failed shows its result with BUSY 0, and none is served. -/
def fltFailed (s : State) (who : Who) (r : Nat) : State :=
  ((s.modFlt (fun f => { f with op := none, waiting := none })).set (ifcField who Reg.FLT_CMD_RESULT) r).setFlag
    (ifcField who Reg.FLT_CMD_BUSY) false

theorem fltFailed_onlyRegs (s : State) (who : Who) (r : Nat) :
    OnlyRegs [ifc who Reg.FLT_CMD] (s.modFlt (fun f => { f with op := none, waiting := none })) (fltFailed s who r) := by
  unfold fltFailed
  exact ((OnlyRegs.refl _ _).set (f := ifcField who Reg.FLT_CMD_RESULT) (List.mem_singleton_self _) r).setFlag
    (f := ifcField who Reg.FLT_CMD_BUSY) (List.mem_singleton_self _) false

theorem fltFailed_busy (s : State) (who : Who) (r : Nat) : (fltFailed s who r).flag (ifcField who Reg.FLT_CMD_BUSY) = false :=
  State.flag_setFlag _ _ _ rfl (show 31 < 32 by decide)

theorem fltFailed_result (s : State) (who : Who) {r : Nat} (small : r < 256) :
    (fltFailed s who r).get (ifcField who Reg.FLT_CMD_RESULT) = r :=
  (State.get_set_apart _ (ifcField who Reg.FLT_CMD_BUSY) (ifcField who Reg.FLT_CMD_RESULT) (b2n false) (show 31 ≤ 31 by decide)
    (show 31 < 32 by decide) rfl (.inr (show 15 < 31 by decide))).trans
    (State.get_set_lt _ (ifcField who Reg.FLT_CMD_RESULT) (show 8 ≤ 15 by decide) (show 15 < 32 by decide) small)

theorem fltDoneOp_idle {s : State} (h : s.flt.op = none) : fltDoneOp s = s := by simp only [fltDoneOp, h]

/-- The other interface's command is served when one that failed has ended. -/
theorem fltDoneOp_failed {s : State} {who : Who} {r : Nat} (h : s.flt.op = some { result := r, writes := [], who := who }) (bad : r ≠ 0) :
    fltDoneOp s = s.flt.waiting.elim (fltFailed s who r) (fun c => fltStart c.1 c.2 (fltFailed s who r)) := by
  simp only [fltDoneOp, h, List.foldl_nil, if_neg bad]
  cases s.flt.waiting <;> rfl

end Sys2Proof.Machine

namespace Sys2Proof.Proofs
open Sys2Proof.Machine

/-- Settles O27: the six commands are one gated write of FLT_CMD, and the end by the operation that is served. -/
theorem flowCommandsStart : Obligations.FlowCommandsStart := by
  intro s who byIndex wide p h unlocked
  have starts {c : Instr} {op p : Nat} {byIndex wide : Bool} := @fltCommand_starts s who h unlocked c op p byIndex wide
  refine ⟨starts rfl (by decide) (by decide) p.isLt, starts rfl (by decide) (by decide) p.isLt,
    starts rfl (by decide) (by decide) (by decide), starts rfl (by decide) (by decide) p.isLt,
    starts rfl (by decide) (by decide) p.isLt, starts rfl (by decide) (by decide) (by decide),
    fun on => ⟨fun r served bad => ?_, fun idle => ?_⟩⟩
  · have failed : (r : Nat) ≠ 0 := fun zero => bad (Fin.ext zero)
    refine ⟨fltFailed s who r, exec_of_live h.1.1 rfl ((whenOn_on _ on).trans ((fltDoneOp_failed served failed).trans ?_)),
      fltFailed_result s who (Nat.lt_trans r.isLt (by decide)), fltFailed_busy s who r, fltFailed_onlyRegs s who r⟩
    cases s.flt.waiting <;> rfl
  · exact exec_of_live h.1.1 rfl ((whenOn_on _ on).trans (fltDoneOp_idle idle))

end Sys2Proof.Proofs
end

section
/-! SUPPORT. The entries of the flow table: what storing one leaves, the entry that a command addresses, and each operation's answer
(06 R213 to R216, R220, R231 to R237). -/

namespace Sys2Proof.Machine

/-! ### An entry stored, and logged for firmware (R231, R236) -/

/-- Storing an entry changes the flow table alone: the entries, beside which the groups and the stash's copies may differ (R222, R239). -/
theorem putEntry_eq (s : State) (i : Nat) (e : Entry) : ∃ groups copies, s.putEntry i e =
    s.modFlt (fun t => { t with entries := mstore noEntry i e t.entries, groups := groups, copies := copies }) := by
  unfold State.putEntry
  dsimp only
  split
  · split <;> exact ⟨_, _, rfl⟩
  · exact ⟨_, _, rfl⟩

theorem putEntry_entries (s : State) (i : Nat) (e : Entry) : (s.putEntry i e).flt.entries = mstore noEntry i e s.flt.entries := by
  obtain ⟨_, _, stored⟩ := putEntry_eq s i e
  rw [stored, State.modFlt_flt]

theorem putEntry_fwLog (s : State) (i : Nat) (e : Entry) : (s.putEntry i e).flt.fwLog = s.flt.fwLog := by
  obtain ⟨_, _, stored⟩ := putEntry_eq s i e
  rw [stored, State.modFlt_flt]

theorem putEntry_table (s : State) (i : Nat) (e : Entry) : s.putEntry i e = { s with flt := (s.putEntry i e).flt } := by
  obtain ⟨_, _, stored⟩ := putEntry_eq s i e
  rw [stored]
  rfl

theorem entry_putEntry (s : State) (i : Nat) (e : Entry) (j : Nat) : (s.putEntry i e).entry j = if j = i then e else s.entry j := by
  rw [State.entry, putEntry_entries]
  split
  · next h => rw [h, mlook_mstore_same]
  · next h => exact mlook_mstore_ne _ _ _ _ h

/-- An entry stored for a path, its index logged where that is firmware's (R236). -/
def storeLogged (who : Who) (i : Nat) (e : Entry) (s : State) : State := pushFwLog who (s.putEntry i e) i

/-- The log of firmware's commands after entries at these indices. -/
def fwLogged (who : Who) (s : State) (js : List Nat) : List Nat := if who.path = .firmware then s.flt.fwLog ++ js else s.flt.fwLog

/-- Two states that differ in the flow table alone, and in no entry but those at these indices, which stand in firmware's log (R231,
R236). -/
def ChangesEntries (who : Who) (js : List Nat) (s t : State) : Prop :=
  (∀ j, j ∉ js → t.entry j = s.entry j) ∧ t.flt.fwLog = fwLogged who s js ∧ t = { s with flt := t.flt }

/-- The log takes an index while it has room. -/
theorem pushFwLog_room (who : Who) {s : State} (room : s.flt.fwLog.length < 256) (i : Nat) :
    pushFwLog who s i = s.modFlt (fun t => { t with fwLog := fwLogged who s [i] }) := by
  unfold pushFwLog fwLogged
  by_cases fw : who.path = .firmware
  · rw [if_neg (not_not_intro fw), if_pos room, if_pos fw]
    rfl
  · rw [if_pos fw, if_neg fw]
    rfl

section Stored
variable {who : Who} {s : State} (room : s.flt.fwLog.length < 256) (i : Nat) (e : Entry)
include room

theorem storeLogged_eq : storeLogged who i e s = (s.putEntry i e).modFlt (fun t => { t with fwLog := fwLogged who s [i] }) := by
  have logged : fwLogged who (s.putEntry i e) [i] = fwLogged who s [i] := by rw [fwLogged, fwLogged, putEntry_fwLog]
  rw [storeLogged, pushFwLog_room who (by rwa [putEntry_fwLog]), logged]

theorem entry_storeLogged (j : Nat) : (storeLogged who i e s).entry j = if j = i then e else s.entry j := by
  rw [storeLogged_eq room]
  exact entry_putEntry s i e j

theorem entry_storeLogged_same : (storeLogged who i e s).entry i = e := by rw [entry_storeLogged room, if_pos rfl]

theorem entry_storeLogged_ne {j : Nat} (h : j ≠ i) : (storeLogged who i e s).entry j = s.entry j := by
  rw [entry_storeLogged room, if_neg h]

theorem storeLogged_changes : ChangesEntries who [i] s (storeLogged who i e s) := by
  refine ⟨fun j hj => entry_storeLogged_ne room i e (by simpa using hj), ?_, ?_⟩ <;> rw [storeLogged_eq room]
  · rfl
  · exact congrArg (fun u : State => u.modFlt fun t => { t with fwLog := fwLogged who s [i] }) (putEntry_table s i e)

end Stored

theorem ChangesEntries.trans {who : Who} {is js : List Nat} {s t u : State} (h : ChangesEntries who is s t)
    (k : ChangesEntries who js t u) : ChangesEntries who (is ++ js) s u := by
  obtain ⟨hEntry, hLog, hTable⟩ := h
  obtain ⟨kEntry, kLog, kTable⟩ := k
  refine ⟨fun j hj => ?_, ?_, ?_⟩
  · rw [List.mem_append, not_or] at hj
    rw [kEntry j hj.2, hEntry j hj.1]
  · rw [kLog, fwLogged, hLog, fwLogged, fwLogged]
    split
    · exact List.append_assoc _ _ _
    · rfl
  · exact kTable.trans (congrArg (fun v : State => { v with flt := u.flt }) hTable)

theorem pairOf_ne (i : Nat) : pairOf i ≠ i := by
  unfold pairOf
  split <;> omega

/-- Both halves of a pair stored. -/
theorem storeLogged_pair {who : Who} {s : State} (room : s.flt.fwLog.length < 255) (i : Nat) (e e' : Entry) :
    let t := storeLogged who (pairOf i) e' (storeLogged who i e s)
    t.entry i = e ∧ t.entry (pairOf i) = e' ∧ ChangesEntries who [i, pairOf i] s t := by
  have first := storeLogged_changes (who := who) (Nat.lt_succ_of_lt room) i e
  have left : (storeLogged who i e s).flt.fwLog.length < 256 := by
    rw [first.2.1, fwLogged]
    split
    · rw [List.length_append, List.length_singleton]
      omega
    · omega
  refine ⟨?_, entry_storeLogged_same left _ _, first.trans (storeLogged_changes left _ _)⟩
  rw [entry_storeLogged_ne left _ _ (pairOf_ne i).symm, entry_storeLogged_same (Nat.lt_succ_of_lt room)]

/-! ### The places of an entry and of a pair (R213, R214, R216) -/

/-- The places that an entry takes at an index, or a pair. -/
def entryPlaces (wide : Bool) (i : Nat) : List Nat := if wide then [i, pairOf i] else [i]

/-- The entry of a key, or the first half of its pair (R213 to R215). -/
def keyEntry (profile : Nat) (wide : Bool) (k : List Byte) (res : Word) : Entry :=
  { valid := true, profile := BitVec.ofNat 4 profile, wide := if wide then 1 else 0, hit := false, key := bytesBlock k,
    result := res, ue := false }

/-- The second half of a key's pair. -/
def keySecond (profile : Nat) (k : List Byte) (res : Word) : Entry :=
  { keyEntry profile true k res with wide := 2, key := bytesBlock (k.drop 16), result := 0 }

section Written
variable {who : Who} {s : State} (room : s.flt.fwLog.length < 255)
include room

/-- A key's entry or pair written at an index (R231). -/
theorem writeEntry_writes (profile : Nat) (wide : Bool) (k : List Byte) (res : Word) (i : Nat) :
    let t := writeEntry who profile wide k res i s
    t.entry i = keyEntry profile wide k res ∧ (wide = true → t.entry (pairOf i) = keySecond profile k res) ∧
    ChangesEntries who (entryPlaces wide i) s t := by
  cases wide with
  | false =>
    have roomy := Nat.lt_succ_of_lt room
    exact ⟨entry_storeLogged_same roomy i _, nofun, storeLogged_changes roomy i _⟩
  | true =>
    obtain ⟨first, second, changes⟩ := storeLogged_pair (who := who) room i (keyEntry profile true k res) (keySecond profile k res)
    exact ⟨first, fun _ => second, changes⟩

/-- An entry or pair cleared (R231). -/
theorem clearEntry_clears {wide : Bool} {i : Nat} (w : (s.entry i).wide = if wide then 1 else 0) :
    let t := clearEntry who i s
    (∀ j ∈ entryPlaces wide i, t.entry j = noEntry) ∧ ChangesEntries who (entryPlaces wide i) s t := by
  cases wide with
  | false =>
    have roomy := Nat.lt_succ_of_lt room
    have single : clearEntry who i s = storeLogged who i noEntry s := by simp [clearEntry, storeLogged, w]
    rw [single]
    exact ⟨fun j hj => by rw [List.mem_singleton.1 hj]; exact entry_storeLogged_same roomy i _, storeLogged_changes roomy i _⟩
  | true =>
    have pair : clearEntry who i s = storeLogged who (pairOf i) noEntry (storeLogged who i noEntry s) := by
      simp [clearEntry, storeLogged, w]
    obtain ⟨first, second, changes⟩ := storeLogged_pair (who := who) room i noEntry noEntry
    rw [pair]
    refine ⟨fun j hj => ?_, changes⟩
    rcases List.mem_cons.1 hj with rfl | hj
    · exact first
    · rw [List.mem_singleton.1 hj]
      exact second

end Written

/-! ### The entry that a command addresses (R233, R234) -/

section Addressed
variable {who : Who} {s : State} {profile i : Nat} {wide : Bool}

theorem atIndex_beyond (h : tableEnd ≤ i) : atIndex s i = .error 6 := if_pos h

theorem atIndex_free (h : i < tableEnd) (free : (s.entry i).valid = false) : atIndex s i = .error 1 := by
  rw [atIndex, if_neg (Nat.not_le.2 h), if_pos free]

theorem atIndex_second (h : i < tableEnd) (valid : (s.entry i).valid = true) (second : (s.entry i).wide = 2) : atIndex s i = .error 5 := by
  rw [atIndex, if_neg (Nat.not_le.2 h), if_neg (by simp [valid]), if_pos second]

theorem atIndex_held (h : i < tableEnd) (valid : (s.entry i).valid = true) (first : (s.entry i).wide = if wide then 1 else 0) :
    atIndex s i = .ok i := by
  rw [atIndex, if_neg (Nat.not_le.2 h), if_neg (by simp [valid]), if_neg (by rw [first]; cases wide <;> decide)]

theorem addressed_misfit (h : s.flag (Reg.PRS_PROF_CFG_WIDE profile) ≠ wide) : addressed who s false profile wide = .error 1 := by
  rw [addressed, if_neg Bool.false_ne_true, if_pos h]

section Key
variable (fits : s.flag (Reg.PRS_PROF_CFG_WIDE profile) = wide)
include fits

theorem addressed_unheld (unheld : findKey s profile wide (stagedKey who s wide) = none) :
    addressed who s false profile wide = .error 1 := by
  simp only [addressed, Bool.false_eq_true, if_false, fits, ne_eq, not_true_eq_false, unheld]

theorem addressed_held (held : findKey s profile wide (stagedKey who s wide) = some i) :
    addressed who s false profile wide = .ok i := by
  simp only [addressed, Bool.false_eq_true, if_false, fits, ne_eq, not_true_eq_false, held]

end Key

end Addressed

/-! ### DELETE, READ, MODIFY and SEARCH (R231, R234) -/

section Commands
variable {who : Who} {s : State} {byIndex wide : Bool} {profile i r : Nat}

theorem fltDelete_refuses (h : addressed who s byIndex profile wide = .error r) : fltDelete who byIndex profile wide s = ((r, []), s) := by
  simp only [fltDelete, h]

theorem fltDelete_clears (h : addressed who s byIndex profile wide = .ok i) (good : s.entryBad i = false) :
    fltDelete who byIndex profile wide s = ((0, []), clearEntry who i s) := by
  simp [fltDelete, h, good]

theorem fltRead_refuses (h : atIndex s (s.stagedIndex who) = .error r) : fltRead who s = ((r, []), s) := by
  simp only [fltRead, h]

theorem fltRead_shows (h : atIndex s (s.stagedIndex who) = .ok i) (good : s.entryBad i = false) :
    fltRead who s = ((0, readWords s i true), s) := by
  simp [fltRead, h, good]

theorem fltSearch_refuses (h : addressed who s false profile wide = .error r) : fltSearch who profile wide s = ((r, []), s) := by
  simp only [fltSearch, h]

theorem fltSearch_shows (h : addressed who s false profile wide = .ok i) (good : s.entryBad i = false) :
    fltSearch who profile wide s = ((0, readWords s i false), s) := by
  simp [fltSearch, h, good]

theorem fltModify_badResult (h : resultOk (s.rd (ifc who Reg.FLT_STAGE_RES)) = false) :
    fltModify who byIndex profile wide s = ((5, []), s) := if_pos h

theorem fltModify_replaces (ok : resultOk (s.rd (ifc who Reg.FLT_STAGE_RES)) = true)
    (within : resultBeyond s (s.rd (ifc who Reg.FLT_STAGE_RES)) = false) (h : addressed who s byIndex profile wide = .ok i)
    (good : s.entryBad i = false) : fltModify who byIndex profile wide s =
      ((0, []), storeLogged who i { s.entry i with result := s.rd (ifc who Reg.FLT_STAGE_RES) } s) := by
  simp [fltModify, storeLogged, ok, within, h, good]

end Commands

/-! ### INSERT (R220, R231, R234, R235) -/

/-- The first free candidate place of a key's entry or pair, in the order of the search (R216, R220). -/
def freePlace (s : State) (profile : Nat) (wide : Bool) (k : List Byte) : Option Nat :=
  if wide then (pairPlaces s profile k).find? (fun j => decide ((s.entry j).valid = false) && decide ((s.entry (pairOf j)).valid = false))
  else (candidates s profile k).find? (fun j => (s.entry j).valid = false)

section Insert
variable {who : Who} {s : State} {wide : Bool} {profile i : Nat}

theorem fltInsert_badEntry
    (h : resultOk (s.rd (ifc who Reg.FLT_STAGE_RES)) = false ∨ s.flag (Reg.PRS_PROF_CFG_WIDE profile) ≠ wide) :
    fltInsert who profile wide s = ((5, [(Reg.FLT_CMD, 0)]), s) := if_pos h

/-- A free candidate place is taken with no moves (R220). -/
theorem place_free {k : List Byte} (h : freePlace s profile wide k = some i) :
    (if wide then placeWide s profile k else placeSingle s profile k) = some (i, []) := by
  cases wide with
  | false =>
    have single : (candidates s profile k).find? (fun j => (s.entry j).valid = false) = some i := h
    simp only [Bool.false_eq_true, if_false, placeSingle, single]
  | true =>
    have pair : (pairPlaces s profile k).find?
        (fun j => decide ((s.entry j).valid = false) && decide ((s.entry (pairOf j)).valid = false)) = some i := h
    simp only [if_true, placeWide, pair]

variable (ok : resultOk (s.rd (ifc who Reg.FLT_STAGE_RES)) = true) (fits : s.flag (Reg.PRS_PROF_CFG_WIDE profile) = wide)
  (within : resultBeyond s (s.rd (ifc who Reg.FLT_STAGE_RES)) = false)
include ok fits within

/-- A result and a width that are right leave the key, the quota and the place to decide (R234, R235). -/
theorem fltInsert_exists (held : (findKey s profile wide (stagedKey who s wide)).isSome = true) :
    fltInsert who profile wide s = ((2, [(Reg.FLT_CMD, 0)]), s) := by
  simp [fltInsert, ok, fits, within, held]

theorem fltInsert_quota (new : findKey s profile wide (stagedKey who s wide) = none)
    (full : s.get (Reg.FLT_PART_QUOTA profile) < s.profileUsed profile + (entryPlaces wide i).length) :
    fltInsert who profile wide s = ((4, [(Reg.FLT_CMD, 0)]), s) := by
  have beyond : s.get (Reg.FLT_PART_QUOTA profile) < s.profileUsed profile + (if wide then 2 else 1) := by
    cases wide <;> exact full
  simp [fltInsert, ok, fits, within, new, beyond]

theorem fltInsert_places (new : findKey s profile wide (stagedKey who s wide) = none)
    (room : s.profileUsed profile + (entryPlaces wide i).length ≤ s.get (Reg.FLT_PART_QUOTA profile))
    (place : freePlace s profile wide (stagedKey who s wide) = some i) : fltInsert who profile wide s =
      ((0, [(Reg.FLT_CMD, 0), (Reg.FLT_STAGE_INDEX, w32 i)]),
        writeEntry who profile wide (stagedKey who s wide) (s.rd (ifc who Reg.FLT_STAGE_RES)) i s) := by
  have quota : ¬ s.get (Reg.FLT_PART_QUOTA profile) < s.profileUsed profile + (if wide then 2 else 1) := by
    rw [Nat.not_lt]
    cases wide <;> exact room
  unfold fltInsert
  simp only [ok, fits, within, new, quota, place_free place, Option.isSome_none, Bool.false_eq_true, Bool.true_eq_false,
    ne_eq, not_true_eq_false, or_self, if_false]
  rfl

end Insert

/-! ### HARVEST_HITS (R237) -/

/-- The first index of the 64 that a group number names. -/
def harvestBase (g : Nat) : Nat := if g < 32768 then 64 * g else stashBase + 64 * (g - 32768)

/-- Entries in a row with their HIT bits cleared. -/
def clearHits (s : State) (base n : Nat) : State :=
  (List.range n).foldl (fun s i => s.putEntry (base + i) { s.entry (base + i) with hit := false }) s

theorem entry_clearHits (s : State) (base n j : Nat) :
    (clearHits s base n).entry j = if base ≤ j ∧ j < base + n then { s.entry j with hit := false } else s.entry j := by
  induction n with
  | zero => exact (if_neg (by omega)).symm
  | succ n ih =>
    have last : clearHits s base (n + 1) =
        (clearHits s base n).putEntry (base + n) { (clearHits s base n).entry (base + n) with hit := false } := by
      rw [clearHits, List.range_succ, List.foldl_append]
      rfl
    rw [last, entry_putEntry]
    by_cases here : j = base + n
    · subst here
      rw [if_pos rfl, ih.trans (if_neg (by omega)), if_pos (by omega)]
    · rw [if_neg here, ih]
      exact if_congr (by omega) rfl rfl

/-- 32 HIT bits from an index on, as a word. -/
def hitWord (s : State) (base : Nat) : Word :=
  w32 ((List.range 32).foldl (fun a b => a + b2n (s.entry (base + b)).hit * 2 ^ b) 0)

section Harvest
variable {who : Who} {s : State}

theorem fltHarvest_beyond (h : 32776 ≤ s.stagedIndex who % 65536) : fltHarvest who s = ((6, []), s) := if_pos h

theorem fltHarvest_harvests (h : s.stagedIndex who % 65536 < 32776) :
    let base := harvestBase (s.stagedIndex who % 65536)
    fltHarvest who s = ((0, [(Reg.FLT_HITS 0, hitWord s (base + 0)), (Reg.FLT_HITS 1, hitWord s (base + 32))]), clearHits s base 64) :=
  if_neg (Nat.not_le.2 h)

end Harvest

end Sys2Proof.Machine

namespace Sys2Proof.Proofs
open Sys2Proof.Machine

/-- Settles O28: each operation by the entry that its key or index addresses, INSERT by its refusals in their order. -/
theorem flowCommandsAct : Obligations.FlowCommandsAct := by
  intro s who p wide bi i room
  dsimp only
  have answered {x : FltAnswer × State} {code : Nat} {words : List (Nat × Word)} (h : x = ((code, words), s)) :
      x.1.1 = code ∧ x.2 = s := by
    rw [h]
    exact ⟨rfl, rfl⟩
  refine ⟨fun bad => ⟨answered (fltInsert_badEntry (.inl bad)), answered (fltModify_badResult bad)⟩,
    fun misfit => ⟨answered (fltInsert_badEntry (.inr misfit)), answered (fltDelete_refuses (addressed_misfit misfit)),
      answered (fltSearch_refuses (addressed_misfit misfit))⟩,
    fun fits unheld => ⟨answered (fltDelete_refuses (addressed_unheld fits unheld)),
      answered (fltSearch_refuses (addressed_unheld fits unheld))⟩,
    fun ok fits within => ⟨fun held => answered (fltInsert_exists ok fits within held),
      fun new full => answered (fltInsert_quota (i := i) ok fits within new full), fun new quota place => ?_⟩,
    fun good valid first below => ?_,
    fun below free => ⟨answered (fltDelete_refuses (atIndex_free below free)), answered (fltRead_refuses (atIndex_free below free))⟩,
    fun below valid second => ⟨answered (fltDelete_refuses (atIndex_second below valid second)),
      answered (fltRead_refuses (atIndex_second below valid second))⟩,
    fun beyond => ⟨answered (fltDelete_refuses (atIndex_beyond beyond)), answered (fltRead_refuses (atIndex_beyond beyond))⟩,
    fun fits held good => fltSearch_shows (addressed_held fits held) good,
    fun beyond => answered (fltHarvest_beyond beyond), fun within => ?_⟩
  · have inserted : fltOperate who 1 false wide p s = _ := fltInsert_places ok fits within new quota place
    obtain ⟨entry, second, changes⟩ := writeEntry_writes (who := who) room p wide (stagedKey who s wide)
      (s.rd (ifc who Reg.FLT_STAGE_RES)) i
    rw [inserted]
    refine ⟨rfl, entry, fun w => ?_, changes⟩
    subst w
    exact second rfl
  · have held := atIndex_held below valid first
    obtain ⟨cleared, changes⟩ := clearEntry_clears (who := who) room first
    have deleted : fltOperate who 2 true wide p s = _ := fltDelete_clears held good
    refine ⟨?_, fltRead_shows held good, fun ok within => ?_⟩
    · rw [deleted]
      exact ⟨rfl, cleared, changes⟩
    · have modified : fltOperate who 4 true wide p s = _ := fltModify_replaces ok within held good
      have roomy := Nat.lt_succ_of_lt room
      rw [modified]
      exact ⟨rfl, entry_storeLogged_same roomy _ _, storeLogged_changes roomy _ _⟩
  · have harvested : fltOperate who 6 bi wide p s = _ := fltHarvest_harvests within
    rw [harvested]
    exact ⟨rfl, fun j => entry_clearHits s _ 64 j⟩

end Sys2Proof.Proofs
end

section
/-! SUPPORT. Lookups by what the frame's key meets, the default action and the results that drop a frame, and the logs that a read pops
(06 R203, R218, R222 to R225, R236, R240; 07 R254, R260; 13 R497; 15 R545, R560). -/

namespace Sys2Proof.Machine

/-! ### A lookup (R205, R218, R222, R223, R240) -/

/-- The frame at the head of a port's lookup queue. -/
def lookupHead (s : State) (n : Nat) : Option Frame :=
  s.sch.frames.find? (fun f => decide (f.stage = .lookup) && decide (f.n = n))

/-- A frame with the parser's PTP marks, which a capsule never has. -/
def ptpMarked (s : State) (f : Frame) : Frame :=
  { f with ptpEvent := !s.isCapsule f && (parse (parseBytes f.bytes)).ptpEvent,
           ptpGeneral := !s.isCapsule f && (parse (parseBytes f.bytes)).ptpGeneral }

/-- The device that keeps a frame's marks and traces its lookup. -/
def lookupBegun (s : State) (f : Frame) : State :=
  (s.modFrame f.id (fun x => { x with ptpEvent := (ptpMarked s f).ptpEvent, ptpGeneral := (ptpMarked s f).ptpGeneral })).mark f.id 2

/-- The lookup of a frame with a key counted at its port. -/
def lookupCounted (s : State) (f : Frame) (n : Nat) : State := (lookupBegun s f).inc (Reg.FLT_LOOKUPS n)

/-- The index that the frame's key matches. -/
def lookupFound (s : State) (f : Frame) (n : Nat) (k : List Byte) : Option Nat :=
  let q := (profileOf (lookupBegun s f) (ptpMarked s f)).1
  findKey (lookupCounted s f n) q ((lookupCounted s f n).flag (Reg.PRS_PROF_CFG_WIDE q)) k

/-- A match noted: HIT of the entry, the frame's entry, and the port's count. -/
def lookupHit (s : State) (f : Frame) (n i : Nat) : State :=
  let u := lookupCounted s f n
  ((u.modFlt (fun y => { y with entries := mput i { u.entry i with hit := true } y.entries })).modFrame f.id
    (fun x => { x with entry := some i })).inc (Reg.FLT_HITS_COUNT n)

theorem lookupOp_none {s : State} {n : Nat} (h : lookupHead s n = none) : lookupOp n s = s := by
  rw [lookupHead] at h
  simp only [lookupOp, h]

section Lookup
variable {s : State} {n i : Nat} {f : Frame} {k : List Byte} (head : lookupHead s n = some f)
include head

theorem lookupOp_unkeyed (unkeyed : frameKey (lookupBegun s f) (ptpMarked s f) = none) :
    lookupOp n s = defaultAction (lookupBegun s f) (ptpMarked s f) 2 (Reg.FLT_PARSE_FAIL n) := by
  rw [lookupHead] at head
  simp only [lookupBegun, ptpMarked] at unkeyed
  simp only [lookupOp, head, unkeyed]
  rfl

variable (keyed : frameKey (lookupBegun s f) (ptpMarked s f) = some k)
include keyed

theorem lookupOp_missed (missed : lookupFound s f n k = none) :
    lookupOp n s = defaultAction (lookupCounted s f n) (ptpMarked s f) 1 (Reg.FLT_MISSES n) := by
  rw [lookupHead] at head
  simp only [lookupFound, lookupCounted, lookupBegun, ptpMarked] at keyed missed
  simp only [lookupOp, head, keyed, missed]
  rfl

variable (found : lookupFound s f n k = some i)
include found

theorem lookupOp_bad (bad : (lookupCounted s f n).entryBad i = true) :
    lookupOp n s = entryUe (dropFrame (lookupCounted s f n) f.id (Reg.FLT_ENTRY_UE n)) i := by
  rw [lookupHead] at head
  simp only [lookupFound, lookupCounted, lookupBegun, ptpMarked] at keyed found bad
  simp only [lookupOp, head, keyed, found, bad, if_true]
  rfl

theorem lookupOp_hit (good : (lookupCounted s f n).entryBad i = false) :
    lookupOp n s = if ((lookupHit s f n i).ccGroup (i / 64)).quarantined
      then puntFrame ((lookupHit s f n i).inc (Reg.FLT_QUARANTINE_PUNT n)) f.id 3 (some i) f.bytes false
      else entryAction (lookupHit s f n i) (ptpMarked s f) i ((lookupCounted s f n).entry i).result := by
  rw [lookupHead] at head
  simp only [lookupFound, lookupCounted, lookupBegun, ptpMarked] at keyed found good
  simp only [lookupOp, head, keyed, found, good, Bool.false_eq_true, if_false]
  rfl

end Lookup

/-! ### The default action, and results that drop a frame (R215, R223 to R225) -/

theorem defaultAction_drops {s : State} {f : Frame} {ctr : Nat} (drops : (s.inc ctr).get (Reg.FLT_PORT_CFG_DEFAULT f.n) = 0)
    (reason : Nat) :
    defaultAction s f reason ctr = dropFrame (s.inc ctr) f.id (Reg.FLT_DEFAULT_DROP f.n) := if_pos drops

/-- The frame with the action that its entry names. -/
def actionNamed (s : State) (f : Frame) (res : Word) : State :=
  s.modFrame f.id (fun x => { x with action := BitVec.ofNat 2 (bits res 31 30) })

section Action
variable {s : State} {f : Frame} {i : Nat} {res : Word}

theorem entryAction_invalid (h : (bits res 31 30 = 1 ∧ (profileOf (actionNamed s f res) f).2 = true) ∨
      (bits res 31 30 = 2 ∧ (actionNamed s f res).isKorone (f.n % 32) = true)) :
    entryAction s f i res = dropFrame (actionNamed s f res) f.id (Reg.FLT_ACTION_INVALID f.n) := if_pos h

theorem entryAction_drops (h : bits res 31 30 = 0) :
    entryAction s f i res = dropFrame (actionNamed s f res) f.id (Reg.FLT_DROP_ACTION f.n) := by
  unfold entryAction actionNamed
  dsimp only
  rw [if_neg (by simp [h]), if_neg (by simp [h]), if_pos h]

end Action

/-! ### Logs that a read pops (R236, R240, R254, R260, R497, R545) -/

theorem popLog_cons {s : State} {r : LogRec} {rs : List LogRec} (h : s.evt.log = r :: rs) :
    popLog s = { s with evt := { s.evt with log := rs, ovfRaised := false } } := by
  simp [popLog, h, State.modEvt]

section Pops
variable {s : State} (awake : Awake s) (who : Who)
include awake

theorem evtLogPop_oldest {r : LogRec} {rs : List LogRec} (h : s.evt.log = r :: rs) : readOp who (Reg.EVT_LOG 3) s =
    State.emit { s with evt := { s.evt with log := rs, ovfRaised := false } } (.readData who.path r.stamp) := by
  rw [readOp_special awake (f := fun s => (s.logWordAt 3, popLog s)) rfl]
  dsimp only
  rw [popLog_cons h, State.logWordAt, h]
  rfl

theorem evtLogPop_empty (h : s.evt.log = []) : readOp who (Reg.EVT_LOG 3) s = s.emit (.readData who.path 0) := by
  rw [readOp_special awake (f := fun s => (s.logWordAt 3, popLog s)) rfl]
  dsimp only
  rw [popLog, if_pos h, State.logWordAt, h]

end Pops

end Sys2Proof.Machine

namespace Sys2Proof.Proofs
open Sys2Proof.Machine

/-- Settles O30: a lookup by its head, its key and the entry found, and each log by the read that its register has of its own. -/
theorem lookupsAndLogs : Obligations.LookupsAndLogs := by
  constructor
  · intro s n f k i res run on
    dsimp only
    have looks {t : State} (h : lookupOp n s = t) : exec (.fltLookup n) s = .next t := exec_of_live run rfl ((whenOn_on _ on).trans h)
    exact ⟨fun none => looks (lookupOp_none none), fun head unkeyed => looks (lookupOp_unkeyed head unkeyed),
      fun head keyed => ⟨fun missed => looks (lookupOp_missed head keyed missed),
        fun found bad => looks (lookupOp_bad head keyed found bad),
        fun found good => looks (lookupOp_hit head keyed found good)⟩,
      fun drops => defaultAction_drops drops 1, entryAction_drops, fun protect clear => entryAction_invalid (.inl ⟨protect, clear⟩),
      fun bypass korone => entryAction_invalid (.inr ⟨bypass, korone⟩)⟩
  · intro s who awake
    have pops {off : Nat} {f : State → Word × State} (special : specialRead who off = some f) :
        readOp who off s = (f s).2.emit (.readData who.path (f s).1) := readOp_special awake special
    exact ⟨congrArg Host.Outcome.next (pops (f := ccMismatchRead) rfl), congrArg Host.Outcome.next (pops (f := fwLogRead) rfl),
      congrArg Host.Outcome.next (pops (f := rekeyLogRead) rfl), congrArg Host.Outcome.next (pops (f := faultLogRead) rfl),
      congrArg Host.Outcome.next (pops (f := divergeRead) rfl),
      fun r rs log => congrArg Host.Outcome.next (evtLogPop_oldest awake who log),
      fun log => congrArg Host.Outcome.next (evtLogPop_empty awake who log)⟩

end Sys2Proof.Proofs
end

section
/-! SUPPORT. Records and marks written into guarded memory: what such a write leaves of every unit, with room in MGD_MINOR_OVF and without,
and what a change of a record is (07 R246, R250, R255; 11 R401, R418). -/

namespace Sys2Proof.Machine

/-! ### What a guarded write leaves, whatever its count raises -/

/-- A state t with every part of s that no guarded write changes: beside what an event may change, memory and the free values drawn are
t's. -/
def memWorkOf (s t : State) : State := { workOf s t with draws := t.draws, mgd := t.mgd }

/-- Two states differ in nothing but what a guarded write, with the event of its count, may change. -/
def MemWork (s t : State) : Prop := t = memWorkOf s t

theorem MemWork.refl (s : State) : MemWork s s := rfl

theorem MemWork.trans {s t u : State} (h : MemWork s t) (k : MemWork t u) : MemWork s u := by
  have last : u = memWorkOf t u := k
  have first : memWorkOf t u = memWorkOf (memWorkOf s t) u := congrArg (fun x => memWorkOf x u) h
  exact last.trans first

theorem SameWork.memWork {s t : State} (h : SameWork s t) : MemWork s t := by
  have work : memWorkOf t t = memWorkOf (workOf s t) t := congrArg (fun x => memWorkOf x t) h
  exact work

theorem MemWork.ite {s t u : State} {p : Prop} [Decidable p] (h : MemWork s t) (k : MemWork s u) : MemWork s (if p then t else u) := by
  split
  exacts [h, k]

theorem MemWork.foldl {α : Type} {f : State → α → State} (hf : ∀ s x, MemWork s (f s x)) (l : List α) (s : State) :
    MemWork s (l.foldl f s) := by
  induction l generalizing s with
  | nil => exact .refl s
  | cons x l ih => exact (hf s x).trans (ih _)

theorem MemWork.sch_eq {s t : State} (h : MemWork s t) : t.sch = s.sch := (congrArg State.sch h).trans rfl
/-- Of the association engine the resident slots' keys alone may differ. -/
theorem MemWork.asc_eq {s t : State} (h : MemWork s t) : t.asc = { s.asc with slots := t.asc.slots } := (congrArg State.asc h).trans rfl

theorem MemWork.asRec_eq {s t : State} (h : MemWork s t) (a : Nat) : t.asRec a = s.asRec a := by rw [State.asRec, h.asc_eq]; rfl

theorem MemWork.inFlight_eq {s t : State} (h : MemWork s t) (a : Nat) : t.inFlight a = s.inFlight a := by
  rw [State.inFlight, h.sch_eq]; rfl

theorem MemWork.modMgd {s t : State} (h : MemWork s t) (f : Mgd → Mgd) : MemWork s (t.modMgd f) := h.trans (u := t.modMgd f) rfl

theorem MemWork.draw {s t : State} (h : MemWork s t) : MemWork s t.draw.2 := h.trans (u := t.draw.2) rfl

theorem MemWork.emit {s t : State} (h : MemWork s t) (o : Output) : MemWork s (t.emit o) := h.trans (u := t.emit o) rfl

theorem MemWork.inc {s t : State} (h : MemWork s t) (off : Nat) : MemWork s (t.inc off) := h.trans (inc_work t off).memWork

theorem initPath_memWork (s : State) (p : Nat) : MemWork s (initPath s p) := (MemWork.refl s).modMgd _

theorem countWrite_memWork (s : State) (line : Nat) : MemWork s (countWrite s line).2 := by
  unfold countWrite
  dsimp only
  split
  · exact ((MemWork.refl s).draw.modMgd _).trans (initPath_memWork _ _)
  · exact .ite (((MemWork.refl s).modMgd _).inc _) ((MemWork.refl s).modMgd _)

theorem writeLine_memWork (s : State) (line : Nat) (data : List Byte) : MemWork s (writeLine s line data) := by
  have counted : MemWork s ((countWrite s line).2.modMgd (fun m => { m with
      lines := mstore zeroLine line (padTo 64 (data.take 64)) m.lines, dirty := ladd (line / 64) m.dirty, badLines := ldel line m.badLines })) :=
    (countWrite_memWork s line).modMgd _
  have page (t : State) (p : Nat) : MemWork t (storePage t p) := by
    obtain ⟨out, h⟩ := storePage_out t p
    rw [h]
    exact rfl
  rw [writeLine_eq]
  exact .ite (counted.trans (page _ _)) ((counted.emit _).emit _)

theorem writeLines_memWork (s : State) (line n : Nat) (bytes : List Byte) : MemWork s (writeLines s line n bytes) :=
  .foldl (fun s i => writeLine_memWork s (line + i) (sub bytes (64 * i) 64)) _ s

theorem writeRec_memWork (s : State) (a : Nat) (r : Rec) : MemWork s (writeRec s a r) := by
  unfold writeRec
  split
  exacts [writeLines_memWork _ _ _ _, .refl s]

theorem putRec_memWork (s : State) (a : Nat) (r : Rec) : MemWork (s.setRec a r) (s.putRec a r) := writeRec_memWork _ _ _

/-! ### What a guarded write leaves while MGD_MINOR_OVF has room -/

/-- A state t with every part of s but the free values drawn, the outputs, the counters, and the memory's data, counters and tree. -/
def guardOf (s t : State) : State :=
  { s with
    draws := t.draws, out := t.out, cnt := t.cnt
    mgd := { s.mgd with lines := t.mgd.lines, ctrs := t.mgd.ctrs, tree := t.mgd.tree, dirty := t.mgd.dirty, badLines := t.mgd.badLines } }

/-- At most n guarded writes with room: only what `guardOf` names differs, of the counters MGD_MINOR_OVF alone, which has risen by at
most n. -/
structure GuardWrites (n : Nat) (s t : State) : Prop where
  beside : t = guardOf s t
  ctrs : ∀ c, c ≠ Reg.MGD_MINOR_OVF → t.ctr c = s.ctr c
  ovf : t.ctr Reg.MGD_MINOR_OVF ≤ s.ctr Reg.MGD_MINOR_OVF + n

namespace GuardWrites

/-- What counts nothing. -/
theorem uncounted {s t : State} (h : t = guardOf s t) (k : t.cnt = s.cnt) : GuardWrites 0 s t := by
  have same (c : Nat) : t.ctr c = s.ctr c := by rw [State.ctr, k, State.ctr]
  exact ⟨h, fun c _ => same c, Nat.le_of_eq (same _)⟩

theorem refl (s : State) : GuardWrites 0 s s := uncounted rfl rfl

theorem trans {n m : Nat} {s t u : State} (h : GuardWrites n s t) (k : GuardWrites m t u) : GuardWrites (n + m) s u where
  beside := by
    have first : guardOf t u = guardOf (guardOf s t) u := congrArg (fun x => guardOf x u) h.beside
    exact k.beside.trans first
  ctrs c ne := (k.ctrs c ne).trans (h.ctrs c ne)
  ovf := by have first := h.ovf; have last := k.ovf; omega

theorem mono {n m : Nat} {s t : State} (h : GuardWrites n s t) (le : n ≤ m) : GuardWrites m s t :=
  ⟨h.beside, h.ctrs, Nat.le_trans h.ovf (Nat.add_le_add_left le _)⟩

theorem regs_eq {n : Nat} {s t : State} (h : GuardWrites n s t) : t.regs = s.regs := (congrArg State.regs h.beside).trans rfl

theorem ite {n : Nat} {s t u : State} {p : Prop} [Decidable p] (h : GuardWrites n s t) (k : GuardWrites n s u) :
    GuardWrites n s (if p then t else u) := by
  split
  exacts [h, k]

end GuardWrites

theorem emit_guardWrites (s : State) (o : Output) : GuardWrites 0 s (s.emit o) := .uncounted rfl rfl

theorem modMgd_guardWrites (s : State) {f : Mgd → Mgd} (h : ∀ m, f m =
    { m with lines := (f m).lines, ctrs := (f m).ctrs, tree := (f m).tree, dirty := (f m).dirty, badLines := (f m).badLines }) :
    GuardWrites 0 s (s.modMgd f) :=
  .uncounted (congrArg (fun m => { s with mgd := m }) (h s.mgd)) rfl

theorem minorOvf_guardWrites {s : State} (room : Room s Reg.MGD_MINOR_OVF) : GuardWrites 1 s (s.inc Reg.MGD_MINOR_OVF) := by
  have count : s.inc Reg.MGD_MINOR_OVF = s.bumpRaw Reg.MGD_MINOR_OVF 1 := bump_below room
  have vals := State.inc_eq s Reg.MGD_MINOR_OVF room
  refine ⟨?_, fun c ne => by rw [count, State.ctr_bumpRaw_ne _ _ ne], by rw [count, State.ctr_bumpRaw _ _ _ room]⟩
  generalize Reg.MGD_MINOR_OVF = c at vals ⊢
  rw [vals]
  rfl

theorem countWrite_guardWrites {s : State} (room : Room s Reg.MGD_MINOR_OVF) (line : Nat) : GuardWrites 1 s (countWrite s line).2 := by
  unfold countWrite
  dsimp only
  split
  · have drawn : GuardWrites 0 s s.draw.2 := .uncounted rfl rfl
    have begun (t : State) (p : Nat) : GuardWrites 0 t (initPath t p) := modMgd_guardWrites t (fun _ => rfl)
    exact ((drawn.trans (modMgd_guardWrites _ (fun _ => rfl))).trans (begun _ _)).mono (Nat.zero_le 1)
  · next b _ =>
    have bumped : GuardWrites 0 s (s.modMgd (fun m => { m with ctrs := mput (line / 64) (bumpLine b (line % 64)).1 m.ctrs })) :=
      modMgd_guardWrites s (fun _ => rfl)
    split
    · exact bumped.trans (minorOvf_guardWrites (by rwa [Room, State.modMgd_ctr]))
    · exact bumped.mono (Nat.zero_le 1)

theorem writeLine_guardWrites {s : State} (room : Room s Reg.MGD_MINOR_OVF) (line : Nat) (data : List Byte) :
    GuardWrites 1 s (writeLine s line data) := by
  have held : GuardWrites 1 s ((countWrite s line).2.modMgd (fun m => { m with
      lines := mstore zeroLine line (padTo 64 (data.take 64)) m.lines, dirty := ladd (line / 64) m.dirty, badLines := ldel line m.badLines })) :=
    (countWrite_guardWrites room line).trans (modMgd_guardWrites _ (fun _ => rfl))
  have page (t : State) (p : Nat) : GuardWrites 0 t (storePage t p) := by
    obtain ⟨out, h⟩ := storePage_out t p
    rw [h]
    exact .uncounted rfl rfl
  rw [writeLine_eq]
  exact .ite (held.trans (page _ _)) ((held.trans (emit_guardWrites _ _)).trans (emit_guardWrites _ _))

theorem writeLines_succ (s : State) (line n : Nat) (bytes : List Byte) :
    writeLines s line (n + 1) bytes = writeLine (writeLines s line n bytes) (line + n) (sub bytes (64 * n) 64) := by
  rw [writeLines, List.range_succ, List.foldl_append]
  rfl

theorem writeLines_guardWrites {s : State} (line : Nat) {n : Nat} (bytes : List Byte) (room : s.ctr Reg.MGD_MINOR_OVF + n < 2 ^ 48) :
    GuardWrites n s (writeLines s line n bytes) := by
  induction n with
  | zero => exact .refl s
  | succ n ih =>
    have before := ih (by omega)
    have left : Room (writeLines s line n bytes) Reg.MGD_MINOR_OVF := by have risen := before.ovf; unfold Room; omega
    rw [writeLines_succ]
    exact before.trans (writeLine_guardWrites left _ _)

theorem writeRec_guardWrites {s : State} (room : s.ctr Reg.MGD_MINOR_OVF + 4 < 2 ^ 48) (a : Nat) (r : Rec) :
    GuardWrites 4 s (writeRec s a r) := by
  unfold writeRec
  split
  · exact writeLines_guardWrites _ _ room
  · exact (GuardWrites.refl s).mono (Nat.zero_le 4)

theorem putRec_guardWrites {s : State} (room : s.ctr Reg.MGD_MINOR_OVF + 4 < 2 ^ 48) (a : Nat) (r : Rec) :
    GuardWrites 4 (s.setRec a r) (s.putRec a r) := by
  have left : (s.setRec a r).ctr Reg.MGD_MINOR_OVF + 4 < 2 ^ 48 := by rwa [State.setRec, State.modAsc_ctr]
  exact writeRec_guardWrites left _ _

theorem modRec_minorOvf {s : State} (room : s.ctr Reg.MGD_MINOR_OVF + 4 < 2 ^ 48) (a : Nat) (f : Rec → Rec) :
    (s.modRec a f).ctr Reg.MGD_MINOR_OVF ≤ s.ctr Reg.MGD_MINOR_OVF + 4 := by
  have risen := (putRec_guardWrites room a (f (s.asRec a))).ovf
  rwa [State.setRec, State.modAsc_ctr] at risen

theorem modRec_regs {s : State} (room : s.ctr Reg.MGD_MINOR_OVF + 4 < 2 ^ 48) (a : Nat) (f : Rec → Rec) : (s.modRec a f).regs = s.regs := by
  have kept := (putRec_guardWrites room a (f (s.asRec a))).regs_eq
  rwa [State.setRec, State.modAsc_regs] at kept

/-! ### The lines of a record (R245, R246) -/

theorem writeLines_lineAt (s : State) (line : Nat) (bytes : List Byte) {l : Nat} (n : Nat) (apart : l < line ∨ line + n ≤ l) :
    (writeLines s line n bytes).lineAt l = s.lineAt l := by
  induction n with
  | zero => rfl
  | succ n ih =>
    rw [writeLines_succ]
    exact (writeLine_other _ _ _ (by omega)).trans (ih (by omega))

theorem putRec_lineAt (s : State) (a : Nat) (r : Rec) {l : Nat} (apart : ∀ b, s.recLine? a = some b → l < b ∨ b + 4 ≤ l) :
    (s.putRec a r).lineAt l = s.lineAt l := by
  unfold State.putRec writeRec
  dsimp only
  split
  · next b place => exact writeLines_lineAt _ _ _ 4 (apart b place)
  · rfl

/-! ### A record changed (R250, R255) -/

@[simp] theorem asRec_setRec (s : State) (a : Nat) (r : Rec) : (s.setRec a r).asRec a = r := mlook_mstore_same _ _ _ _

theorem asRec_setRec_ne (s : State) {a b : Nat} (r : Rec) (h : b ≠ a) : (s.setRec a r).asRec b = s.asRec b := mlook_mstore_ne _ _ _ _ h

@[simp] theorem asRec_putRec (s : State) (a : Nat) (r : Rec) : (s.putRec a r).asRec a = r :=
  ((putRec_memWork s a r).asRec_eq a).trans (asRec_setRec s a r)

theorem asRec_putRec_ne (s : State) {a b : Nat} (r : Rec) (h : b ≠ a) : (s.putRec a r).asRec b = s.asRec b :=
  ((putRec_memWork s a r).asRec_eq b).trans (asRec_setRec_ne s r h)

@[simp] theorem asRec_modRec (s : State) (a : Nat) (f : Rec → Rec) : (s.modRec a f).asRec a = f (s.asRec a) := asRec_putRec s a _

theorem asRec_modRec_ne (s : State) {a b : Nat} (f : Rec → Rec) (h : b ≠ a) : (s.modRec a f).asRec b = s.asRec b := asRec_putRec_ne s _ h

/-- A record written is the one change that a state shows, with the lines that hold it (R246, R401). -/
theorem putRec_onlyRec (s : State) (a : Nat) (r : Rec) : OnlyRec a s (s.putRec a r) := by
  refine ⟨fun b h => asRec_putRec_ne s r h, fun l apart => putRec_lineAt s a r apart, fun room => ?_⟩
  have writes := putRec_guardWrites room a r
  have recs : (s.putRec a r).asc.recs = (s.setRec a r).asc.recs := (congrArg (fun x : State => x.asc.recs) writes.beside).trans rfl
  refine ⟨writes.ctrs, writes.beside.trans ?_⟩
  rw [recs]
  rfl

/-! ### What a resident slot's changes leave -/

theorem modSlot_asc (s : State) (i : Nat) (f : Slot → Slot) : s.modSlot i f = s.modAsc (fun x => { x with slots := (s.modSlot i f).asc.slots }) := by
  unfold State.modSlot
  split <;> rfl

@[simp] theorem asRec_modSlot (s : State) (i : Nat) (f : Slot → Slot) (a : Nat) : (s.modSlot i f).asRec a = s.asRec a := by
  rw [modSlot_asc]; rfl

@[simp] theorem asRec_touch (s : State) (a b : Nat) : (touch s a).asRec b = s.asRec b := by
  unfold touch
  split
  exacts [asRec_modSlot _ _ _ _, rfl]

theorem asRec_modLive_set (s : State) (a : Nat) (f : Rec → Rec) (b : Nat) : (s.modLive a f).asRec b = (s.setRec a (f (s.asRec a))).asRec b := by
  unfold State.modLive
  dsimp only
  split
  exacts [asRec_modSlot _ _ _ _, (writeRec_memWork _ _ _).asRec_eq b]

@[simp] theorem asRec_modLive (s : State) (a : Nat) (f : Rec → Rec) : (s.modLive a f).asRec a = f (s.asRec a) :=
  (asRec_modLive_set s a f a).trans (asRec_setRec s a _)

theorem asRec_modLive_ne (s : State) {a b : Nat} (f : Rec → Rec) (h : b ≠ a) : (s.modLive a f).asRec b = s.asRec b :=
  (asRec_modLive_set s a f b).trans (asRec_setRec_ne s _ h)

end Sys2Proof.Machine
end

section
/-! SUPPORT. The command register of the association engine: what a write of it starts or counts, and what the end of an operation shows
(07 R286, R287). -/

namespace Sys2Proof.Machine

/-! ### A write of ASC_CMD (R286) -/

theorem ascWord_op {op : Nat} (h : op < 128) : fieldOf Reg.ASC_CMD_OP (ascWord op) = op :=
  fieldOf_word_at [] rfl (by decide) (by decide) h

/-- An operation served: what it does, INSTALL's key staging zeroed, with its answer kept for its end (R286). -/
def ascServed (who : Who) (op : Nat) (s : State) : State :=
  let a := ascOperate who op s
  (if op = 1 then a.2.wrs (ifc who (Reg.ASC_KEY_STAGE 0)) (List.replicate 8 0) else a.2).modAsc (fun x => { x with
    op := some { result := a.1.1.num, writes := a.1.2.map (fun p => (ifc who (Reg.ASC_STAGE p.1), p.2)), who := who } })

theorem ascStart_word {op : Nat} (h : op < 128) (who : Who) (s : State) : ascStart who (ascWord op) s = ascServed who op s := by
  rw [ascStart, ascWord_op h]
  rfl

/-- ASC_CMD of an interface that is not busy takes a command with BUSY; the command is served, or waits while another is (R286). -/
theorem ascCmdWrite_takes {who : Who} {s : State} {val : Word} (k : mlook 0 Reg.ASC_CMD s.locks = 0)
    (idle : s.flag (ifcField who Reg.ASC_CMD_BUSY) = false) (op : fieldOf Reg.ASC_CMD_OP val ≠ 0) :
    ∃ u, OnlyRegs [ifc who Reg.ASC_CMD] s u ∧ u.flag (ifcField who Reg.ASC_CMD_BUSY) = true ∧
      u.get (ifcField who Reg.ASC_CMD_OP) = fieldOf Reg.ASC_CMD_OP val ∧
      ascCmdWrite who val s =
        if s.asc.op.isSome then u.modAsc (fun x => { x with waiting := some (who, val) }) else ascStart who val u := by
  have stored := storeAt_unlocked (off := Reg.ASC_CMD) rfl k (ifc who Reg.ASC_CMD) val
  have kept : OnlyRegs [ifc who Reg.ASC_CMD] s (storeAt (ifc who Reg.ASC_CMD) Reg.ASC_CMD val s) := by
    rw [stored]
    exact onlyRegs_wr (List.mem_singleton_self _) _ _
  have only := kept.setFlag (f := ifcField who Reg.ASC_CMD_BUSY) (List.mem_singleton_self _) true
  have asc := (congrArg State.asc only.eq).trans rfl
  refine ⟨_, only, State.flag_setFlag _ _ _ rfl (show 31 < 32 by decide), ?_, ?_⟩
  · rw [State.setFlag, State.get_set_apart _ (ifcField who Reg.ASC_CMD_BUSY) (ifcField who Reg.ASC_CMD_OP) _ (show 31 ≤ 31 by decide)
      (show 31 < 32 by decide) rfl (.inr (show 30 < 31 by decide)), stored]
    exact (State.get_wr _ _ (ifcField who Reg.ASC_CMD_OP)).trans (bits_stored _ _ _ _ (hi := 30) (lo := 24) (by decide) (by decide))
  · rw [ascCmdWrite, if_neg (by simp [idle])]
    dsimp only
    rw [if_neg op, asc]

/-- A command of the association engine at an interface of its path, busy and not (R286). -/
theorem ascCommand_starts {s : State} {who : Who} (h : ServesOwn s who) (k : mlook 0 Reg.ASC_CMD s.locks = 0) {c : Instr} {op : Nat}
    (e : exec c s = .next (ascCommand who op s)) (zero : op ≠ 0) (small : op < 128) :
    (s.flag (ifcField who Reg.ASC_CMD_BUSY) = true → exec c s = .next (s.inc Reg.ASC_CMD_REFUSED)) ∧
    (s.flag (ifcField who Reg.ASC_CMD_BUSY) = false → ∃ u, OnlyRegs [ifc who Reg.ASC_CMD] s u ∧
      u.flag (ifcField who Reg.ASC_CMD_BUSY) = true ∧ u.get (ifcField who Reg.ASC_CMD_OP) = op ∧
      exec c s = .next (if s.asc.op.isSome then u.modAsc (fun x => { x with waiting := some (who, ascWord op) })
        else ascServed who op u)) := by
  rw [ascCommand, gateOwner_own _ h rfl] at e
  refine ⟨fun busy => e.trans (congrArg _ (if_pos busy)), fun idle => ?_⟩
  obtain ⟨u, only, busy, shown, takes⟩ := ascCmdWrite_takes (val := ascWord op) k idle (by rwa [ascWord_op small])
  rw [ascWord_op small] at shown
  rw [ascStart_word small] at takes
  exact ⟨u, only, busy, shown, e.trans (congrArg _ takes)⟩

/-! ### The end of an operation (R286, R287) -/

/-- The association of an INSTALL takes its state when the command ends (R286). -/
def installSettled (s : State) : State :=
  match s.asc.installing with
  | some (a, active) => s.modRec a (fun x => { x with state := if active then .live else .ready })
  | none => s

/-- No operation is served, and the words of the one that ended are shown. -/
def ascBase (s : State) (ws : List (Nat × Word)) : State :=
  ((installSettled s).modAsc (fun x => { x with op := none, installing := none, waiting := none })).wrAll ws

/-- An interface shows its result with BUSY 0. -/
def ascShown (s : State) (who : Who) (r : Nat) : State :=
  (s.set (ifcField who Reg.ASC_CMD_RESULT) r).setFlag (ifcField who Reg.ASC_CMD_BUSY) false

theorem ascShown_onlyRegs (s : State) (who : Who) (r : Nat) : OnlyRegs [ifc who Reg.ASC_CMD] s (ascShown s who r) :=
  ((OnlyRegs.refl _ s).set (f := ifcField who Reg.ASC_CMD_RESULT) (List.mem_singleton_self _) r).setFlag
    (f := ifcField who Reg.ASC_CMD_BUSY) (List.mem_singleton_self _) false

theorem ascShown_busy (s : State) (who : Who) (r : Nat) : (ascShown s who r).flag (ifcField who Reg.ASC_CMD_BUSY) = false :=
  State.flag_setFlag _ _ _ rfl (show 31 < 32 by decide)

theorem ascShown_result (s : State) (who : Who) {r : Nat} (small : r < 256) : (ascShown s who r).get (ifcField who Reg.ASC_CMD_RESULT) = r :=
  (State.get_set_apart _ (ifcField who Reg.ASC_CMD_BUSY) (ifcField who Reg.ASC_CMD_RESULT) (b2n false) (show 31 ≤ 31 by decide)
    (show 31 < 32 by decide) rfl (.inr (show 23 < 31 by decide))).trans
    (State.get_set_lt _ (ifcField who Reg.ASC_CMD_RESULT) (show 16 ≤ 23 by decide) (show 23 < 32 by decide) small)

theorem ascDoneOp_idle {s : State} (h : s.asc.op = none) : ascDoneOp s = s := by simp only [ascDoneOp, h]

theorem ascDoneOp_waits {s : State} {p : PendOp} (h : s.asc.op = some p) (waits : s.ascWaits p.who = true) : ascDoneOp s = s := by
  simp only [ascDoneOp, h, waits, if_true]

/-- An operation that waits for nothing ends, and the other interface's is served then. -/
theorem ascDoneOp_ends {s : State} {p : PendOp} (h : s.asc.op = some p) (waits : s.ascWaits p.who = false) :
    ascDoneOp s = match s.asc.waiting with
      | some (w, val) => ascStart w val (ascShown (ascBase s p.writes) p.who p.result)
      | none => ascShown (ascBase s p.writes) p.who p.result := by
  simp only [ascDoneOp, h, waits, Bool.false_eq_true, if_false]
  rfl

end Sys2Proof.Machine

namespace Sys2Proof.Proofs
open Sys2Proof.Machine

/-- Settles O31: the seventeen commands are one gated write of ASC_CMD, and the end by the operation that is served. -/
theorem associationCommandsStart : Obligations.AssociationCommandsStart := by
  intro s who h unlocked busy starts
  have taken {c : Instr} {op : Nat} (e : exec c s = .next (ascCommand who op s)) (zero : op ≠ 0) (small : op < 128) : starts op c :=
    ascCommand_starts h unlocked e zero small
  have ends {t : State} (on : DomainsOn s memDoms) (e : ascDoneOp s = t) : exec .ascCmdDone s = .next t :=
    exec_of_live h.1.1 rfl ((whenOn_on _ on).trans e)
  clear_value starts
  refine ⟨⟨taken rfl (by decide) (by decide), taken rfl (by decide) (by decide), taken rfl (by decide) (by decide),
      taken rfl (by decide) (by decide), taken rfl (by decide) (by decide), taken rfl (by decide) (by decide),
      taken rfl (by decide) (by decide), taken rfl (by decide) (by decide), taken rfl (by decide) (by decide)⟩,
    ⟨taken rfl (by decide) (by decide), taken rfl (by decide) (by decide), taken rfl (by decide) (by decide),
      taken rfl (by decide) (by decide), taken rfl (by decide) (by decide), taken rfl (by decide) (by decide),
      taken rfl (by decide) (by decide), taken rfl (by decide) (by decide)⟩,
    fun on => ⟨fun r ws served go => ?_, fun p served waits => ends on (ascDoneOp_waits served waits),
      fun idle => ends on (ascDoneOp_idle idle)⟩⟩
  intro m base
  have settled : m = installSettled s := rfl
  have shown : base = ascBase s ws := congrArg (fun x : State => State.wrAll (x.modAsc _) ws) settled
  clear_value base
  subst shown
  refine ⟨ascShown (ascBase s ws) who r, ends on ((ascDoneOp_ends served go).trans ?_),
    ascShown_result _ who (Nat.lt_trans r.isLt (by decide)), ascShown_busy _ who r, ascShown_onlyRegs _ who r⟩
  cases s.asc.waiting <;> rfl

end Sys2Proof.Proofs
end

section
/-! SUPPORT. The dissolve table: what a change of an entry leaves, pins and their release, and each member's turn at OPEN, SWITCH and
CLOSE (07 R253, R276 to R281, R290). -/

namespace Sys2Proof.Machine

/-! ### Entries -/

@[simp] theorem dissolve_modDissolve (s : State) (e : Nat) (f : Dissolve → Dissolve) : (s.modDissolve e f).dissolve e = f (s.dissolve e) :=
  mlook_mstore_same _ _ _ _

theorem dissolve_modDissolve_ne (s : State) {e j : Nat} (f : Dissolve → Dissolve) (h : j ≠ e) :
    (s.modDissolve e f).dissolve j = s.dissolve j := mlook_mstore_ne _ _ _ _ h

@[simp] theorem dissolve_modSlot (s : State) (i : Nat) (f : Slot → Slot) (e : Nat) : (s.modSlot i f).dissolve e = s.dissolve e := by
  rw [modSlot_asc]; rfl

theorem dissolve_setDissolvePin (v : Bool) (s : State) (a e : Nat) : (setDissolvePin v s a).dissolve e = s.dissolve e := by
  unfold setDissolvePin
  split
  exacts [dissolve_modSlot _ _ _ _, rfl]

theorem dissolve_setDissolvePins (v : Bool) (l : List Nat) (s : State) (e : Nat) :
    (l.foldl (setDissolvePin v) s).dissolve e = s.dissolve e := by
  induction l generalizing s with
  | nil => rfl
  | cons a l ih => exact (ih _).trans (dissolve_setDissolvePin v s a e)

/-! ### An entry's end (R277, R281) -/

theorem dissolveUnpin_entry (e : Nat) (s : State) (a : Nat) : (dissolveUnpin e s a).dissolve e =
    { s.dissolve e with pins := (s.dissolve e).pins.filter (fun p => p.1 ≠ a) } := by
  unfold dissolveUnpin
  dsimp only
  rw [dissolve_modDissolve, dissolve_setDissolvePins]

/-- The pins of the members named are gone. -/
theorem dissolveUnpins_pins (e : Nat) (l : List Nat) (s : State) : ((l.foldl (dissolveUnpin e) s).dissolve e).pins =
    (s.dissolve e).pins.filter (fun p => p.1 ∉ l) := by
  induction l generalizing s with
  | nil => simp
  | cons a l ih =>
    rw [List.foldl_cons, ih, dissolveUnpin_entry, List.filter_filter]
    exact List.filter_congr (fun p _ => by simp [Bool.and_comm])

/-- The entry with every pin released. -/
theorem dissolveUnpins_all (e : Nat) (s : State) : ((((s.dissolve e).pins.map (fun p => p.1)).foldl (dissolveUnpin e) s).dissolve e).pins = [] := by
  rw [dissolveUnpins_pins, List.filter_eq_nil_iff]
  intro p held
  simpa using ⟨p.2, held⟩

theorem dissolveDone_ends (s : State) (e : Nat) :
    ∃ u, dissolveDone s e = raise0 u 0x2808 e ∧ (u.dissolve e).phase = .done ∧ (u.dissolve e).pins = [] := by
  refine ⟨_, rfl, ?_, ?_⟩ <;> rw [dissolve_modDissolve]
  exact dissolveUnpins_all e s

/-! ### Phases (R277, R280) -/

section Phases
variable {s : State} {e : Nat}

theorem openOp_waiting (h : (s.dissolve e).phase = .waiting) : openOp e s =
    if (s.dissolve e).byPn = true ∧ ((walk s e (openMember e) .opened).dissolve e).faults ≠ 0
    then dissolveDone (walk s e (openMember e) .opened) e else walk s e (openMember e) .opened := if_neg (not_not_intro h)

theorem openOp_elsewhere (h : (s.dissolve e).phase ≠ .waiting) : openOp e s = s := if_pos h

theorem switchOp_opened (h : (s.dissolve e).phase = .opened) (byTime : (s.dissolve e).byPn = false) :
    switchOp e s = walk s e (atSwitch e) .switched := if_neg (by simp [h, byTime])

theorem switchOp_elsewhere (h : (s.dissolve e).phase ≠ .opened ∨ (s.dissolve e).byPn = true) : switchOp e s = s := if_pos h

theorem closeOp_switched (h : (s.dissolve e).phase = .switched) : closeOp e s = dissolveDone (walk s e (atClose e) .switched) e :=
  if_neg (not_not_intro h)

theorem closeOp_elsewhere (h : (s.dissolve e).phase ≠ .switched) : closeOp e s = s := if_pos h

end Phases

/-! ### A member at OPEN (R279, R281) -/

section Opens
variable {s : State} {e a b : Nat}

theorem openMember_gone (h : s.gone a = true) : openMember e s a = memberPass s e a := if_pos h

variable (here : s.gone a = false)
include here

theorem openMember_unfit (none : s.fitSuccessor a = none) : openMember e s a = memberFault s e a := by
  simp only [openMember, here, none, Bool.false_eq_true, if_false]

theorem openMember_fits (fit : s.fitSuccessor a = some b) : openMember e s a =
    dissolvePin (if (s.asRec a).rx then s.modRec b (fun r => { r with state := .live }) else s) e a b := by
  simp only [openMember, here, fit, Bool.false_eq_true, if_false]

end Opens

theorem memberFault_eq (s : State) (e a : Nat) : memberFault s e a =
    if (s.dissolve e).faults = 0
    then raise (s.modDissolve e (fun d => { d with faults := d.faults + 1, passed := ladd a d.passed })) 0x2809 e a none
    else s.modDissolve e (fun d => { d with faults := d.faults + 1, passed := ladd a d.passed }) := by
  simp only [memberFault, decide_eq_true_eq]

/-! ### A member at SWITCH (R250, R281, R290) -/

theorem fitSuccessor_ready {s : State} {a b : Nat} (fit : s.fitSuccessor a = some b) : (s.asRec b).state = .ready := by
  unfold State.fitSuccessor at fit
  dsimp only at fit
  split at fit
  · split at fit
    · next ready =>
      cases fit
      exact ready.1
    · cases fit
  · cases fit

/-- The records as a switch leaves them. -/
def switchedRecs (s : State) (a b : Nat) : State :=
  (s.modRec a (fun r => { r with state := .switched })).modRec b (fun r => { r with state := .live })

section Switches
variable {s : State} {e a b : Nat}

theorem asRec_switchedRecs_old (apart : b ≠ a) : (switchedRecs s a b).asRec a = { s.asRec a with state := .switched } := by
  rw [switchedRecs, asRec_modRec_ne _ _ apart.symm, asRec_modRec]

theorem asRec_switchedRecs_new (apart : b ≠ a) : (switchedRecs s a b).asRec b = { s.asRec b with state := .live } := by
  rw [switchedRecs, asRec_modRec, asRec_modRec_ne _ _ apart]

theorem asRec_switchedRecs_other {c : Nat} (hca : c ≠ a) (hcb : c ≠ b) : (switchedRecs s a b).asRec c = s.asRec c := by
  rw [switchedRecs, asRec_modRec_ne _ _ hcb, asRec_modRec_ne _ _ hca]

theorem switchedRecs_regs (room : s.ctr Reg.MGD_MINOR_OVF + 8 < 2 ^ 48) : (switchedRecs s a b).regs = s.regs := by
  have risen := modRec_minorOvf (s := s) (by omega) a (fun r => { r with state := .switched })
  rw [switchedRecs, modRec_regs (by omega), modRec_regs (by omega)]

@[simp] theorem asRec_moveBinding (s : State) (off a b c : Nat) : (moveBinding s off a b).asRec c = s.asRec c := by
  have same {t : State} (h : t.asc = s.asc) : t.asRec c = s.asRec c := by rw [State.asRec, h, State.asRec]
  unfold moveBinding
  dsimp only
  split
  exacts [same (State.wr_asc _ _ _), rfl]

theorem moveBinding_rd_ne (s : State) {off : Nat} (a b : Nat) {o : Nat} (h : o ≠ off) : (moveBinding s off a b).rd o = s.rd o := by
  unfold moveBinding
  dsimp only
  split
  exacts [State.rd_wr_ne _ _ h, rfl]

theorem moveBinding_bound {off : Nat} (valid : bits (s.rd off) 31 31 = 1) (names : bits (s.rd off) 19 0 = a) :
    (moveBinding s off a b).rd off = setBits (s.rd off) 19 0 b := by
  rw [moveBinding, if_pos ⟨valid, names⟩, State.rd_wr]

theorem moveBinding_unbound {off : Nat} (h : bits (s.rd off) 31 31 ≠ 1 ∨ bits (s.rd off) 19 0 ≠ a) : moveBinding s off a b = s :=
  if_neg (fun bound => h.elim (· bound.1) (· bound.2))

theorem atSwitch_passed (h : a ∈ (s.dissolve e).passed ∨ (s.asRec a).rx = true) : atSwitch e s a = s :=
  if_pos (h.imp_left List.contains_iff_mem.2)

/-- A LIVE transmit member that has not been passed over moves to its fit successor. -/
theorem atSwitch_switches (turn : a ∉ (s.dissolve e).passed) (tx : (s.asRec a).rx = false) (live : (s.asRec a).state = .live)
    (fit : s.fitSuccessor a = some b) (apart : b ≠ a) :
    atSwitch e s a = moveBinding (switchedRecs s a b) (Reg.ASC_PORT_STREAM (s.asRec a).k) a b := by
  have here : s.gone a = false := by simp [State.gone, live]
  have port : ((switchedRecs s a b).asRec a).k = (s.asRec a).k := by rw [asRec_switchedRecs_old apart]; rfl
  rw [← port]
  simp [atSwitch, turn, tx, here, fit, live, switchMember, switchedRecs]

end Switches

/-! ### A member at CLOSE (R277, R281, R290) -/

section Closes
variable {s : State} {e a : Nat}

/-- A member of whose pins none is left is passed over, gone, or of the transmit direction. -/
theorem atClose_stays (h : a ∈ ((dissolveUnpin e s a).dissolve e).passed ∨ (dissolveUnpin e s a).gone a = true ∨ (s.asRec a).rx = false) :
    atClose e s a = dissolveUnpin e s a := by
  unfold atClose
  dsimp only
  by_cases idle : ((dissolveUnpin e s a).dissolve e).passed.contains a = true ∨ (dissolveUnpin e s a).gone a = true
  · exact if_pos idle
  · have tx : (s.asRec a).rx = false := by
      rcases h with passed | gone | tx
      · exact absurd (.inl (List.contains_iff_mem.2 passed)) idle
      · exact absurd (.inr gone) idle
      · exact tx
    rw [if_neg idle, if_neg (by simp [tx])]

theorem atClose_retires (turn : a ∉ ((dissolveUnpin e s a).dissolve e).passed) (here : (dissolveUnpin e s a).gone a = false)
    (rx : (s.asRec a).rx = true) : atClose e s a = retire ((s.asRec a).succ.elim (dissolveUnpin e s a)
      (fun b => moveBinding (dissolveUnpin e s a) (Reg.ASC_PORT_STREAM_RX (s.asRec a).k) a b)) a := by
  have idle : ¬ (((dissolveUnpin e s a).dissolve e).passed.contains a = true ∨ (dissolveUnpin e s a).gone a = true) := by simp [turn, here]
  unfold atClose
  dsimp only
  rw [if_neg idle, if_pos rx]
  cases (s.asRec a).succ <;> rfl

end Closes

end Sys2Proof.Machine

namespace Sys2Proof.Proofs
open Sys2Proof.Machine

/-- Settles O34: each phase by the entry's own, each member by its record and its fit successor. -/
theorem dissolvesRun : Obligations.DissolvesRun := by
  intro s e a b run d
  have op {t c f} := @exec_of_live s t c f run
  refine ⟨fun h => op rfl (openOp_waiting h), fun h => op rfl (openOp_elsewhere h), fun h byTime => op rfl (switchOp_opened h byTime),
    fun h => op rfl (switchOp_elsewhere h), fun h => op rfl (closeOp_switched h), dissolveDone_ends s e,
    fun h => op rfl (closeOp_elsewhere h), openMember_gone, openMember_unfit,
    fun here fit rx => (openMember_fits here fit).trans (by rw [if_pos rx]),
    fun here fit tx => (openMember_fits here fit).trans (by rw [if_neg (by simp [tx])]),
    ⟨rfl, memberFault_eq s e a⟩, ⟨fun full => if_pos full, fun room => if_neg room⟩, fun turn tx live fit => ?_, atSwitch_passed,
    fun turn here rx => ?_, atClose_stays⟩
  · have apart : b ≠ a := fun same => by simp [← same, fitSuccessor_ready fit] at live
    dsimp only
    rw [atSwitch_switches turn tx live fit apart]
    simp only [asRec_moveBinding]
    refine ⟨asRec_switchedRecs_old apart, asRec_switchedRecs_new apart, fun c hca hcb => asRec_switchedRecs_other hca hcb, fun room => ?_⟩
    have kept (o : Nat) : (switchedRecs s a b).rd o = s.rd o := rd_of_regs (switchedRecs_regs room) o
    generalize Reg.ASC_PORT_STREAM (s.asRec a).k = off
    rw [← kept off]
    refine ⟨fun o ne => (moveBinding_rd_ne _ a b ne).trans (kept o), moveBinding_bound, fun h => by rw [moveBinding_unbound h]⟩
  · rw [atClose_retires turn here rx]
    cases (s.asRec a).succ <;> rfl

end Sys2Proof.Proofs
end

section
/-! SUPPORT. Reels, marks and packet numbers, the end of a page-in, and the store's readiness (07 R254, R255, R259 to R264, R267, R268,
R270; 11 R397, R410, R417). -/

namespace Sys2Proof.Machine

/-! ### A lease (R262 to R264) -/

section Leases
variable {s : State}

theorem startPersist_atOnce (off : s.persistEn = false) (a value : Nat) (advance : Option Nat) :
    startPersist s a value advance = grant s a value advance := if_pos off

/-- Where no stand-in takes part, a value waits for the write of its mark alone. -/
theorem startPersist_alone (on : s.persistEn = true) (alone : s.replicating = false) (settled : s.resyncing = false) (a value : Nat) :
    startPersist s a value none = s.modAsc (fun x => { x with
      persists := mput a { value := value, localDone := false, acked := true, advance := none } x.persists }) := by
  have quiet (f : Asc → Asc) : ((s.modAsc f).replicating || (s.modAsc f).resyncing) = false := by
    show (s.replicating || s.resyncing) = false
    rw [alone, settled]
    rfl
  simp only [startPersist, on, alone, quiet, Bool.true_eq_false, Bool.false_eq_true, if_false, Bool.not_false]

theorem grant_transmit {a : Nat} (tx : (s.asRec a).rx = false) (value : Nat) : grant s a value none =
    rekeyCheck (((s.modAsc (fun x => { x with stalled := ldel a x.stalled })).modLive a
      (fun r => { r with reel := value, pn := max r.pn 0 })).inc Reg.ASC_REEL_GRANTS) a :=
  if_neg (show ¬ ((s.modAsc (fun x => { x with stalled := ldel a x.stalled })).asRec a).rx = true from by
    rw [show (s.modAsc (fun x => { x with stalled := ldel a x.stalled })).asRec a = s.asRec a from rfl, tx]
    exact Bool.false_ne_true)

end Leases

/-! ### The write of a mark entry ends (R264) -/

/-- The mark table with the entry of a value that waited, and what the value waited for of the device itself done. -/
def markDone (s : State) (a : Nat) (p : Persist) : State :=
  (writeMark s a (newMark s a p.value)).modAsc (fun x => { x with persists := mput a { p with localDone := true } x.persists })

theorem markDone_persist (s : State) (a : Nat) (p : Persist) : mget a (markDone s a p).asc.persists = some { p with localDone := true } :=
  mget_mput_same _ _ _

section Marks
variable {s : State} {a : Nat} {p : Persist}

theorem markWritten_none (h : mget a s.asc.persists = none) : markWritten s a = s := by simp only [markWritten, h]

theorem markWritten_some (h : mget a s.asc.persists = some p) : markWritten s a = settlePersist (markDone s a p) a := by
  simp only [markWritten, h, markDone]

theorem afterPersist_waits (h : mget a s.asc.persists = some p) : afterPersist s a = s := if_pos (by rw [h]; rfl)

/-- Without the stand-in's acknowledgement the value waits on. -/
theorem settlePersist_unacked (h : mget a s.asc.persists = some p) (unacked : p.acked = false) : settlePersist s a = s := by
  simp [settlePersist, h, unacked]

theorem settlePersist_grants (h : mget a s.asc.persists = some p) (done : p.localDone = true) (acked : p.acked = true)
    (plain : p.advance = none) : settlePersist s a =
      requestReel (grant (s.modAsc (fun x => { x with persists := mdel a x.persists })) a p.value none) a := by
  simp [settlePersist, h, done, acked, plain]

end Marks

/-! ### A packet number is assigned (R259 to R262, R490) -/

section Numbers
variable {s : State} {id a : Nat}

theorem assignPn_standby (still : s.forwarding = false) : assignPn s id a = dropFrame s id Reg.FAB_STANDBY_DROP := if_pos still

/-- A frame past the point of R381 enters the farm, unless it waits or has ended there. -/
def pastPoint (id : Nat) : PtpGo × State → State
  | (.go d, t) => encGo t id d
  | (.hold, t) => t
  | (.gone, t) => t

variable (forwards : s.forwarding = true)
include forwards

theorem assignPn_exhausted (beyond : (s.asRec a).top < (s.asRec a).pn) (known : a ∈ s.asc.exhausted) :
    assignPn s id a = dropPn (s.modAsc (fun x => { x with exhausted := ladd a x.exhausted })) id a := by
  simp [assignPn, forwards, beyond, onceFor, known]

variable (within : (s.asRec a).pn ≤ (s.asRec a).top)
include within

theorem assignPn_stalled (ended : (s.asRec a).reel ≤ (s.asRec a).pn) (known : a ∈ s.asc.stalled) :
    assignPn s id a = dropPn (s.modAsc (fun x => { x with stalled := ladd a x.stalled })) id a := by
  simp [assignPn, forwards, Nat.not_lt.2 within, ended, onceFor, known]

/-- NEXT_PN of the association moves on by one, and its slot is used. -/
def pnTaken (s : State) (a : Nat) : State := touch (s.modLive a (fun r => { r with pn := r.pn + 1 })) a

/-- The frame has its number, and R260 and R262 have been applied. -/
def pnAssigned (s : State) (id a : Nat) : State :=
  let n := (pnTaken s a).modFrame id (fun f => { f with
    assoc := some a, slot := ((pnTaken s a).slotOf a).map (fun p => p.1), pn := (s.asRec a).pn, stage := .farm })
  requestReel (rekeyCheck ((n.mark id 4).mark id 5) a) a

omit forwards within in
theorem asRec_pnTaken (s : State) (a : Nat) : (pnTaken s a).asRec a = { s.asRec a with pn := (s.asRec a).pn + 1 } := by
  rw [pnTaken, asRec_touch, asRec_modLive]

theorem assignPn_assigns (left : (s.asRec a).pn < (s.asRec a).reel) {f : Frame} (held : (pnAssigned s id a).frame? id = some f) :
    assignPn s id a =
      pastPoint id (ptpPoint ((pnAssigned s id a).toEnd id) id (noFcs f.bytes)
        (lineLength (pnAssigned s id a) (s.asRec a) f.m f.bytes.length)) := by
  unfold assignPn
  dsimp only
  rw [if_neg (by simp [forwards]), if_neg (Nat.not_lt.2 within), if_neg (Nat.not_le.2 left)]
  unfold pnAssigned pnTaken at held ⊢
  rw [held]
  rfl

end Numbers

/-! ### A page-in ends (R254, R267, R417) -/

section PageIns
variable {s : State} {a : Nat}

theorem pageInOp_unasked (idle : a ∉ s.asc.paging) (ecc : Ecc) : pageInOp a ecc s = s := if_pos (by simpa using idle)

variable (asked : a ∈ s.asc.paging)
include asked

theorem pageInOp_ueTree : pageInOp a .ueTree s = raise0 (haltRec s 0x6002 0 0) 0x6002 0 := if_neg (by simpa using asked)

theorem pageInOp_ueData : pageInOp a .ueData s = failParked (raise0 (pushFault
    ((raise0 (s.inc Reg.MGD_UE_DATA_COUNT) 0x6005 0).modAsc (fun x => { x with paging := ldel a x.paging })) a) 0x2806 a) a :=
  if_neg (by simpa using asked)

section Read
variable {ecc : Ecc} (sound : ecc = .good ∨ ecc = .correctable) {t : State}
include sound

theorem pageInOp_goesOn (e : pageIn (dealUnwrap s) a = (false, t)) : pageInOp a ecc s = settleReady t a := by
  rcases sound with rfl | rfl <;> simp [pageInOp, asked, e]

theorem pageInOp_fails (e : pageIn (dealUnwrap s) a = (true, t)) : pageInOp a ecc s = failParked t a := by
  rcases sound with rfl | rfl <;> simp [pageInOp, asked, e]

end Read

end PageIns

section Slots
variable {s : State} {a : Nat}

theorem pageIn_resident (held : (s.slotOf a).isSome = true) : pageIn s a = (false, recoverIn s a) := if_pos held

variable (away : s.slotOf a = none)
include away

theorem pageIn_unplaced (full : s.victimExists = false) : pageIn s a = (false, s) := by
  simp [pageIn, away, takeSlot, full]

/-- The record as it has been read into a victim's place, before its key is unwrapped. -/
def recordRead (u : State) (a : Nat) : State := (readRec u a).inc Reg.FRM_UNWRAPS

variable {j : Nat} {u : State} (taken : takeSlot s = (some j, u))
include taken

theorem pageIn_faulty (key : (recordRead u a).unwrap a = none) : pageIn s a =
    (true, raise0 (pushFault ((recordRead u a).modAsc (fun x => { x with paging := ldel a x.paging })) a) 0x2806 a) := by
  unfold recordRead at key ⊢
  simp only [pageIn, away, taken, key, Option.isSome_none, Bool.false_eq_true, if_false]

theorem pageIn_installs {k : BitVec 256} (key : (recordRead u a).unwrap a = some k) : pageIn s a =
    (false, recoverIn ((install (recordRead u a) j a k).inc Reg.ASC_PAGE_INS) a) := by
  unfold recordRead at key ⊢
  simp only [pageIn, away, taken, key, Option.isSome_none, Bool.false_eq_true, if_false]

end Slots

/-! ### The store is ready (R270, R397, R410) -/

theorem storeReadyOp_idle {s : State} (h : s.storeServed = false ∨ s.ctl.stage7Done = false) : storeReadyOp s = s := if_pos h

theorem storeReadyOp_ready {s : State} (served : s.storeServed = true) (applied : s.ctl.stage7Done = true) :
    storeReadyOp s = (if s.storedHeader = some (s.asc.size, s.session) then s else writeHeader s s.asc.size s.session).setFlag
      Reg.ASC_STS_STORE_READY true := if_neg (by simp [served, applied])

end Sys2Proof.Machine

namespace Sys2Proof.Proofs
open Sys2Proof.Machine

/-- Settles O33: a lease by what it waits for, a number by what is left, a page-in by what the read found and the place it takes. -/
theorem reelsAndPages : Obligations.ReelsAndPages := by
  constructor
  · intro s a v p id run i written
    have marked {t : State} (e : markPersistedOp i s = t) : exec (.markPersisted a) s = .next t := exec_of_live run rfl e
    refine ⟨fun off => startPersist_atOnce off i v none, fun on alone settled => startPersist_alone on alone settled i v,
      fun tx => grant_transmit tx v, fun f => ⟨asRec_modLive s i f, fun b ne => asRec_modLive_ne s f ne⟩,
      fun none => marked (by rw [markPersistedOp, markWritten_none none]), fun waits unacked => ?_, fun waits acked plain => ?_,
      fun forwards beyond known => assignPn_exhausted forwards beyond known,
      fun forwards within ended known => assignPn_stalled forwards within ended known,
      fun forwards within left => ⟨asRec_pnTaken s i, fun f held => assignPn_assigns forwards within left held⟩, assignPn_standby⟩
    · have settled := settlePersist_unacked (markDone_persist s i p) unacked
      refine ⟨markDone s i p, marked ?_, markDone_persist s i p, rfl⟩
      rw [markPersistedOp, markWritten_some waits, settled, afterPersist_waits (markDone_persist s i p)]
    · refine ⟨(markDone s i p).modAsc (fun x => { x with persists := mdel i x.persists }), mget_mdel_same _ _, rfl, marked ?_⟩
      rw [markPersistedOp, markWritten_some waits, settlePersist_grants (markDone_persist s i p) rfl acked plain]
  · intro s a ecc run i ends
    have done {ecc : Ecc} {t : State} (on : DomainsOn s (slotDoms ++ memDoms)) (e : pageInOp i ecc s = t) : ends ecc t :=
      exec_of_live run rfl ((whenOn_on _ on).trans (congrArg settleStreams e))
    refine ⟨fun on => ⟨fun idle => done on (pageInOp_unasked idle ecc),
        fun asked => ⟨done on (pageInOp_ueTree asked), done on (pageInOp_ueData asked), ?_⟩⟩,
      fun off => exec_of_live run rfl (whenOn_off _ off), fun served applied => ?_, fun idle => exec_of_live run rfl (storeReadyOp_idle idle)⟩
    · have goesOn {ecc : Ecc} (sound : ecc = .good ∨ ecc = .correctable) {t : State} (e : pageIn (dealUnwrap s) i = (false, t)) :
          ends ecc (settleReady t i) := done on (pageInOp_goesOn asked sound e)
      have fails {t : State} (e : pageIn (dealUnwrap s) i = (true, t)) : ends .good (failParked t i) :=
        done on (pageInOp_fails asked (.inl rfl) e)
      refine ⟨fun held => ⟨goesOn (.inl rfl) (pageIn_resident held), goesOn (.inr rfl) (pageIn_resident held)⟩,
        fun away full => goesOn (.inl rfl) (pageIn_unplaced away full), fun j u away taken => ?_⟩
      show ends .good (match (recordRead u i).unwrap i with
        | none => _
        | some key => _)
      cases key : (recordRead u i).unwrap i with
      | none => exact fails (pageIn_faulty away taken key)
      | some k => exact goesOn (.inl rfl) (pageIn_installs away taken key)
    · refine ⟨_, exec_of_live run rfl (storeReadyOp_ready served applied), State.flag_setFlag _ _ _ rfl (by decide),
        (OnlyRegs.refl _ _).setFlag (by decide) true⟩

end Sys2Proof.Proofs
end

section
/-! SUPPORT. The operations of the association engine: an association named, INSTALL's refusals in their order and the record that it
writes, states, pins, packet numbers and successors (07 R250, R253, R259, R267, R284, R286 to R289, R491). -/

namespace Sys2Proof.Machine

/-! ### The association named (R87, R284, R287) -/

section Named
variable {s : State} {who : Who} (f : Nat → AscAnswer × State)

theorem onAssoc_beyond (beyond : s.asc.size ≤ s.stageIndex who) : onAssoc who s f = ((.badIndex, []), s) := if_pos beyond

theorem onAssoc_delegated (there : s.stageIndex who < s.asc.size) (served : s.hostDelegated who (s.stageIndex who) = true) :
    onAssoc who s f = ((.delegated, []), s) := by
  simp [onAssoc, Nat.not_le.2 there, served]

theorem onAssoc_acts (there : s.stageIndex who < s.asc.size) (ours : s.hostDelegated who (s.stageIndex who) = false) :
    onAssoc who s f = f (s.stageIndex who) := by
  simp [onAssoc, Nat.not_le.2 there, ours]

end Named

/-- A change of a record alone. -/
theorem modRec_writes (s : State) (a : Nat) (f : Rec → Rec) :
    (s.modRec a f).asRec a = f (s.asRec a) ∧ OnlyRec a s (s.modRec a f) := ⟨asRec_modRec s a f, putRec_onlyRec s a _⟩

/-- A word that a command shows (R289). -/
theorem mem_shown {keep w : Nat} {out : List (Nat × Word)} {v : Word} (used : keep ≤ w) (within : w < 16) (e : mlook 0 w out = v) :
    (w, v) ∈ shown keep out :=
  List.mem_filterMap.2 ⟨w, List.mem_range.2 within, by rw [if_neg (Nat.not_lt.2 used), e]⟩

/-! ### INSTALL (R286, R288, R491) -/

/-- The successor that an INSTALL names lies beyond the store (R287). -/
def farSuccessor (s : State) (who : Who) : Prop := (s.stage? who 11).getLsbD 31 = true ∧ s.asc.size ≤ bits (s.stage? who 11) 19 0

theorem ascInstall_beyond {s : State} {who : Who} (beyond : s.asc.size ≤ s.stageIndex who) : ascInstall who s = ((.badIndex, []), s) :=
  onAssoc_beyond _ beyond

theorem ascInstall_delegated {s : State} {who : Who} (there : s.stageIndex who < s.asc.size)
    (served : s.hostDelegated who (s.stageIndex who) = true) : ascInstall who s = ((.delegated, []), s) := onAssoc_delegated _ there served

section Installs
variable {s : State} {who : Who} (there : s.stageIndex who < s.asc.size) (ours : s.hostDelegated who (s.stageIndex who) = false)
include there ours

theorem ascInstall_notReady (early : s.flag Reg.ASC_STS_STORE_READY = false) : ascInstall who s = ((.notReady, []), s) := by
  rw [ascInstall, onAssoc_acts _ there ours, if_pos early]

variable (ready : s.flag Reg.ASC_STS_STORE_READY = true)
include ready

theorem ascInstall_used (used : (s.asRec (s.stageIndex who)).state ≠ .free) : ascInstall who s = ((.badState, []), s) := by
  rw [ascInstall, onAssoc_acts _ there ours, if_neg (by simp [ready]), if_pos used]

variable (free : (s.asRec (s.stageIndex who)).state = .free)
include free

theorem ascInstall_bad (bad : installBad s who = true) : ascInstall who s = ((.badArg, []), s) := by
  rw [ascInstall, onAssoc_acts _ there ours, if_neg (by simp [ready]), if_neg (not_not_intro free), if_pos bad]

variable (good : installBad s who = false)
include good

theorem ascInstall_far (far : farSuccessor s who) : ascInstall who s = ((.badIndex, []), s) := by
  rw [ascInstall, onAssoc_acts _ there ours, if_neg (by simp [ready]), if_neg (not_not_intro free), if_neg (by simp [good])]
  exact if_pos far

variable (near : ¬ farSuccessor s who)
include near

theorem ascInstall_keyless (fail : installKey who s = none ∨ s.vlt.wrapKey = none) : ascInstall who s = ((.keyFail, []), s) := by
  rw [ascInstall, onAssoc_acts _ there ours, if_neg (by simp [ready]), if_neg (not_not_intro free), if_neg (by simp [good])]
  refine (if_neg near).trans ?_
  rcases fail with none | none <;> rw [none]
  cases installKey who s <;> rfl

/-- The first lease of a record that INSTALL writes (R262, R263). -/
def firstLease (r : Rec) : Nat := if r.rx then r.reel else (r.pn / reelSize + 1) * reelSize

theorem ascInstall_installs {key : BitVec 256} {wk : Shares 256} (opens : installKey who s = some key) (wraps : s.vlt.wrapKey = some wk) :
    let a := s.stageIndex who
    let r := installRec s who a wk.value key
    ascInstall who s = ((.ok, []), requestReel (rekeyCheck (startPersist (((forget s a).putRec a r).modAsc
      (fun x => { x with installing := some (a, (s.stage? who 0).getLsbD 31) })) a (firstLease r) none) a) a) := by
  rw [ascInstall, onAssoc_acts _ there ours, if_neg (by simp [ready]), if_neg (not_not_intro free), if_neg (by simp [good])]
  refine (if_neg near).trans ?_
  rw [opens, wraps]
  rfl

end Installs

section Installed
variable (s : State) (who : Who) (a : Nat) (wrapKey key : BitVec 256)

theorem installRec_rx : (installRec s who a wrapKey key).rx = nbit (bits (s.stage? who 1) 31 24) 7 :=
  (BitVec.getLsbD_ofNat _ _ _).trans (Bool.true_and _)

theorem installRec_key256 : (installRec s who a wrapKey key).key256 = nbit (bits (s.stage? who 1) 31 24) 4 :=
  (BitVec.getLsbD_ofNat _ _ _).trans (Bool.true_and _)

theorem installRec_encap : (installRec s who a wrapKey key).encap = bits (s.stage? who 1) 31 24 / 32 % 4 := by
  have byte : bits (s.stage? who 1) 31 24 < 256 := bits_lt _ _ _
  simp [Rec.encap, installRec, Nat.mod_eq_of_lt byte]

theorem installRec_pn : (installRec s who a wrapKey key).pn =
    if (installRec s who a wrapKey key).rx then (s.stage? who 10).toNat * 2 ^ 32 + (s.stage? who 9).toNat - 1
    else (s.stage? who 10).toNat * 2 ^ 32 + (s.stage? who 9).toNat := by
  rw [installRec_rx]
  rfl

theorem installRec_wrapped : (installRec s who a wrapKey key).wrapped =
    wrapRecKey wrapKey (installRec s who a wrapKey key).key256 key a (installRec s who a wrapKey key).keyGen := by
  rw [installRec_key256]
  rfl

/-- The first byte of 64 bits. -/
theorem firstByte_append (x : BitVec 8) (y : BitVec 56) : (x ++ y : BitVec 64).toNat / 2 ^ 56 = x.toNat := by
  rw [BitVec.toNat_append, ← Nat.shiftLeft_add_eq_or_of_lt y.isLt, Nat.shiftLeft_eq, Nat.add_comm, Nat.add_mul_div_right _ _ (by decide),
    Nat.div_eq_of_lt y.isLt, Nat.zero_add]

/-- A Korone transmit association sends under the device's emitter ID (R491). -/
theorem installRec_emitter (tx : (installRec s who a wrapKey key).rx = false) (korone : (installRec s who a wrapKey key).encap ≠ 0) :
    (installRec s who a wrapKey key).ident.toNat / 2 ^ 56 = s.get Reg.FAB_CFG_EMITTER := by
  rw [installRec_rx] at tx
  rw [installRec_encap] at korone
  have emitter : s.get Reg.FAB_CFG_EMITTER < 256 := bits_lt _ _ _
  have ident : (installRec s who a wrapKey key).ident =
      (BitVec.ofNat 8 (s.get Reg.FAB_CFG_EMITTER) ++ (s.stage? who 2 ++ s.stage? who 3 : BitVec 64).extractLsb' 0 56 : BitVec 64) := by
    show installIdent who s (nbit (bits (s.stage? who 1) 31 24) 7) (bits (s.stage? who 1) 31 24 / 32 % 4) = _
    rw [installIdent, tx, if_neg Bool.false_ne_true, if_pos korone]
  rw [ident, firstByte_append, BitVec.toNat_ofNat, Nat.mod_eq_of_lt emitter]

end Installed

/-! ### ACTIVATE and RETIRE (R250, R286) -/

section States
variable {s : State} {who : Who} (there : s.stageIndex who < s.asc.size) (ours : s.hostDelegated who (s.stageIndex who) = false)
include there ours

theorem ascActivate_ready (ready : (s.asRec (s.stageIndex who)).state = .ready) :
    ascActivate who s = ((.ok, []), s.modRec (s.stageIndex who) (fun r => { r with state := .live })) := by
  rw [ascActivate, onAssoc_acts _ there ours, if_pos ready]

theorem ascActivate_other (other : (s.asRec (s.stageIndex who)).state ≠ .ready) : ascActivate who s = ((.badState, []), s) := by
  rw [ascActivate, onAssoc_acts _ there ours, if_neg other]

variable (single : (s.stage? who 0).getLsbD 29 = false)
include single

theorem ascRetire_single : ascRetire who s =
    if (s.asRec (s.stageIndex who)).state = .free then ((.badState, []), s)
    else if (s.asRec (s.stageIndex who)).state = .retiring then ((.ok, []), s) else ((.ok, []), retire s (s.stageIndex who)) :=
  (if_neg (by rw [single]; decide)).trans (onAssoc_acts _ there ours)

theorem ascRetire_free (free : (s.asRec (s.stageIndex who)).state = .free) : ascRetire who s = ((.badState, []), s) :=
  (ascRetire_single there ours single).trans (if_pos free)

theorem ascRetire_retiring (retires : (s.asRec (s.stageIndex who)).state = .retiring) : ascRetire who s = ((.ok, []), s) :=
  (ascRetire_single there ours single).trans ((if_neg (by rw [retires]; decide)).trans (if_pos retires))

theorem ascRetire_retires (used : (s.asRec (s.stageIndex who)).state ≠ .free) (first : (s.asRec (s.stageIndex who)).state ≠ .retiring) :
    ascRetire who s = ((.ok, []), retire s (s.stageIndex who)) :=
  (ascRetire_single there ours single).trans ((if_neg used).trans (if_neg first))

end States

/-- The association that a frame uses is LIVE (R251). -/
theorem follows_live {s : State} {a b : Nat} (h : s.follows a = some b) : (s.asRec b).state = .live := by
  unfold State.follows at h
  dsimp only at h
  split at h
  · next live =>
    cases h
    exact live
  · split at h
    · split at h
      · next live =>
        cases h
        exact live
      · cases h
    · cases h
  all_goals cases h

/-- No frame waits for an association that has begun to retire but one that waited before. -/
theorem parked_retiring {s : State} {a : Nat} (none : s.parked a = []) : (s.modRec a (fun r => { r with state := .retiring })).parked a = [] := by
  have work := putRec_memWork s a { s.asRec a with state := .retiring }
  have state : ((s.modRec a (fun r => { r with state := .retiring })).asRec a).state = .retiring := by rw [asRec_modRec]
  generalize ht : s.modRec a (fun r => { r with state := .retiring }) = t at state
  have work : MemWork (s.setRec a { s.asRec a with state := .retiring }) t := ht ▸ work
  have frames (id : Nat) : t.frame? id = s.frame? id := by rw [State.frame?, work.sch_eq]; rfl
  have missq : t.asc.missq = s.asc.missq := (congrArg Asc.missq work.asc_eq).trans rfl
  have earlier (f : Frame) (waits : t.waitsFor a f = true) : s.waitsFor a f = true := by
    unfold State.waitsFor at waits ⊢
    rcases Bool.or_eq_true_iff.1 waits with named | followed
    · simp [named]
    · have follows : f.named.bind t.follows = some a := of_decide_eq_true (Bool.and_eq_true_iff.1 followed).2
      obtain ⟨c, -, follows⟩ := Option.bind_eq_some_iff.1 follows
      have live := follows_live follows
      simp [state] at live
  unfold State.parked at none ⊢
  rw [List.filter_eq_nil_iff] at none ⊢
  intro id queued waits
  rw [missq] at queued
  rw [frames, Option.any_eq_true] at waits
  obtain ⟨f, held, waits⟩ := waits
  exact none id queued ((Option.any_eq_true _ _).2 ⟨f, held, earlier f waits⟩)

/-- The association begins to retire, and is neither faulty nor paged in (R250, R284). -/
def retiring (s : State) (a : Nat) : State :=
  (s.modRec a (fun r => { r with state := .retiring })).modAsc (fun x => { x with faulty := ldel a x.faulty, paging := ldel a x.paging })

/-- The device with an association FREE, its slot and what was remembered of it gone (R250). -/
def retired (s : State) (a : Nat) : State :=
  ((retiring s a).putRec a { (retiring s a).asRec a with state := .free, wrapped := 0 }).modAsc (fun x => { x with
    slots := x.slots.filter (fun p => p.2.assoc ≠ a), persists := mdel a x.persists, faulty := ldel a x.faulty })

theorem asRec_of_recs {s t : State} (h : t.asc.recs = s.asc.recs) (a : Nat) : t.asRec a = s.asRec a := by
  rw [State.asRec, h, State.asRec]

section Retires
variable {s : State} {a : Nat}

theorem retiring_recs : (retiring s a).asc.recs = (s.modRec a (fun r => { r with state := .retiring })).asc.recs := rfl

theorem asRec_retiring : (retiring s a).asRec a = { s.asRec a with state := .retiring } := by
  rw [asRec_of_recs retiring_recs, asRec_modRec]

theorem retired_recs :
    (retired s a).asc.recs = ((retiring s a).putRec a { (retiring s a).asRec a with state := .free, wrapped := 0 }).asc.recs := rfl

/-- With no frame waiting or in flight an association is FREE at once. -/
theorem retire_idle (unparked : s.parked a = []) (grounded : s.inFlight a = 0) : retire s a = retired s a := by
  have flight : (retiring s a).inFlight a = 0 := ((putRec_memWork s a { s.asRec a with state := .retiring }).inFlight_eq a).trans grounded
  have flushed : flushParked (s.modRec a (fun r => { r with state := .retiring })) a = s.modRec a (fun r => { r with state := .retiring }) := by
    rw [flushParked, parked_retiring unparked]
    rfl
  rw [retire, flushed]
  exact if_pos ⟨by rw [← retiring, asRec_retiring], flight⟩

theorem asRec_retired : (retired s a).asRec a = { s.asRec a with state := .free, wrapped := 0 } := by
  rw [asRec_of_recs retired_recs, asRec_putRec, asRec_retiring]

theorem asRec_retired_ne {b : Nat} (h : b ≠ a) : (retired s a).asRec b = s.asRec b := by
  rw [asRec_of_recs retired_recs, asRec_putRec_ne _ _ h, asRec_of_recs retiring_recs, asRec_modRec_ne _ _ h]

theorem slotOf_retired : (retired s a).slotOf a = none :=
  List.find?_eq_none.2 (fun p held => by
    have other := (List.mem_filter.1 held).2
    simpa using other)

end Retires

/-! ### READ and READ_COUNTERS (R289) -/

section Reads
variable {s : State} {who : Who} (there : s.stageIndex who < s.asc.size)
include there

theorem ascRead_shows : (ascRead who s).2 = s ∧ (ascRead who s).1.1 = .ok ∧
    (0, w32 ((s.asRec (s.stageIndex who)).state.num * 2 ^ 28 + s.stageIndex who)) ∈ (ascRead who s).1.2 := by
  rw [ascRead]
  dsimp only
  rw [if_neg (Nat.not_le.2 there)]
  exact ⟨rfl, rfl, mem_shown (Nat.le_refl 0) (by decide) rfl⟩

theorem ascReadCounters_shows : (ascReadCounters who s).2 = s ∧ (ascReadCounters who s).1.1 = .ok ∧
    (0, w32 (s.asRec (s.stageIndex who)).frames) ∈ (ascReadCounters who s).1.2 := by
  rw [ascReadCounters]
  dsimp only
  rw [if_neg (Nat.not_le.2 there)]
  exact ⟨rfl, rfl, mem_shown (Nat.le_refl 0) (by decide) rfl⟩

end Reads

/-! ### PIN and UNPIN (R253) -/

theorem bringIn_ready {s : State} {a : Nat} (h : s.ready a = true) : bringIn s a = s := if_pos (by rw [h]; rfl)

section Pins
variable {s : State} {who : Who} (there : s.stageIndex who < s.asc.size) (ours : s.hostDelegated who (s.stageIndex who) = false)
include there ours

theorem ascPin_free (free : (s.asRec (s.stageIndex who)).state = .free) : ascPin who s = ((.badState, []), s) := by
  rw [ascPin, onAssoc_acts _ there ours, if_pos free]

theorem ascPin_full (used : (s.asRec (s.stageIndex who)).state ≠ .free)
    (full : pinLimit < s.pinnedSlots + s.newPin (s.stageIndex who) false) : ascPin who s = ((.noSlot, []), s) := by
  rw [ascPin, onAssoc_acts _ there ours, if_neg used, if_pos full]

theorem ascPin_pins (used : (s.asRec (s.stageIndex who)).state ≠ .free)
    (room : s.pinnedSlots + s.newPin (s.stageIndex who) false ≤ pinLimit) {i : Nat} {x : Slot}
    (slot : (bringIn s (s.stageIndex who)).slotOf (s.stageIndex who) = some (i, x)) :
    ascPin who s = ((.ok, []), (bringIn s (s.stageIndex who)).modSlot i (fun x => { x with pinned := true })) := by
  rw [ascPin, onAssoc_acts _ there ours, if_neg used, if_neg (Nat.not_lt.2 room)]
  simp only [slot]

theorem ascUnpin_pinned {i : Nat} {x : Slot} (slot : s.slotOf (s.stageIndex who) = some (i, x)) (pinned : x.pinned = true) :
    ascUnpin who s = ((.ok, []), s.modSlot i (fun x => { x with pinned := false })) := by
  rw [ascUnpin, onAssoc_acts _ there ours]
  simp only [slot, pinned, if_true]

theorem ascUnpin_away (away : s.slotOf (s.stageIndex who) = none) : ascUnpin who s = ((.badState, []), s) := by
  rw [ascUnpin, onAssoc_acts _ there ours]
  simp only [away]

end Pins

/-! ### ADVANCE_PN (R259, R267, R284, R286) -/

/-- The device with a record of an earlier session recovered. -/
def recovered (s : State) (a : Nat) : State := if (s.asRec a).session ≠ s.session then recover s a else s

/-- The packet number that ADVANCE_PN's words name. -/
def stagedPn (s : State) (who : Who) : Nat := (s.stage? who 2).toNat * 2 ^ 32 + (s.stage? who 1).toNat

section Advances
variable {s : State} {who : Who} (there : s.stageIndex who < s.asc.size) (ours : s.hostDelegated who (s.stageIndex who) = false)
include there ours

theorem ascAdvance_receive (rx : (s.asRec (s.stageIndex who)).rx = true) : ascAdvance who s = ((.badState, []), s) := by
  have still : ¬ ((s.asRec (s.stageIndex who)).session ≠ s.session ∧ (s.asRec (s.stageIndex who)).rx = false ∧
      ((s.asRec (s.stageIndex who)).state = .live ∨ (s.asRec (s.stageIndex who)).state = .ready)) := by simp [rx]
  rw [ascAdvance, onAssoc_acts _ there ours]
  dsimp only
  rw [if_neg still]
  exact if_pos (Or.inl rx)

variable (tx : (s.asRec (s.stageIndex who)).rx = false)
  (usable : (s.asRec (s.stageIndex who)).state = .live ∨ (s.asRec (s.stageIndex who)).state = .ready)
  (tx' : ((recovered s (s.stageIndex who)).asRec (s.stageIndex who)).rx = false)
  (usable' : ((recovered s (s.stageIndex who)).asRec (s.stageIndex who)).state = .live ∨
    ((recovered s (s.stageIndex who)).asRec (s.stageIndex who)).state = .ready)
include tx usable tx' usable'

/-- On a transmit association in use the value and the persist under way decide. -/
theorem ascAdvance_transmit : ascAdvance who s =
    let a := s.stageIndex who
    let s' := recovered s a
    if stagedPn s who < (s'.asRec a).pn ∨ (s'.asRec a).top < stagedPn s who then ((.badArg, []), s')
    else match mget a s'.asc.persists with
      | some p => ((.ok, []), s'.modAsc (fun x => { x with persists := mput a { p with advance := some (stagedPn s who) } x.persists }))
      | none => ((.ok, []), advanceTo s' a (stagedPn s who)) := by
  have begun : (if (s.asRec (s.stageIndex who)).session ≠ s.session ∧ (s.asRec (s.stageIndex who)).rx = false ∧
      ((s.asRec (s.stageIndex who)).state = .live ∨ (s.asRec (s.stageIndex who)).state = .ready) then recover s (s.stageIndex who) else s) =
      recovered s (s.stageIndex who) := by simp only [recovered, tx, usable, and_true]
  have inUse : ¬ (((recovered s (s.stageIndex who)).asRec (s.stageIndex who)).rx = true ∨
      (((recovered s (s.stageIndex who)).asRec (s.stageIndex who)).state ≠ .live ∧
        ((recovered s (s.stageIndex who)).asRec (s.stageIndex who)).state ≠ .ready)) := by
    rintro (rx | ⟨live, ready⟩)
    · simp [tx'] at rx
    · exact usable'.elim live ready
  rw [ascAdvance, onAssoc_acts _ there ours]
  dsimp only
  rw [begun, if_neg inUse]
  rfl

theorem ascAdvance_badValue (bad : stagedPn s who < ((recovered s (s.stageIndex who)).asRec (s.stageIndex who)).pn ∨
      ((recovered s (s.stageIndex who)).asRec (s.stageIndex who)).top < stagedPn s who) :
    ascAdvance who s = ((.badArg, []), recovered s (s.stageIndex who)) :=
  (ascAdvance_transmit there ours tx usable tx' usable').trans (if_pos bad)

theorem ascAdvance_advances (above : ((recovered s (s.stageIndex who)).asRec (s.stageIndex who)).pn ≤ stagedPn s who)
    (below : stagedPn s who ≤ ((recovered s (s.stageIndex who)).asRec (s.stageIndex who)).top)
    (idle : mget (s.stageIndex who) (recovered s (s.stageIndex who)).asc.persists = none) :
    ascAdvance who s = ((.ok, []), advanceTo (recovered s (s.stageIndex who)) (s.stageIndex who) (stagedPn s who)) := by
  refine (ascAdvance_transmit there ours tx usable tx' usable').trans ((if_neg ?_).trans ?_)
  · rintro (low | high)
    exacts [Nat.not_lt.2 above low, Nat.not_lt.2 below high]
  · rw [idle]

end Advances

theorem advanceTo_leased {s : State} {a v : Nat} (within : v < (s.asRec a).reel) :
    advanceTo s a v = requestReel (rekeyCheck (s.modLive a (fun r => { r with pn := max r.pn v })) a) a := by
  rw [advanceTo, if_pos within]

theorem advanceTo_beyond {s : State} {a v : Nat} (beyond : (s.asRec a).reel ≤ v) :
    advanceTo s a v = requestReel (startPersist s a ((v / reelSize + 1) * reelSize) (some v)) a := by
  rw [advanceTo, if_neg (Nat.not_lt.2 beyond)]

/-! ### SET_SUCCESSOR (R286) -/

section Successors
variable {s : State} {who : Who} (there : s.stageIndex who < s.asc.size) (ours : s.hostDelegated who (s.stageIndex who) = false)
include there ours

theorem ascSuccessor_free (free : (s.asRec (s.stageIndex who)).state = .free) : ascSuccessor who s = ((.badState, []), s) := by
  rw [ascSuccessor, onAssoc_acts _ there ours, if_pos free]

variable (used : (s.asRec (s.stageIndex who)).state ≠ .free)
include used

theorem ascSuccessor_far (valid : (s.stage? who 1).getLsbD 31 = true) (far : s.asc.size ≤ bits (s.stage? who 1) 19 0) :
    ascSuccessor who s = ((.badIndex, []), s) := by
  rw [ascSuccessor, onAssoc_acts _ there ours, if_neg used, if_pos ⟨valid, far⟩]

theorem ascSuccessor_names (valid : (s.stage? who 1).getLsbD 31 = true) (near : bits (s.stage? who 1) 19 0 < s.asc.size) :
    ascSuccessor who s = ((.ok, []), s.modRec (s.stageIndex who) (fun r => { r with succ := some (bits (s.stage? who 1) 19 0) })) := by
  rw [ascSuccessor, onAssoc_acts _ there ours, if_neg used, if_neg (fun far => Nat.not_le.2 near far.2)]
  simp only [valid, if_true]

theorem ascSuccessor_none (invalid : (s.stage? who 1).getLsbD 31 = false) :
    ascSuccessor who s = ((.ok, []), s.modRec (s.stageIndex who) (fun r => { r with succ := none })) := by
  rw [ascSuccessor, onAssoc_acts _ there ours, if_neg used, if_neg (fun far => by simp only [invalid, Bool.false_eq_true, false_and] at far)]
  simp only [invalid, Bool.false_eq_true, if_false]

end Successors

end Sys2Proof.Machine
end

section
/-! SUPPORT. The operations on troupes and on the dissolve table (07 R274, R276, R278, R280, R283, R286, R287, R289). -/

namespace Sys2Proof.Machine

/-! ### JOIN and LEAVE (R276, R286) -/

section Members
variable {s : State} {who : Who} (there : s.stageIndex who < s.asc.size) (ours : s.hostDelegated who (s.stageIndex who) = false)
include there ours

theorem ascLeave_single (single : (s.asRec (s.stageIndex who)).troupe = none) : ascLeave who s = ((.badState, []), s) := by
  rw [ascLeave, onAssoc_acts _ there ours, if_pos (by rw [single]; rfl)]

section Leaves
variable (member : (s.asRec (s.stageIndex who)).troupe ≠ none)
include member

theorem ascLeave_covered (covered : s.memberCovered (s.stageIndex who) = true) : ascLeave who s = ((.inDissolve, []), s) := by
  rw [ascLeave, onAssoc_acts _ there ours, if_neg (by simpa using member), if_pos covered]

theorem ascLeave_leaves (uncovered : s.memberCovered (s.stageIndex who) = false) :
    ascLeave who s = ((.ok, []), s.modRec (s.stageIndex who) (fun r => { r with troupe := none })) := by
  rw [ascLeave, onAssoc_acts _ there ours, if_neg (by simpa using member), if_neg (by simp [uncovered])]

end Leaves

theorem ascJoin_free (free : (s.asRec (s.stageIndex who)).state = .free) : ascJoin who s = ((.badState, []), s) := by
  rw [ascJoin, onAssoc_acts _ there ours, if_pos free]

variable (used : (s.asRec (s.stageIndex who)).state ≠ .free)
include used

theorem ascJoin_unknown (unknown : (s.stage? who 1).getLsbD 31 = false ∨ s.troupe (bits (s.stage? who 1) 11 0) = false) :
    ascJoin who s = ((.badArg, []), s) := by
  rw [ascJoin, onAssoc_acts _ there ours, if_neg used, if_pos unknown]

variable (valid : (s.stage? who 1).getLsbD 31 = true) (known : s.troupe (bits (s.stage? who 1) 11 0) = true)
include valid known

theorem ascJoin_known : ascJoin who s =
    if s.memberCovered (s.stageIndex who) = true ∨ s.covered (bits (s.stage? who 1) 11 0) = true then ((.inDissolve, []), s)
    else ((.ok, []), s.modRec (s.stageIndex who) (fun r => { r with troupe := some (bits (s.stage? who 1) 11 0) })) := by
  have named : ¬ ((s.stage? who 1).getLsbD 31 = false ∨ s.troupe (bits (s.stage? who 1) 11 0) = false) := by rw [valid, known]; decide
  rw [ascJoin, onAssoc_acts _ there ours, if_neg used, if_neg named]

theorem ascJoin_covered (covered : s.memberCovered (s.stageIndex who) = true ∨ s.covered (bits (s.stage? who 1) 11 0) = true) :
    ascJoin who s = ((.inDissolve, []), s) := (ascJoin_known there ours used valid known).trans (if_pos covered)

theorem ascJoin_joins (apart : s.memberCovered (s.stageIndex who) = false) (uncovered : s.covered (bits (s.stage? who 1) 11 0) = false) :
    ascJoin who s = ((.ok, []), s.modRec (s.stageIndex who) (fun r => { r with troupe := some (bits (s.stage? who 1) 11 0) })) :=
  (ascJoin_known there ours used valid known).trans (if_neg (by rw [apart, uncovered]; decide))

end Members

/-! ### Troupes made, deleted and hung under others (R274, R276, R286) -/

/-- The troupe that word 0 names. -/
def stagedTroupe (s : State) (who : Who) : Nat := bits (s.stage? who 0) 11 0

section Troupes
variable {s : State} {who : Who}

theorem ascCreate_exists (known : s.troupe (stagedTroupe s who) = true) : ascCreate who s = ((.badState, []), s) := if_pos known

theorem stagedParent_known (valid : (s.stage? who 1).getLsbD 31 = true) (known : s.troupe (bits (s.stage? who 1) 11 0) = true) :
    stagedParent who s = some (some (bits (s.stage? who 1) 11 0)) :=
  (if_neg (by rw [valid]; decide)).trans (if_pos known)

section New
variable (new : s.troupe (stagedTroupe s who) = false)
include new

theorem ascCreate_new : ascCreate who s = match stagedParent who s with
    | none => ((.badArg, []), s)
    | some p => ((.ok, []), s.modAsc (fun x => { x with troupes := mput (stagedTroupe s who) p x.troupes })) :=
  if_neg (by rw [← stagedTroupe, new]; decide)

theorem ascCreate_orphan (none : stagedParent who s = none) : ascCreate who s = ((.badArg, []), s) := by
  rw [ascCreate_new new, none]

theorem ascCreate_creates {p : Option Nat} (parent : stagedParent who s = some p) :
    ascCreate who s = ((.ok, []), s.modAsc (fun x => { x with troupes := mput (stagedTroupe s who) p x.troupes })) := by
  rw [ascCreate_new new, parent]

theorem ascDelete_unknown : ascDelete who s = ((.badArg, []), s) := if_pos new

theorem ascParent_unknown : ascParent who s = ((.badArg, []), s) := if_pos new

end New

variable (known : s.troupe (stagedTroupe s who) = true)
include known

theorem ascDelete_filled (filled : s.asc.recs.any (fun p => p.2.troupe = some (stagedTroupe s who)) = true ∨
    s.asc.troupes.any (fun p => p.2 = some (stagedTroupe s who)) = true) : ascDelete who s = ((.notEmpty, []), s) :=
  (if_neg (by rw [← stagedTroupe, known]; decide)).trans (if_pos filled)

theorem ascDelete_deletes (unjoined : s.asc.recs.any (fun p => p.2.troupe = some (stagedTroupe s who)) = false)
    (childless : s.asc.troupes.any (fun p => p.2 = some (stagedTroupe s who)) = false) :
    ascDelete who s = ((.ok, []), s.modAsc (fun x => { x with troupes := mdel (stagedTroupe s who) x.troupes })) :=
  (if_neg (by rw [← stagedTroupe, known]; decide)).trans (if_neg (by rw [← stagedTroupe, unjoined, childless]; decide))

variable {q : Nat} (parent : stagedParent who s = some (some q))
include parent

theorem ascParent_known : ascParent who s =
    if s.under q (stagedTroupe s who) = true then ((.loop, []), s)
    else if s.covered (stagedTroupe s who) = true ∨ s.aboveCovered (stagedTroupe s who) = true ∨ s.covered q = true then ((.inDissolve, []), s)
    else ((.ok, []), s.modAsc (fun x => { x with troupes := mput (stagedTroupe s who) (some q) x.troupes })) := by
  refine (if_neg (by rw [← stagedTroupe, known]; decide)).trans ?_
  rw [parent]
  rfl

theorem ascParent_loop (loop : s.under q (stagedTroupe s who) = true) : ascParent who s = ((.loop, []), s) :=
  (ascParent_known known parent).trans (if_pos loop)

variable (above : s.under q (stagedTroupe s who) = false)
include above

theorem ascParent_covered (covered : s.covered (stagedTroupe s who) = true ∨ s.aboveCovered (stagedTroupe s who) = true ∨ s.covered q = true) :
    ascParent who s = ((.inDissolve, []), s) :=
  (ascParent_known known parent).trans ((if_neg (by rw [above]; decide)).trans (if_pos covered))

theorem ascParent_hangs (apart : s.covered (stagedTroupe s who) = false) (none : s.aboveCovered (stagedTroupe s who) = false)
    (free : s.covered q = false) :
    ascParent who s = ((.ok, []), s.modAsc (fun x => { x with troupes := mput (stagedTroupe s who) (some q) x.troupes })) :=
  (ascParent_known known parent).trans ((if_neg (by rw [above]; decide)).trans (if_neg (by rw [apart, none, free]; decide)))

end Troupes

/-! ### The dissolve table (R278, R283, R289) -/

section Table
variable {s : State} {who : Who}

theorem ascSchedule_refused {c : AscCode} (refused : scheduleRefusal who s (stagedDissolve who s) = some c) :
    ascSchedule who s = ((c, []), s) := by
  simp only [ascSchedule, refused]

section Accepted
variable (accepted : scheduleRefusal who s (stagedDissolve who s) = none)
include accepted

theorem ascSchedule_full (full : (List.range 256).find? (fun i => (s.dissolve i).phase = .free) = none) :
    ascSchedule who s = ((.tableFull, []), s) := by
  simp only [ascSchedule, accepted, full]

theorem ascSchedule_takes {i : Nat} (free : (List.range 256).find? (fun i => (s.dissolve i).phase = .free) = some i) :
    let t := s.modDissolve i (fun _ => stagedDissolve who s)
    ascSchedule who s = ((.ok, shown 6 [(9, w32 i)]), if (stagedDissolve who s).byPn then openOp i t else t) := by
  simp only [ascSchedule, accepted, free]

end Accepted

/-- The entry that word 0 names. -/
def stagedEntry (s : State) (who : Who) : Nat := bits (s.stage? who 0) 7 0

theorem ascCancel_free (free : (s.dissolve (stagedEntry s who)).phase = .free) : ascCancel who s = ((.badState, []), s) := by
  unfold stagedEntry at free
  simp only [ascCancel, free]

theorem ascCancel_frees (idle : (s.dissolve (stagedEntry s who)).phase = .waiting ∨ (s.dissolve (stagedEntry s who)).phase = .done) :
    ascCancel who s = ((.ok, []), s.modDissolve (stagedEntry s who) (fun _ => noDissolve)) := by
  unfold stagedEntry at idle ⊢
  rcases idle with phase | phase <;> simp only [ascCancel, phase]

theorem ascCancel_late (late : (s.dissolve (stagedEntry s who)).phase = .opened ∨ (s.dissolve (stagedEntry s who)).phase = .switched) :
    ascCancel who s = ((.late, []), s) := by
  unfold stagedEntry at late
  rcases late with phase | phase <;> simp only [ascCancel, phase]

theorem ascStatus_shows : (ascStatus who s).2 = s ∧ (ascStatus who s).1.1 = .ok ∧
    (9, w32 (s.dissolve (stagedEntry s who)).phase.num) ∈ (ascStatus who s).1.2 :=
  ⟨rfl, rfl, mem_shown (keep := 1) (w := 9) (by decide) (by decide) rfl⟩

end Table

end Sys2Proof.Machine

namespace Sys2Proof.Proofs
open Sys2Proof.Machine

/-- Settles O32: INSTALL by its refusals, each other operation by the record, the slot, the troupe or the entry that it names. -/
theorem associationCommandsAct : Obligations.AssociationCommandsAct := by
  constructor
  · intro s who key wk
    exact ⟨ascInstall_beyond, ascInstall_delegated, fun there ours => ⟨ascInstall_notReady there ours, ascInstall_used there ours,
        ascInstall_bad there ours, fun ready free good => ⟨ascInstall_far there ours ready free good,
          ascInstall_keyless there ours ready free good, fun near opens wraps => ⟨asRec_putRec _ _ _, putRec_onlyRec _ _ _,
            ascInstall_installs there ours ready free good near opens wraps⟩⟩⟩,
      installRec_pn s who _ _ key, rfl, rfl, rfl, rfl, rfl, rfl, rfl, rfl, rfl, rfl,
      installRec_wrapped s who _ _ key, installRec_emitter s who _ _ key⟩
  · intro s who there ours a r w e answers writes
    have written (op : Nat) {f : Rec → Rec} (h : ascOperate who op s = ((.ok, []), s.modRec a f)) : writes op (f r) :=
      ⟨_, h, modRec_writes s a f⟩
    refine ⟨⟨fun h => written 2 (ascActivate_ready there ours h), ascActivate_other there ours⟩,
      fun single => ⟨ascRetire_free there ours single, ascRetire_retiring there ours single, ascRetire_retires there ours single,
        fun _ unparked grounded => ?_⟩, ?_,
      ⟨ascPin_free there ours, ascPin_full there ours, fun i x used room slot => ascPin_pins there ours used room slot, bringIn_ready,
        fun i x => ascUnpin_pinned there ours, ascUnpin_away there ours⟩,
      ⟨ascAdvance_receive there ours, fun tx usable tx' usable' => ⟨ascAdvance_badValue there ours tx usable tx' usable',
          ascAdvance_advances there ours tx usable tx' usable'⟩,
        fun within => ⟨asRec_modLive s a _, advanceTo_leased within⟩, advanceTo_beyond⟩,
      ⟨ascSuccessor_free there ours, ascSuccessor_far there ours, fun used valid near => written 9 (ascSuccessor_names there ours used valid near),
        fun used invalid => written 9 (ascSuccessor_none there ours used invalid)⟩,
      ⟨ascJoin_free there ours, ascJoin_unknown there ours, fun used valid known => ⟨ascJoin_covered there ours used valid known,
          fun apart uncovered => written 10 (ascJoin_joins there ours used valid known apart uncovered)⟩,
        ascLeave_single there ours, ascLeave_covered there ours, fun member uncovered => written 11 (ascLeave_leaves there ours member uncovered)⟩,
      ⟨ascCreate_exists, fun new p => ascCreate_creates new, fun new => ⟨ascCreate_orphan new, ascDelete_unknown new, ascParent_unknown new⟩,
        ascDelete_filled, ascDelete_deletes, fun known valid parent => ?_⟩,
      ⟨fun c => ascSchedule_refused, fun accepted => ⟨ascSchedule_full accepted, fun i => ascSchedule_takes accepted⟩⟩,
      ascCancel_free, fun idle => ⟨_, ascCancel_frees idle, dissolve_modDissolve s e _, fun j ne => dissolve_modDissolve_ne s _ ne, rfl⟩,
      ascCancel_late, ascStatus_shows⟩
    · rw [retire_idle unparked grounded]
      exact ⟨asRec_retired, slotOf_retired, fun b ne => asRec_retired_ne ne⟩
    · obtain ⟨kept, ok, shown⟩ := ascRead_shows there
      obtain ⟨kept', ok', shown'⟩ := ascReadCounters_shows there
      exact ⟨kept, ok, kept', ok', shown, shown'⟩
    · have hung := stagedParent_known valid parent
      exact ⟨ascParent_loop known hung, ascParent_covered known hung, ascParent_hangs known hung⟩

end Sys2Proof.Proofs
end

section
/-! SUPPORT. The cipher farm's cores: what a change of one leaves of the others, their seeds, their service and their tests (08 R294 to
R296, R325). -/

namespace Sys2Proof.Machine

/-! ### Cores and rings after a change -/

section
variable {s t : State}

theorem OnlyRegs.frm_eq {offs : List Nat} (h : OnlyRegs offs s t) : t.frm = s.frm := (congrArg State.frm h.1).trans rfl

theorem OnlyRegs.withFrm {offs : List Nat} (h : OnlyRegs offs s t) (f : Frm) : OnlyRegs offs { s with frm := f } { t with frm := f } :=
  ⟨congrArg (fun x : State => { x with frm := f }) h.1, h.2⟩

theorem core_of_frm (h : t.frm = s.frm) (c : Nat) : t.core c = s.core c := congrArg (fun x : Frm => mlook noCore c x.cores) h

theorem ring_of_frm (h : t.frm = s.frm) (r : Nat) : t.ring r = s.ring r := congrArg (fun x : Frm => mlook RingPower.asleep r x.rings) h

theorem core_modCore (s : State) (c : Nat) (f : Core → Core) : (s.modCore c f).core c = f (s.core c) := mlook_mstore_same _ _ _ _

theorem core_modCore_ne (s : State) {c d : Nat} (f : Core → Core) (h : d ≠ c) : (s.modCore c f).core d = s.core d :=
  mlook_mstore_ne _ _ _ _ h

theorem ring_setRing (s : State) (r : Nat) (p : RingPower) : (s.setRing r p).ring r = p := mlook_mstore_same _ _ _ _

theorem settleCores_onlyRegs (s : State) : OnlyRegs [Reg.FRM_STS] s (settleCores s) := by
  have shown {u : State} (h : OnlyRegs [Reg.FRM_STS] s u) (p : Bool) {f : Field} (b : Bool) (m : f.off ∈ [Reg.FRM_STS]) :
      OnlyRegs [Reg.FRM_STS] s (if p = true then u.setFlag f b else u) := (h.setFlag m b).ite h
  have here : Reg.FRM_STS ∈ [Reg.FRM_STS] := List.mem_singleton_self _
  exact shown (f := Reg.FRM_STS_UNWRAP_FALLBACK) (shown (f := Reg.FRM_STS_DEC_CORES_OK)
    (shown (f := Reg.FRM_STS_ENC_CORES_OK) (.refl _ s) _ true here) _ true here) _ false here

theorem drbg_frm (few : s.vlt.requests + 1 < 2 ^ 20) : s.drbg.2.frm = s.frm := by
  rw [drbg_counted few]
  rfl

end

/-- Two changes of the farm are one. -/
theorem State.modFrm_modFrm (s : State) (f g : Frm → Frm) : (s.modFrm f).modFrm g = s.modFrm (fun x => g (f x)) := rfl

/-! ### A core's seed (R294) -/

section
variable {s : State} {c : Nat}

/-- The core with a seed of its own, its mask generator begun anew. -/
def coreSeeded (s : State) (c : Nat) : State :=
  s.drbg.2.modCore c (fun x => { x with seeded := true, seed := s.drbg.1.truncate 256, drawn := 0 })

theorem maskSeedOp_idle (h : s.vlt.drbgRun = false ∨ s.ring (c / 16) = .asleep) : maskSeedOp c s = s := if_pos h

theorem maskSeedOp_seeds (run : s.vlt.drbgRun = true) (up : s.ring (c / 16) ≠ .asleep) (few : s.vlt.requests + 1 < 2 ^ 20) :
    maskSeedOp c s = if (!(s.core c).inService && !(s.core c).seeded) = true then
      (coreSeeded s c).modFrm (fun x => { x with kat := ladd c x.kat }) else coreSeeded s c := by
  rw [maskSeedOp, if_neg (by simp [run, up]), ← core_of_frm (drbg_frm few) c]
  rfl

/-! ### A core that starves, and one that leaves (R294, R325) -/

theorem maskStarvedOp_idle (out : (s.core c).inService = false) : maskStarvedOp c s = s := if_pos out

theorem maskStarvedOp_starves (serves : (s.core c).inService = true) : maskStarvedOp c s = dealAll (raise0
    (((coreOut s c).modCore c (fun x => { x with seeded := false })).inc Reg.FRM_MASK_STALLS) 0x3003 c) := by
  rw [maskStarvedOp, if_neg (by simp [serves])]

/-- The core has left service, with nothing to do. -/
def coreLeft (s : State) (c : Nat) : State := s.modCore c (fun x => { x.wipe with inService := false, queue := [] })

/-- Slices that are dealt again are counted (R325). -/
def redealt (s : State) (n : Nat) : State := if n = 0 then s else s.bump Reg.FRM_REDEALT n

theorem coreOut_eq (s : State) (c : Nat) : coreOut s c = settleCores (redealt (coreLeft s c) (s.core c).queue.length) := rfl

theorem redealt_eq {n : Nat} (room : s.ctr Reg.FRM_REDEALT + n < 2 ^ 48) : (redealt s n).frm = s.frm ∧
    (redealt s n).ctr Reg.FRM_REDEALT = s.ctr Reg.FRM_REDEALT + n := by
  unfold redealt
  by_cases none : n = 0
  · simp [none]
  · rw [if_neg none, bump_below room]
    exact ⟨by rw [bumpRaw_below room], State.ctr_bumpRaw _ _ _ room⟩

theorem coreOut_leaves (room : s.ctr Reg.FRM_REDEALT + (s.core c).queue.length < 2 ^ 48) :
    (coreOut s c).core c = { (s.core c).wipe with inService := false, queue := [] } ∧
    (coreOut s c).ctr Reg.FRM_REDEALT = s.ctr Reg.FRM_REDEALT + (s.core c).queue.length := by
  have settled := settleCores_onlyRegs (redealt (coreLeft s c) (s.core c).queue.length)
  obtain ⟨frm, counted⟩ := redealt_eq (s := coreLeft s c) room
  rw [coreOut_eq]
  exact ⟨(core_of_frm (settled.frm_eq.trans frm) c).trans (core_modCore s c _),
    (congrArg (fun x : Cnt => mlook 0 Reg.FRM_REDEALT x.vals) settled.cnt_eq).trans counted⟩

/-! ### The end of a known-answer test (R296) -/

/-- The core whose test is over. -/
def testEnded (s : State) (c : Nat) : State := s.modFrm (fun x => { x with kat := ldel c x.kat, restore := ldel c x.restore })

theorem katDoneOp_idle (idle : s.inTest c = false) (pass : Bool) : katDoneOp c pass s = s := if_pos idle

theorem katDoneOp_ends (tested : s.inTest c = true) (pass : Bool) : katDoneOp c pass s = dealAll (settleBusy
    (if pass = true then settleCores ((testEnded s c).modCore c (fun x => { x with inService := true, seeded := true }))
      else katFail (testEnded s c) c) (c / 16)) := if_neg (by simp [tested])

theorem katDoneOp_passes (tested : s.inTest c = true) : katDoneOp c true s = dealAll (settleBusy
    (settleCores ((testEnded s c).modCore c (fun x => { x with inService := true, seeded := true }))) (c / 16)) := by
  rw [katDoneOp_ends tested, if_pos rfl]

theorem katDoneOp_fails (tested : s.inTest c = true) : katDoneOp c false s = dealAll (settleBusy
    (raise0 ((coreOut (testEnded s c) c).inc Reg.FRM_KAT_FAILS) 0x3002 c) (c / 16)) := by
  rw [katDoneOp_ends tested, if_neg Bool.false_ne_true, katFail]

/-! ### A direction without cores (R325) -/

theorem noCoresOp_served {d : Dir} (h : s.coresServe d = true) : noCoresOp d s = s := if_pos h

theorem noCoresOp_enc (h : s.coresServe .enc = false) :
    noCoresOp .enc s = raise0 (s.setFlag Reg.FRM_STS_ENC_CORES_OK false) 0x3007 0 := if_neg (by simp [h])

theorem noCoresOp_dec (h : s.coresServe .dec = false) :
    noCoresOp .dec s = raise0 (s.setFlag Reg.FRM_STS_DEC_CORES_OK false) 0x3007 1 := if_neg (by simp [h])

end

end Sys2Proof.Machine
end

section
/-! SUPPORT. The cipher farm's rings: how they wake and sleep, and the commands that test their cores and restore them (08 R294 to R296,
R300, R301, R329). -/

namespace Sys2Proof.Machine

/-! ### A ring has woken (R294, R296, R300) -/

section
variable {s : State} {r : Nat}

/-- The core of a woken ring that passed its test: in service, idle, with a seed of its own. -/
def coreWoken (s : State) (c : Nat) : State :=
  s.drbg.2.modCore c (fun _ => { noCore with inService := true, seeded := true, seed := s.drbg.1.truncate 256 })

/-- The ring is awake, and its wake no longer asked for. -/
def ringUp (s : State) (r : Nat) : State :=
  (s.setRing r .awake).modFrm (fun x => { x with wakeAsked := if x.wakeAsked = some r then none else x.wakeAsked })

theorem ringWakeDoneOp_idle (h : s.ring r ≠ .waking) (pass : BitVec 16) : ringWakeDoneOp r pass s = s := if_pos h

theorem allCores_getLsbD (c : Nat) : (0xFFFF : BitVec 16).getLsbD (c % 16) = true :=
  (by decide : ∀ i < 16, (0xFFFF : BitVec 16).getLsbD i = true) _ (Nat.mod_lt _ (by decide))

/-- The core of a woken ring after its test, with a seed where the generator gives one. -/
def coreTested (seed : Bool) (pass : BitVec 16) (s : State) (c : Nat) : State :=
  let v := if seed then s.drbg else (0, s)
  let t := v.2.modCore c (fun _ => { noCore with inService := seed && pass.getLsbD (c % 16), seeded := seed, seed := v.1.truncate 256 })
  if pass.getLsbD (c % 16) then t else katFail t c

theorem ringWakeDoneOp_tests (waking : s.ring r = .waking) (pass : BitVec 16) : ringWakeDoneOp r pass s = dealAll (endTestWake (settleBusy
    (settleCores ((ringCores r).foldl (coreTested s.vlt.drbgRun pass) (ringUp s r))) r) r) := if_neg (by simp [waking])

theorem coreTested_passes : coreTested true 0xFFFF = coreWoken := by
  funext s c
  simp only [coreTested, allCores_getLsbD, if_true, Bool.and_self]
  rfl

theorem ringWakeDoneOp_wakes (waking : s.ring r = .waking) (run : s.vlt.drbgRun = true) : ringWakeDoneOp r 0xFFFF s =
    dealAll (endTestWake (settleBusy (settleCores ((ringCores r).foldl coreWoken (ringUp s r))) r) r) := by
  rw [ringWakeDoneOp_tests waking, run, coreTested_passes]

/-- A core that serves and has nothing to do yet. -/
def Core.servesIdle (x : Core) : Prop := x.inService = true ∧ x.seeded = true ∧ x.queue = []

section
variable (few : s.vlt.requests + 1 < 2 ^ 20) (c : Nat)
include few

theorem coreWoken_ring : (coreWoken s c).ring r = s.ring r := ring_of_frm (drbg_frm few) r

theorem coreWoken_requests : (coreWoken s c).vlt.requests = s.vlt.requests + 1 :=
  congrArg (fun x : State => x.vlt.requests) (drbg_counted few)

theorem coreWoken_ne {d : Nat} (h : d ≠ c) : (coreWoken s c).core d = s.core d :=
  (core_modCore_ne _ _ h).trans (core_of_frm (drbg_frm few) d)

end

theorem coreWoken_servesIdle (s : State) (c : Nat) : ((coreWoken s c).core c).servesIdle := by
  rw [coreWoken, core_modCore]
  exact ⟨rfl, rfl, rfl⟩

/-- As long as the generator need not reseed, the cores woken serve, and the ring's power and the other cores stay. -/
theorem coresWoken_leaves (l : List Nat) (few : s.vlt.requests + l.length < 2 ^ 20) :
    (l.foldl coreWoken s).ring r = s.ring r ∧ (∀ c, c ∈ l ∨ (s.core c).servesIdle → ((l.foldl coreWoken s).core c).servesIdle) ∧
    ∀ c, c ∉ l → (l.foldl coreWoken s).core c = s.core c := by
  induction l generalizing s with
  | nil => exact ⟨rfl, fun c h => h.resolve_left List.not_mem_nil, fun _ _ => rfl⟩
  | cons d l ih =>
    rw [List.length_cons] at few
    have one : s.vlt.requests + 1 < 2 ^ 20 := by omega
    obtain ⟨power, woken, others⟩ := ih (s := coreWoken s d) (by rw [coreWoken_requests one]; omega)
    refine ⟨power.trans (coreWoken_ring one d), fun c h => woken c ?_, fun c h => ?_⟩
    · by_cases e : c = d
      · exact .inr (e ▸ coreWoken_servesIdle s d)
      · rw [coreWoken_ne one d e]
        exact h.imp_left fun m => (List.mem_cons.1 m).resolve_left e
    · rw [List.mem_cons, not_or] at h
      exact (others c h.2).trans (coreWoken_ne one d h.1)

theorem ringUp_ring (s : State) (r : Nat) : (ringUp s r).ring r = .awake := ring_setRing s r .awake

/-! ### A ring goes to sleep (R295, R301) -/

theorem ringSleepAckOp_sleeps (drains : s.ring r = .draining) (idle : (ringCores r).all (fun c => decide ((s.core c).queue = [])) = true) :
    ringSleepAckOp r s = ringOff s r := if_pos ⟨drains, idle⟩

theorem ringSleepAckOp_stays (h : s.ring r ≠ .draining ∨ (ringCores r).all (fun c => decide ((s.core c).queue = [])) = false) :
    ringSleepAckOp r s = s := if_neg fun both => h.elim (fun other => other both.1) (fun busy => by simp [busy] at both)

/-- Each of these cores holds nothing. -/
def coresCleared (l : List Nat) (s : State) : State := l.foldl (fun s c => s.modCore c (fun _ => noCore)) s

theorem coresCleared_ring (l : List Nat) (s : State) (r : Nat) : (coresCleared l s).ring r = s.ring r :=
  foldl_keeps (f := fun s c => s.modCore c (fun _ => noCore)) (fun t => t.ring r) (fun _ _ _ => rfl) s

theorem coresCleared_core {l : List Nat} {c : Nat} (h : c ∈ l) (s : State) : (coresCleared l s).core c = noCore :=
  foldl_reaches (fun t => t.core c) (fun t => core_modCore t c _) (fun t _ ne => core_modCore_ne t _ ne.symm) h s

theorem ringOff_frm (s : State) (r : Nat) : (ringOff s r).frm = (coresCleared (ringCores r) (s.setRing r .asleep)).frm := by
  have settled : ringOff s r = settleCores (coresCleared (ringCores r) (s.setRing r .asleep)) := rfl
  rw [settled, (settleCores_onlyRegs _).frm_eq]

theorem ringOff_ring (s : State) (r : Nat) : (ringOff s r).ring r = .asleep :=
  (ring_of_frm (ringOff_frm s r) r).trans ((coresCleared_ring _ _ r).trans (ring_setRing s r .asleep))

theorem ringOff_core (s : State) {c : Nat} (h : c ∈ ringCores r) : (ringOff s r).core c = noCore :=
  (core_of_frm (ringOff_frm s r) c).trans (coresCleared_core h _)

end

/-! ### A sleeping ring wakes (R300, R301) -/

/-- The farm with ring r waking, for whatever work there is. -/
def Frm.wakes (x : Frm) (r : Nat) : Frm := { x with testWake := ldel r x.testWake, rings := mstore .asleep r .waking x.rings }

theorem ringWake_asleep {s : State} {r : Nat} (h : s.ring r = .asleep) : ringWake s r = s.modFrm (fun x => x.wakes r) := by
  have power : (s.modFrm (fun x => { x with testWake := ldel r x.testWake })).ring r = .asleep := h
  rw [ringWake, power]
  rfl

theorem Frm.wakes_ring (x : Frm) (r : Nat) : mlook .asleep r (x.wakes r).rings = .waking :=
  mlook_mstore_same RingPower.asleep r .waking x.rings

/-! ### KAT and RESTORE (R296, R301, R329) -/

theorem ringWord_kat (kat : Bool) (cores : BitVec 16) : decide (fieldOf (Reg.FRM_RING_CMD_KAT 0) (ringWord kat cores) = 1) = kat := by
  have field : fieldOf (Reg.FRM_RING_CMD_KAT 0) (ringWord kat cores) = b2n kat :=
    fieldOf_word_at [] rfl (by decide) (by decide) (by cases kat <;> decide)
  rw [field]
  cases kat <;> rfl

theorem ringWord_restore (kat : Bool) (cores : BitVec 16) :
    decide (fieldOf (Reg.FRM_RING_CMD_RESTORE 0) (ringWord kat cores) = 1) = !kat := by
  have field : fieldOf (Reg.FRM_RING_CMD_RESTORE 0) (ringWord kat cores) = b2n (!kat) :=
    fieldOf_word_at [_] rfl (by decide) (by decide) (by cases kat <;> decide)
  rw [field]
  cases kat <;> rfl

theorem ringWord_cores (kat : Bool) (cores : BitVec 16) : fieldOf (Reg.FRM_RING_CMD_CORES 0) (ringWord kat cores) = cores.toNat :=
  fieldOf_word_at [_, _] rfl (by decide) (by decide) cores.isLt

/-- The cores of a ring that a command names, of those that it is for. -/
def State.coresNamed (s : State) (r : Nat) (cores : BitVec 16) (p : Core → Bool) : List Nat :=
  (ringCores r).filter (fun c => nbit cores.toNat (c % 16) && p (s.core c))

/-- A core that may return to service by RESTORE. -/
def Core.restorable (x : Core) : Bool := !x.inService && x.seeded

/-- Cores join a list, each once. -/
def coresJoin (cs l : List Nat) : List Nat := cs.foldl (fun l c => ladd c l) l

/-- What a command that a ring takes leaves: its register stored with BUSY, and the farm changed. -/
def ringTaken (s : State) (r : Nat) (val : Word) (f : Frm → Frm) : State :=
  ((storeReg (Reg.FRM_RING_CMD r) val s).modFrm f).setFlag (Reg.FRM_RING_CMD_BUSY r) true

section
variable {s : State} {r : Nat} {cores : BitVec 16}

theorem ringCmdWrite_busy (busy : s.flag (Reg.FRM_RING_CMD_BUSY r) = true) (kat : Bool) :
    ringCmdWrite r (ringWord kat cores) s = s.inc Reg.CTL_FAULT_BUSY := by
  refine if_pos ?_
  rw [busy, ringWord_kat, ringWord_restore]
  cases kat <;> rfl

theorem ringTaken_busy (s : State) (r : Nat) (val : Word) (f : Frm → Frm) : (ringTaken s r val f).flag (Reg.FRM_RING_CMD_BUSY r) = true :=
  State.flag_setFlag _ _ _ rfl (show 29 < 32 by decide)

section
variable (unlocked : mlook 0 (Reg.FRM_RING_CMD r) s.locks = 0) (val : Word)
include unlocked

theorem ringStored_frm : (storeReg (Reg.FRM_RING_CMD r) val s).frm = s.frm :=
  (onlyRegs_storeReg (List.mem_singleton_self _) unlocked val).frm_eq

theorem ringTaken_frm (f : Frm → Frm) : (ringTaken s r val f).frm = f s.frm := congrArg f (ringStored_frm unlocked val)

theorem ringTaken_onlyRegs (f : Frm → Frm) :
    OnlyRegs [Reg.FRM_RING_CMD r] { s with frm := (ringTaken s r val f).frm } (ringTaken s r val f) :=
  ((onlyRegs_storeReg (List.mem_singleton_self _) unlocked val).withFrm _).setFlag (f := Reg.FRM_RING_CMD_BUSY r)
    (List.mem_singleton_self _) true

theorem coresNamed_stored (p : Core → Bool) : ((ringCores r).filter (fun c => nbit cores.toNat (c % 16))).filter
    (fun c => p ((storeReg (Reg.FRM_RING_CMD r) val s).core c)) = s.coresNamed r cores p := by
  simp only [List.filter_filter, core_of_frm (ringStored_frm unlocked val), State.coresNamed, Bool.and_comm]

end

section
variable (unlocked : mlook 0 (Reg.FRM_RING_CMD r) s.locks = 0) (idle : s.flag (Reg.FRM_RING_CMD_BUSY r) = false)
include unlocked idle

theorem ringCmdWrite_kat : ringCmdWrite r (ringWord true cores) s =
    let named := s.coresNamed r cores Core.inService
    let u := storeReg (Reg.FRM_RING_CMD r) (ringWord true cores) s
    let w := if s.ring r = .asleep then (ringWake u r).modFrm (fun x => { x with testWake := ladd r x.testWake }) else u
    let t := w.modFrm (fun x => { x with kat := coresJoin named x.kat })
    if s.ring r = .asleep ∨ named ≠ [] then t.setFlag (Reg.FRM_RING_CMD_BUSY r) true else t := by
  have power := ring_of_frm (ringStored_frm unlocked (ringWord true cores)) r
  have named := coresNamed_stored (cores := cores) unlocked (ringWord true cores) Core.inService
  simp only [ringCmdWrite, idle, ringWord_kat, ringWord_restore, ringWord_cores, named, power,
    Bool.not_true, Bool.or_false, Bool.and_false, Bool.false_eq_true, if_false, if_true, Bool.true_and, ne_eq,
    not_true_eq_false, decide_false, Bool.or_eq_true, decide_eq_true_eq, List.foldl_nil, coresJoin]

theorem ringCmdWrite_restore : ringCmdWrite r (ringWord false cores) s =
    let named := s.coresNamed r cores Core.restorable
    let t := (storeReg (Reg.FRM_RING_CMD r) (ringWord false cores) s).modFrm (fun x => { x with restore := coresJoin named x.restore })
    if named ≠ [] then t.setFlag (Reg.FRM_RING_CMD_BUSY r) true else t := by
  have named := coresNamed_stored (cores := cores) unlocked (ringWord false cores) Core.restorable
  simp only [Core.restorable] at named
  simp only [ringCmdWrite, idle, ringWord_kat, ringWord_restore, ringWord_cores, named,
    Bool.not_false, Bool.and_false, Bool.false_eq_true, if_false, if_true, Bool.false_and, ne_eq,
    not_true_eq_false, decide_false, Bool.or_self, Bool.false_or, decide_eq_true_eq, List.foldl_nil, coresJoin]

theorem ringKat_tests (up : s.ring r ≠ .asleep) (named : s.coresNamed r cores Core.inService ≠ []) :
    ringCmdWrite r (ringWord true cores) s = ringTaken s r (ringWord true cores) (fun x => { x with
      kat := coresJoin (s.coresNamed r cores Core.inService) x.kat }) := by
  simp only [ringCmdWrite_kat unlocked idle, if_neg up, if_pos (Or.inr named), ringTaken]

/-- The farm with a sleeping ring waking for a test of cores. -/
def Frm.wakesFor (x : Frm) (r : Nat) (cores : List Nat) : Frm :=
  { x.wakes r with testWake := ladd r (x.wakes r).testWake, kat := coresJoin cores (x.wakes r).kat }

theorem ringKat_wakes (down : s.ring r = .asleep) : ringCmdWrite r (ringWord true cores) s =
    ringTaken s r (ringWord true cores) (fun x => x.wakesFor r (s.coresNamed r cores Core.inService)) := by
  have power := (ring_of_frm (ringStored_frm unlocked (ringWord true cores)) r).trans down
  simp only [ringCmdWrite_kat unlocked idle, if_pos down, if_pos (Or.inl down), ringWake_asleep power, State.modFrm_modFrm,
    ringTaken, Frm.wakesFor]

theorem ringRestore_returns (named : s.coresNamed r cores Core.restorable ≠ []) :
    ringCmdWrite r (ringWord false cores) s = ringTaken s r (ringWord false cores) (fun x => { x with
      restore := coresJoin (s.coresNamed r cores Core.restorable) x.restore }) := by
  simp only [ringCmdWrite_restore unlocked idle, if_pos named, ringTaken]

end

theorem ringTaken_wakesFor (unlocked : mlook 0 (Reg.FRM_RING_CMD r) s.locks = 0) (val : Word) (named : List Nat) :
    (ringTaken s r val (fun x => x.wakesFor r named)).ring r = .waking ∧
    r ∈ (ringTaken s r val (fun x => x.wakesFor r named)).frm.testWake := by
  rw [State.ring, ringTaken_frm unlocked]
  exact ⟨Frm.wakes_ring s.frm r, mem_ladd r _⟩

end

end Sys2Proof.Machine
end

section
/-! SUPPORT. The carousel's load and the keys without a verdict (08 R300, R317), and what the farm's commands come to. -/

namespace Sys2Proof.Machine

/-! ### The carousel's load (R300) -/

section
variable {s : State} {r : Nat}

/-- The cores that could take a slice of the datapath now. -/
def State.readyCores (s : State) : SMap Core :=
  s.frm.cores.filter (fun p => p.2.inService && decide (s.ring (p.1 / 16) = .awake) && s.dataRing (p.1 / 16))

/-- How many of them work. -/
def State.busyCores (s : State) : Nat := (s.readyCores.filter (fun p => decide (p.2.queue ≠ []))).length

/-- The load lies above WAKE_TH, or there is work and no core for it. -/
def State.loadHigh (s : State) : Prop :=
  s.wakeTh * s.readyCores.length < s.busyCores * 100 ∨ (s.readyCores = [] ∧ s.load .enc + s.load .dec ≠ 0)

/-- The load is measured: the ticks of a low one count on, or end. -/
def loadMeasured (s : State) : State :=
  s.modFrm (fun x => { x with lowTicks := if s.busyCores * 100 < s.sleepTh * s.readyCores.length then x.lowTicks + 1 else 0 })

/-- The direction with more slices waiting. -/
def State.busierDir (s : State) : Dir := if s.load .enc < s.load .dec then .dec else .enc

/-- The sleeping ring that a high load wakes. -/
def State.sleeper (s : State) : Option Nat :=
  (List.range 32).find? (fun q => decide (s.ring q = .asleep) && s.ringServes q s.busierDir)

/-- The ring that a low load lets go. -/
def State.goer (s : State) : Option Nat :=
  (List.range 32).reverse.find? (fun q => decide (s.ring q = .awake) && s.dataRing q &&
    !s.flag (Reg.FRM_RING_CFG_KEEP_AWAKE q) && s.ringMaySleep q)

/-- The load has been low for long enough, and the gaffer acts on it. -/
def State.lowLong (s : State) : Prop :=
  max 1 (s.get Reg.FRM_CFG_SLEEP_HOLD_US) ≤ (loadMeasured s).frm.lowTicks ∧ s.get Reg.GAF_STS_STATE ≠ 0

theorem loadHigh_iff : (decide (s.wakeTh * s.readyCores.length < s.busyCores * 100) ||
    (decide (s.readyCores = []) && decide (s.load .enc + s.load .dec ≠ 0))) = true ↔ s.loadHigh := by
  simp only [Bool.or_eq_true, Bool.and_eq_true, decide_eq_true_eq, State.loadHigh]

theorem loadTickOp_high (high : s.loadHigh) : loadTickOp s =
    if s.frm.wakeAsked.isSome = true then loadMeasured s
    else match s.sleeper with
      | some r => ringWake ((loadMeasured s).modFrm (fun x => { x with wakeAsked := some r })) r
      | none => loadMeasured s := by
  simp only [loadTickOp, decide_eq_true_eq]
  exact if_pos (loadHigh_iff.2 high)

theorem loadTickOp_notHigh (low : ¬ s.loadHigh) : loadTickOp s =
    if max 1 (s.get Reg.FRM_CFG_SLEEP_HOLD_US) ≤ (loadMeasured s).frm.lowTicks ∧ s.get Reg.GAF_STS_STATE ≠ 0 then
      match s.goer with
      | some r => ringSleep (loadMeasured s) r
      | none => loadMeasured s
    else loadMeasured s := by
  simp only [loadTickOp, decide_eq_true_eq]
  exact if_neg (mt loadHigh_iff.1 low)

theorem loadTick_noWake (high : s.loadHigh) (h : s.frm.wakeAsked ≠ none ∨ s.sleeper = none) : loadTickOp s = loadMeasured s := by
  rw [loadTickOp_high high]
  rcases h with asked | none
  · exact if_pos (Option.isSome_iff_ne_none.2 asked)
  · rw [none]
    exact ite_self _

theorem loadTick_wakes (high : s.loadHigh) (unasked : s.frm.wakeAsked = none) (found : s.sleeper = some r) :
    loadTickOp s = ringWake ((loadMeasured s).modFrm (fun x => { x with wakeAsked := some r })) r := by
  rw [loadTickOp_high high, unasked, found]
  rfl

theorem sleeper_wakes (found : s.sleeper = some r) :
    (ringWake ((loadMeasured s).modFrm (fun x => { x with wakeAsked := some r })) r).ring r = .waking := by
  have down : s.ring r = .asleep := by
    have serves := List.find?_some found
    rw [Bool.and_eq_true, decide_eq_true_eq] at serves
    exact serves.1
  rw [ringWake_asleep (s := (loadMeasured s).modFrm (fun x => { x with wakeAsked := some r })) down]
  exact Frm.wakes_ring _ r

theorem loadTick_noSleep (low : ¬ s.loadHigh) (h : ¬ s.lowLong ∨ s.goer = none) : loadTickOp s = loadMeasured s := by
  rw [loadTickOp_notHigh low]
  rcases h with early | none
  · exact if_neg early
  · rw [none]
    exact ite_self _

theorem loadTick_sleeps (low : ¬ s.loadHigh) (late : s.lowLong) (found : s.goer = some r) :
    loadTickOp s = (loadMeasured s).setRing r .draining := by
  have up : s.ring r = .awake := by
    have goes := List.find?_some found
    simp only [Bool.and_eq_true, decide_eq_true_eq] at goes
    exact goes.1.1.1
  rw [loadTickOp_notHigh low, found]
  exact (if_pos late).trans (if_pos up)

end

/-! ### A verdict that is late (R317) -/

section
variable {s : State} {i : Nat} {x : Slot}

theorem gateTimeoutOp_due (held : mget i s.asc.slots = some x) (due : x.verdictDue = true) :
    gateTimeoutOp i s = raise s 0x3004 i x.assoc none := by simp only [gateTimeoutOp, held, due, if_true]

theorem gateTimeoutOp_taken (held : mget i s.asc.slots = some x) (taken : x.verdictDue = false) : gateTimeoutOp i s = s := by
  simp only [gateTimeoutOp, held, taken, Bool.false_eq_true, if_false]

theorem gateTimeoutOp_free (free : mget i s.asc.slots = none) : gateTimeoutOp i s = s := by simp only [gateTimeoutOp, free]

end

/-! ### The commands -/

section
variable {s t : State} {cmd : Instr} {op : State → State}

theorem live_next (run : s.running = true) (e : exec cmd s = .next (live op s)) (h : op s = t) : exec cmd s = .next t := by
  rw [e, live_acts op run, h]

theorem owner_next {who : Who} {off : Nat} (serves : Serves s who) (e : exec cmd s = .next (gateOwner who off op s)) (h : op s = t) :
    exec cmd s = .next t := by
  rw [e, gateOwner_acts off op serves, h]

end

end Sys2Proof.Machine

namespace Sys2Proof.Proofs
open Sys2Proof.Machine

/-- Settles O35: each command by the branch of its operation that the core's, the ring's or the load's state selects. -/
theorem farmServes : Obligations.FarmServes := by
  constructor
  · intro s c run r seeds
    refine ⟨fun gen up few => ⟨fun known => ?_, fun out bare => ?_⟩, fun idle => live_next run rfl (maskSeedOp_idle idle),
      fun serves => live_next run rfl (maskStarvedOp_starves serves), fun out => live_next run rfl (maskStarvedOp_idle out), coreOut_leaves,
      fun tested => ⟨live_next run rfl (katDoneOp_passes tested), live_next run rfl (katDoneOp_fails tested)⟩,
      fun idle => ⟨live_next run rfl (katDoneOp_idle idle true), live_next run rfl (katDoneOp_idle idle false)⟩,
      fun none => live_next run rfl (noCoresOp_enc none), fun none => live_next run rfl (noCoresOp_dec none),
      fun d served => live_next run rfl (noCoresOp_served served)⟩
    · refine live_next run rfl ((maskSeedOp_seeds gen up few).trans (if_neg ?_))
      rcases known with serves | seeded
      · simp [serves]
      · simp [seeded]
    · exact live_next run rfl ((maskSeedOp_seeds gen up few).trans (if_pos (by simp [out, bare])))
  · intro s who r cores slot x serves unlocked
    have run := serves.1.1
    refine ⟨fun other => live_next run rfl (ringWakeDoneOp_idle other cores), fun waking gen all few => ?_,
      fun drains idle => ⟨live_next run rfl (ringSleepAckOp_sleeps drains idle), ringOff_ring s r, fun c => ringOff_core s⟩,
      fun h => live_next run rfl (ringSleepAckOp_stays h),
      fun busy => ⟨owner_next serves rfl (ringCmdWrite_busy busy true), owner_next serves rfl (ringCmdWrite_busy busy false)⟩,
      fun idle => ⟨fun up named => ⟨_, owner_next serves rfl (ringKat_tests unlocked idle up named), ringTaken_busy _ _ _ _,
          ringTaken_frm unlocked _ _, ringTaken_onlyRegs unlocked _ _⟩,
        fun down => ?_,
        fun named => ⟨_, owner_next serves rfl (ringRestore_returns unlocked idle named), ringTaken_busy _ _ _ _,
          ringTaken_frm unlocked _ _, ringTaken_onlyRegs unlocked _ _⟩⟩,
      ⟨fun high h => live_next run rfl (loadTick_noWake high h),
        fun high unasked found => ⟨live_next run rfl (loadTick_wakes high unasked found), sleeper_wakes found⟩,
        fun low h => live_next run rfl (loadTick_noSleep low h), fun low late found => live_next run rfl (loadTick_sleeps low late found)⟩,
      fun held due => live_next run rfl (gateTimeoutOp_due held due), fun held taken => live_next run rfl (gateTimeoutOp_taken held taken),
      fun free => live_next run rfl (gateTimeoutOp_free free)⟩
    · subst all
      obtain ⟨power, woken, others⟩ := coresWoken_leaves (s := ringUp s r) (r := r) (ringCores r) few
      exact ⟨_, live_next run rfl (ringWakeDoneOp_wakes waking gen), power.trans (ringUp_ring s r), fun c m => woken c (.inl m), others⟩
    · obtain ⟨power, asked⟩ := ringTaken_wakesFor unlocked (ringWord true cores) (s.coresNamed r cores Core.inService)
      exact ⟨_, owner_next serves rfl (ringKat_wakes unlocked idle down), ringTaken_busy _ _ _ _, power, asked,
        ringTaken_onlyRegs unlocked _ _⟩

end Sys2Proof.Proofs
end

section
/-! SUPPORT. The step that meets no command: one tick of the model's clock and of the free-running counter (10 R364). -/

namespace Sys2Proof.Machine
variable {s : State}

/-- No command waits: the step is the tick (the model's choice, log 14). -/
theorem step_idle (idle : s.pending = []) : step s = .next (tick s) := by
  unfold step
  rw [idle]

/-- Neither the model's clock nor the time unit decides whether a frame waits for a tracker entry (R315). -/
@[simp] theorem trackerWaits_clk_tim (c : Nat) (x : Tim) : ({ s with clk := c, tim := x } : State).trackerWaits = s.trackerWaits := rfl

/-- Whether FRC runs hangs on the device's condition, its stage and its power, which the model's clock leaves (R364). -/
@[simp] theorem frcRuns_clk (c : Nat) : ({ s with clk := c } : State).frcRuns = s.frcRuns := rfl

/-- While no frame waits for a tracker entry, a tick counts on the model's clock and, where it runs, on FRC (R315, R364). -/
theorem tick_counts (free : s.trackerWaits = false) :
    tick s = { s with clk := s.clk + 1, tim := if s.frcRuns then { s.tim with frc := s.tim.frc + 1 } else s.tim } := by
  unfold tick
  cases runs : s.frcRuns with
  | true => simp [runs, free]
  | false => simp [runs, free]

end Sys2Proof.Machine

namespace Sys2Proof.Proofs
open Sys2Proof.Machine

/-- Settles O2: the step is the tick, and a tick without a waiting frame only counts. -/
theorem idleStepTicks : Obligations.IdleStepTicks := fun _ idle free =>
  (step_idle idle).trans (congrArg Host.Outcome.next (tick_counts free))

end Sys2Proof.Proofs
end

section
/-! SUPPORT. Guarded accesses: what a completed read, a completed write and the two takings of a verdict do, by what they meet
(11 R402, R414 to R418, R428). -/

namespace Sys2Proof.Machine

/-! ### The record of a halt (R416, R428) -/

section Halt
variable (s : State) (level line : Nat)

theorem haltRec_onlyRegs (ev : Nat) : OnlyRegs [Reg.MGD_HALT_REC, Reg.MGD_HALT_REC1, Reg.MGD_HALT_REC2] s (haltRec s ev level line) :=
  (((OnlyRegs.refl _ s).wr (by decide) _).wr (by decide) _).wr (by decide) _

theorem haltRec_low (ev : Nat) : (haltRec s ev level line).rd Reg.MGD_HALT_REC1 = w32 (s.pathOffset level line) :=
  (State.rd_wr_ne _ _ (by decide)).trans (State.rd_wr _ _ _)

theorem haltRec_high (ev : Nat) : (haltRec s ev level line).rd Reg.MGD_HALT_REC2 = w32 (s.pathOffset level line / 2 ^ 32) :=
  State.rd_wr _ _ _

/-- A field of the record's first word is what the word was put together with. -/
theorem haltRec_field (ev : Nat) {f : Field} (h : f.off = Reg.MGD_HALT_REC) : (haltRec s ev level line).get f = fieldOf f
    (word [(Reg.MGD_HALT_REC_VALID, 1), (Reg.MGD_HALT_REC_LEVEL, level), (Reg.MGD_HALT_REC_EVENT, ev)]) := by
  unfold haltRec
  dsimp only
  rw [State.get_wr_ne _ _ _ (by rw [h]; decide), State.get_wr_ne _ _ _ (by rw [h]; decide), ← h, State.get_wr]
  rfl

variable {s level line} {ev : Nat}

theorem haltRec_valid : (haltRec s ev level line).flag Reg.MGD_HALT_REC_VALID = true := by
  have one : (haltRec s ev level line).get Reg.MGD_HALT_REC_VALID = 1 :=
    (haltRec_field _ _ _ _ rfl).trans (fieldOf_word_at [] rfl (by decide) (by decide) (by decide))
  rw [State.flag, one]
  rfl

theorem haltRec_level (small : level < 2 ^ 8) : (haltRec s ev level line).get Reg.MGD_HALT_REC_LEVEL = level :=
  (haltRec_field _ _ _ _ rfl).trans (fieldOf_word_at [(Reg.MGD_HALT_REC_VALID, 1)] rfl (by decide) (by decide) small)

theorem haltRec_event (small : ev < 2 ^ 16) : (haltRec s ev level line).get Reg.MGD_HALT_REC_EVENT = ev :=
  (haltRec_field _ _ _ _ rfl).trans
    (fieldOf_word_at [(Reg.MGD_HALT_REC_VALID, 1), (Reg.MGD_HALT_REC_LEVEL, level)] rfl (by decide) (by decide) small)

end Halt

/-! ### Reads (R414, R415, R417) -/

theorem SameWork.lineAt {s t : State} (h : SameWork s t) (line : Nat) : t.lineAt line = s.lineAt line := by
  rw [State.lineAt, State.lineAt, h.lines]

/-- No event and no count makes a line readable or unreadable. -/
theorem SameWork.badLines {s t : State} (h : SameWork s t) : t.mgd.badLines = s.mgd.badLines :=
  (congrArg (fun x => x.mgd.badLines) h).trans rfl

section Reads
variable {s : State} {c : MemClient} {line : Nat}

theorem deliverLine_unreadable (bad : line ∈ s.mgd.badLines) : deliverLine s c line = s := if_pos (List.contains_iff_mem.2 bad)

/-- A readable line is delivered; a pager's that runs ahead of its verdict is counted first. -/
theorem deliverLine_readable (sound : line ∉ s.mgd.badLines) : deliverLine s c line =
    (if c = .pager ∧ s.flag Reg.MGD_CFG_SPEC_EN = true then s.inc Reg.MGD_SPEC_READS else s).emit (.memData c line (s.lineAt line)) := by
  unfold deliverLine
  rw [if_neg (mt List.contains_iff_mem.1 sound)]
  dsimp only
  rw [SameWork.lineAt (.ite (inc_work s _) (.refl s))]

theorem deliverLine_verified (sound : line ∉ s.mgd.badLines) (waits : c ≠ .pager ∨ s.flag Reg.MGD_CFG_SPEC_EN = false) :
    deliverLine s c line = s.emit (.memData c line (s.lineAt line)) := by
  rw [deliverLine_readable sound, if_neg]
  rintro ⟨pager, ahead⟩
  rcases waits with other | off
  · exact other pager
  · rw [off] at ahead
    exact Bool.false_ne_true ahead

theorem deliverLine_ahead (sound : line ∉ s.mgd.badLines) (pager : c = .pager) (ahead : s.flag Reg.MGD_CFG_SPEC_EN = true) :
    deliverLine s c line = (s.inc Reg.MGD_SPEC_READS).emit (.memData c line (s.lineAt line)) := by
  rw [deliverLine_readable sound, if_pos ⟨pager, ahead⟩]

theorem readCompleteOp_unreachable (away : s.reachable line = false) (ecc : Ecc) (level : Nat) (missed : Bool) :
    readCompleteOp c line ecc level missed s = s := if_pos away

variable (near : s.reachable line = true) (level : Nat)
include near

theorem readCompleteOp_good (missed : Bool) : readCompleteOp c line .good level missed s =
    deliverLine (if missed then s.inc Reg.MGD_TREE_MISSES else s) c line := if_neg (by simp [near])

theorem readCompleteOp_badTree : readCompleteOp c line .ueTree level false s = raise0 (haltRec s 0x6002 level line) 0x6002 0 :=
  if_neg (by simp [near])

theorem readCompleteOp_badData : readCompleteOp c line .ueData level false s =
    raise0 ((s.modMgd (fun m => { m with badLines := ladd line m.badLines })).inc Reg.MGD_UE_DATA_COUNT) 0x6005 0 :=
  if_neg (by simp [near])

/-- The first correctable error is corrected, written back, counted, and raised after the line has been delivered. -/
theorem readCompleteOp_firstCorrected (first : s.mgd.lastCe = none) :
    let t := s.modMgd (fun m => { m with lastCe := some s.clk })
    readCompleteOp c line .correctable level false s =
      raise0 (deliverLine ((t.inc Reg.MGD_CE_COUNT).store (t.pathOffset level line) (t.pathLine level line)) c line) 0x6006 0 := by
  intro t
  unfold readCompleteOp
  rw [if_neg (by simp [near])]
  simp only [Bool.false_eq_true, if_false, first, if_true, t]

/-- A good read of a line that an error left unreadable delivers nothing. -/
theorem readCompleteOp_unreadable (bad : line ∈ s.mgd.badLines) (missed : Bool) :
    readCompleteOp c line .good level missed s = if missed then s.inc Reg.MGD_TREE_MISSES else s := by
  have work : SameWork s (if missed then s.inc Reg.MGD_TREE_MISSES else s) := .ite (inc_work s _) (.refl s)
  rw [readCompleteOp_good near, deliverLine_unreadable (by rwa [work.badLines])]

end Reads

/-! ### Writes (R402, R417) -/

theorem writeLine_badLines (s : State) (line : Nat) (data : List Byte) :
    (writeLine s line data).mgd.badLines = ldel line (countWrite s line).2.mgd.badLines := by
  rw [writeLine_eq]
  dsimp only
  split
  · rw [storePage_mgd]; rfl
  · rw [storeLine_mgd]; rfl

/-- A line that has been written is readable again. -/
theorem writeLine_readable (s : State) (line : Nat) (data : List Byte) : line ∉ (writeLine s line data).mgd.badLines := by
  rw [writeLine_badLines]
  exact not_mem_ldel _ _

section Writes
variable {s : State} {line : Nat} {data : List Byte}

theorem writePart_fails (bad : line ∈ s.mgd.badLines) (part : data.length < 64) (pos : Nat) : writePart s line pos data = readFails s :=
  if_pos ⟨List.contains_iff_mem.2 bad, part⟩

theorem writePart_merges (able : line ∉ s.mgd.badLines ∨ 64 ≤ data.length) (pos : Nat) :
    writePart s line pos data = writeLine s line (splice (s.lineAt line) pos data) := by
  refine if_neg ?_
  rintro ⟨bad, part⟩
  exact able.elim (fun sound => sound (List.contains_iff_mem.1 bad)) (Nat.not_le_of_lt part)

theorem readFails_lineAt (s : State) (j : Nat) : (readFails s).lineAt j = s.lineAt j := by
  have work : SameWork s (readFails s) := (inc_work s _).trans (raise0_work _ _ _)
  exact work.lineAt j

theorem writePart_other (pos : Nat) {j : Nat} (other : j ≠ line) : (writePart s line pos data).lineAt j = s.lineAt j := by
  unfold writePart
  split
  · exact readFails_lineAt s j
  · exact writeLine_other s line _ other

end Writes

/-- A reread changes nothing but a known record. -/
theorem reread_recs (s : State) (line : Nat) : ∃ recs, reread s line = s.modAsc (fun x => { x with recs := recs }) := by
  unfold reread
  split
  · dsimp only
    split
    · exact ⟨_, rfl⟩
    · exact ⟨s.asc.recs, rfl⟩
  · exact ⟨s.asc.recs, rfl⟩

theorem reread_mgd (s : State) (line : Nat) : (reread s line).mgd = s.mgd := by
  obtain ⟨recs, h⟩ := reread_recs s line
  rw [h]
  rfl

theorem reread_lineAt (s : State) (line j : Nat) : (reread s line).lineAt j = s.lineAt j := by
  rw [State.lineAt, State.lineAt, reread_mgd]

theorem writeCompleteOp_unreachable {s : State} {place : Nat} (away : s.reachable (place / 64) = false) (data : List Byte) :
    writeCompleteOp place data s = s := if_neg (by simp [away])

theorem writeCompleteOp_reaches {s : State} {place : Nat} (near : s.reachable (place / 64) = true) (data : List Byte) :
    writeCompleteOp place data s = reread (writePart s (place / 64) (place % 64) data) (place / 64) := if_pos near

/-! ### Verdicts (R416) -/

section Verdicts
variable {s : State} {m : MemRead} {level : Nat}

theorem memVerdictOp_disagrees {t1 t2 : Bool} (apart : t1 ≠ t2) (a : Nat) : memVerdictOp a t1 t2 m level s =
    raise0 (haltRec s 0x6003 level m.line) 0x6003 0 := if_pos apart

variable {taken : Bool}

theorem memVerdictOp_fails (wrong : s.authentic level m ≠ taken) (a : Nat) : memVerdictOp a taken taken m level s =
    raise0 (haltRec s 0x6001 level m.line) 0x6001 0 := by
  unfold memVerdictOp
  dsimp only
  rw [if_neg (not_not.2 rfl), if_pos wrong]

variable (right : s.authentic level m = taken) {a : Nat}
include right

theorem memVerdictOp_releases {i : Nat} {x : Slot} (held : s.slotOf a = some (i, x)) : memVerdictOp a taken taken m level s =
    s.modSlot i (fun y => { y with verdictDue := false }) := by
  unfold memVerdictOp
  dsimp only
  rw [if_neg (not_not.2 rfl), if_neg (not_not.2 right), held]

theorem memVerdictOp_unheld (free : s.slotOf a = none) : memVerdictOp a taken taken m level s = s := by
  unfold memVerdictOp
  dsimp only
  rw [if_neg (not_not.2 rfl), if_neg (not_not.2 right), free]

end Verdicts

end Sys2Proof.Machine

namespace Sys2Proof.Proofs
open Sys2Proof.Machine

/-- Settles O43: a read by its line and its error, a write by whether it must merge into a line that it can read, a verdict by its
takings. -/
theorem memoryGuarded : Obligations.MemoryGuarded := by
  intro s c line place data _ lvl a i x m _ t1 t2 run on reads
  have read {ecc : Ecc} {miss : Bool} {t : State} (h : readCompleteOp c line ecc lvl.toNat miss s = t) : reads ecc miss t :=
    exec_of_live run rfl ((whenOn_on _ on).trans h)
  have write {t : State} (h : writeCompleteOp place data s = t) : exec (.mgdWriteComplete c place data) s = .next t :=
    exec_of_live run rfl ((whenOn_on _ on).trans h)
  have verdict {t1 t2 : Bool} {t : State} (h : memVerdictOp a.toNat t1 t2 m lvl.toNat s = t) :
      exec (.memVerdict a t1 t2 m lvl) s = .next t := exec_of_live run rfl ((whenOn_on _ on).trans h)
  refine ⟨fun away => read (readCompleteOp_unreachable away _ _ _), fun near => ⟨read (readCompleteOp_badTree near _),
      read (readCompleteOp_badData near _),
      fun bad => ⟨read (readCompleteOp_unreadable near _ bad false), read (readCompleteOp_unreadable near _ bad true)⟩,
      fun sound => ⟨fun waits => read ((readCompleteOp_good near _ false).trans (deliverLine_verified sound waits)),
        fun pager ahead _ => read ((readCompleteOp_good near _ false).trans (deliverLine_ahead sound pager ahead))⟩,
      fun first => read (readCompleteOp_firstCorrected near _ first)⟩,
    fun away => write (writeCompleteOp_unreachable away data),
    fun near => ⟨_, write (writeCompleteOp_reaches near data), fun j other => ?_, fun bad part => ?_, fun able => ?_⟩,
    fun apart => verdict (memVerdictOp_disagrees apart _), fun wrong => verdict (memVerdictOp_fails wrong _),
    fun right => ⟨fun held => verdict (memVerdictOp_releases right held), fun free => verdict (memVerdictOp_unheld right free)⟩,
    fun ev small => ⟨haltRec_valid, haltRec_event small, haltRec_level lvl.isLt, haltRec_low _ _ _ _, haltRec_high _ _ _ _,
      haltRec_onlyRegs _ _ _ _⟩⟩
  · exact (reread_lineAt _ _ _).trans (writePart_other _ other)
  · rw [writePart_fails bad part]
    obtain ⟨recs, known⟩ := reread_recs (readFails s) (place / 64)
    exact ⟨(reread_lineAt _ _ _).trans (readFails_lineAt _ _), readFails s, rfl, by rw [known]; rfl⟩
  · rw [writePart_merges able]
    exact ⟨(reread_lineAt _ _ _).trans (writeLine_same _ _ _), by rw [reread_mgd]; exact writeLine_readable _ _ _⟩

end Sys2Proof.Proofs
end

section
/-! A step that finds a command waiting (95). -/

namespace Sys2Proof.Proofs
open Sys2Proof.Machine

/-- Settles O1: it is the step's own branch for a queue that is not empty. -/
theorem stepRunsFront : Obligations.StepRunsFront := fun _ _ _ => rfl

end Sys2Proof.Proofs
end

section
/-! SUPPORT. The commands of the random source, and the re-masking of the battery-backed secret (12 R430, R432, R433). -/

namespace Sys2Proof.Machine

section Entropy
variable {s : State}

/-- VLT_CMD and VLT_STS are two registers: the loss of ENTROPY_OK leaves the command in progress. -/
theorem entropyLost_cmd (s : State) : (s.setFlag Reg.VLT_STS_ENTROPY_OK false).get Reg.VLT_CMD_OP = s.get Reg.VLT_CMD_OP :=
  State.get_set_off _ _ _ _ (by decide)

theorem entropyFailOp_alone (ok : s.flag Reg.VLT_STS_ENTROPY_OK = true) (idle : s.vlt.op = none) :
    entropyFailOp s = raise0 ((s.setFlag Reg.VLT_STS_ENTROPY_OK false).inc Reg.VLT_ENTROPY_FAILS) 0x0601 0 := by
  unfold entropyFailOp
  rw [if_neg (by simp [ok])]
  simp only [State.setFlag_vlt, idle]

/-- A command that generates, imports or attests needs random values (R433, R469). -/
theorem entropyFailOp_ends {p : PendOp} (ok : s.flag Reg.VLT_STS_ENTROPY_OK = true) (runs : s.vlt.op = some p) (good : p.result = 0)
    (needs : s.get Reg.VLT_CMD_OP ∈ [1, 2, 5]) :
    entropyFailOp s = raise0 (((s.setFlag Reg.VLT_STS_ENTROPY_OK false).modVlt (fun v => { v with
      op := some { p with result := 5, writes := [] } })).inc Reg.VLT_ENTROPY_FAILS) 0x0601 0 := by
  have drawn : (decide (s.get Reg.VLT_CMD_OP = 1) || decide (s.get Reg.VLT_CMD_OP = 5) || decide (s.get Reg.VLT_CMD_OP = 2)) = true := by
    simp only [List.mem_cons, List.not_mem_nil, or_false] at needs
    rcases needs with h | h | h <;> simp [h]
  unfold entropyFailOp
  rw [if_neg (by simp [ok])]
  simp only [State.setFlag_vlt, runs, entropyLost_cmd, drawn, good, decide_true, Bool.and_true, if_true]

theorem entropyFailOp_again (lost : s.flag Reg.VLT_STS_ENTROPY_OK = false) : entropyFailOp s = s := if_pos lost

theorem entropyRetestOp_passes (lost : s.flag Reg.VLT_STS_ENTROPY_OK = false) (runs : s.vlt.drbgRun = true) : entropyRetestOp true s =
    ((s.setFlag Reg.VLT_STS_ENTROPY_OK true).modVlt (fun v => { v with requests := 0 })).inc Reg.VLT_DRBG_RESEEDS :=
  if_pos ⟨rfl, runs, lost⟩

theorem entropyRetestOp_fails (s : State) : entropyRetestOp false s = s := if_neg (fun h => Bool.false_ne_true h.1)

theorem reseedOp_runs (ok : s.flag Reg.VLT_STS_ENTROPY_OK = true) (runs : s.vlt.drbgRun = true) :
    reseedOp s = (s.modVlt (fun v => { v with requests := 0 })).inc Reg.VLT_DRBG_RESEEDS := if_pos ⟨runs, ok⟩

theorem reseedOp_lost (lost : s.flag Reg.VLT_STS_ENTROPY_OK = false) : reseedOp s = s := if_neg (by simp [lost])

theorem randomRead_serves (ok : s.flag Reg.VLT_STS_ENTROPY_OK = true) : randomRead s = (s.drbg.1.truncate 32, s.drbg.2) := if_pos ok

theorem randomRead_lost (lost : s.flag Reg.VLT_STS_ENTROPY_OK = false) : randomRead s = (0, s) := if_neg (by simp [lost])

/-- VLT_RANDOM is read through the read of its own, by whatever path. -/
theorem vltRandomRead_next {who : Who} (awake : Awake s) {v : Word} {t : State} (read : randomRead s = (v, t)) :
    exec (.vltRandomRead who) s = .next (t.emit (.readData who.path v)) := by
  have answer : readOp who Reg.VLT_RANDOM s = t.emit (.readData who.path v) := by
    rw [readOp_special awake (f := randomRead) rfl, read]
  exact congrArg Host.Outcome.next answer

/-- Two shares that take one mask go on sharing their value (R430). -/
theorem remask_value {n : Nat} (x : Shares n) (m : BitVec n) : (x.remask m).value = x.value := by
  simp only [Shares.remask, Shares.value]
  rw [BitVec.xor_assoc, BitVec.xor_comm x.b m, ← BitVec.xor_assoc m m, BitVec.xor_self, BitVec.zero_xor]

end Entropy

end Sys2Proof.Machine

namespace Sys2Proof.Proofs
open Sys2Proof.Machine

/-- Settles O46: each command by ENTROPY_OK and the command in progress, the re-masking by the mask that is drawn. -/
theorem entropyServes : Obligations.EntropyServes := by
  intro s who awake
  have run := awake.1
  refine ⟨fun ok idle => live_next run rfl (entropyFailOp_alone ok idle),
    fun p ok runs good needs => live_next run rfl (entropyFailOp_ends ok runs good needs),
    fun lost => ⟨live_next run rfl (entropyFailOp_again lost), live_next run rfl (reseedOp_lost lost),
      vltRandomRead_next awake (randomRead_lost lost)⟩,
    fun lost runs => live_next run rfl (entropyRetestOp_passes lost runs), live_next run rfl (entropyRetestOp_fails s),
    fun ok runs => live_next run rfl (reseedOp_runs ok runs), fun ok => vltRandomRead_next awake (randomRead_serves ok),
    ⟨remaskOp s, s.draw.1.truncate 256, live_next run rfl rfl, remask_value _ _, rfl, rfl, rfl⟩⟩

end Sys2Proof.Proofs
end

section
/-! SUPPORT. The response of an event, rung by rung: what each rung sets and erases, and what it leaves (15 R539 to R546). -/

namespace Sys2Proof.Machine

/-! ### The rungs up to QUIESCE_DEVICE, as one relation -/

/-- What setting a pending bit and quiescing may change: registers, messages and the fence. -/
def Quieted (s t : State) : Prop := ∃ regs out held fab, t = { s with regs := regs, out := out, evt := { s.evt with msixHeld := held }, fab := fab }

namespace Quieted
variable {s t u : State}

theorem refl (s : State) : Quieted s s := ⟨s.regs, s.out, s.evt.msixHeld, s.fab, rfl⟩

theorem trans (h : Quieted s t) (k : Quieted t u) : Quieted s u := by
  obtain ⟨_, _, _, _, rfl⟩ := h
  obtain ⟨regs, out, held, fab, rfl⟩ := k
  exact ⟨regs, out, held, fab, rfl⟩

theorem ite {p : Prop} [Decidable p] (h : Quieted s t) (k : Quieted s u) : Quieted s (if p then t else u) := by
  split
  exacts [h, k]

theorem wr (h : Quieted s t) (a : Nat) (v : Word) : Quieted s (t.wr a v) := h.trans ⟨(t.wr a v).regs, t.out, t.evt.msixHeld, t.fab, rfl⟩

/-- The log, the zeroise in force and the units beside the fence stay. -/
theorem kept (h : Quieted s t) : t.evt.log = s.evt.log ∧ t.evt.seq = s.evt.seq ∧ t.evt.zeroise = s.evt.zeroise ∧ t.vlt = s.vlt ∧
    t.ctl = s.ctl := by
  obtain ⟨_, _, _, _, rfl⟩ := h
  exact ⟨rfl, rfl, rfl, rfl, rfl⟩

end Quieted

section
variable (s : State)

theorem setPend_quieted (id : Nat) : Quieted s (setPend s id) := by
  have sent (t : State) (v : Nat) : Quieted t (sendMsix t v) :=
    Quieted.ite ⟨t.regs, t.out, _, t.fab, rfl⟩ ⟨t.regs, _, t.evt.msixHeld, t.fab, rfl⟩
  have pended := (Quieted.refl s).wr (Reg.EVT_PEND (id / 256)) (s.rd (Reg.EVT_PEND (id / 256)) ||| w32 (2 ^ (id % 256 % 32)))
  exact .ite (.refl s) (.ite (pended.trans (sent _ _)) pended)

theorem quiescePort_quieted (k : Nat) : Quieted s (quiescePort s k) := (Quieted.refl s).wr _ _

theorem quiesceDevice_quieted : Quieted s (quiesceDevice s) := by
  have down : Quieted s (s.setFlag Reg.EVT_STS_QDEV true) := (Quieted.refl s).wr _ _
  have yields : Quieted s ((s.setFlag Reg.EVT_STS_QDEV true).setFlag Reg.FAB_STS_YIELD true) := down.wr _ _
  have fenced (t : State) : Quieted t { t with fab := { t.fab with fencing := true, fenceTo := .fenced } } :=
    ⟨t.regs, t.out, t.evt.msixHeld, _, rfl⟩
  exact .ite (.ite (yields.trans (fenced _)) yields) down

theorem quiesceDevice_qdev : (quiesceDevice s).flag Reg.EVT_STS_QDEV = true := by
  have kept : (quiesceDevice s).rd Reg.EVT_STS_QDEV.off = (s.setFlag Reg.EVT_STS_QDEV true).rd Reg.EVT_STS_QDEV.off := rd_fence _ (by decide)
  have set : (s.setFlag Reg.EVT_STS_QDEV true).flag Reg.EVT_STS_QDEV = true := State.flag_setFlag _ _ _ (by decide) (by decide)
  rwa [State.flag, State.get, ← kept] at set

/-- A bit that is or-ed into a word stands in it. -/
theorem nbit_or_pow (w : Word) {k : Nat} (h : k < 32) : nbit (w ||| w32 (2 ^ k)).toNat k = true := by
  have bit : 2 ^ k < 2 ^ 32 := Nat.pow_lt_pow_right (by decide) h
  rw [nbit, BitVec.toNat_or, Nat.testBit_or, w32, BitVec.toNat_ofNat, Nat.mod_eq_of_lt bit, Nat.testBit_two_pow_self, Bool.or_true]

/-- The pending bit of an event is set after it, whether it was set before or not (R548). -/
theorem setPend_pends (id : Nat) : nbit ((setPend s id).rd (Reg.EVT_PEND (id / 256))).toNat (id % 256 % 32) = true := by
  have set (v : Word) : nbit ((s.wr (Reg.EVT_PEND (id / 256)) (v ||| w32 (2 ^ (id % 256 % 32)))).rd (Reg.EVT_PEND (id / 256))).toNat
      (id % 256 % 32) = true := by
    rw [State.rd_wr]
    exact nbit_or_pow v (Nat.mod_lt _ (by decide))
  unfold setPend
  dsimp only
  split
  · assumption
  · split
    · rw [rd_sendMsix]
      exact set _
    · exact set _

theorem quiescePort_quiesces {k : Nat} (h : k < 32) : nbit ((quiescePort s k).rd Reg.EVT_QUIESCE_PORTS).toNat k = true := by
  rw [quiescePort, State.rd_wr]
  exact nbit_or_pow _ h

end

/-! ### The ZEROISE rungs and HALT, as wholes -/

section
variable (s : State)

/-- A zeroise of the working keys writes registers and erases keys. -/
theorem zeroiseWorking_frame : ∃ regs, zeroiseWorking s = keysGone { s with regs := regs } := by
  have slots (l : List Nat) (t : State) : RegsOnly t (l.foldl (fun s i => s.wr (Reg.UCE_SLOT_STS i) 0) t) := by
    induction l generalizing t with
    | nil => exact RegsOnly.refl t
    | cons i l ih => exact ((RegsOnly.refl t).wr _ _).trans (ih _)
  have staging : RegsOnly s (zeroStaging s) := ((wrs_regsOnly _ _ _).trans (wrs_regsOnly _ _ _)).trans (wrs_regsOnly _ _ _)
  exact ⟨_, (zeroiseWorking_eq s).trans (congrArg keysGone ((staging.trans (slots _ _)).setFlag _ _))⟩

/-- The registers below the vault's window are none of those that a zeroise writes. -/
theorem zeroiseWorking_low {a : Nat} (low : a < Reg.VLT_STS) : (zeroiseWorking s).rd a = s.rd a := by
  have gone (t : State) : (keysGone t).rd a = t.rd a := rfl
  have staging {off : Nat} (n : Nat) (h : Reg.VLT_STS ≤ off) (t : State) : (t.wrs off (List.replicate n 0)).rd a = t.rd a :=
    rd_wrs_ne _ _ (fun i _ => by omega)
  have slot (i : Nat) : Reg.VLT_STS ≤ Reg.UCE_SLOT_STS i := by simp only [Reg.VLT_STS, Reg.UCE_SLOT_STS]; omega
  rw [zeroiseWorking_eq, gone, rd_setFlag_ne _ _ _ (Nat.ne_of_lt low), zeroSlotSts,
    rd_zeroSlots _ (fun i _ => Nat.ne_of_lt (Nat.lt_of_lt_of_le low (slot i)))]
  unfold zeroStaging
  dsimp only
  rw [staging _ (by decide), staging _ (by decide), staging _ (by decide)]

theorem zeroiseWorking_flag {f : Field} (low : f.off < Reg.VLT_STS) : (zeroiseWorking s).flag f = s.flag f := by
  rw [State.flag, State.flag, State.get, State.get, zeroiseWorking_low s low]

/-- The working keys are gone, of the vault, of every resident slot and of every core, with POISON set and every port quiesced
(R468, R539); the fuses of `s` stay. -/
def KeysErased (s t : State) : Prop :=
  t.vlt.wrapKey = none ∧ t.vlt.blobKey = none ∧ t.vlt.idKey = none ∧ t.vlt.slots = [] ∧ t.zeroised = true ∧ t.vlt.otp = s.vlt.otp ∧
  t.mgd.keysGone = true ∧ t.mgd.ret.poison = true ∧ t.flag Reg.EVT_STS_QDEV = true ∧
  (∀ p ∈ t.asc.slots, p.2.key = { a := 0, b := 0 }) ∧ ∀ p ∈ t.frm.cores, p.2.key = { a := 0, b := 0 }

theorem keysGone_erases {s u : State} (otp : u.vlt.otp = s.vlt.otp) (qdev : u.flag Reg.EVT_STS_QDEV = true) : KeysErased s (keysGone u) := by
  refine ⟨rfl, rfl, rfl, rfl, decide_eq_true (Nat.ne_of_gt (Nat.lt_of_lt_of_le (by decide : 0 < 4) (Nat.le_max_left _ _))), otp, rfl, rfl, qdev,
    fun p h => ?_, fun p h => ?_⟩
  · obtain ⟨_, _, rfl⟩ := List.mem_map.1 h
    rfl
  · obtain ⟨_, _, rfl⟩ := List.mem_map.1 h
    rfl

theorem zeroiseWorking_erases {s u : State} (vlt : u.vlt = s.vlt) (qdev : u.flag Reg.EVT_STS_QDEV = true) :
    KeysErased s (zeroiseWorking u) ∧ (zeroiseWorking u).vlt.bbs = s.vlt.bbs := by
  have low := (zeroiseWorking_flag u (f := Reg.EVT_STS_QDEV) (by decide)).trans qdev
  obtain ⟨regs, frame⟩ := zeroiseWorking_frame u
  rw [frame] at low ⊢
  exact ⟨keysGone_erases (congrArg (fun v => v.otp) vlt) low, congrArg (fun v => v.bbs) vlt⟩

theorem KeysErased.vault {s t : State} (h : KeysErased s t) : KeysErased s (zeroiseVault t) := by
  obtain ⟨wrap, blob, ident, slots, -, rest⟩ := h
  exact ⟨wrap, blob, ident, slots, rfl, rest⟩

/-- A lane that is turned OFF stays OFF while the lanes after it are. -/
theorem lanesOff_state {b : Nat} (hb : b ∈ laneBases) : (lanesOff s).get (Reg.LN_STS_STATE b) = 0 := by
  have off (u : State) (c : Nat) (h : c = b ∨ u.get (Reg.LN_STS_STATE b) = 0) :
      ((u.set (Reg.LN_STS_STATE c) 0).set (Reg.LN_STS_RUNG c) 0).get (Reg.LN_STS_STATE b) = 0 := by
    by_cases same : c = b
    · subst same
      exact (State.get_set_beside _ (by simp [Reg.LN_STS_STATE, Reg.LN_STS_RUNG]) _).trans
        (State.get_set_lt _ _ (by simp [Reg.LN_STS_STATE]) (by simp [Reg.LN_STS_STATE]) (by simp [Reg.LN_STS_STATE]))
    · have apart : (Reg.LN_STS_STATE b).off ≠ Reg.LN_STS c := by simp only [Reg.LN_STS_STATE, Reg.LN_STS]; omega
      rw [State.get_set_off _ _ _ _ apart, State.get_set_off _ _ _ _ apart]
      exact h.resolve_left same
  have fold (l : List Nat) (u : State) (h : b ∈ l ∨ u.get (Reg.LN_STS_STATE b) = 0) :
      (l.foldl (fun s b => (s.set (Reg.LN_STS_STATE b) 0).set (Reg.LN_STS_RUNG b) 0) u).get (Reg.LN_STS_STATE b) = 0 := by
    induction l generalizing u with
    | nil => exact h.resolve_left List.not_mem_nil
    | cons c l ih =>
      refine ih _ ?_
      rcases h with listed | before
      · rcases List.mem_cons.1 listed with rfl | later
        · exact .inr (off u _ (.inl rfl))
        · exact .inl later
      · exact .inr (off u c (.inr before))
  exact fold laneBases s (.inl hb)

theorem lnBase_mem {u : LaneUnit} {j : Nat} (h : j < laneCount u) : lnBase u j ∈ laneBases := by
  have listed {n base : Nat} (l : j < n) : base + 0x1000 * j ∈ (List.range n).map (fun j => base + 0x1000 * j) :=
    List.mem_map.2 ⟨j, List.mem_range.2 l, rfl⟩
  unfold laneBases
  cases u with
  | lnc => exact List.mem_append_left _ (List.mem_append_left _ (listed h))
  | lnl => exact List.mem_append_left _ (List.mem_append_right _ (listed h))
  | lnf => exact List.mem_append_right _ (listed h)

theorem lanesOff_unhealthy : (lanesOff (s.setFlag Reg.CTL_BOOT_HEALTHY false)).get Reg.CTL_BOOT_HEALTHY = 0 := by
  have kept := rd_lanesOff boot_not_lane (s.setFlag Reg.CTL_BOOT_HEALTHY false)
  have fell : (s.setFlag Reg.CTL_BOOT_HEALTHY false).get Reg.CTL_BOOT_HEALTHY = 0 := State.get_set_lt _ _ (by decide) (by decide) (by decide)
  generalize lanesOff (s.setFlag Reg.CTL_BOOT_HEALTHY false) = v at kept ⊢
  exact (congrArg (fun w => bits w 25 25) kept).trans fell

/-- What HALT leaves (R131, R546). -/
def HaltShown (r : LogRec) (t : State) : Prop := t.halted = true ∧ t.evt.frozen = true ∧ t.evt.lastHalt = some r ∧
  t.get Reg.CTL_BOOT_HEALTHY = 0 ∧ (∀ u j, j < laneCount u → t.laneSt u j = 0) ∧ t.gaf.trans = none

theorem haltMark_shown {v : State} (unhealthy : v.get Reg.CTL_BOOT_HEALTHY = 0) (off : ∀ u j, j < laneCount u → v.laneSt u j = 0) (r : LogRec) :
    HaltShown r (haltMark r v) := ⟨rfl, rfl, rfl, unhealthy, off, rfl⟩

theorem haltNow_shown (r : LogRec) : HaltShown r (haltNow s r) := by
  rw [haltNow_eq]
  exact haltMark_shown (lanesOff_unhealthy s) (fun _ _ h => lanesOff_state _ (lnBase_mem h)) r

theorem lanesOff_regsOnly : RegsOnly s (lanesOff s) := by
  unfold lanesOff
  generalize laneBases = l
  induction l generalizing s with
  | nil => exact RegsOnly.refl s
  | cons b l ih => exact (((RegsOnly.refl s).set _ _).set _ _).trans (ih _)

end

/-! ### The log under a response -/

/-- The log and its numbering. -/
def SameLog (s t : State) : Prop := t.evt.log = s.evt.log ∧ t.evt.seq = s.evt.seq

theorem SameLog.trans {s t u : State} (h : SameLog s t) (k : SameLog t u) : SameLog s u := ⟨k.1.trans h.1, k.2.trans h.2⟩

theorem SameLog.ite {s t u : State} {p : Prop} [Decidable p] (h : SameLog s t) (k : SameLog s u) : SameLog s (if p then t else u) := by
  split
  exacts [h, k]

theorem RegsOnly.sameLog {s t : State} (h : RegsOnly s t) : SameLog s t :=
  ⟨(congrArg (fun x : State => x.evt.log) h).trans rfl, (congrArg (fun x : State => x.evt.seq) h).trans rfl⟩

theorem Quieted.sameLog {s t : State} (h : Quieted s t) : SameLog s t := ⟨h.kept.1, h.kept.2.1⟩

theorem zeroiseWorking_sameLog (s : State) : SameLog s (zeroiseWorking s) := by
  obtain ⟨regs, frame⟩ := zeroiseWorking_frame s
  rw [frame]
  exact ⟨rfl, rfl⟩

theorem haltNow_sameLog (s : State) (r : LogRec) : SameLog s (haltNow s r) := by
  have marked (u : State) : SameLog u (haltMark r u) := ⟨rfl, rfl⟩
  exact (((RegsOnly.refl s).setFlag Reg.CTL_BOOT_HEALTHY false).trans (lanesOff_regsOnly _)).sameLog.trans (marked _)

/-- The rungs up to QUIESCE_DEVICE of a response. -/
def quietResponse (s : State) (rung id : Nat) (pair : Option Nat) : State :=
  let s := if 1 ≤ rung then setPend s id else s
  let s := if 2 ≤ rung then (match pair with | some k => quiescePort s k | none => s) else s
  if 3 ≤ rung ∨ (rung = 2 ∧ pair = none) then quiesceDevice s else s

theorem respond_eq (s : State) (rung id : Nat) (pair : Option Nat) (r : LogRec) : respond s rung id pair r =
    (let v := if rung = 4 ∨ rung = 5 then zeroiseWorking (quietResponse s rung id pair) else quietResponse s rung id pair
     let w := if rung = 5 then zeroiseVault v else v
     if rung = 6 then haltNow w r else w) := rfl

theorem quietResponse_quieted (s : State) (rung id : Nat) (pair : Option Nat) : Quieted s (quietResponse s rung id pair) := by
  have pended := Quieted.ite (p := 1 ≤ rung) (setPend_quieted s id) (.refl s)
  unfold quietResponse
  cases pair with
  | none =>
    have quiesced := Quieted.ite (p := 2 ≤ rung) pended pended
    exact .ite (quiesced.trans (quiesceDevice_quieted _)) quiesced
  | some k =>
    have quiesced := Quieted.ite (p := 2 ≤ rung) (pended.trans (quiescePort_quieted _ k)) pended
    exact .ite (quiesced.trans (quiesceDevice_quieted _)) quiesced

/-- From QUIESCE_DEVICE upwards a response sets QDEV. -/
theorem quietResponse_qdev {s : State} {rung : Nat} {pair : Option Nat} (h : 3 ≤ rung ∨ (rung = 2 ∧ pair = none)) (id : Nat) :
    (quietResponse s rung id pair).flag Reg.EVT_STS_QDEV = true := by
  unfold quietResponse
  dsimp only
  rw [if_pos h]
  exact quiesceDevice_qdev _

theorem respond_sameLog (s : State) (rung id : Nat) (pair : Option Nat) (r : LogRec) : SameLog s (respond s rung id pair r) := by
  have quiet := (quietResponse_quieted s rung id pair).sameLog
  have vault (u : State) : SameLog u (zeroiseVault u) := ⟨rfl, rfl⟩
  have working := SameLog.ite (p := rung = 4 ∨ rung = 5) (quiet.trans (zeroiseWorking_sameLog _)) quiet
  have zeroised := SameLog.ite (p := rung = 5) (working.trans (vault _)) working
  exact SameLog.ite (zeroised.trans (haltNow_sameLog _ r)) zeroised

/-! ### An event that finds room in the log, and one that finds it full (R545) -/

/-- The log with one record more. -/
def State.logged (s : State) (r : LogRec) : State := { s with evt := { s.evt with log := s.evt.log ++ [r], seq := s.evt.seq + 1 } }

section
variable {s : State} (live : s.evt.frozen = false) (id a0 a1 : Nat) (pair : Option Nat)
include live

/-- An event that finds room is its record and its response. -/
theorem raise_responds (room : s.evt.log.length < 1024) : raise s id a0 a1 pair =
    respond (s.logged (logRec s (rungOf s id) id a0 a1)) (rungOf s id) id pair (logRec s (rungOf s id) id a0 a1) := by
  have notFull : ¬ 1024 ≤ s.evt.log.length := by omega
  unfold raise raiseAt raiseOne
  simp only [live, Bool.false_eq_true, if_false, notFull, decide_false, false_and, pushLog, room, if_true, State.logged]

omit live in
/-- A full log takes no record (R545). -/
theorem raiseOne_full (full : 1024 ≤ s.evt.log.length) (rung : Nat) : (raiseOne s rung id a0 a1 pair).evt.log = s.evt.log := by
  have lost : (pushLog s (logRec s rung id a0 a1)).evt.log = s.evt.log := by
    have bumped (n : Nat) : (s.bumpRaw Reg.EVT_LOG_LOST n).evt.log = s.evt.log := by
      unfold State.bumpRaw
      dsimp only
      split <;> rfl
    rw [pushLog, if_neg (by omega), bumped]
  unfold raiseOne
  split
  · rfl
  · exact (respond_sameLog _ _ _ _ _).1.trans lost

omit live in
theorem raise_full (full : 1024 ≤ s.evt.log.length) : (raise s id a0 a1 pair).evt.log = s.evt.log := by
  have one := raiseOne_full id a0 a1 pair full (rungOf s id)
  unfold raise raiseAt
  dsimp only
  generalize raiseOne s (rungOf s id) id a0 a1 pair = t at one ⊢
  split
  · exact (raiseOne_full (s := { t with evt := { t.evt with ovfRaised := true } }) _ _ _ _ (by rw [one]; exact full) _).trans one
  · exact one

end

/-! ### What each rung leaves -/

section
variable (s : State) (id : Nat) (pair : Option Nat) (r : LogRec)

theorem respond_notifies : respond s 1 id pair r = setPend s id := by
  cases pair <;> rfl

theorem respond_quiescesPort (k : Nat) : respond s 2 id (some k) r = quiescePort (setPend s id) k := rfl

theorem respond_quiesces {rung : Nat} (below : rung ≤ 3) : respond s rung id pair r = quietResponse s rung id pair := by
  rw [respond_eq]
  dsimp only
  rw [if_neg (by omega), if_neg (by omega), if_neg (by omega)]

theorem respond_zeroisesWorking : respond s 4 id pair r = zeroiseWorking (quietResponse s 4 id pair) := by
  simp only [respond_eq, Nat.reduceEqDiff, true_or, if_true, if_false]

theorem respond_zeroisesVault : respond s 5 id pair r = zeroiseVault (zeroiseWorking (quietResponse s 5 id pair)) := by
  simp only [respond_eq, Nat.reduceEqDiff, or_true, if_true, if_false]

theorem respond_halts : respond s 6 id pair r = haltNow (quietResponse s 6 id pair) r := by
  simp only [respond_eq, Nat.reduceEqDiff, or_self, if_true, if_false]

theorem respond_erasesWorking : KeysErased s (respond s 4 id pair r) ∧ (respond s 4 id pair r).vlt.bbs = s.vlt.bbs := by
  obtain ⟨-, -, -, vlt, -⟩ := (quietResponse_quieted s 4 id pair).kept
  rw [respond_zeroisesWorking]
  exact zeroiseWorking_erases vlt (quietResponse_qdev (.inl (by decide)) id)

theorem respond_erasesVault : KeysErased s (respond s 5 id pair r) ∧ (respond s 5 id pair r).vlt.bbs = none ∧
    (respond s 5 id pair r).vlt.secret = { a := 0, b := 0 } := by
  obtain ⟨-, -, -, vlt, -⟩ := (quietResponse_quieted s 5 id pair).kept
  rw [respond_zeroisesVault]
  exact ⟨(zeroiseWorking_erases vlt (quietResponse_qdev (.inl (by decide)) id)).1.vault, rfl, rfl⟩

theorem setPend_qdev {id : Nat} : (setPend s id).flag Reg.EVT_STS_QDEV = s.flag Reg.EVT_STS_QDEV :=
  State.flag_of_get (State.get_of_rd (rd_setPend s id (by simp only [Reg.EVT_STS_QDEV, Reg.EVT_STS, Reg.EVT_PEND]; omega)))

/-- A notification leaves the combined rung as it is. -/
theorem setPend_rung : (setPend s id).rung = s.rung := by
  obtain ⟨-, -, zeroise, -, ctl⟩ := (setPend_quieted s id).kept
  have ports : (setPend s id).rd Reg.EVT_QUIESCE_PORTS = s.rd Reg.EVT_QUIESCE_PORTS :=
    rd_setPend s id (by simp only [Reg.EVT_QUIESCE_PORTS, Reg.EVT_PEND]; omega)
  rw [State.rung, State.rung, State.halted, State.halted, State.zeroised, State.zeroised, ctl, zeroise, setPend_qdev s, ports]

theorem setPend_quiescePort_qdev (k : Nat) : (quiescePort (setPend s id) k).flag Reg.EVT_STS_QDEV = s.flag Reg.EVT_STS_QDEV :=
  (State.flag_of_get (State.get_of_rd (State.rd_wr_ne _ _ (by decide)))).trans (setPend_qdev s)

end

end Sys2Proof.Machine

namespace Sys2Proof.Proofs
open Sys2Proof.Machine

/-- Settles O55: the event's record and its response, by its rung. -/
theorem eventsRespond : Obligations.EventsRespond := by
  intro s id a0 a1 pair small t r u e
  refine ⟨fun frozen => raise_frozen frozen id a0 a1 pair, fun live room => ?_, fun _ full => raise_full id a0 a1 pair full⟩
  have responds : t = respond (s.logged r) (rungOf s id) id pair r := raise_responds live id a0 a1 pair room
  obtain ⟨log, seq⟩ : SameLog (s.logged r) t := responds ▸ respond_sameLog _ _ _ _ _
  refine ⟨log, seq, fun rung => ?_, fun rung => ?_, fun k hk rung named => ?_, fun rung named => ?_, fun rung => ?_, fun rung => ?_, fun rung => ?_,
    fun rung => ?_, fun rung => ?_⟩
  · rw [responds, rung, respond_quiesces _ _ _ _ (by decide)]
    cases pair <;> rfl
  · rw [responds, rung, respond_notifies]
    exact ⟨setPend_pends _ _, fun a other => rd_setPend _ _ other, setPend_rung (s.logged r) id⟩
  · rw [responds, rung, named, respond_quiescesPort]
    exact ⟨quiescePort_quiesces _ hk, setPend_quiescePort_qdev (s.logged r) id k⟩
  · rw [responds, rung, respond_quiesces _ _ _ _ (by decide)]
    exact quietResponse_qdev (.inr ⟨rfl, named⟩) id
  · rw [responds, rung, respond_quiesces _ _ _ _ (by decide)]
    obtain ⟨-, -, -, vlt, ctl⟩ := (quietResponse_quieted (s.logged r) 3 id pair).kept
    exact ⟨quietResponse_qdev (.inl (by decide)) id, vlt, ctl⟩
  · rw [responds]
    rcases rung with four | five
    · rw [four]
      exact (respond_erasesWorking (s.logged r) id pair r).1
    · rw [five]
      exact (respond_erasesVault (s.logged r) id pair r).1
  · rw [responds, rung]
    exact (respond_erasesWorking (s.logged r) id pair r).2
  · rw [responds, rung]
    exact (respond_erasesVault (s.logged r) id pair r).2
  · rw [responds, rung, respond_halts]
    exact haltNow_shown _ r

end Sys2Proof.Proofs
end

section
/-! SUPPORT. Tamper monitors: what a sample, the second taking, a due burn and an alarm do, by what they meet
(14 R526, R529 to R534). -/

namespace Sys2Proof.Machine

/-- No event and no count touches the always-on unit. -/
theorem SameWork.aon_eq {s t : State} (h : SameWork s t) : t.aon = s.aon := (congrArg State.aon h).trans rfl

/-! ### Alarms (R530, R531) -/

section Alarm
variable {s : State}

theorem onMain_alarm (main : s.aon.onBattery = false) (m : Nat) : alarm s m = alarmMain s m := if_neg (by simp [main])

theorem onBattery_alarm (battery : s.aon.onBattery = true) (m : Nat) : alarm s m = alarmBattery s m := if_pos battery

theorem alarmMain_onBattery (s : State) (m : Nat) : (alarmMain s m).aon.onBattery = s.aon.onBattery := by
  have kept := ((inc_work s Reg.AON_ALARMS).trans (raise0_work _ (0x0401 + m) 0)).aon_eq
  unfold alarmMain
  dsimp only
  generalize raise0 (s.inc Reg.AON_ALARMS) (0x0401 + m) 0 = t at kept ⊢
  split
  · exact congrArg (fun a => a.onBattery) kept
  · exact congrArg (fun a => a.onBattery) kept

/-- The battery record of an alarm, before it is counted. -/
def alarmMarked (s : State) (m : Nat) : State :=
  { s with
    vlt := { s.vlt with bbs := none },
    aon := { s.aon with
      latch := s.aon.latch ||| BitVec.ofNat 9 (2 ^ m),
      pendingBurn := if s.flag (Reg.AON_MON_CFG_EVIDENCE m) then min 15 (s.aon.pendingBurn + 1) else s.aon.pendingBurn } }

theorem alarmBattery_eq (s : State) (m : Nat) : alarmBattery s m = (alarmMarked s m).inc Reg.AON_ALARMS := rfl

/-- With room in its counter an alarm on battery raises no event. -/
theorem alarmBattery_counts (room : Room s Reg.AON_ALARMS) (m : Nat) : alarmBattery s m =
    { alarmMarked s m with cnt := { s.cnt with vals := mstore 0 Reg.AON_ALARMS (s.ctr Reg.AON_ALARMS + 1) s.cnt.vals } } :=
  (alarmBattery_eq s m).trans (State.inc_eq _ _ room)

end Alarm

/-! ### Samples (R529) -/

section Sample
variable {s : State} {m : Fin 9}

/-- With N at 1 or less the condition is the sample's own event. -/
theorem sampleMon_cond (x : Monitor) (w : Nat) (event : Bool) (ms : Nat) {n : Nat} (h : n ≤ 1) :
    (sampleMon x (max 1 n) w event ms).cond = event := by
  rw [Nat.max_eq_left h]
  rfl

variable (run : s.running = true) (main : s.aon.onBattery = false) (ms : Nat)
include run main

theorem monitorOp_off (off : s.flag (Reg.AON_MON_CFG_EN m) = false) (event : Bool) :
    monitorOp m event ms s = s.modMon m (fun x => { x with cond := false }) := by
  have stopped : s.monOn m = false := (if_neg (by simp [main])).trans off
  rw [State.running, decide_eq_true_eq] at run
  unfold monitorOp
  rw [if_neg (by simp [run]), if_pos stopped]

variable (on : s.flag (Reg.AON_MON_CFG_EN m) = true)
include on

/-- A sample of a monitor that is on is counted where it is an event, and is the first taking of its decision. -/
theorem monitorOp_on (event : Bool) : monitorOp m event ms s =
    let t := if event then s.inc (Reg.AON_EVENTS m) else s
    let x := sampleMon (t.mon m) (max 1 (s.get (Reg.AON_MON_CFG_N m))) (max 1 (s.get (Reg.AON_MON_CFG_W_MS m))) event ms
    let u := takeFirst (t.modMon m (fun _ => x)) (.monitor m) x.cond
    if x.cond && !(s.mon m).cond then alarm u m else u := by
  have runs : s.monOn m = true := (if_neg (by simp [main])).trans on
  have known (t : State) (x : Monitor) : (t.modMon m (fun _ => x)).mon m = x := mlook_mstore_same _ _ _ _
  have once (t : State) (f : Monitor → Monitor) : t.modMon m f = t.modMon m (fun _ => f (t.mon m)) := rfl
  rw [State.running, decide_eq_true_eq] at run
  unfold monitorOp
  rw [if_neg (by simp [run]), if_neg (by simp [runs])]
  generalize max 1 (s.get (Reg.AON_MON_CFG_N m)) = n, max 1 (s.get (Reg.AON_MON_CFG_W_MS m)) = w, (s.mon m).cond = was
  dsimp only
  generalize (if event then s.inc (Reg.AON_EVENTS m) else s) = t
  rw [once, known]

theorem monitorOp_begins (few : s.get (Reg.AON_MON_CFG_N m) ≤ 1) (was : (s.mon m).cond = false) : ∃ x, monitorOp m true ms s =
    alarmMain (takeFirst ((s.inc (Reg.AON_EVENTS m)).modMon m (fun _ => x)) (.monitor m) true) m ∧ x.cond = true := by
  have cond := sampleMon_cond ((s.inc (Reg.AON_EVENTS m)).mon m) (max 1 (s.get (Reg.AON_MON_CFG_W_MS m))) true ms few
  have supply : (s.inc (Reg.AON_EVENTS m)).aon.onBattery = false := by rw [(inc_work s _).aon_eq, main]
  rw [monitorOp_on run main ms on]
  simp only [if_true]
  generalize sampleMon _ _ _ _ _ = x at cond ⊢
  refine ⟨x, ?_, cond⟩
  generalize s.inc (Reg.AON_EVENTS m) = t at supply ⊢
  have first : (takeFirst (t.modMon m (fun _ => x)) (.monitor m) true).aon.onBattery = false := supply
  rw [cond, was, if_pos (by decide), onMain_alarm first]

theorem monitorOp_ends (few : s.get (Reg.AON_MON_CFG_N m) ≤ 1) :
    ∃ x, monitorOp m false ms s = takeFirst (s.modMon m (fun _ => x)) (.monitor m) false ∧ x.cond = false := by
  have cond := sampleMon_cond (s.mon m) (max 1 (s.get (Reg.AON_MON_CFG_W_MS m))) false ms few
  rw [monitorOp_on run main ms on]
  simp only [Bool.false_eq_true, if_false]
  generalize sampleMon _ _ _ _ _ = x at cond ⊢
  refine ⟨x, ?_, cond⟩
  rw [cond, if_neg (by simp)]

end Sample

/-! ### The second taking (R534) -/

section Second
variable {s : State} {m : Fin 9} {first : Bool}

/-- The one decision that waits is settled: none waits any more. -/
theorem dropTaking_only {d : Decision} (only : s.ctl.doubled = [{ decision := d, first := first, second := none }]) :
    dropTaking s d = { s with ctl := { s.ctl with doubled := [] } } := by
  rw [dropTaking, State.modCtl, only]
  simp

variable (run : s.running = true) (only : s.ctl.doubled = [{ decision := .monitor m, first := first, second := none }])
include run only

theorem secondTakingOp_monitor (upset : Bool) : secondTakingOp (.monitor m) upset s = monitorSecond s m first upset := by
  rw [State.running, decide_eq_true_eq] at run
  unfold secondTakingOp
  rw [if_neg (by simp [run]), only]
  simp

theorem secondTakingOp_agrees : secondTakingOp (.monitor m) false s = { s with ctl := { s.ctl with doubled := [] } } := by
  rw [secondTakingOp_monitor run only, monitorSecond, dropTaking_only only]
  rfl

theorem secondTakingOp_disagrees (main : s.aon.onBattery = false) : secondTakingOp (.monitor m) true s =
    let again := { s with ctl := { s.ctl with doubled := [] } }
    let acted := if first then again else alarmMain again m
    raiseAt acted (rungOf acted (0x0401 + m.val)) 0x040A m.val 0 none := by
  rw [secondTakingOp_monitor run only, monitorSecond, dropTaking_only only]
  have supply : ({ s with ctl := { s.ctl with doubled := [] } } : State).aon.onBattery = false := main
  generalize ({ s with ctl := { s.ctl with doubled := [] } } : State) = again at supply ⊢
  dsimp only
  rw [if_neg (by decide), onMain_alarm supply]
  have acted : (if first then again else alarmMain again m).aon.onBattery = false := by
    split
    · exact supply
    · rw [alarmMain_onBattery, supply]
  rw [if_neg (by simp [acted])]

end Second

/-! ### Due burns (R530, R532) -/

section Burn
variable {s : State}

theorem evidenceBurnOp_idle (h : s.aon.dueBurn = 0 ∨ s.frozenRails = true) (ok : Bool) : evidenceBurnOp ok s = s := if_pos h

/-- One burn less is due, and one bit more is burnt. -/
def oneBurnt (s : State) : State :=
  { s with aon := { s.aon with dueBurn := s.aon.dueBurn - 1 }, vlt := { s.vlt with otp := { s.vlt.otp with evidence := s.evidence + 1 } } }

theorem burnEvidence_one (room : s.evidence < 64) :
    burnEvidence (s.modAon (fun a => { a with dueBurn := a.dueBurn - 1 })) 1 = oneBurnt s := by
  have next : min 64 (s.vlt.otp.evidence + 1) = s.evidence + 1 := Nat.min_eq_right room
  unfold burnEvidence oneBurnt
  rw [← next]
  rfl

variable (due : s.aon.dueBurn ≠ 0) (warm : s.frozenRails = false)
include due warm

theorem evidenceBurnOp_fails (room : s.evidence ≠ 64) : evidenceBurnOp false s = raise0 s 0x040E 0 := by
  unfold evidenceBurnOp
  rw [if_neg (by simp [due, warm])]
  dsimp only
  rw [if_neg room, if_neg (by decide)]

theorem evidenceBurnOp_burns (room : s.evidence < 64) : evidenceBurnOp true s = raiseBurnt (oneBurnt s) s.evidence 1 := by
  unfold evidenceBurnOp
  rw [if_neg (by simp [due, warm])]
  dsimp only
  rw [if_neg (Nat.ne_of_lt room), if_pos rfl, burnEvidence_one room]

end Burn

theorem raiseBurnt_one {n : Nat} (s : State) (more : n < 63) : raiseBurnt s n 1 = raise0 s 0x040C 0 := by
  unfold raiseBurnt
  dsimp only
  rw [if_neg (by omega)]
  rfl

/-- The 64th bit saturates the counter (R532). -/
theorem raiseBurnt_last (s : State) :
    raiseBurnt s 63 1 = raise0 ((raise0 s 0x040C 0).setFlag Reg.VLT_STS_EVIDENCE_SATURATED true) 0x040D 0 := by
  unfold raiseBurnt
  dsimp only
  rw [if_pos (by omega)]
  rfl

/-! ### VBAT_LOW and AON_LATCH (R526, R538) -/

theorem vbatLowOp_runs {s : State} (run : s.running = true) :
    vbatLowOp s = if s.flag Reg.AON_STS_VBAT_LOW then s else raise0 (s.setFlag Reg.AON_STS_VBAT_LOW true) 0x040F 0 := by
  have still : (s.setFlag Reg.AON_STS_VBAT_LOW true).running = true := by rw [State.running, State.setFlag_ctl, ← State.running, run]
  unfold vbatLowOp
  simp only [still, if_true]

/-- A read with an effect of its own of a window that a dormant device serves too (R520). -/
theorem readOp_open {who : Who} {s : State} (run : s.running = true) {off : Nat} (served : dormantOpen off = true) {f : State → Word × State}
    (special : specialRead who off = some f) : readOp who off s = (f s).2.emit (.readData who.path (f s).1) := by
  simp [readOp, answers_running run, localRead, not_halted_of_running run, run, served, unitRead, special]

end Sys2Proof.Machine

namespace Sys2Proof.Proofs
open Sys2Proof.Machine

/-- Settles O17: a sample by the monitor's condition, a burn by what is due, the second taking by the first, an alarm by the supply. -/
theorem tamperRecorded : Obligations.TamperRecorded := by
  constructor
  · intro s m ms who first run again acted burnt
    refine ⟨fun main off event => congrArg _ (monitorOp_off run main ms off event), fun main on few => ⟨fun was => ?_, ?_⟩,
      fun due warm => ⟨fun more => live_next run rfl ?_, fun last => live_next run rfl ?_,
        fun room => live_next run rfl (evidenceBurnOp_fails due warm room)⟩,
      fun h ok => live_next run rfl (evidenceBurnOp_idle h ok),
      fun main only => ⟨congrArg _ (secondTakingOp_disagrees run only main), congrArg _ (secondTakingOp_agrees run only)⟩,
      congrArg _ (vbatLowOp_runs run), congrArg _ (readOp_open run (by decide) (f := latchRead) rfl)⟩
    · obtain ⟨x, begins, cond⟩ := monitorOp_begins run main ms on few was
      exact ⟨x, congrArg _ begins, cond⟩
    · obtain ⟨x, ends, cond⟩ := monitorOp_ends run main ms on few
      exact ⟨x, congrArg _ ends, cond⟩
    · exact (evidenceBurnOp_burns due warm (by omega)).trans (raiseBurnt_one _ more)
    · rw [evidenceBurnOp_burns due warm (by omega), last]
      exact raiseBurnt_last _
  · intro s m
    refine ⟨fun battery room => ?_, fun main => onMain_alarm main m⟩
    dsimp only
    rw [onBattery_alarm battery m, alarmBattery_counts room m]
    exact ⟨rfl, rfl, rfl, by rw [State.ctr, mlook_mstore_same], rfl, rfl⟩

end Sys2Proof.Proofs
end

section
/-! SUPPORT. Power domains on their own, the comparator of WAKE_SENSE and the supplies: each operation by what it meets
(14 R518, R519, R522 to R524). -/

namespace Sys2Proof.Machine

/-! ### Domains of the gaffer's own map (R504) -/

section Dom
variable {s : State} {d : Nat}

theorem dom_stored (stored : 2 ≤ domKind d) : s.dom d = mlook .on d s.gaf.doms := by
  unfold State.dom
  split
  · omega
  · omega
  · rfl

theorem dom_ring (ring : domKind d = 0) :
    s.dom d = match s.ring d with | .asleep => .off | .waking => .waking | .awake => .on | .draining => .on := by
  unfold State.dom
  rw [ring]
  rfl

theorem domUp_stored (stored : 2 ≤ domKind d) : domUp s d = s.setDom d .on := by
  unfold domUp
  split
  · omega
  · omega
  · rfl

/-- The gaffer's map takes the domain's condition; the call sheet's generation may count, and nothing else changes (R65). -/
theorem setDom_eq (s : State) (d : Nat) (p : DomPower) :
    ∃ g, s.setDom d p = { s with gaf := { s.gaf with doms := mstore .on d p s.gaf.doms }, ctl := { s.ctl with generation := g } } := by
  unfold State.setDom
  dsimp only
  split
  · exact ⟨s.ctl.generation, rfl⟩
  · exact ⟨s.ctl.generation + 1, rfl⟩

theorem setDom_dom (stored : 2 ≤ domKind d) (p : DomPower) : (s.setDom d p).dom d = p := by
  obtain ⟨g, set⟩ := setDom_eq s d p
  rw [dom_stored stored, set]
  exact mlook_mstore_same _ _ _ _

end Dom

theorem SameWork.frm_rings {s t : State} (h : SameWork s t) : t.frm.rings = s.frm.rings := (congrArg (fun x => x.frm.rings) h).trans rfl

/-! ### Wake on access (R518) -/

section Access
variable {s : State} {d : Nat}

theorem accessWakeOp_still (h : domKind d = 1 ∨ domKind d = 2 ∨ domKind d = 6 ∨ s.dormant = true ∨ s.dom d = .on) : accessWakeOp d s = s :=
  if_pos h

theorem accessWakeOp_wakes (k : domKind d ≠ 1 ∧ domKind d ≠ 2 ∧ domKind d ≠ 6) (awake : s.dormant = false) (down : s.dom d ≠ .on) :
    accessWakeOp d s = domUp (s.inc Reg.GAF_ACCESS_STALLS) d := if_neg (by simp [k, awake, down])

/-- What an access to a sleeping domain of the gaffer's own map leaves. -/
theorem accessWakeOp_stored (k : 3 ≤ domKind d ∧ domKind d ≠ 6) (awake : s.dormant = false) (down : s.dom d ≠ .on)
    (room : Room s Reg.GAF_ACCESS_STALLS) : let t := accessWakeOp d s
    t.dom d = .on ∧ t.ctr Reg.GAF_ACCESS_STALLS = s.ctr Reg.GAF_ACCESS_STALLS + 1 ∧ t.regs = s.regs ∧ t.gaf.trans = s.gaf.trans ∧
    ∀ e, e ≠ d → mlook .on e t.gaf.doms = mlook .on e s.gaf.doms := by
  have stored : 2 ≤ domKind d := by omega
  have dom := setDom_dom (s := s.inc Reg.GAF_ACCESS_STALLS) stored .on
  rw [accessWakeOp_wakes ⟨by omega, by omega, k.2⟩ awake down, domUp_stored stored]
  obtain ⟨g, set⟩ := setDom_eq (s.inc Reg.GAF_ACCESS_STALLS) d .on
  refine ⟨dom, ?_⟩
  rw [set, State.inc_eq s _ room]
  exact ⟨by rw [State.ctr, mlook_mstore_same], rfl, rfl, fun e other => mlook_mstore_ne .on .on .on s.gaf.doms other⟩

theorem inc_ring (s : State) (off r : Nat) : (s.inc off).ring r = s.ring r := by rw [State.ring, State.ring, (inc_work s off).frm_rings]

theorem accessWakeOp_ring (ring : domKind d = 0) (awake : s.dormant = false) :
    (s.ring d = .asleep → accessWakeOp d s = ringWake (s.inc Reg.GAF_ACCESS_STALLS) d) ∧
    (s.ring d = .waking → accessWakeOp d s = s.inc Reg.GAF_ACCESS_STALLS) := by
  have kinds : domKind d ≠ 1 ∧ domKind d ≠ 2 ∧ domKind d ≠ 6 := by omega
  have up : domUp (s.inc Reg.GAF_ACCESS_STALLS) d = if s.ring d = .asleep then ringWake (s.inc Reg.GAF_ACCESS_STALLS) d
      else if s.ring d = .draining then (s.inc Reg.GAF_ACCESS_STALLS).setRing d .awake else s.inc Reg.GAF_ACCESS_STALLS := by
    unfold domUp
    rw [ring, inc_ring]
    rfl
  constructor
  · intro asleep
    have down : s.dom d ≠ .on := by rw [dom_ring ring, asleep]; decide
    rw [accessWakeOp_wakes kinds awake down, up, if_pos asleep]
  · intro waking
    have down : s.dom d ≠ .on := by rw [dom_ring ring, waking]; decide
    rw [accessWakeOp_wakes kinds awake down, up, if_neg (by rw [waking]; decide), if_neg (by rw [waking]; decide)]

/-- Where no access waits, none goes on. -/
theorem serveAll_none (none : ∀ p, (s.path p).held = []) : serveAll s = s := by
  have serve (p : Path) : serveHeld p s = s := by rw [serveHeld, none p]; rfl
  simp only [serveAll, List.foldl_cons, List.foldl_nil, serve]

end Access

/-! ### Idle domains (R519) -/

section Idle
variable {s : State} {d : Nat}

theorem idleSleeps_run (run : s.power = 0) : s.idleSleeps d = false := by
  unfold State.idleSleeps
  simp [run]

theorem idleSleepOp_still (h : s.power = 0 ∨ s.gaf.trans ≠ none ∨ s.dom d ≠ .on) : idleSleepOp d s = s := by
  refine if_neg fun ⟨sleeps, idle, on⟩ => ?_
  rcases h with run | runs | off
  · rw [idleSleeps_run run] at sleeps
    exact Bool.false_ne_true sleeps
  · exact runs idle
  · exact off on

theorem idleSleepOp_asks (sleeps : s.idleSleeps d = true) (idle : s.gaf.trans = none) (on : s.dom d = .on) :
    idleSleepOp d s = (if domKind d = 0 then ringSleep s d else s).modGaf (fun g => { g with sleepAsk := ladd d g.sleepAsk }) :=
  if_pos ⟨sleeps, idle, on⟩

theorem idleSleeps_standby (k : domKind d = 3 ∨ domKind d = 4 ∨ domKind d = 5 ∨ domKind d = 7) (h : s.power = 2) : s.idleSleeps d = true := by
  unfold State.idleSleeps
  rcases k with k | k | k | k <;> simp [k, h]

theorem idleSleeps_trim (k : domKind d = 8 ∨ domKind d = 0) (h : s.power = 1 ∨ s.power = 2) : s.idleSleeps d = true := by
  unfold State.idleSleeps
  rw [if_pos k]
  rcases h with h | h <;> simp [h]

theorem ladd_new {x : Nat} {l : List Nat} (h : x ∉ l) : ladd x l = l ++ [x] := if_neg (mt List.contains_iff_mem.1 h)

end Idle

/-! ### WAKE_SENSE (R522) -/

section Sense
variable {s : State}

/-- The comparator's level as it now stands. -/
def sensed (s : State) : State := s.setFlag Reg.AON_WAKE_CFG_LEVEL (!s.flag Reg.AON_WAKE_CFG_POL)

theorem sensed_level (s : State) : (sensed s).flag Reg.AON_WAKE_CFG_LEVEL = !s.flag Reg.AON_WAKE_CFG_POL := State.flag_setFlag_held rfl _ _

theorem sensed_onlyRegs (s : State) : OnlyRegs [Reg.AON_WAKE_CFG] s (sensed s) := (OnlyRegs.refl _ s).setFlag (by decide) _

theorem wakeSenseOp_eq (s : State) : wakeSenseOp s = if s.flag Reg.AON_WAKE_CFG_EN then
    gafRequestOp (if s.get Reg.AON_WAKE_CFG_TARGET = 3 then 0 else s.get Reg.AON_WAKE_CFG_TARGET) (raise0 (sensed s) 0x0306 0) else sensed s := by
  have enable : (sensed s).flag Reg.AON_WAKE_CFG_EN = s.flag Reg.AON_WAKE_CFG_EN := State.flag_setFlag_other rfl _ _
  have target : (sensed s).get Reg.AON_WAKE_CFG_TARGET = s.get Reg.AON_WAKE_CFG_TARGET := State.get_set_other rfl _ _
  rw [← enable, ← target]
  rfl

end Sense

/-! ### Supplies (R523, R524) -/

section Supply
variable {s : State} {r : Rail}

/-- The rails whose warning freezes. -/
theorem railNum_freezes (r : Rail) : railNum r < 2 ↔ r = .core ∨ r = .aux := by cases r <;> decide

theorem frozenRails_one {x : Nat} (h : s.gaf.dips = [(railNum r, x)]) : s.frozenRails = decide (r = .core ∨ r = .aux) := by
  rw [State.frozenRails, h]
  cases r <;> rfl

/-- The first rail that warns. -/
theorem railWarningOp_first (none : s.gaf.dips = []) : railWarningOp r s =
    if r = .core ∨ r = .aux then { s with gaf := { s.gaf with dips := [(railNum r, s.clk)] } }
    else raise0 { s with gaf := { s.gaf with dips := [(railNum r, s.clk)] } } 0x0304 0 := by
  have joined : s.modGaf (fun g => { g with dips := g.dips ++ [(railNum r, s.clk)] }) = { s with gaf := { s.gaf with dips := [(railNum r, s.clk)] } } := by
    rw [State.modGaf, none]
    rfl
  unfold railWarningOp
  dsimp only
  rw [joined, none, if_neg (by simp)]
  exact ite_congr (propext (railNum_freezes r)) (fun _ => rfl) (fun _ => rfl)

theorem railClearOp_none (none : s.gaf.dips = []) (us : Nat) : railClearOp r us s = s := if_pos (by rw [none]; rfl)

/-- The state in which a rail that alone had warned is well again. -/
def railWell (s : State) (r : Rail) : State :=
  let t : State := { s with gaf := { s.gaf with dips := [] } }
  (t.set Reg.GAF_SUPPLY_STS_LOW (t.get Reg.GAF_SUPPLY_STS_LOW &&& (31 - 2 ^ railNum r))).setFlag Reg.VLT_UPD_STS_FROZEN false

/-- The log of a dip. -/
def dipLogged (s : State) (r : Rail) (us : Nat) : State :=
  s.wr Reg.GAF_BROWNOUT_LOG (word [(Reg.GAF_BROWNOUT_LOG_RAIL, railNum r), (Reg.GAF_BROWNOUT_LOG_DUR_US, us)])

theorem railWell_frozen (s : State) (r : Rail) : (railWell s r).frozenRails = false := by
  simp only [State.frozenRails, railWell, State.setFlag_gaf, State.set_gaf, List.any_nil]

theorem dipLogged_frozen (s : State) (r : Rail) (us : Nat) : (dipLogged s r us).frozenRails = s.frozenRails := by
  rw [State.frozenRails, State.frozenRails, dipLogged, State.wr_gaf]

theorem railWell_onlyRegs (s : State) (r : Rail) :
    OnlyRegs [Reg.GAF_SUPPLY_STS, Reg.GAF_BROWNOUT_LOG, Reg.VLT_UPD_STS] { s with gaf := { s.gaf with dips := [] } } (railWell s r) :=
  ((OnlyRegs.refl _ _).set (by decide) _).setFlag (by decide) _

theorem railWell_burns (s : State) (r : Rail) : (railWell s r).flag Reg.VLT_UPD_STS_FROZEN = false := State.flag_setFlag_held rfl _ _

theorem dipLogged_fields (s : State) (r : Rail) {us : Nat} (short : us < 2 ^ 29) :
    (dipLogged s r us).get Reg.GAF_BROWNOUT_LOG_RAIL = railNum r ∧ (dipLogged s r us).get Reg.GAF_BROWNOUT_LOG_DUR_US = us := by
  have number : railNum r < 2 ^ 3 := by cases r <;> decide
  constructor
  · exact (State.get_wr s _ Reg.GAF_BROWNOUT_LOG_RAIL).trans (fieldOf_word_at [] rfl (by decide) (by decide) number)
  · exact (State.get_wr s _ Reg.GAF_BROWNOUT_LOG_DUR_US).trans
      (fieldOf_word_at [(Reg.GAF_BROWNOUT_LOG_RAIL, railNum r)] rfl (by decide) (by decide) short)

/-- The one rail that warned is well again: a dip that froze is logged, counted and raised. -/
theorem railClearOp_only {x us : Nat} (only : s.gaf.dips = [(railNum r, x)]) (short : us < 2 ^ 29) : railClearOp r us s =
    if r = .core ∨ r = .aux then raise0 ((dipLogged (railWell s r) r us).inc Reg.GAF_BROWNOUTS) 0x0303 0 else railWell s r := by
  have cleared : s.modGaf (fun g => { g with dips := g.dips.filter (fun d => d.1 ≠ railNum r) }) = { s with gaf := { s.gaf with dips := [] } } := by
    rw [State.modGaf, only]
    simp
  have warm (t : State) (h : t.gaf.dips = []) : t.frozenRails = false := by rw [State.frozenRails, h]; rfl
  unfold railClearOp
  dsimp only
  rw [if_neg (by simp [only]), cleared, warm _ rfl, if_neg Bool.false_ne_true, Nat.min_eq_left (by omega)]
  exact ite_congr (propext (railNum_freezes r)) (fun _ => rfl) (fun _ => rfl)

end Supply

end Sys2Proof.Machine

namespace Sys2Proof.Proofs
open Sys2Proof.Machine

/-- Settles O54: an access and an idle domain by the domain's kind and condition, a supply by the one rail that warns. -/
theorem domainsAndSupplies : Obligations.DomainsAndSupplies := by
  intro s d r us run k
  have wakes {t : State} (h : accessWakeOp d s = t) : exec (.accessWake d) s = .next (serveAll t) :=
    exec_of_live run rfl (congrArg serveAll h)
  have asks (sleeps : s.idleSleeps d = true) (idle : s.gaf.trans = none) (on : s.dom d = .on) :=
    live_next run (cmd := .domainIdleSleep d) rfl (idleSleepOp_asks sleeps idle on)
  refine ⟨fun h => wakes (accessWakeOp_still h), fun kinds awake down room => ⟨_, wakes rfl, accessWakeOp_stored (by omega) awake down room⟩,
    fun ring awake asleep _ => wakes ((accessWakeOp_ring ring awake).1 asleep), fun ring awake waking => wakes ((accessWakeOp_ring ring awake).2 waking),
    serveAll_none, fun h => live_next run rfl (idleSleepOp_still h), fun h idle on fresh => ?_, fun ring h idle on => ?_,
    fun off => ⟨sensed s, ?_, sensed_level s, sensed_onlyRegs s⟩, fun on => ⟨sensed s, ?_, sensed_onlyRegs s⟩,
    fun none => ⟨_, rfl, live_next run rfl (railWarningOp_first none), frozenRails_one rfl⟩,
    fun none => live_next run rfl (railClearOp_none none us), fun x only short => ?_⟩
  · have sleeps : s.idleSleeps d = true := by
      rcases h with ⟨kinds, standby⟩ | ⟨engine, low⟩
      · exact idleSleeps_standby kinds standby
      · exact idleSleeps_trim (.inl engine) low
    rw [asks sleeps idle on, if_neg (by omega), State.modGaf, ladd_new fresh]
  · rw [asks (idleSleeps_trim (.inr ring) h) idle on, if_pos ring]
  · exact live_next run rfl ((wakeSenseOp_eq s).trans (if_neg (by simp [off])))
  · exact live_next run rfl ((wakeSenseOp_eq s).trans (if_pos on))
  · by_cases freezes : r = .core ∨ r = .aux
    · have logged := (railWell_onlyRegs s r).wr (off := Reg.GAF_BROWNOUT_LOG) (by decide)
        (word [(Reg.GAF_BROWNOUT_LOG_RAIL, railNum r), (Reg.GAF_BROWNOUT_LOG_DUR_US, us)])
      have unfrozen : (dipLogged (railWell s r) r us).flag Reg.VLT_UPD_STS_FROZEN = false :=
        (State.flag_of_get (State.get_of_rd (State.rd_wr_ne _ _ (by decide)))).trans (railWell_burns s r)
      refine ⟨dipLogged (railWell s r) r us, logged, (dipLogged_frozen _ r us).trans (railWell_frozen s r), unfrozen, ?_, fun _ => dipLogged_fields _ r short⟩
      rw [if_pos freezes]
      exact live_next run rfl ((railClearOp_only only short).trans (if_pos freezes))
    · refine ⟨railWell s r, railWell_onlyRegs s r, railWell_frozen s r, railWell_burns s r, ?_, fun h => absurd h freezes⟩
      rw [if_neg freezes]
      exact live_next run rfl ((railClearOp_only only short).trans (if_neg freezes))

end Sys2Proof.Proofs
end

section
/-! SUPPORT. Power-state requests and the handshake of a transition: what each operation does, by the transition that runs and its step
(14 R509 to R517, R520). -/

namespace Sys2Proof.Machine

/-! ### What decides about a request -/

theorem OnlyRegs.gaf_eq {offs : List Nat} {s t : State} (h : OnlyRegs offs s t) : t.gaf = s.gaf := (congrArg State.gaf h.1).trans rfl
theorem OnlyRegs.fab_eq {offs : List Nat} {s t : State} (h : OnlyRegs offs s t) : t.fab = s.fab := (congrArg State.fab h.1).trans rfl

theorem OnlyRegs.ctr_eq {offs : List Nat} {s t : State} (h : OnlyRegs offs s t) (a : Nat) : t.ctr a = s.ctr a := by
  rw [State.ctr, State.ctr, h.cnt_eq]

theorem OnlyRegs.power_eq {offs : List Nat} {s t : State} (h : OnlyRegs offs s t) (k : Reg.GAF_STS ∉ offs) : t.power = s.power := h.get _ k

theorem OnlyRegs.allows_eq {offs : List Nat} {s t : State} (h : OnlyRegs offs s t) (k : Reg.GAF_POLICY ∉ offs) (n : Nat) :
    t.allows n = s.allows n := by
  rw [State.allows, State.allows, h.flag Reg.GAF_POLICY_ALLOW_TRIM k, h.flag Reg.GAF_POLICY_ALLOW_STANDBY k,
    h.flag Reg.GAF_POLICY_ALLOW_DORMANT k]

/-- The write of GAF_REQ stores the request and acts on its TARGET (R510). -/
theorem gafReqWrite_eq (target : BitVec 2) (s : State) :
    gafReqWrite (w32 target.toNat) s = gafRequestOp target.toNat (storeReg Reg.GAF_REQ (w32 target.toNat) s) := by
  have named : fieldOf Reg.GAF_REQ_TARGET (w32 target.toNat) = target.toNat := bits_w32_low target.isLt (by decide)
  rw [gafReqWrite, named]

/-! ### A request with no transition running (R509, R510, R516) -/

section Start
variable {s : State} {n : Nat}

theorem gafRequestOp_starts (idle : s.gaf.trans = none) (n : Nat) : gafRequestOp n s = startRequest s n := by
  unfold gafRequestOp
  rw [idle]

theorem startRequest_present (h : n = s.power) : startRequest s n = gafSts s s.power 0 0 0x7F := if_pos h

theorem startRequest_wakes (h : n < s.power) : startRequest s n = startWake s n := by
  unfold startRequest
  rw [if_neg (by omega), if_pos h]

variable (deeper : s.power < n)
include deeper

theorem startRequest_refused (no : s.allows n = false) : startRequest s n = gafSts s s.power 3 10 0x7F := by
  unfold startRequest
  rw [if_neg (by omega), if_neg (by omega), if_neg (by simp [no])]

theorem startRequest_sleeps (yes : s.allows n = true) : startRequest s n = startSleep s n := by
  unfold startRequest
  rw [if_neg (by omega), if_neg (by omega), if_pos yes]

omit deeper in
theorem startSleep_paired (h : (2 ≤ n ∧ s.fab.role = .active) ∨ (n = 3 ∧ s.flag Reg.FAB_PAIR_CFG_PAIRED = true)) :
    startSleep s n = raise0 ((gafSts s s.power 1 9 0x7F).inc Reg.GAF_REFUSED) 0x0302 0 := by
  have paired : ((decide (2 ≤ n) && decide (s.fab.role = .active)) || (decide (n = 3) && s.flag Reg.FAB_PAIR_CFG_PAIRED)) = true := by
    simpa using h
  unfold startSleep
  dsimp only
  rw [if_pos paired]

omit deeper in
/-- TRIM holds no frame back and asks no domain (R514). -/
theorem startSleep_trim (present : s.power = 0) :
    let trim : Transition := { target := 1, source := 0, step := 4, kind := 0, waiting := [], taken := [], abandon := false, ending := none }
    startSleep s 1 = { s with gaf := { s.gaf with trans := some trim } } := by
  intro trim
  unfold startSleep
  dsimp only
  rw [present, if_neg (by simp), if_pos rfl]
  rfl

end Start

/-! ### A request while a transition runs (R511, R512) -/

section Pending
variable {s : State} {r : Transition} {target : BitVec 2} (runs : s.gaf.trans = some r)
include runs

theorem gafRequestOp_again (wakes : r.step = 0) (on : r.ending = none) (same : r.target = target) (free : s.gaf.pend = none) :
    gafRequestOp target.toNat s = s := by
  unfold gafRequestOp
  rw [runs]
  dsimp only
  rw [if_pos ⟨wakes, on, congrArg BitVec.toNat same, free⟩]

/-- A wake that comes while a sleep entry asks its domains takes the pending slot and abandons the entry at its next safe point. -/
theorem gafRequestOp_abandons (asks : r.step ∈ [1, 2, 3]) (on : r.ending = none) (wake : target.toNat < s.power) (free : s.gaf.pend = none) :
    gafRequestOp target.toNat s = { s with gaf := { s.gaf with pend := some target, trans := some { r with abandon := true } } } := by
  have step : r.step ≠ 0 ∧ r.step ≠ 4 := by
    simp only [List.mem_cons, List.not_mem_nil, or_false] at asks
    omega
  unfold gafRequestOp
  rw [runs]
  dsimp only
  rw [if_neg (by simp [step]), if_neg (by simp [wake]), free]
  dsimp only
  rw [if_pos ⟨by simp [wake], step.1, step.2, on⟩, BitVec.ofNat_toNat, BitVec.setWidth_eq, modTrans, State.modGaf, State.modGaf, runs]
  rfl

variable (last : r.step = 4) (serves : target.toNat < s.power ∨ target.toNat = s.power ∨ s.allows target.toNat = true)
include last serves

theorem gafRequestOp_pends (free : s.gaf.pend = none) : gafRequestOp target.toNat s = { s with gaf := { s.gaf with pend := some target } } := by
  have served : ¬ (decide (target.toNat < s.power) = false ∧ target.toNat ≠ s.power ∧ s.allows target.toNat = false) := by
    simp only [decide_eq_false_iff_not]
    rintro ⟨noWake, other, no⟩
    simp [noWake, other, no] at serves
  unfold gafRequestOp
  rw [runs]
  dsimp only
  rw [if_neg (by simp [last]), if_neg served, free]
  dsimp only
  rw [if_neg (by simp [last]), BitVec.ofNat_toNat, BitVec.setWidth_eq, State.modGaf]

theorem gafRequestOp_replaces {p : BitVec 2} (held : s.gaf.pend = some p) (room : Room s Reg.GAF_SUPERSEDED) :
    let u := gafRequestOp target.toNat s
    u.ctr Reg.GAF_SUPERSEDED = s.ctr Reg.GAF_SUPERSEDED + 1 ∧
    u.gaf.pend = (if s.power ≤ target.toNat ∧ p.toNat < s.power then some p else some target) := by
  have served : ¬ (decide (target.toNat < s.power) = false ∧ target.toNat ≠ s.power ∧ s.allows target.toNat = false) := by
    simp only [decide_eq_false_iff_not]
    rintro ⟨noWake, other, no⟩
    simp [noWake, other, no] at serves
  have present : (s.inc Reg.GAF_SUPERSEDED).power = s.power := by rw [State.inc_eq s _ room]; rfl
  have count : (s.inc Reg.GAF_SUPERSEDED).ctr Reg.GAF_SUPERSEDED = s.ctr Reg.GAF_SUPERSEDED + 1 := by
    rw [State.inc_eq s _ room, State.ctr, mlook_mstore_same]
  have pend : (s.inc Reg.GAF_SUPERSEDED).gaf.pend = some p := by rw [State.inc_eq s _ room]; exact held
  unfold gafRequestOp
  rw [runs]
  dsimp only
  rw [if_neg (by simp [last]), if_neg served, held]
  dsimp only
  rw [if_neg (by simp [last]), present]
  generalize s.inc Reg.GAF_SUPERSEDED = u at count pend ⊢
  by_cases sleep : s.power ≤ target.toNat ∧ p.toNat < s.power
  · rw [if_pos ⟨by simp [sleep.1], sleep.2⟩, if_pos sleep]
    exact ⟨count, pend⟩
  · rw [if_neg (by simpa using sleep), if_neg sleep]
    exact ⟨count, by simp [State.modGaf]⟩

end Pending

/-! ### Answers with no transition running -/

section Quiet
variable {s : State}

theorem settleDrain_none (idle : s.gaf.trans = none) : settleDrain s = s := by
  unfold settleDrain
  rw [idle]

theorem settleDrain_other {t : Transition} (runs : s.gaf.trans = some t) (step : t.step ≠ 2) : settleDrain s = s := by
  unfold settleDrain
  rw [runs]
  dsimp only
  rw [if_neg (by simp [step])]

theorem drainTimeoutOp_none (idle : s.gaf.trans = none) : drainTimeoutOp s = s := by
  unfold drainTimeoutOp
  rw [idle]

theorem drainTimeoutOp_other {t : Transition} (runs : s.gaf.trans = some t) (step : t.step ≠ 2) : drainTimeoutOp s = s := by
  unfold drainTimeoutOp
  rw [runs]
  dsimp only
  rw [if_neg (by simp [step])]

theorem transitionDoneOp_none (idle : s.gaf.trans = none) (n : Nat) : transitionDoneOp n s = s := by
  unfold transitionDoneOp
  dsimp only
  rw [settleDrain_none idle, idle]

variable {d : Nat}

theorem ackDom_none (idle : s.gaf.trans = none) : ackDom s d = s := by
  unfold ackDom
  rw [idle]

theorem refuseDom_none (idle : s.gaf.trans = none) (n : Nat) : refuseDom s d n = s := by
  unfold refuseDom
  rw [idle]

theorem ackDom_unasked {t : Transition} (runs : s.gaf.trans = some t) (unasked : d ∉ t.waiting) : ackDom s d = s := by
  unfold ackDom
  rw [runs]
  dsimp only
  rw [if_neg (by simp [unasked])]

theorem refuseDom_unasked {t : Transition} (runs : s.gaf.trans = some t) (unasked : d ∉ t.waiting) (n : Nat) : refuseDom s d n = s := by
  unfold refuseDom
  rw [runs]
  dsimp only
  rw [if_neg (by simp [unasked])]

/-- A domain that nobody asked changes nothing by its answer or its silence. -/
theorem answer_unasked (settled : settleDrain s = s) (own : d ∉ s.gaf.sleepAsk) (ack : ackDom s d = s) (refuse : ∀ n, refuseDom s d n = s)
    (a : DomAnswer) : domainAnswerOp d a s = s ∧ answerTimeoutOp d s = s := by
  have asked : s.gaf.sleepAsk.contains d = false := by simpa using own
  constructor
  · unfold domainAnswerOp
    dsimp only
    rw [settled, asked]
    cases a with
    | delay => rfl
    | ack =>
      dsimp only
      rw [if_neg Bool.false_ne_true, ack]
      exact ite_self _
    | refuse =>
      dsimp only
      cases s.refusal d with
      | none => rfl
      | some r => exact (if_neg Bool.false_ne_true).trans (refuse r)
  · unfold answerTimeoutOp
    dsimp only
    rw [settled, asked]
    exact (if_neg Bool.false_ne_true).trans (refuse 1)

end Quiet

/-! ### Answers to an entry that asks its domains (R513 to R515) -/

section Asked
variable {s : State} {d : Nat} (settled : settleDrain s = s)
include settled

theorem domainAnswerOp_delay : domainAnswerOp d .delay s = s := settled

theorem domainAnswerOp_ackLate (no : s.mayAck d = false) : domainAnswerOp d .ack s = s := by
  unfold domainAnswerOp
  dsimp only
  rw [settled]
  exact if_pos no

theorem domainAnswerOp_noReason (none : s.refusal d = none) : domainAnswerOp d .refuse s = s := by
  unfold domainAnswerOp
  dsimp only
  rw [settled]
  rw [none]

variable (own : d ∉ s.gaf.sleepAsk)
include own

theorem domainAnswerOp_ack (may : s.mayAck d = true) : domainAnswerOp d .ack s = ackDom s d := by
  unfold domainAnswerOp
  dsimp only
  rw [settled]
  rw [if_neg (by simp [may]), if_neg (by simpa using own)]

theorem domainAnswerOp_refuse {r : Nat} (reason : s.refusal d = some r) : domainAnswerOp d .refuse s = refuseDom s d r := by
  unfold domainAnswerOp
  dsimp only
  rw [settled]
  rw [reason]
  exact if_neg (by simpa using own)

theorem answerTimeoutOp_refuse : answerTimeoutOp d s = refuseDom s d 1 := by
  unfold answerTimeoutOp
  dsimp only
  rw [settled]
  exact if_neg (by simpa using own)

end Asked

section Entry
variable {s : State} {d : Nat} {t : Transition} (runs : s.gaf.trans = some t) (asked : d ∈ t.waiting) (on : t.ending = none)
include runs asked on

theorem refuseDom_ends (r : Nat) : refuseDom s d r =
    undoEntry (raise0 (((gafSts s s.power 1 r d).set (Reg.GAF_DOM_STS_LAST_REASON d) r).inc Reg.GAF_REFUSED) 0x0302 0) t 1 := by
  unfold refuseDom
  rw [runs]
  dsimp only
  rw [if_pos ⟨List.contains_iff_mem.2 asked, on⟩]

/-- What a bank that retains its contents leaves by its ACK, while others have yet to answer. -/
def retained (s : State) (d : Nat) (t : Transition) : State :=
  { s with gaf := { s.gaf with doms := mstore .on d .retain s.gaf.doms,
                               trans := some { t with waiting := ldel d t.waiting, taken := ladd d t.taken } } }

omit runs asked on in
theorem domDown_bank (bank : domKind d = 3 ∨ domKind d = 4) :
    domDown s d = { s with gaf := { s.gaf with doms := mstore .on d .retain s.gaf.doms } } := by
  have down : domDown s d = s.setDom d .retain := by
    unfold domDown downTo
    rcases bank with k | k <;> rw [k] <;> rfl
  have engine : (103 : Nat) ≠ d := by rintro rfl; revert bank; decide
  have kept : mlook .on 103 (s.modGaf (fun g => { g with doms := mstore .on d .retain g.doms })).gaf.doms = mlook .on 103 s.gaf.doms :=
    mlook_mstore_ne .on .on .retain s.gaf.doms engine
  rw [down]
  exact if_pos (congrArg (fun p => decide (p = DomPower.off)) kept.symm)

theorem ackDom_retains (bank : domKind d = 3 ∨ domKind d = 4) (stays : t.abandon = false) (calm : s.rung < 3) (others : ∃ e ∈ t.waiting, e ≠ d) :
    ackDom s d = retained s d t := by
  have ended : modTrans (domDown s d) (fun x => { x with waiting := ldel d x.waiting, taken := ladd d x.taken }) = retained s d t := by
    rw [domDown_bank bank, modTrans, State.modGaf]
    dsimp only
    rw [runs]
    rfl
  have trans : (retained s d t).gaf.trans = some { t with waiting := ldel d t.waiting, taken := ladd d t.taken } := rfl
  have rung : (retained s d t).rung = s.rung := rfl
  have left : ldel d t.waiting ≠ [] := by
    obtain ⟨e, waits, other⟩ := others
    exact List.ne_nil_of_mem (List.mem_filter.2 ⟨waits, decide_eq_true other⟩)
  unfold ackDom
  rw [runs]
  dsimp only
  rw [if_pos ⟨List.contains_iff_mem.2 asked, on⟩, ended]
  generalize retained s d t = u at trans rung ⊢
  unfold goOn
  rw [trans]
  dsimp only
  rw [if_neg (by simp [abandonNow, stays, rung, calm]), trans]
  exact if_neg left

end Entry

theorem refusal_buffer {s : State} {d : Nat} (bank : domKind d = 2) (held : s.bufferHeld = true) : s.refusal d = some 5 := by
  unfold State.refusal
  rw [bank]
  exact if_pos held

/-! ### Draining, and the end (R511, R514, R517) -/

section Done
variable {s : State} {t : Transition} (runs : s.gaf.trans = some t) (on : t.ending = none)
include runs on

theorem transitionDoneOp_asks (asks : t.step = 3) (n : Nat) : transitionDoneOp n s = s := by
  unfold transitionDoneOp
  dsimp only
  rw [settleDrain_other runs (by omega), runs]
  dsimp only
  rw [on]
  dsimp only
  rw [if_neg (by omega), if_neg (by omega)]

/-- A sleep entry at its last step ends, and a pending request starts. -/
theorem transitionDoneOp_last (last : t.step = 4) (n : Nat) : transitionDoneOp n s = match (reached s t n).gaf.pend with
    | some p => startRequest ((reached s t n).modGaf (fun g => { g with pend := none })) p.toNat
    | none => reached s t n := by
  unfold transitionDoneOp
  dsimp only
  rw [settleDrain_other runs (by omega), runs]
  dsimp only
  rw [on]
  dsimp only
  exact if_pos last

theorem drainTimeoutOp_drops (drains : t.step = 2) (none : ∀ k < 32, (s.korPort k).cueRx = [] ∧ (s.korPort k).cueSpots = []) :
    drainTimeoutOp s = settleDrain (dropAll s (s.framesWhere (fun f => f.pool.isSome || decide (f.cells ≠ 0))) Reg.GAF_STATE_DROP) := by
  unfold drainTimeoutOp
  rw [runs]
  dsimp only
  rw [if_pos ⟨drains, on⟩]
  generalize s.framesWhere (fun f => f.pool.isSome || decide (f.cells ≠ 0)) = ids
  have ports (k : Nat) : (dropAll s ids Reg.GAF_STATE_DROP).korPort k = s.korPort k :=
    korPort_of_kor (kor_foldl (fun s i => dropFrame_kor s i _) ids s) k
  generalize dropAll s ids Reg.GAF_STATE_DROP = u at ports ⊢
  refine congrArg settleDrain (List.foldlRecOn (motive := fun x => x = u) _ _ rfl fun x same k listed => ?_)
  obtain ⟨rx, spots⟩ := none k (List.mem_range.1 listed)
  rw [same, ports, rx, spots]
  rfl

omit runs on in
/-- TRIM reached from RUN (R510, R511). -/
theorem reached_trim (trim : t.target = 1) (src : t.source = 0) (noTakeover : s.fab.takeoverDue = false) (n : Nat) : reached s t n =
    raise0 ((gafSts { s with gaf := { s.gaf with trans := none, admission := true } } 1 0 0 0x7F).inc Reg.GAF_TRANSITIONS) 0x0301 0 := by
  have opened : s.modGaf (fun g => { g with trans := none, admission := g.admission || decide (t.target.toNat ≤ 1) }) =
      { s with gaf := { s.gaf with trans := none, admission := true } } := by
    rw [State.modGaf, trim, decide_eq_true (show (1 : BitVec 2).toNat ≤ 1 by decide), Bool.or_true]
  have fab (u : State) : (raise0 (u.inc Reg.GAF_TRANSITIONS) 0x0301 0).fab.takeoverDue = u.fab.takeoverDue := by
    have work : SameWork u (raise0 (u.inc Reg.GAF_TRANSITIONS) 0x0301 0) := (inc_work _ _).trans (raise0_work _ _ _)
    exact (congrArg (fun x => x.fab.takeoverDue) work).trans rfl
  unfold reached
  dsimp only
  rw [opened, src]
  simp only [if_neg (show ¬ (0 : BitVec 2) = 3 by decide)]
  rw [fab, gafSts, State.wr_fab, trim, if_neg (by simp [noTakeover])]
  rfl

end Done

end Sys2Proof.Machine

namespace Sys2Proof.Proofs
open Sys2Proof.Machine

/-- Settles O53: a request by the transition that runs, an answer by whether its domain was asked, an end by the pending request. -/
theorem powerTransitions : Obligations.PowerTransitions := by
  constructor
  · intro s who target serves unlocked
    have only : OnlyRegs [Reg.GAF_REQ] s (storeReg Reg.GAF_REQ (w32 target.toNat) s) := onlyRegs_storeReg (by decide) unlocked _
    refine ⟨_, owner_next serves rfl (gafReqWrite_eq target s), only, ?_⟩
    generalize storeReg Reg.GAF_REQ (w32 target.toNat) s = t at only ⊢
    have power := only.power_eq (by decide)
    have allows := only.allows_eq (by decide)
    have paired := only.flag Reg.FAB_PAIR_CFG_PAIRED (by decide)
    have ctr := only.ctr_eq Reg.GAF_SUPERSEDED
    simp only [Room, ← only.gaf_eq, ← only.fab_eq, ← power, ← allows, ← paired, ← ctr]
    refine ⟨fun idle => ⟨fun present => ?_, fun deeper no => ?_, fun deeper yes h => ?_, fun present trim yes => ?_, fun wake => ?_⟩,
      fun r runs wakes on same free => gafRequestOp_again runs wakes on same free,
      fun r runs asks on wake free => gafRequestOp_abandons runs asks on wake free,
      fun r runs last h => ⟨fun free => gafRequestOp_pends runs last h free, fun p held room => gafRequestOp_replaces runs last h held room⟩⟩
    · rw [gafRequestOp_starts idle, startRequest_present present]
    · rw [gafRequestOp_starts idle, startRequest_refused deeper no]
    · rw [gafRequestOp_starts idle, startRequest_sleeps deeper yes, startSleep_paired h]
    · rw [gafRequestOp_starts idle, startRequest_sleeps (by omega) yes, startSleep_trim present]
    · rw [gafRequestOp_starts idle, startRequest_wakes wake]
      rfl
  · intro s d a n t run
    have done {x : State} (h : transitionDoneOp n s = x) : exec (.gafTransitionDone n) s = .next (serveAll x) :=
      exec_of_live run rfl (congrArg serveAll h)
    have answer {a : DomAnswer} {x : State} (h : domainAnswerOp d a s = x) : exec (.domainAnswer d a) s = .next x := live_next run rfl h
    have silence {x : State} (h : answerTimeoutOp d s = x) : exec (.domainAnswerTimeout d) s = .next x := live_next run rfl h
    have drained {x : State} (h : drainTimeoutOp s = x) : exec .admissionDrainTimeout s = .next x := live_next run rfl h
    refine ⟨fun idle own => ?_, fun runs asks on => ?_, fun runs drains on none => drained (drainTimeoutOp_drops runs on drains none),
      fun runs last on free => done ?_, fun p runs last on held => done ?_, fun trim src noTakeover => reached_trim trim src noTakeover n⟩
    · obtain ⟨answered, timed⟩ := answer_unasked (d := d) (settleDrain_none idle) (by simp [own]) (ackDom_none idle) (refuseDom_none idle) a
      exact ⟨answer answered, silence timed, drained (drainTimeoutOp_none idle), done (transitionDoneOp_none idle n)⟩
    · have settled : settleDrain s = s := settleDrain_other runs (by omega)
      refine ⟨answer (domainAnswerOp_delay settled), drained (drainTimeoutOp_other runs (by omega)), done (transitionDoneOp_asks runs on asks n),
        fun no => answer (domainAnswerOp_ackLate settled no), fun none => answer (domainAnswerOp_noReason settled none),
        fun asked own bank may stays calm others => ?_,
        fun r asked own reason => answer ((domainAnswerOp_refuse settled own reason).trans (refuseDom_ends runs asked on r)), refusal_buffer,
        fun asked own => silence ((answerTimeoutOp_refuse settled own).trans (refuseDom_ends runs asked on 1)), fun unasked own => ?_⟩
      · refine ⟨retained s d t, answer ((domainAnswerOp_ack settled own may).trans (ackDom_retains runs asked on bank stays calm others)), ?_,
          rfl, rfl, rfl, rfl⟩
        rw [dom_stored (by omega)]
        exact mlook_mstore_same DomPower.on d.val .retain s.gaf.doms
      · obtain ⟨answered, timed⟩ := answer_unasked settled own (ackDom_unasked runs unasked) (refuseDom_unasked runs unasked) a
        exact ⟨answer answered, silence timed⟩
    · rw [transitionDoneOp_last runs on last, free]
    · rw [transitionDoneOp_last runs on last, held]

end Sys2Proof.Proofs
end

section
/-! SUPPORT. The channels of the utility cipher engine: what START, FEED, its end and ABORT do, by the channel's state and the key
(12 R459 to R467). -/

namespace Sys2Proof.Machine

/-! ### A count that finds room -/

/-- A count with room changes the counters alone, and of them its own. -/
theorem inc_counted {s : State} {off : Nat} (room : Room s off) : ∃ x : Cnt, s.inc off = { s with cnt := x } ∧
    mlook 0 off x.vals = s.ctr off + 1 ∧ ∀ a, a ≠ off → mlook 0 a x.vals = s.ctr a :=
  ⟨{ s.cnt with vals := mstore 0 off (s.ctr off + 1) s.cnt.vals }, s.inc_eq off room, mlook_mstore_same 0 off (s.ctr off + 1) s.cnt.vals,
    fun _ other => mlook_mstore_ne 0 0 (s.ctr off + 1) s.cnt.vals other⟩

theorem withCnt_get (s : State) (x : Cnt) (f : Field) : ({ s with cnt := x } : State).get f = s.get f := rfl

/-! ### Channel commands (R459, R472) -/

theorem uceWord_fields {op n : Nat} (h : op < 4) (last : Bool) (small : n < 2 ^ 14) : fieldOf (Reg.UCE_CTRL_OP 0) (uceWord op last n) = op ∧
    fieldOf (Reg.UCE_CTRL_LAST 0) (uceWord op last n) = b2n last ∧ fieldOf (Reg.UCE_CTRL_SEG_LEN 0) (uceWord op last n) = n :=
  ⟨fieldOf_word_at [] rfl (by decide) (by decide) h,
    fieldOf_word_at [(Reg.UCE_CTRL_OP 0, op)] rfl (by decide) (by decide) (by cases last <;> decide),
    fieldOf_word_at [(Reg.UCE_CTRL_OP 0, op), (Reg.UCE_CTRL_LAST 0, b2n last)] rfl (by decide) (by decide) small⟩

theorem uceCtrlWrite_foreign {who : Who} {c : Nat} (foreign : partyOf who ≠ c) (w : Word) (s : State) : uceCtrlWrite who c w s = s :=
  if_pos foreign

section Party
variable {who : Who} {c : Nat} (mine : partyOf who = c) (s : State)
include mine

theorem uceCtrlWrite_starts : uceCtrlWrite who c (uceWord 1 false 0) s = uceStartOp c s := by
  unfold uceCtrlWrite
  rw [(uceWord_fields (by decide) false (by decide)).1, if_neg (not_not.2 mine)]
  rfl

theorem uceCtrlWrite_aborts : uceCtrlWrite who c (uceWord 3 false 0) s = uceAbortOp c s := by
  unfold uceCtrlWrite
  rw [(uceWord_fields (by decide) false (by decide)).1, if_neg (not_not.2 mine)]
  rfl

theorem uceCtrlWrite_feeds (last : Bool) (n : BitVec 14) : uceCtrlWrite who c (uceWord 2 last n.toNat) s = uceFeedOp c last n.toNat s := by
  obtain ⟨op, flag, len⟩ := uceWord_fields (op := 2) (by decide) last n.isLt
  have named : decide (b2n last = 1) = last := by cases last <;> rfl
  unfold uceCtrlWrite
  rw [op, flag, len, named, if_neg (not_not.2 mine)]
  rfl

end Party

theorem firmwareOwn_uceCtrl (c : Fin 2) : firmwareOwn (Reg.UCE_CTRL c) = true := by
  revert c
  decide +kernel

/-! ### What a channel's registers and the outputs have to do with each other -/

theorem chan_modChan (s : State) (c : Nat) (f : UceChan → UceChan) : (s.modChan c f).chan c = f (s.chan c) := by
  unfold State.chan State.modChan
  split <;> rfl

theorem modChan_slots (s : State) (c : Nat) (f : UceChan → UceChan) : (s.modChan c f).vlt.slots = s.vlt.slots := by
  unfold State.modChan State.modVlt
  dsimp only
  split <;> rfl

theorem modChan_frame (s : State) (c : Nat) (f : UceChan → UceChan) : ∃ v, s.modChan c f = { s with vlt := v } := ⟨_, rfl⟩

/-- UCE_STS is none of the registers that an end zeroes. -/
theorem zeroOutputs_sts (s : State) {c : Nat} (h : c < 2) : (zeroOutputs s c).rd (Reg.UCE_STS c) = s.rd (Reg.UCE_STS c) := by
  have kept : (!(decide (Reg.UCE_OUT c 0 ≤ Reg.UCE_STS c) && decide (Reg.UCE_STS c < Reg.UCE_OUT c 2048)) &&
      !(decide (Reg.UCE_TAG c 0 ≤ Reg.UCE_STS c) && decide (Reg.UCE_STS c < Reg.UCE_TAG c 4))) = true := by
    interval_cases c <;> decide
  unfold zeroOutputs State.rd mlook
  dsimp only
  rw [mget_filter_key (fun a => !(decide (Reg.UCE_OUT c 0 ≤ a) && decide (a < Reg.UCE_OUT c 2048)) &&
      !(decide (Reg.UCE_TAG c 0 ≤ a) && decide (a < Reg.UCE_TAG c 4))), if_pos kept]

theorem zeroOutputs_cnt (s : State) (c : Nat) : (zeroOutputs s c).cnt = s.cnt := rfl
theorem zeroOutputs_vlt (s : State) (c : Nat) : (zeroOutputs s c).vlt = s.vlt := rfl

theorem uceSts_slotSts {c i : Nat} (h : c < 2) : Reg.UCE_STS c ≠ Reg.UCE_SLOT_STS i := by
  simp only [Reg.UCE_STS, Reg.UCE_SLOT_STS]
  omega

/-- IN_USE of a slot stays as its status word is shown anew. -/
theorem showSlot_used (s : State) (i : Nat) : (showSlot s i).flag (Reg.UCE_SLOT_STS_IN_USE i) = s.flag (Reg.UCE_SLOT_STS_IN_USE i) := by
  have bit (b : Bool) : b2n b < 2 ^ 1 := by cases b <;> decide
  have read (b : Bool) : (b2n b != 0) = b := by cases b <;> rfl
  unfold showSlot
  dsimp only
  generalize s.flag (Reg.UCE_SLOT_STS_IN_USE i) = used
  have shown {w : Word} (h : fieldOf (Reg.UCE_SLOT_STS_IN_USE 0) w = b2n used) :
      (s.wr (Reg.UCE_SLOT_STS i) w).flag (Reg.UCE_SLOT_STS_IN_USE i) = used :=
    (congrArg (fun n => n != 0) ((State.get_wr s w (Reg.UCE_SLOT_STS_IN_USE i)).trans h)).trans (read used)
  cases s.keySlot i with
  | none => exact shown (fieldOf_word_at [] rfl (by decide) (by decide) (bit used))
  | some k => exact shown (fieldOf_word_at [(Reg.UCE_SLOT_STS_STATE 0, _)] rfl (by decide) (by decide) (bit used))

/-! ### START (R460 to R463) -/

section Start
variable {s : State} {c : Nat}

theorem uceStartOp_sequence (err : startErr s c = 4) : uceStartOp c s = endOp (s.inc (Reg.UCE_OPS c)) c 8 4 := by
  unfold uceStartOp
  dsimp only
  rw [if_pos err]

/-- A START that is refused, before it is counted. -/
def startFailed (s : State) (c err : Nat) : State := (zeroOutputs ((s.wr (Reg.UCE_STS c) 0).set (Reg.UCE_STS_STATE c) 8) c).set (Reg.UCE_STS_ERR c) err

theorem uceStartOp_fails (some : startErr s c ≠ 0) (other : startErr s c ≠ 4) :
    uceStartOp c s = (startFailed (s.inc (Reg.UCE_OPS c)) c (startErr s c)).inc (Reg.UCE_FAILS c) := by
  unfold uceStartOp
  dsimp only
  rw [if_neg other, if_pos some]
  rfl

theorem startFailed_fields (s : State) (h : c < 2) {err : Nat} (small : err < 256) :
    (startFailed s c err).uceState c = 8 ∧ (startFailed s c err).get (Reg.UCE_STS_ERR c) = err := by
  have set : ((s.wr (Reg.UCE_STS c) 0).set (Reg.UCE_STS_STATE c) 8).get (Reg.UCE_STS_STATE c) = 8 := State.get_set_held rfl _ (by exact (by decide : 8 < 2 ^ 4))
  constructor
  · exact (State.get_set_other rfl _ _).trans ((State.get_of_rd (zeroOutputs_sts _ h)).trans set)
  · exact State.get_set_held rfl _ (by exact small)

theorem startFailed_cnt (s : State) (c err : Nat) : (startFailed s c err).cnt = s.cnt := by
  rw [startFailed, State.set_cnt, zeroOutputs_cnt, State.set_cnt, State.wr_cnt]

theorem startFailed_vlt (s : State) (c err : Nat) : (startFailed s c err).vlt = s.vlt := by
  rw [startFailed, State.set_vlt, zeroOutputs_vlt, State.set_vlt, State.wr_vlt]

/-- A START that is refused counts as an operation and as a failure (R461, R472). -/
theorem uceStartOp_refused (h : c < 2) (err : startErr s c ∈ [1, 2, 3, 5]) (ops : Room s (Reg.UCE_OPS c)) (fails : Room s (Reg.UCE_FAILS c)) :
    let t := uceStartOp c s
    t.uceState c = 8 ∧ t.get (Reg.UCE_STS_ERR c) = startErr s c ∧ t.ctr (Reg.UCE_OPS c) = s.ctr (Reg.UCE_OPS c) + 1 ∧
    t.ctr (Reg.UCE_FAILS c) = s.ctr (Reg.UCE_FAILS c) + 1 ∧ t.vlt = s.vlt := by
  obtain ⟨e, code⟩ : ∃ e, startErr s c = e := ⟨_, rfl⟩
  rw [code] at err
  have codes : e ≠ 0 ∧ e ≠ 4 ∧ e < 256 := by
    simp only [List.mem_cons, List.not_mem_nil, or_false] at err
    omega
  have apart : Reg.UCE_FAILS c ≠ Reg.UCE_OPS c := by simp only [Reg.UCE_FAILS, Reg.UCE_OPS]; omega
  rw [uceStartOp_fails (by rw [code]; exact codes.1) (by rw [code]; exact codes.2.1), code]
  obtain ⟨x, counted, own, others⟩ := inc_counted ops
  rw [counted]
  obtain ⟨state, shown⟩ := startFailed_fields ({ s with cnt := x } : State) h codes.2.2
  have cnt := startFailed_cnt ({ s with cnt := x } : State) c e
  have vlt := startFailed_vlt ({ s with cnt := x } : State) c e
  generalize startFailed _ c e = u at state shown cnt vlt ⊢
  have count (a : Nat) : u.ctr a = mlook 0 a x.vals := by rw [State.ctr, cnt]
  obtain ⟨y, failed, fail, rest⟩ := inc_counted (s := u) (off := Reg.UCE_FAILS c) (by rw [Room, count, others _ apart]; exact fails)
  rw [failed]
  refine ⟨(withCnt_get u y _).trans state, (withCnt_get u y _).trans shown, (rest _ apart.symm).trans ((count _).trans own), fail.trans ?_, vlt⟩
  rw [count, others _ apart]

/-- The channel of an operation that begins. -/
def chanBegun (s : State) (c m : Nat) (h : UceChan) : UceChan :=
  { h with
    mode := m, decrypt := s.flag (Reg.UCE_MODE_DECRYPT c), pad := decide (s.get (Reg.UCE_MODE_PAD c) = 1),
    slot := s.get (Reg.UCE_MODE_SLOT c), total := s.uceTotal c, aadLen := (s.rd (Reg.UCE_AAD_LEN c)).toNat, fed := [], made := 0, seg := 0,
    last := false, doneAt := none,
    core := match (if keyedMode m then s.keySlot (s.get (Reg.UCE_MODE_SLOT c)) else none) with
      | some k => h.core.loadKey k.key
      | none => h.core.wipe }

/-- The channel READY, its slot not yet marked. -/
def opReady (s : State) (c m : Nat) : State := (s.modChan c (chanBegun s c m)).wr (Reg.UCE_STS c) (word [(Reg.UCE_STS_STATE 0, 2)])

/-- An operation begins. -/
def opBegun (s : State) (c m : Nat) : State :=
  let slot := s.get (Reg.UCE_MODE_SLOT c)
  if keyedMode m then showSlot ((opReady s c m).setFlag (Reg.UCE_SLOT_STS_IN_USE slot) true) slot else opReady s c m

theorem uceStartOp_begins (err : startErr s c = 0) : uceStartOp c s = opBegun (s.inc (Reg.UCE_OPS c)) c (s.get (Reg.UCE_MODE_MODE c)) := by
  unfold uceStartOp
  dsimp only
  rw [if_neg (by omega), if_neg (not_not.2 err)]
  rfl

theorem opReady_state (s : State) (c m : Nat) : (opReady s c m).uceState c = 2 :=
  (State.get_wr _ _ (Reg.UCE_STS_STATE c)).trans (fieldOf_word_at (f := Reg.UCE_STS_STATE 0) [] rfl (by decide) (by decide) (by decide))

theorem opBegun_regsOnly (s : State) (c m : Nat) : RegsOnly (opReady s c m) (opBegun s c m) := by
  unfold opBegun
  dsimp only
  split
  · exact ((RegsOnly.refl _).setFlag _ _).trans (showSlot_regsOnly _ _)
  · exact RegsOnly.refl _

theorem opBegun_vlt (s : State) (c m : Nat) : (opBegun s c m).vlt = (s.modChan c (chanBegun s c m)).vlt := by
  rw [(opBegun_regsOnly s c m).vlt_eq, opReady, State.wr_vlt]

theorem opBegun_cnt (s : State) (c m : Nat) : (opBegun s c m).cnt = s.cnt := by
  have kept : (opBegun s c m).cnt = (opReady s c m).cnt := (congrArg State.cnt (opBegun_regsOnly s c m)).trans rfl
  rw [kept, opReady, State.wr_cnt, State.modChan, State.modVlt_cnt]

theorem opBegun_chan (s : State) (c m : Nat) : (opBegun s c m).chan c = chanBegun s c m (s.chan c) := by
  rw [State.chan, opBegun_vlt, ← State.chan, chan_modChan]

theorem opBegun_state (s : State) (h : c < 2) (m : Nat) : (opBegun s c m).uceState c = 2 := by
  have ready := opReady_state s c m
  unfold opBegun
  dsimp only
  split
  · refine (State.get_of_rd (showSlot_rd _ (uceSts_slotSts h))).trans ?_
    exact (State.get_set_off _ _ _ _ (by exact uceSts_slotSts h)).trans ready
  · exact ready

theorem opBegun_used (s : State) (c : Nat) {m : Nat} (keyed : keyedMode m = true) :
    (opBegun s c m).flag (Reg.UCE_SLOT_STS_IN_USE (s.get (Reg.UCE_MODE_SLOT c))) = true := by
  unfold opBegun
  dsimp only
  rw [if_pos keyed, showSlot_used]
  exact State.flag_setFlag_held rfl _ _

theorem chanBegun_key (s : State) (c : Nat) {m : Nat} (keyed : keyedMode m = true) (h : UceChan) {k : KeySlot}
    (loaded : s.keySlot (s.get (Reg.UCE_MODE_SLOT c)) = some k) : (chanBegun s c m h).core.key.value = k.key.value := by
  unfold chanBegun
  dsimp only
  rw [if_pos keyed, loaded]
  exact remask_value _ _

end Start

/-- A START that no rule refuses (R461, R463). -/
theorem uceStartOp_ready {s : State} {c : Nat} (h : c < 2) (err : startErr s c = 0) (ops : Room s (Reg.UCE_OPS c)) :
    let t := uceStartOp c s
    let slot := s.get (Reg.UCE_MODE_SLOT c)
    t.uceState c = 2 ∧ t.ctr (Reg.UCE_OPS c) = s.ctr (Reg.UCE_OPS c) + 1 ∧ (t.chan c).mode = s.get (Reg.UCE_MODE_MODE c) ∧ (t.chan c).fed = [] ∧
    (t.chan c).total = s.uceTotal c ∧ t.vlt.slots = s.vlt.slots ∧
    (keyedMode (s.get (Reg.UCE_MODE_MODE c)) = true → (t.chan c).slot = slot ∧ t.flag (Reg.UCE_SLOT_STS_IN_USE slot) = true ∧
      ∀ k, s.keySlot slot = some k → (t.chan c).core.key.value = k.key.value) := by
  obtain ⟨x, counted, own, -⟩ := inc_counted ops
  rw [uceStartOp_begins err, counted]
  generalize s.get (Reg.UCE_MODE_MODE c) = m
  have cnt := opBegun_cnt ({ s with cnt := x } : State) c m
  have chan := opBegun_chan ({ s with cnt := x } : State) c m
  have slots : (opBegun ({ s with cnt := x } : State) c m).vlt.slots = s.vlt.slots := by rw [opBegun_vlt, modChan_slots]
  refine ⟨opBegun_state _ h m, by rw [State.ctr, cnt]; exact own, by rw [chan]; rfl, by rw [chan]; rfl, by rw [chan]; rfl, slots,
    fun keyed => ⟨by rw [chan]; rfl, opBegun_used ({ s with cnt := x } : State) c keyed, fun k loaded => ?_⟩⟩
  rw [chan]
  exact chanBegun_key ({ s with cnt := x } : State) c keyed _ loaded

/-! ### FEED and its end, ABORT (R461 to R467) -/

/-- A segment within the rules, taken in. -/
def fedIn (s : State) (c : Nat) (last : Bool) (n : Nat) : State :=
  (s.modChan c (fun h => { h with fed := h.fed ++ uceIn s c n, seg := n, last := last })).set (Reg.UCE_STS_STATE c) 1

theorem fedIn_fields (s : State) (c : Nat) (last : Bool) (n : Nat) : (fedIn s c last n).uceState c = 1 ∧
    ((fedIn s c last n).chan c).fed = (s.chan c).fed ++ uceIn s c n ∧ ((fedIn s c last n).chan c).last = last ∧
    OnlyRegs [Reg.UCE_STS c] { s with vlt := (fedIn s c last n).vlt } (fedIn s c last n) := by
  have chan : (fedIn s c last n).chan c = { s.chan c with fed := (s.chan c).fed ++ uceIn s c n, seg := n, last := last } := by
    rw [State.chan, fedIn, State.set_vlt, ← State.chan, chan_modChan]
  refine ⟨State.get_set_held rfl _ (by exact (by decide : 1 < 2 ^ 4)), by rw [chan], by rw [chan], ?_⟩
  obtain ⟨v, frame⟩ := modChan_frame s c (fun h => { h with fed := h.fed ++ uceIn s c n, seg := n, last := last })
  rw [fedIn, frame, State.set_vlt]
  exact (OnlyRegs.refl _ _).set (List.mem_singleton_self _) _

section Feed
variable {s : State} {c : Nat} {last : Bool} {n : Nat}

theorem uceFeedOp_running (state : s.uceState c = 1) : uceFeedOp c last n s = endOp s c 8 4 := by
  unfold uceFeedOp
  dsimp only
  rw [if_pos (by omega), if_pos state]

theorem uceOpen_states (shut : s.uceOpen c = false) : s.uceState c ≠ 1 ∧ s.uceState c ≠ 2 := by
  simpa [State.uceOpen] using shut

theorem uceFeedOp_shut (shut : s.uceOpen c = false) : uceFeedOp c last n s = s := by
  obtain ⟨running, ready⟩ := uceOpen_states shut
  unfold uceFeedOp
  dsimp only
  rw [if_pos ready, if_neg running]

/-- A key wrap takes its input as one segment (R461, R462). -/
def SeqBad (ch : UceChan) (last : Bool) : Prop := (ch.mode = 6 ∨ ch.mode = 7) ∧ (last = false ∨ ch.fed ≠ [])

/-- The rules of a segment's length (R461, R462). -/
def LenBad (ch : UceChan) (last : Bool) (n : Nat) : Prop :=
  8192 < n ∨ (last = false ∧ n % 16 ≠ 0) ∨ ch.total < ch.fed.length + n ∨ (last = true ∧ ch.fed.length + n ≠ ch.total) ∨
    (ch.mode = 6 ∧ (n % 8 ≠ 0 ∨ n < 16)) ∨ (ch.mode = 7 ∧ (n = 0 ∨ 8176 < n))

theorem seqBad_iff (ch : UceChan) (last : Bool) :
    ((decide (ch.mode = 6) || decide (ch.mode = 7)) = true ∧ (last = false ∨ ch.fed ≠ [])) ↔ SeqBad ch last := by
  simp [SeqBad]

variable (ready : s.uceState c = 2)
include ready

theorem uceFeedOp_sequence (bad : SeqBad (s.chan c) last) : uceFeedOp c last n s = endOp s c 8 4 := by
  unfold uceFeedOp
  dsimp only
  rw [if_neg (by omega), if_pos ((seqBad_iff _ _).2 bad)]

variable (sound : ¬ SeqBad (s.chan c) last)
include sound

theorem uceFeedOp_length (bad : LenBad (s.chan c) last n) : uceFeedOp c last n s = endOp s c 8 2 := by
  unfold uceFeedOp
  dsimp only
  rw [if_neg (by omega), if_neg (mt (seqBad_iff _ _).1 sound)]
  exact if_pos bad

theorem uceFeedOp_runs (fits : ¬ LenBad (s.chan c) last n) : uceFeedOp c last n s = fedIn s c last n := by
  unfold uceFeedOp
  dsimp only
  rw [if_neg (by omega), if_neg (mt (seqBad_iff _ _).1 sound)]
  exact if_neg fits

end Feed

section Done
variable {s : State} {c : Nat}

theorem uceFeedDoneOp_idle (idle : s.uceState c ≠ 1) : uceFeedDoneOp c s = s := if_pos idle

theorem uceFeedDoneOp_gone (running : s.uceState c = 1) (keyed : keyedMode (s.chan c).mode = true) (gone : s.keySlot (s.chan c).slot = none) :
    uceFeedDoneOp c s = endOp s c 5 0 := by
  unfold uceFeedDoneOp
  dsimp only
  rw [if_neg (not_not.2 running), if_pos keyed, gone]

/-- What a FEED that ends well leaves, before the channel's next state. -/
def fedOut (s : State) (c : Nat) (e : FeedEnd) : State :=
  let t := (s.wrs (Reg.UCE_OUT c 0) ((leWords e.out).take 2048)).set (Reg.UCE_STS_OUT_LEN c) e.out.length
  let u := match e.tag with
    | some x => t.wrs (Reg.UCE_TAG c 0) (bytesWords 4 x)
    | none => t
  u.modChan c (fun h => { h with made := h.made + e.out.length })

variable {k : KeySlot} (running : s.uceState c = 1)
  (key : (keyedMode (s.chan c).mode = true ∧ s.keySlot (s.chan c).slot = some k) ∨ (keyedMode (s.chan c).mode = false ∧ k = noKeySlot))
include running key

theorem uceFeedDoneOp_eq : uceFeedDoneOp c s =
    let e := feedEnd s c (s.chan c) k
    if e.st ≠ 3 then endOp s c e.st 0
    else if (s.chan c).last then endOp (fedOut s c e) c 3 0 else (fedOut s c e).set (Reg.UCE_STS_STATE c) 2 := by
  have held : (if keyedMode (s.chan c).mode then s.keySlot (s.chan c).slot else some noKeySlot) = some k := by
    rcases key with ⟨keyed, slot⟩ | ⟨keyless, rfl⟩
    · rw [if_pos keyed, slot]
    · rw [if_neg (by simp [keyless])]
  unfold uceFeedDoneOp
  dsimp only
  rw [if_neg (not_not.2 running), held]
  rfl

theorem uceFeedDoneOp_fails (bad : (feedEnd s c (s.chan c) k).st ≠ 3) : uceFeedDoneOp c s = endOp s c (feedEnd s c (s.chan c) k).st 0 :=
  (uceFeedDoneOp_eq running key).trans (if_pos bad)

theorem uceFeedDoneOp_gives (good : (feedEnd s c (s.chan c) k).st = 3) : uceFeedDoneOp c s =
    if (s.chan c).last then endOp (fedOut s c (feedEnd s c (s.chan c) k)) c 3 0
    else (fedOut s c (feedEnd s c (s.chan c) k)).set (Reg.UCE_STS_STATE c) 2 :=
  (uceFeedDoneOp_eq running key).trans (if_neg (not_not.2 good))

end Done

section Abort
variable {s : State} {c : Nat}

theorem uceAbortOp_ends (opened : s.uceOpen c = true) : uceAbortOp c s = endOp s c 4 0 := if_pos opened

theorem uceAbortOp_late (complete : s.uceState c = 3) (now : (s.chan c).doneAt = some s.clk) :
    uceAbortOp c s = s.setFlag (Reg.UCE_STS_ABORT_LATE c) true := by
  unfold uceAbortOp
  rw [if_neg (by simp [State.uceOpen, complete]), if_pos ⟨complete, now⟩]

theorem uceAbortOp_idle (shut : s.uceOpen c = false) (past : s.uceState c ≠ 3 ∨ (s.chan c).doneAt ≠ some s.clk) : uceAbortOp c s = s := by
  unfold uceAbortOp
  rw [if_neg (by simp [shut]), if_neg]
  rintro ⟨complete, now⟩
  exact past.elim (absurd complete) (absurd now)

/-- A command whose operation changes nothing changes nothing, be its domains on or not. -/
theorem whenOn_still {ds : List Nat} {op : State → State} (still : op s = s) : whenOn ds op s = s := by
  unfold whenOn
  split
  · exact still
  · rfl

end Abort

end Sys2Proof.Machine

namespace Sys2Proof.Proofs
open Sys2Proof.Machine

/-- Settles O48: each command by the channel's party and state, a START by its error, a FEED's end by the slot's key and the mode. -/
theorem cipherChannels : Obligations.CipherChannels := by
  intro s who c last n serves ch slot sum seqBad lenBad
  have run := serves.1.1
  have acts {cmd : Instr} {w : Word} {t : State} (e : exec cmd s = .next (gateOwner who (Reg.UCE_CTRL c) (uceCtrlWrite who c w) s))
      (h : uceCtrlWrite who c w s = t) : exec cmd s = .next t :=
    e.trans (congrArg _ ((gateOwner_own _ serves (firmwareOwn_uceCtrl c)).trans h))
  refine ⟨fun foreign => ⟨acts rfl (uceCtrlWrite_foreign foreign _ s), acts rfl (uceCtrlWrite_foreign foreign _ s),
      acts rfl (uceCtrlWrite_foreign foreign _ s)⟩, fun mine => ?_, fun idle => live_next run rfl (whenOn_still (uceFeedDoneOp_idle idle)),
    fun on running => ?_⟩
  · have starts {t : State} (h : uceStartOp c s = t) : exec (.uceStart who c) s = .next t := acts rfl ((uceCtrlWrite_starts mine s).trans h)
    have feeds {t : State} (h : uceFeedOp c last n.toNat s = t) : exec (.uceFeed who c last n) s = .next t :=
      acts rfl ((uceCtrlWrite_feeds mine s last n).trans h)
    have aborts {t : State} (h : uceAbortOp c s = t) : exec (.uceAbort who c) s = .next t := acts rfl ((uceCtrlWrite_aborts mine s).trans h)
    refine ⟨fun err => starts (uceStartOp_sequence err), fun err ops fails => ?_, fun err ops => ?_,
      fun ready bad => feeds (uceFeedOp_sequence ready bad), fun ready sound bad => feeds (uceFeedOp_length ready sound bad),
      fun ready sound fits => ?_, fun running => feeds (uceFeedOp_running running), fun shut => feeds (uceFeedOp_shut shut),
      fun opened => aborts (uceAbortOp_ends opened), fun complete now => aborts (uceAbortOp_late complete now),
      fun shut past => aborts (uceAbortOp_idle shut past)⟩
    · exact ⟨_, starts rfl, uceStartOp_refused c.isLt err ops fails⟩
    · exact ⟨_, starts rfl, uceStartOp_ready c.isLt err ops⟩
    · exact ⟨_, feeds (uceFeedOp_runs ready sound fits), fedIn_fields s c last n.toNat⟩
  · have done {t : State} (h : uceFeedDoneOp c s = t) : exec (.uceFeedDone c) s = .next t := live_next run rfl ((whenOn_on _ on).trans h)
    exact ⟨fun keyed gone => done (uceFeedDoneOp_gone running keyed gone), fun k key => ⟨fun bad => done (uceFeedDoneOp_fails running key bad),
      fun good => done (uceFeedDoneOp_gives running key good)⟩⟩

end Sys2Proof.Proofs
end

section
/-! SUPPORT. Replication and SELF_TEST: each command by the role, the resync and the ring it meets (13 R496, R497, R499). -/

namespace Sys2Proof.Machine
variable {s : State}

/-! ### MARK cells and the resync (R496, R497) -/

theorem markRetryOp_unknown (none : s.fab.marks = []) (seq : Nat) : markRetryOp seq s = s := by
  unfold markRetryOp
  rw [none]
  rfl

/-- The one MARK that waits goes out again, under the SEQ of its new cell. -/
theorem markRetryOp_resends {cell : MarkCell} {seq : Nat} (only : s.fab.marks = [cell]) (named : cell.seq = seq) : markRetryOp seq s =
    (sendCell (s.modFab (fun f => { f with marks := [{ cell with seq := s.nextSeq cellMark s.partner }] })) cellMark s.partner cell.bytes).inc
      Reg.FAB_MARK_RETRIES := by
  have found : s.fab.marks.find? (fun c => decide (c.seq = seq)) = some cell := by simp [only, named]
  have renamed : s.modFab (fun f => { f with marks := f.marks.map (fun x => if x.seq = seq then { x with seq := s.nextSeq cellMark s.partner } else x) }) =
      s.modFab (fun f => { f with marks := [{ cell with seq := s.nextSeq cellMark s.partner }] }) := by
    rw [State.modFab, State.modFab, only, List.map_cons, List.map_nil, if_pos named]
  have partner (f : Fab → Fab) : (s.modFab f).partner = s.partner := s.modFab_get f _
  unfold markRetryOp
  rw [found]
  dsimp only
  rw [renamed, partner]

theorem resyncSweepOp_idle (h : s.fab.resync = none ∨ s.fab.role ≠ .active) : resyncSweepOp s = s := by
  unfold resyncSweepOp
  cases sweep : s.fab.resync with
  | none => rfl
  | some i =>
    have other : s.fab.role ≠ .active := h.resolve_left (by simp [sweep])
    exact if_pos (.inl other)

section Sweep
variable {i : Nat} (sweep : s.fab.resync = some i) (role : s.fab.role = .active) (inside : i < s.asc.size)
include sweep role inside

theorem resyncSweepOp_over (none : s.marksFrom i = []) :
    resyncSweepOp s = s.modFab (fun f => { f with resync := some s.asc.size }) := by
  unfold resyncSweepOp
  rw [sweep]
  dsimp only
  rw [if_neg (by simp [role, inside]), none]
  rfl

theorem resyncSweepOp_sends {l : Mark} (last : ((s.marksFrom i).take 7).getLast? = some l) : resyncSweepOp s =
    sendMark (s.modFab (fun f => { f with resync := some (l.index + 1) })) true [] ((s.marksFrom i).take 7) := by
  unfold resyncSweepOp
  rw [sweep]
  dsimp only
  rw [if_neg (by simp [role, inside]), last]

end Sweep

theorem resyncDoneOp_standIn (role : s.fab.role = .standIn) : resyncDoneOp s = s.setFlag Reg.FAB_STS_REPL_CURRENT true := by
  unfold resyncDoneOp
  rw [role]

theorem resyncDoneOp_other (active : s.fab.role ≠ .active) (standIn : s.fab.role ≠ .standIn) : resyncDoneOp s = s := by
  unfold resyncDoneOp
  cases role : s.fab.role with
  | active => exact absurd role active
  | standIn => exact absurd role standIn
  | none => rfl
  | init => rfl
  | fenced => rfl

theorem resyncDoneOp_active (role : s.fab.role = .active) : resyncDoneOp s =
    if s.fab.resync.any (fun i => decide (s.asc.size ≤ i)) && s.fab.marks.all (fun c => !c.resync) then resumeRepl s else s := by
  unfold resyncDoneOp
  rw [role]

theorem resyncDoneOp_resumes (role : s.fab.role = .active) {i : Nat} (sweep : s.fab.resync = some i) (past : s.asc.size ≤ i)
    (acked : ∀ c ∈ s.fab.marks, c.resync = false) : resyncDoneOp s = resumeRepl s := by
  rw [resyncDoneOp_active role, if_pos]
  simpa [sweep, past] using acked

theorem resyncDoneOp_waits (role : s.fab.role = .active) (h : s.fab.resync = none ∨ ∃ c ∈ s.fab.marks, c.resync = true) : resyncDoneOp s = s := by
  rw [resyncDoneOp_active role, if_neg]
  rw [Bool.and_eq_true, List.all_eq_true]
  rintro ⟨swept, acked⟩
  rcases h with none | ⟨c, held, waits⟩
  · simp [none] at swept
  · have done := acked c held
    rw [waits] at done
    exact Bool.false_ne_true done

/-! ### SELF_TEST (R499) -/

theorem selfTestRingOp_idle (h : s.fab.role ≠ .standIn ∨ s.selfTest = false) : selfTestRingOp s = s := if_pos h

section Ring
variable (role : s.fab.role = .standIn) (on : s.selfTest = true)
include role on

theorem selfTestRingOp_first (first : s.fab.selfRing = 0) :
    selfTestRingOp s = ringCmdWrite 0 (ringWord true 0xFFFF) (s.modFab (fun f => { f with selfRing := 1 })) := by
  unfold selfTestRingOp
  rw [if_neg (by simp [role, on])]
  dsimp only
  rw [first, if_pos rfl, if_pos (.inl rfl)]

/-- The result of the ring tested before is kept. -/
def katKept (s : State) (r : Nat) : State :=
  s.modFab (fun f => { f with katOk := s.fab.katOk <<< 1 ||| BitVec.ofNat 32 (b2n ((ringCores r).all (fun c => (s.core c).inService))) })

/-- The next ring tests its cores. -/
def nextRing (n : Nat) (u : State) : State := ringCmdWrite (n % 32) (ringWord true 0xFFFF) (u.modFab (fun f => { f with selfRing := n + 1 }))

/-- A ring stays awake after its test (R300, R499). -/
def RingStays (s : State) (r : Nat) : Prop :=
  s.power = 0 ∨ (katKept s r).ringMaySleep r = false ∨ s.flag (Reg.FRM_RING_CFG_KEEP_AWAKE r) = true

theorem selfTestRingOp_next (later : s.fab.selfRing ≠ 0) : let last := (s.fab.selfRing + 31) % 32
    (RingStays s last → selfTestRingOp s = nextRing s.fab.selfRing (katKept s last)) ∧
    (¬ RingStays s last → selfTestRingOp s = nextRing s.fab.selfRing (ringSleep (katKept s last) last)) := by
  intro last
  have kept : s.modFab (fun f => { f with katOk := f.katOk <<< 1 ||| BitVec.ofNat 32 (b2n ((ringCores last).all (fun c => (s.core c).inService))) }) =
      katKept s last := rfl
  have power : (katKept s last).power = s.power := s.modFab_get _ _
  have flag : (katKept s last).flag (Reg.FRM_RING_CFG_KEEP_AWAKE last) = s.flag (Reg.FRM_RING_CFG_KEEP_AWAKE last) := s.modFab_flag _ _
  have stays : (s.fab.selfRing = 0 ∨ (katKept s last).power = 0 ∨ (katKept s last).ringMaySleep last = false ∨
      (katKept s last).flag (Reg.FRM_RING_CFG_KEEP_AWAKE last) = true) ↔ RingStays s last := by
    rw [power, flag, RingStays, or_iff_right later]
  have tests : selfTestRingOp s = nextRing s.fab.selfRing (if s.fab.selfRing = 0 ∨ (katKept s last).power = 0 ∨
      (katKept s last).ringMaySleep last = false ∨ (katKept s last).flag (Reg.FRM_RING_CFG_KEEP_AWAKE last) = true then katKept s last
      else ringSleep (katKept s last) last) := by
    unfold selfTestRingOp
    rw [if_neg (by simp [role, on])]
    dsimp only
    rw [if_neg later, kept]
    rfl
  exact ⟨fun h => tests.trans (congrArg _ (if_pos (stays.2 h))), fun h => tests.trans (congrArg _ (if_neg (mt stays.1 h)))⟩

end Ring

theorem stateCrcTxOp_idle (h : s.fab.role ≠ .active ∨ s.selfTest = false) : stateCrcTxOp s = s := if_pos h

theorem stateCrcTxOp_sends (role : s.fab.role = .active) (on : s.selfTest = true) : let b := s.fab.crcBlock % max 1 s.stateBlocks
    stateCrcTxOp s = (sendCell s cellStateCrc s.partner (toBe 2 b ++ toBe 4 (blockCrc s b))).modFab (fun f => { f with crcBlock := b + 1 }) :=
  if_neg (by simp [role, on])

/-- A block before the last is compared, and a difference logged and raised. -/
theorem stateCrcRx_compares (role : s.fab.role = .standIn) (on : s.selfTest = true) {p : List Byte} (len : p.length = 6)
    (more : be (p.take 2) + 1 < s.stateBlocks) : stateCrcRx s s.partner p = if be (sub p 2 4) = blockCrc s (be (p.take 2)) then s
      else raise0 (pushDiverge (s.modFab (fun f => { f with crcBad := true })) (be (p.take 2))) 0x700A (be (p.take 2)) := by
  have pushed (t : State) (b : Nat) : (pushDiverge t b).asc = t.asc := by
    unfold pushDiverge
    split <;> rfl
  have size (t : State) (b : Nat) : (raise0 t 0x700A b).asc.size = t.asc.size :=
    (congrArg (fun x : State => x.asc.size) (raise0_work t 0x700A b)).trans rfl
  unfold stateCrcRx
  rw [if_neg (by simp [role, on, len])]
  dsimp only
  split
  · rw [if_neg (Nat.ne_of_lt more)]
  · rw [if_neg]
    rw [State.stateBlocks, size, pushed]
    exact Nat.ne_of_lt more

end Sys2Proof.Machine

namespace Sys2Proof.Proofs
open Sys2Proof.Machine

/-- Settles O52: each command by the device's role and by what replication or the ring before has left. -/
theorem pairsReplicate : Obligations.PairsReplicate := by
  intro s seq cell run
  exact ⟨fun none => live_next run rfl (markRetryOp_unknown none _), fun only named => live_next run rfl (markRetryOp_resends only named),
    fun h => live_next run rfl (resyncSweepOp_idle h), fun i sweep role inside none => live_next run rfl (resyncSweepOp_over sweep role inside none),
    fun i l sweep role inside last => live_next run rfl (resyncSweepOp_sends sweep role inside last),
    fun role => live_next run rfl (resyncDoneOp_standIn role),
    fun i role sweep past acked => live_next run rfl (resyncDoneOp_resumes role sweep past acked),
    fun role h => live_next run rfl (resyncDoneOp_waits role h), fun active standIn => live_next run rfl (resyncDoneOp_other active standIn),
    fun h => live_next run rfl (selfTestRingOp_idle h),
    fun role on => ⟨fun first => live_next run rfl (selfTestRingOp_first role on first),
      fun later => ⟨fun stays => live_next run rfl ((selfTestRingOp_next role on later).1 stays),
        fun sleeps => live_next run rfl ((selfTestRingOp_next role on later).2 sleeps)⟩⟩,
    fun h => live_next run rfl (stateCrcTxOp_idle h), fun role on => live_next run rfl (stateCrcTxOp_sends role on),
    fun p role on len more => stateCrcRx_compares role on len more⟩

end Sys2Proof.Proofs
end

section
/-! SUPPORT. Heartbeats, roles, fencing and planned switchover: each operation by the role and the path that it meets
(13 R487 to R489, R492, R493, R498, R501). -/

namespace Sys2Proof.Machine

/-! ### Roles and their ends (R489, R492, R493) -/

section Role
variable {s : State}

/-- A register field beside a change of the fabric's part and of other registers. -/
theorem OnlyRegs.flag_withFab {offs : List Nat} {t : State} {x : Fab} (h : OnlyRegs offs { s with fab := x } t) (f : Field) (k : f.off ∉ offs) :
    t.flag f = s.flag f := (h.flag f k).trans rfl

theorem endSwitch_idle (idle : s.fab.switching = false) : endSwitch s = s := if_neg (by simp [idle])

/-- The role alone, with REPL_CURRENT ended. -/
def roleTaken (s : State) (r : Role) : State := (s.modFab (fun f => { f with role := r })).setFlag Reg.FAB_STS_REPL_CURRENT false

theorem roleTaken_fab (s : State) (r : Role) : (roleTaken s r).fab = { s.fab with role := r } := by rw [roleTaken, State.setFlag_fab, State.modFab]

theorem roleTaken_onlyRegs (s : State) (r : Role) : OnlyRegs [Reg.FAB_STS] { s with fab := { s.fab with role := r } } (roleTaken s r) :=
  (OnlyRegs.refl _ (s.modFab _)).setFlag (by decide) _

theorem modFab_selfTest (s : State) (f : Fab → Fab) : (s.modFab f).selfTest = s.selfTest := s.modFab_flag f _

/-- Beside a switchover and without SELF_TEST a new role is no more than that. -/
theorem setRole_plain {r : Role} (other : r ≠ s.fab.role) (idle : s.fab.switching = false) (plain : s.selfTest = false) :
    setRole s r = roleTaken s r := by
  have still : (roleTaken s r).selfTest = false :=
    (State.flag_of_get (State.get_set_off _ _ _ _ (by decide))).trans ((modFab_selfTest s _).trans plain)
  unfold setRole
  dsimp only
  rw [if_neg other, endSwitch_idle idle]
  exact if_neg (by rw [← roleTaken, still]; exact Bool.false_ne_true)

theorem beginFence_idle (idle : s.fab.switching = false) (r : Role) :
    beginFence s r = s.modFab (fun f => { f with fencing := true, fenceTo := r }) := by
  rw [beginFence, endSwitch_idle idle]

/-- A device without replication has none to follow. -/
theorem settleRepl_off (off : s.flag Reg.ASC_CFG_REPL_EN = false) : settleRepl s = s := if_neg (by simp [off])

/-- ACTIVE with its epoch, YIELD and fencing ended. -/
def activeTaken (s : State) (epoch : Nat) : State :=
  (((roleTaken s .active).wr Reg.FAB_EPOCH (w32 epoch)).setFlag Reg.FAB_STS_YIELD false).modFab (fun f => { f with fencing := false })

theorem activeTaken_fab (s : State) (epoch : Nat) : (activeTaken s epoch).fab = { s.fab with role := .active, fencing := false } := by
  rw [activeTaken, State.modFab_fab, State.setFlag_fab, State.wr_fab, roleTaken_fab]

theorem OnlyRegs.modFab {offs : List Nat} {s t : State} (h : OnlyRegs offs s t) (f : Fab → Fab) : OnlyRegs offs (s.modFab f) (t.modFab f) := by
  rw [State.modFab, State.modFab, h.fab_eq]
  exact ⟨congrArg (fun x : State => { x with fab := f s.fab }) h.1, h.2⟩

theorem activeTaken_onlyRegs (s : State) (epoch : Nat) :
    OnlyRegs [Reg.FAB_EPOCH, Reg.FAB_STS] { s with fab := (activeTaken s epoch).fab } (activeTaken s epoch) := by
  have taken := (roleTaken_onlyRegs s .active).mono (offs' := [Reg.FAB_EPOCH, Reg.FAB_STS]) (fun _ h => List.mem_cons_of_mem _ h)
  rw [activeTaken_fab]
  exact ((taken.wr (by decide) (w32 epoch)).setFlag (f := Reg.FAB_STS_YIELD) (by decide) false).modFab (fun f => { f with fencing := false })

theorem activeTaken_epoch (s : State) (epoch : Nat) : (activeTaken s epoch).rd Reg.FAB_EPOCH = w32 epoch := by
  rw [activeTaken, State.modFab_rd, rd_setFlag_ne _ _ _ (by decide), State.rd_wr]

theorem activeTaken_yield (s : State) (epoch : Nat) : (activeTaken s epoch).flag Reg.FAB_STS_YIELD = false := by
  rw [activeTaken, State.modFab_flag]
  exact State.flag_setFlag_held rfl _ _

theorem becomeActive_plain (other : s.fab.role ≠ .active) (idle : s.fab.switching = false) (plain : s.selfTest = false)
    (alone : s.flag Reg.ASC_CFG_REPL_EN = false) (epoch : Nat) : becomeActive s epoch false = activeTaken s epoch := by
  have off : (activeTaken s epoch).flag Reg.ASC_CFG_REPL_EN = false := ((activeTaken_onlyRegs s epoch).flag_withFab _ (by decide)).trans alone
  unfold becomeActive
  rw [setRole_plain (Ne.symm other) idle plain]
  exact (if_neg Bool.false_ne_true).trans (settleRepl_off off)

end Role

/-! ### The role table (R489) -/

section Table
variable {s : State} {epoch : Nat} {yields : Bool}

theorem roleOnHeartbeat_none (role : s.fab.role = .none) (r : Nat) : roleOnHeartbeat s r epoch yields = s := by
  unfold roleOnHeartbeat
  rw [role]

/-- The partner's roles that are neither ACTIVE nor NONE. -/
theorem other_of_mem {r : Nat} (h : r ∈ [1, 3, 4]) : (decide (r = 1) || decide (r = 3) || decide (r = 4)) = true ∧ r ≠ 2 := by
  simp only [List.mem_cons, List.not_mem_nil, or_false] at h
  rcases h with rfl | rfl | rfl <;> decide

section Init
variable (role : s.fab.role = .init)
include role

theorem roleOnHeartbeat_initActive : roleOnHeartbeat s 2 epoch yields = setRole s .standIn := by
  unfold roleOnHeartbeat
  rw [role]
  exact if_pos rfl

theorem roleOnHeartbeat_init {r : Nat} (h : r ∈ [1, 3, 4]) : roleOnHeartbeat s r epoch yields =
    if s.flag Reg.FAB_PAIR_CFG_TWIN then setRole s .standIn else becomeActive s s.raisedEpoch false := by
  obtain ⟨other, notActive⟩ := other_of_mem h
  unfold roleOnHeartbeat
  rw [role]
  exact (if_neg notActive).trans (if_pos other)

end Init

section StandIn
variable (role : s.fab.role = .standIn)
include role

theorem roleOnHeartbeat_yielded (yielded : s.flag Reg.FAB_STS_YIELD = true) (r : Nat) : roleOnHeartbeat s r epoch yields =
    if r = 2 then s.setFlag Reg.FAB_STS_YIELD false else s := by
  unfold roleOnHeartbeat
  rw [role]
  exact if_pos yielded

variable (waits : s.flag Reg.FAB_STS_YIELD = false)
include waits

theorem roleOnHeartbeat_standIn (r : Nat) : roleOnHeartbeat s r epoch yields =
    if (decide (r = 1) || decide (r = 3) || decide (r = 4)) || yields then becomeActive s s.raisedEpoch true else s := by
  unfold roleOnHeartbeat
  rw [role]
  exact if_neg (by simp [waits])

end StandIn

section Active
variable (role : s.fab.role = .active)
include role

theorem roleOnHeartbeat_active (r : Nat) : roleOnHeartbeat s r epoch yields =
    if r = 2 ∧ ((s.rd Reg.FAB_EPOCH).toNat < epoch ∨ ((s.rd Reg.FAB_EPOCH).toNat = epoch ∧ s.flag Reg.FAB_PAIR_CFG_TWIN = true)) then
      raise0 (beginFence s .standIn) 0x700D epoch
    else s := by
  unfold roleOnHeartbeat
  rw [role]

end Active

section Fenced
variable (role : s.fab.role = .fenced)
include role

theorem roleOnHeartbeat_held (held : s.heldFenced = true) (r : Nat) : roleOnHeartbeat s r epoch yields = s := by
  unfold roleOnHeartbeat
  rw [role]
  exact if_pos held

theorem roleOnHeartbeat_fenced (free : s.heldFenced = false) (r : Nat) : roleOnHeartbeat s r epoch yields =
    if r = 2 then setRole s .standIn
    else if r = 3 ∨ r = 1 ∨ (r = 4 ∧ s.flag Reg.FAB_PAIR_CFG_TWIN = false) then becomeActive s s.raisedEpoch false else s := by
  unfold roleOnHeartbeat
  rw [role]
  exact if_neg (by simp [free])

end Fenced

end Table

/-! ### Heartbeats and their ticks (R487 to R489) -/

section Beat
variable {s : State} {hb : List Byte}

theorem heartbeatTxOp_none (role : s.fab.role = .none) : heartbeatTxOp s = s := if_pos role

theorem heartbeatTxOp_sends (role : s.fab.role ≠ .none) : heartbeatTxOp s =
    (sendCell (s.emit (.heartbeat (lvdsFrame (heartbeatBytes s)))) cellHeartbeat s.partner (heartbeatBytes s)).modFab
      (fun f => { f with hbSeq := f.hbSeq + 1 }) := if_neg role

theorem heartbeatRx_drops (h : s.fab.role = .none ∨ heartbeatOk s hb = false) (p : HbPath) : heartbeatRx s p hb = s := if_pos h

/-- What a heartbeat on the LVDS pair shows, beside what the role makes of it. -/
def beatShown (s : State) (hb : List Byte) : State :=
  let t := s.modFab (fun f => { f with lvdsTick := { f.lvdsTick with got := true }, partnerEpoch := be (sub hb 6 4) })
  let u := (t.wr Reg.FAB_PEER_HEALTH (w32 (be (sub hb 12 4)))).set Reg.FAB_STS_PARTNER_ROLE (byteAt hb 4 / 32)
  if u.fab.role = .active then u.setFlag Reg.FAB_STS_PARTNER_DOWN false else u

theorem beatShown_onlyRegs (s : State) (hb : List Byte) : OnlyRegs [Reg.FAB_PEER_HEALTH, Reg.FAB_STS]
    (s.modFab (fun f => { f with lvdsTick := { f.lvdsTick with got := true }, partnerEpoch := be (sub hb 6 4) })) (beatShown s hb) := by
  have shown := ((OnlyRegs.refl [Reg.FAB_PEER_HEALTH, Reg.FAB_STS] (s.modFab (fun f => { f with
    lvdsTick := { f.lvdsTick with got := true }, partnerEpoch := be (sub hb 6 4) }))).wr (off := Reg.FAB_PEER_HEALTH) (by decide)
    (w32 (be (sub hb 12 4)))).set (f := Reg.FAB_STS_PARTNER_ROLE) (by decide) (byteAt hb 4 / 32)
  exact .ite (shown.setFlag (f := Reg.FAB_STS_PARTNER_DOWN) (by decide) false) shown

theorem beatShown_health (s : State) (hb : List Byte) : (beatShown s hb).rd Reg.FAB_PEER_HEALTH = w32 (be (sub hb 12 4)) := by
  unfold beatShown
  dsimp only
  split
  · rw [rd_setFlag_ne _ _ _ (by decide), State.rd_set_ne _ _ _ (by decide), State.rd_wr]
  · rw [State.rd_set_ne _ _ _ (by decide), State.rd_wr]

theorem beatShown_role (s : State) (hb : List Byte) : (beatShown s hb).get Reg.FAB_STS_PARTNER_ROLE = byteAt hb 4 / 32 := by
  have small : byteAt hb 4 / 32 < 2 ^ 3 := Nat.div_lt_of_lt_mul (BitVec.isLt _)
  unfold beatShown
  dsimp only
  split
  · exact (State.get_set_other rfl _ _).trans (State.get_set_held rfl _ small)
  · exact State.get_set_held rfl _ small

theorem beatShown_disputes (s : State) (hb b : List Byte) : disputes (beatShown s hb) b = disputes s b := by
  have kept (f : Field) (h : f.off ∉ [Reg.FAB_PEER_HEALTH, Reg.FAB_STS]) : (beatShown s hb).get f = s.get f :=
    ((beatShown_onlyRegs s hb).get f h).trans (s.modFab_get _ f)
  rw [disputes, disputes, kept _ (by decide), kept _ (by decide), kept _ (by decide)]

theorem heartbeatRx_disputes (role : s.fab.role ≠ .none) (ok : heartbeatOk s hb = true) (apart : disputes s hb = true) :
    heartbeatRx s .lvds hb = disputeOp (beatShown s hb) := by
  unfold heartbeatRx
  rw [if_neg (by simp [role, ok])]
  exact if_pos ((beatShown_disputes s hb hb).trans apart)

/-- A tick without a heartbeat, before the fourth. -/
theorem tickPath_misses {t : PathTick} (silent : t.got = false) (few : t.misses < 3) (there : t.lost = false) :
    tickPath t = ({ got := false, misses := t.misses + 1, goodRun := 0, lost := false }, false, false) := by
  have count : min 255 (t.misses + 1) = t.misses + 1 := Nat.min_eq_right (by omega)
  have notFour : ¬ 4 ≤ t.misses + 1 := by omega
  simp [tickPath, silent, there, count, notFour]

theorem hbTickOp_none (role : s.fab.role = .none) (p : HbPath) : hbTickOp p s = s := if_pos role

theorem hbTickOp_lvds (role : s.fab.role ≠ .none) (silent : s.fab.lvdsTick.got = false) (few : s.fab.lvdsTick.misses < 3)
    (there : s.fab.lvdsTick.lost = false) : hbTickOp .lvds s = settleRepl ((s.inc Reg.FAB_HB_MISS_LVDS).modFab (fun f => { f with
      lvdsTick := { got := false, misses := s.fab.lvdsTick.misses + 1, goodRun := 0, lost := false } })) := by
  unfold hbTickOp
  rw [if_neg role]
  dsimp only
  rw [tickPath_misses silent few there, silent]
  rfl

theorem hbTickOp_fab (role : s.fab.role ≠ .none) (silent : s.fab.fabTick.got = false) (few : s.fab.fabTick.misses < 3)
    (there : s.fab.fabTick.lost = false) : hbTickOp .fab s = settleRepl ((s.inc Reg.FAB_HB_MISS_FAB).modFab (fun f => { f with
      fabTick := { got := false, misses := s.fab.fabTick.misses + 1, goodRun := 0, lost := false } })) := by
  unfold hbTickOp
  rw [if_neg role]
  dsimp only
  rw [tickPath_misses silent few there, silent]
  rfl

theorem tickPath_loses {t : PathTick} (silent : t.got = false) (three : t.misses = 3) (there : t.lost = false) :
    (tickPath t).1.lost = true ∧ (tickPath t).2.1 = true := by
  simp [tickPath, silent, three, there]

theorem tickPath_restores {t : PathTick} (heard : t.got = true) (three : t.goodRun = 3) (lost : t.lost = true) :
    (tickPath t).1.lost = false ∧ (tickPath t).2.2 = true := by
  simp [tickPath, heard, three, lost]

end Beat

/-! ### INIT without a partner, and fencing (R489, R493) -/

section Fence
variable {s : State}

theorem initWaitOp_other (role : s.fab.role ≠ .init) : initWaitOp s = s := if_pos role

theorem initWaitOp_init (role : s.fab.role = .init) : initWaitOp s =
    if s.flag Reg.FAB_PAIR_CFG_LOSS_POLICY = true ∧ s.flag Reg.FAB_PAIR_CFG_TWIN = false then becomeActive s s.raisedEpoch false
    else if s.fab.absentRaised then s else raise0 (s.modFab (fun f => { f with absentRaised := true })) 0x7009 0 := if_neg (not_not.2 role)

theorem fenceTimerOp_fences (role : s.fab.role = .active) (lost : s.partnerLost = true) (policy : s.flag Reg.FAB_PAIR_CFG_LOSS_POLICY = false)
    (up : s.flag Reg.FAB_STS_PARTNER_DOWN = false) (calm : s.fab.fencing = false) (idle : s.fab.switching = false) :
    fenceTimerOp s = s.modFab (fun f => { f with fencing := true, fenceTo := .fenced }) :=
  (if_pos ⟨role, lost, policy, up, calm⟩).trans (beginFence_idle idle _)

theorem fenceTimerOp_idle (h : s.fab.role ≠ .active ∨ s.partnerLost = false ∨ s.flag Reg.FAB_PAIR_CFG_LOSS_POLICY = true ∨
    s.flag Reg.FAB_STS_PARTNER_DOWN = true ∨ s.fab.fencing = true) : fenceTimerOp s = s := by
  refine if_neg ?_
  rintro ⟨role, lost, policy, up, calm⟩
  simp [role, lost, policy, up, calm] at h

theorem fenceDoneOp_idle (calm : s.fab.fencing = false) : fenceDoneOp s = s := if_neg (by simp [calm])

theorem fenceDoneOp_fences (fencing : s.fab.fencing = true) :
    let u := dropAll s (s.framesWhere Frame.unreleased) Reg.FAB_STANDBY_DROP
    let v := setRole (u.modFab (fun f => { f with fencing := false })) u.fab.fenceTo
    fenceDoneOp s = settleRepl (raise0 v.draw.2 0x7007 (v.draw.1.toNat % 2 ^ 32)) := if_pos fencing

end Fence

/-! ### Planned switchover (R498) -/

section Switch
variable {s : State}

/-- The word of SWITCHOVER. -/
def switchWord : Word := word [(Reg.FAB_PAIR_CMD_SWITCHOVER, 1)]

theorem switchWord_goes : decide (fieldOf Reg.FAB_PAIR_CMD_SWITCHOVER switchWord = 1) = true := by decide

theorem pairCmdWrite_busy (busy : s.flag Reg.FAB_PAIR_CMD_BUSY = true) : pairCmdWrite switchWord s = s.inc Reg.CTL_FAULT_BUSY := by
  unfold pairCmdWrite
  rw [switchWord_goes]
  exact if_pos (by simp [busy])

theorem pairCmdWrite_idle (idle : s.flag Reg.FAB_PAIR_CMD_BUSY = false) : pairCmdWrite switchWord s =
    let t := storeReg Reg.FAB_PAIR_CMD switchWord s
    if t.fab.role ≠ .active then t.set Reg.FAB_PAIR_CMD_RESULT 1
    else if t.mayYield = false then t.set Reg.FAB_PAIR_CMD_RESULT 2
    else (t.setFlag Reg.FAB_PAIR_CMD_BUSY true).modFab (fun f => { f with switching := true }) := by
  unfold pairCmdWrite
  rw [switchWord_goes]
  exact (if_neg (by simp [idle])).trans (if_neg (by decide))

theorem OnlyRegs.mayYield_eq {s t : State} (h : OnlyRegs [Reg.FAB_PAIR_CMD] s t) : t.mayYield = s.mayYield := by
  rw [State.mayYield, State.mayYield, h.get _ (by decide), h.2 _ (by decide), State.pathOk, State.pathOk, State.pathOk, State.pathOk, h.fab_eq]

theorem switchoverDoneOp_idle (idle : s.fab.switching = false) : switchoverDoneOp s = s := if_pos idle

variable (runs : s.fab.switching = true)
include runs

theorem switchoverDoneOp_ends (may : s.mayYield = false) : switchoverDoneOp s = endSwitch s := by
  unfold switchoverDoneOp
  rw [if_neg (by simp [runs]), if_pos may]

variable (may : s.mayYield = true)
include may

theorem switchoverDoneOp_waits (h : s.fab.marks ≠ [] ∨ ∃ f ∈ s.sch.frames, f.unreleased = true ∧ f.flying = true) : switchoverDoneOp s = s := by
  unfold switchoverDoneOp
  rw [if_neg (by simp [runs]), if_neg (by simp [may]), if_neg]
  rintro ⟨none, landed⟩
  rcases h with waits | ⟨f, held, unreleased, flying⟩
  · exact waits none
  · have done := List.all_eq_true.1 landed f held
    rw [unreleased, flying] at done
    exact Bool.false_ne_true done

/-- The switchover ended, its result written and YIELD set. -/
def yielding (s : State) : State :=
  ((s.modFab (fun f => { f with switching := false })).wr Reg.FAB_PAIR_CMD (word [(Reg.FAB_PAIR_CMD_RESULT, 0)])).setFlag Reg.FAB_STS_YIELD true

theorem switchoverDoneOp_yields (none : s.fab.marks = []) (landed : ∀ f ∈ s.sch.frames, f.unreleased = false ∨ f.flying = false) :
    switchoverDoneOp s = setRole (yielding s) .standIn := by
  have all : s.sch.frames.all (fun f => !f.unreleased || !f.flying) = true := by
    simpa using landed
  unfold switchoverDoneOp
  rw [if_neg (by simp [runs]), if_neg (by simp [may]), if_pos ⟨none, all⟩]
  rfl

end Switch

theorem yielding_onlyRegs (s : State) : OnlyRegs [Reg.FAB_PAIR_CMD, Reg.FAB_STS] (s.modFab (fun f => { f with switching := false })) (yielding s) :=
  ((OnlyRegs.refl _ _).wr (by decide) _).setFlag (by decide) _

theorem yielding_fab (s : State) : (yielding s).fab = { s.fab with switching := false } := (yielding_onlyRegs s).fab_eq

theorem yielding_word (s : State) : (yielding s).rd Reg.FAB_PAIR_CMD = word [(Reg.FAB_PAIR_CMD_RESULT, 0)] := by
  rw [yielding, rd_setFlag_ne _ _ _ (by decide), State.rd_wr]

theorem endSwitch_onlyRegs (s : State) : ∃ runs, OnlyRegs [Reg.FAB_PAIR_CMD] { s with fab := { s.fab with switching := runs } } (endSwitch s) := by
  unfold endSwitch
  split
  · exact ⟨false, (OnlyRegs.refl _ (s.modFab _)).wr (by decide) _⟩
  · exact ⟨s.fab.switching, OnlyRegs.refl _ _⟩

/-- A new role without SELF_TEST keeps what is being fenced and draws nothing. -/
theorem setRole_keeps {s : State} (plain : s.selfTest = false) (r : Role) :
    (setRole s r).fab.role = r ∧ (setRole s r).fab.fencing = s.fab.fencing ∧ (setRole s r).draws = s.draws := by
  by_cases same : r = s.fab.role
  · rw [setRole, if_pos same]
    exact ⟨same.symm, rfl, rfl⟩
  · obtain ⟨runs, ended⟩ := endSwitch_onlyRegs s
    have still : ((roleTaken (endSwitch s) r)).selfTest = false :=
      ((roleTaken_onlyRegs (endSwitch s) r).flag_withFab _ (by decide)).trans ((ended.flag_withFab _ (by decide)).trans plain)
    have taken : setRole s r = roleTaken (endSwitch s) r := by
      unfold setRole
      dsimp only
      rw [if_neg same]
      exact if_neg (by rw [← roleTaken, still]; exact Bool.false_ne_true)
    rw [taken, roleTaken_fab, roleTaken, State.setFlag_draws, State.modFab_draws, ended.fab_eq]
    exact ⟨rfl, rfl, (congrArg State.draws ended.eq).trans rfl⟩

/-- What the yielding device leaves in its command's fields. -/
theorem switchEnded_fields : fieldOf Reg.FAB_PAIR_CMD_RESULT (word [(Reg.FAB_PAIR_CMD_RESULT, 0)]) = 0 ∧
    decide (fieldOf Reg.FAB_PAIR_CMD_BUSY (word [(Reg.FAB_PAIR_CMD_RESULT, 0)]) = 1) = false := by decide

/-- The yielding device as STAND_IN. -/
theorem setRole_yielding {s : State} (role : s.fab.role = .active) (plain : s.selfTest = false) :
    setRole (yielding s) .standIn = roleTaken (yielding s) .standIn := by
  have other : Role.standIn ≠ (yielding s).fab.role := by
    rw [yielding_fab]
    show Role.standIn ≠ s.fab.role
    rw [role]
    decide
  have idle : (yielding s).fab.switching = false := by rw [yielding_fab]
  have still : (yielding s).selfTest = false := ((yielding_onlyRegs s).flag_withFab _ (by decide)).trans plain
  exact setRole_plain other idle still

/-- What a planned switchover leaves. -/
theorem yielded (s : State) :
    let t := roleTaken (yielding s) .standIn
    t.fab = { s.fab with switching := false, role := .standIn } ∧ t.flag Reg.FAB_STS_YIELD = true ∧ t.get Reg.FAB_PAIR_CMD_RESULT = 0 ∧
    t.flag Reg.FAB_PAIR_CMD_BUSY = false ∧ OnlyRegs [Reg.FAB_PAIR_CMD, Reg.FAB_STS] { s with fab := t.fab } t := by
  intro t
  have fab : t.fab = { s.fab with switching := false, role := .standIn } := by rw [roleTaken_fab, yielding_fab]
  have taken : OnlyRegs [Reg.FAB_STS] ((yielding s).modFab (fun f => { f with role := .standIn })) t := roleTaken_onlyRegs (yielding s) .standIn
  have begun := (yielding_onlyRegs s).modFab (fun f => { f with role := .standIn })
  have shown : t.rd Reg.FAB_PAIR_CMD = word [(Reg.FAB_PAIR_CMD_RESULT, 0)] :=
    (taken.2 _ (by decide)).trans ((State.modFab_rd _ _ _).trans (yielding_word s))
  have field (f : Field) (h : f.off = Reg.FAB_PAIR_CMD) : t.get f = fieldOf f (word [(Reg.FAB_PAIR_CMD_RESULT, 0)]) := by
    rw [State.get, h, shown, fieldOf]
  have yields : (yielding s).flag Reg.FAB_STS_YIELD = true := State.flag_setFlag_held rfl _ _
  refine ⟨fab, ?_, (field _ rfl).trans switchEnded_fields.1, ?_, ?_⟩
  · exact (State.flag_setFlag_other rfl ((yielding s).modFab _) _).trans ((State.modFab_flag _ _ _).trans yields)
  · rw [State.flag, field _ rfl]
    exact switchEnded_fields.2
  · rw [fab]
    exact begun.trans (taken.mono (fun _ h => List.mem_cons_of_mem _ h))

theorem beatShown_fab (s : State) (hb : List Byte) :
    (beatShown s hb).fab = { s.fab with lvdsTick := { s.fab.lvdsTick with got := true }, partnerEpoch := be (sub hb 6 4) } :=
  (beatShown_onlyRegs s hb).fab_eq

theorem fenceDoneOp_empty {s : State} (fencing : s.fab.fencing = true) (none : s.framesWhere Frame.unreleased = []) (plain : s.selfTest = false) :
    ∃ t, fenceDoneOp s = settleRepl (raise0 t 0x7007 ((Config.freeValue s.draws).toNat % 2 ^ 32)) ∧ t.fab.role = s.fab.fenceTo ∧ t.fab.fencing = false := by
  obtain ⟨role, calm, draws⟩ := setRole_keeps (s := s.modFab (fun f => { f with fencing := false })) ((modFab_selfTest s _).trans plain) s.fab.fenceTo
  refine ⟨{ setRole (s.modFab (fun f => { f with fencing := false })) s.fab.fenceTo with draws := s.draws + 1 }, ?_, role, calm⟩
  have done := fenceDoneOp_fences fencing
  rw [none] at done
  generalize hv : setRole (s.modFab (fun f => { f with fencing := false })) s.fab.fenceTo = v at draws ⊢
  have drawn : v.draw = (Config.freeValue s.draws, { v with draws := s.draws + 1 }) := by rw [State.draw, draws, State.modFab_draws]
  refine done.trans ?_
  show settleRepl (raise0 (setRole (s.modFab (fun f => { f with fencing := false })) s.fab.fenceTo).draw.2 0x7007
    ((setRole (s.modFab (fun f => { f with fencing := false })) s.fab.fenceTo).draw.1.toNat % 2 ^ 32)) = _
  rw [hv, drawn]

/-- SWITCHOVER of a device that is free: refused with its code, or begun. -/
theorem pairCmdWrite_takes {s : State} (idle : s.flag Reg.FAB_PAIR_CMD_BUSY = false) (unlocked : mlook 0 Reg.FAB_PAIR_CMD s.locks = 0) :
    let t := pairCmdWrite switchWord s
    OnlyRegs [Reg.FAB_PAIR_CMD] { s with fab := t.fab } t ∧
    (s.fab.role ≠ .active → t.get Reg.FAB_PAIR_CMD_RESULT = 1 ∧ t.fab = s.fab) ∧
    (s.fab.role = .active → s.mayYield = false → t.get Reg.FAB_PAIR_CMD_RESULT = 2 ∧ t.fab = s.fab) ∧
    (s.fab.role = .active → s.mayYield = true → t.flag Reg.FAB_PAIR_CMD_BUSY = true ∧ t.fab = { s.fab with switching := true }) := by
  have stored := onlyRegs_storeReg (List.mem_singleton_self Reg.FAB_PAIR_CMD) unlocked switchWord
  rw [pairCmdWrite_idle idle]
  dsimp only
  rw [stored.mayYield_eq]
  generalize storeReg Reg.FAB_PAIR_CMD switchWord s = u at stored ⊢
  have fab := stored.fab_eq
  have refused (n : Nat) : OnlyRegs [Reg.FAB_PAIR_CMD] s (u.set Reg.FAB_PAIR_CMD_RESULT n) := stored.set (by decide) n
  rw [fab]
  by_cases role : s.fab.role = .active
  · rw [if_neg (not_not.2 role)]
    by_cases may : s.mayYield = false
    · rw [if_pos may]
      refine ⟨?_, fun no => absurd role no, fun _ _ => ⟨State.get_set_held rfl _ (by decide), fab⟩, fun _ yes => absurd (may.symm.trans yes) Bool.false_ne_true⟩
      rw [State.set_fab, fab]
      exact refused 2
    · rw [if_neg may]
      have begun : ((u.setFlag Reg.FAB_PAIR_CMD_BUSY true).modFab (fun f => { f with switching := true })).fab = { s.fab with switching := true } := by
        rw [State.modFab_fab, State.setFlag_fab, fab]
      refine ⟨?_, fun no => absurd role no, fun _ no => absurd no may, fun _ _ => ⟨?_, begun⟩⟩
      · rw [begun]
        exact (stored.setFlag (f := Reg.FAB_PAIR_CMD_BUSY) (by decide) true).modFab _
      · exact (State.modFab_flag _ _ _).trans (State.flag_setFlag_held rfl _ _)
  · rw [if_pos role]
    refine ⟨?_, fun _ => ⟨State.get_set_held rfl _ (by decide), fab⟩, fun yes => absurd yes role, fun yes => absurd yes role⟩
    rw [State.set_fab, fab]
    exact refused 1

end Sys2Proof.Machine

namespace Sys2Proof.Proofs
open Sys2Proof.Machine

/-- Settles O51: a heartbeat by its validity and the role, fencing and switchover by what is in progress. -/
theorem rolesMove : Obligations.RolesMove := by
  constructor
  · intro s who hb serves
    have run := serves.1.1
    refine ⟨fun role => ⟨live_next run rfl (heartbeatTxOp_none role), live_next run rfl (heartbeatRx_drops (.inl role) _),
        fun p => live_next run rfl (hbTickOp_none role p)⟩, fun role => live_next run rfl (heartbeatTxOp_sends role),
      fun bad => live_next run rfl (heartbeatRx_drops (.inr bad) _),
      fun role ok apart => ⟨beatShown s hb, live_next run rfl (heartbeatRx_disputes role ok apart), beatShown_fab s hb,
        beatShown_health s hb, beatShown_role s hb, ?_⟩,
      fun role silent few there => live_next run rfl (hbTickOp_lvds role silent few there),
      fun role silent few there => live_next run rfl (hbTickOp_fab role silent few there),
      fun t silent three there => tickPath_loses silent three there, fun t heard three lost => tickPath_restores heard three lost,
      fun role => live_next run rfl (initWaitOp_other role), fun role => live_next run rfl (initWaitOp_init role),
      fun role lost policy up calm idle => live_next run rfl (fenceTimerOp_fences role lost policy up calm idle),
      fun h => live_next run rfl (fenceTimerOp_idle h), fun calm => live_next run rfl (fenceDoneOp_idle calm),
      fun fencing => live_next run rfl (fenceDoneOp_fences fencing), fun fencing none plain => ?_,
      fun busy => owner_next serves rfl (pairCmdWrite_busy busy), fun idle unlocked => ?_,
      fun idle => live_next run rfl (switchoverDoneOp_idle idle), fun runs may => live_next run rfl (switchoverDoneOp_ends runs may),
      fun runs may h => live_next run rfl (switchoverDoneOp_waits runs may h),
      fun runs may none landed role plain => ⟨_, live_next run rfl ((switchoverDoneOp_yields runs may none landed).trans (setRole_yielding role plain)), yielded s⟩⟩
    · rw [beatShown_fab]
      exact beatShown_onlyRegs s hb
    · obtain ⟨t, ends, role, calm⟩ := fenceDoneOp_empty fencing none plain
      exact ⟨t, live_next run rfl ends, role, calm⟩
    · exact ⟨_, owner_next serves rfl rfl, pairCmdWrite_takes idle unlocked⟩
  · intro s epoch yields on own twin
    refine ⟨fun r role => roleOnHeartbeat_none role r, fun role => ⟨roleOnHeartbeat_initActive role, fun r h => roleOnHeartbeat_init role h⟩,
      fun role waits => ⟨fun no => ?_, fun yes => ?_, fun r h => ?_⟩,
      fun role yielded => ⟨(roleOnHeartbeat_yielded role yielded 2).trans (if_pos rfl), fun r other => (roleOnHeartbeat_yielded role yielded r).trans (if_neg other)⟩,
      fun role => ⟨fun r h => ?_, fun lower => ?_, fun same first => ?_, fun higher idle => ?_⟩,
      fun role => ⟨fun held r => roleOnHeartbeat_held role held r, fun free => ⟨(roleOnHeartbeat_fenced role free 2).trans (if_pos rfl), fun r h => ?_, ?_⟩⟩,
      fun idle plain other => ?_, fun idle plain alone other => ?_⟩
    · exact (roleOnHeartbeat_standIn role waits 2).trans (if_neg (by simp [no]))
    · exact (roleOnHeartbeat_standIn role waits 2).trans (if_pos (by simp [yes]))
    · exact (roleOnHeartbeat_standIn role waits r).trans (if_pos (by rw [(other_of_mem h).1]; rfl))
    · exact (roleOnHeartbeat_active role r).trans (if_neg (fun both => (other_of_mem h).2 both.1))
    · exact (roleOnHeartbeat_active role 2).trans (if_neg (by omega))
    · refine (roleOnHeartbeat_active role 2).trans (if_neg ?_)
      rintro ⟨-, lower | ⟨-, twins⟩⟩
      · exact absurd lower (by omega)
      · exact absurd (first.symm.trans twins) Bool.false_ne_true
    · exact ((roleOnHeartbeat_active role 2).trans (if_pos ⟨rfl, higher⟩)).trans (by rw [beginFence_idle idle])
    · simp only [List.mem_cons, List.not_mem_nil, or_false] at h
      exact (roleOnHeartbeat_fenced role free r).trans ((if_neg (by omega)).trans (if_pos (by omega)))
    · refine (roleOnHeartbeat_fenced role free 4).trans ((if_neg (by decide)).trans ?_)
      cases twins : s.flag Reg.FAB_PAIR_CFG_TWIN <;> simp [twin, twins, State.raisedEpoch, own]
    · rw [setRole_plain (Ne.symm other) idle plain, roleTaken_fab]
    · rw [becomeActive_plain other idle plain alone epoch]
      exact ⟨activeTaken_fab s epoch, activeTaken_epoch s epoch, activeTaken_yield s epoch, activeTaken_onlyRegs s epoch⟩

end Sys2Proof.Proofs
end

section
/-! SUPPORT. Update messages: each command by the loader's state, the commit of an owner bank and the burns of a message
(12 R438, R439, R443 to R449; 14 R524, R534). -/

namespace Sys2Proof.Machine

/-! ### The commands of the loader (R447) -/

section Loader
variable {s : State}

/-- The words of VLT_UPD_STS at OPEN, at APPLY and at CLOSE of an open message. -/
theorem updSts_words :
    bits (word [(Reg.VLT_UPD_STS_STATE, 1)]) 30 28 = 1 ∧
    bits (word [(Reg.VLT_UPD_STS_BUSY, 1), (Reg.VLT_UPD_STS_STATE, 2)]) 30 28 = 2 ∧
    (bits (word [(Reg.VLT_UPD_STS_BUSY, 1), (Reg.VLT_UPD_STS_STATE, 2)]) 31 31 != 0) = true ∧
    bits (11 : Word) 30 28 = 0 ∧ bits (11 : Word) 15 0 = 11 ∧ bits (0 : Word) 9 2 = 0 := by decide

theorem updState_wr (s : State) (v : Word) : (s.wr Reg.VLT_UPD_STS v).updState = bits v 30 28 := s.get_wr v Reg.VLT_UPD_STS_STATE

theorem updOpenOp_refused (h : s.updState = 1 ∨ s.updState = 2) (len : Nat) : updOpenOp len s = s.inc Reg.CTL_FAULT_OWNER := if_pos h

/-- OPEN: an empty message, its word index and the state OPEN. -/
theorem updOpenOp_opens (h : s.updState ≠ 1) (k : s.updState ≠ 2) (len : Nat) :
    let t := updOpenOp len s
    t.updState = 1 ∧ t.get Reg.VLT_UPD_ADDR_WORD = 0 ∧
    OnlyRegs [Reg.VLT_UPD_ADDR, Reg.VLT_UPD_STS] { s with vlt := { s.vlt with upd := [], updLen := len } } t := by
  have opened : updOpenOp len s = ((s.modVlt (fun v => { v with upd := [], updLen := len })).wr Reg.VLT_UPD_ADDR 0).wr Reg.VLT_UPD_STS
      (word [(Reg.VLT_UPD_STS_STATE, 1)]) := if_neg (not_or.2 ⟨h, k⟩)
  have index : ((s.modVlt (fun v => { v with upd := [], updLen := len })).wr Reg.VLT_UPD_ADDR 0).get Reg.VLT_UPD_ADDR_WORD = 0 :=
    (State.get_wr _ 0 Reg.VLT_UPD_ADDR_WORD).trans updSts_words.2.2.2.2.2
  rw [opened]
  exact ⟨(updState_wr _ _).trans updSts_words.1, (State.get_wr_ne _ _ _ (by decide)).trans index,
    ((OnlyRegs.refl _ (s.modVlt _)).wr (by decide) _).wr (by decide) _⟩

theorem updDataOp_takes (h : s.updState = 1) (d : Word) : updDataOp d s =
    (s.modVlt (fun v => { v with upd := mput (s.get Reg.VLT_UPD_ADDR_WORD) d v.upd })).set Reg.VLT_UPD_ADDR_WORD (s.get Reg.VLT_UPD_ADDR_WORD + 1) :=
  if_neg (not_not.2 h)

theorem updDataOp_refused (h : s.updState ≠ 1) (d : Word) : updDataOp d s = s.inc Reg.CTL_FAULT_OWNER := if_pos h

theorem updApplyOp_refused (h : s.updState ≠ 1) : updApplyOp s = s.inc Reg.CTL_FAULT_OWNER := if_pos h

/-- APPLY: the first taking of the signature verdict, and the state APPLYING. -/
theorem updApplyOp_applies (h : s.updState = 1) :
    let t := updApplyOp s
    t.updState = 2 ∧ t.flag Reg.VLT_UPD_STS_BUSY = true ∧ OnlyRegs [Reg.VLT_UPD_STS] (takeFirst s .update (updVerdict (updMessage s.vlt))) t := by
  have applied : updApplyOp s = (takeFirst s .update (updVerdict (updMessage s.vlt))).wr Reg.VLT_UPD_STS
      (word [(Reg.VLT_UPD_STS_BUSY, 1), (Reg.VLT_UPD_STS_STATE, 2)]) := if_neg (not_not.2 h)
  have busy (t : State) : (t.wr Reg.VLT_UPD_STS (word [(Reg.VLT_UPD_STS_BUSY, 1), (Reg.VLT_UPD_STS_STATE, 2)])).flag Reg.VLT_UPD_STS_BUSY = true := by
    have shown := State.get_wr t (word [(Reg.VLT_UPD_STS_BUSY, 1), (Reg.VLT_UPD_STS_STATE, 2)]) Reg.VLT_UPD_STS_BUSY
    exact (congrArg (· != 0) shown).trans updSts_words.2.2.1
  rw [applied]
  exact ⟨(updState_wr _ _).trans updSts_words.2.1, busy _, (OnlyRegs.refl _ _).wr (by decide) _⟩

theorem updCloseOp_refused (h : s.updState = 2) : updCloseOp s = s.inc Reg.CTL_FAULT_OWNER := if_pos h

/-- CLOSE of an open message: IDLE with ABORTED. -/
theorem updCloseOp_aborts (h : s.updState = 1) :
    let t := updCloseOp s
    t.updState = 0 ∧ t.get Reg.VLT_UPD_STS_RESULT = 11 ∧ OnlyRegs [Reg.VLT_UPD_STS] s t := by
  have closed : updCloseOp s = s.wr Reg.VLT_UPD_STS 11 := (if_neg (by omega)).trans (if_pos h)
  rw [closed]
  exact ⟨(updState_wr _ _).trans updSts_words.2.2.2.1, (State.get_wr s 11 Reg.VLT_UPD_STS_RESULT).trans updSts_words.2.2.2.2.1,
    (OnlyRegs.refl _ _).wr (by decide) _⟩

/-- CLOSE after an end: IDLE, the result kept. -/
theorem updCloseOp_closes (h : s.updState ≠ 1) (k : s.updState ≠ 2) :
    let t := updCloseOp s
    t.updState = 0 ∧ t.get Reg.VLT_UPD_STS_RESULT = s.get Reg.VLT_UPD_STS_RESULT ∧ OnlyRegs [Reg.VLT_UPD_STS] s t := by
  have closed : updCloseOp s = s.set Reg.VLT_UPD_STS_STATE 0 := (if_neg k).trans (if_neg h)
  rw [closed]
  exact ⟨State.get_set_held rfl _ (by decide), State.get_set_other rfl _ _, (OnlyRegs.refl _ _).set (by decide) _⟩

end Loader

/-! ### The end of APPLY (R447 to R450) -/

section Apply
variable {s : State} {ok : Bool}

theorem updApplyDoneOp_idle (h : s.updState ≠ 2) (ok : Bool) : updApplyDoneOp ok s = s := if_pos h

variable (runs : s.updState = 2)
include runs

theorem updApplyDoneOp_frozen (cold : s.frozenRails = true) (ok : Bool) : updApplyDoneOp ok s = s.setFlag Reg.VLT_UPD_STS_FROZEN true :=
  (if_neg (not_not.2 runs)).trans (if_pos cold)

variable (warm : s.frozenRails = false)
include warm

theorem updApplyDoneOp_zeroised (gone : s.zeroised = true) (ok : Bool) : updApplyDoneOp ok s = dropTaking (updRefuse s 11) .update :=
  (if_neg (not_not.2 runs)).trans ((if_neg (by simp [warm])).trans (if_pos gone))

variable (there : s.zeroised = false)
include there

theorem updApplyDoneOp_refuses (bad : updCheck s (updMessage s.vlt) ≠ 0) (agreed : updCheck s (updMessage s.vlt) ≠ 6) (ok : Bool) :
    updApplyDoneOp ok s = updRefuse (dropTaking s .update) (updCheck s (updMessage s.vlt)) := by
  unfold updApplyDoneOp
  rw [if_neg (not_not.2 runs), if_neg (by simp [warm]), if_neg (by simp [there])]
  exact (if_neg agreed).trans (if_pos bad)

theorem updApplyDoneOp_disputed (six : updCheck s (updMessage s.vlt) = 6) (ok : Bool) :
    updApplyDoneOp ok s = raise0 (updRefuse (dropTaking s .update) 6) 0x0602 0 := by
  unfold updApplyDoneOp
  rw [if_neg (not_not.2 runs), if_neg (by simp [warm]), if_neg (by simp [there])]
  exact if_pos six

/-- The message burns fuses: a transition does, and a commit whose counter passes the fuses' epoch (R448). -/
def updBurns (v : Vlt) : Bool :=
  decide (byteAt (updMessage v) 5 ≠ 1) || (decide (v.otp.epoch < (nextCounter (counterOf v)).1) && decide ((nextCounter (counterOf v)).1 ≤ 128))

/-- What a failed burn leaves of the fuses: of a CLAIM an owner hash may stand in the free slot (R449). -/
def claimRest (s : State) : State :=
  let (v, s) := s.draw
  if byteAt (updMessage s.vlt) 5 = 2 then
    (match freeSlot s.vlt.otp with
     | some i => s.modVlt (fun x => { x with otp := { x.otp with ownerHash := mput i (v.truncate 384) x.otp.ownerHash } })
     | none => s)
  else s

variable (accepted : updCheck s (updMessage s.vlt) = 0)
include accepted

theorem updApplyDoneOp_burnFails (burns : updBurns s.vlt = true) :
    updApplyDoneOp false s = raise0 (updRefuse (showRoot (claimRest (dropTaking s .update))) 10) 0x0607 0 := by
  unfold updApplyDoneOp
  rw [if_neg (not_not.2 runs), if_neg (by simp [warm]), if_neg (by simp [there])]
  refine (if_neg (by rw [accepted]; decide)).trans ((if_neg (not_not.2 accepted)).trans ((if_pos ⟨burns, rfl⟩).trans ?_))
  rfl

theorem updApplyDoneOp_accepts (goes : ok = true ∨ updBurns s.vlt = false) :
    updApplyDoneOp ok s =
      let v := (showRoot (runSteps (updSteps s.vlt (updMessage s.vlt)) (dropTaking s .update))).wr Reg.VLT_UPD_STS (word [(Reg.VLT_UPD_STS_STATE, 3)])
      let w := raise0 (v.inc Reg.VLT_UPDATES) 0x0603 0
      let x := if counterEnd w.vlt then exhaust w else w
      if byteAt (updMessage s.vlt) 5 = 1 then x else raise0 (x.modVlt (fun v => { v with lcReset := true })) 0x0604 0 := by
  have burnt : ¬ (updBurns s.vlt = true ∧ ok = false) := by
    rintro ⟨burns, fails⟩
    rcases goes with h | h
    · exact absurd (h.symm.trans fails) (by decide)
    · exact absurd (h.symm.trans burns) (by decide)
  unfold updApplyDoneOp
  rw [if_neg (not_not.2 runs), if_neg (by simp [warm]), if_neg (by simp [there])]
  exact (if_neg (by rw [accepted]; decide)).trans ((if_neg (not_not.2 accepted)).trans (if_neg burnt))

end Apply

theorem claimRest_none {s : State} (other : byteAt (updMessage s.vlt) 5 ≠ 2) : claimRest s = s.draw.2 := if_neg other

theorem claimRest_claim {s : State} {i : Nat} (claim : byteAt (updMessage s.vlt) 5 = 2) (free : freeSlot s.vlt.otp = some i) : ∃ h : BitVec 384,
    claimRest s = s.draw.2.modOtp (fun o => { o with ownerHash := mput i h o.ownerHash }) := by
  refine ⟨s.draw.1.truncate 384, (if_pos claim).trans ?_⟩
  show (match freeSlot s.vlt.otp with
     | some i => s.draw.2.modVlt (fun x => { x with otp := { x.otp with ownerHash := mput i (s.draw.1.truncate 384) x.otp.ownerHash } })
     | none => s.draw.2) = _
  rw [free]
  rfl

/-! ### The commit of a bank (R443, R448) -/

section Commit
variable {s : State} {b : Bank}

theorem toLe_length (n v : Nat) : (toLe n v).length = n := by
  induction n generalizing v with
  | zero => rfl
  | succ n ih => exact congrArg (· + 1) (ih (v / 256))

theorem bankHead_length (b : Bank) : (bankHead b).length = 8 := by simp [bankHead, toLe_length]

/-- The CRC covers all but its own bytes and the marker's. -/
theorem bankCrc_eq (b : Bank) : bankCrc b = crc32 (bankHead b ++ b.record) := by
  have front : (bankBytes b).take 8 = bankHead b := by
    rw [bankBytes, List.append_assoc, List.append_assoc, List.take_left' (bankHead_length b)]
  have rest : (bankBytes b).drop 16 = b.record :=
    List.drop_left' (by simp [bankHead_length, toLe_length])
  rw [bankCrc, front, rest]

theorem bankGood_head {o : Otp} {next : Nat × Nat} (early : next.1 ≤ o.epoch) (b : Bank) : bankGood o (headBank next b) = true := by
  have crc : (headBank next b).crc = bankCrc (headBank next b) := by
    rw [bankCrc_eq, headBank, bankCrc_eq]
    rfl
  have epoch : (headBank next b).epoch ≤ o.epoch := early
  simp [bankGood, crc, epoch, show (headBank next b).commit = commitMark from rfl]

theorem currentBank_first {v : Vlt} (h : currentBank v = some (false, b)) : bankGood v.otp v.bank0 = true ∧ b = v.bank0 := by
  unfold currentBank at h
  split at h
  · split at h <;> simp_all
  all_goals simp_all

/-- A good second bank with the later count is the current one. -/
theorem counterOf_second {v : Vlt} (first : bankGood v.otp v.bank0 = true) (second : bankGood v.otp v.bank1 = true)
    (epoch : v.bank1.epoch = v.bank0.epoch) (later : v.bank0.count < v.bank1.count) : counterOf v = (v.bank1.epoch, v.bank1.count) := by
  have lt : bankLt v.bank0 v.bank1 = true := by simp [bankLt, epoch, later]
  have current : currentBank v = some (true, v.bank1) := by
    unfold currentBank
    rw [first, second]
    exact if_pos lt
  unfold counterOf
  rw [current]

/-- The bank that a commit leaves. -/
def committedBank (o : Otp) (next : Nat × Nat) (record : List Byte) (b : Bank) : Bank :=
  headBank next { b with commit := 0, record := record, slot := BitVec.ofNat 8 (slotByte o) }

/-- Beside a current first bank the second takes the record, and no fuse is burnt. -/
theorem commitBank_second (current : currentBank s.vlt = some (false, b)) (room : b.count < 2 ^ 40 - 1) (small : b.epoch ≤ 128)
    (early : b.epoch ≤ s.vlt.otp.epoch) (record : List Byte) :
    commitBank s record = s.modVlt (fun v => { v with bank1 := committedBank s.vlt.otp (b.epoch, b.count + 1) record v.bank1 }) := by
  have counter : counterOf s.vlt = (b.epoch, b.count) := by
    unfold counterOf
    rw [current]
  have next : nextCounter (counterOf s.vlt) = (b.epoch, b.count + 1) := by
    rw [counter]
    exact if_neg (by dsimp only; omega)
  have other : inactiveOne s.vlt = true := by
    unfold inactiveOne
    rw [current]
    rfl
  have fits : ¬ 128 < b.epoch := by omega
  have unburnt : ¬ s.vlt.otp.epoch < b.epoch := by omega
  unfold commitBank commitSteps
  dsimp only
  rw [next, other, if_neg fits]
  simp only [runSteps, List.foldl_cons, List.foldl_nil, State.modBank, State.modVlt, if_true, unburnt, if_false]
  rfl

end Commit

/-! ### The burns of a message (R438, R439) -/

section Burns

/-- The burns change nothing but the fuses. -/
theorem runSteps_modOtp (fs : List (Otp → Otp)) (s : State) :
    runSteps (fs.map (fun f s => s.modOtp f)) s = { s with vlt := { s.vlt with otp := fs.foldl (fun o f => f o) s.vlt.otp } } := by
  induction fs generalizing s with
  | nil => rfl
  | cons f fs ih => exact ih (s.modOtp f)

/-- The burns of a message as changes of the fuses. -/
def burnt (v : Vlt) (m : List Byte) : List (Otp → Otp) :=
  let t := byteAt m 5
  if t = 16 then [fun o => { o with blank := true }]
  else if t = 2 then
    (match freeSlot v.otp with
     | some i => [(fun o => { o with ownerHash := mput i (sha384 (sub m 64 96)) o.ownerHash }),
         (fun o => { o with valid := o.valid ||| BitVec.ofNat 4 (2 ^ i) })]
     | none => [])
  else if t = 3 then
    (match liveSlot v.otp with
     | some i => [fun o => { o with released := o.released ||| BitVec.ofNat 4 (2 ^ i) }]
     | none => [])
  else if t = 4 then [fun o => { o with ret := true }]
  else if t = 5 then [fun o => { o with endFuse := true }]
  else []

theorem burnSteps_eq (v : Vlt) (m : List Byte) : burnSteps v m = (burnt v m).map (fun f s => s.modOtp f) := by
  unfold burnSteps burnt
  dsimp only
  split
  · rfl
  · split
    · cases freeSlot v.otp <;> rfl
    · split
      · cases liveSlot v.otp <;> rfl
      · split
        · rfl
        · split <;> rfl

theorem runSteps_burns (s : State) (m : List Byte) : runSteps (burnSteps s.vlt m) s =
    { s with vlt := { s.vlt with otp := (burnt s.vlt m).foldl (fun o f => f o) s.vlt.otp } } := by
  rw [burnSteps_eq, runSteps_modOtp]

end Burns

end Sys2Proof.Machine

namespace Sys2Proof.Proofs
open Sys2Proof.Machine

/-- Settles O47: each command by the loader's state and the checks, the commit and the burns by what they change. -/
theorem updatesApply : Obligations.UpdatesApply := by
  constructor
  · intro s who len d serves
    have run := serves.1.1
    refine ⟨fun h k => ⟨_, owner_next serves rfl rfl, updOpenOp_opens h k len.toNat⟩, fun h => owner_next serves rfl (updOpenOp_refused h _),
      fun h => owner_next serves rfl (updDataOp_takes h d),
      fun h => ⟨owner_next serves rfl (updDataOp_refused h d), owner_next serves rfl (updApplyOp_refused h)⟩,
      fun h => ⟨_, owner_next serves rfl rfl, updApplyOp_applies h⟩, fun h => ⟨_, owner_next serves rfl rfl, updCloseOp_aborts h⟩,
      fun h => owner_next serves rfl (updCloseOp_refused h), fun h k => ⟨_, owner_next serves rfl rfl, updCloseOp_closes h k⟩,
      fun ok h => live_next run rfl (updApplyDoneOp_idle h ok), fun ok runs cold => live_next run rfl (updApplyDoneOp_frozen runs cold ok),
      fun ok runs warm gone => live_next run rfl (updApplyDoneOp_zeroised runs warm gone ok), fun runs warm there => ?_⟩
    intro m u next burns
    have burn : burns ↔ updBurns s.vlt = true := by
      simp only [updBurns, Bool.or_eq_true, Bool.and_eq_true, decide_eq_true_eq]
      exact Iff.rfl
    refine ⟨fun ok bad agreed => live_next run rfl (updApplyDoneOp_refuses runs warm there bad agreed ok),
      fun ok six => live_next run rfl (updApplyDoneOp_disputed runs warm there six ok), fun accepted yes other => ?_,
      fun i accepted claim free => ?_, fun ok accepted goes => live_next run rfl (updApplyDoneOp_accepts runs warm there accepted ?_)⟩
    · exact live_next run rfl ((updApplyDoneOp_burnFails runs warm there accepted (burn.1 yes)).trans (by rw [claimRest_none (s := u) other]))
    · obtain ⟨h, rest⟩ := claimRest_claim (s := u) claim free
      have yes : burns := .inl (by rw [claim]; decide)
      exact ⟨h, live_next run rfl ((updApplyDoneOp_burnFails runs warm there accepted (burn.1 yes)).trans (by rw [rest]))⟩
    · exact goes.imp id (fun no => Bool.eq_false_iff.2 (fun yes => no (burn.2 yes)))
  · refine ⟨fun s record b current room small early _ => ?_, fun s m => ?_⟩
    · obtain ⟨good, rfl⟩ := currentBank_first current
      rw [commitBank_second current room small early]
      have second := bankGood_head (next := (s.vlt.bank0.epoch, s.vlt.bank0.count + 1)) early
        { s.vlt.bank1 with commit := 0, record := record, slot := BitVec.ofNat 8 (slotByte s.vlt.otp) }
      refine ⟨rfl, rfl, rfl, second, rfl, ?_, rfl⟩
      exact counterOf_second good second rfl (Nat.lt_succ_self _)
    · rw [runSteps_burns]
      refine ⟨rfl, fun t => ?_, fun t => ?_, fun i t free => ?_, fun i t live => ?_, fun t => ?_, fun t => ?_⟩
      · simp [burnt, t]
      · simp [burnt, t]
      · simp [burnt, t, free]
      · simp [burnt, t, live]
      · simp [burnt, t]
      · simp [burnt, t]

end Sys2Proof.Proofs
end

section
/-! SUPPORT. Fabric links and cells, HELLOs and routes: what a lane delivers by its delineation, what becomes of a cell by its
class and route, and the least distance as a route (13 R474, R475, R478 to R480). -/

namespace Sys2Proof.Machine

/-! ### The bytes of a cell (R475, R480) -/

section Bytes
variable {c : List Byte}

/-- The part of a byte string that stands between two others. -/
theorem sub_between {i n : Nat} {pre mid : List Byte} (hi : pre.length = i) (hn : mid.length = n) (post : List Byte) :
    sub (pre ++ mid ++ post) i n = mid := by
  rw [sub, List.append_assoc, List.drop_left' hi, List.take_left' hn]

theorem sub_length {i n : Nat} (h : i + n ≤ c.length) : (sub c i n).length = n := by
  rw [sub, List.length_take, List.length_drop]
  omega

/-- Within the first bytes a part is the part of those alone. -/
theorem sub_take {i n k : Nat} (h : i + n ≤ k) : sub (c.take k) i n = sub c i n := by
  rw [sub, sub, List.drop_take, List.take_take, Nat.min_eq_left (by omega)]

/-- The bytes of a number join those read before them. -/
theorem foldl_toBe (n v a : Nat) : (toBe n v).foldl (fun a b => a * 256 + b.toNat) a = a * 256 ^ n + v % 256 ^ n := by
  induction n generalizing a with
  | zero => simp [toBe, Nat.mod_one]
  | succ n ih =>
    have step : (BitVec.ofNat 8 (v / 256 ^ n)).toNat = v / 256 ^ n % 256 := BitVec.toNat_ofNat _ _
    rw [toBe, List.foldl_cons, ih, step, pow_succ, Nat.mod_mul]
    ring

theorem be_toBe {n v : Nat} (h : v < 256 ^ n) : be (toBe n v) = v := by
  rw [be, foldl_toBe, Nat.zero_mul, Nat.zero_add, Nat.mod_eq_of_lt h]

/-- The head of a forwarded cell: one hop less (R480). -/
def forwardHead (c : List Byte) : List Byte := c.take 3 ++ [BitVec.ofNat 8 (byteAt c 3 - 1)] ++ sub c 4 6

/-- A forwarded cell without its CRC. -/
def forwardBody (c : List Byte) : List Byte := forwardHead c ++ toBe 2 (crc16 (forwardHead c)).toNat ++ sub c 12 240

/-- A forwarded cell. -/
def forwarded (c : List Byte) : List Byte := forwardBody c ++ toBe 4 (crc32 (forwardBody c)).toNat

theorem splice_head (c : List Byte) : splice (c.take 10) 3 [BitVec.ofNat 8 (byteAt c 3 - 1)] = forwardHead c := by
  rw [splice, forwardHead, List.take_take, List.drop_take, sub]
  rfl

variable (whole : c.length = 256)
include whole

theorem forwardHead_length : (forwardHead c).length = 10 := by
  simp only [forwardHead, List.length_append, List.length_take, List.length_singleton, sub_length (c := c) (i := 4) (n := 6) (by omega)]
  omega

theorem forwardBody_length : (forwardBody c).length = 252 := by
  simp only [forwardBody, List.length_append, forwardHead_length whole, toBe_length, sub_length (c := c) (i := 12) (n := 240) (by omega)]

theorem forwarded_length : (forwarded c).length = 256 := by
  simp only [forwarded, List.length_append, forwardBody_length whole, toBe_length]

theorem forwarded_take10 : (forwarded c).take 10 = forwardHead c := by
  rw [forwarded, forwardBody, List.append_assoc, List.append_assoc, List.take_left' (forwardHead_length whole)]

theorem forwarded_take252 : (forwarded c).take 252 = forwardBody c := List.take_left' (forwardBody_length whole)

/-- Of the head only the hop count differs. -/
theorem forwarded_head : (forwarded c).take 3 = c.take 3 ∧ byteAt (forwarded c) 3 = byteAt c 3 - 1 ∧ sub (forwarded c) 4 6 = sub c 4 6 := by
  have three : (c.take 3).length = 3 := by rw [List.length_take]; omega
  have small : byteAt c 3 - 1 < 2 ^ 8 := lt_of_le_of_lt (Nat.sub_le _ _) (BitVec.isLt _)
  have front : forwarded c = c.take 3 ++ ([BitVec.ofNat 8 (byteAt c 3 - 1)] ++ (sub c 4 6 ++ (forwarded c).drop 10)) := by
    rw [← List.append_assoc, ← List.append_assoc, ← forwardHead, ← forwarded_take10 whole, List.take_append_drop]
  refine ⟨?_, ?_, ?_⟩
  · rw [front, List.take_left' three]
  · rw [front, byteAt, List.getD_append_right _ _ _ _ (by omega), three]
    exact (BitVec.toNat_ofNat _ _).trans (Nat.mod_eq_of_lt small)
  · rw [front, ← List.append_assoc, ← List.append_assoc]
    exact sub_between (by rw [List.length_append, three]; rfl) (sub_length (by omega)) _

theorem forwarded_payload : sub (forwarded c) 12 240 = sub c 12 240 := by
  rw [forwarded, forwardBody]
  exact sub_between (by rw [List.length_append, forwardHead_length whole, toBe_length]) (sub_length (by omega)) _

theorem forwarded_headOk (short : be (sub c 6 2) ≤ 240) : cellHeadOk (forwarded c) = true := by
  have check : sub (forwarded c) 10 2 = toBe 2 (crc16 (forwardHead c)).toNat := by
    rw [forwarded, forwardBody, List.append_assoc]
    exact sub_between (forwardHead_length whole) (toBe_length _ _) _
  have len : sub (forwarded c) 6 2 = sub c 6 2 := by
    have both : sub (sub (forwarded c) 4 6) 2 2 = sub (sub c 4 6) 2 2 := congrArg (sub · 2 2) (forwarded_head whole).2.2
    simpa [sub, List.drop_take, List.take_take, List.drop_drop] using both
  rw [cellHeadOk, check, len, forwarded_take10 whole, be_toBe (BitVec.isLt _)]
  simp [short]

theorem forwarded_crc : be (sub (forwarded c) 252 4) = (crc32 ((forwarded c).take 252)).toNat := by
  have last : sub (forwarded c) 252 4 = toBe 4 (crc32 (forwardBody c)).toNat := by
    rw [sub, forwarded, List.drop_left' (forwardBody_length whole), List.take_of_length_le (by rw [toBe_length])]
  rw [last, be_toBe (BitVec.isLt _), forwarded_take252 whole]

end Bytes

/-- The scrambler leaves a cell's head. -/
theorem cellScramble_len {l : Nat} {raw : List Byte} (whole : (cellScramble l raw).length = 256) :
    sub (cellScramble l raw) 6 2 = sub raw 6 2 := by
  have long : 12 ≤ raw.length := by
    by_contra short
    have none : raw.drop 12 = [] := List.drop_eq_nil_of_le (by omega)
    rw [cellScramble, laneScramble, scrambleFrom, none, List.length_append, List.length_take] at whole
    simp [bitsOf, scramble, bytesOf] at whole
    omega
  have head : (cellScramble l raw).take 12 = raw.take 12 := List.take_left' (by rw [List.length_take]; omega)
  rw [← sub_take (k := 12) (by decide), head, sub_take (by decide)]

/-! ### Delineation (R475) -/

section Delineate
variable {s : State} {n l : Nat} {raw : List Byte} {inPlace : Bool}

theorem cellRxOp_idle (h : s.laneSt .lnf (4 * n + l) ≠ 6 ∨ (s.korLane (32 + 4 * n + l)).locked = false) :
    cellRxOp n l inPlace raw s = s := if_pos h

variable (mission : s.laneSt .lnf (4 * n + l) = 6) (locked : (s.korLane (32 + 4 * n + l)).locked = true)
include mission locked

/-- A lane in MISSION with codeword lock passes the cell through its delineation. -/
theorem cellRxOp_runs : cellRxOp n l inPlace raw s =
    let r := cellDelineate s n l inPlace (cellHeadOk raw)
    if r.1 then takeCell r.2 n l raw else r.2 := by
  exact if_neg (by simp [mission, locked])

theorem cellRxOp_of {t : State} (h : cellDelineate s n l inPlace (cellHeadOk raw) = (false, t)) : cellRxOp n l inPlace raw s = t := by
  rw [cellRxOp_runs mission locked, h]
  exact if_neg Bool.false_ne_true

theorem cellRxOp_hunt (hunt : s.cellState n l = 0) : cellRxOp n l inPlace raw s = setCell s n l (b2n (cellHeadOk raw)) 0 := by
  refine cellRxOp_of mission locked ?_
  unfold cellDelineate
  rw [hunt]
  rfl

theorem cellRxOp_first (first : s.cellState n l = 1) : cellRxOp n l inPlace raw s =
    setCell s n l (if (inPlace && cellHeadOk raw) = true then 2 else b2n (cellHeadOk raw && !inPlace)) 0 := by
  refine cellRxOp_of mission locked ?_
  unfold cellDelineate
  rw [first]
  rfl

theorem cellRxOp_second (second : s.cellState n l = 2) (bad : (inPlace && cellHeadOk raw) = false) :
    cellRxOp n l inPlace raw s = setCell s n l (b2n (cellHeadOk raw && !inPlace)) 0 := by
  refine cellRxOp_of mission locked ?_
  unfold cellDelineate
  rw [second, bad]
  rfl

theorem cellRxOp_lost (sync : s.cellState n l = 3) (bad : (inPlace && cellHeadOk raw) = false)
    (two : mlook 0 (cellKey n l) s.fab.cellMiss = 2) : cellRxOp n l inPlace raw s = fabLinkDown (setCell s n l 0 0) n := by
  refine cellRxOp_of mission locked ?_
  unfold cellDelineate
  rw [sync, bad]
  exact (if_neg Bool.false_ne_true).trans (if_pos (by rw [two]))

theorem cellRxOp_misses (sync : s.cellState n l = 3) (bad : (inPlace && cellHeadOk raw) = false)
    (few : mlook 0 (cellKey n l) s.fab.cellMiss < 2) :
    cellRxOp n l inPlace raw s = setCell s n l 3 (mlook 0 (cellKey n l) s.fab.cellMiss + 1) := by
  refine cellRxOp_of mission locked ?_
  unfold cellDelineate
  rw [sync, bad]
  exact (if_neg Bool.false_ne_true).trans (if_neg (by omega))

theorem cellRxOp_delivers (synced : s.cellState n l = 2 ∨ s.cellState n l = 3) (good : (inPlace && cellHeadOk raw) = true) :
    cellRxOp n l inPlace raw s = takeCell (setCell s n l 3 0) n l raw := by
  have given : cellDelineate s n l inPlace (cellHeadOk raw) = (true, setCell s n l 3 0) := by
    unfold cellDelineate
    rcases synced with h | h <;> rw [h, good] <;> rfl
  rw [cellRxOp_runs mission locked, given]
  exact if_pos rfl

end Delineate

/-! ### A cell that a lane delivers (R474, R475, R478, R480) -/

section Take
variable {s : State} {n l : Nat} {raw : List Byte}

theorem takeCell_crc (bad : be (sub (cellScramble l raw) 252 4) ≠ (crc32 ((cellScramble l raw).take 252)).toNat) :
    takeCell s n l raw = s.inc Reg.FAB_CELL_CRC_ERR := if_pos bad

variable (right : be (sub (cellScramble l raw) 252 4) = (crc32 ((cellScramble l raw).take 252)).toNat)
include right

theorem takeCell_down (h : s.flag Reg.FAB_CFG_EN = false ∨ n ∉ s.fab.linkUp) : takeCell s n l raw = s :=
  (if_neg (not_not.2 right)).trans (if_pos (h.imp id (fun out => Bool.eq_false_iff.2 (mt List.contains_iff_mem.1 out))))

variable (on : s.flag Reg.FAB_CFG_EN = true) (up : n ∈ s.fab.linkUp)
include on up

/-- On a link that is up a cell is taken by its class. -/
theorem takeCell_up : takeCell s n l raw =
    let c := cellScramble l raw
    if byteAt c 0 = 0 then s
    else if 7 < byteAt c 0 then s.inc Reg.FAB_CELL_DROP
    else if byteAt c 0 = 1 then helloRx s n (byteAt c 2 / 4) (sub c 12 (be (sub c 6 2)))
    else if (mget n s.fab.neighbours).any (fun x => x.conflict) then s
    else if byteAt c 1 / 4 = s.fabAddr then consumeCell s (byteAt c 0) (byteAt c 2 / 4) (be (sub c 4 2)) (sub c 12 (be (sub c 6 2)))
    else forwardCell s c :=
  (if_neg (not_not.2 right)).trans (if_neg (by simp [on, up]))

theorem takeCell_idle (idle : byteAt (cellScramble l raw) 0 = 0) : takeCell s n l raw = s :=
  (takeCell_up right on up).trans (if_pos idle)

theorem takeCell_unknown (high : 7 < byteAt (cellScramble l raw) 0) : takeCell s n l raw = s.inc Reg.FAB_CELL_DROP :=
  (takeCell_up right on up).trans ((if_neg (by omega)).trans (if_pos high))

theorem takeCell_hello (hello : byteAt (cellScramble l raw) 0 = 1) : takeCell s n l raw =
    helloRx s n (byteAt (cellScramble l raw) 2 / 4) (sub (cellScramble l raw) 12 (be (sub (cellScramble l raw) 6 2))) :=
  (takeCell_up right on up).trans ((if_neg (by omega)).trans ((if_neg (by omega)).trans (if_pos hello)))

variable (low : 2 ≤ byteAt (cellScramble l raw) 0) (high : byteAt (cellScramble l raw) 0 ≤ 7)
include low high

theorem takeCell_conflict {x : Neighbour} (there : mget n s.fab.neighbours = some x) (conflict : x.conflict = true) : takeCell s n l raw = s :=
  (takeCell_up right on up).trans ((if_neg (by omega)).trans ((if_neg (by omega)).trans ((if_neg (by omega)).trans
    (if_pos (by rw [there]; exact conflict)))))

variable (calm : ∀ x, mget n s.fab.neighbours = some x → x.conflict = false)
include calm

theorem takeCell_routes : takeCell s n l raw =
    let c := cellScramble l raw
    if byteAt c 1 / 4 = s.fabAddr then consumeCell s (byteAt c 0) (byteAt c 2 / 4) (be (sub c 4 2)) (sub c 12 (be (sub c 6 2)))
    else forwardCell s c := by
  have none : ¬ (mget n s.fab.neighbours).any (fun x => x.conflict) = true := by
    cases there : mget n s.fab.neighbours with
    | none => exact Bool.false_ne_true
    | some x => exact Bool.eq_false_iff.1 (calm x there)
  exact (takeCell_up right on up).trans ((if_neg (by omega)).trans ((if_neg (by omega)).trans ((if_neg (by omega)).trans (if_neg none))))

end Take

section Forward
variable {s : State} {c : List Byte}

theorem forwardCell_drops (h : s.route (byteAt c 1 / 4) = none ∨ byteAt c 3 ≤ 1) : forwardCell s c = s.inc Reg.FAB_CELL_DROP := by
  unfold forwardCell
  dsimp only
  cases route : s.route (byteAt c 1 / 4) with
  | none => rfl
  | some r => exact if_pos (h.resolve_left (by simp [route]))

theorem forwardCell_sends {d m : Nat} (route : s.route (byteAt c 1 / 4) = some (d, m)) (hops : 1 < byteAt c 3) :
    forwardCell s c = emitCell s m ((byteAt c 1 / 4 + byteAt c 0) % 4) (forwarded c) := by
  unfold forwardCell
  dsimp only
  rw [route]
  refine (if_neg (by omega)).trans ?_
  rw [splice_head]
  rfl

end Forward

/-! ### Links and neighbours (R475, R478) -/

section Links
variable {s : State} {n : Nat}

theorem fabLinkUpOp_up (ready : s.linkReady n = true) (down : n ∉ s.fab.linkUp) :
    fabLinkUpOp n s = raise0 { s with fab := { s.fab with linkUp := ladd n s.fab.linkUp } } 0x7001 n :=
  if_pos ⟨ready, Bool.eq_false_iff.2 (mt List.contains_iff_mem.1 down)⟩

theorem fabLinkUpOp_idle (h : s.linkReady n = false ∨ n ∈ s.fab.linkUp) : fabLinkUpOp n s = s := by
  refine if_neg ?_
  rintro ⟨ready, down⟩
  simp_all

theorem neighbourLostOp_none (none : mget n s.fab.neighbours = none) : neighbourLostOp n s = s := by
  unfold neighbourLostOp
  rw [none]

theorem neighbourLostOp_some {x : Neighbour} (there : mget n s.fab.neighbours = some x) : neighbourLostOp n s =
    if x.conflict then s.modFab (fun f => { f with neighbours := mput n { x with valid := false } f.neighbours })
    else settleGroup { s with fab := { s.fab with neighbours := mdel n s.fab.neighbours } } := by
  unfold neighbourLostOp
  rw [there]
  rfl

end Links

/-! ### HELLOs (R474, R478) -/

/-- t is s after cells have left: no register and no counter changed, and of the fabric only SEQ and the bits in hand. -/
def Sends (s t : State) : Prop :=
  (∃ o, t.out = o ++ s.out) ∧ t.regs = s.regs ∧ t.cnt = s.cnt ∧ t.fab = { s.fab with seqs := t.fab.seqs, rest := t.fab.rest }

section Hello
variable {s t u : State} {n src : Nat} {p : List Byte}

theorem Sends.refl (s : State) : Sends s s := ⟨⟨[], rfl⟩, rfl, rfl, rfl⟩

theorem Sends.trans (h : Sends s t) (k : Sends t u) : Sends s u := by
  obtain ⟨⟨o, out⟩, regs, cnt, fab⟩ := h
  obtain ⟨⟨o', out'⟩, regs', cnt', fab'⟩ := k
  refine ⟨⟨o' ++ o, by rw [out', out, List.append_assoc]⟩, regs'.trans regs, cnt'.trans cnt, ?_⟩
  rw [fab', fab]

theorem Sends.seqs (s : State) (q : SMap Nat) : Sends s (s.modFab (fun f => { f with seqs := q })) := ⟨⟨[], rfl⟩, rfl, rfl, rfl⟩

theorem Sends.emitCell (s : State) (link l : Nat) (c : List Byte) : Sends s (emitCell s link l c) := by
  unfold Machine.emitCell
  dsimp only
  split
  · exact .refl s
  · exact ⟨⟨[_, _], rfl⟩, rfl, rfl, rfl⟩

theorem Sends.sendOn (s : State) (link cls dst : Nat) (payload : List Byte) : Sends s (sendOn s link cls dst payload) :=
  (Sends.seqs s _).trans (.emitCell _ _ _ _)

theorem Sends.sendIdle (s : State) (link l : Nat) : Sends s (sendIdle s link l) := (Sends.seqs s _).trans (.emitCell _ _ _ _)

theorem Sends.foldl {f : State → Nat → State} (each : ∀ s j, Sends s (f s j)) (js : List Nat) (s : State) : Sends s (js.foldl f s) := by
  induction js generalizing s with
  | nil => exact .refl s
  | cons j js ih => exact (each s j).trans (ih _)

theorem helloTxOp_off (off : s.flag Reg.FAB_CFG_EN = false) : helloTxOp s = s := if_neg (by simp [off])

/-- The HELLO of a link that is up goes before the idle cells. -/
theorem helloTxOp_sends {x : Neighbour} (on : s.flag Reg.FAB_CFG_EN = true) (up : s.fab.linkUp = [n])
    (there : mget n s.fab.neighbours = some x) : Sends (sendOn s n cellHello x.addr (helloBytes s n)) (helloTxOp s) := by
  have first : s.fab.linkUp.foldl sendHello s = sendOn s n cellHello x.addr (helloBytes s n) := by
    rw [up, List.foldl_cons, List.foldl_nil, sendHello, there]
  unfold helloTxOp
  rw [if_pos on, first]
  refine Sends.foldl (fun t j => ?_) _ _
  dsimp only
  split
  · exact .sendIdle t _ _
  · exact .refl t

theorem helloRx_length (bad : p.length ≠ 76) : helloRx s n src p = s := if_pos bad

/-- The neighbour that a HELLO gives. -/
def heardNeighbour (s : State) (src : Nat) (p : List Byte) : Neighbour :=
  { addr := src, group := BitVec.ofNat 16 (be (sub p 8 2)), vector := sub p 12 64, valid := true, conflict := decide (src = s.fabAddr) }

/-- The link's neighbour is the sender; another address gives its group too. -/
def heard (s : State) (n src : Nat) (p : List Byte) : State := s.modFab (fun f => { f with
  neighbours := mput n (heardNeighbour s src p) f.neighbours,
  groups := if src = s.fabAddr then f.groups else mstore 0 src (be (sub p 8 2)) f.groups })

theorem heard_neighbour (s : State) (n src : Nat) (p : List Byte) : mget n (heard s n src p).fab.neighbours = some (heardNeighbour s src p) :=
  mget_mput_same _ _ _

theorem helloRx_hears (whole : p.length = 76) : helloRx s n src p = settleGroup
    (if decide (src = s.fabAddr) && !(mget n s.fab.neighbours).any (fun x => x.conflict) then raise0 (heard s n src p) 0x7003 n
     else heard s n src p) := by
  unfold helloRx
  rw [if_neg (not_not.2 whole)]
  simp only [heard, heardNeighbour, decide_eq_true_eq]

end Hello

/-! ### Routes (R479) -/

/-- The better of the best route so far and a link's. -/
def nearer (s : State) (a : Nat) (best : Option (Nat × Nat)) (n : Nat) : Option (Nat × Nat) :=
  match s.distVia n a, best with
  | some d, none => some (d, n)
  | some d, some (b, m) => if d < b then some (d, n) else some (b, m)
  | none, b => b

/-- The least distance to an address over the first links, the lowest link among equals. -/
def Nearest (s : State) (a n : Nat) (best : Option (Nat × Nat)) : Prop :=
  (∀ d m, best = some (d, m) → m < n ∧ s.distVia m a = some d ∧ ∀ k < n, ∀ e, s.distVia k a = some e → d ≤ e ∧ (d = e → m ≤ k)) ∧
  (best = none → ∀ k < n, s.distVia k a = none)

section Route
variable {s : State} {a n : Nat}

theorem Nearest.next {best : Option (Nat × Nat)} (h : Nearest s a n best) : Nearest s a (n + 1) (nearer s a best n) := by
  obtain ⟨found, none⟩ := h
  cases dist : s.distVia n a with
  | none =>
    have same : nearer s a best n = best := by
      unfold nearer
      rw [dist]
    rw [same]
    refine ⟨fun d m is => ?_, fun is k hk => ?_⟩
    · obtain ⟨hm, via, least⟩ := found d m is
      refine ⟨by omega, via, fun k hk e he => ?_⟩
      rcases Nat.lt_succ_iff_lt_or_eq.1 hk with before | rfl
      · exact least k before e he
      · exact absurd (dist.symm.trans he) (by simp)
    · rcases Nat.lt_succ_iff_lt_or_eq.1 hk with before | rfl
      · exact none is k before
      · exact dist
  | some d =>
    cases best with
    | none =>
      have taken : nearer s a .none n = some (d, n) := by
        unfold nearer
        rw [dist]
      rw [taken]
      refine ⟨fun d' m is => ?_, fun is => absurd is (by simp)⟩
      obtain ⟨rfl, rfl⟩ : d = d' ∧ n = m := by simpa using is
      refine ⟨Nat.lt_succ_self _, dist, fun k hk e he => ?_⟩
      rcases Nat.lt_succ_iff_lt_or_eq.1 hk with before | rfl
      · exact absurd ((none rfl k before).symm.trans he) (by simp)
      · obtain rfl : d = e := by simpa [dist] using he
        exact ⟨le_rfl, fun _ => le_rfl⟩
    | some r =>
      obtain ⟨b, m⟩ := r
      obtain ⟨hm, via, least⟩ := found b m rfl
      have choice : nearer s a (some (b, m)) n = if d < b then some (d, n) else some (b, m) := by
        unfold nearer
        rw [dist]
      rw [choice]
      refine ⟨fun d' m' is => ?_, fun is => ?_⟩
      · split at is
        · obtain ⟨rfl, rfl⟩ : d = d' ∧ n = m' := by simpa using is
          refine ⟨Nat.lt_succ_self _, dist, fun k hk e he => ?_⟩
          rcases Nat.lt_succ_iff_lt_or_eq.1 hk with before | rfl
          · have := (least k before e he).1
            omega
          · obtain rfl : d = e := by simpa [dist] using he
            exact ⟨le_rfl, fun _ => le_rfl⟩
        · obtain ⟨rfl, rfl⟩ : b = d' ∧ m = m' := by simpa using is
          refine ⟨by omega, via, fun k hk e he => ?_⟩
          rcases Nat.lt_succ_iff_lt_or_eq.1 hk with before | rfl
          · exact least k before e he
          · obtain rfl : d = e := by simpa [dist] using he
            omega
      · split at is <;> exact absurd is (by simp)

theorem nearest_foldl (s : State) (a : Nat) : ∀ n, Nearest s a n ((List.range n).foldl (nearer s a) none)
  | 0 => ⟨fun _ _ is => absurd is (by simp), fun _ _ hk => absurd hk (Nat.not_lt_zero _)⟩
  | n + 1 => by
    rw [List.range_succ, List.foldl_append]
    exact (nearest_foldl s a n).next

theorem route_nearest (on : s.flag Reg.FAB_CFG_EN = true) (other : a ≠ s.fabAddr) : Nearest s a 4 (s.route a) := by
  have route : s.route a = (List.range 4).foldl (nearer s a) none := (if_neg (by simp [on])).trans (if_neg other)
  rw [route]
  exact nearest_foldl s a 4

theorem distVia_le {d : Nat} (h : s.distVia n a = some d) : d ≤ 14 := by
  unfold State.distVia at h
  split at h
  · dsimp only at h
    split at h
    · obtain rfl := Option.some.inj h
      omega
    · exact absurd h (by simp)
  · exact absurd h (by simp)

end Route

end Sys2Proof.Machine

namespace Sys2Proof.Proofs
open Sys2Proof.Machine

/-- Settles O50: a cell by its lane's delineation and its class, a HELLO by its sender, a route as the nearest neighbour's. -/
theorem fabricLinks : Obligations.FabricLinks := by
  constructor
  · intro s n l inPlace raw run rx c cls dst src p good found
    refine ⟨fun h => live_next run rfl (cellRxOp_idle h), fun mission locked => ⟨fun hunt => live_next run rfl (cellRxOp_hunt mission locked hunt),
        fun first => live_next run rfl (cellRxOp_first mission locked first),
        fun second bad => live_next run rfl (cellRxOp_second mission locked second bad),
        fun sync bad => ⟨fun two => live_next run rfl (cellRxOp_lost mission locked sync bad two),
          fun few => live_next run rfl (cellRxOp_misses mission locked sync bad few)⟩, fun synced fits => ?_⟩,
      fun ready down => live_next run rfl (fabLinkUpOp_up ready down), fun h => live_next run rfl (fabLinkUpOp_idle h),
      fun none => live_next run rfl (neighbourLostOp_none none), fun x there => live_next run rfl (neighbourLostOp_some there)⟩
    intro t
    have delivered {u : State} (taken : takeCell t n l raw = u) : rx = .next u :=
      live_next run rfl ((cellRxOp_delivers mission locked synced fits).trans taken)
    refine ⟨fun bad => delivered (takeCell_crc bad), fun right => ⟨fun h => delivered (takeCell_down right h), fun on up =>
      ⟨fun idle => delivered (takeCell_idle right on up idle), fun high => delivered (takeCell_unknown right on up high),
        fun hello => delivered (takeCell_hello right on up hello),
        fun x there conflict low high => delivered (takeCell_conflict right on up low high there conflict), fun low high calm => ?_⟩⟩⟩
    have routed := takeCell_routes (s := t) right on up low high calm
    refine ⟨fun other h => delivered (routed.trans ((if_neg other).trans (forwardCell_drops h))), fun d m other route hops whole => ?_,
      fun own => delivered (routed.trans (if_pos own))⟩
    obtain ⟨head, hop, rest⟩ := forwarded_head whole
    have short : be (sub c 6 2) ≤ 240 := by
      have valid : cellHeadOk raw = true := (Bool.and_eq_true_iff.1 fits).2
      rw [cellScramble_len whole]
      exact of_decide_eq_true (Bool.and_eq_true_iff.1 valid).2
    exact ⟨forwarded c, delivered (routed.trans ((if_neg other).trans (forwardCell_sends route hops))), forwarded_length whole, hop, head, rest,
      forwarded_payload whole, forwarded_headOk whole short, forwarded_crc whole⟩
  · intro s n src a p run
    refine ⟨fun off => live_next run rfl (helloTxOp_off off), fun x on up there => ?_, helloRx_length, fun whole other => ?_,
      fun whole own none => ?_, fun on other => ?_⟩
    · have sent := helloTxOp_sends on up there
      obtain ⟨o, out⟩ := sent.1
      obtain ⟨-, regs, cnt, fab⟩ := (Sends.sendOn s n cellHello x.addr (helloBytes s n)).trans sent
      exact ⟨helloTxOp s, o, live_next run rfl rfl, out, regs, cnt, fab⟩
    · refine ⟨heard s n src p, (helloRx_hears whole).trans (by simp [other]), ?_, rfl⟩
      rw [heard_neighbour, heardNeighbour, decide_eq_false other]
    · refine ⟨heard s n src p, (helloRx_hears whole).trans (by simp [own, none]), ⟨_, heard_neighbour s n src p, decide_eq_true own⟩, rfl⟩
    · obtain ⟨found, none⟩ := route_nearest on other
      refine ⟨fun d m route => ?_, none⟩
      obtain ⟨low, via, least⟩ := found d m route
      exact ⟨low, distVia_le via, via, least⟩

end Sys2Proof.Proofs
end
